-- ==== Sys2Proof/Word.lean ====
section
/-! DEFINITION. The word types of the DX48 (spec 24 R424: registers are 32 bits wide) and the sparse table type every indexed store of the state uses. -/

namespace Sys2Proof

/-- One byte. -/
abbrev Byte := BitVec 8
/-- A status code or half-word (12 R230, 04 R57). -/
abbrev Half := BitVec 16
/-- A register (24 R424). -/
abbrev Word := BitVec 32
/-- A register pair, a tag or a host address (10 R174: every DMA address is 64 bits). -/
abbrev Quad := BitVec 64
/-- A sequence of bytes, offset 0 first (00, Numbers, bits and bytes). -/
abbrev Bytes := List Byte

/-- A sparse table: pairs of an index and an entry, indices strictly rising. -/
abbrev Tab (α : Type) := List (Nat × α)

end Sys2Proof
end

