-- ==== Sys2Proof/Syntax.lean ====
section
/-! DEFINITION. The commands the block takes: one constructor of `Instr` per row of spec/opcode_table.json. The table gives no operand bits, so the operands are the object a row acts on, the values the outside puts in, and the physical outcome where the spec leaves it to the board, the link or a timing (00 R447). -/

namespace Sys2Proof

/-- 00 R4: a stall is behind VF n+1. `pf` is the manager's own function. -/
inductive Func where
  | pf
  | vf (n : Fin 64)
deriving DecidableEq, Repr

/-- 12 R210: a ring belongs to a stall or to the PF. -/
inductive RingId where
  | stall (n : Fin 64)
  | pf
deriving DecidableEq, Repr

/-- 13 R234 and 16 R290: who issues a request. -/
inductive Issuer where
  | stall (n : Fin 64)
  | pf
  | krovlo (origin : Fin 16)
  | mgt
  | secure
deriving DecidableEq, Repr

/-- 06 R91: the hardware masters besides host register access, by their numbers 0x10 and 0x12 to 0x17. The debug port's world is that of the right it uses. -/
inductive HwMaster where
  | hifDma | krovlo | sym | bootWitness | recorder | mgt | debug (secure : Bool)
deriving DecidableEq, Repr

/-- 06 R107: an access moves data, fetches an instruction, or is atomic. -/
inductive AccKind where
  | data | fetch | atomic
deriving DecidableEq, Repr

/-- What an access is part of: its kind and, where a processor or an engine serves a command with it, the request it serves (06 R110). -/
structure AccUse where
  kind : AccKind := .data
  serving : Option Nat := none
deriving DecidableEq, Repr

/-- 06 R91: the master behind an access. A command processor carries its world bit; a hardware master has the world of the table. -/
inductive Master where
  | host (f : Func)
  | cp (n : Fin 4) (secure : Bool) (u : AccUse := {})
  | hw (m : HwMaster) (u : AccUse := {})
deriving DecidableEq, Repr

/-- 03 R50: the far islands, in the order of their codes 1 to 8. -/
inductive Island where
  | pke0 | pke1 | pke2 | pke3 | sym | aon | pcie | krovlo
deriving DecidableEq, Repr

/-- 11 R189: MODE of a RESET or REMOVE. -/
inductive Mode where
  | squash | drain
deriving DecidableEq, Repr

/-- 20 R361. -/
inductive Port where
  | up | dn
deriving DecidableEq, Repr

/-- 08: the two card slots. -/
inductive Slot where
  | a | b
deriving DecidableEq, Repr

/-- 11 R197: the two sides of a message board. -/
inductive Side where
  | pf | vf
deriving DecidableEq, Repr

/-- 13 R236: a request as a command processor takes it: its issuer, where it stands in the ring, and the fields of the command header (12 R220) with its parameter bytes. -/
structure Request where
  issuer : Issuer
  sqIndex : Nat := 0
  tag : Quad := 0
  key : Word := 0
  ownerId : Word := 0
  params : Bytes := []
  dataCap : Nat := 0
  /-- 07 R136: a slot whose key it uses reads with a mask mismatch -/
  keyMask : Bool := false
deriving DecidableEq, Repr

/-- Level of VIO_BF and VIO_MGT against the ranges of 25 R430. -/
inductive Vio where
  | absent | v18 | v33 | bad
deriving DecidableEq, Repr

/-- 09 R156: what is seen at MESH_INn when a pair does not show its own pattern. -/
inductive MeshSeen where
  | midRail | stuckLow | stuckHigh | otherPattern
deriving DecidableEq, Repr

/-- What the board, the crystals, the flashes and the self-tests give a start-up (03 R52, R450): every entry is an outcome the spec leaves to the physical part. -/
structure StartEnv where
  vbatOk : Bool := true
  rsvOk : Bool := true
  xtalOk : Bool := true
  vioGenOk : Bool := true
  chainHead : Bool := false
  bwMode : BitVec 2 := 1
  flashV : Bool := false
  vioBf : Vio := .v18
  vioMgt : Vio := .v18
  flashPathOk : Bool := true
  flashQuadOk : Bool := true
  /-- the reads that the boot flash's SFDP offers (18 R323, R340) -/
  flashReads : List Byte := [0x0B, 0x6B, 0xEB, 0x0C, 0x6C, 0xEC]
  directoryOk : Bool := true
  /-- the private flash's SFDP offers 8D-8D-8D (19 R342) -/
  sfdpOctal : Bool := true
  ownerTagOk : Bool := true
  /-- which of the (up to three) entropy start-up tests pass (17 R320) -/
  entropyOk : Bool := true
  /-- lanes 0-7 AES, 8-11 hash that fail their known-answer test -/
  laneBad : BitVec 12 := 0
  /-- engines that fail their known-answer test (16 R308) -/
  pkeBad : BitVec 4 := 0
  checkpointOk : Bool := true
  /-- what the always-on island finds when it powers up (09 R154, R168): mesh pairs that do not show their own pattern, lids and monitors in alarm, these in the order of `Monitor` -/
  mesh : List (Fin 8 × MeshSeen) := []
  lidBad : BitVec 4 := 0
  monBad : BitVec 8 := 0
deriving DecidableEq, Repr

/-- 09 R158: the monitors, by the bits of TMP.CAUSE. -/
inductive Monitor where
  | light | temperature | coreVoltage | vmainOver | vbatOver | fabricClock | xtal | osc32
deriving DecidableEq, Repr

/-- 09 R154: a source by its place in TMP.STATUS. -/
inductive TamperSource where
  | mesh (n : Fin 8)
  | lid (n : Fin 4)
  | monitor (m : Monitor)
deriving DecidableEq, Repr

/-- 03 R42: what wakes the device. -/
inductive WakeCause where
  | barAccess | linkLeft | bootFlashCs | krovloFrame | cardDetect | timer | timer32k | mgtAccess | tamper
deriving DecidableEq, Repr

/-- 10 R184. -/
inductive HotCause where
  | perst | inBand | disabled | dlDown
deriving DecidableEq, Repr

/-- 10 R182: the classes of PCIe error rows. -/
inductive PcieCorr where
  | receiver | badTlp | badDllp | replayTimer | replayRollover
deriving DecidableEq, Repr
inductive PcieAdv where
  | poisonedWrite | unexpectedCompletion
deriving DecidableEq, Repr
inductive PcieFatal where
  | malformed | overflow | flowControl | dataLink
deriving DecidableEq, Repr
inductive DmaErr where
  | poisoned | unsupported | aborted
deriving DecidableEq, Repr

/-- 12 R215, 10 R183: how the writes of a completion fare. `resultFail` leaves the given result bytes in the buffer. -/
inductive WriteOutcome where
  | ok
  | resultFail (written : Bytes)
  | entryFail
  | bitmapFail
deriving DecidableEq, Repr

/-- 05 R78, R80: a debug access and what it names. -/
inductive DebugKind where
  | read | write | trace | halt | step | release | breakpoint
deriving DecidableEq, Repr
/-- 05 R80: A, N, S, Y, P, and the key-bearing stores of R79. -/
inductive DebugWhat where
  | regs | sramNormal | sramSecure | yard | pkeMem | keyStore
deriving DecidableEq, Repr
structure DebugAcc where
  kind : DebugKind
  what : DebugWhat := .regs
  /-- world the access enters -/
  secure : Bool := false
  cp : Fin 4 := 0
  /-- through the PF debug window instead of the TAP -/
  viaPf : Bool := false
  addr : Nat := 0
  value : Byte := 0
  /-- names an island whose clock DOZE gates (05 R85) -/
  gatedIsland : Bool := false
deriving DecidableEq, Repr

/-- 08 R137: the commands of the card bus; CMD6 sets the bus width, then the timing; blocks are those of R142. -/
inductive CardCmd where
  | cmd0 | cmd1 | cmd3 | cmd7 | cmd6Width | cmd6Timing | cmd13 | cmd15
  | cmd17 (block : Fin 3)
  | cmd24 (block : Fin 3)
deriving DecidableEq, Repr
/-- 08 R139, R150: the bus errors. -/
inductive CardErr where
  | noResponse | crc7 | r3Bits | crc16 | crcToken | readTimeout | noBlock | busyTimeout
deriving DecidableEq, Repr
/-- A bus error: the command that failed and how; `again` where it is the command that failed last, repeated. -/
structure BusFail where
  slot : Slot
  cmd : CardCmd
  err : CardErr := .noResponse
  again : Bool := false
deriving DecidableEq, Repr
/-- 08 R138: the response to CMD1, none where there is none; and, of a card that is ready, whether it takes the two CMD6. -/
structure CmdAnswer where
  response : Option Word
  widthOk : Bool := true
  timingOk : Bool := true
deriving DecidableEq, Repr

/-- 08 R142: what a card shows and answers. -/
structure CardDesc where
  format : Half := 0xC101
  tackState : Byte
  index : Byte
  owner : Byte
  serial : Bytes
  pub : Bytes
deriving DecidableEq, Repr
structure CardReplyBlock where
  format : Half := 0xC112
  result : Byte
  /-- share and GCM tag, bytes [8:71] -/
  share : Bytes
  signature : Bytes
deriving DecidableEq, Repr

/-- 18 R329: an array read of the host; `addr` is the address as it stands on the wires, `bytes` what the flash would give. -/
structure FlashRead where
  op : Byte := 0x0B
  addr : Nat
  bytes : Bytes
deriving DecidableEq, Repr

/-- 20 R365: the link header, less TYPE, LEN and HCRC. -/
structure LinkHdr where
  origin : Byte := 0
  dest : Byte := 0xFF
  retx : Bool := false
  hops : Nat := 0
  seq : Word := 0
deriving DecidableEq, Repr

/-- 20 R374: the body of a STATUS frame. -/
structure StatusBody where
  devId : Bytes
  lcState : Byte
  role : Byte
  fwVersion : Word
  epoch : Quad
  admDigest : Bytes
  time : Quad
  attestPub : Bytes
deriving DecidableEq, Repr

/-- 20 R378: the body of a REPLICA frame; `cipher` is the stored form under GCM followed by its tag. -/
structure ReplicaBody where
  type : Byte
  usage : Half
  length : Nat
  owner : Byte
  mode : Byte
  srcHandle : Word
  nonce : Bytes
  cipher : Bytes
deriving DecidableEq, Repr

/-- 20 R380: the body of a RESULT frame. -/
structure ResultBody where
  first : Bool
  more : Bool
  reqSeq : Word
  offset : Nat
  total : Nat
  completion : Bytes
  result : Bytes
deriving DecidableEq, Repr

/-- 20 R365: the frames by their TYPE. -/
inductive FBody where
  | data (request : Bytes)
  | ack (ackSeq : Word) (rxFree : Nat) (nak : Bool)
  | status (b : StatusBody)
  | enumerate (h : Bytes) (next : Nat)
  | enumBack (h : Bytes) (next : Nat)
  | roster (h : Bytes) (units : Nat) (closed : Bool) (delays : List Nat)
  | replica (b : ReplicaBody)
  | replAck (srcHandle : Word)
  | cosignReq (digest : Bytes)
  | cosign (devId : Bytes) (sig : Bytes)
  | config (epoch : Quad) (admitted : List Bytes)
  | configReq
  | replDrop (srcHandle : Word)
  | result (b : ResultBody)
deriving DecidableEq, Repr

structure Frame where
  hdr : LinkHdr
  body : FBody
deriving DecidableEq, Repr

/-- 20 R364: what a port learns from TRAIN blocks. -/
structure TrainInfo where
  inverted : BitVec 2 := 0
  swapped : Bool := false
  /-- port value the peer reports -/
  peerPort : Port
  ack : Bool := true
deriving DecidableEq, Repr

/-- 20 R366. -/
inductive Corrupt where
  | falseMark | badBody
deriving DecidableEq, Repr

/-- 21 R387: an edge on the capture pin of a timer. -/
structure PinEdge where
  t : Fin 16
  rising : Bool
deriving DecidableEq, Repr

/-- 22 R393-R395: one packet on SMBus or I3C. -/
structure McPacket where
  i3c : Bool := false
  pecOk : Bool := true
  som : Bool
  eom : Bool
  pktSeq : Fin 4
  tag : Fin 8
  src : Byte
  dst : Byte
  ic : Bool := false
  payload : Bytes
deriving DecidableEq, Repr

/-- Identity of a message in assembly (22 R395): source endpoint and tag. -/
structure AsmKey where
  src : Byte
  tag : Fin 8
deriving DecidableEq, Repr

/-- 12 R222: who sends fragments. -/
inductive FragSrc where
  | krovlo (origin : Fin 16)
  | mgt
deriving DecidableEq, Repr

/-- 14 R270: what reading the classifier memories met. -/
inductive ClsEcc where
  | clean | corrected | uncorrectable
deriving DecidableEq, Repr

/-- 14 R261: the Eddy opens the envelope of a request; whether the slot of its key reads with a mask mismatch (07 R136), and what the second pass meets in the classifier memories (14 R270). -/
structure EddyUse where
  rid : Nat
  keyMask : Bool := false
  ecc : ClsEcc := .clean
deriving DecidableEq, Repr

/-- What a dispatch meets on its reads: 15 R287 the cells of the request (single-bit error, data, link or owner tag), 07 R136 the key slot it names, 19 R357 program units of the private store. `critical`: it cannot be shown that the range held no byte of a critical record. -/
inductive ReadMet where
  | clean | corrected | cellData | cellLink | keyMask
  | unitTag (offset units : Nat) (critical : Bool)
deriving DecidableEq, Repr

/-- 15 R287: what a read of cells, or the reclamation scan, meets: a corrected bit, or an uncorrectable one in the data, or in a link or owner tag. -/
inductive CellMet where
  | clean | corrected | data | link
deriving DecidableEq, Repr
/-- 15 R276: a READ of a queue. -/
structure YardRead where
  queue : Fin 512
  met : CellMet := .clean
deriving DecidableEq, Repr
/-- 11 R200: steps 6 to 8 of the reset of a stall; whether the scan of step 6 meets a bad owner tag (15 R287). -/
structure ResetEnd where
  stall : Fin 64
  tagBad : Bool := false
deriving DecidableEq, Repr

/-- 16 R293, R294: how an engine's own checks end an operation, and whether a word reads back non-zero after its clearing (R305). -/
inductive PkeOutcome where
  | ok | checkFail | limit | nonZeroReadback | checkFailNonZero | limitNonZero
deriving DecidableEq, Repr

/-- 17 R317: causes of RNG_STATUS.CAUSE. -/
inductive RngCause where
  | repetition | adaptive | startup | kat
deriving DecidableEq, Repr

/-- 17 R318, 16 R308, 17 R320: what a SELF_TEST measures. -/
abbrev TestBits := BitVec 16

/-- The commands: one per row of spec/opcode_table.json, in its order. -/
inductive Instr where
  -- 13 R239-R254: host opcodes, as a command processor takes them
  | nop (r : Request)
  | infoDevice (r : Request)
  | infoStall (r : Request)
  | keyGenerate (r : Request)
  | keyImport (r : Request)
  | keyLoad (r : Request)
  | keyUnload (r : Request)
  | keyWrap (r : Request)
  | keySetUsage (r : Request)
  | keyExport (r : Request)
  | keyAonPut (r : Request)
  | keyInfo (r : Request)
  | keyPublic (r : Request)
  | pkSign (r : Request)
  | pkVerify (r : Request)
  | pkEncaps (r : Request)
  | pkDecaps (r : Request)
  | pkAgree (r : Request)
  | pkMacRun (r : Request)
  | symCipher (r : Request)
  | symMac (r : Request)
  | hash (r : Request)
  | symKdf (r : Request)
  | symKw (r : Request)
  | symRng (r : Request)
  | ownerCreate (r : Request)
  | ownerDelete (r : Request)
  | ownerBind (r : Request)
  | ownerUnbind (r : Request)
  | ownerSetPolicy (r : Request)
  | quorumStatus (r : Request)
  | quorumCancel (r : Request)
  | bwLoadManifest (r : Request)
  | bwSeal (r : Request)
  | bwGetJournal (r : Request)
  | logAppend (r : Request)
  | logRead (r : Request)
  | logStatus (r : Request)
  | chnStatus (r : Request)
  | chnReplicate (r : Request)
  | chnAdmit (r : Request)
  | chnSetEpoch (r : Request)
  | lcGetState (r : Request)
  | lcTransition (r : Request)
  | lcResume (r : Request)
  | dbgChallenge (r : Request)
  | dbgResponse (r : Request)
  | pkeSetChannel (r : Request)
  | ledgerRead (r : Request)
  | fwStage (r : Request)
  | fwActivate (r : Request)
  | selfTest (r : Request) (failed : TestBits)
  -- 04, 05: TAP
  | testUnlock (token : Bytes) (index : Fin 32) (state : Fin 8) (env : StartEnv)
  | dbgChal (env : StartEnv)
  | dbgResp (cert : Bytes) (env : StartEnv)
  | bypass (env : StartEnv)
  | idcode (env : StartEnv)
  | samplePreload (env : StartEnv)
  | extest
  | extestExit (env : StartEnv)
  | tapReset (byTrst : Bool) (env : StartEnv)
  | debugAccess (a : DebugAcc)
  | internalScanEntry (island : Fin 9)
  -- 03: power, reset, registers, supplies
  | requestDoze
  | requestStandby
  | powerStateEntry
  | powerRequestRefuse
  | wake (cause : WakeCause)
  | wakeComplete (unlocked : List Island)
  | soft (env : StartEnv)
  | registerWrite (src : Master) (addr : Nat) (size : Nat) (value : Bytes)
  | rcFieldRead (src : Master) (addr : Nat) (size : Nat)
  | vmainGood (env : StartEnv)
  | strapSample (env : StartEnv)
  | perstRelease
  | linkTrained (width : Fin 5) (speed : Fin 6)
  | rootRecheck
  | vmainLost
  | vbatLost
  | vrsvLow
  | crossingTimeout (island : Island)
  | crossingCodeFail (island : Island)
  | pkeClockChange (e : Fin 4)
  | pkePllRelock (e : Fin 4)
  -- 09
  | meshAlarm (pair : Fin 8) (seen : MeshSeen) (reserveHeld : Bool)
  | lidAlarm (lid : Fin 4) (reserveHeld : Bool)
  | monitorAlarm (m : Monitor) (atVmainFall : Bool) (reserveHeld : Bool)
  | vaultTamper (src : TamperSource) (seen : MeshSeen) (vbatHeld : Bool)
  | tamperReset (env : StartEnv)
  | tamperHoldRecheck
  -- 06
  | swdtKick (src : Master) (key : Half)
  | swdtWarning
  | swdtExpire (env : StartEnv)
  | handover (src : Master) (periph : Fin 32) (toSecure : Bool)
  | handoverComplete
  | policyBarrier (src : Master)
  | barrierComplete
  | violationPop (src : Master)
  -- 01, 23
  | ledgerCheck
  | secureReset (env : StartEnv)
  | classDPauseTimeout
  -- 10
  | vfEnable
  | vfDisable
  | vfFlr (n : Fin 64)
  | pfFlr
  | busMasterDisable (f : Func)
  | msixUnblock (f : Func) (vector : Fin 16)
  | d3hotEntry
  | d0Return
  | configRequest (f : Func) (offset : Nat) (write : Option Word)
  | hotReset (cause : HotCause)
  | pcieCorrectableError (f : Func) (k : PcieCorr)
  | pcieAdvisoryError (f : Func) (k : PcieAdv)
  | pcieFatalError (k : PcieFatal)
  | dmaCompletion (tag : Nat) (bytes : Bytes)
  | dmaCompletionError (tag : Nat) (k : DmaErr)
  | completionTimeout (tag : Nat)
  -- 11
  | enable (n : Fin 64)
  | pause (n : Fin 64)
  | resume (n : Fin 64)
  | reset (n : Fin 64) (mode : Mode)
  | remove (n : Fin 64) (mode : Mode)
  | drainCap (n : Fin 64)
  | stallResetComplete (e : ResetEnd)
  | partitionChange (log2n : Fin 8)
  | mbSend (n : Fin 64) (side : Side)
  | swap (n : Fin 64)
  -- 12
  | ringEnable (ring : RingId) (side : Side) (depthLog2 : Fin 16)
  | ringRestoreWrite (ring : RingId) (reg : Fin 3) (value : Word)
  | sqTail (ring : RingId) (side : Side) (value : Word)
  | cqHead (ring : RingId) (side : Side) (value : Word)
  | weirTick
  | entryFetch (ring : RingId) (outerLen : Nat)
  | entryReceived (ring : RingId) (entry : Bytes)
  | commandDispatch (queue : Fin 512) (met : ReadMet)
  | completionWrite (rid : Nat) (outcome : WriteOutcome)
  -- 14
  | requestClassify (rid : Nat) (ecc : ClsEcc)
  | eddy (u : EddyUse)
  | trapPop (src : Master)
  | fragmentReceived (src : FragSrc) (bytes : Bytes)
  | fragmentRunTimeout (src : FragSrc)
  | switch
  | epochBankSwap
  | epochOldDrainEnd
  | epochCopyDone
  -- 15
  | read (r : YardRead)
  | mark (q : Fin 512)
  | rewind (q : Fin 512)
  | release (q : Fin 512)
  | packetEnd (q : Fin 512) (bytes : Bytes)
  | packetAbandon (rid : Nat)
  | cellReentry (cell : Fin 32768)
  | stranded (q : Fin 512)
  -- 16, 17
  | pkeOperationStart (e : Fin 4)
  | pkeDone (e : Fin 4) (outcome : PkeOutcome) (runMicros : Nat)
  | pkeWindowStart
  | abort (e : Fin 4) (src : Master)
  | aborted (e : Fin 4) (zeroed : Bool)
  | symLaneDone (lane : Fin 12)
  | rngHealthFail (cause : RngCause)
  | drbgReseed
  -- 08
  | cardInsert (slot : Slot)
  | slotPowerUp (slot : Slot)
  | cardPull (slot : Slot)
  | cmd1Poll (slot : Slot) (answer : CmdAnswer)
  | cardBusError (e : BusFail)
  | cardSupplyLimit (slot : Slot)
  | short (slot : Slot)
  | issue (slot : Slot) (desc : CardDesc)
  | present (slot : Slot) (desc : CardDesc)
  | cardReply (slot : Slot) (reply : CardReplyBlock) (after : CardDesc)
  | quorumWindowExpire
  | enrolmentWindowLapse (owner : Fin 256)
  -- 18
  | hostFlashCommand (opcode : Byte)
  | arrayRead (r : FlashRead)
  | hostFlashWrite (opcode : Byte) (addr : Nat) (len : Nat)
  | statusCopyRefresh (sr1 : Byte) (sr2 : Byte)
  | gateVerifyComplete (region : Fin 64) (content : Bytes)
  | gateReverifyStart (region : Fin 64)
  | sealTimeout
  | cosignWindowEnd
  -- 19
  | recordAccept
  | recordWritten (ok : Bool)
  | operatingTimeCheckpoint
  -- 20
  | laneBlockLock (p : Port) (lane : Fin 2)
  | laneLockLoss (p : Port) (lane : Fin 2)
  | train (p : Port) (t : TrainInfo)
  | laneTrainTimeout (p : Port) (lane : Fin 2)
  | linkHoldExpire (p : Port)
  | slotStart
  | frameCorrupt (p : Port) (k : Corrupt)
  | data (p : Port) (h : LinkHdr) (request : Bytes)
  | ack (p : Port) (ackSeq : Word) (rxFree : Nat) (nak : Bool)
  | retxTimeout (p : Port)
  | status (p : Port) (h : LinkHdr) (b : StatusBody)
  | heartbeat
  | solitary
  | statusTimeout (addr : Fin 16)
  | enumerate (p : Port) (h : LinkHdr) (head : Bytes) (next : Nat)
  | enumBack (p : Port) (h : LinkHdr) (head : Bytes) (next : Nat)
  | enumerateRetry
  | reenum
  | noAddressTimeout
  | roster (p : Port) (h : LinkHdr) (head : Bytes) (units : Nat) (closed : Bool) (delays : List Nat)
  | config (p : Port) (h : LinkHdr) (epoch : Quad) (admitted : List Bytes)
  | replica (p : Port) (h : LinkHdr) (b : ReplicaBody)
  | replAck (p : Port) (h : LinkHdr) (srcHandle : Word)
  | replicateWindowEnd
  | replDrop (p : Port) (h : LinkHdr) (srcHandle : Word)
  | result (p : Port) (h : LinkHdr) (b : ResultBody)
  | resultRunTimeout (reqSeq : Word)
  | cosignReq (p : Port) (h : LinkHdr) (digest : Bytes)
  | cosign (p : Port) (h : LinkHdr) (devId : Bytes) (sig : Bytes)
  -- 21
  | arm (t : Fin 16)
  | stop (t : Fin 16)
  | zero (t : Fin 16)
  | capture (e : PinEdge)
  | capturePop (t : Fin 16)
  -- 22
  | mctpPacket (p : McPacket)
  | mctpAssemblyTimeout (k : AsmKey)
  | enec
  | disec
  | rstdaa
  | entdaa (addr : BitVec 7)
  | setdasa (addr : BitVec 7)
  | setnewda (addr : BitVec 7)
  | getpid
  | getbcr
  | getdcr
  | getstatus
  | alertResponseAddress
  | setEndpointId (eid : Byte)
  | getEndpointId
  | getMctpVersionSupport
  | getMessageTypeSupport
  | getVendorDefinedSupport
  | getVersion
  | getCapabilities
  | negotiateAlgorithms (asym hash meas : Bool)
  | challenge (slotId : Byte) (nonce : Bytes)
  | getMeasurements (index : Byte) (signed : Bool) (nonce : Bytes)
  | command (tag : Byte) (request : Bytes)
  | stallView (tag : Byte) (stall : Byte) (expectGen : Word)
  | stallAct (tag : Byte) (stall : Byte) (op : Byte) (gen : Word)
  | snapshot (tag : Byte)
  | attestKey (tag : Byte)
  -- 04, 03, 09, 20: completions of running checks and changes of supplies
  | otpWordWriteDone (readsBack : Bool)
  | tokenCheckDone
  | startUpComplete
  | tamperSourceClear (src : TamperSource)
  | vbatOkChange (ok : Bool) (reversed : Bool)
  | vrsvGood
  | chainTimeSlewEnd
deriving DecidableEq, Repr

end Sys2Proof
end

