-- ==== Sys2Proof/Decode.lean ====
section
/-! DEFINITION. The table gives no row any bits (spec/opcode_table.json, "fields": []), so no word spells a command. -/

namespace Sys2Proof

/-- The command that `nbits` bits of `w` spell by the table: the table assigns bits to no row, so none. -/
def decodeTableWord (_nbits _w : Nat) : Option Instr := none

end Sys2Proof
end

