-- ==== Sys2Proof/Config.lean ====
section
/-! DEFINITION. What the unit fixes and the spec does not give: free values (opaque, no body) and the published algorithms as uninterpreted functions (assumption log 4, 5, 8). No proof can see a value of any of them. -/

namespace Sys2Proof.Config

/-- Bring a byte string to exactly `n` bytes, so that an uninterpreted function has the length its standard gives. -/
def fit (n : Nat) (l : Bytes) : Bytes := (l ++ List.replicate n 0).take n

/-- The next value a DRBG request yields: `freeBytes k n` is the output of the k-th draw (17 R316). FREE (log 5). -/
opaque freeBytes : Nat → Nat → Bytes
/-- Where a search for a free slot, bank slot, cell or lane starts: FREE (log 8). -/
opaque freePick : Nat → Nat

/-- 06 R111: which of the values of a rule a checker holds while no barrier has covered its last write, by the check and the rule: FREE (log 29). -/
opaque heldRule : Nat → Nat → Nat

/-- A status code the spec does not state: FREE (log 24). -/
opaque openStatus : Nat → Half

/-- Raw contents fixed at wafer test (04 R56, 07 R121, 19 R344): FREE per unit. -/
opaque deviceIdRaw : Bytes
opaque authKeyRaw : Nat → Bytes
opaque tokenHashRaw : Nat → Nat → Bytes
opaque rootSecretRaw : Nat → Bytes
opaque storeSecretRaw : Bytes

/-- 04 R56: DEVICE_ID, 16 bytes. -/
def deviceId : Bytes := fit 16 deviceIdRaw
/-- 04 R56: AUTH0 and AUTH1, 96 bytes each. -/
def authKey (k : Nat) : Bytes := fit 96 (authKeyRaw k)
/-- 04 R56: the 16-byte hash of token (n, i). -/
def tokenHash (n i : Nat) : Bytes := fit 16 (tokenHashRaw n i)
/-- 07 R121: the 48-byte secret of root k (0 MAKER, 1 INTEG, 2 FIELD, 3 RETURN). -/
def rootSecret (k : Nat) : Bytes := fit 48 (rootSecretRaw k)
/-- 19 R344: the 48-byte secret of the private store. -/
def storeSecret : Bytes := fit 48 storeSecretRaw

/-- Hash functions of 13 R245 and R248 by code, raw output; `hash` fits it to the digest length. -/
opaque hashRaw : Nat → Bytes → Bytes
opaque xofRaw : Nat → Nat → Bytes → Bytes
opaque hmacRaw : Nat → Bytes → Bytes → Bytes
opaque cmacRaw : Bytes → Bytes → Bytes

/-- Digest length of HASH code `h` (13 R245). -/
def digestLen (h : Nat) : Nat :=
  match h with
  | 1 => 28 | 2 => 32 | 3 => 48 | 4 => 64 | 5 => 32 | 6 => 48 | 7 => 64 | _ => 0

def hash (h : Nat) (m : Bytes) : Bytes := fit (digestLen h) (hashRaw h m)
def sha384 (m : Bytes) : Bytes := fit 48 (hashRaw 3 m)
/-- SHAKE128 (8) and SHAKE256 (9) of 13 R248. -/
def xof (h n : Nat) (m : Bytes) : Bytes := fit n (xofRaw h n m)
/-- HMAC with the hash of code `h`. -/
def hmac (h : Nat) (k m : Bytes) : Bytes := fit (digestLen h) (hmacRaw h k m)
def cmac (k m : Bytes) : Bytes := fit 16 (cmacRaw k m)

/-- AES modes of 13 R249 by MODE and DIR: key, tweak key, IV, data. The output is as long as the data. -/
opaque aesRaw : Nat → Nat → Bytes → Bytes → Bytes → Bytes → Bytes
def aes (mode dir : Nat) (k k2 iv x : Bytes) : Bytes := fit x.length (aesRaw mode dir k k2 iv x)

/-- AES-GCM (SP 800-38D): ciphertext, tag and the opening function. -/
opaque gcmCtRaw : Bytes → Bytes → Bytes → Bytes → Bytes
opaque gcmTagRaw : Bytes → Bytes → Bytes → Bytes → Bytes
opaque gcmPtRaw : Bytes → Bytes → Bytes → Bytes
def gcmCt (k iv aad x : Bytes) : Bytes := fit x.length (gcmCtRaw k iv aad x)
def gcmTag (k iv aad x : Bytes) : Bytes := fit 16 (gcmTagRaw k iv aad x)
def gcmPt (k iv x : Bytes) : Bytes := fit x.length (gcmPtRaw k iv x)

/-- Open a GCM message: none where the tag does not check. -/
def gcmOpen (k iv aad ct tag : Bytes) : Option Bytes :=
  let p := gcmPt k iv ct
  if gcmTag k iv aad p == tag then some p else none

/-- AES-KW (0) and AES-KWP (1): wrap; unwrap answers none where the integrity check fails. -/
opaque kwWrapRaw : Nat → Bytes → Bytes → Bytes
opaque kwUnwrap : Nat → Bytes → Bytes → Option Bytes
/-- Length of a wrapping: KW adds 8 bytes, KWP pads to 8 first (13 R248). -/
def kwLen (mode n : Nat) : Nat := if mode = 0 then n + 8 else (n + 7) / 8 * 8 + 8
def kwWrap (mode : Nat) (k x : Bytes) : Bytes := fit (kwLen mode x.length) (kwWrapRaw mode k x)

/-- Public-key operations on stored forms and encoded operands (16 R291); the first argument is the key type of 07 R118. -/
opaque pkPublicRaw : Nat → Bytes → Bytes → Bytes
def pkPublic (t n : Nat) (k dom : Bytes) : Bytes := fit n (pkPublicRaw t k dom)
/-- Signature: type, HASH, PAD, IS_DIGEST, key, message, random bits. -/
opaque pkSignRaw : Nat → Nat → Nat → Bool → Bytes → Bytes → Bytes → Bytes
def pkSign (t n hash pad : Nat) (isd : Bool) (k m r : Bytes) : Bytes := fit n (pkSignRaw t hash pad isd k m r)
/-- Does a signature verify: type, HASH, PAD, IS_DIGEST, public key, message, signature. -/
opaque pkVerify : Nat → Nat → Nat → Bool → Bytes → Bytes → Bytes → Bool
/-- ML-KEM: encapsulation to a public key with random bits, decapsulation of a ciphertext with a key. -/
opaque kemCtRaw : Nat → Bytes → Bytes → Bytes
opaque kemSecretRaw : Nat → Bytes → Bytes → Bytes
opaque kemDecapsRaw : Nat → Bytes → Bytes → Bytes
def kemCt (t n : Nat) (pub r : Bytes) : Bytes := fit n (kemCtRaw t pub r)
def kemSecret (t : Nat) (pub r : Bytes) : Bytes := fit 32 (kemSecretRaw t pub r)
def kemDecaps (t : Nat) (k ct : Bytes) : Bytes := fit 32 (kemDecapsRaw t k ct)
/-- Shared secret Z: type, key, peer value, domain. -/
opaque agree : Nat → Bytes → Bytes → Bytes → Bytes
/-- 16 R292, 13 R245: is an operand (public key, peer value) valid for the algorithm. -/
opaque pkOperandOk : Nat → Bytes → Bytes → Bool
/-- 13 R245: is a stored key valid for its algorithm (a scalar in range, a modulus of its length). -/
opaque pkKeyOk : Nat → Bytes → Bool
/-- Key generation from DRBG bytes (16 R291): type, SIZE, random bits. -/
opaque keyGenRaw : Nat → Nat → Bytes → Bytes
def keyGen (t size n : Nat) (r : Bytes) : Bytes := fit n (keyGenRaw t size r)

/-- Signature of a firmware image (03 R451, 13 R254): the spec names no key. -/
opaque fwSigValid : Bytes → Bool
/-- Version word of a firmware image (13 R240). -/
opaque fwVersion : Bytes → Word

/-- The order n of the curve P-384 (SP 800-186), for 18 R335. -/
def p384Order : Nat := 0xFFFFFFFFFFFFFFFFFFFFFFFFFFFFFFFFFFFFFFFFFFFFFFFFC7634D81F4372DDF581A0DB248B0A77AECEC196ACCC52973
/-- Splitting of the dual-control secret into shares (08 R144): secret, m, n, index. -/
opaque shareRaw : Bytes → Nat → Nat → Nat → Bytes

/-- The measured round-trip delay of the DN link in ns (20 R367). FREE. -/
opaque dnDelay : Nat → Nat
/-- The tokens the debug trace holds about an access: FREE (05 R80 gives no data). -/
opaque debugData : Nat → Word
/-- Boundary register contents (05 R83): FREE. -/
opaque boundaryCells : Nat → Bytes
/-- Fields of configuration space that the spec leaves to PCIe Base 5.0 and SR-IOV: function (64 the PF) and offset. FREE (log 32). -/
opaque cfgSpace : Nat → Nat → BitVec 32
/-- 15 YRD.CELL_META0, 1: the link of a cell that stands in no chain, and the fill of a cell whose bytes the model does not place (results, frames): draw and cell. FREE (log 8). -/
opaque cellLink : Nat → Nat → BitVec 15
opaque cellFill : Nat → Nat → BitVec 12
/-- A byte of a private-store zone of 19 R343, whose format the spec does not give: draw and offset. FREE (log 34). -/
opaque zoneByte : Nat → Nat → Byte
/-- Start-up copies of the boot flash (18 R325): 0x9F and SFDP. FREE. -/
opaque flashId : Bytes
opaque flashSize : Nat
opaque sfdpDummy : Nat → Nat

end Sys2Proof.Config
end

