-- ==== Sys2Proof/Machine/State.lean ====
section
/-! DEFINITION. The state of the DX48 as plain data. Every default value is the value after reset; where the spec states none, the assumption log names it (log 3, 6, 7). `Dev` is the device, `State` adds the queue of waiting commands. -/

namespace Sys2Proof.Machine

/-! ### Ledger (01 R14-R19, 23) -/

/-- 23 R407, R408: one pool, its two counters and the holding counters by holder code. -/
structure Pool where
  issued : Quad := 0
  retired : Quad := 0
  held : Tab Nat := []
  peak : Nat := 0
deriving DecidableEq, Repr

/-- 23 R410: the values of one pool at the latest sample. -/
structure PoolSample where
  issued : Quad := 0
  retired : Quad := 0
  held : Nat := 0
  heldDev : Nat := 0
  peak : Nat := 0
deriving DecidableEq, Repr

structure Ledger where
  pools : Tab Pool := []
  sample : Tab PoolSample := []
  sel : BitVec 3 := 0
  checks : Word := 0
  lastInit : Byte := 0
  initPcc : Word := 0
  /-- the cycle from which the 1024 cycles of the next check run: the INIT record (01 R19), the wake from STANDBY (23 R410), the last check; none before -/
  initAt : Option Nat := none
deriving DecidableEq, Repr

/-! ### GLB: power, resets, errors -/

/-- 03 R40. -/
inductive Power where
  | run | doze | standby | vault | off
deriving DecidableEq, Repr

/-- 03 R52, R450, R451: how far start-up has come. `halted true` is a halt after a WDT or SOFT reset, with the link kept. -/
inductive Boot where
  | off | waitStraps | halted (linkKept : Bool) | warm | done
deriving DecidableEq, Repr

/-- 03 R41: a waiting request. -/
structure PwrReq where
  standby : Bool
  time : Nat
deriving DecidableEq, Repr

/-- 02 GLB.STRAPS. -/
structure Straps where
  strapFault : Bool := false
  vioBfOk : Bool := false
  flashV : Bool := false
  bwMode : BitVec 2 := 0
  chainHead : Bool := false
deriving DecidableEq, Repr

/-- 02 R27: state of an I/O bank. -/
inductive Bank where
  | inReset | released | hiZ
deriving DecidableEq, Repr

/-- 19 R342: how the private flash runs: not started, 8D-8D-8D with PSF_DQS, or 1-4-4. -/
inductive PsfMode where
  | idle | octal | quad
deriving DecidableEq, Repr

structure XwdCnt where
  codeFail : Half := 0
  timeouts : Half := 0
deriving DecidableEq, Repr

/-- 23 GLB.ERR_D; `open` holds the causes (block, sub) whose recovery has not finished (R414). -/
structure ErrD where
  valid : Bool := false
  paused : Bool := false
  multi : Bool := false
  block : BitVec 4 := 0
  sub : Byte := 0
  code : Half := 0
  openCauses : List (Nat × Nat) := []
  since : Nat := 0
deriving DecidableEq, Repr

/-- 23 R415: a Class F error on its way to a secure reset. -/
structure Fatal where
  since : Nat
  /-- records still to be written before the reset -/
  waiting : Nat
deriving DecidableEq, Repr

/-- 22: what an access to the management port carries: an I3C CCC, the Alert Response Address, an MCTP packet, or a whole message and whether it is addressed to the null EID. -/
inductive MgtOp where
  | enec | disec | rstdaa
  | entdaa (addr : BitVec 7)
  | setdasa (addr : BitVec 7)
  | setnewda (addr : BitVec 7)
  | getpid | getbcr | getdcr | getstatus | ara
  | packet (p : McPacket)
  | message (null : Bool) (bytes : Bytes)
deriving DecidableEq, Repr

/-- 03 R42: a PCIe request held during a wake. -/
inductive HeldAccess where
  | write (src : Master) (addr size : Nat) (value : Bytes)
  | read (src : Master) (addr size : Nat)
  | config (f : Func) (offset : Nat) (value : Option Word)
  /-- 05 R85 -/
  | debug (a : DebugAcc)
  /-- 05 R85: a command, by its opcode, and what a SELF_TEST measures -/
  | request (op : Nat) (r : Request) (failed : Nat)
  /-- 22 R403: SCL is held low for a transaction on SMBus -/
  | mgt (x : MgtOp)
deriving DecidableEq, Repr

structure Glb where
  power : Power := .off
  boot : Boot := .off
  /-- 10 R184: after a HOT reset, configuration requests get CRS until the interval has ended -/
  hotWait : Bool := false
  waking : Bool := false
  heldAccess : List HeldAccess := []
  req : Option PwrReq := none
  refuse : BitVec 4 := 0
  vmainGood : Bool := false
  vbatOk : Bool := false
  rsvOk : Bool := false
  clkCtl : Byte := 0
  resetCause : Byte := 0
  straps : Straps := {}
  /-- 02 R28: the straps have been sampled since the last POR or TAMPER reset -/
  strapsValid : Bool := false
  /-- 02 R28: VIO_GEN has been found in range -/
  vioGen : Bool := false
  bankBf : Bank := .inReset
  bankPs : Bank := .inReset
  bankCrd : Bank := .inReset
  bankMgt : Bank := .inReset
  psf : PsfMode := .idle
  perstN : Bool := false
  wakeN : Bool := false
  xwdValid : Bool := false
  xwdMulti : Bool := false
  xwdFirst : BitVec 4 := 0
  xwdCnt : Tab XwdCnt := []
  xwdTimes : List (Nat × Nat) := []
  /-- 01 R10: crossings that a failed integrity code has stalled, by code less 1, with the moment -/
  xwdStalled : Tab Nat := []
  /-- 03 R47: the sources of the reset that runs, by their bits in RESET_CAUSE -/
  raised : Byte := 0
  /-- 03 R44: the checkpoint of a start-up from OFF has not been added yet -/
  restoreDue : Bool := false
  errC : Half := 0
  errDCount : Half := 0
  errD : ErrD := {}
  fatal : Option Fatal := none
  pcc : Word := 0
  opBase : Nat := 0
  opFrom : Option Nat := none
  vaultFlag : Bool := false
deriving DecidableEq, Repr

/-! ### Life cycle, OTP and debug (04, 05) -/

/-- 04 R56: a root record over the contents programmed at test: which of its 16 words have been programmed to all ones, and the bits that a program without success or a cut has left programmed in the others. -/
structure RootRec where
  erased : BitVec 16 := 0
  marks : Tab Word := []
deriving DecidableEq, Repr

/-- 04 R56: the life-cycle partition. `code k` is half-word Hk. -/
structure Otp where
  code : Tab Half := [(0, 0x5A69)]
  intent : Tab Half := []
  authRevoke : BitVec 2 := 0
  tokenUsed : Tab Word := []
  roots : Tab RootRec := []
deriving DecidableEq, Repr

/-- 04 R58: one OTP write of a transition. -/
inductive OtpWrite where
  | intent (slot : Nat) (value : Half)
  | half (h : Nat)
  | rootWord (root word : Nat)
deriving DecidableEq, Repr

/-- 04 R60: a transition or resume that runs. -/
structure LcJob where
  rid : Nat
  target : Byte
  writes : List OtpWrite
  retries : Nat := 0
  /-- the CRITICAL record of step 1 is written -/
  started : Bool := false
deriving DecidableEq, Repr

structure Lc where
  state : Byte := 0x01
  base : Byte := 0x01
  target : Byte := 0
  resumable : Bool := false
  job : Option LcJob := none
  /-- 04 R62: target of a transition whose completion record is not in the Logbook -/
  completionOpen : Option Byte := none
deriving DecidableEq, Repr

/-- 04 R66: a test-unlock presentation in progress. -/
structure TokenCheck where
  token : Bytes
  index : Nat
  state : Nat
  /-- the three checks have passed; the record is being written -/
  passed : Bool := false
deriving DecidableEq, Repr

/-- 05 R83: the current TAP instruction. -/
inductive TapInstr where
  | idcode | bypass | sample | extest | testUnlock | dbgChal | dbgResp
deriving DecidableEq, Repr

structure Dbg where
  grant : BitVec 2 := 0
  rights : BitVec 5 := 0
  standing : Bool := false
  serial : Word := 0
  tokenFails : BitVec 4 := 0
  nonce : Option Bytes := none
  checking : Bool := false
  token : Option TokenCheck := none
  /-- processors halted, with the world they were halted in (true secure) -/
  halted : Tab Bool := []
  breakpoints : Nat := 0
  scanned : Bool := false
  tapInstr : TapInstr := .idcode
  extest : Bool := false
  /-- 05 R90: accesses to key-bearing stores counted in the trace -/
  traceKeyReads : Nat := 0
  /-- 04 R66: the TAP status register -/
  tapStatus : Half := 0
deriving DecidableEq, Repr

/-! ### SEC (06) -/

structure Region where
  base : BitVec 20 := 0
  limit : BitVec 20 := 0
  en : Bool := false
  /-- S_A S_X S_W S_R N_A N_X N_W N_R -/
  perm : Byte := 0
  mask : Word := 0
deriving DecidableEq, Repr

structure Viol where
  master : Byte
  region : BitVec 4
  slave : BitVec 4
  kind : BitVec 2
  caught : Bool
  addr : Word
  /-- its Class D pause ends when the report is popped (R110, 23 R414) -/
  pauses : Bool := false
deriving DecidableEq, Repr

/-- 06 R111: the values that rules had before writes which no policy barrier has covered, so that a checker may still hold one of them; of regions by index. -/
structure OldRules where
  wmSram : List Nat := []
  wmPs : List Nat := []
  own : List (BitVec 23) := []
  mpu : Tab (List Region) := []
  fw : Tab (List Region) := []
deriving DecidableEq, Repr

structure Sec where
  wmSram : Nat := 0x80
  wmSramLock : Bool := false
  wmPs : Nat := 0x1000
  wmPsLock : Bool := false
  own : BitVec 23 := 0x03FF00
  hoGo : Bool := false
  hoResult : BitVec 4 := 0
  hoTo : Bool := false
  hoPeriph : BitVec 5 := 0
  barrier : Bool := false
  /-- 06 R112: what was overwritten since GO was last set; and before, while the barrier runs -/
  fresh : OldRules := {}
  covered : OldRules := {}
  swdtLoad : Half := 0x8000
  swdtCount : Nat := 0x8000
  swdtWarned : Bool := false
  mpuSel : BitVec 7 := 0
  fwSel : BitVec 4 := 0
  /-- region index 16 × master + n -/
  mpu : Tab Region := []
  /-- region index 8 × slave + n -/
  fw : Tab Region := []
  viol : List Viol := []
  violLost : Word := 0
  /-- 06 R100: pending interrupts of the secure and the normal world, by source -/
  irqSecure : Nat := 0
  irqNormal : Nat := 0
  /-- 06 R100: the processors that run in the secure world, and those whose normal-world context is saved in secure SRAM -/
  cpSecure : BitVec 4 := 0xF
  cpSaved : BitVec 4 := 0
deriving DecidableEq, Repr

/-! ### PCIe (10) -/

inductive LinkState where
  | down | l0 | l1 | l2
deriving DecidableEq, Repr

/-- 10 R172-R179: what a function's configuration space and MSI-X tables hold. -/
structure FuncCfg where
  busMaster : Bool := false
  memEnable : Bool := false
  msixEnable : Bool := false
  funcMask : Bool := false
  vecMask : BitVec 16 := 0xFFFF
  pba : BitVec 16 := 0
  vecTable : Tab Word := []
  /-- 10 R182: the AER status words and the First Error Pointer, the error bits of the Status and of the Device Status register, and the other registers that the standard lets the host write, by offset (log 32) -/
  aerUnc : Word := 0
  aerCor : Word := 0
  aerFirst : BitVec 5 := 0
  status : Half := 0
  devStatus : BitVec 4 := 0
  regs : Tab Word := []
deriving DecidableEq, Repr

/-- What a DMA read was issued for. -/
inductive DmaUse where
  | entry (rid : Nat)
  | params (rid : Nat)
deriving DecidableEq, Repr

structure DmaTag where
  func : Func
  use : DmaUse
  fenced : Bool := false
deriving DecidableEq, Repr

structure Hif where
  up : Bool := false
  width : BitVec 4 := 0
  speed : BitVec 4 := 0
  degraded : Bool := false
  link : LinkState := .down
  flrDrain : Bool := false
  flrBusy : BitVec 64 := 0
  pfFlrBusy : Bool := false
  cfg : Tab FuncCfg := []
  vfEnable : Bool := false
  numVfs : Half := 0
  vfCount : Nat := 0
  /-- 10 R175: NumVFs and ARI Capable Hierarchy as VF Enable was set -/
  askedVfs : Nat := 0
  askedAri : Bool := false
  /-- 10 R177: the removal of every stall runs; VFs of a later VF Enable wait for it -/
  vfRemoving : Bool := false
  ariHier : Bool := false
  sysPageSize : Bool := true
  d3hot : Bool := false
  pmeEn : Bool := false
  pmeStatus : Bool := false
  tags : Tab DmaTag := []
  dmaHeld : Bool := false
  /-- a reset of the PCIE island took the link down; the HOT reset of 03 R50 follows -/
  downDue : Bool := false
  /-- VF MSE of the SR-IOV control register, and the two memory BARs (R176) -/
  vfMse : Bool := false
  bar : Quad := 0
  vfBar : Quad := 0
deriving DecidableEq, Repr

/-! ### Stalls and rings (11, 12) -/

inductive StallSt where
  | disabled | ready | active | paused | faulted | resetting | removing
deriving DecidableEq, Repr

/-- 12 R211-R217: one submission and completion ring. -/
structure Ring where
  sqBase : Quad := 0
  cqBase : Quad := 0
  en : Bool := false
  status : Half := 0
  depthLog2 : Nat := 0
  sqTail : Nat := 0
  sqHead : Nat := 0
  fetch : Nat := 0
  cqHead : Nat := 0
  cqTail : Nat := 0
  phase : Bool := true
  cqDbBad : Half := 0
  /-- entries completed behind an outstanding one (R214) -/
  completed : List Nat := []
  /-- index of the FENCE entry whose completion is awaited (R227) -/
  fenceAt : Option Nat := none
deriving DecidableEq, Repr

/-- 11 R200: a reset or removal that runs; causes as LAST_CAUSE bits. -/
structure StallJob where
  mode : Mode
  cause : Byte
  removal : Bool
  flr : Bool := false
  capped : Bool := false
  /-- drain: step 5 has ended -/
  drained : Bool := false
  /-- drain: the cycle in which step 5 began (the cap of 2 ms) -/
  since : Nat := 0
deriving DecidableEq, Repr

structure WLog where
  en : Bool := false
  bitmapB : Bool := false
  ovf : Bool := false
  pages : Word := 0
  a : Quad := 0
  b : Quad := 0
deriving DecidableEq, Repr

structure Stall where
  st : StallSt := .disabled
  gen : Word := 0
  op : BitVec 4 := 0
  mode : Bool := false
  status : Half := 0
  faultCode : Half := 0
  faultCount : Half := 0
  classT : List Nat := []
  lastErrRec : Option Nat := none
  /-- shadow registers METER, WEIR_CMD, WEIR_BYTE (R198) -/
  metered : Bool := false
  weight : Nat := 8
  cmdBurst : Nat := 0
  cmdRate : Nat := 0
  byteBurst : Nat := 0
  byteRate : Nat := 0
  /-- values in force since the last epoch switch -/
  fMetered : Bool := false
  fWeight : Nat := 8
  cinc : Nat := 0
  binc : Nat := 0
  fCmdBurst : Nat := 0
  fByteBurst : Nat := 0
  ctok : Int := 0
  btok : Int := 0
  wlog : WLog := {}
  inboxPf : Bool := false
  inboxVf : Bool := false
  resets : Word := 0
  lastStatus : Half := 0
  lastCause : Byte := 0
  lastMode : Byte := 0
  dbDropped : Word := 0
  /-- header fields are live while the stall has been enabled since reset (R192, R196) -/
  job : Option StallJob := none
  logUse : Nat := 0
  ring : Ring := {}
  /-- recovery cells in use for staging (15 R283) -/
  recovery : Nat := 0
deriving DecidableEq, Repr

structure Stl where
  partCur : Nat := 6
  partReq : Nat := 6
  partStatus : Half := 0
  mbPend : BitVec 64 := 0
  stalls : Tab Stall := []
  pfRing : Ring := {}
  /-- message boards, byte at 4096 × stall + offset (11 R195), canonical: no zero listed -/
  boards : List Host.Cell := []
  /-- commands taken per issuer in this round (R199) -/
  round : Tab Nat := []
  /-- 24 R425: the cycle of the latest writes of the PF to registers that a VF can write too, and the bits they cover, by register -/
  pfAt : Nat := 0
  pfWrote : Tab Word := []
deriving DecidableEq, Repr

/-! ### Yard (15) -/

/-- 15 R271, R274: one cell in a chain with its two halves of valid bytes. -/
structure QCell where
  idx : Nat
  lo : Bytes
  hi : Bytes := []
  last : Bool := false
  /-- once queued: the request, and the allotment the cell counts against -/
  rid : Nat := 0
  holder : Nat := 0
deriving DecidableEq, Repr

structure YQueue where
  cells : List QCell := []
  /-- RD and MK as word positions counted from HEAD's first word (R276) -/
  rdPos : Nat := 0
  mkPos : Nat := 0
  thresh : Nat := 0
  levelHit : Bool := false
  timeout : Nat := 0
  strandedBit : Bool := false
  /-- no further STRANDED event until a READ (R279) -/
  strandQuiet : Bool := false
  /-- since when the stranded timer runs -/
  strandFrom : Option Nat := none
  /-- requests in the queue, oldest first -/
  reqs : List Nat := []
  /-- R275: the packets appended in this fabric cycle, with their master numbers -/
  fresh : List (Nat × Nat) := []
  /-- R279: the stranded timer has run out in this fabric cycle -/
  strandDue : Bool := false
deriving DecidableEq, Repr

structure Yrd where
  queues : Tab YQueue := []
  /-- owner tag (0-63 or 0x7F) of every cell in use, queued or loose -/
  tags : Tab Nat := []
  /-- cells freed and not yet re-entered (R277) -/
  zeroing : List Nat := []
  qSel : BitVec 9 := 0
  cellSel : BitVec 15 := 0
  /-- R278, R279: the queues to judge at the end of this fabric cycle, with CELLS as the cycle began -/
  judge : Tab Nat := []
  reclaimStall : BitVec 7 := 0
  reclaimCount : Half := 0
deriving DecidableEq, Repr

/-! ### Requests on their way (01 How a request travels, 12, 14) -/

/-- 14 R264: the verdict on the first fragment of a run that is still open. -/
inductive FragVerdict where
  | deliver (q : Nat)
  | eddy
  | drop (status : Half) (detail : Word)
  | trap
deriving DecidableEq, Repr

inductive Stage where
  | fetching | awaitData | held | eddy | trapped | queued (q : Nat) | dispatched
  | reassembly (v : FragVerdict)
  /-- sent to another unit of the ring (20 R379) -/
  | remote (dest : Nat)
  /-- a NOP that waits for the listed earlier commands of its issuer (13 R239) -/
  | nopWait (l : List Nat)
deriving DecidableEq, Repr

/-- 12 R223: an envelope that the Eddy has opened. -/
structure Envelope where
  key : Bytes
  hdr : Bytes
deriving DecidableEq, Repr

structure Req where
  issuer : Issuer
  sqIndex : Nat := 0
  stage : Stage
  /-- outer header and outer payload (12 R219, R218) -/
  bytes : Bytes := []
  /-- bytes [24:31] of the entry as fetched (12 R229) -/
  rawTag : Quad := 0
  dataAddr : Quad := 0
  dataCap : Nat := 0
  fence : Bool := false
  epoch : Byte := 0
  /-- CLS.POLn words the command processor checks (14 R260) -/
  pols : List Half := []
  env : Option Envelope := none
  pass2 : Bool := false
  /-- verdict of the first pass for a fragment run; trap status -/
  trapStatus : Half := 0
  /-- cells of the loose packet -/
  cells : List QCell := []
  /-- cells claimed for the result (15 R281) -/
  resCells : List Nat := []
  fromFragment : Bool := false
  /-- 15 R273: a packet of a producer inside the device: it holds no submission credit and gets no completion entry (log 22) -/
  produced : Bool := false
  /-- the run of fragments has not ended -/
  fragOpen : Bool := false
  mgtTag : Byte := 0
  /-- 20 R379: SEQ of the outer header, for the RESULT run -/
  seq : Word := 0
deriving DecidableEq, Repr

/-- A completion that waits to be written (12 R215, R216). -/
structure Comp where
  status : Half
  tag : Quad
  result : Bytes := []
  detail : Word := 0
  staged : Bool := false
deriving DecidableEq, Repr

/-! ### Classifier (14) -/

structure Ext where
  en : Bool := false
  width : BitVec 2 := 0
  offset : Byte := 0
  mask : Word := 0
deriving DecidableEq, Repr

structure ClsEntry where
  value : BitVec 256 := 0
  care : BitVec 256 := 0
  action : Word := 0
deriving DecidableEq, Repr

structure ClsBank where
  extA : Tab Ext := []
  extB : Tab Ext := []
  entries : Tab ClsEntry := []
  dflt : Word := 0x80000000
  pol : Tab Half := []
deriving DecidableEq, Repr

structure Trap where
  rid : Nat
  squashed : Bool := false
  pass2 : Bool
  entry : BitVec 12
  issuer : Byte
  epoch : Byte
  cell : BitVec 15
deriving DecidableEq, Repr

/-- 14 R267: where an epoch switch stands. -/
inductive SwitchSt where
  | idle | validated | draining | copying
deriving DecidableEq, Repr

/-- 12 R222: an open run of fragments and the request it builds. -/
structure FragRun where
  seq : Word
  since : Nat
  rid : Nat
deriving DecidableEq, Repr

structure Cls where
  active : ClsBank := {}
  shadow : ClsBank := {}
  hits : Tab Word := []
  entSel : BitVec 11 := 0
  selActive : Bool := false
  sw : SwitchSt := .idle
  wrLost : Bool := false
  status : Half := 0
  epoch : Byte := 0
  cntDefault : Word := 0
  cntNest : Word := 0
  cntLen : Word := 0
  trapLost : Word := 0
  traps : List Trap := []
  halted : Bool := false
  /-- runs by source: Krovlo origin 0-15, management 16 -/
  runs : Tab FragRun := []
deriving DecidableEq, Repr

/-! ### Keys (07) -/

/-- Who a slot is charged to (R117). -/
inductive Charge where
  | stall (n : Nat)
  | pf
deriving DecidableEq, Repr

structure KSlot where
  type : Byte
  usage : Half
  owner : Byte
  charge : Charge
  /-- R116: the stored form under its mask, and the mask -/
  masked : Bytes
  mask : Bytes
  /-- reserved by a command that has not completed (13 R238) -/
  reserved : Bool := false
  /-- R133: stale, awaiting clearing -/
  stale : Bool := false
  /-- operations that copied this key and still run -/
  uses : Nat := 0
  /-- sent by CHN_REPLICATE (20 R378) -/
  replicated : Bool := false
deriving DecidableEq, Repr

structure AonSlot where
  type : Byte
  usage : Half
  owner : Byte
  masked : Bytes
  mask : Bytes
  /-- R133: stale, awaiting clearing, and the operations that copied this key and still run -/
  stale : Bool := false
  uses : Nat := 0
deriving DecidableEq, Repr

/-- 08 R144: what the owner record keeps of an issued Tack. -/
structure Share where
  serial : Bytes
  pub : Bytes
  check : Bytes
deriving DecidableEq, Repr

/-- 08 R144: an enrolment in progress. -/
structure Enrol where
  secret : Bytes
  m : Nat
  n : Nat
  next : Nat
  creation : Bool
  oldShares : Tab Share
  since : Nat
deriving DecidableEq, Repr

structure Owner where
  mode : Byte
  salt : Bytes
  m : Nat
  n : Nat
  shares : Tab Share := []
  stalls : BitVec 64 := 0
  cap : Nat := 0
  aonQuota : Nat := 0
  window : Nat := 120
  wraps : Quad := 0
  enrol : Option Enrol := none
deriving DecidableEq, Repr

/-- 07 R124, R127: an owner table in the private store: what it holds, sealed with AES-256-GCM under the TABLE key, and the nonce and the tag of the seal. -/
structure OwnerTable where
  owners : Tab Owner
  iv : Bytes
  cipher : Bytes
  tag : Bytes
deriving DecidableEq, Repr

structure Key where
  slots : Tab KSlot := []
  gens : Tab Byte := []
  perm : Option Nat := none
  bank : Tab AonSlot := []
  bankGens : Tab Byte := []
  root : Nat := 0
  rootWait : Bool := false
  grantLock : Bool := false
  measValid : Bool := false
  fwMeas : Bytes := List.replicate 48 0
  fwVersion : Word := 0
  owners : Tab Owner := []
  tableBad : Bool := false
  ownerSel : Byte := 0
  replicas : List ((Bytes × Word) × Nat) := []
deriving DecidableEq, Repr

/-- The private store outside the Logbook (19 R343). -/
structure Ps where
  ownerTable : Option OwnerTable := none
  ownerTable2 : Option OwnerTable := none
  checkpoint : Nat := 0
  fwSlot : Tab Bytes := []
  fwActive : Nat := 0
  fwPending : Bool := false
  /-- staged image: bytes so far and TOTAL; whole once verified -/
  stage : Option (Bytes × Nat) := none
  stageOk : Bool := false
  /-- how often each 256-byte unit of the flash has been programmed, hence erased (19 R344) -/
  erases : Tab Nat := []
deriving DecidableEq, Repr

/-! ### Engines (16) -/

/-- What an engine computes; operands are copied at dispatch (07 R133). -/
inductive PkeKind where
  | genKey (slot : Nat) (type : Byte) (size : Nat)
  | publicKey (type : Byte) (pubLen : Nat) (dom : Bytes)
  | sign (type : Byte) (hash pad : Nat) (isDigest : Bool) (msg : Bytes)
  | verify (type : Byte) (hash pad : Nat) (isDigest : Bool) (msg sig pub : Bytes)
  | encaps (type : Byte) (pub : Bytes) (slot : Nat)
  | decaps (type : Byte) (ct : Bytes) (slot : Nat)
  | agree (type : Byte) (peer salt dom : Bytes) (slot : Nat)
  | mac (prog : Bytes) (outLen : Nat)
  | sealSign
  | dbgCert (cert : Bytes) (viaTap : Bool)
  | cardKey (slotB : Bool) (id : Nat)
  | cardExchange (slotB : Bool) (id : Nat)
  | cosign (port : Bool) (origin : Nat) (digest : Bytes)
  | selfTest (failed : Nat)
deriving DecidableEq, Repr

structure PkeOp where
  /-- the request that waits for it; none for secure-world work -/
  rid : Option Nat
  issuer : Issuer
  kind : PkeKind
  alg : Byte
  key : Bytes := []
  /-- random bits drawn at dispatch (17 R318) -/
  rnd : Bytes := []
  /-- slot whose key was copied, to end the use of R133 -/
  usesSlot : Option Nat := none
  /-- engine named by SELF_TEST -/
  engine : Option Nat := none
deriving DecidableEq, Repr

/-- 13 R236: a request in a command processor. -/
structure Cmd where
  rid : Nat
  issuer : Issuer
  opcode : Nat
  key : Word := 0
  owner : Word := 0
  params : Bytes := []
  dataCap : Nat := 0
  /-- the result is sealed under an envelope key: 28 bytes more (14 R263) -/
  sealed : Bool := false
  pols : List Half := []
  /-- 07 R136: a key slot it uses reads with a mask mismatch -/
  keyMask : Bool := false
deriving DecidableEq, Repr

/-- 16 R289, R301: what waits for an engine. -/
inductive Waiting where
  | cmd (c : Cmd)
  | secure (o : PkeOp)
deriving DecidableEq, Repr

structure Pke where
  mac : Bool := false
  oos : Bool := false
  relock : Bool := false
  clk : BitVec 2 := 0
  op : Option PkeOp := none
  aborting : Bool := false
  /-- the operation an abort has stopped, to be completed with ST_ABORTED, and the cycle in which the abort took effect (R306) -/
  stopped : Option PkeOp := none
  stoppedAt : Nat := 0
  irqDone : Bool := false
  irqAborted : Bool := false
  irqFault : Bool := false
  cntOps : Word := 0
  cntAborts : Half := 0
  cntCheck : Half := 0
  useSel : BitVec 6 := 0
  balance : Tab Int := []
  secureMicros : Nat := 0
  mem : Tab (BitVec 128) := []
  acc : BitVec 8448 := 0
  failTimes : List Nat := []
  /-- operations taken per issuer in the round of this engine (R301) -/
  round : Tab Nat := []
deriving DecidableEq, Repr

/-! ### Symmetric island (17) -/

inductive LaneKind where
  | cipher (mode dir : Nat) (key2 iv aad data tag : Bytes)
  | macGen (alg len : Nat) (msg : Bytes)
  | macVerify (alg len : Nat) (msg mac : Bytes)
  | hash (h outLen : Nat) (msg : Bytes)
  | kdf (alg : Nat) (salt label ctx : Bytes) (outLen slot : Nat)
  | kw (mode dir : Nat) (data : Bytes)
  | rng (len : Nat)
  | eddy
deriving DecidableEq, Repr

structure LaneJob where
  rid : Nat
  kind : LaneKind
  key : Bytes := []
  usesSlots : List Nat := []
  /-- who is charged with the lane's time, and since when it runs (11 R193) -/
  payer : Nat := 64
  since : Nat := 0
deriving DecidableEq, Repr

structure Sym where
  lanes : Tab LaneJob := []
  laneOos : BitVec 12 := 0
  rngFailed : Bool := false
  rngPerm : Bool := false
  rngFails : BitVec 4 := 0
  rngCause : BitVec 3 := 0
  rngInst : Bool := false
  cntAuth : Word := 0
  cntReseed : Word := 0
  generates : Nat := 0
  reseedAt : Nat := 0
  /-- commands that found no lane (R310), and the commands taken per issuer in this round (11 R199) -/
  wait : List Cmd := []
  round : Tab Nat := []
  /-- 11 R193: the window of 1 ms that `used` counts, and the fabric cycles that a stall has had of a lane in it, by 64 × lane + stall -/
  window : Nat := 0
  used : Tab Nat := []
deriving DecidableEq, Repr

/-! ### Card slots (08) -/

inductive Phase where
  | empty | debounce | identification | transfer | exchange | done | disabled
deriving DecidableEq, Repr

/-- 08 R143-R145: an exchange in progress. -/
structure Exchange where
  /-- true for ISSUE -/
  issue : Bool
  owner : Nat
  index : Nat
  desc : CardDesc
  nonce : Bytes
  eph : Bytes
  request : Bytes
  share : Bytes
  /-- block 2, and block 0 as read again, once the card has replied -/
  reply : Option (CardReplyBlock × CardDesc) := none
  /-- which exchange it is, so that an operation of an abandoned one does not serve the next -/
  id : Nat := 0
deriving DecidableEq, Repr

structure CardSlot where
  phase : Phase := .empty
  fault : BitVec 4 := 0
  index : BitVec 4 := 0
  owner : Byte := 0
  present : Bool := false
  supply : Bool := false
  polls : Nat := 0
  busFails : Nat := 0
  foldBack : Bool := false
  /-- R138: CMD is push-pull; data on four lines at 52 MHz, otherwise on one at 26 MHz -/
  pushPull : Bool := false
  wide : Bool := false
  exch : Option Exchange := none
deriving DecidableEq, Repr

structure Session where
  owner : Nat
  mEff : Nat
  digest : Bytes
  indices : BitVec 8 := 0
  met : Bool := false
  since : Nat
  /-- the request that consumed the quorum; its completion closes the session (R147) -/
  consumedBy : Option Nat := none
  /-- R151: the index that slot B has counted last, and the fabric cycle -/
  countedB : Option (Nat × Nat) := none
deriving DecidableEq, Repr

structure Crd where
  a : CardSlot := {}
  b : CardSlot := {}
  session : Option Session := none
  /-- R148: CRD.Q_STATUS of a session that a POR or a TAMPER reset has closed, until its record is written -/
  cut : Option Word := none
deriving DecidableEq, Repr

/-! ### Tamper (09) -/

structure Tmp where
  lid : BitVec 4 := 0
  /-- class code of each pair (R156); 0 GOOD -/
  mesh : Tab (BitVec 4) := []
  /-- pairs that have read GOOD since the always-on island powered up -/
  meshSeenGood : Byte := 0xFF
  /-- monitors in alarm, in the order of `Monitor` -/
  mon : Byte := 0
  hold : Bool := false
  clearSince : Option Nat := none
  cValid : Bool := false
  cInVault : Bool := false
  cZdone : Bool := false
  cZpart : Bool := false
  cLid : BitVec 4 := 0
  cMesh : Byte := 0
  cMon : BitVec 4 := 0
  stampPcc : Word := 0
  stampTime : Nat := 0
  /-- 09 R155: the seed of each pair's LFSR, from its power-up on -/
  seeds : List (BitVec 31) := []
  /-- 09 R159: the core-voltage monitor is armed again at start-up step 3 -/
  coreArmed : Bool := true
  /-- the TAMPER reset of R167 has not run yet -/
  resetDue : Bool := false
  /-- the record of the latched cause is on its way, and what events since have latched: lids, pairs, monitors and the stamp of the first -/
  cQueued : Bool := false
  cLater : Option (BitVec 4 × Byte × BitVec 4 × Word × Nat) := none
deriving DecidableEq, Repr

/-! ### Boot Witness (18) -/

structure ManRegion where
  base : Nat
  limit : Nat
  gate : Bool
  wblock : Bool
  digest : Bytes
deriving DecidableEq, Repr

structure Manifest where
  cosign : Bool
  version : Quad
  sealTimeout : Nat
  holdCyc : BitVec 5
  flashId : Bytes
  regions : List ManRegion
  digest : Bytes
deriving DecidableEq, Repr

/-- 18 R329, R336: what the journal keeps of one region. -/
structure RegionSt where
  next : Nat
  content : Bytes := []
  gap : Bool := false
  complete : Bool := false
  matched : Bool := false
  verified : Bool := false
  denied : Bool := false
  written : Bool := false
  heldFf : Bool := false
  reread : Nat := 0
  reads : Nat := 0
  reverify : Bool := false
deriving DecidableEq, Repr

/-- 18 R336: the accumulating journal. -/
structure Journal where
  opened : Bool := false
  /-- the cycle of FIRST_STAMP (18 R334) -/
  openedAt : Nat := 0
  firstStamp : Bytes := []
  trace : Bytes := []
  reads : Nat := 0
  outside : Nat := 0
  writesPassed : Nat := 0
  writesBlocked : Nat := 0
  early : Bool := false
  refusedOps : List Byte := []
deriving DecidableEq, Repr

/-- 18 R334-R338: a seal that runs: the frozen body, the two signatures once made, the co-signatures by address. -/
structure Seal where
  rid : Option Nat
  trigger : Byte
  body : Bytes
  digest : Bytes
  sigEc : Bytes := []
  sigMl : Bytes := []
  cosigs : Tab (Bytes × Bytes) := []
  signed : Bool := false
  windowOpen : Bool := false
  /-- the cycle in which COSIGN_REQ went (R337: 100 ms) -/
  askedAt : Nat := 0
deriving DecidableEq, Repr

structure Bwt where
  man : Option Manifest := none
  stored : Option Manifest := none
  regions : Tab RegionSt := []
  journal : Journal := {}
  sealing : Option Seal := none
  /-- journals frozen while a seal runs, oldest first -/
  sealWait : List Seal := []
  current : Option Bytes := none
  previous : Option Bytes := none
  currentDigest : Bytes := List.replicate 48 0
  previousDigest : Bytes := List.replicate 48 0
  /-- what the private store holds of these four, once a seal has stayed in SRAM because the flash has failed (19 R357) -/
  inFlash : Option (Option Bytes × Option Bytes × Bytes × Bytes) := none
  bootSeq : Word := 0
  /-- 03 R41: the journal of the current host boot has been sealed -/
  sealedBoot : Bool := false
  flashFault : Bool := false
  quadOk : Bool := false
  /-- the reads the SFDP of the flash offers, as read at R340 -/
  offers : List Byte := []
  holdFailed : Half := 0
  holdPassed : Half := 0
  refused : Half := 0
  wblkBlocked : Half := 0
  cntPost : Word := 0
  sr1 : Byte := 0
  sr2 : Byte := 0
  addr4 : Bool := false
deriving DecidableEq, Repr

/-! ### Logbook (19) -/

/-- What the device does once a record is written (19 R350). -/
inductive After where
  | nothing
  | complete (rid : Nat) (status : Half) (seqResult : Bool)
  | lcStart
  | lcDone (rid : Nat)
  | ownerDelete (rid owner : Nat)
  | grant (rid : Option Nat) (cert : Bytes)
  | tokenEnter
  /-- 18 R338: a SEAL record; the request of BW_SEAL gets the journal digest -/
  | sealed (rid : Option Nat) (digest : Bytes)
  | fatal
  /-- 01 R19: the INIT record of the ledger -/
  | ledgerInit
  /-- 09 R167: the tamper record -/
  | tamper
deriving DecidableEq, Repr

structure Record where
  rtype : Half
  attr : Byte
  payload : Bytes
  after : After := .nothing
  /-- fabric cycle in which it reached the writer (19 R350) -/
  reached : Nat := 0
deriving DecidableEq, Repr

structure LogRec where
  seq : Nat
  bytes : Bytes
  crit : Bool
  attr : Byte
  /-- C after this record (19 R349) -/
  chainAfter : Bytes := []
  /-- counts in its stall's Logbook use: not since a removal or a partition change (R353) -/
  counted : Bool := true
deriving DecidableEq, Repr

/-- 19 R357, R45: where the Logbook in flash ends while records go to the SRAM ring. -/
structure EvrSaved where
  head : Nat
  chain : Option Bytes
  cchain : Option Bytes
deriving DecidableEq, Repr

structure Evr where
  log : List LogRec := []
  saved : Option EvrSaved := none
  /-- SRAM ring while FAILED (R357) -/
  ring : List LogRec := []
  head : Nat := 0
  chain : Option Bytes := none
  cchain : Option Bytes := none
  queue : List Record := []
  writing : Option (Record × Bytes) := none
  /-- flash program retries of the record being written (R357) -/
  retries : Nat := 0
  early : List Record := []
  failed : Bool := false
  critHigh : Bool := false
  critFull : Bool := false
  ncRefusing : Bool := false
  isOpen : Bool := false
  cntLost : Word := 0
  cntRefused : Word := 0
  cntCritRefused : Word := 0
  cntTorn : Word := 0
  first : Nat := 0
  next : Nat := 0
  window : Bytes := List.replicate 256 0
deriving DecidableEq, Repr

/-! ### Krovlo (20) -/

inductive Role where
  | solitary | member | excluded | enumerating
deriving DecidableEq, Repr

/-- 20 R372: a sequenced frame on its way, the cells it holds, and the local request it carries or serves. -/
structure TxFrame where
  frame : Frame
  cells : List Nat := []
  rid : Option Nat := none
deriving DecidableEq, Repr

structure PortSt where
  up : Bool := false
  degraded : Bool := false
  holding : Bool := false
  miswire : Bool := false
  swapped : Bool := false
  locked : BitVec 2 := 0
  inverted : BitVec 2 := 0
  /-- sequenced frames queued and not yet sent, oldest first -/
  queue : List TxFrame := []
  /-- frames sent and not yet acknowledged, oldest first -/
  retained : List TxFrame := []
  /-- frames that found no token (R372) -/
  waiting : List TxFrame := []
  txSeq : Word := 0
  rxNext : Word := 0
  peerFree : Nat := 32
  ackDue : Bool := false
  nakDue : Bool := false
  /-- the port came up with frames sent before it went down: it waits for the neighbour's first ACK (R373) -/
  resync : Bool := false
  /-- down beyond LINK_HOLD: the ring counts as open until it comes up again (R373) -/
  cut : Bool := false
  /-- since when frames are held, for LINK_HOLD (R373) -/
  downAt : Nat := 0
  /-- training: TRAIN with ACK has gone both ways; lanes left out for want of a lock (R364) -/
  acked : Bool := false
  leftOut : BitVec 2 := 0
deriving DecidableEq, Repr

/-- 20 R374, R375: what the unit knows of another unit. -/
structure Peer where
  body : StatusBody
  seenAt : Nat
deriving DecidableEq, Repr

structure Replicate where
  rid : Nat
  handle : Word
  bitmap : Half := 0
  /-- the cycle in which the frames went -/
  since : Nat := 0
deriving DecidableEq, Repr

/-- CHN_ADMIT or CHN_SET_EPOCH waiting for acknowledgements (R377). -/
structure CfgWait where
  rid : Nat
  waitFor : Half
deriving DecidableEq, Repr

structure ResultRun where
  completion : Bytes
  bytes : Bytes
  total : Nat
  since : Nat
  cells : List Nat := []
deriving DecidableEq, Repr

structure Chn where
  role : Role := .enumerating
  repl : Bool := false
  openRing : Bool := false
  /-- open as enumerated (R367) -/
  line : Bool := false
  addrValid : Bool := false
  units : Nat := 0
  leader : Nat := 0
  addr : Nat := 0
  isHead : Bool := false
  /-- first address upstream of the head, learned from ENUM_BACK (R367); and whether this unit lies there -/
  split : Nat := 16
  upstream : Bool := false
  headId : Option Bytes := none
  /-- the enumeration that REENUM or a port's coming up started runs (00 R5, R367) -/
  enumRunning : Bool := false
  attempts : Nat := 0
  unacked : Nat := 0
  heardInCycle : Bool := false
  linkHold : Nat := 2000
  up : PortSt := {}
  dn : PortSt := {}
  delays : List Nat := []
  epoch : Quad := 0
  admitted : List Bytes := []
  /-- R375: excluded from replication until the next epoch change -/
  admMismatch : Bool := false
  dupId : Bool := false
  /-- a port has come up since the start-up (R368, R374) -/
  everUp : Bool := false
  time : Quad := 0
  /-- R376: an offset of up to 1 ms still to be removed by the rate; the offset that a slew removes, and what is left of it; in ns -/
  trim : Int := 0
  slewing : Option Int := none
  slewLeft : Int := 0
  slot : Nat := 0
  statusDue : Bool := false
  view : Tab Peer := []
  cntRetx : Word := 0
  cntMarkFalse : Word := 0
  cntReturned : Word := 0
  cntHopDrop : Word := 0
  /-- EN and ADDR of CHN.REMOTEn -/
  remote : Tab (Bool × Nat) := []
  /-- CHN_REPLICATE, and CHN_ADMIT or CHN_SET_EPOCH, in progress, oldest first -/
  replicates : List Replicate := []
  cfgWaits : List CfgWait := []
  results : Tab ResultRun := []
  /-- COSIGN requests served, per origin, with their times (R381) -/
  cosigTimes : List (Nat × Nat) := []
  /-- firmware differences already recorded (R375) -/
  fwNoted : List Nat := []
deriving DecidableEq, Repr

/-! ### Timers (21) -/

structure Timer where
  zeroIe : Bool := false
  capIe : Bool := false
  capEn : Bool := false
  capPin : BitVec 2 := 0
  capEdge : BitVec 2 := 0
  fMode : Bool := false
  src : BitVec 3 := 0
  edge : BitVec 2 := 0
  k : BitVec 4 := 0
  running : Bool := false
  load : Word := 0
  count : Word := 0
  div : Word := 0x00010000
  /-- P-mode: fabric cycles since the last tick; F-mode: the 16.16 phase -/
  phase : Nat := 0
  zero : Bool := false
  capOvf : Bool := false
  caps : List Word := []
  /-- for events that meet in one cycle (21 R388): the cycles in which COUNT reached 0 and in which STOP was written; a capture discarded, with CAP_OVF before it -/
  zeroAt : Option Nat := none
  stopAt : Option Nat := none
  missed : Option (Nat × Word × Bool) := none
  /-- CAP_IE, CAP_EN, CAP_PIN and CAP_EDGE up to the cycle of their last write: what is written takes effect in the next (21 TMR.CTL) -/
  capOld : Option (Nat × Bool × Bool × BitVec 2 × BitVec 2) := none
deriving DecidableEq, Repr

/-! ### Management port (22) -/

structure Asm where
  key : AsmKey
  nextSeq : Nat
  bytes : Bytes
  since : Nat
deriving DecidableEq, Repr

structure Mgt where
  actEn : Bool := false
  alertEn : BitVec 5 := 0
  saddr : BitVec 7 := 0x4E
  i3c : Bool := false
  v33 : Bool := false
  bankOff : Bool := false
  dynAddr : BitVec 7 := 0
  eid : Byte := 0
  alert : BitVec 5 := 0
  cntMsg : Half := 0
  cntPkt : Half := 0
  enabled : Bool := false
  ibiEn : Bool := false
  asm : List Asm := []
  /-- SPDM: GET_VERSION, GET_CAPABILITIES and NEGOTIATE_ALGORITHMS seen, with the transcript -/
  spdmStage : Nat := 0
  transcript : Bytes := []
  measTranscript : Bytes := []
deriving DecidableEq, Repr

/-! ### Outputs (log 2) -/

inductive Tlp where
  | ok (value : Word)
  | data (bytes : Bytes)
  /-- 06 R107: zeros with an error response -/
  | denied (bytes : Bytes)
  | crs | ur | ca
deriving DecidableEq, Repr

inductive Aer where
  | correctable (k : PcieCorr) | advisory (k : PcieAdv)
  /-- none: a completion timeout -/
  | nonFatal (k : Option DmaErr)
  | errFatal (k : PcieFatal) | correctedInternal | uncorrectableInternal | unsupportedRequest | completerAbort
deriving DecidableEq, Repr

inductive Out where
  | msix (f : Func) (vector : Nat)
  /-- posted write of a function; reads below alike -/
  | hostWrite (f : Func) (addr : Nat) (bytes : Bytes)
  /-- read-modify-write of the 8-byte bitmap word at `addr` that sets bit `b` of byte `addr` (11 R204) -/
  | hostSetBit (addr : Nat) (b : Nat)
  /-- 12 R210, R218: a read of `len` bytes from host address `addr` -/
  | dmaRead (tag : Nat) (f : Func) (addr len : Nat)
  | tlp (f : Func) (a : Tlp)
  | aer (f : Func) (a : Aer)
  | pmPme
  /-- answer to a read inside the device; none is the error response of 06 R107 -/
  | bus (m : Master) (value : Option Bytes)
  | tap (status : Half) (bytes : Bytes)
  /-- 20 R362, R364: TRAIN blocks, by lane -/
  | train (p : Port) (blocks : List Bytes)
  /-- a frame and its blocks, by lane (20 R363) -/
  | frame (p : Port) (f : Frame) (lanes : List (List Bytes))
  /-- 08 R137: a command on the card bus, and the block that a CMD24 writes -/
  | card (slot : Slot) (cmd : CardCmd) (arg : Word) (block : Bytes)
  | mgtReply (bytes : Bytes)
  | mgtNack
  | ibi (alert : Byte)
  | flashPass (opcode : Byte)
  | flashAnswer (bytes : Bytes)
  | flashRefused (opcode : Byte)
  | word (bytes : Bytes) (count : Nat) (last : Bool)
  | yardEmpty
  /-- the fault of 06 R107 in a processor whose fetch was denied -/
  | fetchFault (cp : Nat)
  /-- 06 R100: a processor takes an interrupt in the secure or the normal world -/
  | irqTaken (cp : Nat) (secure : Bool) (src : Nat)
  /-- 19 R344: a program unit of the private flash, its ciphertext and tag -/
  | psfProgram (unit : Nat) (cipher tag : Bytes)
  | secureIrq (src : Nat)
  | normalIrq (src : Nat)
deriving DecidableEq, Repr

/-! ### The device and the block -/

structure Dev where
  now : Nat := 0
  glb : Glb := {}
  ldg : Ledger := {}
  otp : Otp := {}
  lc : Lc := {}
  dbg : Dbg := {}
  sec : Sec := {}
  /-- SRAM at 0x2000_0000 by byte address, zero where unlisted (06 R93, 03 R45) -/
  sram : List Host.Cell := []
  /-- normal-world part of the private store by byte address (19 R343) -/
  psUser : List Host.Cell := []
  hif : Hif := {}
  stl : Stl := {}
  yrd : Yrd := {}
  reqs : Tab Req := []
  comps : Tab Comp := []
  nextRid : Nat := 0
  cls : Cls := {}
  key : Key := {}
  ps : Ps := {}
  pke : Tab Pke := []
  pkeWait : List Waiting := []
  pkeWindow : Nat := 0
  sym : Sym := {}
  rng : Nat := 0
  crd : Crd := {}
  tmp : Tmp := {}
  bwt : Bwt := {}
  evr : Evr := {}
  chn : Chn := {}
  tmr : Tab Timer := []
  /-- 21 R386: by pin and direction, the cycle whose edge on TMR_IN the timers have counted -/
  pinEdges : Tab Nat := []
  mgt : Mgt := {}
  out : List Out := []
deriving DecidableEq, Repr

/-- The block: the device and the commands that wait, first in first out. -/
structure State extends Dev where
  pending : List Instr := []
deriving DecidableEq, Repr

/-- No command of this block stops the machine: the spec gives every violation a result (00 R2, 00 R7). The type is closed and has no constructor a meaning raises. -/
inductive Fault where
  /-- Raised by no meaning; kept so that the outcome type is inhabited. Safe. -/
  | none
deriving DecidableEq, Repr

inductive Refusal where
  /-- Raised by `exec` for a row whose meaning is not written yet. Safe: nothing is claimed about such a row. -/
  | notModelled (mnemonic : String)
deriving DecidableEq, Repr

/-- The machine before its first start-up: every register at its reset value, the unit in OFF; VMAIN_GOOD raises the POR (03 R45, R52; log 3). -/
def State.reset : State := {}

end Sys2Proof.Machine
end

