-- ==== Sys2Proof/Machine/Bits.lean ====
section
/-! DEFINITION. Byte order (00 R8), CRC32C (12 R221), sparse tables, and sparse byte memory in canonical form. -/

namespace Sys2Proof.Machine

/-! ### Sparse tables -/

def tget {α : Type} : Tab α → Nat → Option α
  | [], _ => none
  | (j, w) :: t, k => if j = k then some w else tget t k

def tgetD {α : Type} (t : Tab α) (k : Nat) (dflt : α) : α := (tget t k).getD dflt

def tset {α : Type} : Tab α → Nat → α → Tab α
  | [], k, v => [(k, v)]
  | (j, w) :: t, k, v =>
    if k < j then (k, v) :: (j, w) :: t
    else if k = j then (k, v) :: t
    else (j, w) :: tset t k v

def tdel {α : Type} : Tab α → Nat → Tab α
  | [], _ => []
  | (j, w) :: t, k => if j = k then t else (j, w) :: tdel t k

/-- Change one entry, starting from `dflt` where none is listed. -/
def tmod {α : Type} (t : Tab α) (k : Nat) (dflt : α) (f : α → α) : Tab α := tset t k (f (tgetD t k dflt))

/-- Indices strictly rising, all at least `lo`. -/
def risingFrom {α : Type} (lo : Nat) : Tab α → Bool
  | [] => true
  | (j, _) :: t => decide (lo ≤ j) && risingFrom (j + 1) t

def twf {α : Type} (t : Tab α) : Bool := risingFrom 0 t

/-! ### Bytes -/

/-- `n` bytes of `x`, least significant first (00 R8). -/
def leBytes : Nat → Nat → Bytes
  | 0, _ => []
  | n + 1, x => BitVec.ofNat 8 x :: leBytes n (x / 256)

/-- The integer whose bytes are given least significant first (00 R8). -/
def leNat : Bytes → Nat
  | [] => 0
  | b :: l => b.toNat + 256 * leNat l

def beBytes (n x : Nat) : Bytes := (leBytes n x).reverse
def beNat (l : Bytes) : Nat := leNat l.reverse

def slice (l : Bytes) (off len : Nat) : Bytes := (l.drop off).take len
def byteAt (l : Bytes) (i : Nat) : Byte := l.getD i 0
def leAt (l : Bytes) (off len : Nat) : Nat := leNat (slice l off len)
def half (l : Bytes) (off : Nat) : Half := BitVec.ofNat 16 (leAt l off 2)
def word (l : Bytes) (off : Nat) : Word := BitVec.ofNat 32 (leAt l off 4)
def quad (l : Bytes) (off : Nat) : Quad := BitVec.ofNat 64 (leAt l off 8)
def zeros (n : Nat) : Bytes := List.replicate n 0
def allZero (l : Bytes) : Bool := l.all (· == 0)
def b4 (w : Word) : Bytes := leBytes 4 w.toNat
def b8 (w : Quad) : Bytes := leBytes 8 w.toNat
def b2 (w : Half) : Bytes := leBytes 2 w.toNat
def ascii (s : String) : Bytes := s.toList.map fun c => BitVec.ofNat 8 c.toNat
/-- 19 R455: block prefixes are 4 ASCII bytes, padded with spaces. -/
def pfx (s : String) : Bytes := (ascii s ++ [0x20, 0x20, 0x20, 0x20]).take 4

def xorBytes : Bytes → Bytes → Bytes
  | a :: l, b :: m => (a ^^^ b) :: xorBytes l m
  | _, _ => []

/-- Compose a register from (value, lowest bit) fields. -/
def fields (l : List (Nat × Nat)) : Word := BitVec.ofNat 32 (l.foldr (fun p a => p.1 * 2 ^ p.2 + a) 0)

/-- Field [lo + len − 1 : lo]. -/
def fld (w : Word) (lo len : Nat) : Nat := w.toNat / 2 ^ lo % 2 ^ len
def bit (w : Word) (i : Nat) : Bool := w.getLsbD i

/-! ### CRC32C (12 R221): polynomial 0x1EDC_6F41 reflected is 0x82F6_3B78 -/

def crcBits : Nat → Word → Word
  | 0, c => c
  | n + 1, c => crcBits n (if c.getLsbD 0 then (c >>> 1) ^^^ 0x82F63B78 else c >>> 1)

def crcFold : Bytes → Word → Word
  | [], c => c
  | b :: l, c => crcFold l (crcBits 8 (c ^^^ b.setWidth 32))

def crc32c (l : Bytes) : Word := crcFold l 0xFFFFFFFF ^^^ 0xFFFFFFFF

/-! ### Sparse byte memory: zero where unlisted -/

abbrev Mem := List Host.Cell

/-- Canonical form: addresses strictly rising from `lo`, no zero byte listed. -/
def memFrom (lo : Nat) : Mem → Bool
  | [] => true
  | (a, b) :: m => decide (lo ≤ a) && b != 0 && memFrom (a + 1) m

def memWf (m : Mem) : Bool := memFrom 0 m

def memRead : Mem → Nat → Byte
  | [], _ => 0
  | (a, b) :: m, k => if a = k then b else memRead m k

def memWrite : Mem → Nat → Byte → Mem
  | [], k, v => if v = 0 then [] else [(k, v)]
  | (a, b) :: m, k, v =>
    if k < a then (if v = 0 then (a, b) :: m else (k, v) :: (a, b) :: m)
    else if k = a then (if v = 0 then m else (k, v) :: m)
    else (a, b) :: memWrite m k v

/-- Write bytes to rising addresses from `k`. -/
def memWriteBytes (m : Mem) (k : Nat) : Bytes → Mem
  | [] => m
  | b :: l => memWriteBytes (memWrite m k b) (k + 1) l

/-- Drop every listed byte in [lo, lo + len). -/
def memClear (m : Mem) (lo len : Nat) : Mem := m.filter fun c => !(decide (lo ≤ c.1) && decide (c.1 < lo + len))

def memBytes (m : Mem) (k : Nat) : Nat → Bytes
  | 0 => []
  | n + 1 => memRead m k :: memBytes m (k + 1) n

/-! ### Counters that saturate -/

def satInc {w : Nat} (x : BitVec w) : BitVec w := if x = BitVec.allOnes w then x else x + 1

/-- Search the `n` indices in cyclic order from `start` for one that `free` accepts. -/
def scan (free : Nat → Bool) (n : Nat) : Nat → Nat → Option Nat
  | 0, _ => none
  | fuel + 1, k => if free (k % n) then some (k % n) else scan free n fuel (k + 1)

/-- The first status whose condition holds, in order (12 R224, 13 R236). -/
def firstFail : List (Bool × Half) → Option Half
  | [] => none
  | (bad, st) :: l => if bad then some st else firstFail l

def bits64 (x : BitVec 64) : List Nat := (List.range 64).filter fun i => x.getLsbD i

end Sys2Proof.Machine
end

