-- ==== Sys2Proof/Machine/Flags.lean ====
section
/-! DEFINITION. The status codes (12 R230) and every register whose bits are computed from the state: one function per register, in the layout of its field table. -/

namespace Sys2Proof.Machine

/-! ### Status codes of 12 R230 -/
namespace ST
def ok : Half := 0x0000
def format : Half := 0x0101
def hdrCrc : Half := 0x0102
def lenConflict : Half := 0x0103
def lenRange : Half := 0x0104
def nestLimit : Half := 0x0105
def fragOrphan : Half := 0x0106
def opcode : Half := 0x0107
def resultSpace : Half := 0x0108
def param : Half := 0x0109
def denied : Half := 0x0201
def handleBad : Half := 0x0202
def keyUsage : Half := 0x0203
def quorumPending : Half := 0x0204
def blobBad : Half := 0x0205
def ownerBad : Half := 0x0206
def blobFw : Half := 0x0207
def genStale : Half := 0x0208
def stallState : Half := 0x0209
def manifestBad : Half := 0x020A
def sealed : Half := 0x020B
def busy : Half := 0x0301
def noCells : Half := 0x0302
def slotQuota : Half := 0x0303
def dmaFail : Half := 0x0304
def logFull : Half := 0x0305
def aborted : Half := 0x0401
def verifyFail : Half := 0x0402
def algParam : Half := 0x0403
def rngFail : Half := 0x0404
def engineFault : Half := 0x0405
def authFail : Half := 0x0406
def linkLost : Half := 0x0501
def quorumLost : Half := 0x0502
def excluded : Half := 0x0503
def frameLong : Half := 0x0504
def locked : Half := 0x0601
def lcIllegal : Half := 0x0602
def tokenBad : Half := 0x0603
def tokenUsed : Half := 0x0604
def certBad : Half := 0x0605
def certRange : Half := 0x0606
def nonceStale : Half := 0x0607
def otpFail : Half := 0x0608
def dbgAsleep : Half := 0x0609
end ST

/-! ### Holders of ledger units (23 R407): stalls are 0-63 -/
namespace H
def pf : Nat := 0x7F
def krovlo : Nat := 0x80
def mgt : Nat := 0x81
def internal : Nat := 0x82
def engine (e : Nat) : Nat := 0x90 + e
def portUp : Nat := 0xA0
def portDn : Nat := 0xA1
def fenced : Nat := 0xB0
def token : Nat := 0xC0
def grant : Nat := 0xC1
end H

def secondCycles : Nat := 400000000
def msCycles : Nat := 400000

def heldSum (t : Tab Nat) : Nat := t.foldr (fun p a => p.2 + a) 0
def poolOf (d : Dev) (p : Nat) : Pool := tgetD d.ldg.pools p {}
def heldBy (d : Dev) (p h : Nat) : Nat := tgetD (poolOf d p).held h 0
/-- 23 R407. -/
def capacity (p : Nat) : Nat := match p with | 0 => 20480 | 1 => 32768 | 2 => 4 | 3 => 64 | 4 => 256 | 5 => 2 | _ => 0
/-- 23 R411: units held by the PF and the device, not by a stall. -/
def heldDev (t : Tab Nat) : Nat := heldSum (t.filter fun p => decide (64 ≤ p.1))

def stall (d : Dev) (n : Nat) : Stall := tgetD d.stl.stalls n {}
def ringOf (d : Dev) : RingId → Ring
  | .stall n => (stall d n.val).ring
  | .pf => d.stl.pfRing
def eng (d : Dev) (e : Nat) : Pke := tgetD d.pke e {}
def tmrOf (d : Dev) (t : Nat) : Timer := tgetD d.tmr t {}
def queueOf (d : Dev) (q : Nat) : YQueue := tgetD d.yrd.queues q {}
def funcIdx : Func → Nat | .pf => 64 | .vf n => n.val
def cfgOf (d : Dev) (f : Func) : FuncCfg := tgetD d.hif.cfg (funcIdx f) {}
def portOf (d : Dev) : Port → PortSt | .up => d.chn.up | .dn => d.chn.dn
def slotOf (d : Dev) : Slot → CardSlot | .a => d.crd.a | .b => d.crd.b
/-- 11 R192: partition count N. -/
def partN (d : Dev) : Nat := 2 ^ d.stl.partCur
def enabled (s : Stall) : Bool := s.st != .disabled
def vfExists (d : Dev) (n : Nat) : Bool := decide (n < d.hif.vfCount)

def ringIssuer : RingId → Issuer | .stall n => .stall n | .pf => .pf
def ringFunc : RingId → Func | .stall n => .vf n | .pf => .pf
/-- Issuer byte of 12 R219, 16 PKE.STATUS.ISSUER. -/
def issuerCode : Issuer → Nat | .stall n => n.val | .pf => 0x7F | .krovlo _ => 0x7F | .mgt => 0x7F | .secure => 0x7E
/-- Key bits [247:240] of 14 R257. -/
def issuerKey : Issuer → Nat | .stall n => n.val | .pf => 0x7F | .krovlo o => 0x80 + o.val | .mgt => 0xC0 | .secure => 0x7F
/-- 15 R271: allotment, and owner tag, of an issuer's cells. -/
def holderOf : Issuer → Nat | .stall n => n.val | .pf => H.pf | .krovlo _ => H.krovlo | .mgt => H.mgt | .secure => H.internal
def tagOf : Issuer → Nat | .stall n => n.val | _ => 0x7F
def issuerFunc : Issuer → Func | .stall n => .vf n | _ => .pf
/-- Numeric identity of an issuer, for tables. -/
def issuerIdx : Issuer → Nat | .stall n => n.val | .pf => 64 | .krovlo o => 65 + o.val | .mgt => 81 | .secure => 82

def stallCode : StallSt → Nat
  | .disabled => 0 | .ready => 1 | .active => 2 | .paused => 3 | .faulted => 4 | .resetting => 5 | .removing => 6

/-- Does issuer number `n` hold the PKE slot of an engine: by an operation, or by one whose abort has not finished. -/
def holdsPke (n : Nat) (p : Pke) : Bool :=
  (match p.op with | some o => decide (issuerIdx o.issuer = n) | none => false) || (match p.stopped with | some o => decide (issuerIdx o.issuer = n) | none => false)
/-- 11 R191. -/
def quiescent (d : Dev) (n : Nat) : Bool :=
  let s := stall d n
  match s.st with
  | .disabled => true
  | .ready | .paused =>
    !(d.reqs.any fun r => decide (issuerIdx r.2.issuer = n))
    && heldBy d 4 n == 0
    && !(d.pke.any fun e => holdsPke n e.2)
    && decide (heldBy d 1 n ≤ s.recovery)
  | _ => false

/-! ### Registers -/

/-- 03 GLB.PWR_STATUS. -/
def rPwrStatus (d : Dev) : Word :=
  fields [(d.glb.refuse.toNat, 8), (d.glb.vbatOk.toNat, 4), (d.glb.rsvOk.toNat, 3),
          (match d.glb.req with | some q => if q.standby then 2 else 1 | none => 0, 0)]
/-- 02 GLB.STRAPS. -/
def rStraps (d : Dev) : Word :=
  let s := d.glb.straps
  fields [(s.strapFault.toNat, 5), (s.vioBfOk.toNat, 4), (s.flashV.toNat, 3), (s.bwMode.toNat, 1), (s.chainHead.toNat, 0)]
/-- 03 GLB.RESET_CAUSE. -/
def rResetCause (d : Dev) : Word := d.glb.resetCause.setWidth 32
/-- 03 GLB.XWD_STATUS. -/
def rXwdStatus (d : Dev) : Word := fields [(d.glb.xwdValid.toNat, 31), (d.glb.xwdMulti.toNat, 4), (d.glb.xwdFirst.toNat, 0)]
def rXwdCnt (d : Dev) (n : Nat) : Word := let c := tgetD d.glb.xwdCnt n {}; fields [(c.codeFail.toNat, 16), (c.timeouts.toNat, 0)]
/-- 04 GLB.LC_STATE. -/
def rLcState (d : Dev) : Word :=
  fields [(d.lc.resumable.toNat, 31), (d.lc.job.isSome.toNat, 30), (d.lc.target.toNat, 16), (d.lc.base.toNat, 8), (d.lc.state.toNat, 0)]
/-- 04 GLB.DBG_STATUS. -/
def rDbgStatus (d : Dev) : Word :=
  fields [(d.dbg.tokenFails.toNat, 16), (d.dbg.standing.toNat, 10), (d.dbg.grant.toNat, 8), (d.dbg.rights.toNat, 0)]
/-- 23 GLB.ERR_CNT. -/
def rErrCnt (d : Dev) : Word := fields [(d.glb.errDCount.toNat, 16), (d.glb.errC.toNat, 0)]
/-- 23 GLB.ERR_D. -/
def rErrD (d : Dev) : Word :=
  let e := d.glb.errD
  fields [(e.valid.toNat, 31), (e.paused.toNat, 30), (e.multi.toNat, 29), (e.block.toNat, 24), (e.sub.toNat, 16), (e.code.toNat, 0)]
/-- 10 HIF.LINK_STATUS. -/
def rLinkStatus (d : Dev) : Word :=
  fields [(d.hif.degraded.toNat, 31), (d.hif.up.toNat, 8), (d.hif.width.toNat, 4), (d.hif.speed.toNat, 0)]
/-- 06 SEC.HANDOVER. -/
def rHandover (d : Dev) : Word :=
  fields [(d.sec.hoGo.toNat, 31), (d.sec.hoResult.toNat, 16), (d.sec.hoTo.toNat, 8), (d.sec.hoPeriph.toNat, 0)]
/-- 06 SEC.VIOL_INFO. -/
def rViolInfo (d : Dev) : Word :=
  match d.sec.viol with
  | [] => 0
  | v :: _ => fields [(1, 31), (v.master.toNat, 16), (v.region.toNat, 12), (v.slave.toNat, 8), (v.kind.toNat, 1), (v.caught.toNat, 0)]
def rViolAddr (d : Dev) : Word := match d.sec.viol with | [] => 0 | v :: _ => v.addr
/-- 07 KEY.STATUS. -/
def rKeyStatus (d : Dev) : Word :=
  fields [(d.key.rootWait.toNat, 31), (d.key.grantLock.toNat, 30), (d.key.root, 8), (d.key.measValid.toNat, 7), (d.key.bank.length, 0)]
/-- 07 KEY.SLOT_COUNT. -/
def rSlotCount (d : Dev) : Word := fields [(4096 - d.key.slots.length, 16), (d.key.slots.length, 0)]
/-- 07 KEY.OWNER_INFO of one owner. -/
def rOwnerInfo (d : Dev) (o : Nat) : Word :=
  match tget d.key.owners o with
  | none => 0
  | some w =>
    fields [(1, 31), ((w.mode == 1).toNat, 30), (w.m, 27), (w.n, 23),
            ((d.key.slots.filter fun s => decide (s.2.owner.toNat = o)).length, 8), (w.aonQuota, 0)]
/-- 07 KEY.OWNER_STALLS0/1: for owner 0 the PF is bit 0. -/
def rOwnerStalls (d : Dev) (o : Nat) : BitVec 64 :=
  match tget d.key.owners o with
  | none => 0
  | some w => if o = 0 then 1 else w.stalls
def rOwnerCap (d : Dev) (o : Nat) : Word := match tget d.key.owners o with | none => 0 | some w => BitVec.ofNat 32 w.cap

/-- 09 alarm bits of the mesh pairs. -/
def meshBits (t : Tab (BitVec 4)) : Nat := t.foldr (fun p a => (if p.2 = 0 then 0 else 2 ^ p.1) + a) 0
/-- 09 TMP.CAUSE [3:0] of a set of monitors: CLOCK VOLT TEMP LIGHT. -/
def monField (m : Byte) : BitVec 4 :=
  BitVec.ofNat 4 ((m.getLsbD 0).toNat + 2 * (m.getLsbD 1).toNat + 4 * (m.getLsbD 2 || m.getLsbD 3 || m.getLsbD 4).toNat +
    8 * (m.getLsbD 5 || m.getLsbD 6 || m.getLsbD 7).toNat)
/-- 09 TMP.STATUS. -/
def rTmpStatus (d : Dev) : Word :=
  fields [(d.tmp.hold.toNat, 31), (d.tmp.lid.toNat, 16), (meshBits d.tmp.mesh, 8), ((monField d.tmp.mon).toNat, 0)]
/-- 09 TMP.CAUSE. -/
def rTmpCause (d : Dev) : Word :=
  let t := d.tmp
  fields [(t.cValid.toNat, 31), (t.cInVault.toNat, 30), (t.cZdone.toNat, 29), (t.cZpart.toNat, 28), (t.cLid.toNat, 16), (t.cMesh.toNat, 8), (t.cMon.toNat, 0)]
/-- 09 TMP.MESH. -/
def rTmpMesh (d : Dev) : Word := BitVec.ofNat 32 (d.tmp.mesh.foldr (fun p a => p.2.toNat * 16 ^ p.1 + a) 0)
def anyAlarm (d : Dev) : Bool := d.tmp.lid != 0 || meshBits d.tmp.mesh != 0 || d.tmp.mon != 0

/-- 16 PKE.STATUS. -/
def rPkeStatus (d : Dev) (e : Nat) : Word :=
  let p := eng d e
  fields [((p.op.isSome || p.aborting).toNat, 31), (p.mac.toNat, 30), (p.oos.toNat, 29), (p.relock.toNat, 28),
          (match p.op with | some o => issuerCode o.issuer | none => 0, 16),
          (match p.op with | some o => o.alg.toNat | none => 0, 0)]
def rPkeIrq (d : Dev) (e : Nat) : Word := let p := eng d e; fields [(p.irqFault.toNat, 2), (p.irqAborted.toNat, 1), (p.irqDone.toNat, 0)]
def rPkeFault (d : Dev) (e : Nat) : Word := let p := eng d e; fields [(p.cntAborts.toNat, 16), (p.cntCheck.toNat, 0)]
/-- 16 R302: the balance a stall has on an engine, in µs; where none was written in this window it is the stall's share. -/
def balanceOf (d : Dev) (e n : Nat) : Int := tgetD (eng d e).balance n (64000 / partN d : Nat)
def rPkeUse (d : Dev) (e : Nat) : Word := BitVec.ofInt 32 (balanceOf d e (eng d e).useSel.toNat)

/-- 17 SYM.LANE_BUSY. -/
def rLaneBusy (d : Dev) : Word := BitVec.ofNat 32 (d.sym.lanes.foldr (fun p a => 2 ^ p.1 + a) 0)
/-- 17 SYM.RNG_STATUS. -/
def rRngStatus (d : Dev) : Word :=
  let s := d.sym
  fields [(s.rngFailed.toNat, 31), (s.rngPerm.toNat, 30), (s.rngFails.toNat, 8), (s.rngCause.toNat, 1), (s.rngInst.toNat, 0)]

def phaseCode : Phase → Nat | .empty => 0 | .debounce => 1 | .identification => 2 | .transfer => 3 | .exchange => 4 | .done => 5 | .disabled => 6
/-- 08 CRD.SLOTx_STATUS. -/
def rCrdSlot (c : CardSlot) : Word :=
  fields [(c.fault.toNat, 28), (c.index.toNat, 20), (c.owner.toNat, 12), (phaseCode c.phase, 1), (c.present.toNat, 0)]
def popCount8 (b : Byte) : Nat := ((List.range 8).filter fun i => b.getLsbD i).length
/-- 08 CRD.Q_STATUS. -/
def rQStatus (d : Dev) : Word :=
  match d.crd.session with
  | none => 0
  | some s => fields [(1, 31), ((s.met && s.consumedBy.isNone).toNat, 30), (s.mEff, 27), (popCount8 s.indices, 23), (s.indices.toNat, 8), (s.owner, 0)]
/-- 08 CRD.Q_REMAIN: whole seconds left in the window. -/
def rQRemain (d : Dev) : Word :=
  match d.crd.session with
  | none => 0
  | some s =>
    let w := match tget d.key.owners s.owner with | some o => o.window | none => 0
    BitVec.ofNat 32 ((w * secondCycles - (d.now - s.since)) / secondCycles)

/-- 18: Strict mode, 0b11 included (02 R30). -/
def strict (d : Dev) : Bool := d.glb.straps.bwMode == 2 || d.glb.straps.bwMode == 3
def absent (d : Dev) : Bool := d.glb.straps.bwMode == 0
def regionSt (d : Dev) (i : Nat) (base : Nat) : RegionSt := tgetD d.bwt.regions i { next := base }
def gateReady (d : Dev) : Bool :=
  !absent d &&
  match d.bwt.man with
  | none => !strict d
  | some m => (m.regions.zipIdx).all fun (r, i) => !r.gate || (regionSt d i r.base).verified
/-- 18 BWT.STATUS. -/
def rBwtStatus (d : Dev) : Word :=
  let b := d.bwt
  fields [(b.journal.opened.toNat, 31), (b.sealing.isSome.toNat, 30), (b.man.isSome.toNat, 29), ((gateReady d).toNat, 28),
          (b.flashFault.toNat, 27), (b.quadOk.toNat, 26), (match b.man with | some m => m.holdCyc.toNat | none => 0, 8),
          ((b.regions.any fun r => r.2.denied).toNat, 7), (match b.man with | some m => m.regions.length | none => 0, 0)]

/-- 19 EVR.STATUS. -/
def rEvrStatus (d : Dev) : Word :=
  let e := d.evr
  fields [(e.failed.toNat, 31), (e.critHigh.toNat, 30), (e.critFull.toNat, 29), (e.ncRefusing.toNat, 28), (e.isOpen.toNat, 0)]
/-- 19 R349: C and K, starting at the hash of the label and DEVICE_ID. -/
def chainC (d : Dev) : Bytes := d.evr.chain.getD (Config.sha384 (ascii "DX48 LOGBOOK" ++ Config.deviceId))
def chainK (d : Dev) : Bytes := d.evr.cchain.getD (Config.sha384 (ascii "DX48 LOGBOOK CRIT" ++ Config.deviceId))

def roleCode : Role → Nat | .solitary => 0 | .member => 1 | .excluded => 2 | .enumerating => 3
/-- 20 CHN.STATUS. -/
def rChnStatus (d : Dev) : Word :=
  let c := d.chn
  fields [(roleCode c.role, 30), (c.repl.toNat, 29), (c.openRing.toNat, 28), (c.addrValid.toNat, 27), (c.units, 16), (c.leader, 8), (c.addr, 0)]
/-- 20 CHN.PORT_UP, CHN.PORT_DN. -/
def rPort (p : PortSt) : Word :=
  fields [(p.up.toNat, 31), (p.degraded.toNat, 30), (p.holding.toNat, 29), (p.miswire.toNat, 28), (p.swapped.toNat, 4), (p.locked.toNat, 2), (p.inverted.toNat, 0)]
def portHolder : Port → Nat | .up => H.portUp | .dn => H.portDn
def tokensFree (d : Dev) (p : Port) : Nat := 32 - heldBy d 3 (portHolder p)
/-- 20 CHN.TOKENS. -/
def rTokens (d : Dev) : Word := fields [(tokensFree d .dn, 16), (tokensFree d .up, 0)]

/-- 11 STL.STATE of stall n. -/
def rStlState (d : Dev) (n : Nat) : Word :=
  let s := stall d n
  fields [((quiescent d n).toNat, 31), (s.fMetered.toNat, 30), (s.wlog.en.toNat, 29), (stallCode s.st, 0)]
/-- 11 STL.CTL: GO reads 1 while the operation runs. -/
def rStlCtl (d : Dev) (n : Nat) : Word :=
  let s := stall d n
  fields [(s.job.isSome.toNat, 31), (s.status.toNat, 12), (s.mode.toNat, 4), (s.op.toNat, 0)]
def rStlFault (d : Dev) (n : Nat) : Word := let s := stall d n; fields [(s.faultCount.toNat, 16), (s.faultCode.toNat, 0)]
def rMeter (s : Stall) : Word := fields [(s.metered.toNat, 31), (s.weight, 0)]
def rWeirCmd (s : Stall) : Word := fields [(s.cmdBurst, 20), (s.cmdRate, 0)]
def rWeirByte (s : Stall) : Word := fields [(s.byteBurst, 16), (s.byteRate, 0)]
def rWlog (w : WLog) : Word := fields [(w.ovf.toNat, 3), (w.bitmapB.toNat, 2), (w.en.toNat, 0)]
/-- 11 STL.PART_CTL. A change is applied within its own step, so GO reads 0. -/
def rPartCtl (d : Dev) : Word := fields [(d.stl.partStatus.toNat, 12), (d.stl.partCur, 4), (d.stl.partReq, 0)]

/-- 12 RING_CTL, SQ_HEAD, CQ_TAIL. -/
def rRingCtl (r : Ring) : Word := fields [(r.en.toNat, 31), (r.status.toNat, 12), (r.depthLog2, 0)]
def rSqHead (r : Ring) : Word := fields [(r.fetch, 16), (r.sqHead, 0)]
def rCqTail (r : Ring) : Word := fields [(r.phase.toNat, 16), (r.cqTail, 0)]

/-- 15 YRD.FREE: zeroed cells in the free list, recovery cells included. -/
def rYrdFree (d : Dev) : Word := BitVec.ofNat 32 (32768 - d.yrd.tags.length - d.yrd.zeroing.length)
def rDevUse0 (d : Dev) : Word := fields [(heldBy d 1 H.krovlo, 16), (heldBy d 1 H.pf, 0)]
def rDevUse1 (d : Dev) : Word := fields [(heldBy d 1 H.internal, 16), (heldBy d 1 H.mgt, 0)]
def rQLevel (q : YQueue) : Word := fields [(q.thresh, 16), (q.cells.length, 0)]
def packetsOf (cells : List QCell) : Nat := (cells.filter fun c => c.last).length
def rYqStatus (q : YQueue) : Word :=
  fields [(q.levelHit.toNat, 31), (q.strandedBit.toNat, 30), (q.cells.isEmpty.toNat, 16), (packetsOf q.cells, 0)]
def rQPtr (q : YQueue) : Word :=
  fields [((q.cells.head?.map (·.idx)).getD 0, 16), ((q.cells.getLast?.map (·.idx)).getD 0, 0)]
def rEvtPend (d : Dev) (k : Nat) : Word :=
  BitVec.ofNat 32 ((List.range 32).foldr (fun j a => let q := queueOf d (32 * k + j); (if q.levelHit || q.strandedBit then 2 ^ j else 0) + a) 0)

/-- 14 CLS.EPOCH_CTL, CLS.TRAP_INFO. -/
def rEpochCtl (d : Dev) : Word :=
  fields [((d.cls.sw != .idle).toNat, 31), (d.cls.wrLost.toNat, 30), (d.cls.status.toNat, 12), (d.cls.epoch.toNat, 0)]
def rTrapInfo (d : Dev) : Word :=
  match d.cls.traps with
  | [] => 0
  | t :: _ => fields [(1, 31), (t.squashed.toNat, 30), (t.pass2.toNat, 29), (t.entry.toNat, 16), (t.issuer.toNat, 8), (t.epoch.toNat, 0)]
def rTrapCell (d : Dev) : Word := match d.cls.traps with | [] => 0 | t :: _ => t.cell.setWidth 32

/-- 21 TMR.CTL, TMR.STATUS, TMR.CAP. -/
def rTmrCtl (t : Timer) : Word :=
  fields [(t.running.toNat, 31), (t.zeroIe.toNat, 21), (t.capIe.toNat, 20), (t.capEn.toNat, 19), (t.capPin.toNat, 17), (t.capEdge.toNat, 15),
          (t.fMode.toNat, 14), (t.src.toNat, 11), (t.edge.toNat, 9), (t.k.toNat, 0)]
def rTmrStatus (t : Timer) : Word := fields [(t.zero.toNat, 31), (t.capOvf.toNat, 30), ((!t.caps.isEmpty).toNat, 29), (t.caps.length, 0)]
def rTmrCap (t : Timer) : Word := t.caps.headD 0

/-- 22 MGT.CFG, MGT.STATUS, MGT.CNT. -/
def rMgtCfg (d : Dev) : Word := fields [(d.mgt.actEn.toNat, 31), (d.mgt.alertEn.toNat, 16), (d.mgt.saddr.toNat, 0)]
def rMgtStatus (d : Dev) : Word :=
  fields [(d.mgt.i3c.toNat, 31), (d.mgt.v33.toNat, 30), (d.mgt.bankOff.toNat, 29), (d.mgt.dynAddr.toNat, 16), (d.mgt.eid.toNat, 0)]
def rMgtCnt (d : Dev) : Word := fields [(d.mgt.cntMsg.toNat, 16), (d.mgt.cntPkt.toNat, 0)]

end Sys2Proof.Machine
end

