-- ==== Sys2Proof/Machine/Ops.lean ====
section
/-! DEFINITION. The named operations every meaning is built from: outputs, the conservation ledger (01, 23), MSI-X and alerts (10 R179, 22 R402), records on their way to the Logbook (19), the error classes (23 R413), stall states (11), DMA tags (10), Yard cells (15), DRBG draws (17). -/

namespace Sys2Proof.Machine

/-- Run a change of the device, leaving the queue of waiting commands alone. -/
def onDev (f : Dev → Dev) (s : State) : Host.Outcome State Fault Refusal := .next { s with toDev := f s.toDev }

/-- Put one output on the device's interfaces, newest first. -/
def emit (d : Dev) (o : Out) : Dev := { d with out := o :: d.out }

/-! ### Conservation ledger: 01 R13, R14; 23 R407, R408 -/

def Pool.issue (p : Pool) (h n : Nat) : Pool :=
  let held := tset p.held h (tgetD p.held h 0 + n)
  { issued := p.issued + BitVec.ofNat 64 n, retired := p.retired, held, peak := max p.peak (heldSum held) }

/-- Retire `n` units of holder `h`, never more than it holds. -/
def Pool.retire (p : Pool) (h n : Nat) : Pool :=
  let k := min n (tgetD p.held h 0)
  { p with retired := p.retired + BitVec.ofNat 64 k, held := tset p.held h (tgetD p.held h 0 - k) }

/-- Pass units between holders: neither an issue nor a retirement (10 R452). -/
def Pool.move (p : Pool) (h h' n : Nat) : Pool :=
  let k := min n (tgetD p.held h 0)
  let t := tset p.held h (tgetD p.held h 0 - k)
  { p with held := tset t h' (tgetD t h' 0 + k) }

def Pool.retireAll (p : Pool) : Pool := { p with retired := p.retired + BitVec.ofNat 64 (heldSum p.held), held := [] }

def onPool (d : Dev) (p : Nat) (f : Pool → Pool) : Dev :=
  { d with ldg := { d.ldg with pools := tset d.ldg.pools p (f (poolOf d p)) } }

def ldgIssue (d : Dev) (p h n : Nat) : Dev := onPool d p (·.issue h n)
def ldgRetire (d : Dev) (p h n : Nat) : Dev := onPool d p (·.retire h n)
def ldgMove (d : Dev) (p h h' n : Nat) : Dev := onPool d p (·.move h h' n)
/-- Retire everything one holder has in a pool. -/
def ldgDrain (d : Dev) (p h : Nat) : Dev := ldgRetire d p h (heldBy d p h)

/-- The sample of 23 R410. -/
def Pool.sample (p : Pool) : PoolSample :=
  { issued := p.issued, retired := p.retired, held := heldSum p.held, heldDev := heldDev p.held, peak := p.peak }
def poolIdx : List Nat := [0, 1, 2, 3, 4, 5]
def takeSample (d : Dev) : Dev :=
  { d with ldg := { d.ldg with sample := poolIdx.map fun p => (p, (poolOf d p).sample) } }
/-- 01 R15: ISSUED − RETIRED = HELD. -/
def Pool.balanced (p : Pool) : Bool := p.issued - p.retired == BitVec.ofNat 64 (heldSum p.held)
def failedPools (d : Dev) : List Nat := poolIdx.filter fun p => !(poolOf d p).balanced

/-! ### MSI-X, alerts, internal interrupts -/

/-- 10 R179, R181: is the vector's message blocked. -/
def blocked (d : Dev) (f : Func) (v : Nat) : Bool :=
  let c := cfgOf d f
  !c.msixEnable || !c.busMaster || c.funcMask || c.vecMask.getLsbD v || d.hif.d3hot

def setCfg (d : Dev) (f : Func) (c : FuncCfg) : Dev :=
  { d with hif := { d.hif with cfg := tset d.hif.cfg (funcIdx f) c } }

/-- What an error logs: its bits of the uncorrectable and of the correctable AER status, of Device Status and of Status. PRESUMED the standard's places (log 32). -/
def aerBits : Aer → Nat × Nat × Nat × Nat
  | .correctable .receiver => (0, 0x0001, 1, 0) | .correctable .badTlp => (0, 0x0040, 1, 0) | .correctable .badDllp => (0, 0x0080, 1, 0)
  | .correctable .replayRollover => (0, 0x0100, 1, 0) | .correctable .replayTimer => (0, 0x1000, 1, 0)
  | .advisory .poisonedWrite => (0x1000, 0x2000, 1, 0x8000) | .advisory .unexpectedCompletion => (0x10000, 0x2000, 1, 0)
  | .nonFatal (some .poisoned) => (0x1000, 0, 2, 0x8000) | .nonFatal (some .unsupported) => (0, 0, 2, 0x2000)
  | .nonFatal (some .aborted) => (0, 0, 2, 0x1000) | .nonFatal none => (0x4000, 0, 2, 0)
  | .errFatal .malformed => (0x40000, 0, 4, 0) | .errFatal .overflow => (0x20000, 0, 4, 0)
  | .errFatal .flowControl => (0x2000, 0, 4, 0) | .errFatal .dataLink => (0x10, 0, 4, 0)
  | .correctedInternal => (0, 0x4000, 1, 0)
  | .uncorrectableInternal => (0x400000, 0, 4, 0)
  | .unsupportedRequest => (0x100000, 0, 10, 0)
  | .completerAbort => (0x8000, 0, 2, 0x0800)
/-- Number of the lowest bit set. -/
def lowBit (n : Nat) : Nat := ((List.range 32).find? fun i => n.testBit i).getD 0
def aerLog (c : FuncCfg) (a : Aer) : FuncCfg :=
  let (u, k, s, t) := aerBits a
  { c with aerUnc := c.aerUnc ||| BitVec.ofNat 32 u, aerCor := c.aerCor ||| BitVec.ofNat 32 k, devStatus := c.devStatus ||| BitVec.ofNat 4 s,
           status := c.status ||| BitVec.ofNat 16 t, aerFirst := if u ≠ 0 ∧ c.aerUnc = 0 then BitVec.ofNat 5 (lowBit u) else c.aerFirst }
/-- 10 R182: an error is logged in the AER registers of a function and reported (log 32). -/
def aerReport (d : Dev) (f : Func) (a : Aer) : Dev := emit (setCfg d f (aerLog (cfgOf d f) a)) (.aer f a)

/-- 10 R179: send the message, or set the PBA bit while it is blocked. -/
def signal (d : Dev) (f : Func) (v : Nat) : Dev :=
  if blocked d f v then setCfg d f { cfgOf d f with pba := (cfgOf d f).pba ||| BitVec.ofNat 16 (2 ^ v) }
  else emit d (.msix f v)

/-- 10 R179: once the block of a vector is lifted its pending message is sent once. -/
def unblock (d : Dev) (f : Func) (v : Nat) : Dev :=
  if (cfgOf d f).pba.getLsbD v && !blocked d f v then
    emit (setCfg d f { cfgOf d f with pba := (cfgOf d f).pba &&& ~~~BitVec.ofNat 16 (2 ^ v) }) (.msix f v)
  else d
def unblockAll (d : Dev) (f : Func) : Dev := (List.range 16).foldl (fun d v => unblock d f v) d

/-- 22 R402: set an alert bit; in I3C mode an enabled bit that becomes set sends one IBI. -/
def alert (d : Dev) (b : Nat) : Dev :=
  let fresh := !d.mgt.alert.getLsbD b
  let d := { d with mgt := { d.mgt with alert := d.mgt.alert ||| BitVec.ofNat 5 (2 ^ b) } }
  if fresh && d.mgt.enabled && d.mgt.i3c && d.mgt.ibiEn && d.mgt.alertEn.getLsbD b then emit d (.ibi (d.mgt.alert.setWidth 8)) else d

/-- 06 R100: an interrupt to the command processors of one world, by source. -/
def raiseSecure (d : Dev) (src : Nat) : Dev :=
  emit { d with sec := { d.sec with irqSecure := d.sec.irqSecure ||| 2 ^ src } } (.secureIrq src)
def raiseNormal (d : Dev) (src : Nat) : Dev :=
  emit { d with sec := { d.sec with irqNormal := d.sec.irqNormal ||| 2 ^ src } } (.normalIrq src)

/-- Sources of internal interrupts besides the peripherals of 06 SEC.OWN: a trap (14 R265), an event on a device queue (15 R280), a firewall violation (06 R109), the watchdog's warning (06 R114). The numbers are the model's (log 21). -/
def irqTrap : Nat := 32
def irqYard : Nat := 33
def irqViolation : Nat := 34
def irqWatchdog : Nat := 35

/-! ### Records -/

def Record.crit (r : Record) : Bool := r.rtype.getLsbD 15

/-- 19 R350: a critical record goes ahead of the non-critical ones that reached the writer in the same fabric cycle. -/
def queueRec (now : Nat) (r : Record) : List Record → List Record
  | [] => [r]
  | x :: l => if x.reached = now && !x.crit && r.crit then r :: x :: l else x :: queueRec now r l

/-- 19 R350, R454: a record reaches the writer, or waits in SRAM (at most 32) until the Logbook opens. -/
def logRec (d : Dev) (r : Record) : Dev :=
  if d.evr.isOpen then { d with evr := { d.evr with queue := queueRec d.now { r with reached := d.now } d.evr.queue } }
  else if d.evr.early.length < 32 then { d with evr := { d.evr with early := d.evr.early ++ [{ r with after := .nothing }] } }
  else if r.crit then { d with evr := { d.evr with cntCritRefused := satInc d.evr.cntCritRefused } }
  else { d with evr := { d.evr with cntRefused := satInc d.evr.cntRefused } }

/-- Device record: ATTR 0x7E (19 R348). -/
def devRec (t : Half) (sub : Half) (payload : Bytes) (after : After := .nothing) : Record :=
  { rtype := t, attr := 0x7E, payload := b2 sub ++ payload, after }
/-- 19 R348, R456: EVENT. -/
def recEvent (px : String) (sub : Half) (fieldBytes : Bytes) : Record := devRec 0x1004 sub (pfx px ++ fieldBytes.take 32)
/-- 19 R455: CRIT_EVENT. -/
def recCrit (px : String) (sub : Half) (regs : List Word) : Record := devRec 0x900A sub (pfx px ++ (regs.flatMap b4).take 64)
/-- 19 R348: ERROR. -/
def recError (sub : Half) (cls : Byte) (stallNo : Byte) (reg : Word) : Record := devRec 0x1003 sub (cls :: stallNo :: b4 reg)
/-- 19 R348: CONFIG. -/
def recConfig (sub : Half) (regs : List Word) : Record := devRec 0x9009 sub ((regs.flatMap b4).take 64)
/-- 19 R348, 23 R412: LEDGER for one pool, or 0xFF with a triple for each. -/
def triple (p : Pool) : Bytes := b8 p.issued ++ b8 p.retired ++ leBytes 8 (heldSum p.held)
def recLedgerPool (d : Dev) (sub : Half) (p : Nat) (after : After := .nothing) : Record :=
  devRec 0x9002 sub (BitVec.ofNat 8 p :: triple (poolOf d p)) after
def recLedgerAll (d : Dev) (sub : Half) : Record := devRec 0x9002 sub (0xFF :: poolIdx.flatMap fun p => triple (poolOf d p))

/-- 03 R40: the fabric, the HIF, the classifier and the Yard run in RUN and in DOZE. -/
def fabricOn (d : Dev) : Bool := d.glb.power == .run || d.glb.power == .doze

/-! ### Waking: 03 R42 -/

def wakes (p : Power) (c : WakeCause) : Bool :=
  match p with
  | .doze => (match c with | .linkLeft => false | _ => true)
  | .standby => (match c with | .barAccess => false | .krovloFrame => false | .timer => false | _ => true)
  | _ => false
/-- 10 R181: PM_PME in L1, WAKE_N in L2; PME_Status shows the event whether or not PME_En lets it out. -/
def pme (d : Dev) : Dev :=
  if !d.hif.d3hot then d else
  let d := { d with hif := { d.hif with pmeStatus := true } }
  if !d.hif.pmeEn then d
  else match d.hif.link with
    | .l1 => emit d .pmPme
    | .l2 => { d with glb := { d.glb with wakeN := true } }
    | _ => d
/-- The first wake event starts the wake; a link that has left L1 or L2 sends no PM_PME (log 74). -/
def wake (d : Dev) (c : WakeCause) : Dev :=
  if !wakes d.glb.power c then d else
  let d := match c with | .linkLeft => { d with hif := { d.hif with link := .l0 } } | _ => d
  if d.glb.waking then d else pme { d with glb := { d.glb with waking := true } }

/-- 03 R42: a request during DOZE or STANDBY wakes the device and is held. -/
def sleeping (d : Dev) : Bool := d.glb.power == .doze || d.glb.power == .standby
def holdAccess (d : Dev) (a : HeldAccess) : Dev :=
  let d := wake d (if d.glb.power == .doze then .barAccess else .linkLeft)
  { d with glb := { d.glb with heldAccess := d.glb.heldAccess ++ [a] } }

/-! ### Error classes: 23 R413 -/

/-- Class C. -/
def errC (d : Dev) : Dev := signal { d with glb := { d.glb with errC := satInc d.glb.errC } } .pf 3

/-- Has a Class F error been raised or has a pause stopped service (23 R414). -/
def paused (d : Dev) : Bool := d.glb.errD.paused || d.glb.fatal.isSome

/-- Class D with its record, naming the stall 0xFF, 0x7F or n. `open_` keeps the pause until the recovery is reported; `aer` sends the Corrected Internal Error of 10 R182. -/
def errD (d : Dev) (block : Nat) (sub : Nat) (code : Half) (stallNo : Byte := 0xFF) (open_ : Bool := false) (aer : Bool := true) (rec : Option (Half × Word) := none) : Dev :=
  let e := d.glb.errD
  let e := if e.valid then { e with multi := true }
           else { e with valid := true, block := BitVec.ofNat 4 block, sub := BitVec.ofNat 8 sub, code := code }
  let e := if open_ then { e with paused := true, openCauses := e.openCauses ++ [(block, sub)], since := if e.paused then e.since else d.now } else e
  let d := { d with glb := { d.glb with errD := e, errDCount := satInc d.glb.errDCount } }
  let d := alert (signal d .pf 4) 3
  let d := if aer then aerReport d .pf .correctedInternal else d
  let r := rec.getD (code, rErrD d)
  logRec d (recError r.1 0x44 stallNo r.2)

/-- The recovery of one cause has finished (23 R414). -/
def closeD (d : Dev) (block sub : Nat) : Dev :=
  let o := d.glb.errD.openCauses.erase (block, sub)
  { d with glb := { d.glb with errD := { d.glb.errD with openCauses := o, paused := !o.isEmpty } } }

/-- Class F: the record, the AER report while the link is up, and the secure reset to come (23 R413, R415, R416). -/
def errF (d : Dev) (code : Half) (src addr : Word) : Dev :=
  let d := if d.hif.up then aerReport d .pf .uncorrectableInternal else d
  let d := logRec d (devRec 0x9008 code (b4 src ++ b4 addr) .fatal)
  if d.glb.boot == .warm && d.glb.raised.getLsbD 2 then { d with glb := { d.glb with resetCause := d.glb.resetCause ||| 0x44 } }
  else match d.glb.fatal with
    | some f => { d with glb := { d.glb with fatal := some { f with waiting := f.waiting + 1 } } }
    | none => { d with glb := { d.glb with fatal := some { since := d.now, waiting := 1 } } }

/-! ### Stalls -/

def setStall (d : Dev) (n : Nat) (s : Stall) : Dev := { d with stl := { d.stl with stalls := tset d.stl.stalls n s } }
def modStall (d : Dev) (n : Nat) (f : Stall → Stall) : Dev := setStall d n (f (stall d n))

/-- 11 R190: GEN wraps from 0xFFFF_FFFF to 1. -/
def nextGen (g : Word) : Word := if g = 0xFFFFFFFF then 1 else g + 1

/-- 11 R196: the board header of stall `n`; a DISABLED stall has no shares (R188). -/
def boardHeader (d : Dev) (n : Nat) : Bytes :=
  let s := stall d n
  let on := if enabled s then 1 else 0
  [0x01, 0x5B, BitVec.ofNat 8 n, BitVec.ofNat 8 (stallCode s.st)] ++ b4 s.gen ++ b4 s.resets ++ b2 s.lastStatus ++ [s.lastCause, s.lastMode] ++
  b4 s.dbDropped ++ leBytes 4 (on * (24576 / partN d)) ++ leBytes 2 (on * min 4096 (16384 / partN d)) ++ leBytes 2 (on * (4096 / partN d)) ++
  leBytes 4 (on * (8192 / partN d)) ++ leBytes 2 (partN d) ++ zeros 30
def boardSize : Nat := 4096
/-- R196: the device rewrites the header. -/
def writeHeader (d : Dev) (n : Nat) : Dev := { d with stl := { d.stl with boards := memWriteBytes d.stl.boards (boardSize * n) (boardHeader d n) } }

/-- 11 R190, R196, 10 R178, 22 MGT.ALERT: a change of STATE with its generation, its header and its signals. -/
def toState (d : Dev) (n : Nat) (st : StallSt) : Dev :=
  if (stall d n).st = st then d
  else alert (signal (writeHeader (modStall d n fun s => { s with st := st, gen := nextGen s.gen }) n) .pf 2) 0

/-- 11 R203: ACTIVE or PAUSED becomes FAULTED. -/
def faultStall (d : Dev) (n : Nat) : Dev :=
  match (stall d n).st with
  | .active | .paused => toState d n .faulted
  | _ => d

/-- 00 R449: events of the last second that ends now. DESIGN CHOICE (log 76): one that lies exactly 1 s back no longer falls within it. -/
def within (now : Nat) (l : List Nat) : List Nat := l.filter fun t => decide (now < t + secondCycles)

/-- Class T error of stall `n` (11 R203, 23 R413): registers, vectors, at most one record a second, FAULTED at the 16th. -/
def errT (d : Dev) (n : Nat) (code : Half) : Dev :=
  let s := stall d n
  let recent := within d.now s.classT ++ [d.now]
  let due := match s.lastErrRec with | none => true | some t => decide (t + secondCycles ≤ d.now)
  let d := modStall d n fun s => { s with faultCode := code, faultCount := satInc s.faultCount, classT := recent,
                                          lastErrRec := if due then some d.now else s.lastErrRec }
  let d := signal (signal d (.vf (Fin.ofNat 64 n)) 3) .pf 3
  let d := if due then logRec d (recError code 0x54 (BitVec.ofNat 8 n) (rStlFault d n)) else d
  if 16 ≤ recent.length then faultStall d n else d

/-- Class T for a stall's traffic, Class C for the PF's own (10 R182, 11 R453). -/
def errIssuer (d : Dev) (i : Issuer) (code : Half) : Dev :=
  match i with
  | .stall n => errT d n.val code
  | _ => errC d

def setRing (d : Dev) (r : RingId) (x : Ring) : Dev :=
  match r with
  | .stall n => modStall d n.val fun s => { s with ring := x }
  | .pf => { d with stl := { d.stl with pfRing := x } }

/-! ### DMA tags: pool 4 -/

def funcHolder : Func → Nat | .vf n => n.val | .pf => H.pf
def tagFree (d : Dev) (t : Nat) : Bool := (tget d.hif.tags t).isNone

/-- Issue a DMA read of `len` bytes at `addr`: a free tag, its ledger unit and the request on the link. None while no tag is free (23 R409). -/
def dmaIssue (d : Dev) (f : Func) (use : DmaUse) (addr len : Nat) : Option Dev :=
  (scan (tagFree d) 256 256 (Config.freePick d.rng)).map fun t =>
    let d := { d with rng := d.rng + 1, hif := { d.hif with tags := tset d.hif.tags t { func := f, use } } }
    emit (ldgIssue d 4 (funcHolder f) 1) (.dmaRead t f addr len)

/-- A completed read gives its tag back. -/
def dmaRetire (d : Dev) (t : Nat) (e : DmaTag) : Dev :=
  ldgRetire { d with hif := { d.hif with tags := tdel d.hif.tags t } } 4 (if e.fenced then H.fenced else funcHolder e.func) 1

/-- 10 R452: the unit of an outstanding tag passes to the device. -/
def fenceOne (d : Dev) (t : Nat) (e : DmaTag) : Dev :=
  if e.fenced then d
  else ldgMove { d with hif := { d.hif with tags := tset d.hif.tags t { e with fenced := true } } } 4 (funcHolder e.func) H.fenced 1
def fenceWhere (d : Dev) (p : DmaTag → Bool) : Dev :=
  d.hif.tags.foldl (fun d te => if p te.2 then fenceOne d te.1 te.2 else d) d
/-- 10 R452: the link goes down, so every fenced tag is retired. -/
def dropFenced (d : Dev) : Dev :=
  d.hif.tags.foldl (fun d te => if te.2.fenced then dmaRetire d te.1 te.2 else d) d

/-- 03 R50. -/
def islandCode : Island → Nat
  | .pke0 => 1 | .pke1 => 2 | .pke2 => 3 | .pke3 => 4 | .sym => 5 | .aon => 6 | .pcie => 7 | .krovlo => 8
/-- 01 R10: a word of this island has failed its code: its crossing takes no further word until the watchdog has acted. -/
def crossStalled (d : Dev) (i : Island) : Bool := (tget d.glb.xwdStalled (islandCode i - 1)).isSome
def pkeIsland (e : Fin 4) : Island := match e with | 0 => .pke0 | 1 => .pke1 | 2 => .pke2 | 3 => .pke3
/-- What an island's word does, where its crossing lets it in. -/
def across (d : Dev) (i : Island) (f : Dev → Dev) : Dev := if crossStalled d i then d else f d

/-- May the function issue DMA (10 R180-R182, R185, 23 R414 leaves writes of dispatched commands). -/
def dmaAllowed (d : Dev) (f : Func) : Bool :=
  (cfgOf d f).busMaster && !d.hif.d3hot && !d.hif.dmaHeld && d.hif.up && !crossStalled d .pcie &&
  !(match f with | .vf n => d.hif.flrBusy.getLsbD n.val | .pf => d.hif.pfFlrBusy)

/-- 11 R204: the pages a write touches. -/
def pagesOf (addr len : Nat) : List Nat := if len = 0 then [] else (List.range ((addr + len - 1) / 4096 + 1 - addr / 4096)).map (· + addr / 4096)

/-- 11 R204: one page bit of the write log of stall `n`: DMA of the PF, with a tag of the PF (10 R180). -/
def wlogPage (fail : Bool) (d : Dev) (n page : Nat) : Dev :=
  let w := (stall d n).wlog
  if fail || !dmaAllowed d .pf || decide (w.pages.toNat ≤ page) then
    errC (modStall d n fun s => { s with wlog := { s.wlog with ovf := true } })
  else emit (ldgRetire (ldgIssue d 4 H.pf 1) 4 H.pf 1) (.hostSetBit ((if w.bitmapB then w.b else w.a).toNat + page / 8) (page % 8))

/-- A host write on behalf of a function: one posted transaction, its tag issued and retired, and the write log of its stall. -/
def hostWrite (d : Dev) (f : Func) (addr : Nat) (bytes : Bytes) (bitmapFail : Bool := false) : Dev :=
  if bytes.isEmpty then d else
  let d := ldgRetire (ldgIssue d 4 (funcHolder f) 1) 4 (funcHolder f) 1
  let d := emit d (.hostWrite f addr bytes)
  match f with
  | .pf => d
  | .vf n => if (stall d n.val).wlog.en then (pagesOf addr bytes.length).foldl (fun d p => wlogPage bitmapFail d n.val p) d else d

/-! ### Yard cells: pool 1 -/

/-- 15 R271, 11 R193: cells an issuer's allotment can still supply, recovery cells apart. -/
def allotment (d : Dev) (h : Nat) : Nat :=
  if h < 64 then 24576 / partN d
  else if h = H.pf then 3072 else if h = H.krovlo then 3072 else if h = H.mgt then 512 else if h = H.internal then 1024 else 0
def recoveryOf (d : Dev) (h : Nat) : Nat := if h < 64 then (stall d h).recovery else 0
def cellRoom (d : Dev) (h : Nat) : Nat := allotment d h - (heldBy d 1 h - recoveryOf d h)

/-- 15 R271, R277: allocatable cells of the free list (recovery cells are taken by no one else). -/
def cellFree (y : Yrd) (i : Nat) : Bool := (tget y.tags i).isNone && !y.zeroing.contains i
def recoveryBase : Nat := 0x7E00

/-- Take `n` free cells under an owner tag; which ones is free (log 8). -/
def pickCells (y : Yrd) (rng tag : Nat) : Nat → Option (Yrd × Nat × List Nat)
  | 0 => some (y, rng, [])
  | n + 1 =>
    match scan (cellFree y) recoveryBase recoveryBase (Config.freePick rng) with
    | none => none
    | some c => (pickCells { y with tags := tset y.tags c tag } (rng + 1) tag n).map fun r => (r.1, r.2.1, c :: r.2.2)

/-- Claim `n` cells for an issuer, or none where its allotment has no room (15 R281). -/
def claimCells (d : Dev) (i : Issuer) (n : Nat) : Option (Dev × List Nat) :=
  if cellRoom d (holderOf i) < n then none
  else (pickCells d.yrd d.rng (tagOf i) n).map fun r =>
    (ldgIssue { d with yrd := r.1, rng := r.2.1 } 1 (holderOf i) n, r.2.2)

/-- 15 R277: freed cells lose their data, are retired and wait to re-enter the free list. -/
def freeCells (d : Dev) (h : Nat) (l : List Nat) : Dev :=
  ldgRetire { d with yrd := { d.yrd with tags := l.foldl tdel d.yrd.tags, zeroing := d.yrd.zeroing ++ l } } 1 h l.length

def cellsFor (bytes : Nat) : Nat := (bytes + 63) / 64
/-- 15 R273, R274: a packet's bytes over its chain. -/
def chain : List Nat → Bytes → List QCell
  | [], _ => []
  | c :: l, b => { idx := c, lo := b.take 32, hi := (b.drop 32).take 32, last := l.isEmpty } :: chain l (b.drop 64)

/-- 15 R283: recovery cells of stall `n` in use; two staged entries to a cell. -/
def setRecovery (d : Dev) (n k : Nat) : Dev :=
  let old := (stall d n).recovery
  let base := recoveryBase + 8 * n
  let t := (List.range 8).foldl (fun t j => if j < k then tset t (base + j) n else tdel t (base + j)) d.yrd.tags
  let d := modStall { d with yrd := { d.yrd with tags := t } } n fun s => { s with recovery := k }
  if old ≤ k then ldgIssue d 1 n (k - old) else ldgRetire d 1 n (old - k)

/-! ### DRBG: 17 R316 -/

def drbgReady (d : Dev) : Bool := d.sym.rngInst && !d.sym.rngFailed
/-- One generate request of `n` bytes: a free value. -/
def draw (d : Dev) (n : Nat) : Bytes × Dev :=
  (Config.fit n (Config.freeBytes d.rng n), { d with rng := d.rng + 1, sym := { d.sym with generates := d.sym.generates + 1 } })

/-! ### Operating time and the stamp: 19 R345, R346 -/

/-- 32.768 kHz cycles of operating time. -/
def opTime (d : Dev) : Nat :=
  d.glb.opBase + match d.glb.opFrom with | none => 0 | some t => (d.now - t) * 32768 / secondCycles
def stampOf (pcc t : Nat) : Bytes :=
  leBytes 4 pcc ++ leBytes 4 (t / (32768 * 3600)) ++ leBytes 2 (t / 32768 % 3600) ++ leBytes 2 (t % 32768 * 2)
def stamp (d : Dev) : Bytes := stampOf d.glb.pcc.toNat (opTime d)

/-! ### Registers of 04 used by many rules -/

/-- 04 R55: does the life-cycle state bar key commands (LOCKED). -/
def lcLocked (d : Dev) : Bool := d.lc.state == 0xEE
/-- 07 R121, 12 ST_LOCKED: a root is loaded. -/
def rootLoaded (d : Dev) : Bool := d.key.root != 0

end Sys2Proof.Machine
end

