-- ==== Sys2Proof/Machine/Link.lean ====
section
/-! DEFINITION. Frames on the Krovlo ports (20): body lengths, tokens and the Krovlo allotment, routing. -/

namespace Sys2Proof.Machine

def frameType : FBody → Byte
  | .data .. => 0x01 | .ack .. => 0x02 | .status .. => 0x03 | .enumerate .. => 0x04 | .enumBack .. => 0x05 | .roster .. => 0x06
  | .replica .. => 0x07 | .replAck .. => 0x08 | .cosignReq .. => 0x09 | .cosign .. => 0x0A | .config .. => 0x0B
  | .configReq => 0x0B | .replDrop .. => 0x0C | .result .. => 0x0D

/-- LEN of 20 R365. The lengths of the enumeration, COSIGN and CONFIG bodies are the model's, from the fields their rules name (log 14). -/
def bodyLen : FBody → Nat
  | .data r => r.length
  | .ack .. => 8
  | .status .. => 182
  | .enumerate .. => 17
  | .enumBack .. => 17
  | .roster _ _ _ l => 18 + 4 * l.length
  | .replica b => 43 + b.cipher.length
  | .replAck _ => 4
  | .cosignReq g => g.length
  | .cosign _ s => 16 + s.length
  | .config _ l => 8 + 16 * l.length
  | .configReq => 0
  | .replDrop _ => 4
  | .result b => 16 + (if b.first then 32 else 0) + b.result.length

/-! ### A frame on the wire: 20 R365, R363; multi-byte fields little-endian (00 R8) -/

/-- R380: a part of a RESULT run. -/
def resultBytes (b : ResultBody) : Bytes :=
  b2 0x5201 ++ [BitVec.ofNat 8 (b.first.toNat + 2 * b.more.toNat), 0] ++ b4 b.reqSeq ++ leBytes 4 b.offset ++ leBytes 4 b.total ++
  (if b.first then b.completion else []) ++ b.result
/-- The body. R365, R374 and R380 lay out ACK, STATUS and RESULT; in the others the fields stand in the order in which their rules name them (log 14). -/
def bodyBytes : FBody → Bytes
  | .data r => r
  | .ack a n _ => b4 a ++ leBytes 2 n ++ zeros 2
  | .status b => b.devId ++ [b.lcState, b.role] ++ b4 b.fwVersion ++ b8 b.epoch ++ b.admDigest ++ b8 b.time ++ b.attestPub
  | .enumerate h n => h ++ leBytes 1 n
  | .enumBack h n => h ++ leBytes 1 n
  | .roster h u c l => h ++ leBytes 1 u ++ leBytes 1 c.toNat ++ l.flatMap (leBytes 4)
  | .replica b => [b.type] ++ b2 b.usage ++ leBytes 2 b.length ++ [b.owner, b.mode] ++ b4 b.srcHandle ++ b.nonce ++ b.cipher
  | .replAck h => b4 h
  | .cosignReq g => g
  | .cosign i s => i ++ s
  | .config e l => b8 e ++ l.flatten
  | .configReq => []
  | .replDrop h => b4 h
  | .result b => resultBytes b
/-- [7:0] of FLAGS: RETX, and NAK in an ACK only. -/
def frameFlags (f : Frame) : Byte :=
  BitVec.ofNat 8 (f.hdr.retx.toNat + 2 * (match f.body with | .ack _ _ nak => nak.toNat | _ => 0))
/-- Header bytes [0:11], over which HCRC runs; SEQ is 0 in ACK and STATUS. -/
def frameHead (f : Frame) : Bytes :=
  [frameType f.body, f.hdr.origin, f.hdr.dest, frameFlags f] ++ leBytes 2 (bodyLen f.body) ++ [BitVec.ofNat 8 f.hdr.hops, 0] ++
  b4 (match f.body with | .ack .. => 0 | .status .. => 0 | _ => f.hdr.seq)
def frameBytes (f : Frame) : Bytes :=
  frameHead f ++ b4 (crc32c (frameHead f)) ++ bodyBytes f.body ++ b4 (crc32c (bodyBytes f.body))

/-- R363: the MARK payloads. -/
def markOf (lane : Nat) : Bytes := leBytes 8 (if lane = 0 then 0xA3F15C0E96D27B48 else 0x5E2BC9A70D64F183)
/-- `n` payloads of 8 bytes, padded with zero bytes to a whole block time. -/
def groups8 : Nat → Bytes → List Bytes
  | 0, _ => []
  | n + 1, b => (b ++ zeros 8).take 8 :: groups8 n (b.drop 8)
/-- Every other group, from the first. -/
def evens : List Bytes → List Bytes
  | [] => []
  | [g] => [g]
  | g :: _ :: l => g :: evens l
/-- R363, R365: the data payloads of a frame by lane, behind its mark: on two lanes the mark on both, and the k-th group on lane k mod 2. -/
def laneBlocks (oneLane : Bool) (f : Frame) : List (List Bytes) :=
  let b := frameBytes f
  if oneLane then [markOf 0 :: groups8 ((b.length + 7) / 8) b]
  else
    let g := groups8 (2 * ((b.length + 15) / 16)) b
    [markOf 0 :: evens g, markOf 1 :: evens (g.drop 1)]

/-- R362: the payload of a TRAIN block. -/
def trainBlock (lane : Nat) (p : Port) (ack : Bool) : Bytes :=
  [0x4B, BitVec.ofNat 8 lane, match p with | .up => 0 | .dn => 1, if ack then 0xAC else 0, 0, 0, 0, 0]
/-- R364: a port that trains sends TRAIN on each transmit lane. -/
def sendTrain (d : Dev) (p : Port) (ack : Bool) : Dev := emit d (.train p [trainBlock 0 p ack, trainBlock 1 p ack])

/-- 20 R369: unsequenced frames. -/
def sequenced : FBody → Bool
  | .ack .. => false
  | .status .. => false
  | _ => true

def setPort (d : Dev) (p : Port) (x : PortSt) : Dev :=
  match p with
  | .up => { d with chn := { d.chn with up := x } }
  | .dn => { d with chn := { d.chn with dn := x } }
def opposite : Port → Port | .up => .dn | .dn => .up

/-- A frame leaves by a port. -/
def sendOut (d : Dev) (p : Port) (f : Frame) : Dev := emit d (.frame p f (laneBlocks (portOf d p).degraded f))
/-- A port that is up and whose crossing takes words (01 R10). -/
def hears (d : Dev) (p : Port) : Bool := (portOf d p).up && !crossStalled d .krovlo

/-- 20 R370: LEN a frame out of this port may have. Only the unit's own port is known to it (log 14). -/
def pathLimit (d : Dev) (p : Port) : Nat := if (portOf d p).degraded then 900 else 1516

/-- 20 R373: a port that is down holds the frames it is given, for CHN.LINK_HOLD. -/
def holdPort (d : Dev) (p : Port) : Dev :=
  let x := portOf d p
  if x.up || x.holding then d else setPort d p { x with holding := true, downAt := d.now }
/-- 20 R372: a sequenced frame takes a token when it is enqueued, or waits for one; its cells come from the Krovlo allotment. -/
def enqueue (d : Dev) (p : Port) (f : Frame) (rid : Option Nat := none) : Dev :=
  let d := holdPort d p
  let (d, cells) := match claimCells d (.krovlo 0) (cellsFor (20 + bodyLen f.body)) with
    | some (d, c) => (d, c)
    | none => (d, [])
  if tokensFree d p = 0 then
    setPort d p { portOf d p with waiting := (portOf d p).waiting ++ [{ frame := f, cells, rid }] }
  else
    let d := ldgIssue d 3 (portHolder p) 1
    let x := portOf d p
    setPort d p { x with queue := x.queue ++ [{ frame := { f with hdr := { f.hdr with seq := x.txSeq, retx := false } }, cells, rid }], txSeq := x.txSeq + 1 }

/-- A frame that waited takes the token just retired (20 R372). -/
def drainWaiting (d : Dev) (p : Port) : Dev :=
  match (portOf d p).waiting with
  | [] => d
  | w :: rest =>
    if tokensFree d p = 0 then d else
    let d := ldgIssue (setPort d p { portOf d p with waiting := rest }) 3 (portHolder p) 1
    let x := portOf d p
    setPort d p { x with queue := x.queue ++ [{ w with frame := { w.frame with hdr := { w.frame.hdr with seq := x.txSeq, retx := false } } }], txSeq := x.txSeq + 1 }

/-- Token and cells of one frame are given back (20 R372, R373). -/
def retireFrame (d : Dev) (p : Port) (t : TxFrame) : Dev :=
  drainWaiting (ldgRetire (freeCells d H.krovlo t.cells) 3 (portHolder p) 1) p

/-- 20 R371: the port of a unicast frame. A ring that a port of this unit has opened is left by the other one (R373). -/
def routeTo (d : Dev) (dest : Nat) : Port :=
  let c := d.chn
  if c.line then
    if c.upstream then (if c.addr < dest then .up else .dn)
    else if dest < c.split && c.addr < dest then .dn else .up
  else if c.dn.cut then .up
  else if c.up.cut then .dn
  else
    let u := max c.units 1
    if (dest + u - c.addr % u) % u ≤ (c.addr + u - dest % u) % u then .dn else .up

def linkHdr (d : Dev) (dest : Byte) : LinkHdr := { origin := if d.chn.addrValid then BitVec.ofNat 8 d.chn.addr else 0xFF, dest }

/-- 20 R370: enqueue a unicast frame of local origin, or none where it is longer than the path carries (ST_FRAME_LONG). -/
def unicast (d : Dev) (dest : Nat) (b : FBody) (rid : Option Nat := none) : Option Dev :=
  let p := routeTo d dest
  if pathLimit d p < bodyLen b then none
  else some (enqueue d p { hdr := linkHdr d (BitVec.ofNat 8 dest), body := b } rid)

/-- 20 R371: a broadcast leaves by DN, and on an open ring by both ports that lead to a unit (log 14). -/
def broadcastOn (d : Dev) (p : Port) : Bool := if d.chn.openRing then (portOf d p).up || (portOf d p).holding else p == .dn
def broadcast (d : Dev) (b : FBody) (rid : Option Nat := none) : Option Dev :=
  let f : Frame := { hdr := linkHdr d 0xFF, body := b }
  let l := [Port.dn, Port.up].filter (broadcastOn d)
  if l.any fun p => decide (pathLimit d p < bodyLen b) then none
  else some (l.foldl (fun d p => enqueue d p f rid) d)
def broadcastD (d : Dev) (b : FBody) (rid : Option Nat := none) : Dev := (broadcast d b rid).getD d

end Sys2Proof.Machine
end

