-- ==== Sys2Proof/Machine/Complete.lean ====
section
/-! DEFINITION. Ending a request (12 R215, R216, R229): the completion that waits for its ring, the answer of a management command (22 R400), the RESULT run of a remote one (20 R380). -/

namespace Sys2Proof.Machine

/-- RESULT_LEN of 12 R229. -/
def resultLen (status : Half) (result : Bytes) : Nat := if status == ST.ok || status == ST.verifyFail then result.length else 0

/-- 12 R229: the completion entry. -/
def compEntry (tag : Quad) (status : Half) (sqHead sqIndex : Nat) (phase : Bool) (resLen : Nat) (detail : Word) : Bytes :=
  let b := b8 tag ++ b2 status ++ leBytes 2 sqHead ++ leBytes 2 sqIndex ++ [if phase then 1 else 0, 0] ++ leBytes 4 resLen ++ b4 detail ++ zeros 4
  b ++ b4 (crc32c b)

/-- 12 R229, 14 R263: TAG of the completion; the inner one once the inner command header has passed its CRC (log 85). -/
def tagFor (q : Req) : Quad := if q.pass2 then quad q.bytes 24 else q.rawTag

/-- 14 R263: a result of an enveloped request is sealed under the envelope key. -/
def sealResult (d : Dev) (q : Req) (status : Half) (result : Bytes) : Half × Bytes × Dev :=
  match q.env with
  | none => (status, result, d)
  | some e =>
    if !q.pass2 then (status, result, d)
    else if !(status == ST.ok || status == ST.verifyFail) then (status, [], d)
    else if !drbgReady d then (ST.rngFail, [], d)
    else
      let (iv, d) := draw d 12
      (status, iv ++ Config.gcmCt e.key iv e.hdr result ++ Config.gcmTag e.key iv e.hdr result, d)

def setReq (d : Dev) (rid : Nat) (q : Req) : Dev := { d with reqs := tset d.reqs rid q }
def delReq (d : Dev) (rid : Nat) : Dev := { d with reqs := tdel d.reqs rid }

def cellIdx (l : List QCell) : List Nat := l.map (·.idx)

/-- 20 R380: the parts of a RESULT run. -/
def resultParts (seq : Word) (entry : Bytes) (total : Nat) (lim : Nat) : Nat → Nat → Bytes → List ResultBody
  | 0, _, _ => []
  | fuel + 1, off, res =>
    let room := lim - 16 - (if off = 0 then 32 else 0)
    let part := res.take room
    let rest := res.drop room
    { first := off == 0, more := !rest.isEmpty, reqSeq := seq, offset := off, total, completion := if off = 0 then entry else [], result := part } ::
      (if rest.isEmpty then [] else resultParts seq entry total lim fuel (off + part.length) rest)

/-- 22 R398: a device message of the port. -/
def devMsg (msg : Byte) (tag : Byte) (body : Bytes) : Bytes := [0x7E, 0x1D, 0x7C, msg ||| 0x80, tag, 0, 0, 0] ++ body

/-- Stage the completion of a ring request: in the result cells it claimed, in a cell of the allotment, or in a recovery cell (15 R283). -/
def stageComp (d : Dev) (rid : Nat) (q : Req) (c : Comp) : Dev :=
  let need := q.resCells.isEmpty
  match q.issuer, need with
  | .stall n, true =>
    match claimCells d q.issuer 1 with
    | some (d, l) => { setReq d rid { q with resCells := l } with comps := tset d.comps rid c }
    | none =>
      let staged := (d.comps.filter fun e => e.2.staged && match tget d.reqs e.1 with | some r => r.issuer == q.issuer | none => false).length
      let d := setRecovery d n.val (min 8 (staged / 2 + 1))
      { setReq d rid q with comps := tset d.comps rid { c with staged := true } }
  | .pf, true =>
    match claimCells d q.issuer 1 with
    | some (d, l) => { setReq d rid { q with resCells := l } with comps := tset d.comps rid c }
    | none => { setReq d rid q with comps := tset d.comps rid c }
  | _, _ => { setReq d rid q with comps := tset d.comps rid c }

/-- 08 R147: the completion of the command that consumed the quorum closes the session. -/
def closeConsumed (d : Dev) (rid : Nat) : Dev :=
  match d.crd.session with
  | some s => if s.consumedBy = some rid then { d with crd := { d.crd with session := none } } else d
  | none => d

/-- End request `rid` with a status and a result. Loose request cells are freed; what the issuer's transport needs is queued. -/
def finishOne (d : Dev) (rid : Nat) (status : Half) (result : Bytes := []) (detail : Word := 0) : Dev :=
  match tget d.reqs rid with
  | none => d
  | some q =>
    if (tget d.comps rid).isSome then d else
    let d := freeCells d (holderOf q.issuer) (cellIdx q.cells)
    let q := { q with cells := [], stage := .dispatched }
    let d := closeConsumed d rid
    let (status, result, d) := sealResult d q status result
    let tag := tagFor q
    let n := resultLen status result
    match q.issuer with
    | .secure => delReq (freeCells d H.internal q.resCells) rid
    | .mgt =>
      let d := delReq (freeCells d H.mgt q.resCells) rid
      -- 22 R404: a port in transit sends no reply
      if d.sec.hoGo && d.sec.hoPeriph == 22 then d else
      emit d (.mgtReply (devMsg 0x01 q.mgtTag (compEntry tag status 0 0 false n detail ++ result.take n)))
    | .krovlo o =>
      let d := delReq (freeCells d H.krovlo q.resCells) rid
      let e := compEntry tag status 0 0 false n detail
      (resultParts q.seq e n (pathLimit d (routeTo d o.val)) (result.length + 1) 0 (result.take n)).foldl
        (fun d b => (unicast d o.val (.result b)).getD d) d
    | _ =>
      if q.produced then delReq (freeCells d (holderOf q.issuer) q.resCells) rid else
      stageComp (setReq d rid q) rid q { status, tag, result := result.take n, detail }

/-- 13 R239: a NOP all of whose earlier commands have ended. -/
def nopReady (d : Dev) (q : Req) : Bool :=
  match q.stage with
  | .nopWait l => l.all fun r => (tget d.reqs r).isNone
  | _ => false

def wakeNops : Nat → Dev → Dev
  | 0, d => d
  | fuel + 1, d =>
    match d.reqs.find? fun e => nopReady d e.2 with
    | none => d
    | some e => wakeNops fuel (finishOne d e.1 ST.ok)

/-- End a request, and every NOP that waited for it. -/
def finish (d : Dev) (rid : Nat) (status : Half) (result : Bytes := []) (detail : Word := 0) : Dev :=
  let d := finishOne d rid status result detail
  wakeNops d.reqs.length d

end Sys2Proof.Machine
end

