-- ==== Sys2Proof/Machine/Operands.lean ====
section
/-! DEFINITION. The operand forms of the commands (12 R219-R225, 13 R233-R236, 07 R115-R119): headers, parameters, handles, the order of checks, the quorum gate, key slots. -/

namespace Sys2Proof.Machine

/-! ### Headers -/

/-- 12 R219: outer header. -/
def ohFormat (b : Bytes) : Half := half b 0
def ohFlags (b : Bytes) : Byte := byteAt b 2
def ohFragFirst (b : Bytes) : Bool := (ohFlags b).getLsbD 0
def ohFragMore (b : Bytes) : Bool := (ohFlags b).getLsbD 1
def ohEnvelope (b : Bytes) : Bool := (ohFlags b).getLsbD 2
def ohFence (b : Bytes) : Bool := (ohFlags b).getLsbD 3
def ohHops (b : Bytes) : Byte := byteAt b 3
def ohStall (b : Bytes) : Byte := byteAt b 4
def ohOwner (b : Bytes) : Byte := byteAt b 5
def ohOrigin (b : Bytes) : Byte := byteAt b 6
def ohLen (b : Bytes) : Nat := leAt b 8 4
def ohSeq (b : Bytes) : Word := word b 12

/-- 12 R220: command header at offset 16 of a request. -/
def chOpcode (b : Bytes) : Nat := leAt b 16 2
def chCmdLen (b : Bytes) : Nat := leAt b 20 4
def chTag (b : Bytes) : Quad := quad b 24
def chKey (b : Bytes) : Word := word b 32
def chOwner (b : Bytes) : Word := word b 36
def chParamLen (b : Bytes) : Nat := leAt b 40 4
def chCrc (b : Bytes) : Word := word b 44
/-- 12 R223: envelope header at offset 16. -/
def ehInnerLen (b : Bytes) : Nat := leAt b 20 4
def ehKey (b : Bytes) : Word := word b 24
def ehIv (b : Bytes) : Bytes := slice b 28 12

/-- The request in cells as a command processor reads it. -/
def cmdOf (rid : Nat) (q : Req) : Cmd :=
  { rid, issuer := q.issuer, opcode := chOpcode q.bytes, key := chKey q.bytes, owner := chOwner q.bytes,
    params := slice q.bytes 48 (chParamLen q.bytes), dataCap := q.dataCap, sealed := q.pass2, pols := q.pols }

/-- A row of the command reference: its request becomes a dispatched one. -/
def takeReq (d : Dev) (op : Nat) (r : Request) : Dev × Cmd :=
  ({ d with reqs := tset d.reqs d.nextRid { issuer := r.issuer, sqIndex := r.sqIndex, stage := .dispatched, rawTag := r.tag, dataCap := r.dataCap },
            nextRid := d.nextRid + 1 },
   { rid := d.nextRid, issuer := r.issuer, opcode := op, key := r.key, owner := r.ownerId, params := r.params, dataCap := r.dataCap, keyMask := r.keyMask })

/-- A command comes to a processor. Processors run in RUN; in DOZE or STANDBY it wakes the device and is served after the wake (03 R40, R42, 05 R85). -/
def command (d : Dev) (op : Nat) (r : Request) (run : Dev → Cmd → Dev) (failed : Nat := 0) : Dev :=
  match d.glb.power with
  | .run => let t := takeReq d op r; run t.1 t.2
  | .doze | .standby => holdAccess d (.request op r failed)
  | _ => d

/-! ### Issuers and states: 13 R234 -/

structure Who where
  p : Bool := false
  v : Bool := false
  m : Bool := false
  k : Bool := false

def listed (w : Who) (i : Issuer) : Bool :=
  match i with | .pf => w.p | .stall _ => w.v | .mgt => w.m | .krovlo _ => w.k | .secure => false
def whoP : Who := { p := true }
def whoPV : Who := { p := true, v := true }
def whoPM : Who := { p := true, m := true }
def whoPVM : Who := { p := true, v := true, m := true }
def whoPVK : Who := { p := true, v := true, k := true }
def whoAll : Who := { p := true, v := true, m := true, k := true }

def stateU (d : Dev) : Bool := !lcLocked d
/-- 13 R234: R, with the root loaded and not held back under R48, R73, R81 or R164. -/
def stateR (d : Dev) : Bool :=
  decide (1 ≤ d.lc.state.toNat) && decide (d.lc.state.toNat ≤ 4) && rootLoaded d && !d.key.rootWait && !d.key.grantLock && !d.tmp.hold

/-- 14 R260: does a POLICY of one of the passes bar the class. -/
def policyBad (c : Cmd) : Bool := c.pols.any fun p => !p.getLsbD (c.opcode / 256)

/-- Walk the variable fields of the parameters (12 R225, 13 R233): one longer than the bytes behind it, or key material above 1088 bytes, is ST_LEN_RANGE (log 13); bytes left over other than `tail` are ST_PARAM. -/
def parseVars (tail : Nat) : Nat → List (Nat × Bool) → Option Half
  | left, [] => if left = tail then none else some ST.param
  | left, (n, material) :: l => if left < n || (material && decide (1088 < n)) then some ST.lenRange else parseVars tail (left - n) l

/-- 13 R233: a fixed part of `fixed` bytes, its zero fields, its variable fields and `tail` bytes after them. -/
def parse (c : Cmd) (fixed : Nat) (zero : List (Nat × Nat) := []) (vars : List (Nat × Bool) := []) (tail : Nat := 0) : Option Half :=
  if c.params.length < fixed then some ST.param
  else if zero.any fun z => !allZero (slice c.params z.1 z.2) then some ST.param
  else parseVars tail (c.params.length - fixed) vars

/-- 07 R135: key and owner commands: class 0x02, every command that names a key, and the owner commands but for OWNER_CREATE of owner 0. The two commands of the quorum session name no owner and go on (log 79). -/
def tableBarred (c : Cmd) : Bool :=
  let cl := c.opcode / 256
  cl == 2 || ((cl == 3 || cl == 4) && c.key != 0) || c.opcode == 0x0601 || c.opcode == 0x0702 ||
  (cl == 5 && decide (c.opcode < 0x0506) && !(c.opcode == 0x0501 && c.owner == 0))

/-- Steps 1 to 5 of 13 R236, with the policy check of 14 R260 between 1 and 2: listed issuer, listed state, parameters and lengths, valid values, result space. `res` is the largest result. -/
def preChecks (d : Dev) (c : Cmd) (who : Who) (stateOk : Bool) (parsed : Option Half) (values : Bool) (res : Nat) : List (Bool × Half) :=
  [(policyBad c, ST.denied), (!listed who c.issuer, ST.denied), (!stateOk, ST.locked),
   (d.key.tableBad && (tget d.key.owners 0).isNone && tableBarred c, if d.lc.state == 3 then ST.locked else ST.ownerBad),
   (parsed.isSome, parsed.getD ST.param), (!values, ST.param),
   (decide (c.dataCap < res + if c.sealed && res != 0 then 28 else 0), ST.resultSpace)]

/-- 13 R235: opcodes that name no key, and those that name neither key nor owner (log 12). -/
def noKey (c : Cmd) : Bool := c.key == 0
def noKeyOwner (c : Cmd) : Bool := c.key == 0 && c.owner == 0

def pByte (c : Cmd) (i : Nat) : Nat := (byteAt c.params i).toNat
def pHalf (c : Cmd) (i : Nat) : Nat := leAt c.params i 2
def pWord (c : Cmd) (i : Nat) : Nat := leAt c.params i 4
def pZero (c : Cmd) (i n : Nat) : Bool := allZero (slice c.params i n)
def pLen (c : Cmd) : Nat := c.params.length
def pVar (c : Cmd) (i n : Nat) : Bytes := slice c.params i n

/-! ### Owners and bindings: 07 R125 -/

def ownerOf (d : Dev) (o : Nat) : Option Owner := tget d.key.owners o
def bound (d : Dev) (i : Issuer) (o : Nat) : Bool :=
  match i with
  | .stall n => (match ownerOf d o with | some w => w.stalls.getLsbD n.val | none => false)
  | .pf => o == 0
  | .krovlo _ => true
  | _ => false

/-- The header owner passes 07 R125. -/
def ownerOk (d : Dev) (c : Cmd) : Bool := (ownerOf d c.owner.toNat).isSome && bound d c.issuer c.owner.toNat

/-! ### Handles: 07 R115 -/

def hAon (h : Word) : Bool := bit h 31
def hOwner (h : Word) : Nat := fld h 20 8
def hGen (h : Word) : Nat := fld h 12 8
def hIndex (h : Word) : Nat := fld h 0 12
def mkHandle (aon : Bool) (owner gen idx : Nat) : Word := fields [(aon.toNat, 31), (owner, 20), (gen, 12), (idx, 0)]

/-- A live key by its handle. -/
inductive KRef where
  | slot (i : Nat)
  | bank (i : Nat)
deriving DecidableEq, Repr

structure LiveKey where
  ref : KRef
  type : Byte
  usage : Half
  owner : Byte
  bytes : Bytes
  stale : Bool := false
deriving DecidableEq, Repr

/-- Generation of a slot. DESIGN CHOICE (log 7): the first is 1, and 1 again after a reset that loses the key store; the spec names neither. -/
def genOf (d : Dev) (i : Nat) : Nat := (tgetD d.key.gens i 1).toNat
def bankGenOf (d : Dev) (i : Nat) : Nat := (tgetD d.key.bankGens i 1).toNat

/-- 07 R115: the key a handle names, or none where the handle is stale or malformed. -/
def findKey (d : Dev) (h : Word) : Option LiveKey :=
  if fld h 28 3 != 0 then none
  else if hAon h then
    if hIndex h ≥ 64 then none else
    match tget d.key.bank (hIndex h) with
    | some s => if s.owner.toNat = hOwner h && bankGenOf d (hIndex h) = hGen h && !s.stale then
        some { ref := .bank (hIndex h), type := s.type, usage := s.usage, owner := s.owner, bytes := xorBytes s.masked s.mask } else none
    | none => none
  else
    match tget d.key.slots (hIndex h) with
    | some s => if s.owner.toNat = hOwner h && genOf d (hIndex h) = hGen h && !s.stale && !s.reserved then
        some { ref := .slot (hIndex h), type := s.type, usage := s.usage, owner := s.owner, bytes := xorBytes s.masked s.mask } else none
    | none => none

/-- DEVICE_ID of a unit in the view (20 R374). -/
def peerId (d : Dev) (a : Nat) : Bytes := match tget d.chn.view a with | some p => p.body.devId | none => []

/-- 20 R379: a remote request's KEY is looked up in the replica map of the sender. -/
def replicaKey (d : Dev) (origin : Nat) (h : Word) : Option LiveKey :=
  match d.key.replicas.find? fun r => r.1 == (peerId d origin, h) with
  | some r => match tget d.key.slots r.2 with
    | some s => if s.stale || s.reserved then none
                else some { ref := .slot r.2, type := s.type, usage := s.usage, owner := s.owner, bytes := xorBytes s.masked s.mask }
    | none => none
  | none => none

def keyFor (d : Dev) (c : Cmd) (h : Word) : Option LiveKey :=
  match c.issuer with
  | .krovlo o => replicaKey d o.val h
  | _ => findKey d h

def uEncrypt : Nat := 0
def uDecrypt : Nat := 1
def uSign : Nat := 2
def uVerify : Nat := 3
def uWrap : Nat := 4
def uUnwrap : Nat := 5
def uDerive : Nat := 6
def uAgree : Nat := 7
def uExport : Nat := 8
def uAon : Nat := 9
def uReplicate : Nat := 10
def uQuorum : Nat := 11

/-- Step 6 of 13 R236 for one handle: 07 R125, then the key itself, its type and its usage bit. -/
def keyChecks (d : Dev) (c : Cmd) (h : Word) (typeOk : Byte → Bool) (usage : Option Nat) : List (Bool × Half) :=
  let k := keyFor d c h
  [(!ownerOk d c, ST.denied),
   (match c.issuer with | .krovlo _ => false | _ => decide (hOwner h ≠ c.owner.toNat), ST.denied),
   (k.isNone, ST.handleBad),
   (match k with | some k => decide (k.owner.toNat ≠ c.owner.toNat) | none => false, ST.denied),
   (match k with | some k => !typeOk k.type | none => false, ST.algParam),
   (match k, usage with | some k, some u => !k.usage.getLsbD u | _, _ => false, ST.keyUsage)]

def isAes (t : Byte) : Bool := t == 1 || t == 2 || t == 3
/-- 17 R313. -/
def usageClash (t : Byte) (u : Half) : Bool := isAes t && (u &&& 0x30) != 0 && (u &&& 0x0F) != 0
def usageReserved (u : Half) : Bool := (u &&& 0xF000) != 0

/-- 07 R118, 16 R291: stored-form lengths of each type. -/
def storedLenOk (t : Byte) (l : Nat) : Bool :=
  match t.toNat with
  | 0x01 => l == 16 | 0x02 => l == 24 | 0x03 => l == 32
  | 0x04 => decide (16 ≤ l) && decide (l ≤ 128)
  | 0x05 => decide (16 ≤ l) && decide (l ≤ 64)
  | 0x10 => decide (260 ≤ l) && decide (l ≤ 1028) && (l - 4) % 8 == 0
  | 0x11 => decide (260 ≤ l) && decide (l ≤ 1028) && (l - 4) % 8 == 0
  | 0x20 => l == 32 | 0x21 => l == 48 | 0x22 => l == 66
  | 0x23 => l == 32 | 0x24 => l == 57 | 0x25 => l == 32 | 0x26 => l == 56
  | 0x30 => l == 64 | 0x31 => l == 64 | 0x32 => l == 64
  | 0x33 => l == 32 | 0x34 => l == 32 | 0x35 => l == 32
  | 0x40 => decide (32 ≤ l) && decide (l ≤ 1024)
  | _ => false

/-- 13 R243: public-key bytes of a key of type `t` and stored length `l`. -/
def pubSize (t : Byte) (l dom : Nat) : Nat :=
  match t.toNat with
  | 0x10 => l | 0x11 => l
  | 0x20 => 64 | 0x21 => 96 | 0x22 => 132 | 0x23 => 32 | 0x24 => 57 | 0x25 => 32 | 0x26 => 56
  | 0x30 => 800 | 0x31 => 1184 | 0x32 => 1568 | 0x33 => 1312 | 0x34 => 1952 | 0x35 => 2592
  | 0x40 => dom / 2
  | _ => 0
/-- 13 R246. -/
def sigSize (t : Byte) (l : Nat) : Nat :=
  match t.toNat with
  | 0x10 => l - 4 | 0x11 => l - 4
  | 0x20 => 64 | 0x21 => 96 | 0x22 => 132 | 0x23 => 64 | 0x24 => 114
  | 0x33 => 2420 | 0x34 => 3309 | 0x35 => 4627
  | _ => 0
def ctSize (t : Byte) : Nat := match t.toNat with | 0x30 => 768 | 0x31 => 1088 | 0x32 => 1568 | _ => 0
def isKem (t : Byte) : Bool := t == 0x30 || t == 0x31 || t == 0x32
def isSym (t : Byte) : Bool := decide (1 ≤ t.toNat) && decide (t.toNat ≤ 5)

/-! ### Quorum: 07 R130, R131; 08 R147 -/

/-- Bytes [0:7] and [16:27] of the command header and the parameters (07 R131). -/
def quorumText (c : Cmd) : Bytes :=
  leBytes 2 c.opcode ++ [0, 0] ++ leBytes 4 (32 + c.params.length) ++ b4 c.key ++ b4 c.owner ++ leBytes 4 c.params.length ++ c.params
def quorumDigest (c : Cmd) : Bytes := Config.sha384 (quorumText c)
/-- Of an envelope the header and the ciphertext stand for those of the command that it hides (log 80). -/
def envelopeDigest (b : Bytes) : Bytes := Config.sha384 (slice b 16 8 ++ slice b 32 12 ++ slice b 48 (ehInnerLen b))
def fielded (d : Dev) : Bool := d.lc.state == 3
def mEff (d : Dev) (w : Owner) : Nat := if fielded d then max w.m 2 else w.m

/-- Step 7 of 13 R236 for request `rid` with digest `g`: go on, or end with a status (and perhaps an opened session). -/
def gateWith (d : Dev) (rid : Nat) (g : Bytes) (o : Nat) : Dev × Option Half :=
  match ownerOf d o with
  | none => (d, some ST.ownerBad)
  | some w =>
    if w.enrol.isSome then (d, some ST.busy) else
    match d.crd.session with
    | none =>
      ({ d with crd := { d.crd with session := some { owner := o, mEff := mEff d w, digest := g, since := d.now } } }, some ST.quorumPending)
    | some s =>
      if s.owner ≠ o || s.digest != g || s.consumedBy.isSome then (d, some ST.busy)
      else if !s.met then (d, some ST.quorumPending)
      else ({ d with crd := { d.crd with session := some { s with consumedBy := some rid } } }, none)
def quorumGate (d : Dev) (c : Cmd) (o : Nat) : Dev × Option Half := gateWith d c.rid (quorumDigest c) o

/-- The gate where it is needed. -/
def quorumIf (need : Bool) (d : Dev) (c : Cmd) (o : Nat) : Dev × Option Half := if need then quorumGate d c o else (d, none)

/-! ### Key slots: 07 R116, R117, R126 -/

def chargeOf (i : Issuer) : Charge := match i with | .stall n => .stall n.val | _ => .pf
def slotsOf (d : Dev) (ch : Charge) : Nat := (d.key.slots.filter fun s => decide (s.2.charge = ch)).length
def ownerSlots (d : Dev) (o : Nat) : Nat := (d.key.slots.filter fun s => decide (s.2.owner.toNat = o)).length
def slotShare (d : Dev) : Nat := 4096 / partN d
def enabledCount (d : Dev) : Nat := (d.stl.stalls.filter fun s => enabled s.2).length
/-- 11 R193: slots no enabled stall reserves. -/
def unreserved (d : Dev) : Nat := 4096 - enabledCount d * slotShare d
/-- 07 R126, R117. -/
def slotRoom (d : Dev) (i : Issuer) (o : Nat) : Bool :=
  let ch := chargeOf i
  decide (slotsOf d ch < slotShare d) &&
  (match ch with | .pf => decide (slotsOf d .pf < unreserved d) | .stall _ => true) &&
  (match ownerOf d o with | some w => w.cap == 0 || decide (ownerSlots d o < w.cap) | none => false)

def pickSlot (d : Dev) : Option Nat := scan (fun i => (tget d.key.slots i).isNone) 4096 4096 (Config.freePick d.rng)

/-- 07 R116: hold a key under a fresh mask in slot `i`. -/
def storeKey (d : Dev) (i : Nat) (t : Byte) (u : Half) (o : Byte) (ch : Charge) (k : Bytes) : Dev :=
  let (m, d) := draw d k.length
  { d with key := { d.key with slots := tset d.key.slots i { type := t, usage := u, owner := o, charge := ch, masked := xorBytes k m, mask := m } } }

/-- Load a key for an issuer: the handle, or none where no slot is free. -/
def loadKey (d : Dev) (i : Issuer) (t : Byte) (u : Half) (o : Byte) (k : Bytes) : Option (Word × Dev) :=
  (pickSlot d).map fun s =>
    (mkHandle false o.toNat (genOf d s) s, storeKey { d with rng := d.rng + 1 } s t u o (chargeOf i) k)

/-- 13 R238: claim a slot for a command that has not completed. -/
def reserveSlot (d : Dev) (i : Issuer) (t : Byte) (u : Half) (o : Byte) : Option (Nat × Dev) :=
  (pickSlot d).map fun s =>
    (s, { d with rng := d.rng + 1,
                 key := { d.key with slots := tset d.key.slots s { type := t, usage := u, owner := o, charge := chargeOf i, masked := [], mask := [], reserved := true } } })

/-- 07 R115: free a slot; its generation increments. Replicas that named it are gone. -/
def freeSlot (d : Dev) (s : Nat) : Dev :=
  { d with key := { d.key with slots := tdel d.key.slots s, gens := tset d.key.gens s (tgetD d.key.gens s 1 + 1),
                               replicas := d.key.replicas.filter fun r => decide (r.2 ≠ s) } }

/-- Fill a reserved slot and answer its handle. -/
def fillSlot (d : Dev) (s : Nat) (k : Bytes) : Word × Dev :=
  match tget d.key.slots s with
  | some x =>
    let h := mkHandle false x.owner.toNat (genOf d s) s
    if x.stale then (h, freeSlot d s) else (h, storeKey d s x.type x.usage x.owner x.charge k)
  | none => (0, d)

/-- 07 R133: the handle becomes stale at once; the slot is cleared once no operation uses it. -/
def unloadSlot (d : Dev) (s : Nat) : Dev :=
  match tget d.key.slots s with
  | some x => if x.uses = 0 && !x.reserved then freeSlot d s
              else { d with key := { d.key with slots := tset d.key.slots s { x with stale := true } } }
  | none => d

def unloadWhere (d : Dev) (p : KSlot → Bool) : Dev :=
  d.key.slots.foldl (fun d e => if p e.2 then unloadSlot d e.1 else d) d

/-- 07 R116: a new mask; a use that runs while the DRBG has failed (17 R318) keeps the old one (log 97). -/
def freshMask (d : Dev) (n : Nat) (old : Bytes) : Bytes × Dev := if drbgReady d then draw d n else (old, d)
/-- A dispatched operation has copied the key of slot `s` (07 R133), under a new mask (R116). -/
def beginUse (d : Dev) (r : KRef) : Dev :=
  match r with
  | .slot s => match tget d.key.slots s with
    | some x =>
      let k := xorBytes x.masked x.mask
      let (m, d) := freshMask d k.length x.mask
      { d with key := { d.key with slots := tset d.key.slots s { x with masked := xorBytes k m, mask := m, uses := x.uses + 1 } } }
    | none => d
  | .bank b => match tget d.key.bank b with
    | some x =>
      let k := xorBytes x.masked x.mask
      let (m, d) := freshMask d k.length x.mask
      { d with key := { d.key with bank := tset d.key.bank b { x with masked := xorBytes k m, mask := m, uses := x.uses + 1 } } }
    | none => d

/-- Free the bank slot; its generation increments. -/
def freeBank (d : Dev) (b : Nat) : Dev :=
  { d with key := { d.key with bank := tdel d.key.bank b, bankGens := tset d.key.bankGens b (tgetD d.key.bankGens b 1 + 1) } }
/-- 07 R133 for a key of the bank. -/
def unloadBank (d : Dev) (b : Nat) : Dev :=
  match tget d.key.bank b with
  | some x => if x.uses = 0 then freeBank d b else { d with key := { d.key with bank := tset d.key.bank b { x with stale := true } } }
  | none => d

/-- What an operation notes of the key it has copied: a slot by its index, a bank slot by 4096 and its index. -/
def refSlot (r : KRef) : Nat := match r with | .slot s => s | .bank b => 4096 + b
/-- An operation has ended whose key was that of `s`. -/
def endUse (d : Dev) (s : Nat) : Dev :=
  if 4096 ≤ s then
    match tget d.key.bank (s - 4096) with
    | some x => if x.uses ≤ 1 && x.stale then freeBank d (s - 4096)
                else { d with key := { d.key with bank := tset d.key.bank (s - 4096) { x with uses := x.uses - 1 } } }
    | none => d
  else
    match tget d.key.slots s with
    | some x => if x.uses ≤ 1 && x.stale then freeSlot d s
                else { d with key := { d.key with slots := tset d.key.slots s { x with uses := x.uses - 1 } } }
    | none => d

/-- A use that ends within its own command. -/
def touchKey (d : Dev) (r : KRef) : Dev := endUse (beginUse d r) (refSlot r)
def clearBank (d : Dev) : Dev := d.key.bank.foldl (fun d e => freeBank d e.1) d

/-- Clear and free every slot at once (reset, life-cycle transition, wipe). -/
def clearSlots (d : Dev) : Dev := { d.key.slots.foldl (fun d e => freeSlot d e.1) d with pkeWait := d.pkeWait }

/-! ### Derivation: 07 R122 -/

def lcByte (d : Dev) : Byte := d.lc.state
/-- SP 800-108 counter mode with HMAC-SHA-384: block count and length fields big-endian. -/
def kdf384Blocks (kin fixed : Bytes) (lenBits : Nat) : Nat → Nat → Bytes
  | _, 0 => []
  | i, n + 1 => Config.hmac 3 kin (beBytes 4 i ++ fixed ++ beBytes 4 lenBits) ++ kdf384Blocks kin fixed lenBits (i + 1) n
def kdf108 (kin label ctx : Bytes) (len : Nat) : Bytes :=
  (kdf384Blocks kin (label ++ [0] ++ ctx) (8 * len) 1 ((len + 47) / 48)).take len

/-! ### Program units of the private store: 19 R344, R357 -/

def psfKey : Bytes := kdf108 Config.storeSecret (ascii "DX48 STORE") Config.deviceId 32
/-- Position and erase count: no nonce is used twice. Their places in it are the model's (log 90). -/
def unitNonce (unit erases : Nat) : Bytes := leBytes 4 unit ++ leBytes 8 erases
def sealedUnit (unit erases : Nat) (x : Bytes) : Out :=
  .psfProgram unit (Config.gcmCt psfKey (unitNonce unit erases) [] x) (Config.gcmTag psfKey (unitNonce unit erases) [] x)
/-- The units from `unit` on: their new erase counts and the programs, the last first. -/
def programUnits : Nat → Tab Nat → List Out → Nat → Bytes → Tab Nat × List Out
  | 0, t, o, _, _ => (t, o)
  | n + 1, t, o, unit, x =>
    programUnits n (tset t unit (tgetD t unit 0 + 1)) (sealedUnit unit (tgetD t unit 0) (x.take 256) :: o) (unit + 1) (x.drop 256)
/-- Bytes of a zone, from the unit at `off` on. -/
def programZone (d : Dev) (off : Nat) (x : Bytes) : Dev :=
  let r := programUnits ((x.length + 255) / 256) d.ps.erases d.out (off / 256) x
  { d with ps := { d.ps with erases := r.1 }, out := r.2 }

/-! ### The root -/

def rootIndex (d : Dev) : Nat := d.key.root - 1
def deriveFor (root : Nat) (lc : Byte) (fwMeas : Bytes) (purpose : String) (id mode : Byte) (salt : Bytes) (len : Nat) : Bytes :=
  kdf108 (Config.rootSecret root) (ascii purpose)
    (Config.deviceId ++ [id, mode, lc, 0] ++ salt ++ (if mode == 1 then fwMeas else zeros 48)) len
/-- derive(purpose, owner, L). -/
def derive (d : Dev) (purpose : String) (id mode : Byte) (salt : Bytes) (len : Nat) : Bytes :=
  deriveFor (rootIndex d) (lcByte d) d.key.fwMeas purpose id mode salt len

/-! ### The owner table in the private store: 07 R124, R127 -/

/-- What the seal covers: every field of every record. The order is the model's: the spec gives none (log 81). -/
def shareText (s : Nat × Share) : Bytes := BitVec.ofNat 8 s.1 :: (leBytes 4 s.2.serial.length ++ s.2.serial ++ leBytes 4 s.2.pub.length ++ s.2.pub ++ leBytes 4 s.2.check.length ++ s.2.check)
def sharesText (l : Tab Share) : Bytes := leBytes 1 l.length ++ l.flatMap shareText
def enrolText (e : Enrol) : Bytes :=
  [BitVec.ofNat 8 e.m, BitVec.ofNat 8 e.n, BitVec.ofNat 8 e.next, if e.creation then 1 else 0] ++ leBytes 8 e.since ++ sharesText e.oldShares
def ownerText (w : Nat × Owner) : Bytes :=
  [BitVec.ofNat 8 w.1, w.2.mode] ++ w.2.salt ++ [BitVec.ofNat 8 w.2.m, BitVec.ofNat 8 w.2.n] ++ b8 w.2.stalls ++ leBytes 2 w.2.cap ++ leBytes 1 w.2.aonQuota ++
  leBytes 2 w.2.window ++ b8 w.2.wraps ++ sharesText w.2.shares ++ (match w.2.enrol with | some e => 1 :: enrolText e | none => [0])
def tableText (l : Tab Owner) : Bytes := l.flatMap ownerText
/-- The TABLE key of root `root` in state `lc`: id 0, mode 0, zero salt (R122). -/
def tableKey (root : Nat) (lc : Byte) : Bytes := deriveFor root lc (zeros 48) "DX48 TABLE" 0 0 (zeros 32) 32
/-- The dual-control secret of an enrolment stays in secure SRAM (09 R161): no copy of the table holds it. -/
def stripSecrets (l : Tab Owner) : Tab Owner := l.map fun w => (w.1, { w.2 with enrol := w.2.enrol.map fun e => { e with secret := [] } })
/-- Seal a table. The nonce is a free value. -/
def sealTable (key iv : Bytes) (l : Tab Owner) : OwnerTable := { owners := l, iv, cipher := Config.gcmCt key iv [] (tableText l), tag := Config.gcmTag key iv [] (tableText l) }
def sealOwners (key iv : Bytes) (l : Tab Owner) : OwnerTable := sealTable key iv (stripSecrets l)
def tableNonce (d : Dev) : Bytes := Config.fit 12 (Config.freeBytes d.rng 12)
def setOwner (d : Dev) (o : Nat) (w : Owner) : Dev := { d with key := { d.key with owners := tset d.key.owners o w } }
/-- The sealed copy in the private store follows the table. While no root is loaded there is no TABLE key, and the copy stays as it is (log 81). -/
def saveTable (d : Dev) : Dev :=
  if d.key.root = 0 then d
  else
    let t := sealOwners (tableKey (rootIndex d) (lcByte d)) (tableNonce d) d.key.owners
    programZone { d with rng := d.rng + 1, ps := { d.ps with ownerTable := some t } } 0x20000 (t.iv ++ t.cipher ++ t.tag)

/-- HKDF-SHA-384 extract and expand (17 R315). -/
def hkdfExtract (salt ikm : Bytes) : Bytes := Config.hmac 3 (if salt.isEmpty then zeros 48 else salt) ikm
def hkdfBlocks (prk info : Bytes) : Nat → Nat → Bytes → Bytes
  | _, 0, _ => []
  | i, n + 1, prev => let t := Config.hmac 3 prk (prev ++ info ++ [BitVec.ofNat 8 i]); t ++ hkdfBlocks prk info (i + 1) n t
def hkdfExpand (prk info : Bytes) (len : Nat) : Bytes := (hkdfBlocks prk info 1 ((len + 47) / 48) []).take len

/-! ### A slot that reads with a mask mismatch: 07 R136 -/

/-- Class F of a block whose error code and address the spec leaves open (log 24). -/
def errFOpen (d : Dev) (src : Word) : Dev := errF { d with rng := d.rng + 1 } (Config.openStatus d.rng) src 0
/-- Commands that read the stored form of a key. -/
def readsKey (c : Cmd) : Bool :=
  c.opcode == 0x0205 || c.opcode == 0x0207 || c.opcode == 0x0208 || c.opcode == 0x020A || c.opcode == 0x0601 || c.opcode == 0x0702 ||
  (c.opcode == 0x0202 && pByte c 0 == 1) || ((c.opcode / 256 == 3 || c.opcode / 256 == 4) && c.key != 0)
/-- The use meets the mismatch: Class F with its record. The command goes no further; the secure reset ends it. -/
def maskBad (c : Cmd) : Bool := c.keyMask && readsKey c
def maskFault (d : Dev) : Dev := errFOpen d (rKeyStatus d)

/-- Number of result cells a command processor claims at dispatch (15 R281). -/
def claimResult (d : Dev) (c : Cmd) (res : Nat) : Option Dev :=
  if res = 0 then some d else
  (claimCells d c.issuer (cellsFor res)).map fun r =>
    match tget r.1.reqs c.rid with
    | some q => setReq r.1 c.rid { q with resCells := q.resCells ++ r.2 }
    | none => r.1

/-- 13 R235: a use of a key whose QUORUM_USE bit is 1 needs the owner's quorum. -/
def useQuorum (d : Dev) (c : Cmd) (h : Word) : Option Nat :=
  match keyFor d c h with
  | some k => if k.usage.getLsbD uQuorum then some k.owner.toNat else none
  | none => none
/-- Length of the stored form a handle names; 0 where it names none (log 13: step 5 is sized by the key, step 6 reports the handle). -/
def keyLen (d : Dev) (c : Cmd) (h : Word) : Nat := match keyFor d c h with | some k => k.bytes.length | none => 0
def keyType (d : Dev) (c : Cmd) (h : Word) : Byte := match keyFor d c h with | some k => k.type | none => 0
/-- 17 CNT_AUTH: a completion with ST_AUTH_FAIL is counted. -/
def authFailed (d : Dev) : Dev := { d with sym := { d.sym with cntAuth := satInc d.sym.cntAuth } }
/-- 17 R318: commands that need random bits or a key slot. -/
def rngCheck (d : Dev) : Bool × Half := (!drbgReady d, ST.rngFail)
/-- 07 R126. -/
def slotCheck (d : Dev) (c : Cmd) : Bool × Half := (!slotRoom d c.issuer c.owner.toNat || (pickSlot d).isNone, ST.slotQuota)

/-- 11 R203: a request that needs cells beyond the share ends with ST_NO_CELLS, a Class T error of a stall. -/
def endNoCells (d : Dev) (c : Cmd) : Dev :=
  finish (match c.issuer with | .stall n => errT d n.val ST.noCells | _ => d) c.rid ST.noCells

/-- A command without an engine or a lane, in the order of 13 R236: checks 1 to 6, the quorum of an owner where one is needed (7), resources and result cells (8), then the command itself (9). -/
def runAtomic (d : Dev) (c : Cmd) (checks : List (Bool × Half)) (quorum : Option Nat) (resources : Dev → List (Bool × Half)) (res : Nat)
    (body : Dev → Dev × Half × Bytes) : Dev :=
  match firstFail checks with
  | some st => finish d c.rid st
  | none =>
    match (match quorum with | some o => quorumGate d c o | none => (d, none)) with
    | (d, some st) => finish d c.rid st
    | (d, none) =>
      match firstFail (resources d) with
      | some st => finish d c.rid st
      | none =>
        match claimResult d c res with
        | none => endNoCells d c
        | some d => if maskBad c then maskFault d else let r := body d; finish r.1 c.rid r.2.1 r.2.2

/-- The plain case: no quorum, no resources, the state unchanged but for the completion. -/
def runRead (d : Dev) (c : Cmd) (checks : List (Bool × Half)) (res : Nat) (result : Dev → Bytes) : Dev :=
  runAtomic d c checks none (fun _ => []) res fun d => (d, ST.ok, result d)

end Sys2Proof.Machine
end

