-- ==== Sys2Proof/Machine/CmdInfo.lean ====
section
/-! DEFINITION. Class 0x01 and the commands that read registers out (13 R239, R240, R253, R254; 08 R148; 20 CHN_STATUS; 23 R411). -/

namespace Sys2Proof.Machine

/-- 13 R239: NOP. Earlier-dispatched commands of the issuer that have not ended. -/
def earlierOf (d : Dev) (c : Cmd) : List Nat :=
  (d.reqs.filter fun e => decide (e.1 ≠ c.rid) && decide (issuerIdx e.2.issuer = issuerIdx c.issuer) &&
    (match e.2.stage with | .dispatched => true | .nopWait _ => true | _ => false)).map (·.1)

def runNop (d : Dev) (c : Cmd) : Dev :=
  match firstFail (preChecks d c whoAll (stateU d) (parse c 0) (noKeyOwner c) 0) with
  | some st => finish d c.rid st
  | none =>
    match earlierOf d c, tget d.reqs c.rid with
    | [], _ => finish d c.rid ST.ok
    | l, some q => setReq d c.rid { q with stage := .nopWait l }
    | _, none => d

/-- 13 R240. -/
def infoDevice (d : Dev) : Bytes :=
  Config.deviceId ++ [0xB0, d.lc.state, BitVec.ofNat 8 d.stl.partCur, if d.chn.addrValid then BitVec.ofNat 8 d.chn.addr else 0xFF] ++
  b4 d.key.fwVersion ++ b8 d.chn.epoch ++ b4 d.glb.pcc ++
  [BitVec.ofNat 8 d.chn.units, BitVec.ofNat 8 (roleCode d.chn.role), 0, 0] ++ d.key.fwMeas.take 24

def runInfoDevice (d : Dev) (c : Cmd) : Dev :=
  runRead d c (preChecks d c whoPVM (stateU d) (parse c 0) (noKeyOwner c) 64) 64 infoDevice

/-- Shares of a stall (11 R193); none while it is DISABLED (R188). -/
def cellShare (d : Dev) (n : Nat) : Nat := if enabled (stall d n) then 24576 / partN d else 0
def slotShareOf (d : Dev) (n : Nat) : Nat := if enabled (stall d n) then slotShare d else 0
def logShare (d : Dev) : Nat := 8388608 / partN d
def logShareOf (d : Dev) (n : Nat) : Nat := if enabled (stall d n) then logShare d else 0
/-- 11 R193: the largest power of two no more than 4096 and 16384 / N. -/
def depthShare (d : Dev) : Nat := min 4096 (16384 / partN d)
def depthShareOf (d : Dev) (n : Nat) : Nat := if enabled (stall d n) then depthShare d else 0

/-- 13 R240: the view of a stall, also that of 22 R401. -/
def infoStall (d : Dev) (n : Nat) : Bytes :=
  b4 (rStlState d n) ++ b4 (stall d n).gen ++ leBytes 4 (heldBy d 1 n) ++ leBytes 4 (cellShare d n) ++
  leBytes 2 (slotsOf d (.stall n)) ++ leBytes 2 (slotShareOf d n) ++ leBytes 2 (heldBy d 0 n) ++
  leBytes 2 (if (stall d n).ring.en then 2 ^ (stall d n).ring.depthLog2 else 0) ++ leBytes 4 (stall d n).logUse ++ leBytes 4 (logShareOf d n)

def runInfoStall (d : Dev) (c : Cmd) : Dev :=
  runRead d c
    (preChecks d c whoPV (stateU d) (parse c 4 [(1, 3)]) (noKeyOwner c && decide (pByte c 0 < 64)) 32 ++
     [(match c.issuer with | .stall n => decide (pByte c 0 ≠ n.val) | _ => false, ST.denied)]) 32
    fun d => infoStall d (pByte c 0)

/-- 08 R148, R250: QUORUM_STATUS. -/
def runQuorumStatus (d : Dev) (c : Cmd) : Dev :=
  runRead d c (preChecks d c whoPM (stateU d) (parse c 0) (noKeyOwner c) 8) 8 fun d => b4 (rQStatus d) ++ b4 (rQRemain d)

/-- 13 R253: LC_GET_STATE. -/
def runLcGetState (d : Dev) (c : Cmd) : Dev :=
  runRead d c (preChecks d c whoPVM true (parse c 0) (noKeyOwner c) 8) 8 fun d => b4 (rLcState d) ++ b4 (rDbgStatus d)

/-- 23 R411. -/
def poolBytes (d : Dev) (p : Nat) : Bytes :=
  let s := tgetD d.ldg.sample p {}
  b8 s.issued ++ b8 s.retired ++ leBytes 4 s.held ++ leBytes 4 (capacity p) ++ leBytes 4 s.heldDev ++ leBytes 4 s.peak
def ledgerResult (d : Dev) : Bytes :=
  b2 0x1E01 ++ [6, d.ldg.lastInit] ++ b4 d.ldg.initPcc ++ leBytes 8 d.ldg.checks.toNat ++ poolIdx.flatMap (poolBytes d) ++ zeros 48
def runLedgerRead (d : Dev) (c : Cmd) : Dev :=
  runRead d c (preChecks d c whoP (stateU d) (parse c 0) (noKeyOwner c) 256) 256 ledgerResult

/-- 20 R375: digest of an admitted list. -/
def admDigestOf (l : List Bytes) : Bytes := Config.sha384 (l.flatMap fun x => x)
/-- The values the leader shows: this unit's own where it leads. -/
def leaderLc (d : Dev) : Byte := match tget d.chn.view d.chn.leader with | some p => p.body.lcState | none => d.lc.state
def leaderFw (d : Dev) : Word := match tget d.chn.view d.chn.leader with | some p => p.body.fwVersion | none => d.key.fwVersion
/-- 20 R377: the admitted list, which always includes the unit itself. -/
def admittedOf (d : Dev) : List Bytes := if d.chn.admitted.contains Config.deviceId then d.chn.admitted else Config.deviceId :: d.chn.admitted
/-- 20 R377: is a unit of the view in replication; not one whose DEVICE_ID another unit shows too (R375). -/
def peerInRepl (d : Dev) (b : StatusBody) : Bool :=
  b.role.toNat % 128 == 1 && (admittedOf d).contains b.devId && b.lcState == leaderLc d && b.lcState != 0xEE &&
  b.fwVersion.toNat / 65536 == (leaderFw d).toNat / 65536 && b.devId != Config.deviceId &&
  (b.epoch != d.chn.epoch || b.admDigest == admDigestOf (admittedOf d)) && decide ((d.chn.view.filter fun p => p.2.body.devId == b.devId).length ≤ 1)

/-- 20 CHN_STATUS: 256-byte ring view. -/
def chnEntry (d : Dev) (a : Nat) : Bytes :=
  if d.chn.addrValid && decide (d.chn.addr = a) then
    Config.deviceId.take 8 ++ [d.lc.state, BitVec.ofNat 8 (roleCode d.chn.role + if d.chn.repl then 128 else 0)] ++ b4 d.key.fwVersion
  else match tget d.chn.view a with
    | some p => Config.fit 8 p.body.devId ++ [p.body.lcState, BitVec.ofNat 8 (p.body.role.toNat % 128 + if peerInRepl d p.body then 128 else 0)] ++ b4 p.body.fwVersion
    | none => zeros 14
def chnView (d : Dev) : Bytes :=
  let c := d.chn
  [if c.addrValid then BitVec.ofNat 8 c.addr else 0xFF, BitVec.ofNat 8 (roleCode c.role), BitVec.ofNat 8 c.units, BitVec.ofNat 8 c.leader,
   if c.openRing then 1 else 0, BitVec.ofNat 8 ((rPort c.up).toNat / 2 ^ 24), BitVec.ofNat 8 ((rPort c.dn).toNat / 2 ^ 24), 0] ++
  b8 c.epoch ++ b8 c.time ++ zeros 8 ++ (List.range 16).flatMap (chnEntry d)
def runChnStatus (d : Dev) (c : Cmd) : Dev :=
  runRead d c (preChecks d c whoPM (stateU d) (parse c 0) (noKeyOwner c) 256) 256 chnView

def execNop (r : Request) (s : State) : Host.Outcome State Fault Refusal := onDev (fun d => command d 0x0101 r runNop) s
def execInfoDevice (r : Request) (s : State) : Host.Outcome State Fault Refusal := onDev (fun d => command d 0x0102 r runInfoDevice) s
def execInfoStall (r : Request) (s : State) : Host.Outcome State Fault Refusal := onDev (fun d => command d 0x0103 r runInfoStall) s
def execQuorumStatus (r : Request) (s : State) : Host.Outcome State Fault Refusal := onDev (fun d => command d 0x0506 r runQuorumStatus) s
def execLcGetState (r : Request) (s : State) : Host.Outcome State Fault Refusal := onDev (fun d => command d 0x0801 r runLcGetState) s
def execLedgerRead (r : Request) (s : State) : Host.Outcome State Fault Refusal := onDev (fun d => command d 0x0F02 r runLedgerRead) s
def execChnStatus (r : Request) (s : State) : Host.Outcome State Fault Refusal := onDev (fun d => command d 0x0701 r runChnStatus) s

end Sys2Proof.Machine
end

