-- ==== Sys2Proof/Machine/Keys.lean ====
section
/-! DEFINITION. Class 0x02 but for the two commands that run on an engine (07 R115-R133, 13 R241, R242). -/

namespace Sys2Proof.Machine

/-- 13 R241: key commands: issuers P V, states R. -/
def keyPre (d : Dev) (c : Cmd) (parsed : Option Half) (values : Bool) (res : Nat) : List (Bool × Half) :=
  preChecks d c whoPV (stateR d) parsed values res

/-- 16 R291: validity of an imported stored form: an RSA exponent is odd and at least 3. -/
def formValid (t : Byte) (k : Bytes) : Bool :=
  if t == 0x10 || t == 0x11 then let e := beNat (k.take 4); e % 2 == 1 && decide (3 ≤ e) else true

/-- Finish an import: a slot for the stored form, or the status. -/
def landKey (d : Dev) (c : Cmd) (t : Byte) (u : Half) (k : Bytes) : Dev × Half × Bytes :=
  match loadKey d c.issuer t u (c.owner.setWidth 8) k with
  | some (h, d) => (d, ST.ok, b4 h)
  | none => (d, ST.slotQuota, [])

/-! ### KEY_IMPORT -/

/-- 13 R242, 16-byte package header. -/
def packHeader (t : Byte) (u : Half) (len : Nat) (src dst : Byte) : Bytes := b2 0xB402 ++ [t, 0] ++ b2 u ++ leBytes 2 len ++ [src, dst] ++ zeros 6
def ownerKey (d : Dev) (purpose : String) (o : Nat) : Bytes :=
  match ownerOf d o with
  | some w => derive d purpose (BitVec.ofNat 8 o) w.mode w.salt 32
  | none => []

def runKeyImport (d : Dev) (c : Cmd) : Dev :=
  let form := pByte c 0; let t := byteAt c.params 1; let u := half c.params 2; let len := pHalf c 4
  let wk := word c.params 8; let dl := pWord c 12
  let parsed := match parse c 16 [(7, 1)] [(dl, form == 0)] with
    | some st => some st
    | none => if 1088 < len then some ST.lenRange else none
  let values := noKey c && decide (form ≤ 2) && storedLenOk t len && !usageReserved u && !usageClash t u &&
    (match form with
     | 0 => dl == len && wk == 0 && pByte c 6 == 0
     | 1 => decide (16 ≤ dl) && dl % 8 == 0 && pByte c 6 == 0
     | _ => wk == 0 && decide (32 ≤ dl) && dl % 8 == 0)
  let data := pVar c 16 dl
  let checks := keyPre d c parsed values 4 ++
    (if form = 1 then keyChecks d c wk isAes (some uUnwrap) else [(!ownerOk d c, ST.denied)])
  let quorum := if form = 0 then some c.owner.toNat else if form = 1 then useQuorum d c wk else none
  runAtomic d c checks quorum (fun d => [rngCheck d, slotCheck d c]) 4 fun d =>
    match form with
    | 0 => if formValid t data then landKey d c t u data else (d, ST.algParam, [])
    | 1 =>
      match keyFor d c wk with
      | none => (d, ST.handleBad, [])
      | some k =>
        let d := touchKey d k.ref
        match Config.kwUnwrap 1 k.bytes data with
        | none => (authFailed d, ST.authFail, [])
        | some x => if x.length ≠ len then (d, ST.blobBad, []) else if formValid t x then landKey d c t u x else (d, ST.algParam, [])
    | _ =>
      let hd := data.take 16
      if hd != packHeader t u len (byteAt c.params 6) (c.owner.setWidth 8) then (d, ST.blobBad, []) else
      match Config.kwUnwrap 1 (ownerKey d "DX48 EXPORT" c.owner.toNat) (data.drop 16) with
      | none => (authFailed d, ST.authFail, [])
      | some x =>
        if x.take 16 != hd || x.length ≠ 16 + len then (d, ST.blobBad, [])
        else if formValid t (x.drop 16) then landKey d c t u (x.drop 16) else (d, ST.algParam, [])

/-! ### Blobs: 07 R128, R129 -/

def blobHeader (d : Dev) (t : Byte) (u : Half) (len : Nat) (o mode : Byte) (iv : Bytes) (serial : Quad) : Bytes :=
  b2 0xB401 ++ [t, 0] ++ b2 u ++ leBytes 2 len ++ [o, mode, lcByte d, 0] ++ iv ++
  (if mode == 0 then zeros 8 else d.key.fwMeas.take 8) ++ b8 serial ++ zeros 8

/-- 07 R129: KEY_LOAD, whose own order replaces steps 6 to 9. A LENGTH past the parameter bytes is refused before it, by 12 R225 (log 13). -/
def runKeyLoad (d : Dev) (c : Cmd) : Dev :=
  let b := c.params
  let len := leAt b 6 2; let t := byteAt b 2; let o := (byteAt b 8).toNat; let mode := byteAt b 9
  let w := ownerOf d o
  let parsed := if 8 ≤ b.length && decide (1088 < len ∨ b.length < 48 + len) then some ST.lenRange else none
  let checks := keyPre d c parsed (noKey c) 4 ++
    [(b.length != 64 + len || !storedLenOk t len || half b 0 != 0xB401 || byteAt b 3 != 0 || byteAt b 11 != 0 || usageReserved (half b 4) || !pZero c 40 8, ST.blobBad),
     (!ownerOk d c || o != c.owner.toNat, ST.denied),
     ((match w with | some w => mode != w.mode | none => true) || byteAt b 10 != lcByte d, ST.blobBad),
     (mode == 1 && slice b 24 8 != d.key.fwMeas.take 8, ST.blobFw),
     rngCheck d, slotCheck d c]
  runAtomic d c checks none (fun _ => []) 4 fun d =>
    match reserveSlot d c.issuer t (half b 4) (c.owner.setWidth 8) with
    | none => (d, ST.slotQuota, [])
    | some (s, d) =>
      match Config.gcmOpen (ownerKey d "DX48 BLOB" o) (slice b 12 12) (b.take 48) (slice b 48 len) (slice b (48 + len) 16) with
      | none => (freeSlot d s, ST.blobBad, [])
      | some k => let r := fillSlot d s k; (r.2, ST.ok, b4 r.1)

/-- 07 R128: KEY_WRAP. -/
def runKeyWrap (d : Dev) (c : Cmd) : Dev :=
  let n := 64 + keyLen d c c.key
  runAtomic d c (keyPre d c (parse c 0) (!hAon c.key) (if keyLen d c c.key = 0 then 0 else n) ++ keyChecks d c c.key (fun _ => true) none)
    (useQuorum d c c.key) (fun d => [rngCheck d]) n fun d =>
    match keyFor d c c.key, ownerOf d c.owner.toNat with
    | some k, some w =>
      let d := touchKey d k.ref
      let d := { d with key := { d.key with owners := tset d.key.owners c.owner.toNat { w with wraps := w.wraps + 1 } } }
      let d := saveTable d
      let (iv, d) := draw d 12
      let h := blobHeader d k.type k.usage k.bytes.length k.owner w.mode iv (w.wraps + 1)
      let bk := ownerKey d "DX48 BLOB" c.owner.toNat
      (d, ST.ok, h ++ Config.gcmCt bk iv h k.bytes ++ Config.gcmTag bk iv h k.bytes)
    | _, _ => (d, ST.handleBad, [])

/-- Unload the key a handle names (07 R133); a replicated source key broadcasts REPL_DROP (20 R378). -/
def dropRef (d : Dev) (r : KRef) (h : Word) : Dev :=
  match r with
  | .bank b => unloadBank d b
  | .slot s =>
    let rep := match tget d.key.slots s with | some x => x.replicated | none => false
    let d := unloadSlot d s
    if rep && d.chn.role == .member then broadcastD d (.replDrop h) else d

/-- 07 R133: KEY_UNLOAD. -/
def runKeyUnload (d : Dev) (c : Cmd) : Dev :=
  runAtomic d c (keyPre d c (parse c 0) true 0 ++ keyChecks d c c.key (fun _ => true) none) none (fun _ => []) 0 fun d =>
    match keyFor d c c.key with
    | some k => (dropRef d k.ref c.key, ST.ok, [])
    | none => (d, ST.handleBad, [])

def setUsage (d : Dev) (r : KRef) (u : Half) : Dev :=
  match r with
  | .slot s => match tget d.key.slots s with
    | some x => { d with key := { d.key with slots := tset d.key.slots s { x with usage := u } } }
    | none => d
  | .bank b => match tget d.key.bank b with
    | some x => { d with key := { d.key with bank := tset d.key.bank b { x with usage := u } } }
    | none => d

/-- 07 R119: KEY_SET_USAGE; the quorum only where a bit is set. -/
def runKeySetUsage (d : Dev) (c : Cmd) : Dev :=
  let u := half c.params 0
  let old := match keyFor d c c.key with | some k => k.usage | none => 0
  let adds := (u &&& ~~~old) != 0
  runAtomic d c
    (keyPre d c (parse c 4 [(2, 2)]) (!usageReserved u) 0 ++ keyChecks d c c.key (fun _ => true) none ++ [(usageClash (keyType d c c.key) u, ST.param)])
    (if adds then some c.owner.toNat else none) (fun _ => []) 0 fun d =>
    match keyFor d c c.key with
    | some k => (setUsage d k.ref u, ST.ok, [])
    | none => (d, ST.handleBad, [])

/-- 13 R242: KEY_EXPORT. -/
def runKeyExport (d : Dev) (c : Cmd) : Dev :=
  let dst := pByte c 0
  let l := keyLen d c c.key
  let n := 16 + Config.kwLen 1 (16 + l)
  runAtomic d c
    (keyPre d c (parse c 4 [(1, 3)]) true (if l = 0 then 0 else n) ++ keyChecks d c c.key (fun _ => true) (some uExport) ++ [((ownerOf d dst).isNone, ST.ownerBad)])
    (some c.owner.toNat) (fun d => [rngCheck d]) n fun d =>
    match keyFor d c c.key with
    | some k =>
      let h := packHeader k.type k.usage k.bytes.length k.owner (BitVec.ofNat 8 dst)
      (touchKey d k.ref, ST.ok, h ++ Config.kwWrap 1 (ownerKey d "DX48 EXPORT" dst) (h ++ k.bytes))
    | none => (d, ST.handleBad, [])

/-- 07 R120: free bank slot, within the owner's quota. -/
def pickBank (d : Dev) : Option Nat := scan (fun i => (tget d.key.bank i).isNone) 64 64 (Config.freePick d.rng)
def bankUse (d : Dev) (o : Nat) : Nat := (d.key.bank.filter fun b => decide (b.2.owner.toNat = o)).length
def bankRoom (d : Dev) (o : Nat) : Bool :=
  (match ownerOf d o with | some w => decide (bankUse d o < w.aonQuota) | none => false) && (pickBank d).isSome

def runKeyAonPut (d : Dev) (c : Cmd) : Dev :=
  runAtomic d c
    (keyPre d c (parse c 0) (decide (keyLen d c c.key ≤ 96)) 4 ++ keyChecks d c c.key (fun _ => true) (some uAon))
    (useQuorum d c c.key) (fun d => [rngCheck d, (!bankRoom d c.owner.toNat, ST.slotQuota)]) 4 fun d =>
    match keyFor d c c.key, pickBank d with
    | some k, some b =>
      let d := touchKey d k.ref
      let (m, d) := draw d k.bytes.length
      let d := { d with key := { d.key with bank := tset d.key.bank b { type := k.type, usage := k.usage, owner := k.owner, masked := xorBytes k.bytes m, mask := m } } }
      (d, ST.ok, b4 (mkHandle true k.owner.toNat (bankGenOf d b) b))
    | _, _ => (d, ST.slotQuota, [])

/-- 13 R241: KEY_INFO. -/
def keyInfoBytes (k : LiveKey) : Bytes :=
  [k.type, 0] ++ b2 k.usage ++ leBytes 2 k.bytes.length ++ leBytes 2 ((match k.ref with | .bank _ => 1 | .slot _ => 0) + if k.stale then 2 else 0)
def runKeyInfo (d : Dev) (c : Cmd) : Dev :=
  runRead d c (keyPre d c (parse c 0) true 8 ++ keyChecks d c c.key (fun _ => true) none) 8
    fun d => match keyFor d c c.key with | some k => keyInfoBytes k | none => []

def execKeyImport (r : Request) (s : State) : Host.Outcome State Fault Refusal := onDev (fun d => command d 0x0202 r runKeyImport) s
def execKeyLoad (r : Request) (s : State) : Host.Outcome State Fault Refusal := onDev (fun d => command d 0x0203 r runKeyLoad) s
def execKeyUnload (r : Request) (s : State) : Host.Outcome State Fault Refusal := onDev (fun d => command d 0x0204 r runKeyUnload) s
def execKeyWrap (r : Request) (s : State) : Host.Outcome State Fault Refusal := onDev (fun d => command d 0x0205 r runKeyWrap) s
def execKeySetUsage (r : Request) (s : State) : Host.Outcome State Fault Refusal := onDev (fun d => command d 0x0206 r runKeySetUsage) s
def execKeyExport (r : Request) (s : State) : Host.Outcome State Fault Refusal := onDev (fun d => command d 0x0207 r runKeyExport) s
def execKeyAonPut (r : Request) (s : State) : Host.Outcome State Fault Refusal := onDev (fun d => command d 0x0208 r runKeyAonPut) s
def execKeyInfo (r : Request) (s : State) : Host.Outcome State Fault Refusal := onDev (fun d => command d 0x0209 r runKeyInfo) s

end Sys2Proof.Machine
end

