-- ==== Sys2Proof/Machine/Mac.lean ====
section
/-! DEFINITION. The MAC channel (16 R297-R299): checking and running a program. -/

namespace Sys2Proof.Machine

/-- 16 R299: operand memory as words by index (zero where unlisted), accumulator and flags. -/
structure MacSt where
  mem : Tab Nat := []
  acc : Nat := 0
  lt : Bool := false
  eq : Bool := false
deriving DecidableEq, Repr

def limb : Nat := 2 ^ 128
def accMod : Nat := 2 ^ 8448

/-- Fields of an instruction (16 R298). -/
def mOp (i : Nat) : Nat := i / 2 ^ 60 % 16
def mCond (i : Nat) : Nat := i / 2 ^ 58 % 4
def mRes (i : Nat) : Nat := i / 2 ^ 55 % 8
def mLen (i : Nat) : Nat := i / 2 ^ 48 % 128
def mA (i : Nat) : Nat := i / 2 ^ 37 % 2048
def mB (i : Nat) : Nat := i / 2 ^ 26 % 2048
def mD (i : Nat) : Nat := i / 2 ^ 15 % 2048
def mOff (i : Nat) : Nat := i / 2 ^ 8 % 128
def mImm (i : Nat) : Nat := i % 256

/-- Which fields an operation uses: LEN, A, B as one word, B as a number, D, OFF, IMM (16 R299). -/
structure MUse where
  len : Bool := false
  a : Bool := false
  b1 : Bool := false
  bn : Bool := false
  dst : Bool := false
  off : Bool := false
  imm : Bool := false

def mUse (op : Nat) : Option MUse :=
  match op with
  | 0x0 => some {}
  | 0x1 => some { dst := true, imm := true }
  | 0x2 => some { len := true, a := true, off := true }
  | 0x3 => some { len := true, dst := true, off := true }
  | 0x4 => some { len := true, a := true, b1 := true, off := true }
  | 0x5 => some { len := true, a := true, b1 := true, off := true }
  | 0x6 => some { len := true, a := true, off := true }
  | 0x7 => some { len := true, a := true, off := true }
  | 0x8 => some { len := true, a := true, bn := true, dst := true }
  | 0x9 => some { len := true, a := true, bn := true, dst := true }
  | 0xA => some { len := true, a := true, bn := true }
  | 0xB => some { len := true, a := true, off := true }
  | 0xC => some { off := true, imm := true }
  | 0xD => some { off := true, imm := true }
  | _ => none

/-- 16 R298. -/
def insnOk (i : Nat) : Bool :=
  match mUse (mOp i) with
  | none => false
  | some u =>
    let n := if u.len then mLen i else 1
    mRes i == 0 &&
    (if u.len then decide (1 ≤ mLen i) && decide (mLen i ≤ 66) else mLen i == 0) &&
    (if u.a then decide (mA i + n ≤ 2048) else mA i == 0) &&
    (if u.bn then decide (mB i + n ≤ 2048) else u.b1 || mB i == 0) &&
    (if u.dst then decide (mD i + n ≤ 2048) else mD i == 0) &&
    (if u.off then decide (mOff i ≤ 65) && decide (mOff i + (if u.len then mLen i else 0) ≤ 66) else mOff i == 0) &&
    (if u.imm then (mOp i == 1 || decide (mImm i < 128)) else mImm i == 0)

def rdNum (m : Tab Nat) (a : Nat) : Nat → Nat
  | 0 => 0
  | n + 1 => tgetD m a 0 + limb * rdNum m (a + 1) n
def wrNum (m : Tab Nat) (a v : Nat) : Nat → Tab Nat
  | 0 => m
  | n + 1 => wrNum (tset m a (v % limb)) (a + 1) (v / limb) n

/-- 16 R298: COND. -/
def condHolds (s : MacSt) (c : Nat) : Bool := match c with | 0 => true | 1 => s.lt | 2 => !s.lt | _ => s.eq
def accLimbs (s : MacSt) (off len : Nat) : Nat := s.acc / limb ^ off % limb ^ len

/-- One instruction (16 R299). -/
def macStep (s : MacSt) (i : Nat) : MacSt :=
  if !condHolds s (mCond i) then s else
  let n := mLen i
  let x := rdNum s.mem (mA i) n
  let y := rdNum s.mem (mB i) n
  let w := rdNum s.mem (mB i) 1
  let k := limb ^ mOff i
  match mOp i with
  | 0x0 => { s with acc := 0 }
  | 0x1 => { s with mem := wrNum s.mem (mD i) (mImm i) 1 }
  | 0x2 => { s with acc := x * k % accMod }
  | 0x3 => { s with mem := wrNum s.mem (mD i) (accLimbs s (mOff i) n) n }
  | 0x4 => { s with acc := (s.acc + x * w * k) % accMod }
  | 0x5 => { s with acc := (s.acc + (accMod - x * w * k % accMod)) % accMod }
  | 0x6 => { s with acc := (s.acc + x * k) % accMod }
  | 0x7 => { s with acc := (s.acc + (accMod - x * k % accMod)) % accMod }
  | 0x8 => { s with mem := wrNum s.mem (mD i) ((x + y) % limb ^ n) n }
  | 0x9 => { s with mem := wrNum s.mem (mD i) ((x + (limb ^ n - y)) % limb ^ n) n, lt := decide (x < y), eq := x == y }
  | 0xA => { s with lt := decide (x < y), eq := x == y }
  | 0xB => { s with lt := decide (accLimbs s (mOff i) n < x), eq := accLimbs s (mOff i) n == x }
  | 0xC => { s with acc := s.acc / (k * 2 ^ mImm i) }
  | 0xD => { s with acc := s.acc * (k * 2 ^ mImm i) % accMod }
  | _ => s

/-- 16 R297: program layout. -/
def progImg (p : Bytes) : Nat := leAt p 4 2
def progCount (p : Bytes) : Nat := leAt p 6 2
def progOut (p : Bytes) : Nat := leAt p 8 2
def progInsn (p : Bytes) (k : Nat) : Nat := leAt p (16 + 16 * progImg p + 8 * k) 8
def progOk (p : Bytes) (outLen : Nat) : Bool :=
  half p 0 == 0x4D01 && allZero (slice p 2 2) && allZero (slice p 10 6) &&
  p.length == 16 + 16 * progImg p + 8 * progCount p && decide (progImg p ≤ 2048) &&
  decide (1 ≤ progCount p) && decide (progCount p ≤ 4096) && decide (16 * progOut p + outLen ≤ 32768) &&
  (List.range (progCount p)).all fun k => insnOk (progInsn p k)

def loadImg (p : Bytes) : Nat → Nat → Tab Nat → Tab Nat
  | _, 0, m => m
  | k, n + 1, m => loadImg p (k + 1) n (tset m k (leAt p (16 + 16 * k) 16))

/-- 16 R297: clear, load, run in order, return OUT_LEN bytes from OUT_WORD. -/
def macRun (p : Bytes) (outLen : Nat) : Bytes :=
  let s0 : MacSt := { mem := loadImg p 0 (progImg p) [] }
  let s := (List.range (progCount p)).foldl (fun s k => macStep s (progInsn p k)) s0
  ((List.range ((outLen + 15) / 16)).flatMap fun j => leBytes 16 (tgetD s.mem (progOut p + j) 0)).take outLen

/-- 16 R299: run time in engine cycles. -/
def insnCycles (i : Nat) : Nat :=
  match mOp i with
  | 0x0 => 1 | 0x1 => 1 | 0x4 => mLen i + 2 | 0x5 => mLen i + 2 | 0xC => 67 | 0xD => 67 | _ => mLen i + 1
def macCycles (p : Bytes) (outLen : Nat) : Nat :=
  ((List.range (progCount p)).foldl (fun a k => a + insnCycles (progInsn p k)) 0) + (2 * 2048 + 66) + progImg p + (outLen + 15) / 16

end Sys2Proof.Machine
end

