-- ==== Sys2Proof/Machine/PublicKey.lean ====
section
/-! DEFINITION. Commands that claim a PKE slot (13 R241, R244-R247; 16 R289-R292): their checks, what they hand to an engine, and their way into the queue of operations. -/

namespace Sys2Proof.Machine

/-! ### Engines that can serve: 16 R289, R290 -/

def engSecure (d : Dev) (e : Nat) : Bool := d.sec.own.getLsbD (18 + e)
def inTransit (d : Dev) (periph : Nat) : Bool := d.sec.hoGo && d.sec.hoPeriph.toNat == periph
/-- Engine `e` can serve the channel for a request of the secure world (or of the normal world). -/
def serves (d : Dev) (mac secure : Bool) (e : Nat) : Bool :=
  (eng d e).mac == mac && (secure || !engSecure d e) && (eng d e).clk != 3 && !(eng d e).oos && !inTransit d (18 + e)
def engIdle (d : Dev) (e : Nat) : Bool := (eng d e).op.isNone && !(eng d e).aborting && !(eng d e).relock
def engines : List Nat := [0, 1, 2, 3]
def canServe (d : Dev) (mac secure : Bool) : Bool := engines.any (serves d mac secure)
def freeEngine (d : Dev) (mac secure : Bool) : Bool := engines.any fun e => serves d mac secure e && engIdle d e

/-! ### Rules of the algorithm fields: 13 R245 -/

def isRsa (t : Byte) : Bool := t == 0x10 || t == 0x11
def isEcdsa (t : Byte) : Bool := t == 0x20 || t == 0x21 || t == 0x22
def isPure (t : Byte) : Bool := t == 0x23 || t == 0x24 || t == 0x33 || t == 0x34 || t == 0x35
def signType (t : Byte) : Bool := t == 0x10 || isEcdsa t || isPure t
def verifyType (t : Byte) : Bool := isRsa t || isEcdsa t || isPure t
def agreeType (t : Byte) : Bool := isEcdsa t || t == 0x25 || t == 0x26 || t == 0x40
def publicType (t : Byte) : Bool := verifyType t || isKem t || t == 0x25 || t == 0x26 || t == 0x40
def algRule (t : Byte) (hash pad isd msgLen : Nat) : Bool :=
  decide (isd ≤ 1) && (isd == 0 || msgLen == Config.digestLen hash) &&
  (if isRsa t then decide (1 ≤ hash) && decide (hash ≤ 7) && decide (pad ≤ 1)
   else if isEcdsa t then decide (1 ≤ hash) && decide (hash ≤ 7) && pad == 0
   else hash == 0 && isd == 0 && pad == 0)

/-- 16 R292: finite-field domain p ‖ g. -/
def domOk (dom : Bytes) : Bool :=
  let n := dom.length / 2
  let p := beNat (dom.take n); let g := beNat (dom.drop n)
  dom.length == 2 * n && n % 8 == 0 && decide (256 ≤ n) && decide (n ≤ 1024) && p % 2 == 1 && (byteAt dom 0).getLsbD 7 &&
  decide (2 ≤ g) && decide (g + 2 ≤ p)
/-- 16 R292: the peer value of a finite-field agreement. -/
def ffPeerOk (dom peer : Bytes) : Bool :=
  let p := beNat (dom.take (dom.length / 2))
  peer.length == dom.length / 2 && decide (2 ≤ beNat peer) && decide (beNat peer + 2 ≤ p)

/-- 07 R118, 13 R241: stored length of a generated key. -/
def genLen (t : Byte) (size : Nat) : Nat :=
  match t.toNat with
  | 0x01 => 16 | 0x02 => 24 | 0x03 => 32 | 0x04 => size | 0x05 => size | 0x40 => size
  | 0x10 => 4 + size / 8
  | 0x20 => 32 | 0x21 => 48 | 0x22 => 66 | 0x23 => 32 | 0x24 => 57 | 0x25 => 32 | 0x26 => 56
  | 0x30 => 64 | 0x31 => 64 | 0x32 => 64 | 0x33 => 32 | 0x34 => 32 | 0x35 => 32
  | _ => 0
def genSizeOk (t : Byte) (size : Nat) : Bool :=
  match t.toNat with
  | 0x10 => size == 2048 || size == 3072 || size == 4096 || size == 6144 || size == 8192
  | 0x04 => storedLenOk t size | 0x05 => storedLenOk t size | 0x40 => storedLenOk t size
  | 0x11 => false
  | _ => size == 0 && decide (0 < genLen t 0)
def genPub (t : Byte) (size : Nat) : Nat := if isSym t || t == 0x40 then 0 else pubSize t (genLen t size) 0

/-! ### Plans: what a command checks and what its engine runs -/

structure PkPlan where
  pre : List (Bool × Half)
  checks : List (Bool × Half)
  quorum : Option Nat := none
  resources : List (Bool × Half) := []
  res : Nat := 0
  mac : Bool := false
  build : Dev → Dev × PkeOp

def pkPre (d : Dev) (c : Cmd) (parsed : Option Half) (values : Bool) (res : Nat) : List (Bool × Half) :=
  preChecks d c whoPVK (stateR d) parsed values res

/-- Copy the key of a handle into an operation (07 R133). -/
def withKey (d : Dev) (c : Cmd) (h : Word) (op : Byte → Bytes → PkeOp) : Dev × PkeOp :=
  match keyFor d c h with
  | some k => (beginUse d k.ref, { op k.type k.bytes with usesSlot := some (refSlot k.ref) })
  | none => (d, op 0 [])

def planGenerate (d : Dev) (c : Cmd) : PkPlan :=
  let t := byteAt c.params 0; let u := half c.params 2; let size := pHalf c 4
  { pre := keyPre d c (parse c 8 [(1, 1), (6, 2)]) (noKey c && genSizeOk t size && !usageReserved u && !usageClash t u) (8 + genPub t size)
    checks := [(!ownerOk d c, ST.denied)]
    resources := [rngCheck d, slotCheck d c]
    res := 8 + genPub t size
    build := fun d =>
      let (rnd, d) := draw d 64
      match reserveSlot d c.issuer t u (c.owner.setWidth 8) with
      | some (s, d) => (d, { rid := some c.rid, issuer := c.issuer, kind := .genKey s t size, alg := t, rnd })
      | none => (d, { rid := some c.rid, issuer := c.issuer, kind := .genKey 0 t size, alg := t, rnd }) }

def planPublic (d : Dev) (c : Cmd) : PkPlan :=
  let dl := pWord c 0; let dom := pVar c 4 dl
  let t := keyType d c c.key
  let n := pubSize t (keyLen d c c.key) dl
  { pre := keyPre d c (parse c 4 [] [(dl, false)]) true n
    checks := keyChecks d c c.key publicType none ++ [((t == 0x40) != (dl != 0), ST.algParam)]
    quorum := useQuorum d c c.key
    resources := [rngCheck d]
    res := n
    build := fun d => withKey d c c.key fun t k => { rid := some c.rid, issuer := c.issuer, kind := .publicKey t n dom, alg := t, key := k } }

def planSign (d : Dev) (c : Cmd) : PkPlan :=
  let hash := pByte c 0; let pad := pByte c 1; let isd := pByte c 2; let ml := pWord c 4
  let n := sigSize (keyType d c c.key) (keyLen d c c.key)
  { pre := pkPre d c (parse c 8 [(3, 1)] [(ml, false)]) true n
    checks := keyChecks d c c.key signType (some uSign) ++ [(!algRule (keyType d c c.key) hash pad isd ml, ST.algParam)]
    quorum := useQuorum d c c.key
    resources := [rngCheck d]
    res := n
    build := fun d =>
      let (rnd, d) := draw d 64
      withKey d c c.key fun t k => { rid := some c.rid, issuer := c.issuer, kind := .sign t hash pad (isd == 1) (pVar c 8 ml), alg := t, key := k, rnd } }

def planVerify (d : Dev) (c : Cmd) : PkPlan :=
  let hash := pByte c 0; let pad := pByte c 1; let isd := pByte c 2; let pt := byteAt c.params 3
  let ml := pWord c 4; let sl := pWord c 8; let pl := pWord c 12
  let msg := pVar c 16 ml; let sig := pVar c (16 + ml) sl; let pub := pVar c (16 + ml + sl) pl
  let withK := c.key != 0
  let t := if withK then keyType d c c.key else pt
  let kl := if withK then keyLen d c c.key else pl
  { pre := pkPre d c (parse c 16 [] [(ml, false), (sl, false), (pl, false)]) (if withK then pt == 0 && pl == 0 else c.owner == 0) 0
    checks := (if withK then keyChecks d c c.key verifyType (some uVerify) else [(!verifyType pt, ST.algParam)]) ++
      [(!algRule t hash pad isd ml || sl != sigSize t kl || (!withK && !(if isRsa pt then storedLenOk 0x11 pl else pl == pubSize pt 0 0)), ST.algParam)]
    quorum := if withK then useQuorum d c c.key else none
    resources := if withK then [rngCheck d] else []
    build := fun d =>
      if withK then withKey d c c.key fun t k => { rid := some c.rid, issuer := c.issuer, kind := .verify t hash pad (isd == 1) msg sig [], alg := t, key := k }
      else (d, { rid := some c.rid, issuer := c.issuer, kind := .verify pt hash pad (isd == 1) msg sig pub, alg := pt }) }

def planEncaps (d : Dev) (c : Cmd) : PkPlan :=
  let pt := byteAt c.params 0; let u := half c.params 2; let pl := pWord c 4; let pub := pVar c 8 pl
  let withK := c.key != 0
  let t := if withK then keyType d c c.key else pt
  { pre := pkPre d c (parse c 8 [(1, 1)] [(pl, false)]) (!usageReserved u && (!withK || (pt == 0 && pl == 0))) (if isKem t then 4 + ctSize t else 0)
    checks := if withK then keyChecks d c c.key isKem (some uEncrypt)
              else [(!ownerOk d c, ST.denied), (!isKem pt || pl != pubSize pt 0 0, ST.algParam)]
    quorum := if withK then useQuorum d c c.key else none
    resources := [rngCheck d, slotCheck d c]
    res := 4 + ctSize t
    build := fun d =>
      let (rnd, d) := draw d 32
      let (s, d) := match reserveSlot d c.issuer 0x05 u (c.owner.setWidth 8) with | some (s, d) => (s, d) | none => (0, d)
      if withK then withKey d c c.key fun t k => { rid := some c.rid, issuer := c.issuer, kind := .encaps t [] s, alg := t, key := k, rnd }
      else (d, { rid := some c.rid, issuer := c.issuer, kind := .encaps pt pub s, alg := pt, rnd }) }

def planDecaps (d : Dev) (c : Cmd) : PkPlan :=
  let u := half c.params 0; let cl := pWord c 4
  { pre := pkPre d c (parse c 8 [(2, 2)] [(cl, false)]) (!usageReserved u) 4
    checks := keyChecks d c c.key isKem (some uDecrypt) ++ [(cl != ctSize (keyType d c c.key), ST.algParam)]
    quorum := useQuorum d c c.key
    resources := [rngCheck d, slotCheck d c]
    res := 4
    build := fun d =>
      let (s, d) := match reserveSlot d c.issuer 0x05 u (c.owner.setWidth 8) with | some (s, d) => (s, d) | none => (0, d)
      withKey d c c.key fun t k => { rid := some c.rid, issuer := c.issuer, kind := .decaps t (pVar c 8 cl) s, alg := t, key := k } }

def planAgree (d : Dev) (c : Cmd) : PkPlan :=
  let u := half c.params 0; let pl := pWord c 4; let sl := pWord c 8; let dl := pWord c 12
  let peer := pVar c 16 pl; let salt := pVar c (16 + pl) sl; let dom := pVar c (16 + pl + sl) dl
  let t := keyType d c c.key
  { pre := pkPre d c (parse c 16 [(2, 2)] [(pl, false), (sl, false), (dl, false)]) (!usageReserved u) 4
    checks := keyChecks d c c.key agreeType (some uAgree) ++
      [((t == 0x40) != (dl != 0), ST.algParam), (t != 0x40 && pl != pubSize t 0 0, ST.algParam)]
    quorum := useQuorum d c c.key
    resources := [rngCheck d, slotCheck d c]
    res := 4
    build := fun d =>
      let (s, d) := match reserveSlot d c.issuer 0x05 u (c.owner.setWidth 8) with | some (s, d) => (s, d) | none => (0, d)
      withKey d c c.key fun t k => { rid := some c.rid, issuer := c.issuer, kind := .agree t peer salt dom s, alg := t, key := k } }

def planMacRun (d : Dev) (c : Cmd) : PkPlan :=
  let outLen := pWord c 0; let pl := pWord c 4; let prog := pVar c 8 pl
  { pre := pkPre d c (parse c 8 [] [(pl, false)]) (noKeyOwner c && progOk prog outLen) outLen
    checks := []
    res := outLen
    mac := true
    build := fun d => (d, { rid := some c.rid, issuer := c.issuer, kind := .mac prog outLen, alg := 0xFF }) }

/-- The plan of a command by its opcode. -/
def pkPlan (d : Dev) (c : Cmd) : PkPlan :=
  if c.opcode = 0x0201 then planGenerate d c
  else if c.opcode = 0x020A then planPublic d c
  else if c.opcode = 0x0301 then planSign d c
  else if c.opcode = 0x0302 then planVerify d c
  else if c.opcode = 0x0303 then planEncaps d c
  else if c.opcode = 0x0304 then planDecaps d c
  else if c.opcode = 0x0305 then planAgree d c
  else planMacRun d c

/-- End with a status; ST_NO_CELLS is a Class T error of a stall. -/
def endWith (d : Dev) (c : Cmd) (st : Half) : Dev := if st == ST.noCells then endNoCells d c else finish d c.rid st

/-- Steps 6 to 8 of 13 R236 at dispatch (R238). `serve` says whether an engine can serve (16 R289): otherwise ST_BUSY comes last. -/
def pkTry (d : Dev) (c : Cmd) (p : PkPlan) (serve : Bool) : Dev × (Half ⊕ PkeOp) :=
  match firstFail p.checks with
  | some st => (d, .inl st)
  | none =>
    match (match p.quorum with | some o => quorumGate d c o | none => (d, none)) with
    | (d, some st) => (d, .inl st)
    | (d, none) =>
      match firstFail p.resources with
      | some st => (d, .inl st)
      | none =>
        match claimResult d c p.res with
        | none => (d, .inl ST.noCells)
        | some d => if serve then let r := p.build d; (r.1, .inr r.2) else (d, .inl ST.busy)

/-- A public-key command: refused at once, or one of the operations that wait for an engine (16 R289, R301). While every serving engine is busy, steps 6 to 8 are left to the dispatch. -/
def runPk (d : Dev) (c : Cmd) : Dev :=
  let p := pkPlan d c
  match firstFail p.pre with
  | some st => finish d c.rid st
  | none =>
    let serve := canServe d p.mac false
    if serve && !freeEngine d p.mac false then { d with pkeWait := d.pkeWait ++ [.cmd c] }
    else match pkTry d c p serve with
      | (d', .inl st) => endWith d' c st
      | (_, .inr _) => { d with pkeWait := d.pkeWait ++ [.cmd c] }

/-- KEY_GENERATE of a symmetric type or of a DH exponent uses no engine (13 R241). -/
def runKeyGenerate (d : Dev) (c : Cmd) : Dev :=
  let t := byteAt c.params 0; let size := pHalf c 4
  if !(isSym t || t == 0x40) then runPk d c else
  let p := planGenerate d c
  runAtomic d c (p.pre ++ p.checks) none (fun d => [rngCheck d, slotCheck d c]) 8 fun d =>
    let (k, d) := draw d (genLen t size)
    let r := landKey d c t (half c.params 2) k
    (r.1, r.2.1, if r.2.2.isEmpty then [] else r.2.2 ++ zeros 4)

/-- 07 R118: e and n = p × q of a stored RSA private key. -/
def rsaPublic (k : Bytes) : Bytes :=
  let h := (k.length - 4) / 2
  k.take 4 ++ beBytes (k.length - 4) (beNat (slice k 4 h) * beNat (k.drop (4 + h)))
/-- 13 R243: public half of a stored key. That of an RSA verification key is its stored form (07 R118). -/
def publicOf (t : Byte) (n : Nat) (k dom : Bytes) : Bytes := if t == 0x11 then k else if t == 0x10 then rsaPublic k else Config.pkPublic t.toNat n k dom
/-- 16 R291, R292: a finite-field exponent is no longer than p. -/
def exponentOk (k dom : Bytes) : Bool := decide (k.length ≤ dom.length / 2)
/-- KEY_PUBLIC: status and result. -/
def publicResult (t : Byte) (n : Nat) (k dom : Bytes) : Half × Bytes :=
  if t != 0x11 && ((t == 0x40 && !(domOk dom && exponentOk k dom)) || !Config.pkKeyOk t.toNat k) then (ST.algParam, []) else (ST.ok, publicOf t n k dom)
/-- KEY_PUBLIC uses an engine for type 0x40 only (13 R241). -/
def runKeyPublic (d : Dev) (c : Cmd) : Dev :=
  if keyType d c c.key == 0x40 then runPk d c else
  let p := planPublic d c
  runAtomic d c (p.pre ++ p.checks) p.quorum (fun _ => p.resources) p.res fun d =>
    match keyFor d c c.key with
    | some k => let r := publicResult k.type p.res k.bytes []; (touchKey d k.ref, r.1, r.2)
    | none => (d, ST.handleBad, [])

def execKeyGenerate (r : Request) (s : State) : Host.Outcome State Fault Refusal := onDev (fun d => command d 0x0201 r runKeyGenerate) s
def execKeyPublic (r : Request) (s : State) : Host.Outcome State Fault Refusal := onDev (fun d => command d 0x020A r runKeyPublic) s
def execPkSign (r : Request) (s : State) : Host.Outcome State Fault Refusal := onDev (fun d => command d 0x0301 r runPk) s
def execPkVerify (r : Request) (s : State) : Host.Outcome State Fault Refusal := onDev (fun d => command d 0x0302 r runPk) s
def execPkEncaps (r : Request) (s : State) : Host.Outcome State Fault Refusal := onDev (fun d => command d 0x0303 r runPk) s
def execPkDecaps (r : Request) (s : State) : Host.Outcome State Fault Refusal := onDev (fun d => command d 0x0304 r runPk) s
def execPkAgree (r : Request) (s : State) : Host.Outcome State Fault Refusal := onDev (fun d => command d 0x0305 r runPk) s
def execPkMacRun (r : Request) (s : State) : Host.Outcome State Fault Refusal := onDev (fun d => command d 0x0306 r runPk) s

end Sys2Proof.Machine
end

