-- ==== Sys2Proof/Machine/Symmetric.lean ====
section
/-! DEFINITION. Class 0x04 and the lanes (13 R248, R249; 17 R310-R315), random numbers (17 R316-R319). -/

namespace Sys2Proof.Machine

/-! ### Lanes: AES 0-7, hash 8-11 -/

/-- 17 R310: hash lane 3 serves the Boot Witness alone while a host boot is witnessed and not sealed. -/
def witnessing (d : Dev) : Bool := d.bwt.journal.opened
def laneUsable (d : Dev) (l : Nat) : Bool :=
  (tget d.sym.lanes l).isNone && !d.sym.laneOos.getLsbD l && !(l == 11 && witnessing d)
def pickLaneOf (d : Dev) (hash : Bool) (p : Nat → Bool) : Option Nat :=
  if hash then (scan (fun i => laneUsable d (8 + i) && p (8 + i)) 4 4 (Config.freePick d.rng)).map (8 + ·)
  else scan (fun i => laneUsable d i && p i) 8 8 (Config.freePick d.rng)
def pickLane (d : Dev) (hash : Bool) : Option Nat := pickLaneOf d hash fun _ => true

/-! ### Lane time: 11 R193 -/

/-- The windows of 1 ms are counted on the fabric clock (log 84). -/
def laneWindow (d : Dev) : Nat := d.now / msCycles
def laneUsed (d : Dev) (l n : Nat) : Nat := if d.sym.window = laneWindow d then tgetD d.sym.used (64 * l + n) 0 else 0
/-- Has stall `n` time of its share of lane `l` left in this window. -/
def laneBalance (d : Dev) (n l : Nat) : Bool := decide (n < 64) && decide (laneUsed d l n < msCycles / partN d)
def chargeLane (d : Dev) (l n cycles : Nat) : Dev :=
  if 64 ≤ n then d else
  let u := if d.sym.window = laneWindow d then d.sym.used else []
  { d with sym := { d.sym with window := laneWindow d, used := tset u (64 * l + n) (tgetD u (64 * l + n) 0 + cycles) } }
/-- A lane for issuer number `n`: one of which it has a share left, if any. -/
def laneFor (d : Dev) (hash : Bool) (n : Nat) : Option Nat := (pickLaneOf d hash (laneBalance d n)).orElse fun _ => pickLane d hash
def guaranteed (d : Dev) (hash : Bool) (n : Nat) : Bool := (pickLaneOf d hash (laneBalance d n)).isSome

/-- Does a command of class 0x04 run on a hash lane. -/
def hashLaned (c : Cmd) : Bool := c.opcode == 0x0403 || c.opcode == 0x0404 || (c.opcode == 0x0402 && pByte c 0 != 0)
/-- 13 R248: every opcode of the class uses lane time; SYM_RNG that of an AES lane, the block cipher of the DRBG (17 R316; log 88). -/
def laned (c : Cmd) : Bool := decide (0x0401 ≤ c.opcode) && decide (c.opcode ≤ 0x0406)
/-- A command that finds no lane waits where it is (17 R310); nothing of it has been checked. -/
def mustWait (d : Dev) (c : Cmd) : Bool := laned c && (pickLane d (hashLaned c)).isNone
def hasShare (d : Dev) (c : Cmd) : Bool := guaranteed d (hashLaned c) (issuerIdx c.issuer)

def setLanes (d : Dev) (t : Tab LaneJob) : Dev := { d with sym := { d.sym with lanes := t } }

structure SymPlan where
  checks : List (Bool × Half)
  quorum : Option Nat := none
  resources : List (Bool × Half) := []
  res : Nat := 0
  build : Dev → Dev × LaneJob

def symPre (d : Dev) (c : Cmd) (stateOk : Bool) (parsed : Option Half) (values : Bool) (res : Nat) : List (Bool × Half) :=
  preChecks d c whoPVK stateOk parsed values res

/-- Copy a key into the lane (17 R314). -/
def laneKey (d : Dev) (c : Cmd) (h : Word) : Dev × Bytes × List Nat :=
  match keyFor d c h with
  | some k => (beginUse d k.ref, k.bytes, [refSlot k.ref])
  | none => (d, [], [])

/-- 13 R249, 17 R311. -/
def cipherValues (mode dir iv aad dl : Nat) (k2 : Word) : Bool :=
  decide (dir ≤ 1) && (mode == 4 || k2 == 0) &&
  (match mode with
   | 0 => iv == 0 && aad == 0 && dl % 16 == 0
   | 1 => iv == 16 && aad == 0 && dl % 16 == 0
   | 2 => iv == 16 && aad == 0 && decide (1 ≤ dl)
   | 3 => iv == 12
   | 4 => iv == 16 && aad == 0 && decide (16 ≤ dl) && decide (dl ≤ 16777216)
   | _ => false)

def planCipher (d : Dev) (c : Cmd) : SymPlan :=
  let mode := pByte c 0; let dir := pByte c 1; let iv := pByte c 2; let k2 := word c.params 4
  let aad := pWord c 8; let dl := pWord c 12
  let tail := if mode = 3 && dir = 1 then 16 else 0
  let n := if mode = 3 && dir = 0 then dl + 16 else dl
  let u := if dir = 0 then uEncrypt else uDecrypt
  { checks := symPre d c (stateR d) (parse c 16 [(3, 1)] [(iv, false), (aad, false), (dl, false)] tail) (cipherValues mode dir iv aad dl k2) n ++
      keyChecks d c c.key (fun t => isAes t && !(mode == 4 && t == 2)) (some u) ++
      (if mode = 4 then keyChecks d c k2 (fun t => t == keyType d c c.key) (some u) ++
         [((keyFor d c c.key).map (·.bytes) == (keyFor d c k2).map (·.bytes), ST.algParam)] else [])
    quorum := match useQuorum d c c.key with | some o => some o | none => if mode = 4 then useQuorum d c k2 else none
    resources := [rngCheck d]
    res := n
    build := fun d =>
      let (d, k, s) := laneKey d c c.key
      let (d, kk, s2) := if mode = 4 then laneKey d c k2 else (d, [], [])
      (d, { rid := c.rid, key := k, usesSlots := s ++ s2,
            kind := .cipher mode dir kk (pVar c 16 iv) (pVar c (16 + iv) aad) (pVar c (16 + iv + aad) dl) (pVar c (16 + iv + aad + dl) tail) }) }

def macFull (alg : Nat) : Nat := match alg with | 0 => 16 | 1 => 32 | 2 => 48 | 3 => 64 | _ => 0
def macHash (alg : Nat) : Nat := match alg with | 1 => 2 | 2 => 3 | _ => 4

/-- 17 R318: a verification runs while the DRBG has failed (log 97). -/
def planMac (d : Dev) (c : Cmd) : SymPlan :=
  let alg := pByte c 0; let op := pByte c 1; let l := pByte c 2; let ml := pWord c 4
  { checks := symPre d c (stateR d) (parse c 8 [(3, 1)] [(ml, false)] (if op = 1 then l else 0))
        (decide (alg ≤ 3) && decide (op ≤ 1) && decide (4 ≤ l) && decide (l ≤ macFull alg)) (if op = 0 then l else 0) ++
      keyChecks d c c.key (fun t => if alg = 0 then isAes t else t == 4) (some (if op = 0 then uSign else uVerify))
    quorum := useQuorum d c c.key
    resources := if op = 1 then [] else [rngCheck d]
    res := if op = 0 then l else 0
    build := fun d =>
      let (d, k, s) := laneKey d c c.key
      (d, { rid := c.rid, key := k, usesSlots := s,
            kind := if op = 0 then .macGen alg l (pVar c 8 ml) else .macVerify alg l (pVar c 8 ml) (pVar c (8 + ml) l) }) }

def hashOut (h out : Nat) : Nat := if h ≤ 7 then Config.digestLen h else out
def planHash (d : Dev) (c : Cmd) : SymPlan :=
  let h := pByte c 0; let out := pHalf c 2; let ml := pWord c 4
  { checks := symPre d c (stateU d) (parse c 8 [(1, 1)] [(ml, false)])
        (noKeyOwner c && decide (1 ≤ h) && decide (h ≤ 9) && (if h ≤ 7 then out == 0 else decide (1 ≤ out) && decide (out ≤ 1024))) (hashOut h out)
    res := hashOut h out
    build := fun d => (d, { rid := c.rid, kind := .hash h (hashOut h out) (pVar c 8 ml) }) }

def planKdf (d : Dev) (c : Cmd) : SymPlan :=
  let alg := pByte c 0; let t := byteAt c.params 1; let u := half c.params 2; let out := pHalf c 4
  let sl := pHalf c 6; let ll := pHalf c 8; let cl := pHalf c 10
  { checks := symPre d c (stateR d) (parse c 12 [] [(sl, false), (ll, false), (cl, false)])
        (decide (alg ≤ 1) && isSym t && storedLenOk t out && (alg == 1 || sl == 0) && decide (sl ≤ 128) && decide (ll ≤ 256) && decide (cl ≤ 256) &&
         !usageReserved u && !usageClash t u) 4 ++
      keyChecks d c c.key (fun t => t == 4 || t == 5) (some uDerive)
    quorum := useQuorum d c c.key
    resources := [rngCheck d, slotCheck d c]
    res := 4
    build := fun d =>
      let (d, k, s) := laneKey d c c.key
      let (slot, d) := match reserveSlot d c.issuer t u (c.owner.setWidth 8) with | some (x, d) => (x, d) | none => (0, d)
      (d, { rid := c.rid, key := k, usesSlots := s,
            kind := .kdf alg (pVar c 12 sl) (pVar c (12 + sl) ll) (pVar c (12 + sl + ll) cl) out slot }) }

/-- 17 R311: SYM_KW limits. -/
def kwValues (mode dir dl : Nat) : Bool :=
  match mode, dir with
  | 0, 0 => dl % 8 == 0 && decide (16 ≤ dl)
  | 1, 0 => decide (1 ≤ dl)
  | 0, 1 => dl % 8 == 0 && decide (24 ≤ dl)
  | 1, 1 => dl % 8 == 0 && decide (16 ≤ dl)
  | _, _ => false
def planKw (d : Dev) (c : Cmd) : SymPlan :=
  let mode := pByte c 0; let dir := pByte c 1; let dl := pWord c 4
  let n := if dir = 0 then Config.kwLen mode dl else dl - 8
  { checks := symPre d c (stateR d) (parse c 8 [(2, 2)] [(dl, false)]) (kwValues mode dir dl) n ++
      keyChecks d c c.key isAes (some (if dir = 0 then uWrap else uUnwrap))
    quorum := useQuorum d c c.key
    resources := [rngCheck d]
    res := n
    build := fun d =>
      let (d, k, s) := laneKey d c c.key
      (d, { rid := c.rid, key := k, usesSlots := s, kind := .kw mode dir (pVar c 8 dl) }) }

/-- SYM_RNG: one generate call (17 R316), when its lane serves it. -/
def planRng (d : Dev) (c : Cmd) : SymPlan :=
  let n := pWord c 0
  { checks := symPre d c (stateU d) (parse c 4) (noKeyOwner c && decide (1 ≤ n) && decide (n ≤ 4096)) n
    resources := [rngCheck d]
    res := n
    build := fun d => (d, { rid := c.rid, kind := .rng n }) }

def symPlan (d : Dev) (c : Cmd) : SymPlan :=
  if c.opcode = 0x0401 then planCipher d c
  else if c.opcode = 0x0402 then planMac d c
  else if c.opcode = 0x0403 then planHash d c
  else if c.opcode = 0x0404 then planKdf d c
  else if c.opcode = 0x0405 then planKw d c
  else planRng d c

/-- A command of class 0x04 on a lane: from its checks to the lane's start. -/
def runSym (d : Dev) (c : Cmd) : Dev :=
  let p := symPlan d c
  match firstFail p.checks with
  | some st => finish d c.rid st
  | none =>
    match (match p.quorum with | some o => quorumGate d c o | none => (d, none)) with
    | (d, some st) => finish d c.rid st
    | (d, none) =>
      match firstFail p.resources with
      | some st => finish d c.rid st
      | none =>
        match claimResult d c p.res with
        | none => endNoCells d c
        | some d =>
          if maskBad c then maskFault d else
          match laneFor d (hashLaned c) (issuerIdx c.issuer) with
          | none => finish d c.rid ST.busy
          | some l => let r := p.build { d with rng := d.rng + 1 }; setLanes r.1 (tset r.1.sym.lanes l { r.2 with payer := issuerIdx c.issuer, since := d.now })

/-- A command that finds no lane waits for one (17 R310). -/
def symStart (d : Dev) (c : Cmd) : Dev := if mustWait d c then { d with sym := { d.sym with wait := d.sym.wait ++ [c] } } else runSym d c

/-! ### The end of a lane's work -/

def macOf (alg : Nat) (k m : Bytes) : Bytes := if alg = 0 then Config.cmac k m else Config.hmac (macHash alg) k m
/-- 17 R315. -/
def kdfOut (alg : Nat) (k salt label ctx : Bytes) (out : Nat) : Bytes :=
  if alg = 0 then kdf108 k label ctx out else hkdfExpand (hkdfExtract salt k) (label ++ ctx) out

/-- Free the slot a command claimed and did not fill (13 R238). -/
def dropReserved (d : Dev) (s : Nat) : Dev :=
  match tget d.key.slots s with
  | some x => if x.reserved then freeSlot d s else d
  | none => d

/-- What a lane has computed: status and result, and a new key in its slot. A DRBG that has failed meanwhile gives no bits (17 R318). -/
def laneResult (d : Dev) (j : LaneJob) : Dev × Half × Bytes :=
  match j.kind with
  | .cipher mode dir k2 iv aad data tag =>
    if mode = 3 then
      if dir = 0 then (d, ST.ok, Config.gcmCt j.key iv aad data ++ Config.gcmTag j.key iv aad data)
      else match Config.gcmOpen j.key iv aad data tag with
        | some p => (d, ST.ok, p)
        | none => (authFailed d, ST.authFail, [])
    else (d, ST.ok, Config.aes mode dir j.key k2 iv data)
  | .macGen alg l m => (d, ST.ok, (macOf alg j.key m).take l)
  | .macVerify alg l m mac => (d, if (macOf alg j.key m).take l == mac then ST.ok else ST.verifyFail, [])
  | .hash h n m => (d, ST.ok, if h ≤ 7 then Config.hash h m else Config.xof h n m)
  | .kdf alg salt label ctx out slot =>
    if !drbgReady d then (dropReserved d slot, ST.rngFail, []) else
    let r := fillSlot d slot (kdfOut alg j.key salt label ctx out); (r.2, ST.ok, b4 r.1)
  | .rng n => if !drbgReady d then (d, ST.rngFail, []) else let r := draw d n; (r.2, ST.ok, r.1)
  | .kw mode dir data =>
    if dir = 0 then (d, ST.ok, Config.kwWrap mode j.key data)
    else match Config.kwUnwrap mode j.key data with
      | some x => (d, ST.ok, x.take (data.length - 8))
      | none => (authFailed d, ST.authFail, [])
  | .eddy => (d, ST.ok, [])

/-- 17 R314: the lane clears its key register; a slot unloaded meanwhile is cleared now (07 R133). -/
def laneDone (d : Dev) (l : Nat) : Dev :=
  match tget d.sym.lanes l with
  | none => d
  | some j =>
    let (d, st, r) := laneResult (chargeLane (setLanes d (tdel d.sym.lanes l)) l j.payer (d.now - j.since)) j
    finish (j.usesSlots.foldl endUse d) j.rid st r

/-- End a lane's work without a result (abort, island reset, wipe). -/
def laneAbort (d : Dev) (l : Nat) (st : Half) : Dev :=
  match tget d.sym.lanes l with
  | none => d
  | some j =>
    let d := chargeLane (setLanes d (tdel d.sym.lanes l)) l j.payer (d.now - j.since)
    let d := match j.kind with | .kdf _ _ _ _ _ s => dropReserved d s | _ => d
    finish (j.usesSlots.foldl endUse d) j.rid st

/-! ### Failure of random numbers: 17 R318, R319 -/

def rngCode : RngCause → Nat | .repetition => 1 | .adaptive => 2 | .startup => 3 | .kat => 4

/-- A failure of the source or the DRBG: FAILED, the third one PERM, Class D and the CRITICAL record. -/
def rngFail (d : Dev) (cause : RngCause) : Dev :=
  let n := min 15 (d.sym.rngFails.toNat + 1)
  let d := { d with sym := { d.sym with rngFailed := true, rngInst := false, rngFails := BitVec.ofNat 4 n,
                                        rngCause := BitVec.ofNat 3 (rngCode cause), rngPerm := d.sym.rngPerm || decide (3 ≤ n) } }
  let d := errD d 6 0 ST.rngFail
  logRec d (recCrit "SYM" ST.rngFail [rRngStatus d])

/-- 17 R316: a DRBG instance with its personalization string, from fresh entropy. -/
def instantiate (d : Dev) : Dev := { d with rng := d.rng + 1, sym := { d.sym with rngInst := true, rngFailed := false, generates := 0, reseedAt := d.now } }
/-- 17 R316: reseed between requests. -/
def reseed (d : Dev) : Dev :=
  if drbgReady d then { d with rng := d.rng + 1, sym := { d.sym with cntReseed := satInc d.sym.cntReseed, generates := 0, reseedAt := d.now } } else d
def execSymCipher (r : Request) (s : State) : Host.Outcome State Fault Refusal := onDev (fun d => command d 0x0401 r symStart) s
def execSymMac (r : Request) (s : State) : Host.Outcome State Fault Refusal := onDev (fun d => command d 0x0402 r symStart) s
def execHash (r : Request) (s : State) : Host.Outcome State Fault Refusal := onDev (fun d => command d 0x0403 r symStart) s
def execSymKdf (r : Request) (s : State) : Host.Outcome State Fault Refusal := onDev (fun d => command d 0x0404 r symStart) s
def execSymKw (r : Request) (s : State) : Host.Outcome State Fault Refusal := onDev (fun d => command d 0x0405 r symStart) s
def execSymRng (r : Request) (s : State) : Host.Outcome State Fault Refusal := onDev (fun d => command d 0x0406 r symStart) s
/-- 17 R318: a health-test failure in a running DRBG. -/
def execRngHealthFail (cause : RngCause) (s : State) : Host.Outcome State Fault Refusal := onDev (fun d => across d .sym fun d => if d.sym.rngInst then rngFail d cause else d) s
/-- 17 R316. -/
def execDrbgReseed (s : State) : Host.Outcome State Fault Refusal := onDev (fun d => across d .sym reseed) s

end Sys2Proof.Machine
end

