-- ==== Sys2Proof/Machine/OwnerCmd.lean ====
section
/-! DEFINITION. Class 0x05: owners and the quorum session (07 R124-R132, 08 R144-R148, 13 R250). -/

namespace Sys2Proof.Machine

def ownPre (d : Dev) (c : Cmd) (parsed : Option Half) (values : Bool) : List (Bool × Half) :=
  preChecks d c whoP (stateU d) parsed (noKey c && values) 0

/-- Quotas of every owner but `o` (07 R120). -/
def quotaSum (d : Dev) (o : Nat) : Nat := (d.key.owners.filter fun w => decide (w.1 ≠ o)).foldr (fun w a => w.2.aonQuota + a) 0

/-- 19 R354, R357: an action that writes a CRITICAL record before it proceeds. -/
def logGate (d : Dev) : List (Bool × Half) := [(d.evr.failed, ST.busy), (d.evr.critFull, ST.logFull)]

def runOwnerCreate (d : Dev) (c : Cmd) : Dev :=
  let o := c.owner.toNat
  let mode := byteAt c.params 0; let m := pByte c 1; let n := pByte c 2; let q := pByte c 3; let cap := pHalf c 4
  let checks :=
    [(policyBad c, ST.denied), (!listed whoP c.issuer, ST.denied), (!stateU d, ST.locked),
     (o == 0 && d.lc.state != 1 && d.lc.state != 2, ST.lcIllegal)] ++
    ownPre d c (parse c 8 [(6, 2)]) (decide (mode.toNat ≤ 1) && decide (1 ≤ m) && decide (m ≤ 5) && decide (m ≤ n) && decide (n ≤ 8)) ++
    [(fielded d && m == 1, ST.denied), ((ownerOf d o).isSome, ST.ownerBad)]
  runAtomic d c checks (if o = 0 then none else some 0) (fun d => [rngCheck d, (decide (64 < quotaSum d o + q), ST.slotQuota)]) 0 fun d =>
    let d := reseed d
    let (salt, d) := draw d 32
    let (sec, d) := draw d 48
    let d := setOwner d o { mode, salt, m, n, cap, aonQuota := q,
                            enrol := some { secret := sec, m, n, next := 1, creation := true, oldShares := [], since := d.now } }
    (saveTable d, ST.ok, [])

/-- 13 R250, 07 R133: the owner goes with its slots and bank slots. -/
def deleteOwner (d : Dev) (o : Nat) : Dev :=
  let d := unloadWhere d fun s => decide (s.owner.toNat = o)
  let d := d.key.bank.foldl (fun d e => if e.2.owner.toNat = o then unloadBank d e.1 else d) d
  saveTable { d with key := { d.key with owners := tdel d.key.owners o } }

def runOwnerDelete (d : Dev) (c : Cmd) : Dev :=
  let o := c.owner.toNat; let force := pByte c 0 == 1
  let checks := ownPre d c (parse c 4 [(1, 3)]) (decide (pByte c 0 ≤ 1)) ++ [(o == 0, ST.denied), ((ownerOf d o).isNone, ST.ownerBad)]
  if force then
    match firstFail (checks ++ logGate d) with
    | some st => finish d c.rid st
    | none =>
      match quorumGate d c 0 with
      | (d, some st) => finish d c.rid st
      | (d, none) =>
        let r := recCrit "KEY" 0x0004 [rOwnerInfo d o, (rOwnerStalls d o).setWidth 32, (rOwnerStalls d o >>> 32).setWidth 32]
        logRec d { r with after := .ownerDelete c.rid o }
  else runAtomic d c checks (some o) (fun _ => []) 0 fun d => (deleteOwner d o, ST.ok, [])

def boundCount (d : Dev) (n : Nat) : Nat := (d.key.owners.filter fun w => w.2.stalls.getLsbD n).length

def runOwnerBind (d : Dev) (c : Cmd) : Dev :=
  let o := c.owner.toNat; let n := pByte c 0
  let already := match ownerOf d o with | some w => w.stalls.getLsbD n | none => false
  runAtomic d c
    (ownPre d c (parse c 4 [(1, 3)]) (decide (n < 64)) ++
      [(o == 0, ST.denied), ((ownerOf d o).isNone, ST.ownerBad), (!already && decide (8 ≤ boundCount d n), ST.ownerBad)])
    (some o) (fun _ => []) 0 fun d =>
    match ownerOf d o with
    | some w => (saveTable (setOwner d o { w with stalls := w.stalls ||| BitVec.ofNat 64 (2 ^ n) }), ST.ok, [])
    | none => (d, ST.ownerBad, [])

def runOwnerUnbind (d : Dev) (c : Cmd) : Dev :=
  let o := c.owner.toNat; let n := pByte c 0
  runAtomic d c
    (ownPre d c (parse c 4 [(1, 3)]) (decide (n < 64)) ++ [(o == 0, ST.denied), ((ownerOf d o).isNone, ST.ownerBad)])
    (some o) (fun _ => []) 0 fun d =>
    match ownerOf d o with
    | some w =>
      let d := setOwner d o { w with stalls := w.stalls &&& ~~~BitVec.ofNat 64 (2 ^ n) }
      (saveTable (unloadWhere d fun s => decide (s.owner.toNat = o) && decide (s.charge = .stall n)), ST.ok, [])
    | none => (d, ST.ownerBad, [])

def runOwnerSetPolicy (d : Dev) (c : Cmd) : Dev :=
  let o := c.owner.toNat
  let m := pByte c 0; let n := pByte c 1; let q := pByte c 2; let re := pByte c 3 == 1; let win := pHalf c 4; let cap := pHalf c 6
  let changes := match ownerOf d o with | some w => m != w.m || n != w.n | none => false
  runAtomic d c
    (ownPre d c (parse c 8) (decide (pByte c 3 ≤ 1) && decide (1 ≤ m) && decide (m ≤ 5) && decide (m ≤ n) && decide (n ≤ 8) &&
        decide (10 ≤ win) && decide (win ≤ 600) && (re || !changes)) ++
      [((ownerOf d o).isNone, ST.ownerBad), (fielded d && m == 1, ST.denied)])
    (some o) (fun d => (if re then [rngCheck d] else []) ++ [(decide (64 < quotaSum d o + q), ST.slotQuota)]) 0 fun d =>
    match ownerOf d o with
    | none => (d, ST.ownerBad, [])
    | some w =>
      let w := { w with aonQuota := q, window := win, cap }
      if re then
        let (sec, d) := draw d 48
        (saveTable (setOwner d o { w with shares := [], enrol := some { secret := sec, m, n, next := 1, creation := false, oldShares := w.shares, since := d.now } }), ST.ok, [])
      else (saveTable (setOwner d o w), ST.ok, [])

/-- 08 R148: the session closes with its record. -/
def closeSession (d : Dev) (sub : Half) : Dev :=
  match d.crd.session with
  | none => d
  | some _ => signal (logRec { d with crd := { d.crd with session := none } } (recEvent "CRD" sub (b4 (rQStatus d)))) .pf 6

def runQuorumCancel (d : Dev) (c : Cmd) : Dev :=
  runAtomic d c (preChecks d c whoP (stateU d) (parse c 0) (noKeyOwner c) 0) none (fun _ => []) 0 fun d => (closeSession d 0x0202, ST.ok, [])

/-- 08 R144: an ISSUE exchange of an enrolment that has ended is abandoned. -/
def dropIssue (d : Dev) (o : Nat) : Dev :=
  let cut := fun c : CardSlot => if c.exch.any fun e => e.issue && e.owner == o then { c with exch := none, phase := .done } else c
  { d with crd := { d.crd with a := cut d.crd.a, b := cut d.crd.b } }

/-- 08 R144: the enrolment window has lapsed: a creation is undone, a re-issue leaves the old shares. -/
def lapseEnrolment (d : Dev) (o : Nat) : Dev :=
  match ownerOf d o with
  | none => d
  | some w =>
    match w.enrol with
    | none => d
    | some e =>
      let d := logRec (dropIssue d o) (recEvent "CRD" 0x0204 [BitVec.ofNat 8 o, BitVec.ofNat 8 e.next])
      if e.creation then deleteOwner d o else saveTable (setOwner d o { w with shares := e.oldShares, enrol := none })

def execOwnerCreate (r : Request) (s : State) : Host.Outcome State Fault Refusal := onDev (fun d => command d 0x0501 r runOwnerCreate) s
def execOwnerDelete (r : Request) (s : State) : Host.Outcome State Fault Refusal := onDev (fun d => command d 0x0502 r runOwnerDelete) s
def execOwnerBind (r : Request) (s : State) : Host.Outcome State Fault Refusal := onDev (fun d => command d 0x0503 r runOwnerBind) s
def execOwnerUnbind (r : Request) (s : State) : Host.Outcome State Fault Refusal := onDev (fun d => command d 0x0504 r runOwnerUnbind) s
def execOwnerSetPolicy (r : Request) (s : State) : Host.Outcome State Fault Refusal := onDev (fun d => command d 0x0505 r runOwnerSetPolicy) s
def execQuorumCancel (r : Request) (s : State) : Host.Outcome State Fault Refusal := onDev (fun d => command d 0x0507 r runQuorumCancel) s

/-- R148: the owner's window has run. -/
def windowOver (d : Dev) : Bool :=
  match d.crd.session with
  | some s => decide (s.since + (match tget d.key.owners s.owner with | some o => o.window | none => 0) * secondCycles ≤ d.now)
  | none => false
def execQuorumWindowExpire (s : State) : Host.Outcome State Fault Refusal := onDev (fun d => if windowOver d then closeSession d 0x0201 else d) s
/-- R144: the owner's quorum window since the previous card. -/
def enrolOver (d : Dev) (owner : Nat) : Bool :=
  match tget d.key.owners owner with
  | some o => (match o.enrol with | some e => decide (e.since + o.window * secondCycles ≤ d.now) | none => false)
  | none => false
def execEnrolmentWindowLapse (owner : Fin 256) (s : State) : Host.Outcome State Fault Refusal := onDev (fun d => if enrolOver d owner.val then lapseEnrolment d owner.val else d) s

end Sys2Proof.Machine
end

