-- ==== Sys2Proof/Machine/LogStore.lean ====
section
/-! DEFINITION. The Logbook as a store (19 R347-R357): room, loss, chaining, reading; LOG_APPEND, LOG_READ, LOG_STATUS (13 R251). -/

namespace Sys2Proof.Machine

def LogRec.len (r : LogRec) : Nat := r.bytes.length
def bytesOf (l : List LogRec) : Nat := l.foldr (fun r a => r.len + a) 0
def critBytes (l : List LogRec) : Nat := bytesOf (l.filter (·.crit))
def logCap : Nat := 16777216
def ringCap : Nat := 262144
/-- LEN of a LOSS record: 24, the subtype and 72 bytes. -/
def lossLen : Nat := 98
/-- Records present, oldest first. -/
def present (e : Evr) : List LogRec := e.log ++ e.ring

/-- Take non-critical records, oldest first, until `want` bytes are reached: what stays and what goes (R351). -/
def dropOldest : Nat → List LogRec → List LogRec × List LogRec
  | _, [] => ([], [])
  | want, r :: l =>
    if want = 0 || r.crit then let p := dropOldest want l; (r :: p.1, p.2)
    else let p := dropOldest (want - r.len) l; (p.1, r :: p.2)

/-- R351, R352: room for a record of `len` bytes: none where it does not fit, otherwise what stays and what is overwritten. How much more than the bytes needed is taken, up to 256 KiB, is free (log 15). -/
def makeRoom (recs : List LogRec) (cap len pick : Nat) : Option (List LogRec × List LogRec) :=
  if bytesOf recs + len ≤ cap then some (recs, [])
  else if critBytes recs + len + lossLen ≤ cap then some (dropOldest (len + lossLen + pick % 261121) recs)
  else none

/-- R347: the record as it is stored. -/
def recBytes (d : Dev) (r : Record) : Bytes :=
  leBytes 2 (24 + r.payload.length) ++ b2 r.rtype ++ [r.attr, 0, 0, 0] ++ stamp d ++ (chainC d).take 4 ++ r.payload

/-- R349, R353, R354: a record becomes visible. -/
def appendRec (d : Dev) (r : Record) (b : Bytes) : Dev :=
  let e := d.evr
  let c := Config.sha384 (chainC d ++ leBytes 8 e.head ++ b)
  let x : LogRec := { seq := e.head, bytes := b, crit := r.crit, attr := r.attr, chainAfter := c }
  let e := { e with log := if e.failed then e.log else e.log ++ [x], ring := if e.failed then e.ring ++ [x] else e.ring,
                    head := e.head + b.length, chain := some c,
                    cchain := if r.crit then some (Config.sha384 (chainK d ++ leBytes 8 e.head ++ b)) else e.cchain,
                    ncRefusing := e.ncRefusing && r.crit }
  let fresh := !e.critHigh && decide (15728640 ≤ critBytes e.log)
  let d := { d with evr := { e with critHigh := e.critHigh || fresh } }
  let d := if fresh then alert (signal d .pf 8) 2 else d
  if r.attr.toNat < 64 then modStall d r.attr.toNat fun s => { s with logUse := s.logUse + b.length } else d

/-- R353: the use of the stalls whose records were overwritten falls. -/
def dropUse (d : Dev) (l : List LogRec) : Dev :=
  l.foldl (fun d r => if r.counted && decide (r.attr.toNat < 64) then modStall d r.attr.toNat fun s => { s with logUse := s.logUse - r.len } else d) d

/-- R351: the LOSS record over the overwritten ones. -/
def lossRecord (l : List LogRec) : Record :=
  let first := (l.head?.map (·.seq)).getD 0
  let after := match l.getLast? with | some r => (r.seq + r.len, r.chainAfter) | none => (0, [])
  { rtype := 0x1001, attr := 0x7E, payload := b2 0 ++ leBytes 8 first ++ leBytes 4 l.length ++ leBytes 4 (bytesOf l) ++ leBytes 8 after.1 ++ Config.fit 48 after.2 }

/-- R343, R357: byte `b` of the Logbook stands at 0x50_0000 + `b` mod 27 MiB (log 38). -/
def logPlace (seq : Nat) : Nat := 0x500000 + seq % 28311552
/-- R344, R350: the flash program of a record; in the ring of R357 there is none. -/
def programRec (d : Dev) (place : Nat) (b : Bytes) : Dev := if d.evr.failed then d else programZone d place b

/-- R351-R353: the writer makes room for a record of `len` bytes, or none where it must refuse it. -/
def takeRoom (d : Dev) (len : Nat) : Option Dev :=
  let e := d.evr
  (makeRoom (if e.failed then e.ring else e.log) (if e.failed then ringCap else logCap) len (Config.freePick d.rng)).map fun p =>
    if p.2.isEmpty then d else
    let d := { d with rng := d.rng + 1, evr := { (if e.failed then { e with ring := p.1 } else { e with log := p.1 }) with
                        cntLost := BitVec.ofNat 32 (min 0xFFFFFFFF (e.cntLost.toNat + p.2.length)) } }
    let d := dropUse d p.2
    let r := lossRecord p.2
    let b := recBytes d r
    appendRec (programRec d (logPlace d.evr.head) b) r b

/-- R353: would a stall's record take its use above its share. -/
def overShare (d : Dev) (r : Record) : Bool :=
  decide (r.attr.toNat < 64) && decide (logShareOf d r.attr.toNat < (stall d r.attr.toNat).logUse + 24 + r.payload.length)

/-- R353: a removal or partition change sets the use to 0; the records remain. -/
def forgetUse (d : Dev) (n : Nat) : Dev :=
  let f := fun r : LogRec => if r.attr.toNat = n then { r with counted := false } else r
  modStall { d with evr := { d.evr with log := d.evr.log.map f, ring := d.evr.ring.map f } } n fun s => { s with logUse := 0 }

/-! ### Reading: R355, R356 -/

/-- Bytes present without a gap from position `p` on. -/
def runFrom : Nat → List LogRec → Bytes
  | _, [] => []
  | p, r :: l => if r.seq ≤ p && decide (p < r.seq + r.len) then r.bytes.drop (p - r.seq) ++ runFrom (r.seq + r.len) l else []

/-- FIRST, NEXT and the unpadded window at cursor `c`. -/
def logWindow (e : Evr) (c : Nat) : Nat × Nat × Bytes :=
  match (present e).dropWhile fun r => decide (r.seq + r.len ≤ c) with
  | [] => (e.head, e.head, [])
  | r :: l =>
    let first := max c r.seq
    let w := (runFrom first (r :: l)).take 256
    (first, first + w.length, w)

def notOpen (d : Dev) : List (Bool × Half) := [(!d.evr.isOpen, ST.busy)]

def runLogRead (d : Dev) (c : Cmd) : Dev :=
  let cur := leAt c.params 0 8
  runAtomic d c (preChecks d c whoPM true (parse c 8) (noKeyOwner c) 272) none notOpen 272 fun d =>
    let w := logWindow d.evr cur
    let win := Config.fit 256 w.2.2
    let d := if c.issuer == .pf then { d with evr := { d.evr with first := w.1, next := w.2.1, window := win } } else d
    (d, ST.ok, leBytes 8 w.1 ++ leBytes 8 w.2.1 ++ win)

def logStatus (d : Dev) : Bytes :=
  let l := present d.evr
  leBytes 8 ((l.head?.map (·.seq)).getD d.evr.head) ++ leBytes 8 d.evr.head ++ leBytes 4 (bytesOf l) ++ leBytes 4 (critBytes l) ++
  b4 d.evr.cntLost ++ b4 d.evr.cntRefused
def runLogStatus (d : Dev) (c : Cmd) : Dev :=
  runAtomic d c (preChecks d c whoPM true (parse c 0) (noKeyOwner c) 32) none notOpen 32 fun d => (d, ST.ok, logStatus d)

/-- 13 R251: LOG_APPEND; it completes once its record is written (R350). -/
def runLogAppend (d : Dev) (c : Cmd) : Dev :=
  let t := half c.params 0; let l := pWord c 4
  match firstFail (preChecks d c whoPV (stateU d) (parse c 8 [(2, 2)] [(l, false)])
      (noKeyOwner c && decide (t.toNat ≤ 0x0FFF) && decide (1 ≤ l) && decide (l ≤ 960)) 8 ++ notOpen d) with
  | some st => finish d c.rid st
  | none =>
    match claimResult d c 8 with
    | none => endNoCells d c
    | some d => logRec d { rtype := t, attr := BitVec.ofNat 8 (issuerCode c.issuer), payload := pVar c 8 l, after := .complete c.rid ST.ok true }

def execLogAppend (r : Request) (s : State) : Host.Outcome State Fault Refusal := onDev (fun d => command d 0x0604 r runLogAppend) s
def execLogRead (r : Request) (s : State) : Host.Outcome State Fault Refusal := onDev (fun d => command d 0x0605 r runLogRead) s
def execLogStatus (r : Request) (s : State) : Host.Outcome State Fault Refusal := onDev (fun d => command d 0x0606 r runLogStatus) s

end Sys2Proof.Machine
end

