-- ==== Sys2Proof/Machine/EngineCore.lean ====
section
/-! DEFINITION. Stopping an engine and clearing it (16 R304-R308), loading and unloading the root (07 R121, 03 R48). -/

namespace Sys2Proof.Machine

def setEng (d : Dev) (e : Nat) (p : Pke) : Dev := { d with pke := tset d.pke e p }
def engName (e : Nat) : String := if e = 0 then "PKE0" else if e = 1 then "PKE1" else if e = 2 then "PKE2" else "PKE3"

/-- 16 R304: every word of operand memory and every accumulator limb is zero. -/
def clearEngine (d : Dev) (e : Nat) : Dev := setEng d e { eng d e with mem := [], acc := 0 }

/-- 06 R100, 16 R303: an engine's interrupt goes to its owner world. -/
def engIrq (d : Dev) (e : Nat) : Dev := if engSecure d e then raiseSecure d (18 + e) else raiseNormal d (18 + e)

/-- 16 R305: a word that reads back non-zero after the clearing. -/
def readbackFault (d : Dev) (e : Nat) : Dev := errF d ST.engineFault (rPkeStatus d e) (BitVec.ofNat 32 (0x34000000 + 0x10000 * e))

/-- Report on the TAP status register (04 R66, 05 R89). -/
def tapReport (d : Dev) (st : Half) (bytes : Bytes := []) : Dev := emit { d with dbg := { d.dbg with tapStatus := st } } (.tap st bytes)

/-- A card exchange is abandoned, with its ephemeral key. -/
def dropExchange (d : Dev) (b : Bool) (i : Nat) : Dev :=
  let cut := fun c : CardSlot => if c.exch.any fun e => e.id == i then { c with exch := none, phase := .done } else c
  if b then { d with crd := { d.crd with b := cut d.crd.b } } else { d with crd := { d.crd with a := cut d.crd.a } }
/-- What secure-world work leaves when its engine is stopped (16 R304): the request of a certificate check ends with ST_ABORTED, a card exchange is abandoned with nothing counted, a seal waits for an engine again, a co-signature is not answered (log 16). A check that a reset has cut is no longer live and reports nothing (04 R67). -/
def cutSecure (d : Dev) (o : PkeOp) : Dev :=
  match o.kind with
  | .dbgCert _ viaTap =>
    let live := d.dbg.checking
    let d := { d with dbg := { d.dbg with checking := false, nonce := none } }
    if viaTap && live then tapReport d ST.aborted else d
  | .cardKey b i => dropExchange d b i
  | .cardExchange b i => dropExchange d b i
  | .sealSign => { d with pkeWait := .secure o :: d.pkeWait }
  | _ => d

/-- The key slot an operation claimed and has not filled (13 R238). -/
def reservedOf : PkeKind → Option Nat
  | .genKey s _ _ => some s
  | .encaps _ _ s => some s
  | .decaps _ _ s => some s
  | .agree _ _ _ _ s => some s
  | _ => none

/-- An operation has ended without a result: what it claimed and used goes back, its request ends with ST_ABORTED. -/
def dropOp (d : Dev) (o : PkeOp) : Dev :=
  let d := match reservedOf o.kind with | some s => dropReserved d s | none => d
  let d := match o.usesSlot with | some s => endUse d s | none => d
  let d := cutSecure d o
  match o.rid with | some r => finish d r ST.aborted | none => d

/-- The engine stops at once and discards what it has not written; its unit stays issued until clearing has finished. -/
def startAbort (d : Dev) (e : Nat) : Dev :=
  let p := eng d e
  match p.op with
  | none => setEng d e { p with aborting := true, mem := [], acc := 0 }
  | some o => setEng d e { p with op := none, aborting := true, stopped := some o, stoppedAt := d.now, mem := [], acc := 0 }

/-- Clearing has finished: ABORTED is set, the PKE slot is retired and the request ends; a word that does not read back as zero is a Class F error (16 R305). -/
def finishAbort (d : Dev) (e : Nat) (zeroed : Bool) : Dev :=
  let p := eng d e
  if !p.aborting then d else
  let d := ldgDrain (setEng d e { p with aborting := false, stopped := none, irqAborted := true, cntAborts := if p.stopped.isSome then satInc p.cntAborts else p.cntAborts }) 2 (H.engine e)
  let d := engIrq d e
  let d := match p.stopped with | some o => dropOp d o | none => d
  if zeroed then d else readbackFault d e

/-- Abort and clearing in one, for a reset that waits for both. -/
def stopEngine (d : Dev) (e : Nat) : Dev := if (eng d e).op.isNone && !(eng d e).aborting then clearEngine d e else finishAbort (startAbort d e) e true
def stopEngines (d : Dev) : Dev := engines.foldl stopEngine d

/-! ### The root: 04 R55, 07 R121 -/

/-- 07 R121: the record as wafer test leaves it: the secret, and the first 16 bytes of SHA-384 over it and DEVICE_ID. -/
def rootCheck (secret : Bytes) : Bytes := (Config.sha384 (secret ++ Config.deviceId)).take 16
def rootBytes (k : Nat) : Bytes := Config.rootSecret k ++ rootCheck (Config.rootSecret k)
def rootWord (r : RootRec) (k i : Nat) : Word := if r.erased.getLsbD i then 0xFFFFFFFF else word (rootBytes k) (4 * i) ||| tgetD r.marks i 0
def rootRead (r : RootRec) (k : Nat) : Bytes := (List.range 16).flatMap fun i => b4 (rootWord r k i)
/-- 04 R56: 0 intact, 1 erased (all ones), 2 corrupt. A record that nothing has programmed since wafer test reads intact; any other by its check value. -/
def rootStatus (d : Dev) (k : Nat) : Nat :=
  let r := tgetD d.otp.roots k {}
  if r.erased = 0xFFFF then 1 else if r.erased = 0 && r.marks.isEmpty then 0
  else if (List.range 16).all fun i => rootWord r k i == 0xFFFFFFFF then 1
  else if (rootRead r k).drop 48 == rootCheck ((rootRead r k).take 48) then 0 else 2
/-- The root the state selects, by its code in KEY.STATUS. -/
def rootOfState (s : Byte) : Nat := if 1 ≤ s.toNat && s.toNat ≤ 4 then s.toNat else 0

def unloadRoot (d : Dev) : Dev := { d with key := { d.key with root := 0 } }
/-- Load the root, unless R48, R73, R81 or R164 holds it back. -/
def loadRoot (d : Dev) : Dev :=
  let k := rootOfState d.lc.state
  if k = 0 || rootStatus d (k - 1) != 0 || d.key.grantLock || d.tmp.hold then { d with key := { d.key with root := 0, rootWait := false } }
  else if !d.glb.rsvOk then { d with key := { d.key with root := 0, rootWait := true } }
  else { d with key := { d.key with root := k, rootWait := false } }

/-- 07 R127, R135: open the copy of the owner table whose seal checks under the loaded root; the other is erased. `sealOk` is what the flash gives. -/
def tableChecks (d : Dev) (t : OwnerTable) : Bool := (sealTable (tableKey (rootIndex d) (lcByte d)) t.iv t.owners).tag == t.tag
/-- 07 R127: a transition that a cut has completed: every one but that to FIELDED clears the owner table. -/
def clearCarried (d : Dev) : Dev :=
  match d.lc.completionOpen with
  | some t => if d.lc.state == t && t != 3 then { d with ps := { d.ps with ownerTable := none, ownerTable2 := none } } else d
  | none => d
def openTable (d : Dev) (sealOk : Bool) : Dev :=
  let bad := fun d : Dev => logRec { d with key := { d.key with owners := [], tableBad := true } } (recCrit "KEY" ST.authFail [rKeyStatus d])
  match d.ps.ownerTable, d.ps.ownerTable2 with
  | none, none => { d with key := { d.key with owners := [], tableBad := false } }
  | a, b =>
    if d.key.root = 0 then { d with key := { d.key with owners := [], tableBad := false } } else
    match (a.toList ++ b.toList).find? fun t => sealOk && tableChecks d t with
    | some t => { d with key := { d.key with owners := t.owners, tableBad := false }, ps := { d.ps with ownerTable := some t, ownerTable2 := none } }
    | none => bad d

end Sys2Proof.Machine
end

