-- ==== Sys2Proof/Machine/LifeCycle.lean ====
section
/-! DEFINITION. The life cycle (04 R55-R68, R76): the decode of the OTP partition, transitions word by word, cuts, test-unlock tokens. -/

namespace Sys2Proof.Machine

/-! ### Decode: 04 R57, R76 -/

def pattern (h : Nat) : Half :=
  match h with | 0 => 0x5A69 | 1 => 0x96A5 | 2 => 0x3C4B | 3 => 0xA5C3 | 4 => 0x693C | _ => 0
def codeHalf (d : Dev) (h : Nat) : Half := tgetD d.otp.code h 0
def intentSlot (d : Dev) (k : Nat) : Half := tgetD d.otp.intent k 0
/-- 04 R57: the four values of an intent slot. -/
def intentValue (t : Byte) : Half := if t == 2 then 0xFD02 else if t == 3 then 0xFC03 else if t == 4 then 0xFB04 else if t == 5 then 0xFA05 else 0
def intentTarget (v : Half) : Option Byte :=
  if v = 0xFD02 then some 2 else if v = 0xFC03 then some 3 else if v = 0xFB04 then some 4 else if v = 0xFA05 then some 5 else none

def halves : List Nat := [0, 1, 2, 3, 4, 5]
/-- The state LC_CODE spells, none where a half-word is torn or the mix is no state. -/
def codeState (d : Dev) : Option Byte :=
  let w := fun h => codeHalf d h == pattern h && h != 5
  if !(halves.all fun h => codeHalf d h == 0 || w h) then none
  else if w 4 then some 5
  else if w 0 && !w 1 && !w 2 && !w 3 then some 1
  else if w 0 && w 1 && !w 2 && !w 3 then some 2
  else if w 0 && w 1 && w 2 && !w 3 then some 3
  else if w 0 && w 1 && w 2 && w 3 then some 4
  else if !w 0 && !w 1 && !w 2 && !w 3 then some 0xE0
  else none
/-- Roots erased in each state; the others are intact. -/
def erasedIn (s : Byte) : Nat := if s == 5 then 4 else s.toNat - 1
def rootsMatch (d : Dev) (s : Byte) : Bool :=
  decide (1 ≤ s.toNat) && decide (s.toNat ≤ 5) && ([0, 1, 2, 3].all fun k => rootStatus d k == if k < erasedIn s then 1 else 0)
/-- Half-words that state `t` has written, as its code. -/
def codeOf (t : Byte) (h : Nat) : Half := if h < t.toNat then pattern h else 0

def slots8 : List Nat := [0, 1, 2, 3, 4, 5, 6, 7]
/-- Highest-numbered valid slot and its target. -/
def topIntent (d : Dev) : Option (Nat × Byte) :=
  slots8.foldl (fun a k => match intentTarget (intentSlot d k) with | some t => some (k, t) | none => a) none
def tornAbove (d : Dev) (k : Nat) : Bool := slots8.any fun j => decide (k ≤ j) && intentSlot d j != 0 && (intentTarget (intentSlot d j)).isNone

/-- State, resumable, TARGET. -/
def decodeLc (d : Dev) : Byte × Bool × Byte :=
  let top := topIntent d
  let t : Byte := match top with | some x => x.2 | none => 1
  let torn := tornAbove d (match top with | some x => x.1 + 1 | none => 0)
  let c := codeState d
  if (halves.all fun h => codeHalf d h == 0) && (slots8.all fun k => intentSlot d k == 0) then (0xE0, false, 0)
  else if torn && !(match c with | some s => rootsMatch d s | none => false) then (0xEE, false, 0)
  else if c == some t && rootsMatch d t then (t, false, 0)
  else if (t == 2 || t == 3) && (halves.all fun h => codeHalf d h &&& ~~~codeOf t h == 0) then (0xEE, true, t)
  else (0xEE, false, 0)

/-- The device adopts the decode at once (04 R60). -/
def adoptDecode (d : Dev) : Dev :=
  let r := decodeLc d
  { d with lc := { d.lc with state := r.1, base := r.1, resumable := r.2.1, target := r.2.2 } }

/-! ### Writes of a transition: 04 R58 -/

def eraseRoot (k : Nat) : List OtpWrite := (List.range 16).map (.rootWord k)
def writesFor (d : Dev) (target : Byte) : List OtpWrite :=
  if target == 2 then .half 1 :: eraseRoot 0
  else if target == 3 then .half 2 :: eraseRoot 1
  else if target == 4 then
    (if d.lc.state == 2 then eraseRoot 1 ++ eraseRoot 2 ++ [.half 3, .half 2] else eraseRoot 2 ++ [.half 3])
  else [0, 1, 2, 3].flatMap eraseRoot ++ [.half 4]
/-- 04 R60: does the word already hold its target. -/
def holds (d : Dev) (w : OtpWrite) : Bool :=
  match w with
  | .intent k v => intentSlot d k == v
  | .half h => codeHalf d h == pattern h
  | .rootWord r i => let x := tgetD d.otp.roots r {}; x.erased.getLsbD i || ((tget x.marks i).isSome && rootWord x r i == 0xFFFFFFFF)
/-- The next blank intent slot: the lowest above every used one. -/
def blankSlot (d : Dev) : Option Nat :=
  let used := slots8.foldl (fun a k => if intentSlot d k != 0 then k + 1 else a) 0
  if used < 8 then some used else none

def setIntent (d : Dev) (k : Nat) (v : Half) : Dev := { d with otp := { d.otp with intent := tset d.otp.intent k v } }
def setHalf (d : Dev) (h : Nat) (v : Half) : Dev := { d with otp := { d.otp with code := tset d.otp.code h v } }
def setRootRec (d : Dev) (k : Nat) (r : RootRec) : Dev := { d with otp := { d.otp with roots := tset d.otp.roots k r } }
/-- A word programmed whole. -/
def program (d : Dev) (w : OtpWrite) : Dev :=
  match w with
  | .intent k v => setIntent d k v
  | .half h => setHalf d h (pattern h)
  | .rootWord r i => let x := tgetD d.otp.roots r {}; setRootRec d r { x with erased := x.erased ||| BitVec.ofNat 16 (2 ^ i) }

/-- Any subset of the bits still to be written: FREE (log 17). -/
def subset (d : Dev) (old target : Half) : Half := old ||| (target &&& half (Config.fit 2 (Config.freeBytes d.rng 2)) 0)
/-- Some bits of a word of a root record are programmed: FREE which; not all of them where `short` says that the word did not read back. -/
def markWord (d : Dev) (r i : Nat) (short : Bool) : Dev :=
  let x := tgetD d.otp.roots r {}
  let y := { x with marks := tset x.marks i (tgetD x.marks i 0 ||| word (Config.fit 4 (Config.freeBytes d.rng 4)) 0) }
  setRootRec d r { x with marks := if short && rootWord y r i == 0xFFFFFFFF then x.marks else y.marks }
/-- A program that did not read back: the word is unchanged or partly programmed (04 R60). -/
def programPartly (d : Dev) (w : OtpWrite) : Dev :=
  let part := fun old target => if subset d old target = target then old else subset d old target
  let d' := match w with
    | .intent k v => setIntent d k (part (intentSlot d k) v)
    | .half h => setHalf d h (part (codeHalf d h) (pattern h))
    | .rootWord r i => markWord d r i true
  { d' with rng := d.rng + 1 }
/-- A cut during a word: any subset of its bits, from none to all (04 R57). -/
def programCut (d : Dev) (w : OtpWrite) : Dev :=
  let d' := match w with
    | .intent k v => setIntent d k (subset d (intentSlot d k) v)
    | .half h => setHalf d h (subset d (codeHalf d h) (pattern h))
    | .rootWord r i => markWord d r i false
  { d' with rng := d.rng + 1 }

/-- 04 R61: a reset or a loss of VMAIN stops a transition. -/
def cutTransition (d : Dev) : Dev :=
  match d.lc.job with
  | none => d
  | some j =>
    let d := match j.started, j.writes with | true, w :: _ => programCut d w | _, _ => d
    { d with lc := { d.lc with job := none } }

/-! ### Records of the life cycle -/

def recLifecycle (d : Dev) (sub : Half) (target : Byte) (after : After := .nothing) : Record := devRec 0x9003 sub (target :: b4 (rLcState d)) after

/-! ### The commands -/

def anyStall (d : Dev) : Bool := d.stl.stalls.any fun s => s.2.st != .disabled
def legalMove (s t : Byte) : Bool :=
  (s == 1 && (t == 2 || t == 5)) || (s == 2 && (t == 3 || t == 4 || t == 5)) || (s == 3 && (t == 4 || t == 5)) || (s == 4 && t == 5)
/-- Rows of R58 that name owner 0 or its custodians. -/
def needsCustodians (s t : Byte) : Bool := (s == 2 && t == 3) || s == 3

/-- 04 R60 step 1: the job stands and its CRITICAL record goes to the writer. -/
def beginTransition (d : Dev) (rid : Nat) (target : Byte) (writes : List OtpWrite) : Dev :=
  let d := { d with lc := { d.lc with job := some { rid, target, writes } } }
  logRec d (recLifecycle d 0x0001 target .lcStart)

/-- 13 R253, 04 R59. -/
def runLcTransition (d : Dev) (c : Cmd) : Dev :=
  let t := byteAt c.params 0
  let cust := needsCustodians d.lc.state t
  let checks := preChecks d c whoP (stateU d) (parse c 4 [(1, 3)]) (noKeyOwner c) 0 ++
    [(!legalMove d.lc.state t, ST.lcIllegal),
     (d.lc.job.isSome || anyStall d || !d.glb.rsvOk || (blankSlot d).isNone, ST.busy),
     (d.dbg.rights.getLsbD 3 || d.dbg.rights.getLsbD 4, ST.denied),
     (cust && (ownerOf d 0).isNone, ST.ownerBad),
     (d.lc.state == 2 && t == 3 && (match ownerOf d 0 with | some w => decide (w.m < 2) | none => false), ST.denied)] ++ logGate d
  match firstFail checks with
  | some st => finish d c.rid st
  | none =>
    match quorumIf cust d c 0 with
    | (d, some st) => finish d c.rid st
    | (d, none) =>
      match blankSlot d with
      | none => finish d c.rid ST.busy
      | some k => beginTransition d c.rid t (.intent k (intentValue t) :: writesFor d t)

/-- 04 R63. The state of 13 R253, resumable LOCKED, is step 3 of 13 R236: in permanent LOCKED the command ends with ST_LC_ILLEGAL, as 13 R253 says, and not with the ST_LOCKED of R64 (log 87). -/
def runLcResume (d : Dev) (c : Cmd) : Dev :=
  let t := byteAt c.params 0
  let checks := [(policyBad c, ST.denied), (!listed whoP c.issuer, ST.denied), (!d.lc.resumable, ST.lcIllegal)] ++
    preChecks d c whoP true (parse c 4 [(1, 3)]) (noKeyOwner c) 0 ++ [(t != d.lc.target, ST.lcIllegal), (d.lc.job.isSome, ST.busy)] ++ logGate d
  match firstFail checks with
  | some st => finish d c.rid st
  | none => beginTransition d c.rid t (writesFor d t)

/-- Leave out the words that already hold their target (04 R60 step 3). -/
def nextWrites (d : Dev) (l : List OtpWrite) : List OtpWrite := l.dropWhile (holds d)

/-- 05 R88: a grant that ends without a reset releases its processors and clears its breakpoints. -/
def endGrant (d : Dev) : Dev :=
  let had := d.dbg.grant != 0
  let payload := b4 d.dbg.serial ++ [d.dbg.rights.setWidth 8]
  let d := ldgDrain { d with dbg := { d.dbg with grant := 0, rights := 0, standing := false, nonce := none, halted := [], breakpoints := 0, scanned := false },
                             key := { d.key with grantLock := false } } 5 H.grant
  if had then logRec d (devRec 0x9007 0x0002 payload) else d

/-- 07 R127: what becomes of the owner table at a completed transition. -/
def carryOwners (d : Dev) (target : Byte) : Dev :=
  if target == 3 then let t := openTable d true; if t.key.tableBad then t else { t with key := { t.key with owners := d.key.owners } }
  else { d with key := { d.key with owners := [], tableBad := false }, ps := { d.ps with ownerTable := none, ownerTable2 := none } }

/-- 04 R60 steps 5 to 8; a state in which no grant can stand ends one (05 R80). -/
def endTransition (d : Dev) (j : LcJob) (failed : Bool) : Dev :=
  let d := adoptDecode d
  if failed then
    let d := if d.lc.state == 0xEE then endGrant (unloadRoot d) else d
    let d := { d with lc := { d.lc with job := none, completionOpen := none } }
    logRec d (recLifecycle d ST.otpFail j.target (.complete j.rid ST.otpFail false))
  else if d.lc.state != j.target then
    let d := endGrant (unloadRoot { d with lc := { d.lc with job := none, completionOpen := none } })
    logRec d (recLifecycle d ST.locked j.target (.complete j.rid ST.locked false))
  else
    let d := clearBank (clearSlots d)
    let d := endGrant d
    let d := carryOwners (loadRoot { d with lc := { d.lc with job := some j } }) j.target
    logRec d (recLifecycle d 0x0002 j.target (.lcDone j.rid))

/-- Go on with the next word, or end. -/
def advance (d : Dev) (j : LcJob) : Dev :=
  match nextWrites d j.writes with
  | [] => endTransition d { j with writes := [] } false
  | l => { d with lc := { d.lc with job := some { j with writes := l, retries := 0 } } }

/-- The CRITICAL record of step 1 is written: the writes begin. Before the intent slot of a transition to FIELDED the second copy of the owner table is sealed (07 R127). -/
def lcStart (d : Dev) : Dev :=
  match d.lc.job with
  | none => d
  | some j =>
    let t := sealOwners (tableKey 2 3) (tableNonce d) d.key.owners
    let d := if j.target == 3 && d.lc.state == 2 then
        programZone { d with rng := d.rng + 1, ps := { d.ps with ownerTable2 := some t } } 0x30000 (t.iv ++ t.cipher ++ t.tag) else d
    let j := { j with started := true }
    advance { d with lc := { d.lc with job := some j, completionOpen := some j.target } } j

/-- The completion record is written. -/
def lcDone (d : Dev) (rid : Nat) : Dev := finish { d with lc := { d.lc with job := none, completionOpen := none } } rid ST.ok

/-- 04 R60 steps 3 and 4: a word has been programmed and read back. -/
def otpWordDone (d : Dev) (ok : Bool) : Dev :=
  match d.lc.job with
  | none => d
  | some j =>
    match j.started, j.writes with
    | true, w :: rest =>
      if ok then advance (program d w) { j with writes := rest }
      else
        let d := programPartly d w
        if j.retries < 3 then { d with lc := { d.lc with job := some { j with retries := j.retries + 1 } } }
        else endTransition d j true
    | _, _ => d

def execLcTransition (r : Request) (s : State) : Host.Outcome State Fault Refusal := onDev (fun d => command d 0x0802 r runLcTransition) s
def execLcResume (r : Request) (s : State) : Host.Outcome State Fault Refusal := onDev (fun d => command d 0x0803 r runLcResume) s
def execOtpWordWriteDone (readsBack : Bool) (s : State) : Host.Outcome State Fault Refusal := onDev (fun d => otpWordDone d readsBack) s

/-! ### Test-unlock tokens: 04 R65-R67 -/

def mainState (d : Dev) : Bool := decide (1 ≤ d.lc.state.toNat) && decide (d.lc.state.toNat ≤ 5)
def testAllowed (s : Byte) (n : Nat) : Bool := s == 4 || (s == 1 && n != 7)
def powered (d : Dev) : Bool := match d.glb.power with | .vault => false | .off => false | _ => true
def asleep (d : Dev) : Bool := d.glb.power == .standby
def tokenUsed (d : Dev) (n i : Nat) : Bool := (tgetD d.otp.tokenUsed n 0).getLsbD i

def endToken (d : Dev) (st : Half) : Dev := tapReport (ldgDrain { d with dbg := { d.dbg with token := none } } 5 H.token) st
/-- A presentation issues one unit of pool 5 (R74). It is rejected at once, or its checks of 10 ms each begin. One that meets another is turned away with ST_BUSY and is none itself; the refusal of 19 R354 and R357 comes before the checks (log 39, log 46). -/
def presentToken (d : Dev) (token : Bytes) (i n : Nat) : Dev :=
  if !powered d then d else
  if asleep d then tapReport d ST.dbgAsleep else
  if d.dbg.token.isSome then tapReport d ST.busy else
  let d := ldgIssue d 5 H.token 1
  match firstFail ([(lcLocked d, ST.locked), (decide (8 ≤ d.dbg.tokenFails.toNat), ST.tokenBad), (d.dbg.grant != 0, ST.denied)] ++ logGate d) with
  | some st => endToken d st
  | none => { d with dbg := { d.dbg with token := some { token := Config.fit 16 token, index := i, state := n } } }
def failToken (d : Dev) (st : Half) : Dev :=
  endToken { d with dbg := { d.dbg with tokenFails := BitVec.ofNat 4 (min 8 (d.dbg.tokenFails.toNat + 1)) } } st

/-- 04 R66: the three checks in order. -/
def tokenChecks (d : Dev) (t : TokenCheck) : List (Bool × Half) :=
  [(!mainState d || !testAllowed d.lc.state t.state, ST.lcIllegal),
   (tokenUsed d t.state t.index, ST.tokenUsed),
   ((Config.sha384 (t.token ++ Config.deviceId ++ [BitVec.ofNat 8 t.state, BitVec.ofNat 8 t.index])).take 16 != Config.tokenHash t.state t.index, ST.tokenBad)]
/-- Where the state or a grant has changed under a presentation: it ends, not counted (log 46). -/
def tokenBarred (d : Dev) (t : TokenCheck) : Option Half :=
  firstFail [(lcLocked d, ST.locked), (d.dbg.grant != 0, ST.denied), (t.passed && (!mainState d || !testAllowed d.lc.state t.state), ST.lcIllegal)]

/-- 04 R65, R66: the token is consumed and the TEST state entered. -/
def enterTest (d : Dev) : Dev :=
  match d.dbg.token with
  | none => d
  | some t =>
    match tokenBarred d t with
    | some st => endToken d st
    | none =>
    let d := { d with otp := { d.otp with tokenUsed := tset d.otp.tokenUsed t.state (tgetD d.otp.tokenUsed t.state 0 ||| BitVec.ofNat 32 (2 ^ t.index)) } }
    let d := unloadRoot (stopEngines (clearBank (clearSlots d)))
    endToken { d with lc := { d.lc with state := BitVec.ofNat 8 (0x10 + t.state) } } ST.ok

/-- 19 R350, R454: the record, then the action; before the Logbook opens the record is kept and the action runs at once. -/
def logThen (d : Dev) (r : Record) (act : Dev → Dev) : Dev := if d.evr.isOpen then logRec d r else act (logRec d r)
def tokenDone (d : Dev) : Dev :=
  match d.dbg.token with
  | none => d
  | some t =>
    if t.passed then d else
    match tokenBarred d t with
    | some st => endToken d st
    | none =>
    match firstFail (tokenChecks d t) with
    | some st => failToken d st
    | none => logThen { d with dbg := { d.dbg with token := some { t with passed := true } } }
                (devRec 0x9007 0x0003 [BitVec.ofNat 8 t.state, BitVec.ofNat 8 t.index] .tokenEnter) enterTest

/-- 04 R67: a reset or a loss of supply ends a presentation without a result. Once its checks have passed, the programming of its TOKEN_USED bit may have begun: whether the bit reads as programmed is free. -/
def cutToken (d : Dev) : Dev :=
  match d.dbg.token with
  | none => d
  | some t =>
    let used := tgetD d.otp.tokenUsed t.state 0 ||| (if t.passed && decide (Config.freePick d.rng % 2 = 1) then BitVec.ofNat 32 (2 ^ t.index) else 0)
    { d with rng := d.rng + 1, dbg := { d.dbg with token := none },
             otp := { d.otp with tokenUsed := if used = 0 then d.otp.tokenUsed else tset d.otp.tokenUsed t.state used } }

def execTokenCheckDone (s : State) : Host.Outcome State Fault Refusal := onDev tokenDone s

end Sys2Proof.Machine
end

