-- ==== Sys2Proof/Machine/Debug.lean ====
section
/-! DEFINITION. Debug challenge, certificate and grant (04 R69-R74), internal scan (05 R81), the TAP and its boundary scan (05 R83). -/

namespace Sys2Proof.Machine

/-! ### Challenge: 04 R69 -/

def challengeBytes (d : Dev) (nonce : Bytes) : Bytes := b2 0xD801 ++ [d.lc.state, 0] ++ b4 d.glb.pcc ++ Config.deviceId ++ nonce ++ zeros 8
/-- A fresh nonce voids the one before. -/
def newChallenge (d : Dev) : Bytes × Dev :=
  let (n, d) := draw d 32
  (challengeBytes d n, { d with dbg := { d.dbg with nonce := some n } })

def runDbgChallenge (d : Dev) (c : Cmd) : Dev :=
  runAtomic d c (preChecks d c whoP (stateU d) (parse c 0) (noKeyOwner c) 64 ++ [(d.lc.job.isSome, ST.busy)]) none (fun d => [rngCheck d]) 64
    fun d => let r := newChallenge d; (r.2, ST.ok, r.1)

/-- 04 R69, 05 R85: the TAP instruction. -/
def tapChallenge (d : Dev) : Dev :=
  if !powered d then d else
  match firstFail [(asleep d, ST.dbgAsleep), (lcLocked d, ST.locked), (d.lc.job.isSome, ST.busy), rngCheck d] with
  | some st => tapReport d st
  | none => let r := newChallenge d; tapReport r.2 ST.ok r.1

/-! ### Certificate: 04 R70, R71 -/

def certRights (b : Bytes) : Byte := byteAt b 2
def certFlags (b : Bytes) : Byte := byteAt b 3
def certKey (b : Bytes) : Nat := if (certFlags b).getLsbD 1 then 1 else 0
def certNonce (b : Bytes) : Bytes := slice b 28 32
def certSerial (b : Bytes) : Word := word b 60

/-- Steps 1 to 3. -/
def certBefore (d : Dev) (b : Bytes) : List (Bool × Half) :=
  [(lcLocked d, ST.locked), (!mainState d, ST.lcIllegal), (d.dbg.grant != 0, ST.denied),
   (half b 0 != 0xD802 || (certFlags b).toNat / 8 != 0 || slice b 4 16 != Config.deviceId || d.otp.authRevoke.getLsbD (certKey b), ST.certBad)]
/-- Steps 4 to 7. -/
def certAfter (d : Dev) (b : Bytes) : List (Bool × Half) :=
  let n := certNonce b
  let r := certRights b
  [(!Config.pkVerify 0x21 3 0 false (Config.authKey (certKey b)) (b.take 64) (slice b 64 96), ST.certBad),
   (!(decide ((word b 20).toNat ≤ d.glb.pcc.toNat) && decide (d.glb.pcc.toNat ≤ (word b 24).toNat)), ST.certRange),
   (if allZero n then !(d.lc.state == 1 || d.lc.state == 4) else d.dbg.nonce != some n, ST.nonceStale),
   (r != 0x05 && r != 0x07 && r != 0x1F, ST.certBad),
   (fielded d && r == 0x1F && !(certFlags b).getLsbD 0, ST.denied)]

/-- A response has its result: the nonce is consumed. -/
def endResponse (d : Dev) (rid : Option Nat) (st : Half) : Dev :=
  let d := { d with dbg := { d.dbg with checking := false, nonce := none } }
  match rid with | some r => finish d r st | none => tapReport d st
/-- A refusal that checks nothing and consumes nothing. -/
def refuseResponse (d : Dev) (rid : Option Nat) (st : Half) : Dev := match rid with | some r => finish d r st | none => tapReport d st

/-- 04 R71: LOCKED first, even where no engine could serve the check (R64; log 46); ST_BUSY while a transition runs (R61); then, with nothing checked or consumed, ST_BUSY while another response is checked or where no engine can serve; then steps 1 to 3 and the refusal of 19 R354; the signature waits for an engine. -/
def respond (d : Dev) (rid : Option Nat) (b : Bytes) : Dev :=
  match firstFail [(lcLocked d, ST.locked), (d.lc.job.isSome, ST.busy)] with
  | some st => refuseResponse { d with dbg := { d.dbg with nonce := none } } rid st
  | none =>
    if d.dbg.checking || !canServe d false true then refuseResponse d rid ST.busy else
    match firstFail (certBefore d b ++ logGate d) with
    | some st => endResponse d rid st
    | none =>
      { d with dbg := { d.dbg with checking := true },
               pkeWait := d.pkeWait ++ [.secure { rid, issuer := .secure, kind := .dbgCert b rid.isNone, alg := 0x21 }] }

def runDbgResponse (d : Dev) (c : Cmd) : Dev :=
  match firstFail (preChecks d c whoP (stateU d) (parse c 160) (noKeyOwner c) 0) with
  | some st => finish d c.rid st
  | none => respond d (some c.rid) c.params

def tapResponse (d : Dev) (b : Bytes) : Dev :=
  if !powered d then d else if asleep d then tapReport d ST.dbgAsleep else respond d none (Config.fit 160 b)

/-- 04 R73: clear every key slot and the bank and unload the root until the grant ends. -/
def lockForGrant (d : Dev) : Dev := unloadRoot (clearBank (clearSlots { d with key := { d.key with grantLock := true } }))

/-- Steps 1 and 2 again where the state or a grant has changed under a check (05 R80; log 46). -/
def certBarred (d : Dev) : Option Half := firstFail [(lcLocked d, ST.locked), (!mainState d, ST.lcIllegal), (d.dbg.grant != 0, ST.denied)]

/-- 04 R71-R74: the grant takes effect. -/
def makeGrant (d : Dev) (rid : Option Nat) (b : Bytes) : Dev :=
  match certBarred d with
  | some st => endResponse d rid st
  | none =>
  let r := certRights b
  let d := if r == 0x1F && (d.lc.state == 2 || d.lc.state == 3 || d.lc.state == 4) then lockForGrant d else d
  let d := ldgIssue { d with dbg := { d.dbg with grant := if r == 0x05 then 1 else if r == 0x07 then 2 else 3, rights := r.setWidth 5,
                                                 standing := allZero (certNonce b), serial := certSerial b } } 5 H.grant 1
  let d := if (certFlags b).getLsbD 2 && (certFlags b).getLsbD 1 then
      logRec { d with otp := { d.otp with authRevoke := d.otp.authRevoke ||| 1 } } (devRec 0x9007 0x0004 (b4 (certSerial b) ++ [r]))
    else d
  endResponse d rid ST.ok

/-- The engine has checked the signature: steps 4 to 7, then the CRITICAL record that the grant waits for. -/
def certChecked (d : Dev) (rid : Option Nat) (b : Bytes) : Dev :=
  match certBarred d with
  | some st => endResponse d rid st
  | none =>
  match firstFail (certAfter d b) with
  | some st => endResponse d rid st
  | none => logThen d (devRec 0x9007 0x0001 (b4 (certSerial b) ++ [certRights b]) (.grant rid b)) fun d => makeGrant d rid b

/-! ### Internal scan: 05 R81 -/

/-- 06 R93: SRAM, and its part at or above the watermark or below it. -/
def inSram (a : Nat) : Bool := decide (0x20000000 ≤ a) && decide (a < 0x20800000)
def sramSecure (d : Dev) (a : Nat) : Bool := decide (a < 0x20000000 + 65536 * d.sec.wmSram)
/-- 05 R81: the first entry to internal scan under a FULL grant. DESIGN CHOICE (log 18): the spec numbers no scan island; 0 to 3 are the PKE islands, 4 the fabric with the symmetric island, 8 what TEST_U0 opens of the fabric. -/
def scanEntry (d : Dev) (island : Nat) : Dev :=
  if !powered d then d
  else if asleep d then tapReport d ST.dbgAsleep
  else if d.lc.state == 0x10 && island == 8 then tapReport d ST.ok
  else if d.lc.state == 0x17 then tapReport d ST.ok
  else if !d.dbg.rights.getLsbD 4 || !(decide (island ≤ 4) || island == 8) then tapReport d ST.denied
  else if d.dbg.scanned then tapReport d ST.ok
  else
    let d := stopEngines (lockForGrant d)
    tapReport { d with dbg := { d.dbg with scanned := true }, sym := { d.sym with rngInst := false } } ST.ok

/-! ### Boundary scan: 05 R83, R84 -/

def setInstr (d : Dev) (i : TapInstr) : Dev := { d with dbg := { d.dbg with tapInstr := i } }
def boundaryOpen (d : Dev) : Bool := !fielded d || d.dbg.grant == 2 || d.dbg.grant == 3

/-- 05 R83: powered, and VIO_GEN present. -/
def tapUp (d : Dev) : Bool := powered d && d.glb.vioGen
def tapBypass (d : Dev) : Dev := if tapUp d then tapReport (setInstr d .bypass) ST.ok else d
def tapIdcode (d : Dev) : Dev := if tapUp d then tapReport (setInstr d .idcode) ST.ok (b4 0x14830F79) else d
def tapSample (d : Dev) : Dev :=
  if !powered d then d else if asleep d then tapReport d ST.dbgAsleep
  else if !boundaryOpen d then tapReport d ST.denied
  else tapReport { setInstr d .sample with rng := d.rng + 1 } ST.ok (Config.boundaryCells d.rng)

def execDbgChallenge (r : Request) (s : State) : Host.Outcome State Fault Refusal := onDev (fun d => command d 0x0804 r runDbgChallenge) s
def execDbgResponse (r : Request) (s : State) : Host.Outcome State Fault Refusal := onDev (fun d => command d 0x0805 r runDbgResponse) s
def execInternalScanEntry (island : Fin 9) (s : State) : Host.Outcome State Fault Refusal := onDev (fun d => scanEntry d island.val) s

end Sys2Proof.Machine
end

