-- ==== Sys2Proof/Machine/BootWitness.lean ====
section
/-! DEFINITION. The Boot Witness (18): flash commands, witnessing, gates, manifests, seals; BW_LOAD_MANIFEST, BW_SEAL, BW_GET_JOURNAL (13 R251). -/

namespace Sys2Proof.Machine

def setRegion (d : Dev) (i : Nat) (r : RegionSt) : Dev := { d with bwt := { d.bwt with regions := tset d.bwt.regions i r } }
def setJournal (d : Dev) (j : Journal) : Dev := { d with bwt := { d.bwt with journal := j } }
def manRegions (d : Dev) : List (ManRegion × Nat) := match d.bwt.man with | some m => m.regions.zipIdx | none => []
def touches (r : ManRegion) (addr len : Nat) : Bool := decide (addr ≤ r.limit) && decide (r.base < addr + len)
def isComplete (r : ManRegion) (x : RegionSt) : Bool := decide (r.limit < x.next)
def isMatch (r : ManRegion) (x : RegionSt) : Bool := isComplete r x && !allZero r.digest && Config.sha384 x.content == r.digest

/-- Is the port presented to the chipset and outside a reset (02 R30, 03 R46, R53). -/
def bwhLive (d : Dev) : Bool := !absent d && d.glb.bankBf == .released && powered d && (match d.glb.boot with | .warm => false | .off => false | _ => true)

/-- The BF bank holds its in-reset state in front of a flash on the path (02 R34, 03 R46, R53; a board is Absent only once its straps say so): the host reads 0xFF from the pull-ups. -/
def bwhPulled (d : Dev) : Bool := powered d && !bwhLive d && !(absent d && d.glb.strapsValid)
def pulledUp (d : Dev) (n : Nat) : Dev := if bwhPulled d then emit d (.flashAnswer (List.replicate n 0xFF)) else d

/-- 03 R42: every command of the host begins with a fall of BWH_CS_N, which wakes the device. -/
def csFall (d : Dev) : Dev := if absent d then d else wake d .bootFlashCs

/-! ### Commands of the host: R325, R332 -/

/-- A refused command does not select the flash; the first of an opcode in a journal writes a record. -/
def refuseFlash (d : Dev) (op : Byte) : Dev :=
  let d := emit { d with bwt := { d.bwt with refused := satInc d.bwt.refused } } (.flashRefused op)
  if d.bwt.journal.refusedOps.contains op then d
  else logRec (setJournal d { d.bwt.journal with refusedOps := d.bwt.journal.refusedOps ++ [op] }) (recEvent "BWT" 0 (b4 (rBwtStatus d)))
/-- A write refused by a write-block region. -/
def blockWrite (d : Dev) (op : Byte) : Dev :=
  let d := { d with bwt := { d.bwt with wblkBlocked := satInc d.bwt.wblkBlocked } }
  refuseFlash (setJournal d { d.bwt.journal with writesBlocked := d.bwt.journal.writesBlocked + 1 }) op
/-- A write that passes: the regions it touches are WRITTEN, and a GATE region must be verified again. -/
def passWrite (d : Dev) (op : Byte) (hit : ManRegion → Bool) : Dev :=
  let d := setJournal d { d.bwt.journal with writesPassed := d.bwt.journal.writesPassed + 1 }
  let d := (manRegions d).foldl (fun d ri =>
    if hit ri.1 then
      let x := regionSt d ri.2 ri.1.base
      setRegion d ri.2 { x with written := true, verified := x.verified && !ri.1.gate, reverify := x.reverify || ri.1.gate }
    else d) d
  emit d (.flashPass op)

def readOps : List Byte := [0x0B, 0x6B, 0xEB, 0x0C, 0x6C, 0xEC]
def writeOps : List Byte := [0x02, 0x32, 0x12, 0x34, 0x3E, 0x20, 0x21, 0x52, 0x5C, 0xD8, 0xDC]
def passOps : List Byte := [0x06, 0x04, 0xB7, 0xE9, 0x66, 0x99]
def wholeOps : List Byte := [0x60, 0xC7, 0x01, 0x31]
/-- R325: the address of a command: 4 bytes in the forms that say so and after 0xB7, 3 otherwise. -/
def longOps : List Byte := [0x0C, 0x6C, 0xEC, 0x12, 0x34, 0x3E, 0x21, 0x5C, 0xDC]
def flashAddr (d : Dev) (op : Byte) (a : Nat) : Nat := if longOps.contains op || d.bwt.addr4 then a % 0x100000000 else a % 0x1000000
def holdCyc (d : Dev) : Nat := match d.bwt.man with | some m => m.holdCyc.toNat | none => 0
/-- R323: dummy fields of the SFDP the host reads, for the reads that pass and that the flash offers; quad forms only while QUAD_OK. -/
def advertised (d : Dev) : List Byte := d.bwt.offers.filter fun op => readOps.contains op && (d.bwt.quadOk || op == 0x0B || op == 0x0C)
def sfdpAnswer (d : Dev) : Bytes := (advertised d).flatMap fun op => [op, BitVec.ofNat 8 (Config.sfdpDummy op.toNat + 1 + holdCyc d)]

/-- Bytes of the answers the device gives itself. -/
def answerLen (d : Dev) (op : Byte) : Nat := if op == 0x9F then 3 else if op == 0x5A then (sfdpAnswer d).length else if op == 0x05 || op == 0x35 then 1 else 0
def hostFlash (d : Dev) (op : Byte) : Dev :=
  if !bwhLive d then (if answerLen d op = 0 then d else pulledUp d (answerLen d op))
  else if readOps.contains op || writeOps.contains op then emit d (.flashPass op)
  else if op == 0x9F then emit d (.flashAnswer (Config.fit 3 Config.flashId))
  else if op == 0x5A then emit d (.flashAnswer (sfdpAnswer d))
  else if op == 0x05 then emit d (.flashAnswer [d.bwt.sr1])
  else if op == 0x35 then emit d (.flashAnswer [d.bwt.sr2])
  else if passOps.contains op then
    let a := if op == 0xB7 then true else if op == 0xE9 then false else d.bwt.addr4
    emit { d with bwt := { d.bwt with addr4 := a } } (.flashPass op)
  else if wholeOps.contains op then
    if (manRegions d).any fun ri => ri.1.wblock then blockWrite d op else passWrite d op fun _ => true
  else refuseFlash d op

def hostWriteFlash (d : Dev) (op : Byte) (addr len : Nat) : Dev :=
  if !bwhLive d then d
  else if !writeOps.contains op then hostFlash d op
  else
  let addr := flashAddr d op addr
  if (manRegions d).any fun ri => ri.1.wblock && touches ri.1 addr len then blockWrite d op
  else passWrite d op fun r => touches r addr len

/-! ### Witnessing: R329, R331 -/

/-- Is byte `a` withheld by the gate. -/
def gated (d : Dev) (a : Nat) : Bool :=
  match d.bwt.man with
  | none => strict d
  | some m => m.regions.zipIdx.any fun ri => ri.1.gate && decide (ri.1.base ≤ a) && decide (a ≤ ri.1.limit) && !(regionSt d ri.2 ri.1.base).verified

/-- The bytes the host receives. -/
def received (d : Dev) (addr : Nat) : Bytes → Bytes
  | [] => []
  | b :: l => (if gated d addr then 0xFF else b) :: received d (addr + 1) l

/-- One region's part of a read (R329). -/
def witnessPart (d : Dev) (r : ManRegion) (i addr : Nat) (bytes : Bytes) : Dev :=
  let lo := max addr r.base
  let part := slice bytes (lo - addr) (min (addr + bytes.length) (r.limit + 1) - lo)
  let x := regionSt d i r.base
  let x := { x with reads := x.reads + 1 }
  if x.next < lo then setRegion d i { x with gap := true }
  else
    let x := { x with reread := x.reread + min part.length (x.next - lo) }
    if x.gap then setRegion d i x
    else
      let new := part.drop (x.next - lo)
      let x := { x with content := x.content ++ new, next := x.next + new.length }
      setRegion d i { x with complete := isComplete r x, matched := isMatch r x }

/-- Bytes of a read outside every region. -/
def outsideCount (d : Dev) (addr n : Nat) : Nat :=
  n - ((manRegions d).map fun ri => min (addr + n) (ri.1.limit + 1) - max addr ri.1.base).sum

/-- The journal opens at the first array read after a boundary (R328). -/
def openJournal (d : Dev) : Dev :=
  if d.bwt.journal.opened then d else setJournal d { d.bwt.journal with opened := true, openedAt := d.now, firstStamp := stamp d }

def witness (d : Dev) (addr : Nat) (bytes : Bytes) : Dev :=
  let d := openJournal d
  let j := d.bwt.journal
  let d := setJournal d { j with trace := j.trace ++ leBytes 4 addr ++ leBytes 4 bytes.length ++ bytes, reads := j.reads + 1,
                                 outside := j.outside + outsideCount d addr bytes.length }
  (manRegions d).foldl (fun d ri => if touches ri.1 addr bytes.length then witnessPart d ri.1 ri.2 addr bytes else d) d

/-- Regions whose bytes the gate turned into 0xFF. -/
def markHeld (d : Dev) (addr n : Nat) : Dev :=
  (manRegions d).foldl (fun d ri =>
    let x := regionSt d ri.2 ri.1.base
    if ri.1.gate && touches ri.1 addr n && !x.verified then setRegion d ri.2 { x with heldFf := true } else d) d

/-- An array read by an opcode that passes: in STANDBY, which it leaves, it reads 0xFF (R333); otherwise the gate decides and the bytes received are witnessed. -/
def arrayRead (d : Dev) (addr : Nat) (flash : Bytes) : Dev :=
  if !bwhLive d then pulledUp d flash.length
  else if asleep d then
    let d := if d.bwt.journal.opened then d else { d with bwt := { d.bwt with cntPost := satInc d.bwt.cntPost } }
    emit d (.flashAnswer (List.replicate flash.length 0xFF))
  else
    let n := flash.length
    let held := (List.range n).any fun k => gated d (addr + k)
    let gate := (manRegions d).any fun ri => ri.1.gate && touches ri.1 addr n
    let got := received d addr flash
    let d := if held then { markHeld d addr n with bwt := { (markHeld d addr n).bwt with holdFailed := satInc d.bwt.holdFailed } }
             else if gate then { d with bwt := { d.bwt with holdPassed := satInc d.bwt.holdPassed } } else d
    emit (witness d addr got) (.flashAnswer got)

/-- R325: the opcode decides whether a read passes, and how long its address is. -/
def hostRead (d : Dev) (r : FlashRead) : Dev :=
  if bwhLive d && !readOps.contains r.op then hostFlash d r.op else arrayRead d (flashAddr d r.op r.addr) r.bytes

/-- R331: verification of a GATE region has read its content. -/
def gateVerified (d : Dev) (i : Nat) (content : Bytes) : Dev :=
  match (manRegions d).find? fun ri => decide (ri.2 = i) with
  | none => d
  | some ri =>
    let x := regionSt d i ri.1.base
    if !ri.1.gate || x.verified || x.denied || x.reverify then d
    else if Config.sha384 content == ri.1.digest then setRegion d i { x with verified := true }
    else
      let d := alert (signal (setRegion d i { x with denied := true }) .pf 5) 1
      logRec d (recCrit "BWT" 0x0005 [rBwtStatus d, BitVec.ofNat 32 i])
/-- R332: the flash reports WIP = 0 after a passed write. -/
def gateReverify (d : Dev) (i : Nat) : Dev :=
  match (manRegions d).find? fun ri => decide (ri.2 = i) with
  | none => d
  | some ri =>
    let x := regionSt d i ri.1.base
    if x.reverify && !d.bwt.sr1.getLsbD 0 then setRegion d i { x with reverify := false, denied := false } else d

/-! ### Manifests: R326, R327 -/

def parseRegion (b : Bytes) (i : Nat) : ManRegion :=
  let o := 64 + 64 * i
  { base := leAt b o 4, limit := leAt b (o + 4) 4, gate := (byteAt b (o + 8)).getLsbD 0, wblock := (byteAt b (o + 8)).getLsbD 1, digest := slice b (o + 16) 48 }
def regionFieldsOk (b : Bytes) (i : Nat) : Bool :=
  let o := 64 + 64 * i
  let r := parseRegion b i
  r.base % 4096 == 0 && (r.limit + 1) % 4096 == 0 && (byteAt b (o + 8)).toNat / 4 == 0 && allZero (slice b (o + 9) 7) && (!r.gate || !allZero r.digest)
/-- Ascending, without overlap, within the flash. -/
def regionsOk (lo size : Nat) : List ManRegion → Bool
  | [] => true
  | r :: l => decide (lo ≤ r.base) && decide (r.base ≤ r.limit) && decide (r.limit < size) && regionsOk (r.limit + 1) size l
def parseManifest (b : Bytes) : Manifest :=
  { cosign := (byteAt b 3).getLsbD 0, version := quad b 4, sealTimeout := if leAt b 12 4 = 0 then 300 else leAt b 12 4,
    holdCyc := (byteAt b 16).setWidth 5, flashId := slice b 20 3, regions := (List.range (byteAt b 2).toNat).map (parseRegion b), digest := Config.sha384 b }
def manifestOk (d : Dev) (b pub : Bytes) : Bool :=
  let r := (byteAt b 2).toNat
  let m := parseManifest b
  let t := leAt b 12 4
  b.length == 160 + 64 * r && half b 0 == 0xBA01 && decide (1 ≤ r) && decide (r ≤ 64) && (byteAt b 3).toNat / 2 == 0 && m.version != 0 &&
  (t == 0 || (decide (10 ≤ t) && decide (t ≤ 3600))) && decide ((byteAt b 16).toNat ≤ 31) && allZero (slice b 17 3) && allZero (slice b 23 41) &&
  ((List.range r).all (regionFieldsOk b)) && regionsOk 0 Config.flashSize m.regions &&
  ((advertised d).all fun op => decide (Config.sfdpDummy op.toNat + 1 + m.holdCyc.toNat ≤ 31)) &&
  (allZero m.flashId || m.flashId == Config.fit 3 Config.flashId) &&
  (match d.bwt.stored with | some o => decide (o.version.toNat ≤ m.version.toNat) | none => true) &&
  Config.pkVerify 0x21 3 0 false pub (b.take (64 + 64 * r)) (slice b (64 + 64 * r) 96)

/-- A manifest comes into force: verification of every region starts; reads of this journal were EARLY. -/
def forceManifest (d : Dev) (m : Option Manifest) : Dev :=
  { d with bwt := { d.bwt with man := m, regions := [],
                               journal := { d.bwt.journal with early := d.bwt.journal.early || (m.isSome && decide (0 < d.bwt.journal.reads)) } } }

def runBwLoadManifest (d : Dev) (c : Cmd) : Dev :=
  let l := pWord c 0; let man := pVar c 4 l
  runAtomic d c (preChecks d c whoP (stateU d) (parse c 4 [] [(l, false)]) true 0 ++ keyChecks d c c.key (· == 0x21) (some uVerify))
    (useQuorum d c c.key) (fun d => [rngCheck d]) 0 fun d =>
    match keyFor d c c.key with
    | none => (d, ST.handleBad, [])
    | some k =>
      let d := touchKey d k.ref
      if !manifestOk d man (Config.pkPublic 0x21 96 k.bytes []) then (d, ST.manifestBad, []) else
      let d := programZone { d with bwt := { d.bwt with stored := some (parseManifest man) } } 0x40000 man
      (if strict d && d.bwt.man.isNone then forceManifest d (some (parseManifest man)) else d, ST.ok, [])

/-! ### Journals: R328, R336 -/

def flagBits (l : List (Bool × Nat)) : Nat := l.foldr (fun p a => (if p.1 then 2 ^ p.2 else 0) + a) 0
def mismatch (d : Dev) : Bool :=
  (manRegions d).any fun ri => let x := regionSt d ri.2 ri.1.base; (ri.1.gate && x.denied) || (isComplete ri.1 x && !allZero ri.1.digest && !isMatch ri.1 x)
/-- [2:3] of a region entry. -/
def regionState (r : ManRegion) (x : RegionSt) : Nat :=
  flagBits [(isComplete r x, 0), (x.gap, 1), (x.verified, 2), (x.denied, 3), (isMatch r x, 4), (x.written, 5), (x.heldFf, 6)]
def regionEntry (d : Dev) (ri : ManRegion × Nat) : Bytes :=
  let r := ri.1
  let x := regionSt d ri.2 r.base
  [BitVec.ofNat 8 ri.2, BitVec.ofNat 8 (flagBits [(r.gate, 0), (r.wblock, 1)])] ++ leBytes 2 (regionState r x) ++ leBytes 4 r.base ++ leBytes 4 r.limit ++
  leBytes 4 x.content.length ++ leBytes 4 x.reread ++ leBytes 4 x.reads ++ zeros 8 ++ Config.sha384 x.content

/-- The first 192 bytes, with COSIGNED and COSIG_COUNT 0 (log 19). -/
def journalHead (d : Dev) (trigger : Byte) : Bytes :=
  let j := d.bwt.journal
  b2 0xBB01 ++ [trigger, BitVec.ofNat 8 (flagBits [(strict d, 0), (j.early, 1), (!rootLoaded d, 2), (d.bwt.flashFault, 3), (mismatch d, 4)])] ++
  b4 d.bwt.bootSeq ++ Config.deviceId ++ Config.fit 12 j.firstStamp ++ stamp d ++
  (match d.bwt.man with | some m => b8 m.version ++ m.digest | none => zeros 56) ++ Config.sha384 j.trace ++
  leBytes 4 j.reads ++ leBytes 4 j.outside ++ leBytes 4 j.writesPassed ++ leBytes 4 j.writesBlocked ++
  [BitVec.ofNat 8 (manRegions d).length, 0, 0, 0] ++ b4 d.key.fwVersion ++ d.key.fwMeas.take 16
def journalBody (d : Dev) (trigger : Byte) : Bytes := journalHead d trigger ++ (manRegions d).flatMap (regionEntry d)

/-- R328: a boundary: the manifest stored comes into force and its verification starts. -/
def boundary (d : Dev) : Dev := forceManifest { d with bwt := { d.bwt with journal := {}, bootSeq := d.bwt.bootSeq + 1 } } d.bwt.stored

/-! ### Sealing: R334-R338 -/

/-- Attestation keys (R335). -/
def attestScalar (d : Dev) : Bytes := beBytes 48 (beNat (derive d "DX48 ATTEST EC" 0 1 (zeros 32) 48) % (Config.p384Order - 1) + 1)
def attestSeed (d : Dev) : Bytes := derive d "DX48 ATTEST ML" 0 1 (zeros 32) 32
def attestPub (d : Dev) : Bytes := Config.pkPublic 0x21 96 (attestScalar d) []
def attestMlPub (d : Dev) : Bytes := Config.pkPublic 0x34 1952 (attestSeed d) []

/-- Start the work of a frozen journal: co-signing is asked for, the signatures wait for an engine. -/
def startSeal (d : Dev) (s : Seal) : Dev :=
  let ask := s.windowOpen && d.chn.role == .member
  let d := { d with bwt := { d.bwt with sealing := some { s with windowOpen := ask, askedAt := d.now } } }
  let d := if ask then broadcastD d (.cosignReq s.digest)
           else if s.windowOpen then logRec d (recEvent "BWT" 0 (b4 (rBwtStatus d))) else d
  if s.signed then d
  else { d with pkeWait := d.pkeWait ++ [.secure { rid := none, issuer := .secure, kind := .sealSign, alg := 0x21 }] }

def cosigEntry (c : Nat × (Bytes × Bytes)) : Bytes := [BitVec.ofNat 8 c.1, 0, 0, 0] ++ Config.fit 16 c.2.1 ++ zeros 12 ++ Config.fit 96 c.2.2
/-- Bytes [3] and [169] once the co-signatures are in. -/
def withCosigs (b : Bytes) (n : Nat) : Bytes :=
  if n = 0 then b else (b.set 3 (byteAt b 3 ||| 0x20)).set 169 (BitVec.ofNat 8 n)
def wholeJournal (s : Seal) : Bytes :=
  withCosigs s.body s.cosigs.length ++ Config.fit 96 s.sigEc ++ Config.fit 3312 s.sigMl ++ s.cosigs.flatMap cosigEntry

/-- R338: JOURNAL_PART records of at most 960 bytes. -/
def journalParts : Nat → Nat → Bytes → List Record
  | 0, _, _ => []
  | fuel + 1, i, b => if b.isEmpty then [] else
    { rtype := 0x1002, attr := 0x7E, payload := b2 0 ++ leBytes 2 i ++ b.take 960 } :: journalParts fuel (i + 1) (b.drop 960)

/-- Signatures and co-signatures are in: store the journal, in SRAM where the flash has failed (19 R357), and write its records. -/
def storeSeal (d : Dev) (s : Seal) : Dev :=
  let b := wholeJournal s
  let w := d.bwt
  let d := if d.evr.failed then { d with bwt := { w with inFlash := w.inFlash.orElse fun _ => some (w.current, w.previous, w.currentDigest, w.previousDigest) } }
           else programZone d (0x50000 + 0x8000 * (w.bootSeq.toNat % 2)) b
  let d := { d with bwt := { d.bwt with previous := d.bwt.current, previousDigest := d.bwt.currentDigest, current := some b, currentDigest := s.digest } }
  let d := logRec d (devRec 0x9005 (s.trigger.setWidth 16) (b.take 192 ++ Config.fit 96 s.sigEc) (.sealed s.rid s.digest))
  (journalParts 20 0 ((b.drop 192).take (s.body.length - 192) ++ b.drop (s.body.length + 96))).foldl logRec d

def sealReady (s : Seal) : Bool := s.signed && !s.windowOpen
def advanceSeal (d : Dev) (s : Seal) : Dev :=
  let d := { d with bwt := { d.bwt with sealing := some s } }
  if sealReady s then storeSeal d s else d

/-- Freeze the open journal in this cycle (R334). Without a root the seal is UNSIGNED with zero signatures. -/
def sealNow (d : Dev) (rid : Option Nat) (trigger : Byte) (cosign : Bool) : Dev :=
  let body := journalBody d trigger
  let s : Seal := { rid, trigger, body, digest := Config.sha384 body, signed := !rootLoaded d, windowOpen := cosign }
  let b := boundary d
  let d := { b with bwt := { b.bwt with sealedBoot := trigger != 4 } }
  if d.bwt.sealing.isSome then { d with bwt := { d.bwt with sealWait := d.bwt.sealWait ++ [s] } }
  else
    let d := startSeal d s
    match d.bwt.sealing with
    | some s => if sealReady s then storeSeal d s else d
    | none => d

/-- The SEAL record is written (or refused): vector 5, the request, the next frozen journal. -/
def sealDone (d : Dev) (rid : Option Nat) (st : Half) (digest : Bytes) : Dev :=
  let d := alert (signal { d with bwt := { d.bwt with sealing := none } } .pf 5) 1
  let d := match rid with | some r => finish d r st digest | none => d
  match d.bwt.sealWait with
  | [] => d
  | s :: l =>
    let d := startSeal { d with bwt := { d.bwt with sealWait := l } } s
    match d.bwt.sealing with
    | some s => if sealReady s then storeSeal d s else d
    | none => d

/-- R335: a seal without a root carries UNSIGNED; its digest is that of the body as it stands, so no co-signature over another stays. -/
def unsignedSeal (s : Seal) : Seal :=
  let body := s.body.set 3 (byteAt s.body 3 ||| 0x04)
  { s with signed := true, body, digest := Config.sha384 body, cosigs := [] }
/-- The engine has made both signatures (R336). With the root gone meanwhile the seal is UNSIGNED (R335). -/
def sealSigned (d : Dev) (rnd : Bytes) : Dev :=
  match d.bwt.sealing with
  | none => d
  | some s =>
    if rootLoaded d then
      advanceSeal d { s with signed := true, sigEc := Config.pkSign 0x21 96 3 0 true (attestScalar d) s.digest rnd,
                             sigMl := Config.pkSign 0x34 3309 0 0 false (attestSeed d) s.digest rnd }
    else advanceSeal d (unsignedSeal s)

def manCosign (d : Dev) : Bool := match d.bwt.man with | some m => m.cosign | none => false

def runBwSeal (d : Dev) (c : Cmd) : Dev :=
  let co := (byteAt c.params 0).getLsbD 0
  let checks := preChecks d c whoPM (stateR d) (parse c 4 [(1, 3)]) (noKeyOwner c && decide (pByte c 0 ≤ 1)) 48 ++
    [(absent d || !d.bwt.journal.opened, ST.sealed)] ++ logGate d ++ [(!canServe d false true, ST.busy)]
  match firstFail checks with
  | some st => finish d c.rid st
  | none =>
    match claimResult d c 48 with
    | none => endNoCells d c
    | some d => sealNow d (some c.rid) (match c.issuer with | .mgt => 2 | _ => 1) co

def runBwGetJournal (d : Dev) (c : Cmd) : Dev :=
  let j := fun d : Dev => (if pByte c 0 = 0 then d.bwt.current else d.bwt.previous).getD []
  runAtomic d c (preChecks d c whoPVM (stateU d) (parse c 4 [(1, 3)]) (noKeyOwner c && decide (pByte c 0 ≤ 1)) 16384) none (fun _ => []) (j d).length
    fun d => (d, ST.ok, j d)

/-- R339: a WDT or SOFT reset ends the open journal unsealed, and a seal that has not been stored with it. -/
def lostRecord (head : Bytes) (states : Bytes) : Record := devRec 0x9006 0 (Config.fit 192 head ++ states)
def loseJournal (d : Dev) : Dev :=
  let states := (manRegions d).flatMap fun ri => leBytes 2 (regionState ri.1 (regionSt d ri.2 ri.1.base))
  let d := (d.bwt.sealing.toList ++ d.bwt.sealWait).foldl (fun d s => logRec d (lostRecord (s.body.take 192) [])) d
  let d := { d with bwt := { d.bwt with sealing := none, sealWait := [] } }
  if d.bwt.journal.opened then
    let d := logRec d (lostRecord (journalHead d 0) states)
    { d with bwt := { d.bwt with bootSeq := d.bwt.bootSeq + 1, journal := {}, sealedBoot := false } }
  else { d with bwt := { d.bwt with sealedBoot := false } }

def execBwLoadManifest (r : Request) (s : State) : Host.Outcome State Fault Refusal := onDev (fun d => command d 0x0601 r runBwLoadManifest) s
def execBwSeal (r : Request) (s : State) : Host.Outcome State Fault Refusal := onDev (fun d => command d 0x0602 r runBwSeal) s
def execBwGetJournal (r : Request) (s : State) : Host.Outcome State Fault Refusal := onDev (fun d => command d 0x0603 r runBwGetJournal) s
def execHostFlashCommand (opcode : Byte) (s : State) : Host.Outcome State Fault Refusal := onDev (fun d => hostFlash (csFall d) opcode) s
def execArrayRead (r : FlashRead) (s : State) : Host.Outcome State Fault Refusal := onDev (fun d => hostRead (csFall d) r) s
def execHostFlashWrite (opcode : Byte) (addr len : Nat) (s : State) : Host.Outcome State Fault Refusal := onDev (fun d => hostWriteFlash (csFall d) opcode addr len) s
def execStatusCopyRefresh (sr1 sr2 : Byte) (s : State) : Host.Outcome State Fault Refusal := onDev (fun d => { d with bwt := { d.bwt with sr1, sr2 } }) s
def execGateVerifyComplete (region : Fin 64) (content : Bytes) (s : State) : Host.Outcome State Fault Refusal := onDev (fun d => gateVerified d region.val content) s
def execGateReverifyStart (region : Fin 64) (s : State) : Host.Outcome State Fault Refusal := onDev (fun d => gateReverify d region.val) s
/-- R334: SEAL_TIMEOUT of the manifest in force, or 300 s, has elapsed since FIRST_STAMP. -/
def sealDue (d : Dev) : Bool :=
  d.bwt.journal.opened && decide (d.bwt.journal.openedAt + (match d.bwt.man with | some m => m.sealTimeout | none => 300) * secondCycles ≤ d.now)
def execSealTimeout (s : State) : Host.Outcome State Fault Refusal := onDev (fun d => if sealDue d then sealNow d none 3 (manCosign d) else d) s
/-- R337: 100 ms after the co-sign request. -/
def execCosignWindowEnd (s : State) : Host.Outcome State Fault Refusal :=
  onDev (fun d => match d.bwt.sealing with | some x => if x.windowOpen && decide (x.askedAt + 40000000 ≤ d.now) then advanceSeal d { x with windowOpen := false } else d | none => d) s

end Sys2Proof.Machine
end

