-- ==== Sys2Proof/Machine/Krovlo.lean ====
section
/-! DEFINITION. The Krovlo link (20): training, the slotted cycle, acknowledgement, enumeration, status and leader, admission, replication, results, co-signing; CHN_REPLICATE, CHN_ADMIT, CHN_SET_EPOCH (13 R252). -/

namespace Sys2Proof.Machine

def setChn (d : Dev) (c : Chn) : Dev := { d with chn := c }
def portReg (d : Dev) (p : Port) : Word := rPort (portOf d p)
def recPort (d : Dev) (sub : Half) (p : Port) : Dev := logRec d (recEvent "CHN" sub (b4 (portReg d p)))
def recStatus (d : Dev) (sub : Half) : Dev := logRec d (recEvent "CHN" sub (b4 (rChnStatus d)))
/-- CONFIG record of this chapter; R375 names no register, so CHN.STATUS and the epoch (19 R456). -/
def recChnConfig (d : Dev) : Dev := logRec d (recConfig 0 [rChnStatus d, d.chn.epoch.setWidth 32, (d.chn.epoch >>> 32).setWidth 32])

/-! ### Membership: R375, R377 -/

def selfEpochMax (d : Dev) : Nat := d.chn.view.foldl (fun m p => max m p.2.body.epoch.toNat) d.chn.epoch.toNat
/-- Candidates of the leader choice as (address, state, epoch); this unit among them. -/
def candidates (d : Dev) : List (Nat × Byte × Nat) :=
  (if d.chn.addrValid then [(d.chn.addr, d.lc.state, d.chn.epoch.toNat)] else []) ++ d.chn.view.map fun p => (p.1, p.2.body.lcState, p.2.body.epoch.toNat)
def lowestBest (l : List (Nat × Byte × Nat)) : Option Nat :=
  let top := l.foldl (fun m x => max m x.2.2) 0
  (l.filter fun x => decide (x.2.2 = top)).foldl (fun a x => match a with | some y => some (min y x.1) | none => some x.1) none
/-- R375: the lowest address among the FIELDED units of the highest epoch; without a FIELDED unit, among all. -/
def chooseLeader (d : Dev) : Nat :=
  let l := candidates d
  let f := l.filter fun x => x.2.1 == 3
  (lowestBest (if f.isEmpty then l else f)).getD 0

def selfInRepl (d : Dev) : Bool :=
  d.chn.role == .member && d.lc.state == leaderLc d && !lcLocked d && d.key.fwVersion.toNat / 65536 == (leaderFw d).toNat / 65536 &&
  !d.chn.admMismatch && !(d.chn.view.any fun p => p.2.body.devId == Config.deviceId)
def updateRepl (d : Dev) : Dev := setChn d { d.chn with repl := selfInRepl d }
/-- Addresses of the other units in replication. -/
def replPeers (d : Dev) : List Nat := (d.chn.view.filter fun p => peerInRepl d p.2.body).map (·.1)
/-- R377: more than half of the admitted units, this one included, are in replication and in the view. -/
def majority (d : Dev) : Bool :=
  let ids := (d.chn.view.filter fun p => peerInRepl d p.2.body).map (·.2.body.devId)
  let n := ((admittedOf d).filter fun i => ids.contains i).length + if selfInRepl d then 1 else 0
  decide ((admittedOf d).length < 2 * n)
/-- What a command that needs replication completes with. -/
def replChecks (d : Dev) : List (Bool × Half) :=
  [(d.chn.role == .excluded, ST.excluded), (d.chn.role != .member || !selfInRepl d || !majority d, ST.quorumLost)]

/-- Requests sent to a unit that has left the view end with ST_LINK_LOST (R379). -/
def dropRemote (d : Dev) (gone : Nat → Bool) (st : Half) : Dev :=
  d.reqs.foldl (fun d e => match e.2.stage with
    | .remote a => if gone a then finish d e.1 st else d
    | _ => d) d

/-- CHN_ADMIT and CHN_SET_EPOCH complete once no acknowledgement is missing. -/
def settleConfigs (d : Dev) : Dev :=
  d.chn.cfgWaits.foldl (fun d w => if w.waitFor = 0 then finish d w.rid ST.ok else d)
    (setChn d { d.chn with cfgWaits := d.chn.cfgWaits.filter fun w => w.waitFor != 0 })
def clearWait (d : Dev) (a : Nat) : Dev :=
  settleConfigs (setChn d { d.chn with cfgWaits := d.chn.cfgWaits.map fun w => { w with waitFor := w.waitFor &&& ~~~BitVec.ofNat 16 (2 ^ a) } })

/-- R374: address 0, local owners only; what needs replication ends with ST_QUORUM_LOST. -/
def becomeSolitary (d : Dev) : Dev :=
  if d.chn.role == .solitary then d else
  let c := d.chn
  let d := setChn d { c with role := .solitary, addr := 0, addrValid := true, units := 1, leader := 0, view := [], repl := false, unacked := 0, attempts := 0, enumRunning := false,
                             replicates := [], cfgWaits := [] }
  let d := c.replicates.foldl (fun d r => finish d r.rid ST.quorumLost) d
  let d := c.cfgWaits.foldl (fun d r => finish d r.rid ST.quorumLost) d
  recStatus (dropRemote d (fun _ => true) ST.linkLost) 0x0301

/-! ### Enumeration: R367, R368 -/

def headFrame (d : Dev) (b : FBody) : Frame := { hdr := { linkHdr d 0xFF with dest := 0xFF }, body := b }
def isHead (d : Dev) : Bool := d.glb.straps.chainHead && d.chn.isHead
/-- Send an enumeration frame out of a port that is up. -/
def sendEnum (d : Dev) (p : Port) (b : FBody) : Dev := if (portOf d p).up then enqueue d p (headFrame d b) else d
/-- R367; the enumeration runs until it ends, the unit is SOLITARY or another unit is the head (00 R5). -/
def startEnum (d : Dev) : Dev :=
  let d := setChn d { d.chn with addr := 0, addrValid := true, headId := some Config.deviceId, enumRunning := true, attempts := d.chn.attempts + 1, upstream := false, split := if d.chn.dn.up then 16 else 1 }
  sendEnum d (if d.chn.dn.up then .dn else .up) (.enumerate Config.deviceId 1)

/-- The head ends a run: units, ring closed or open, ROSTER. -/
def endEnum (d : Dev) (next : Nat) (closed : Bool) : Dev :=
  let was := d.chn.role
  let u := min next 16
  let delays := [Config.dnDelay d.rng]
  let d := setChn { d with rng := d.rng + 1 } { d.chn with units := u, openRing := !closed, line := !closed, role := .member, enumRunning := false, attempts := 0, delays }
  let d := if was == .solitary then recStatus d 0x0302 else d
  updateRepl (broadcastD d (.roster Config.deviceId u closed delays))

/-- R367: a unit takes or keeps an address. -/
def takeAddress (d : Dev) (h : Bytes) (next : Nat) (upstream : Bool) : Dev × Nat :=
  let c := d.chn
  let solitary := c.role == .solitary
  let held := c.addrValid && !solitary
  let same := held && c.headId == some h
  let done := fun (d : Dev) => if solitary then recStatus d 0x0302 else d
  if same && decide (next ≤ c.addr) then (d, c.addr + 1)
  else if next < 16 then
    let d := setChn d { c with addr := next, addrValid := true, headId := some h, role := .member, upstream }
    (done (if held && c.addr != next then recChnConfig d else d), next + 1)
  else (setChn d { c with addr := 0, addrValid := false, headId := some h, role := .excluded, repl := false, upstream }, next + 1)

/-- 128-bit little-endian comparison of DEVICE_IDs (R368). -/
def idLt (a b : Bytes) : Bool := decide (leNat a < leNat b)

def onEnumerate (d : Dev) (p : Port) (h : Bytes) (next : Nat) : Dev :=
  let asUnit := fun d : Dev =>
    let (d, n) := takeAddress d h next (p == .dn)
    let o := opposite p
    let d := setChn d { d.chn with split := if (portOf d o).up then 16 else n }
    if (portOf d o).up then sendEnum d o (.enumerate h n) else sendEnum d p (.enumBack h n)
  if isHead d then
    if h == Config.deviceId then endEnum d next true
    else if idLt h Config.deviceId then
      asUnit (recChnConfig (setChn d { d.chn with isHead := false, addrValid := false, attempts := 0, enumRunning := false }))
    else d
  else match d.chn.headId with
    | some x => if d.chn.addrValid && d.chn.role != .solitary && idLt x h then d
                else asUnit (if x != h && d.chn.addrValid then recChnConfig d else d)
    | none => asUnit d

def onEnumBack (d : Dev) (p : Port) (h : Bytes) (next : Nat) : Dev :=
  if isHead d then
    if h != Config.deviceId then d
    else match p with
      | .dn => if d.chn.up.up then sendEnum (setChn d { d.chn with split := next }) .up (.enumerate h next) else endEnum (setChn d { d.chn with split := next }) next false
      | .up => endEnum d next false
  else
    let d := if p == .dn then setChn d { d.chn with split := next } else d
    sendEnum d (opposite p) (.enumBack h next)

def onRoster (d : Dev) (h : Bytes) (units : Nat) (closed : Bool) (delays : List Nat) : Dev :=
  if d.chn.headId != some h then d
  else updateRepl (setChn d { d.chn with units, openRing := !closed || d.chn.up.cut || d.chn.dn.cut, line := !closed, delays,
                                         role := if d.chn.role == .enumerating && d.chn.addrValid then .member else d.chn.role })

/-! ### Ports: R362, R364, R373 -/

/-- The port comes up and acknowledges, so that the neighbour can resume from it (R373, log 14); one lane alone is DEGRADED. A head starts enumeration when a port first comes up. -/
def portUp (d : Dev) (p : Port) : Dev :=
  let x := portOf d p
  if x.up || x.locked = 0 then d else
  let d := setPort d p { x with acked := false, leftOut := 0, up := true, degraded := x.locked != 3, holding := false, miswire := false, cut := false,
                                ackDue := true, resync := !x.retained.isEmpty }
  let d := setChn d { d.chn with everUp := true, openRing := d.chn.line || d.chn.up.cut || d.chn.dn.cut }
  let d := if x.locked != 3 then recPort d 0x0306 p else d
  if isHead d && (d.chn.role == .enumerating || d.chn.role == .solitary) then startEnum d else d

def lockLane (d : Dev) (p : Port) (lane : Nat) : Dev := setPort d p { portOf d p with locked := (portOf d p).locked ||| BitVec.ofNat 2 (2 ^ lane) }
def loseLane (d : Dev) (p : Port) (lane : Nat) : Dev :=
  let x := portOf d p
  let l := x.locked &&& ~~~BitVec.ofNat 2 (2 ^ lane)
  if l = x.locked then d
  else if !x.up then setPort d p { x with locked := l, acked := false }
  else if l = 0 then sendTrain (setPort d p { x with locked := l, up := false, degraded := false, holding := true, downAt := d.now }) p false
  else recPort (setPort d p { x with locked := l, degraded := true }) 0x0306 p

/-- R364: the port comes up once TRAIN with ACK has gone both ways and no lane is waited for. -/
def tryUp (d : Dev) (p : Port) : Dev :=
  let x := portOf d p
  if x.acked && x.locked ||| x.leftOut == 3 then portUp d p else d
def onTrain (d : Dev) (p : Port) (t : TrainInfo) : Dev :=
  let x := portOf d p
  if x.up || x.locked = 0 then d
  else if t.peerPort == p then
    if x.miswire then d else recPort (setPort d p { x with miswire := true }) 0x0307 p
  else
    let d := sendTrain (setPort d p { x with inverted := t.inverted, swapped := t.swapped, acked := t.ack }) p true
    tryUp d p

def onLaneTimeout (d : Dev) (p : Port) (lane : Nat) : Dev :=
  let x := portOf d p
  if x.up || x.locked.getLsbD lane then d else tryUp (setPort d p { x with leftOut := x.leftOut ||| BitVec.ofNat 2 (2 ^ lane) }) p

/-- A request one of whose frames is returned: a command that waits for acknowledgements waits no more. -/
def lostRequest (d : Dev) (r : Nat) : Dev :=
  finish (setChn d { d.chn with replicates := d.chn.replicates.filter fun x => x.rid != r, cfgWaits := d.chn.cfgWaits.filter fun x => x.rid != r }) r ST.linkLost
/-- R373: one frame returned: its token and cells are given back; a local request ends with ST_LINK_LOST, a transit one is answered the other way. -/
def returnFrame (d : Dev) (p : Port) (t : TxFrame) (hasToken : Bool) : Dev :=
  let d := freeCells d H.krovlo t.cells
  let d := if hasToken then ldgRetire d 3 (portHolder p) 1 else d
  let d := setChn d { d.chn with cntReturned := satInc d.chn.cntReturned }
  match t.rid with
  | some r => lostRequest d r
  | none =>
    match t.frame.body with
    | .data q =>
      let o := opposite p
      if t.frame.hdr.origin == (linkHdr d 0).origin || !(portOf d o).up then d
      else enqueue d o { hdr := linkHdr d t.frame.hdr.origin,
                         body := .result { first := true, more := false, reqSeq := ohSeq q, offset := 0, total := 0,
                                           completion := compEntry (chTag q) ST.linkLost 0 0 false 0 0, result := [] } }
    | _ => d
def returnFrames (d : Dev) (p : Port) : Dev :=
  let x := portOf d p
  if x.up || !x.holding || decide (d.now < x.downAt + 400 * d.chn.linkHold) then d else
  let d := setPort d p { x with queue := [], retained := [], waiting := [], holding := false, cut := true }
  let d := (x.retained ++ x.queue).foldl (fun d t => returnFrame d p t true) d
  let d := x.waiting.foldl (fun d t => returnFrame d p t false) d
  setChn d { d.chn with openRing := true }

/-! ### The slotted cycle: R369, R372 -/

/-- Block times of a frame of body length `l`. -/
def blocks (x : PortSt) (l : Nat) : Nat := 1 + (20 + l + (if x.degraded then 7 else 15)) / (if x.degraded then 8 else 16)
/-- Frames of one origin that may start now: they fit the block times left and the neighbour has room; what goes, what stays. -/
def takeFrames (x : PortSt) (mine : Frame → Bool) : Nat → Nat → List TxFrame → List TxFrame × List TxFrame
  | _, _, [] => ([], [])
  | room, left, t :: l =>
    if !mine t.frame then let r := takeFrames x mine room left l; (r.1, t :: r.2)
    else
      let n := blocks x (bodyLen t.frame.body)
      if room = 0 || left < n then ([], t :: l)
      else let r := takeFrames x mine (room - 1) (left - n) l; (t :: r.1, r.2)

/-- R372: a transit frame that waits for a token of the opposite port keeps its receive buffer. -/
def rxFree (d : Dev) (p : Port) : Nat := 32 - ((portOf d (opposite p)).waiting.filter fun t => t.frame.hdr.origin != (linkHdr d 0).origin).length
def sendFrames (d : Dev) (p : Port) (mine : Frame → Bool) (left : Nat) : Dev :=
  let x := portOf d p
  let r := takeFrames x mine (if x.resync then 0 else min 32 x.peerFree - x.retained.length) left x.queue
  let d := setPort d p { x with queue := r.2, retained := x.retained ++ r.1 }
  r.1.foldl (fun d t => sendOut d p t.frame) d
/-- R374: the body of this unit's STATUS. -/
def statusBody (d : Dev) : StatusBody :=
  { devId := Config.deviceId, lcState := d.lc.state, role := BitVec.ofNat 8 (roleCode d.chn.role), fwVersion := d.key.fwVersion, epoch := d.chn.epoch,
    admDigest := admDigestOf (admittedOf d), time := d.chn.time, attestPub := if rootLoaded d then attestPub d else zeros 96 }
def statusOn (d : Dev) (p : Port) : Bool := d.chn.statusDue && (d.chn.openRing || p == .dn)
def sendPort (d : Dev) (p : Port) (own : Bool) (mine : Frame → Bool) : Dev :=
  let x := portOf d p
  if !hears d p then d else
  let ackNow := own && x.ackDue
  let d := if ackNow then
      sendOut (setPort d p { x with ackDue := false, nakDue := false }) p { hdr := linkHdr d 0xFF, body := .ack x.rxNext (rxFree d p) x.nakDue }
    else d
  let statNow := own && statusOn d p
  let d := if statNow then sendOut d p { hdr := linkHdr d 0xFF, body := .status (statusBody d) } else d
  sendFrames d p mine (116 - (if ackNow then blocks x 8 else 0) - (if statNow then blocks x 182 else 0))

/-- The next slot opens. Before enumeration completes links are unslotted; a unit without an address sends its STATUS in the guard of slot 15. -/
def slotStart (d : Dev) : Dev :=
  let k := (d.chn.slot + 1) % 16
  let unslotted := d.chn.role == .enumerating || d.chn.units = 0
  let own := unslotted || (if d.chn.addrValid then k = d.chn.addr else k = 15)
  let mine := fun f : Frame => unslotted || f.hdr.origin.toNat == k || (f.hdr.origin == 0xFF && own)
  let d := setChn d { d.chn with slot := k }
  let d := sendPort (sendPort d .up own mine) .dn own mine
  if own then setChn d { d.chn with statusDue := false } else d

/-- Go-back-N: everything unacknowledged is sent again with RETX. -/
def resend (d : Dev) (p : Port) : Dev :=
  let x := portOf d p
  let d := setPort d p { x with queue := x.retained.map (fun t => { t with frame := { t.frame with hdr := { t.frame.hdr with retx := true } } }) ++ x.queue, retained := [], resync := false }
  setChn d { d.chn with cntRetx := BitVec.ofNat 32 (min 0xFFFFFFFF (d.chn.cntRetx.toNat + x.retained.length)) }

/-- `a` is before `b` in sequence order. -/
def seqBefore (a b : Word) : Bool := (a - b).getLsbD 31
/-- R372; a frame that waits to be sent again is acknowledged too, and gives its token back (01 R17). The first ACK after a port came up is where sending resumes (R373). -/
def onAck (d : Dev) (p : Port) (ackSeq : Word) (free : Nat) (nak : Bool) : Dev :=
  let x := portOf d p
  if !hears d p then d else
  let sent := fun t : TxFrame => t.frame.hdr.retx && seqBefore t.frame.hdr.seq ackSeq
  let gone := (x.retained.filter fun t => seqBefore t.frame.hdr.seq ackSeq) ++ x.queue.filter sent
  let d := setPort d p { x with retained := x.retained.filter (fun t => !seqBefore t.frame.hdr.seq ackSeq), queue := x.queue.filter (fun t => !sent t), peerFree := min 32 free, resync := false }
  let d := gone.foldl (fun d t => retireFrame d p t) d
  let d := setChn d { d.chn with heardInCycle := true }
  if nak || x.resync then resend d p else d

/-! ### Receiving: R365, R371, R372 -/

/-- A sequenced frame in order is taken and acknowledged; out of order it is discarded with NAK, an old one discarded. -/
def accept (d : Dev) (p : Port) (h : LinkHdr) : Option Dev :=
  let x := portOf d p
  if !hears d p then none
  else if h.seq = x.rxNext then
    let d := setPort d p { x with rxNext := x.rxNext + 1, ackDue := true }
    some (setChn d { d.chn with heardInCycle := true })
  else none
def reject (d : Dev) (p : Port) (h : LinkHdr) : Dev :=
  let x := portOf d p
  if !hears d p then d else setPort d p { x with ackDue := true, nakDue := x.nakDue || !seqBefore h.seq x.rxNext }

def forMe (d : Dev) (h : LinkHdr) : Bool := h.dest == 0xFF || (d.chn.addrValid && h.dest.toNat == d.chn.addr)
/-- R371: where a broadcast stops: the next unit would be its origin, or the line ends. -/
def lastHop (d : Dev) (p : Port) (h : LinkHdr) : Bool :=
  let u := max d.chn.units 1
  let next := match p with | .up => (d.chn.addr + 1) % u | .dn => (d.chn.addr + u - 1) % u
  !(portOf d (opposite p)).up || (!d.chn.openRing && h.origin.toNat == next)
/-- Does a frame end here. -/
def endsHere (d : Dev) (p : Port) (h : LinkHdr) : Bool := (h.dest == 0xFF && lastHop d p h) || (h.dest != 0xFF && forMe d h)
/-- Forward a frame that is not (only) for this unit, out of the opposite port in its origin's slot. -/
def forward (d : Dev) (p : Port) (h : LinkHdr) (b : FBody) : Dev :=
  if endsHere d p h then d
  else if 16 ≤ h.hops + 1 then setChn d { d.chn with cntHopDrop := satInc d.chn.cntHopDrop }
  else enqueue d (opposite p) { hdr := { h with hops := h.hops + 1 }, body := b }
/-- 03 R42: a frame addressed to the unit, not a broadcast, wakes it from DOZE (log 74). -/
def woken (d : Dev) (h : LinkHdr) : Dev := if h.dest != 0xFF && forMe d h then wake d .krovloFrame else d
/-- R372: the last 4 receive buffers take only frames addressed to this unit. -/
def refused (d : Dev) (p : Port) (h : LinkHdr) : Bool := !endsHere d p h && decide (rxFree d p ≤ 4)
/-- A sequenced frame arrives: it is forwarded where it must be, and delivered to `f` where it is for this unit. -/
def onFrame (d : Dev) (p : Port) (h : LinkHdr) (b : FBody) (f : Dev → Dev) : Dev :=
  if refused d p h then reject d p h else
  match accept d p h with
  | none => reject d p h
  | some d =>
    let d := forward d p h b
    if forMe d h then f (woken d h) else d
/-- Enumeration frames go from unit to unit. -/
def onHop (d : Dev) (p : Port) (h : LinkHdr) (f : Dev → Dev) : Dev :=
  match accept d p h with
  | none => reject d p h
  | some d => f d

/-! ### Status, leader, chain time: R374-R376 -/

/-- Delay in ns along the path from the leader. -/
def pathDelay (d : Dev) : Nat := (d.chn.delays.take d.chn.addr).foldl (fun a x => a + x / 2) 0
def trackTime (d : Dev) (leaderTime : Quad) : Dev :=
  let off : Int := (leaderTime.toNat : Int) + (pathDelay d : Nat) - (d.chn.time.toNat : Int)
  let m := off.natAbs
  let ev := fun (d : Dev) (sub : Half) => logRec d (recEvent "CHN" sub (b8 (BitVec.ofInt 64 off)))
  if m ≤ 1000000 then (if d.chn.slewing.isSome then d else setChn d { d.chn with trim := off })
  else if m ≤ 1000000000 then
    if d.chn.slewing.isSome then d else ev (setChn d { d.chn with slewing := some off, slewLeft := off, trim := 0 }) 0x0303
  else ev (setChn d { d.chn with time := BitVec.ofNat 64 (leaderTime.toNat + pathDelay d), slewing := none, slewLeft := 0, trim := 0 }) 0x0305

def dupPresent (d : Dev) : Bool :=
  let ids := d.chn.view.map (·.2.body.devId)
  ids.contains Config.deviceId || !decide ids.Nodup
/-- R375: disagreements with the leader. -/
def settle (d : Dev) : Dev :=
  let l := chooseLeader d
  let d := setChn d { d.chn with leader := l }
  let d := if dupPresent d && !d.chn.dupId then
      let d := setChn d { d.chn with dupId := true }
      logRec d (recCrit "CHN" 0x0007 [rChnStatus d])
    else setChn d { d.chn with dupId := dupPresent d }
  let d := match tget d.chn.view l with
    | none => if d.chn.role == .excluded && d.chn.addrValid && decide (l = d.chn.addr) then setChn d { d.chn with role := .member } else d
    | some p =>
      let b := p.body
      let bad := d.chn.epoch == b.epoch && b.admDigest != admDigestOf (admittedOf d)
      let d := if bad && !d.chn.admMismatch then recStatus (setChn d { d.chn with admMismatch := true }) 0 else d
      let major := b.fwVersion.toNat / 65536 != d.key.fwVersion.toNat / 65536
      let d := if !major && decide (d.chn.epoch.toNat < b.epoch.toNat) then (unicast d l .configReq).getD d else d
      let d := if major then setChn d { d.chn with role := .excluded }
               else if d.chn.role == .excluded && d.chn.addrValid then setChn d { d.chn with role := .member } else d
      if !major && b.fwVersion != d.key.fwVersion && !d.chn.fwNoted.contains l then recStatus (setChn d { d.chn with fwNoted := d.chn.fwNoted ++ [l] }) 0 else d
  updateRepl d

/-- A STATUS with the epoch and the list this unit holds acknowledges its CONFIG (log 20). -/
def statusAcks (d : Dev) (a : Nat) (b : StatusBody) : Dev :=
  if b.epoch == d.chn.epoch && b.admDigest == admDigestOf (admittedOf d) then clearWait d a else d

def onStatus (d : Dev) (p : Port) (h : LinkHdr) (b : StatusBody) : Dev :=
  if !hears d p then d else
  let d := setChn d { d.chn with heardInCycle := true }
  let d := if (h.dest == 0xFF && lastHop d p h) || 16 ≤ h.hops + 1 then d else sendOut d (opposite p) { hdr := { h with hops := h.hops + 1 }, body := .status b }
  if 16 ≤ h.origin.toNat || (d.chn.addrValid && h.origin.toNat == d.chn.addr) then d else
  let d := setChn d { d.chn with view := tset d.chn.view h.origin.toNat { body := b, seenAt := d.now } }
  let d := statusAcks (settle d) h.origin.toNat b
  let d := if peerInRepl d b then d else dropRemote d (fun x => x == h.origin.toNat) ST.quorumLost
  if h.origin.toNat = d.chn.leader then trackTime d b.time else d

/-- R374: STATUS every 1 ms, not before the first enumeration has completed (R369); the count of unacknowledged cycles; the leader. -/
def heartbeat (d : Dev) : Dev :=
  let c := d.chn
  let d := setChn d { c with statusDue := (c.addrValid && decide (c.units ≠ 0)) || c.role == .excluded, unacked := if c.heardInCycle then 0 else c.unacked + 1, heardInCycle := false }
  if c.role == .member || c.role == .excluded then settle d else d

/-- R374: 8 unacknowledged cycles, 8 unanswered attempts, or no port that has come up. -/
def solitaryNow (d : Dev) : Bool := decide (8 ≤ d.chn.unacked) || decide (8 ≤ d.chn.attempts) || !d.chn.everUp
def statusLost (d : Dev) (a : Nat) : Dev :=
  if !((tget d.chn.view a).any fun p => decide (p.seenAt + 3200000 ≤ d.now)) then d else
  let d := setChn d { d.chn with view := tdel d.chn.view a }
  clearWait (settle (dropRemote d (fun x => x == a) ST.linkLost)) a

def slewEnd (d : Dev) : Dev :=
  match d.chn.slewing with
  | none => d
  | some off =>
    let d := setChn d { d.chn with slewing := none, slewLeft := 0, time := BitVec.ofInt 64 ((d.chn.time.toNat : Int) + d.chn.slewLeft) }
    logRec d (recEvent "CHN" 0x0304 (b8 (BitVec.ofInt 64 off)))

/-! ### Admission and epoch: R375, R377 -/

/-- A CONFIG frame with a list is adopted unless it would lower the epoch; an empty one asks for this unit's (log 20). -/
def onConfig (d : Dev) (h : LinkHdr) (epoch : Quad) (admitted : List Bytes) : Dev :=
  if admitted.isEmpty then (unicast d h.origin.toNat (.config d.chn.epoch (admittedOf d))).getD d
  else if epoch.toNat ≤ d.chn.epoch.toNat then d
  else
    let d := recChnConfig (setChn d { d.chn with epoch, admitted, admMismatch := false })
    updateRepl (setChn d { d.chn with statusDue := true })

/-- Bitmap of the units whose acknowledgement is awaited. -/
def bitmapOf (l : List Nat) : Half := l.foldl (fun b a => b ||| BitVec.ofNat 16 (2 ^ a)) 0
/-- Take a new epoch and list, broadcast CONFIG, wait for every unit in replication. -/
def newConfig (d : Dev) (rid : Nat) (epoch : Quad) (admitted : List Bytes) : Dev :=
  let wait := bitmapOf (replPeers d)
  let d := recChnConfig (setChn d { d.chn with epoch, admitted, admMismatch := false })
  match broadcast d (.config epoch admitted) (some rid) with
  | none => finish d rid ST.frameLong
  | some d => settleConfigs (updateRepl (setChn d { d.chn with statusDue := true, cfgWaits := d.chn.cfgWaits ++ [{ rid, waitFor := wait }] }))

def runChnAdmit (d : Dev) (c : Cmd) : Dev :=
  let a := pByte c 0
  let id := if d.chn.addrValid && a = d.chn.addr then some Config.deviceId else (tget d.chn.view a).map (·.body.devId)
  match firstFail (preChecks d c whoP (stateU d) (parse c 4 [(1, 3)]) (noKeyOwner c && decide (a < 16)) 0 ++ replChecks d ++ [(id.isNone, ST.param)]) with
  | some st => finish d c.rid st
  | none =>
    match quorumIf (fielded d) d c 0 with
    | (d, some st) => finish d c.rid st
    | (d, none) =>
      let l := admittedOf d
      let i := id.getD []
      newConfig d c.rid (BitVec.ofNat 64 (selfEpochMax d + 1)) (if l.contains i then l else l ++ [i])

def runChnSetEpoch (d : Dev) (c : Cmd) : Dev :=
  let e := quad c.params 0
  match firstFail (preChecks d c whoP (stateU d) (parse c 8) (noKeyOwner c && decide (d.chn.epoch.toNat < e.toNat)) 0 ++ replChecks d) with
  | some st => finish d c.rid st
  | none =>
    match quorumIf (fielded d) d c 0 with
    | (d, some st) => finish d c.rid st
    | (d, none) => newConfig d c.rid e (admittedOf d)

/-! ### Replication: R378 -/

def ringKey (d : Dev) (peerPub nonce : Bytes) : Bytes :=
  hkdfExpand (hkdfExtract nonce (Config.agree 0x21 (attestScalar d) peerPub [])) (ascii "DX48 RING") 32

def replicaFor (d : Dev) (k : LiveKey) (h : Word) (mode : Byte) (p : StatusBody) : Dev × ReplicaBody :=
  let (n, d) := draw d 32
  let key := ringKey d p.attestPub n
  (d, { type := k.type, usage := k.usage, length := k.bytes.length, owner := k.owner, mode, srcHandle := h, nonce := n,
        cipher := Config.gcmCt key (n.take 12) [] k.bytes ++ Config.gcmTag key (n.take 12) [] k.bytes })

/-- Send the key to every other unit in replication; none where a frame is longer than its path. -/
def sendReplicas (d : Dev) (rid : Nat) (k : LiveKey) (h : Word) (mode : Byte) : List Nat → Option Dev
  | [] => some d
  | a :: l =>
    match tget d.chn.view a with
    | none => sendReplicas d rid k h mode l
    | some p =>
      let r := replicaFor d k h mode p.body
      match unicast r.1 a (.replica r.2) (some rid) with
      | none => none
      | some d => sendReplicas d rid k h mode l

def markReplicated (d : Dev) (r : KRef) : Dev :=
  match r with
  | .slot s => match tget d.key.slots s with
    | some x => { d with key := { d.key with slots := tset d.key.slots s { x with replicated := true } } }
    | none => d
  | .bank _ => d

def runChnReplicate (d : Dev) (c : Cmd) : Dev :=
  let k := keyFor d c c.key
  let usageOk := match k with | some k => k.usage.getLsbD uReplicate && !hAon c.key | none => true
  let checks := keyPre d c (parse c 0) true 2 ++ keyChecks d c c.key (fun _ => true) none ++ [(!usageOk, ST.param)] ++ replChecks d
  match firstFail checks with
  | some st => finish d c.rid st
  | none =>
    match (match useQuorum d c c.key with | some o => quorumGate d c o | none => (d, none)) with
    | (d, some st) => finish d c.rid st
    | (d, none) =>
      if !drbgReady d then finish d c.rid ST.rngFail else
      match claimResult d c 2, keyFor d c c.key, ownerOf d c.owner.toNat with
      | none, _, _ => endNoCells d c
      | some d, some k, some w =>
        if maskBad c then maskFault d else
        (match sendReplicas (markReplicated (touchKey d k.ref) k.ref) c.rid k c.key w.mode (replPeers d) with
         | none => finish d c.rid ST.frameLong
         | some d => setChn d { d.chn with replicates := d.chn.replicates ++ [{ rid := c.rid, handle := c.key, since := d.now }] })
      | some d, _, _ => finish d c.rid ST.handleBad

def dropReplica (d : Dev) (id : Bytes) (h : Word) : Dev :=
  match d.key.replicas.find? fun r => r.1 == (id, h) with
  | some r => unloadSlot { d with key := { d.key with replicas := d.key.replicas.filter fun x => x.1 != (id, h) } } r.2
  | none => d

def onReplica (d : Dev) (h : LinkHdr) (b : ReplicaBody) : Dev :=
  match tget d.chn.view h.origin.toNat, ownerOf d b.owner.toNat with
  | some p, some w =>
    if !selfInRepl d || !peerInRepl d p.body || w.mode != b.mode || !slotRoom d .pf b.owner.toNat || !drbgReady d then d else
    let ct := b.cipher.take (b.cipher.length - 16)
    match Config.gcmOpen (ringKey d p.body.attestPub b.nonce) (b.nonce.take 12) [] ct (b.cipher.drop (b.cipher.length - 16)) with
    | none => d
    | some k =>
      if k.length != b.length || !storedLenOk b.type b.length then d else
      let d := dropReplica d p.body.devId b.srcHandle
      match loadKey d .pf b.type b.usage b.owner k with
      | none => d
      | some (x, d) =>
        let d := { d with key := { d.key with replicas := d.key.replicas ++ [((p.body.devId, b.srcHandle), hIndex x)] } }
        (unicast d h.origin.toNat (.replAck b.srcHandle)).getD d
  | _, _ => d

def onReplAck (d : Dev) (h : LinkHdr) (src : Word) : Dev :=
  setChn d { d.chn with replicates := d.chn.replicates.map fun r =>
    if r.handle = src then { r with bitmap := r.bitmap ||| BitVec.ofNat 16 (2 ^ (h.origin.toNat % 16)) } else r }
/-- R378: 100 ms. -/
def replicateEnd (d : Dev) : Dev :=
  match d.chn.replicates with
  | [] => d
  | r :: l => if r.since + 40000000 ≤ d.now then finish (setChn d { d.chn with replicates := l }) r.rid ST.ok (b2 r.bitmap) else d

/-! ### Results of remote requests: R379, R380 -/

/-- The local request that waits for a run. -/
def remoteReq (d : Dev) (seq : Word) : Option (Nat × Req) :=
  d.reqs.find? fun e => (match e.2.stage with | .remote _ => true | _ => false) && e.2.seq == seq
def dropRun (d : Dev) (seq : Word) : Dev :=
  match tget d.chn.results seq.toNat with
  | some r => freeCells (setChn d { d.chn with results := tdel d.chn.results seq.toNat }) H.krovlo r.cells
  | none => d
/-- R271, R380: a part that is held stands in the Krovlo allotment. -/
def holdPart (d : Dev) (b : ResultBody) (r : ResultRun) : Dev :=
  let c := (claimCells d (.krovlo 0) (cellsFor (bodyLen (.result b)))).getD (d, [])
  setChn c.1 { c.1.chn with results := tset c.1.chn.results b.reqSeq.toNat { r with cells := r.cells ++ c.2 } }
def endRun (d : Dev) (seq : Word) (st : Half) (res : Bytes) (detail : Word) : Dev :=
  let d := dropRun d seq
  match remoteReq d seq with
  | some e =>
    let room := res.length + if e.2.pass2 && !res.isEmpty then 28 else 0
    if e.2.dataCap < room then finish d e.1 ST.resultSpace else finish d e.1 st res detail
  | none => d

def onResult (d : Dev) (b : ResultBody) : Dev :=
  match remoteReq d b.reqSeq with
  | none => d
  | some _ =>
    let run : ResultRun := match tget d.chn.results b.reqSeq.toNat with
      | some r => r
      | none => { completion := b.completion, bytes := [], total := b.total, since := d.now }
    let started := (tget d.chn.results b.reqSeq.toNat).isSome
    if b.first == started || b.offset != run.bytes.length then endRun d b.reqSeq ST.linkLost [] 0
    else
      let r := { run with bytes := run.bytes ++ b.result }
      if b.more then holdPart d b r
      else if r.bytes.length != r.total then endRun d b.reqSeq ST.linkLost [] 0
      else endRun d b.reqSeq (half r.completion 8) r.bytes (word r.completion 20)

/-! ### Co-signing: R381 -/

def onCosignReq (d : Dev) (p : Port) (h : LinkHdr) (g : Bytes) : Dev :=
  let o := h.origin.toNat
  let recent := d.chn.cosigTimes.filter fun t => decide (d.now < t.2 + secondCycles)
  match tget d.chn.view o with
  | none => d
  | some x =>
    if !selfInRepl d || !peerInRepl d x.body || x.body.lcState != d.lc.state || !rootLoaded d ||
        decide (16 ≤ (recent.filter fun t => decide (t.1 = o)).length) then d
    else
      let d := setChn d { d.chn with cosigTimes := recent ++ [(o, d.now)] }
      { d with pkeWait := d.pkeWait ++ [.secure { rid := none, issuer := .secure, kind := .cosign (p == .dn) o g, alg := 0x21 }] }
/-- The engine has signed SHA-384 of digest ‖ DEVICE_ID. -/
def cosigned (d : Dev) (origin : Nat) (g rnd : Bytes) : Dev :=
  (unicast d origin (.cosign Config.deviceId (Config.pkSign 0x21 96 3 0 false (attestScalar d) (g ++ Config.deviceId) rnd))).getD d

def onCosign (d : Dev) (h : LinkHdr) (id sig : Bytes) : Dev :=
  match d.bwt.sealing, tget d.chn.view h.origin.toNat with
  | some s, some p =>
    if s.windowOpen && p.body.devId == id && decide (s.cosigs.length < 15) && Config.pkVerify 0x21 3 0 false p.body.attestPub (s.digest ++ id) sig then
      { d with bwt := { d.bwt with sealing := some { s with cosigs := tset s.cosigs h.origin.toNat (id, sig) } } }
    else d
  | _, _ => d

/-! ### The commands -/

/-- 10 R178, 22 MGT.ALERT: a change of role sets alert bit 4; it, and a port that comes up or goes down, signal PF vector 7 (log 10). -/
def noteLink (d e : Dev) : Dev :=
  let e := if d.chn.role = e.chn.role then e else alert e 4
  if d.chn.role = e.chn.role && d.chn.up.up = e.chn.up.up && d.chn.dn.up = e.chn.dn.up then e else signal e .pf 7
def onChn (f : Dev → Dev) (s : State) : Host.Outcome State Fault Refusal := onDev (fun d => noteLink d (f d)) s

def execChnReplicate (r : Request) (s : State) : Host.Outcome State Fault Refusal := onDev (fun d => command d 0x0702 r runChnReplicate) s
def execChnAdmit (r : Request) (s : State) : Host.Outcome State Fault Refusal := onDev (fun d => command d 0x0703 r runChnAdmit) s
def execChnSetEpoch (r : Request) (s : State) : Host.Outcome State Fault Refusal := onDev (fun d => command d 0x0704 r runChnSetEpoch) s
def execLaneBlockLock (p : Port) (lane : Fin 2) (s : State) : Host.Outcome State Fault Refusal := onDev (fun d => lockLane d p lane.val) s
def execLaneLockLoss (p : Port) (lane : Fin 2) (s : State) : Host.Outcome State Fault Refusal := onChn (fun d => loseLane d p lane.val) s
def execTrain (p : Port) (t : TrainInfo) (s : State) : Host.Outcome State Fault Refusal := onChn (fun d => onTrain d p t) s
def execLaneTrainTimeout (p : Port) (lane : Fin 2) (s : State) : Host.Outcome State Fault Refusal := onChn (fun d => onLaneTimeout d p lane.val) s
def execLinkHoldExpire (p : Port) (s : State) : Host.Outcome State Fault Refusal := onChn (fun d => returnFrames d p) s
def execSlotStart (s : State) : Host.Outcome State Fault Refusal := onDev slotStart s
/-- R366: a false mark is counted; a frame whose BCRC fails is lost and shows as a gap. -/
def execFrameCorrupt (p : Port) (k : Corrupt) (s : State) : Host.Outcome State Fault Refusal :=
  onDev (fun d => match k with
    | .falseMark => if (portOf d p).up then setChn d { d.chn with cntMarkFalse := satInc d.chn.cntMarkFalse } else d
    | .badBody => d) s
def execAck (p : Port) (ackSeq : Word) (rxFree : Nat) (nak : Bool) (s : State) : Host.Outcome State Fault Refusal := onDev (fun d => onAck d p ackSeq rxFree nak) s
def execRetxTimeout (p : Port) (s : State) : Host.Outcome State Fault Refusal := onDev (fun d => if (portOf d p).up then resend d p else d) s
def execStatus (p : Port) (h : LinkHdr) (b : StatusBody) (s : State) : Host.Outcome State Fault Refusal := onChn (fun d => onStatus d p h b) s
def execHeartbeat (s : State) : Host.Outcome State Fault Refusal := onChn heartbeat s
def execSolitary (s : State) : Host.Outcome State Fault Refusal := onChn (fun d => if solitaryNow d then becomeSolitary d else d) s
def execStatusTimeout (addr : Fin 16) (s : State) : Host.Outcome State Fault Refusal := onChn (fun d => statusLost d addr.val) s
def execEnumerate (p : Port) (h : LinkHdr) (head : Bytes) (next : Nat) (s : State) : Host.Outcome State Fault Refusal :=
  onChn (fun d => onHop d p h fun d => onEnumerate d p head next) s
def execEnumBack (p : Port) (h : LinkHdr) (head : Bytes) (next : Nat) (s : State) : Host.Outcome State Fault Refusal :=
  onChn (fun d => onHop d p h fun d => onEnumBack d p head next) s
/-- R367: the head still waits for an answer to its run: at most 8 attempts, and without limit while SOLITARY. -/
def retries (c : Chn) : Bool := c.role == .solitary || (c.enumRunning && decide (c.attempts < 8))
/-- Another attempt; those of a SOLITARY unit beyond the 8th are no run of REENUM any more. -/
def retryEnum (d : Dev) : Dev :=
  let runs := d.chn.enumRunning && decide (d.chn.attempts < 8)
  let d := startEnum d
  setChn d { d.chn with enumRunning := runs }
/-- 00 R6, R367: REENUM is ignored in a unit that is no head, and while the enumeration it starts runs. -/
def reenum (d : Dev) : Dev := if isHead d && !d.chn.enumRunning then startEnum (setChn d { d.chn with attempts := 0 }) else d
/-- R367: 1 ms (solitary: 100 ms) without an answer. -/
def execEnumerateRetry (s : State) : Host.Outcome State Fault Refusal :=
  onChn (fun d => if isHead d && retries d.chn && (d.chn.up.up || d.chn.dn.up) then retryEnum d else d) s
def execReenum (s : State) : Host.Outcome State Fault Refusal := onChn reenum s
def execNoAddressTimeout (s : State) : Host.Outcome State Fault Refusal := onChn (fun d => if !isHead d && d.chn.everUp && !d.chn.addrValid && d.chn.role != .excluded then becomeSolitary d else d) s
def execRoster (p : Port) (h : LinkHdr) (head : Bytes) (units : Nat) (closed : Bool) (delays : List Nat) (s : State) : Host.Outcome State Fault Refusal :=
  onChn (fun d => onFrame d p h (.roster head units closed delays) fun d => onRoster d head units closed delays) s
def execConfig (p : Port) (h : LinkHdr) (epoch : Quad) (admitted : List Bytes) (s : State) : Host.Outcome State Fault Refusal :=
  onDev (fun d => onFrame d p h (if admitted.isEmpty then .configReq else .config epoch admitted) fun d => onConfig d h epoch admitted) s
def execReplica (p : Port) (h : LinkHdr) (b : ReplicaBody) (s : State) : Host.Outcome State Fault Refusal := onDev (fun d => onFrame d p h (.replica b) fun d => onReplica d h b) s
def execReplAck (p : Port) (h : LinkHdr) (srcHandle : Word) (s : State) : Host.Outcome State Fault Refusal :=
  onDev (fun d => onFrame d p h (.replAck srcHandle) fun d => onReplAck d h srcHandle) s
/-- R378: 100 ms after the replicas were sent. -/
def execReplicateWindowEnd (s : State) : Host.Outcome State Fault Refusal := onDev replicateEnd s
def execReplDrop (p : Port) (h : LinkHdr) (srcHandle : Word) (s : State) : Host.Outcome State Fault Refusal :=
  onDev (fun d => onFrame d p h (.replDrop srcHandle) fun d => dropReplica d (peerId d h.origin.toNat) srcHandle) s
def execResult (p : Port) (h : LinkHdr) (b : ResultBody) (s : State) : Host.Outcome State Fault Refusal := 
  onDev (fun d => if forMe d h && b.more && decide (cellRoom d H.krovlo < cellsFor (bodyLen (.result b))) then reject d p h
                  else onFrame d p h (.result b) fun d => onResult d b) s
/-- R380: 10 ms after the first part. -/
def execResultRunTimeout (reqSeq : Word) (s : State) : Host.Outcome State Fault Refusal :=
  onDev (fun d => match tget d.chn.results reqSeq.toNat with
    | some r => if r.since + 4000000 ≤ d.now then endRun d reqSeq ST.linkLost [] 0 else d
    | none => d) s
def execCosignReq (p : Port) (h : LinkHdr) (digest : Bytes) (s : State) : Host.Outcome State Fault Refusal :=
  onDev (fun d => onFrame d p h (.cosignReq digest) fun d => onCosignReq d p h digest) s
def execCosign (p : Port) (h : LinkHdr) (devId sig : Bytes) (s : State) : Host.Outcome State Fault Refusal :=
  onDev (fun d => onFrame d p h (.cosign devId sig) fun d => onCosign d h devId sig) s
def execChainTimeSlewEnd (s : State) : Host.Outcome State Fault Refusal := onDev slewEnd s

end Sys2Proof.Machine
end

