-- ==== Sys2Proof/Machine/Cards.lean ====
section
/-! DEFINITION. The card slots (08): insertion and supply, identification, issuing a Tack, presenting one. -/

namespace Sys2Proof.Machine

def setSlot (d : Dev) (x : Slot) (c : CardSlot) : Dev :=
  match x with | .a => { d with crd := { d.crd with a := c } } | .b => { d with crd := { d.crd with b := c } }

namespace CardFault
def short : BitVec 4 := 1
def notReady : BitVec 4 := 2
def bus : BitVec 4 := 3
def cardBad : BitVec 4 := 4
def wrongOwner : BitVec 4 := 5
def dup : BitVec 4 := 6
def pulled : BitVec 4 := 7
end CardFault

/-- 19 R456: EVENT of a card-slot fault. -/
def recSlot (d : Dev) (x : Slot) : Dev :=
  let c := slotOf d x
  logRec d (recEvent "CRD" (0x0100 + c.fault.setWidth 16) ((match x with | .a => 0 | .b => 1) :: b4 (rCrdSlot c)))
/-! ### The bus: R137, R138 -/

def CardCmd.index : CardCmd → Nat
  | .cmd0 => 0 | .cmd1 => 1 | .cmd3 => 3 | .cmd7 => 7 | .cmd6Width => 6 | .cmd6Timing => 6 | .cmd13 => 13 | .cmd15 => 15 | .cmd17 _ => 17 | .cmd24 _ => 24
/-- The relative address that CMD3 assigns. -/
def cardRel (x : Slot) : Word := match x with | .a => 0x00010000 | .b => 0x00020000
def cardArg (x : Slot) : CardCmd → Word
  | .cmd0 => 0
  | .cmd1 => 0x40FF8000
  | .cmd3 => cardRel x | .cmd7 => cardRel x | .cmd13 => cardRel x | .cmd15 => cardRel x
  | .cmd6Width => 0x03B70100
  | .cmd6Timing => 0x03B90100
  | .cmd17 b => BitVec.ofNat 32 b.val
  | .cmd24 b => BitVec.ofNat 32 b.val
/-- The block a command writes: block 1, the request. -/
def cardData (d : Dev) (x : Slot) : CardCmd → Bytes
  | .cmd24 _ => match (slotOf d x).exch with | some e => e.request | none => []
  | _ => []
def cardCmd (d : Dev) (x : Slot) (c : CardCmd) : Dev := emit d (.card x c (cardArg x c) (cardData d x c))
def cardCmds (d : Dev) (x : Slot) (l : List CardCmd) : Dev := l.foldl (fun d c => cardCmd d x c) d

/-- A fault that ends the exchange: the ephemeral key is destroyed and a record written; PF vector 6 (log 10). -/
def slotFault (d : Dev) (x : Slot) (f : BitVec 4) (supply : Bool) (phase : Phase) : Dev :=
  signal (recSlot (setSlot d x { slotOf d x with fault := f, exch := none, supply, phase }) x) .pf 6
/-- One that leaves the card powered: CMD15 ends the exchange (R137). -/
def slotEnds (d : Dev) (x : Slot) (f : BitVec 4) : Dev := slotFault (cardCmd d x .cmd15) x f true .done

/-- R141: identification and exchanges run in RUN. -/
def cardsRun (d : Dev) : Bool := d.glb.power == .run

/-- R140: DET_N falls; R141: a card-detect change wakes the device (03 R42). -/
def cardInserted (d : Dev) (x : Slot) : Dev :=
  let c := slotOf d x
  if c.phase == .empty then
    setSlot (wake d .cardDetect) x { c with phase := .debounce, fault := 0 }
  else d
/-- R140, R152: the slot's supply comes on once the slots are enabled; CMD0 resets the card. -/
def slotPowered (d : Dev) (x : Slot) : Dev :=
  let c := slotOf d x
  if c.phase == .debounce && d.glb.bankCrd == .released && cardsRun d then
    cardCmd (setSlot d x { c with present := true, supply := true, polls := 0, busFails := 0, foldBack := false, pushPull := false, wide := false, phase := .identification }) x .cmd0
  else d
/-- R149: only a PRESENT exchange that is cut shows PULLED. -/
def cardPulled (d : Dev) (x : Slot) : Dev :=
  let c := slotOf d x
  setSlot (wake d .cardDetect) x { c with present := false, supply := false, foldBack := false, phase := .empty, exch := none,
                                          fault := if c.exch.any (fun e => !e.issue) then CardFault.pulled else c.fault }

/-- R138, R150: CMD1 and its response. A card that is ready gets its address, is selected, and set to four lines at 52 MHz, or kept at one and 26 MHz where it refuses. -/
def cmd1 (d : Dev) (x : Slot) (r : CmdAnswer) : Dev :=
  let c := slotOf d x
  if c.phase != .identification || !cardsRun d then d else
  let c := { c with polls := c.polls + 1, busFails := 0 }
  let d := cardCmd (setSlot d x c) x .cmd1
  match r.response with
  | some w =>
    if bit w 31 then
      if bit w 21 && bit w 20 then
        setSlot (cardCmds d x [.cmd3, .cmd7, .cmd6Width, .cmd6Timing]) x { c with phase := .transfer, pushPull := true, wide := r.widthOk && r.timingOk }
      else slotFault d x CardFault.cardBad false .done
    else if 100 ≤ c.polls then slotFault d x CardFault.notReady false .done else d
  | none => if 100 ≤ c.polls then slotFault d x CardFault.notReady false .done else d

/-- R139: a failed command is repeated up to three times; its fourth failure ends the exchange, and identification leaves an empty slot (R149). -/
def busError (d : Dev) (b : BusFail) : Dev :=
  let x := b.slot
  let c := slotOf d x
  if !c.supply then d else
  let n := if b.again then c.busFails + 1 else 1
  if n < 4 then cardCmd (setSlot d x { c with busFails := n }) x b.cmd
  else slotFault (setSlot d x { c with busFails := 0 }) x CardFault.bus false (if c.phase == .identification then .empty else .done)
/-- R141. -/
def supplyLimit (d : Dev) (x : Slot) : Dev := if (slotOf d x).supply then setSlot d x { slotOf d x with foldBack := true } else d
def slotShort (d : Dev) (x : Slot) : Dev := if (slotOf d x).foldBack then slotFault d x CardFault.short false .disabled else d

/-! ### Exchanges: R142-R145 -/

/-- Bytes [0:23], then the whole of block 1. -/
def requestHead (op index owner : Byte) : Bytes := b2 0xC111 ++ [op, index, owner, 0, 0, 0] ++ Config.deviceId
def requestBlock (head nonce ephPub opDigest share : Bytes) : Bytes := head ++ nonce ++ ephPub ++ opDigest ++ Config.fit 64 share
/-- R143. -/
def tackKey (eph pub nonce : Bytes) : Bytes := hkdfExpand (hkdfExtract nonce (Config.agree 0x21 eph pub [])) (ascii "DX48 TACK") 32

/-- R143: an exchange begins with a request for an engine, which generates the ephemeral key and agrees with the card's. -/
def cardOp (kind : PkeKind) : Waiting := .secure { rid := none, issuer := .secure, kind, alg := 0x21 }
def beginExchange (d : Dev) (x : Slot) (issue : Bool) (owner index : Nat) (desc : CardDesc) (opDigest share : Bytes) : Dev :=
  let d' := setSlot { d with rng := d.rng + 1 } x { slotOf d x with busFails := 0, exch := some { issue, owner, index, desc, nonce := [], eph := [], request := opDigest, share, id := d.rng } }
  { d' with pkeWait := d'.pkeWait ++ [cardOp (.cardKey (x == .b) d.rng)] }
/-- The engine has the ephemeral key: the nonce is drawn, and block 1 is built and written (steps 2 of R144, 3 of R145). -/
def cardKeyed (d : Dev) (x : Slot) (i : Nat) (rnd : Bytes) : Dev :=
  match (slotOf d x).exch with
  | none => d
  | some e =>
    if e.id != i || (slotOf d x).phase != .transfer then d else
    let (nonce, d) := draw d 32
    let eph := Config.keyGen 0x21 0 48 rnd
    let hd := requestHead (if e.issue then 1 else 2) (BitVec.ofNat 8 e.index) (BitVec.ofNat 8 e.owner)
    let k := tackKey eph e.desc.pub nonce
    let sh := if e.issue then Config.gcmCt k (nonce.take 12) hd e.share ++ Config.gcmTag k (nonce.take 12) hd e.share else []
    let req := requestBlock hd nonce (Config.pkPublic 0x21 96 eph []) e.request sh
    cardCmd (setSlot d x { slotOf d x with phase := .exchange, exch := some { e with nonce, eph, request := req } }) x (.cmd24 1)

/-- The descriptor read shows in CRD.SLOTx_STATUS. -/
def readDesc (d : Dev) (x : Slot) (c : CardDesc) : Dev := setSlot d x { slotOf d x with index := c.index.setWidth 4, owner := c.owner }

/-- Whose Tack goes to the next blank card. Where several owners are enrolling the spec names no order: the lowest owner ID first (log 83). One whose secret a wipe has destroyed waits for its lapse (R152). -/
def enrolling (d : Dev) : Option (Nat × Owner × Enrol) :=
  d.key.owners.findSome? fun w => w.2.enrol.bind fun e => if e.secret.isEmpty then none else some (w.1, w.2, e)

/-- R144: the next Tack of an enrolling owner goes to a blank card. -/
def issueTack (d : Dev) (x : Slot) (c : CardDesc) : Dev :=
  if (slotOf d x).phase != .transfer || (slotOf d x).exch.isSome || !cardsRun d then d else
  let busy := [Slot.a, Slot.b].any fun y => (match (slotOf d y).exch with | some e => e.issue | none => false)
  match enrolling d with
  | none => d
  | some (o, _, e) =>
    if busy || !drbgReady d then d
    else
      let d := readDesc (cardCmd d x (.cmd17 0)) x c
      if c.format != 0xC101 || c.tackState != 0 then slotEnds d x CardFault.cardBad
      else beginExchange d x true o e.next c (zeros 48) (Config.fit 48 (Config.shareRaw e.secret e.m e.n e.next))

/-- R145 steps 2 and 3. -/
def presentTack (d : Dev) (x : Slot) (c : CardDesc) : Dev :=
  if (slotOf d x).phase != .transfer || (slotOf d x).exch.isSome || !cardsRun d then d else
  match d.crd.session with
  | none => d
  | some s =>
    if !drbgReady d then d else
    let d := readDesc (cardCmd d x (.cmd17 0)) x c
    if c.format != 0xC101 || c.tackState != 1 then slotEnds d x CardFault.cardBad
    else if c.owner.toNat != s.owner then slotEnds d x CardFault.wrongOwner
    else match (ownerOf d s.owner).bind fun w => tget w.shares c.index.toNat with
      | none => slotEnds d x CardFault.cardBad
      | some sh =>
        if sh.serial != c.serial || sh.pub != c.pub then slotEnds d x CardFault.cardBad
        else beginExchange d x false s.owner c.index.toNat c s.digest []

/-- The last poll of step 4 shows the card ready (log 82); block 2 is read, and block 0 again after an ISSUE. Step 5 waits for an engine (R143, 16 R290). -/
def cardReplied (d : Dev) (x : Slot) (r : CardReplyBlock) (after : CardDesc) : Dev :=
  let c := slotOf d x
  match c.exch with
  | none => d
  | some e =>
    if e.reply.isSome || c.phase != .exchange || !cardsRun d then d else
    let d := cardCmds d x ([.cmd13, .cmd17 2] ++ if e.issue then [.cmd17 0] else [])
    let d := setSlot d x { c with busFails := 0, exch := some { e with reply := some (r, after) } }
    { d with pkeWait := d.pkeWait ++ [cardOp (.cardExchange (x == .b) e.id)] }

def replyBytes (r : CardReplyBlock) : Bytes := b2 r.format ++ [r.result] ++ zeros 5 ++ Config.fit 64 r.share
def replyOk (e : Exchange) (r : CardReplyBlock) : Bool :=
  r.format == 0xC112 && r.result == 0 && Config.pkVerify 0x21 3 0 false e.desc.pub (e.request ++ replyBytes r) r.signature

/-- The exchange ends well: step 6 issues CMD15. -/
def exchangeDone (d : Dev) (x : Slot) : Dev := setSlot (cardCmd d x .cmd15) x { slotOf d x with phase := .done, exch := none }
/-- R147, R151: count a Tack of the open session. Where both slots come to it in one fabric cycle with the same index, slot A's is counted and slot B reports DUP. -/
def countTack (d : Dev) (x : Slot) (e : Exchange) : Dev :=
  let d := exchangeDone d x
  match d.crd.session with
  | none => d
  | some s =>
    if s.owner != e.owner || slice e.request 152 48 != s.digest then d
    else if s.indices.getLsbD (e.index - 1) then
      if x == .a && s.countedB == some (e.index, d.now) then
        slotFault { d with crd := { d.crd with session := some { s with countedB := none } } } .b CardFault.dup true .done
      else slotFault d x CardFault.dup true .done
    else
      let n := s.indices ||| BitVec.ofNat 8 (2 ^ (e.index - 1))
      signal { d with crd := { d.crd with session := some { s with indices := n, met := decide (s.mEff ≤ popCount8 n), countedB := if x == .b then some (e.index, d.now) else s.countedB } } } .pf 6

/-- R144: an issued Tack enters the owner record; after the last one the owner is no longer enrolling. -/
def keepShare (d : Dev) (x : Slot) (e : Exchange) : Dev :=
  let d := exchangeDone d x
  match ownerOf d e.owner with
  | none => d
  | some w =>
    match w.enrol with
    | none => d
    | some n =>
      if n.next != e.index then d else
      let shares := tset w.shares e.index { serial := e.desc.serial, pub := e.desc.pub, check := (Config.sha384 (e.share ++ w.salt)).take 16 }
      let w := { w with shares }
      saveTable (setOwner d e.owner (if n.next = n.n then { w with m := n.m, n := n.n, enrol := none }
                                     else { w with enrol := some { n with next := n.next + 1, since := d.now } }))

/-- The engine has done the work of step 5 (R145), or of steps 3 and 4 of R144. -/
def cardChecked (d : Dev) (x : Slot) (i : Nat) : Dev :=
  match (slotOf d x).exch with
  | none => d
  | some e =>
    match (if e.id = i then e.reply else none) with
    | none => d
    | some (r, after) =>
      if !replyOk e r then slotEnds d x CardFault.cardBad
      else if e.issue then
        let d := readDesc d x after
        if after.tackState == 1 && after.index.toNat == e.index && after.owner.toNat == e.owner then keepShare d x e
        else slotEnds d x CardFault.cardBad
      else
        let ct := r.share.take 48
        match Config.gcmOpen (tackKey e.eph e.desc.pub e.nonce) (e.nonce.take 12) (e.request.take 24) ct (slice r.share 48 16), ownerOf d e.owner with
        | some sh, some w =>
          (match tget w.shares e.index with
           | some k => if (Config.sha384 (sh ++ w.salt)).take 16 == k.check then countTack d x e else slotEnds d x CardFault.cardBad
           | none => slotEnds d x CardFault.cardBad)
        | _, _ => slotEnds d x CardFault.cardBad
/-- The engine of an exchange has failed its check. -/
def cardFailed (d : Dev) (x : Slot) (i : Nat) : Dev :=
  if (slotOf d x).exch.any fun e => e.id == i then slotEnds d x CardFault.cardBad else d

def execCardInsert (slot : Slot) (s : State) : Host.Outcome State Fault Refusal := onDev (fun d => cardInserted d slot) s
def execSlotPowerUp (slot : Slot) (s : State) : Host.Outcome State Fault Refusal := onDev (fun d => slotPowered d slot) s
def execCardPull (slot : Slot) (s : State) : Host.Outcome State Fault Refusal := onDev (fun d => cardPulled d slot) s
def execCmd1Poll (slot : Slot) (answer : CmdAnswer) (s : State) : Host.Outcome State Fault Refusal := onDev (fun d => cmd1 d slot answer) s
def execCardBusError (e : BusFail) (s : State) : Host.Outcome State Fault Refusal := onDev (fun d => busError d e) s
def execCardSupplyLimit (slot : Slot) (s : State) : Host.Outcome State Fault Refusal := onDev (fun d => supplyLimit d slot) s
def execShort (slot : Slot) (s : State) : Host.Outcome State Fault Refusal := onDev (fun d => slotShort d slot) s
def execIssue (slot : Slot) (desc : CardDesc) (s : State) : Host.Outcome State Fault Refusal := onDev (fun d => issueTack d slot desc) s
def execPresent (slot : Slot) (desc : CardDesc) (s : State) : Host.Outcome State Fault Refusal := onDev (fun d => presentTack d slot desc) s
def execCardReply (slot : Slot) (reply : CardReplyBlock) (after : CardDesc) (s : State) : Host.Outcome State Fault Refusal := onDev (fun d => cardReplied d slot reply after) s

end Sys2Proof.Machine
end

