-- ==== Sys2Proof/Machine/Engines.lean ====
section
/-! DEFINITION. The public-key engines at work (16 R289-R308): choosing the next operation, its end, windows and balances; PKE_SET_CHANNEL, FW_STAGE, FW_ACTIVATE, SELF_TEST (13 R254). -/

namespace Sys2Proof.Machine

/-! ### Weighted round robin: 11 R199 -/

/-- Weight of an issuer by its number: a metered stall's WEIGHT in force, otherwise 8. -/
def weightOf (d : Dev) (i : Nat) : Nat := if i < 64 && (stall d i).fMetered then (stall d i).fWeight else 8
/-- The next issuer of a round among those with work, and the round after it. -/
def wrrPick (round : Tab Nat) (weight : Nat → Nat) (cands : List Nat) : Option (Nat × Tab Nat) :=
  match cands.find? fun i => decide (tgetD round i 0 < weight i) with
  | some i => some (i, tset round i (tgetD round i 0 + 1))
  | none => match cands with | [] => none | i :: _ => some (i, [(i, 1)])

/-- Lanes that have become free take waiting commands: stalls with a share of such a lane left in the window first (11 R193), each in the order of 11 R199. -/
def pumpSym : Nat → Dev → Dev
  | 0, d => d
  | fuel + 1, d =>
    let l := d.sym.wait.filter fun c => !mustWait d c
    let g := l.filter (hasShare d)
    let l := if g.isEmpty then l else g
    match wrrPick d.sym.round (weightOf d) ((List.range 83).filter fun i => l.any fun c => decide (issuerIdx c.issuer = i)) with
    | none => d
    | some (i, r) =>
      match l.find? fun c => decide (issuerIdx c.issuer = i) with
      | none => d
      | some c => pumpSym fuel (runSym { d with sym := { d.sym with wait := d.sym.wait.erase c, round := r } } c)
def pumpLanes (d : Dev) : Dev := pumpSym d.sym.wait.length d

/-! ### What waits: R301 -/

def waitIssuer : Waiting → Nat | .cmd c => issuerIdx c.issuer | .secure o => issuerIdx o.issuer
def waitMac : Waiting → Bool | .cmd c => c.opcode == 0x0306 | .secure _ => false
/-- Random bits a secure-world operation draws when it starts; it waits while there are none (17 R318). -/
def waitsRng (d : Dev) (w : Waiting) : Bool :=
  match w with
  | .secure o => (match o.kind with | .sealSign => !drbgReady d | .cosign .. => !drbgReady d | .cardKey .. => !drbgReady d | _ => false)
  | .cmd _ => false
/-- Can engine `e` take this: a self-test runs on the engine it names, in either channel and out of service. -/
def takes (d : Dev) (e : Nat) (w : Waiting) : Bool :=
  match w with
  | .cmd _ => serves d (waitMac w) false e
  | .secure o =>
    match o.engine with
    | some x => x == e && (eng d e).clk != 3 && !inTransit d (18 + e) && !engSecure d e
    | none => serves d false true e && !waitsRng d w
/-- R301: the lowest-numbered free engine is used first. -/
def lowerFree (d : Dev) (e : Nat) (w : Waiting) : Bool := engines.any fun j => decide (j < e) && engIdle d j && takes d j w
def ready (d : Dev) (e : Nat) : List Waiting := d.pkeWait.filter fun w => takes d e w && !lowerFree d e w

def secureWait (w : Waiting) : Bool := waitIssuer w == 82
/-- Issuers of a list, ascending, once each. -/
def issuersOf (l : List Waiting) : List Nat := (List.range 83).filter fun i => l.any fun w => waitIssuer w == i
def firstOf (l : List Waiting) (i : Nat) : Option Waiting := l.find? fun w => waitIssuer w == i

/-- The operation the engine takes next, with its round. -/
def nextOp (d : Dev) (e : Nat) : Option (Waiting × Tab Nat) :=
  let l := ready d e
  let p := eng d e
  match (if p.secureMicros < 4000 then l.find? secureWait else none) with
  | some w => some (w, p.round)
  | none =>
    let is := issuersOf l
    let guaranteed := is.filter fun i => decide (i < 64) && decide (0 < balanceOf d e i)
    match wrrPick p.round (weightOf d) (if guaranteed.isEmpty then is else guaranteed) with
    | none => none
    | some (i, r) => (firstOf l i).map fun w => (w, r)

/-- 16 R297: what operand memory holds as an operation starts: of a MAC program its image; the layout of a whole operation is the engine's (R300). -/
def startMem : PkeKind → Tab (BitVec 128)
  | .mac prog _ => (loadImg prog 0 (progImg prog) []).map fun w => (w.1, BitVec.ofNat 128 w.2)
  | _ => []
/-- The operation starts: its unit of pool 2 is issued. -/
def startOp (d : Dev) (e : Nat) (o : PkeOp) : Dev := ldgIssue (setEng d e { eng d e with op := some o, mem := startMem o.kind, acc := 0 }) 2 (H.engine e) 1

/-- R301: take the next operation. The DRBG reseeds before it gives an ephemeral key (17 R316). Steps 6 to 8 of 13 R236 of a command run now, at dispatch (R238). -/
def operationStart (d : Dev) (e : Nat) : Dev :=
  if !engIdle d e || d.glb.power != .run || d.dbg.extest then d else
  match nextOp d e with
  | none => d
  | some (w, r) =>
    let d := setEng { d with pkeWait := d.pkeWait.erase w } e { eng d e with round := r }
    match w with
    | .secure o =>
      (match o.kind with
       | .sealSign => let r := draw d 64; startOp r.2 e { o with rnd := r.1 }
       | .cosign .. => let r := draw d 64; startOp r.2 e { o with rnd := r.1 }
       | .cardKey .. => let r := draw (reseed d) 48; startOp r.2 e { o with rnd := r.1 }
       | _ => startOp d e o)
    | .cmd c =>
      match pkTry d c (pkPlan d c) true with
      | (d', .inl st) => endWith d' c st
      | (d', .inr o) => if maskBad c then maskFault d else startOp d' e o

/-- R289: a waiting command that no engine can serve any more ends with ST_BUSY. -/
def sweepWaiting (d : Dev) : Dev :=
  let gone := d.pkeWait.filter fun w => (match w with | .cmd c => !canServe d (waitMac w) false && c.rid < d.nextRid | .secure _ => false)
  gone.foldl (fun d w => match w with | .cmd c => finish d c.rid ST.busy | .secure _ => d) { d with pkeWait := d.pkeWait.filter fun w => !gone.contains w }

/-! ### The end of an operation: R292, R293, R303 -/

/-- Public half of the key an operation copied. -/
def opPublic (t : Byte) (k : Bytes) : Bytes := publicOf t (pubSize t k.length 0) k []
/-- A new key in its reserved slot, under a mask from the DRBG (17 R318). -/
def landSecret (d : Dev) (slot : Nat) (k pre post : Bytes) : Dev × Half × Bytes :=
  if !drbgReady d then (dropReserved d slot, ST.rngFail, []) else
  let r := fillSlot d slot k
  (r.2, ST.ok, pre ++ b4 r.1 ++ post)

/-- 16 R292: an RSA signature with s ≥ n fails, whatever else it is. -/
def sigTooBig (t : Byte) (pk sig : Bytes) : Bool := isRsa t && decide (beNat (pk.drop 4) ≤ beNat sig)
def verifyStatus (t : Byte) (h p : Nat) (isd : Bool) (pk m sig : Bytes) : Half :=
  if !Config.pkOperandOk t.toNat pk [] then ST.algParam
  else if !sigTooBig t pk sig && Config.pkVerify t.toNat h p isd pk m sig then ST.ok else ST.verifyFail
/-- What a whole operation or a MAC program has computed: status and result. -/
def opResult (d : Dev) (o : PkeOp) : Dev × Half × Bytes :=
  match o.kind with
  | .genKey s t size =>
    let k := Config.keyGen t.toNat size (genLen t size) o.rnd
    let pub := publicOf t (genPub t size) k []
    landSecret d s k [] (leBytes 4 pub.length ++ pub)
  | .publicKey t n dom => let r := publicResult t n o.key dom; (d, r.1, r.2)
  | .sign t h p isd m =>
    if Config.pkKeyOk t.toNat o.key then (d, ST.ok, Config.pkSign t.toNat (sigSize t o.key.length) h p isd o.key m o.rnd) else (d, ST.algParam, [])
  | .verify t h p isd m sig pub =>
    let pk := if pub.isEmpty then opPublic t o.key else pub
    (d, verifyStatus t h p isd pk m sig, [])
  | .encaps t pub s =>
    let pk := if pub.isEmpty then opPublic t o.key else pub
    if Config.pkOperandOk t.toNat pk [] then landSecret d s (Config.kemSecret t.toNat pk o.rnd) [] (Config.kemCt t.toNat (ctSize t) pk o.rnd)
    else (dropReserved d s, ST.algParam, [])
  | .decaps t ct s => landSecret d s (Config.kemDecaps t.toNat o.key ct) [] []
  | .agree t peer salt dom s =>
    let z := Config.agree t.toNat o.key peer dom
    let good := Config.pkKeyOk t.toNat o.key && if t == 0x40 then domOk dom && exponentOk o.key dom && ffPeerOk dom peer
                else Config.pkOperandOk t.toNat peer dom && !((t == 0x25 || t == 0x26) && allZero z)
    if good then landSecret d s (hkdfExtract salt z) [] [] else (dropReserved d s, ST.algParam, [])
  | .mac prog n => (d, ST.ok, macRun prog n)
  | _ => (d, ST.ok, [])

/-- Secure-world work that has ended well. -/
def secureResult (d : Dev) (o : PkeOp) : Dev :=
  match o.kind with
  | .sealSign => sealSigned d o.rnd
  | .dbgCert c _ => certChecked d o.rid c
  | .cardKey b i => cardKeyed d (if b then .b else .a) i o.rnd
  | .cardExchange b i => cardChecked d (if b then .b else .a) i
  | .cosign _ origin g => cosigned d origin g o.rnd
  | _ => d
/-- Secure-world work whose engine failed its check. -/
def secureFailed (d : Dev) (o : PkeOp) : Dev :=
  match o.kind with
  | .sealSign => { d with pkeWait := d.pkeWait ++ [.secure { o with rnd := [] }] }
  | .dbgCert _ _ => endResponse d o.rid ST.engineFault
  | .cardKey b i => cardFailed d (if b then .b else .a) i
  | .cardExchange b i => cardFailed d (if b then .b else .a) i
  | _ => d
def isSecureKind : PkeKind → Bool
  | .sealSign => true | .dbgCert .. => true | .cardKey .. => true | .cardExchange .. => true | .cosign .. => true | _ => false

/-- 16 R307, R308: the known-answer test of an engine. -/
def selfTested (d : Dev) (e : Nat) (failed : Nat) : Dev × Half × Bytes :=
  if failed = 0 then (setEng d e { eng d e with oos := false }, ST.ok, zeros 4)
  else
    let d := setEng d e { eng d e with oos := true }
    (logRec d (recCrit (engName e) ST.engineFault [rPkeStatus d e]), ST.engineFault, [])

/-- R307: a failed check is Class C; the third on one engine within 1 s puts it out of service, Class D. -/
def checkFailed (d : Dev) (e : Nat) : Dev :=
  let p := eng d e
  let times := within d.now p.failTimes ++ [d.now]
  let d := errC (setEng d e { p with cntCheck := satInc p.cntCheck, irqFault := true, failTimes := times })
  if 3 ≤ times.length && !p.oos then sweepWaiting (errD (setEng d e { eng d e with oos := true }) 5 e ST.engineFault) else d

/-- R294: status of a limit that was reached. -/
def limitStatus : PkeKind → Half | .genKey .. => ST.rngFail | _ => ST.engineFault

/-- R302: run time is taken from the stall's balance, or counts as secure-world use. -/
def chargeRun (d : Dev) (e : Nat) (i : Issuer) (micros : Nat) : Dev :=
  let p := eng d e
  match i with
  | .stall n => setEng d e { p with balance := tset p.balance n.val (balanceOf d e n.val - (micros : Nat)) }
  | .secure => setEng d e { p with secureMicros := p.secureMicros + micros }
  | _ => d

/-- End of the request of an operation. -/
def endOp (d : Dev) (o : PkeOp) (st : Half) (r : Bytes) : Dev := match o.rid with | some q => finish d q st r | none => d

/-- R306: the operation that DONE completes: the one that runs, or one that an abort has stopped in this very cycle. -/
def doneOp (d : Dev) (p : Pke) : Option PkeOp := p.op.orElse fun _ => if p.aborting && p.stoppedAt == d.now then p.stopped else none
/-- An operation ends without a result: the slot it claimed is freed, and its request ends. -/
def failOp (d : Dev) (o : PkeOp) (st : Half) : Dev :=
  let d := match reservedOf o.kind with | some s => dropReserved d s | none => d
  if isSecureKind o.kind then secureFailed d o else endOp d o st []
/-- The result of an operation that ends well. -/
def landOp (d : Dev) (o : PkeOp) : Dev := if isSecureKind o.kind then secureResult d o else let r := opResult d o; endOp r.1 o r.2.1 r.2.2
/-- R294: a limit is reached; a record says so. -/
def limitOp (d : Dev) (e : Nat) (o : PkeOp) : Dev := failOp (logRec d (recEvent (engName e) (limitStatus o.kind) (b4 (rPkeStatus d e)))) o (limitStatus o.kind)

/-- R303: results into their cells, memories cleared, DONE set, the unit of pool 2 retired, the request completed. -/
def operationDone (d : Dev) (e : Nat) (outcome : PkeOutcome) (micros : Nat) : Dev :=
  let p := eng d e
  match doneOp d p with
  | none => d
  | some o =>
    let d := ldgDrain (setEng d e { p with op := none, stopped := none, mem := [], acc := 0, irqDone := true, cntOps := satInc p.cntOps }) 2 (H.engine e)
    let d := engIrq (chargeRun d e o.issuer micros) e
    let d := match o.usesSlot with | some s => endUse d s | none => d
    match outcome with
    | .ok =>
      (match o.kind with
       | .selfTest f => let r := selfTested d e f; endOp r.1 o r.2.1 r.2.2
       | _ => landOp d o)
    | .nonZeroReadback => landOp (readbackFault d e) o
    | .checkFail => failOp (checkFailed d e) o ST.engineFault
    | .checkFailNonZero => failOp (readbackFault (checkFailed d e) e) o ST.engineFault
    | .limit => limitOp d e o
    | .limitNonZero => limitOp (readbackFault d e) e o

/-- R302: a new window of 64 ms. -/
def renewBalance (share : Int) (old : Int) : Int := if old < 0 then share + max old (-share) else share
def windowStart (d : Dev) : Dev :=
  if d.now < d.pkeWindow + 64 * msCycles then d else
  let share : Int := (64000 / partN d : Nat)
  let on := (List.range 64).filter fun n => enabled (stall d n)
  { engines.foldl (fun d e =>
      setEng d e { eng d e with secureMicros := 0, balance := on.foldl (fun t n => tset t n (renewBalance share (balanceOf d e n))) [] }) d with pkeWindow := d.now }

/-- R302: a stall enabled with `r` fabric cycles left in the window; a stall that goes loses its balances. -/
def grantBalance (d : Dev) (n r : Nat) : Dev :=
  engines.foldl (fun d e => setEng d e { eng d e with balance := tset (eng d e).balance n ((64000 / partN d * r / (64 * msCycles) : Nat) : Int) }) d
def loseBalance (d : Dev) (n : Nat) : Dev :=
  engines.foldl (fun d e => setEng d e { eng d e with balance := tdel (eng d e).balance n }) d
/-- R302: what a partition change makes of a balance. -/
def scaleBalance (old new : Nat) (b : Int) : Int := if b < 0 then max b (-((64000 / new : Nat) : Int)) else b * old / new
def scaleBalances (d : Dev) (n old new : Nat) : Dev :=
  engines.foldl (fun d e => setEng d e { eng d e with balance := tset (eng d e).balance n (scaleBalance old new (tgetD (eng d e).balance n (64000 / old : Nat))) }) d
def windowLeft (d : Dev) : Nat := 64 * msCycles - (d.now - d.pkeWindow)

/-! ### Class 0x0F: 13 R254 -/

def runPkeSetChannel (d : Dev) (c : Cmd) : Dev :=
  let e := pByte c 0; let ch := pByte c 1
  runAtomic d c
    (preChecks d c whoP (stateU d) (parse c 4 [(2, 2)]) (noKeyOwner c && decide (e < 4) && decide (ch ≤ 1)) 0 ++
      [(engSecure d e, ST.denied), ((eng d e).op.isSome || (eng d e).aborting, ST.busy)]) none (fun _ => []) 0
    fun d => (sweepWaiting (setEng (clearEngine d e) e { eng (clearEngine d e) e with mac := ch == 1 }), ST.ok, [])

/-- FW_STAGE: chunks in order from OFFSET 0; a gap or an overlap discards the staged image. -/
def runFwStage (d : Dev) (c : Cmd) : Dev :=
  let off := pWord c 0; let total := pWord c 4; let l := pWord c 8; let chunk := pVar c 12 l
  let final := off + l == total
  let res := if final then 48 else 0
  runAtomic d c (preChecks d c whoP (stateU d) (parse c 12 [] [(l, false)]) (noKeyOwner c && decide (total ≤ 2097152)) res) none (fun _ => []) res fun d =>
    let old := if d.ps.stageOk then none else d.ps.stage
    let (have_, tot) := match old with | some s => s | none => ([], total)
    if off != have_.length || tot != total || decide (total < off + l) then ({ d with ps := { d.ps with stage := none, stageOk := false } }, ST.param, [])
    else
      let img := have_ ++ chunk
      let slot := 1 - d.ps.fwActive
      let d := programZone { d with ps := { d.ps with stage := some (img, total), stageOk := false, fwSlot := tset d.ps.fwSlot slot img } } (0x100000 + 0x200000 * slot + off) chunk
      if !final then (d, ST.ok, [])
      else if Config.fwSigValid img then ({ d with ps := { d.ps with stageOk := true } }, ST.ok, Config.sha384 img)
      else ({ d with ps := { d.ps with stage := none } }, ST.verifyFail, [])

def runFwActivate (d : Dev) (c : Cmd) : Dev :=
  let good := d.ps.stageOk && (match d.ps.stage with | some s => Config.sha384 s.1 == c.params | none => false)
  runAtomic d c (preChecks d c whoP (stateU d) (parse c 48) (noKeyOwner c && good) 0) (if fielded d then some 0 else none) (fun _ => []) 0
    fun d => ({ d with ps := { d.ps with fwPending := true } }, ST.ok, [])

/-- SELF_TEST: an engine's test takes PKE time; the lanes and the DRBG are tested in place. `failed` is what the test measures. -/
def runSelfTest (d : Dev) (c : Cmd) (failed : Nat) : Dev :=
  let t := pByte c 0
  let pre := preChecks d c whoP (stateU d) (parse c 4 [(1, 3)]) (noKeyOwner c && decide (t ≤ 5)) 4
  if t ≤ 3 then
    match firstFail (pre ++ [((eng d t).clk == 3 || inTransit d (18 + t) || engSecure d t, ST.busy)]) with
    | some st => finish d c.rid st
    | none =>
      match claimResult d c 4 with
      | none => endNoCells d c
      | some d => { d with pkeWait := d.pkeWait ++ [.secure { rid := some c.rid, issuer := .pf, kind := .selfTest failed, alg := 0, engine := some t }] }
  else
    runAtomic d c pre none (fun _ => []) 4 fun d =>
      if t = 4 then
        let bad := BitVec.ofNat 12 failed
        let d := { d with sym := { d.sym with laneOos := bad } }
        if bad = 0 then (pumpLanes d, ST.ok, zeros 4)
        else (logRec d (recCrit "SYM" ST.engineFault [bad.setWidth 32]), ST.engineFault, [])
      else if d.sym.rngPerm then (d, ST.rngFail, [])
      else if failed = 0 then (instantiate d, ST.ok, zeros 4)
      else (rngFail d .startup, ST.rngFail, [])

/-- 17 R314. -/
def execSymLaneDone (lane : Fin 12) (s : State) : Host.Outcome State Fault Refusal := onDev (fun d => across d .sym fun d => pumpLanes (laneDone d lane.val)) s
def execPkeOperationStart (e : Fin 4) (s : State) : Host.Outcome State Fault Refusal := onDev (fun d => across d (pkeIsland e) fun d => operationStart d e.val) s
def execPkeDone (e : Fin 4) (outcome : PkeOutcome) (runMicros : Nat) (s : State) : Host.Outcome State Fault Refusal := onDev (fun d => across d (pkeIsland e) fun d => operationDone d e.val outcome runMicros) s
def execPkeWindowStart (s : State) : Host.Outcome State Fault Refusal := onDev windowStart s
def execAborted (e : Fin 4) (zeroed : Bool) (s : State) : Host.Outcome State Fault Refusal := onDev (fun d => across d (pkeIsland e) fun d => finishAbort d e.val zeroed) s
def execPkeSetChannel (r : Request) (s : State) : Host.Outcome State Fault Refusal := onDev (fun d => command d 0x0F01 r runPkeSetChannel) s
def execFwStage (r : Request) (s : State) : Host.Outcome State Fault Refusal := onDev (fun d => command d 0x0F03 r runFwStage) s
def execFwActivate (r : Request) (s : State) : Host.Outcome State Fault Refusal := onDev (fun d => command d 0x0F04 r runFwActivate) s
def execSelfTest (r : Request) (failed : TestBits) (s : State) : Host.Outcome State Fault Refusal := onDev (fun d => command d 0x0F05 r (fun d c => runSelfTest d c failed.toNat) failed.toNat) s

end Sys2Proof.Machine
end

