-- ==== Sys2Proof/Machine/Yard.lean ====
section
/-! DEFINITION. The Yard queues (15): appending, the consumer's READ, MARK, REWIND and RELEASE, level and stranded events, the free list. -/

namespace Sys2Proof.Machine

def setQueue (d : Dev) (n : Nat) (q : YQueue) : Dev := { d with yrd := { d.yrd with queues := tset d.yrd.queues n q } }
/-- R272: the issuer whose requests a queue holds; the PF stands for the device's queues. -/
def queueIssuer (n : Nat) : Issuer := if n < 256 then .stall (Fin.ofNat 64 (n / 4)) else .pf
/-- Position just behind the committed data, in words from HEAD's cell. -/
def endPos (q : YQueue) : Nat := 2 * q.cells.length
/-- R279. -/
def unread (q : YQueue) : Bool := decide (q.rdPos < endPos q)

/-- R280: an event on a queue. -/
def queueEvent (d : Dev) (n : Nat) : Dev := if n < 256 then signal d (.vf (Fin.ofNat 64 (n / 4))) 2 else raiseNormal d irqYard

/-- R278: the queue is judged at the end of this fabric cycle, against CELLS as the cycle began. -/
def touchQueue (d : Dev) (n : Nat) : Dev :=
  if (tget d.yrd.judge n).isSome then d else { d with yrd := { d.yrd with judge := tset d.yrd.judge n (queueOf d n).cells.length } }
/-- R278, R279: the end of a fabric cycle for a queue that had `before` cells when it began: the level on the net CELLS, and the stranded timer where no READ of the cycle has prevented it. -/
def judgeQueue (d : Dev) (n before : Nat) : Dev :=
  let q := queueOf d n
  let level := q.thresh != 0 && decide (before < q.thresh) && decide (q.thresh ≤ q.cells.length)
  let strand := q.strandDue && unread q
  let d := setQueue d n { q with fresh := [], strandDue := false, levelHit := q.levelHit || level, strandedBit := q.strandedBit || strand, strandQuiet := q.strandQuiet || strand }
  let d := if level then queueEvent d n else d
  if strand then queueEvent d n else d
def judgeQueues (d : Dev) : Dev := d.yrd.judge.foldl (fun d e => judgeQueue d e.1 e.2) { d with yrd := { d.yrd with judge := [] } }

/-- R275, 06 R91: the number of the master that brought a packet. -/
def packetMaster : Issuer → Nat | .stall _ => 0x10 | .pf => 0x10 | .krovlo _ => 0x12 | .mgt => 0x16 | .secure => 0x15
/-- R275: the first packet of this cycle with a higher master number that nothing has read yet: a packet of number `m` goes before it. -/
def freshBehind (q : YQueue) (m : Nat) : Option Nat :=
  (q.fresh.find? fun f => decide (m < f.2) && q.reqs.contains f.1 &&
    decide (q.rdPos ≤ 2 * (q.cells.takeWhile fun c => decide (c.rid ≠ f.1)).length)).map (·.1)
/-- R275: a packet's chain is appended to the queue's tail; of appends in one fabric cycle the lowest master number comes first. -/
def appendCells (d : Dev) (n rid : Nat) (i : Issuer) (cells : List QCell) : Dev :=
  let d := touchQueue d n
  let q := queueOf d n
  let new := cells.map fun c => { c with rid := rid, holder := holderOf i }
  let m := packetMaster i
  let ahead := fun {α : Type} (f : α → Nat) (l : List α) => match freshBehind q m with | some r => (l.takeWhile fun x => decide (f x ≠ r)).length | none => l.length
  let kc := ahead (·.rid) q.cells
  let kr := ahead id q.reqs
  let kf := ahead (·.1) q.fresh
  setQueue d n { q with cells := q.cells.take kc ++ new ++ q.cells.drop kc, reqs := q.reqs.take kr ++ rid :: q.reqs.drop kr, fresh := q.fresh.take kf ++ (rid, m) :: q.fresh.drop kf,
                        strandFrom := if unread q then q.strandFrom else some d.now }

/-- A request enters a queue; its cells are the queue's from now on. -/
def enqueueReq (d : Dev) (rid : Nat) (q : Req) (n : Nat) : Dev :=
  appendCells (setReq d rid { q with stage := .queued n, cells := [] }) n rid q.issuer q.cells

/-- R277: the first `k` cells of a queue are freed, each from its own allotment. -/
def releaseFirst (d : Dev) (n k : Nat) : Dev :=
  let d := touchQueue d n
  let q := queueOf d n
  let d := (q.cells.take k).foldl (fun d c => freeCells d c.holder [c.idx]) d
  let rest := q.cells.drop k
  setQueue d n { q with cells := rest, rdPos := q.rdPos - 2 * k, mkPos := q.mkPos - 2 * k, strandFrom := if rest.isEmpty then none else q.strandFrom }

/-- R274: the word at RD: its bytes, whether it ends its packet. -/
def wordAt (q : YQueue) : Option (Bytes × Bool) :=
  (q.cells[q.rdPos / 2]?).map fun c => if q.rdPos % 2 = 0 then (c.lo, c.last && c.hi.isEmpty) else (c.hi, c.last)

/-- R276, R279. -/
def readWord (d : Dev) (n : Nat) : Dev :=
  let q := queueOf d n
  match wordAt q with
  | none => emit d .yardEmpty
  | some (b, fin) =>
    let q := { q with rdPos := if fin then 2 * (q.rdPos / 2) + 2 else q.rdPos + 1, strandQuiet := false, strandDue := false }
    emit (setQueue d n { q with strandFrom := if unread q then some d.now else none }) (.word (Config.fit 32 b) b.length fin)
/-- R287: a cell of this issuer cannot be read: its request ends. -/
def cellLost (d : Dev) (i : Issuer) (rid : Nat) : Dev :=
  let d := finish d rid ST.aborted
  match i with
  | .stall n => errT d n.val ST.aborted
  | _ => errD d 4 0 ST.aborted
/-- The packet at RD is lost: RD moves behind it (log 89). -/
def losePacket (d : Dev) (n : Nat) : Dev :=
  let q := queueOf d n
  match q.cells[q.rdPos / 2]? with
  | none => emit d .yardEmpty
  | some c =>
    let past := (q.cells.reverse.dropWhile fun x => decide (x.rid ≠ c.rid)).length
    let d := setQueue d n { q with rdPos := 2 * past, reqs := q.reqs.erase c.rid }
    match tget d.reqs c.rid with
    | some r => cellLost d r.issuer c.rid
    | none => d
/-- A READ and what it meets (R287). -/
def readMet (d : Dev) (n : Nat) (m : CellMet) : Dev :=
  match m with
  | .clean => readWord d n
  | .corrected => readWord (errC d) n
  | .data => losePacket d n
  | .link => errFOpen d (rYrdFree d)

def markQueue (d : Dev) (n : Nat) : Dev := setQueue d n { queueOf d n with mkPos := (queueOf d n).rdPos }
def rewindQueue (d : Dev) (n : Nat) : Dev :=
  let q := { queueOf d n with rdPos := (queueOf d n).mkPos }
  setQueue d n { q with strandFrom := if unread q then some d.now else none }
def releaseQueue (d : Dev) (n : Nat) : Dev := releaseFirst d n ((queueOf d n).mkPos / 2)

/-- A processor takes the oldest request of a queue: its packet, and anything before it, is read and released. -/
def takePacket (d : Dev) (n rid : Nat) : Dev :=
  let q := queueOf d n
  let behind := (q.cells.reverse.dropWhile fun c => decide (c.rid ≠ rid)).length
  let d := setQueue d n { q with reqs := q.reqs.erase rid, rdPos := max q.rdPos (2 * behind), mkPos := max q.mkPos (2 * behind), strandQuiet := false }
  let d := releaseFirst d n behind
  let q := queueOf d n
  setQueue d n { q with strandFrom := if unread q then some d.now else none }

/-- R273, R275: a producer ends a packet for a queue; its cells come from the queue's allotment. -/
def packetEnd (d : Dev) (n : Nat) (b : Bytes) : Dev :=
  let i := queueIssuer n
  if b.isEmpty || (decide (n < 256) && !enabled (stall d (n / 4))) then d else
  match claimCells d i (cellsFor b.length) with
  | none => d
  | some (d, l) =>
    let rid := d.nextRid
    enqueueReq { d with nextRid := rid + 1 } rid { issuer := i, stage := .held, bytes := b, cells := chain l b, rawTag := quad b 24, seq := ohSeq b, produced := true } n

/-- R279: ticks of 65536 fabric cycles. -/
def strandTick : Nat := 65536
/-- R279: the timer of an unread queue has run out, TIMEOUT ticks after the last READ or REWIND at the earliest. The event follows at the end of the cycle. -/
def strandOver (d : Dev) (q : YQueue) : Bool :=
  q.timeout != 0 && unread q && !q.strandQuiet && (match q.strandFrom with | some t => decide (t + strandTick * q.timeout ≤ d.now) | none => false)
def strand (d : Dev) (n : Nat) : Dev :=
  if !strandOver d (queueOf d n) then d else
  let d := touchQueue d n
  setQueue d n { queueOf d n with strandDue := true }

/-- R275: an open packet is abandoned: its cells are released at once and its request ends (log 22). -/
def isOpenPacket (q : Req) : Bool := q.fragOpen || (match q.stage with | .fetching => true | .awaitData => true | _ => false)
def abandon (d : Dev) (rid : Nat) : Dev :=
  match tget d.reqs rid with
  | some q => if isOpenPacket q then finish { d with cls := { d.cls with runs := d.cls.runs.filter fun r => decide (r.2.rid ≠ rid) } } rid ST.aborted else d
  | none => d

/-- R282: the queues of stall `n` are emptied and every cell with its tag is freed, its recovery cells apart. -/
def reclaim (d : Dev) (n : Nat) : Dev :=
  let mine := (d.yrd.tags.filter fun t => t.2 = n && decide (t.1 < recoveryBase)).map (·.1)
  let d := [0, 1, 2, 3].foldl (fun d k =>
    let q := queueOf d (4 * n + k)
    setQueue d (4 * n + k) { q with cells := [], rdPos := 0, mkPos := 0, reqs := [], fresh := [], strandFrom := none, strandQuiet := false, strandDue := false }) d
  let d := freeCells d n mine
  { d with yrd := { d.yrd with reclaimStall := BitVec.ofNat 7 n, reclaimCount := BitVec.ofNat 16 mine.length } }

def execRead (r : YardRead) (s : State) : Host.Outcome State Fault Refusal := onDev (fun d => readMet d r.queue.val r.met) s
def execMark (q : Fin 512) (s : State) : Host.Outcome State Fault Refusal := onDev (fun d => markQueue d q.val) s
def execRewind (q : Fin 512) (s : State) : Host.Outcome State Fault Refusal := onDev (fun d => rewindQueue d q.val) s
def execRelease (q : Fin 512) (s : State) : Host.Outcome State Fault Refusal := onDev (fun d => releaseQueue d q.val) s
def execPacketEnd (q : Fin 512) (bytes : Bytes) (s : State) : Host.Outcome State Fault Refusal := onDev (fun d => packetEnd d q.val bytes) s
def execPacketAbandon (rid : Nat) (s : State) : Host.Outcome State Fault Refusal := onDev (fun d => abandon d rid) s
/-- R277: a freed cell, zeroed, re-enters the free list. -/
def execCellReentry (cell : Fin 32768) (s : State) : Host.Outcome State Fault Refusal :=
  onDev (fun d => { d with yrd := { d.yrd with zeroing := d.yrd.zeroing.erase cell.val } }) s
def execStranded (q : Fin 512) (s : State) : Host.Outcome State Fault Refusal := onDev (fun d => strand d q.val) s

end Sys2Proof.Machine
end

