-- ==== Sys2Proof/Machine/Classifier.lean ====
section
/-! DEFINITION. The request classifier, the Eddy, fragments, traps and the epoch switch (14, 12 R219-R225), and remote requests (20 R379). -/

namespace Sys2Proof.Machine

/-! ### Entry checks: 12 R219-R225 -/

/-- Request limit of an issuer in cells (12 R225). -/
def cellLimit (d : Dev) (i : Issuer) : Nat :=
  match i with | .stall _ => 24576 / partN d | .pf => 2048 | .krovlo _ => 1024 | .mgt => 256 | .secure => 0

/-- Step 1 of 12 R224 for the headers: FORMAT, flags and reserved bits. -/
def formatBad (b : Bytes) : Bool :=
  ohFormat b != 0x4401 || decide (16 ≤ (ohFlags b).toNat) || byteAt b 7 != 0 ||
  (if ohEnvelope b then half b 16 != 0xE401 || !allZero (slice b 18 2) || !allZero (slice b 40 4)
   else !allZero (slice b 18 2) || !allZero (slice b 37 3))
/-- Step 2: the length fields of the headers. -/
def headerLens (b : Bytes) : List Nat := if ohEnvelope b then [ohLen b, ehInnerLen b] else [ohLen b, chCmdLen b, chParamLen b]
def lensBad (l : List Nat) : Bool := l.any fun x => decide (x = 0xFFFFFFFF)
/-- Step 3. -/
def crcBad (b : Bytes) : Bool := crc32c (slice b 16 28) != word b 44
/-- Step 4: the first rule that fails, 0 where none does; 4 is the envelope rule. -/
def lenRule (b : Bytes) (transport : Nat) : Nat :=
  if ohEnvelope b then (if ohLen b ≠ 32 + ehInnerLen b + 16 then 4 else if transport < 16 + ohLen b then 3 else 0)
  else if chCmdLen b ≠ 32 + chParamLen b then 1
  else if ohLen b < chCmdLen b || chCmdLen b + 63 < ohLen b then 2
  else if transport < 16 + ohLen b then 3 else 0
/-- Step 5 without STALL: OWNER equals the owner ID of the command header. -/
def ownerBad (b : Bytes) : Bool := !ohEnvelope b && ohOwner b != byteAt b 36

/-- The first failing check with its DETAIL. -/
def firstDetail : List (Bool × Half × Word) → Option (Half × Word)
  | [] => none
  | (bad, st, x) :: l => if bad then some (st, x) else firstDetail l

/-- Steps 1 to 4: format, largest values, CRC, length rules. -/
def headSteps (b : Bytes) (format : Bool) (lens : List Nat) (rule : Nat) : List (Bool × Half × Word) :=
  [(format || formatBad b, ST.format, 0), (lensBad lens, ST.lenRange, 0), (crcBad b, ST.hdrCrc, 0), (rule != 0, ST.lenConflict, BitVec.ofNat 32 rule)]

/-- 12 R218: the tail of a ring entry. -/
def seAddr (e : Bytes) : Quad := quad e 48
def seXfer (e : Bytes) : Nat := leAt e 56 4
def seCap (e : Bytes) : Nat := leAt e 60 4
/-- 12 R218, R219: alignment, and the flags a ring does not carry. -/
def ringFormatBad (e : Bytes) : Bool :=
  ohHops e != 0 || ohFragFirst e || ohFragMore e || decide ((seAddr e).toNat % 8 ≠ 0) || (seAddr e == 0 && decide (seCap e ≠ 0))
def entrySteps14 (e : Bytes) : List (Bool × Half × Word) :=
  headSteps e (ringFormatBad e) (headerLens e ++ [seXfer e, seCap e]) (lenRule e (seXfer e))
/-- Step 5 of 12 R224 and then R225. -/
def entrySteps5 (d : Dev) (i : Issuer) (e : Bytes) : List (Bool × Half × Word) :=
  [(decide ((ohStall e).toNat ≠ issuerCode i), ST.denied, 0), (ownerBad e, ST.format, 0),
   (decide (seCap e < ohLen e - 32) || decide (64 * cellLimit d i < 16 + ohLen e), ST.lenRange, 0)]

/-- R219: the device writes ORIGIN with its own address; 0 until it has one (log 86). -/
def ownAddr (d : Dev) : Byte := if d.chn.addrValid then BitVec.ofNat 8 d.chn.addr else 0

/-- Length stage of 14 R255 for a request from the link or the management port, whole or the first fragment of a run. -/
def transportSteps (d : Dev) (i : Issuer) (b : Bytes) (frag : Bool) : List (Bool × Half × Word) :=
  headSteps b (i == .mgt && ohHops b != 0) (headerLens b)
    (if frag then (if b.length < 16 + ohLen b then 3 else 0) else lenRule b b.length) ++
  [(i == .mgt && ohStall b != 0x7F, ST.denied, 0), (ownerBad b, ST.format, 0), (decide (64 * cellLimit d i < 16 + ohLen b), ST.lenRange, 0)]
/-- Length stage for a later fragment, which carries no command header: rule 3 against its own transport length (12 R222). -/
def fragSteps (i : Issuer) (b : Bytes) : List (Bool × Half × Word) :=
  [(ohFormat b != 0x4401 || decide (16 ≤ (ohFlags b).toNat) || byteAt b 7 != 0 || (i == .mgt && ohHops b != 0), ST.format, 0),
   (ohLen b == 0xFFFFFFFF, ST.lenRange, 0), (decide (b.length < 16 + ohLen b), ST.lenConflict, 3), (i == .mgt && ohStall b != 0x7F, ST.denied, 0)]

/-! ### Weirs: 11 R198 -/

/-- Command length a Weir is charged: the length the device has checked. -/
def chargedLen (b : Bytes) : Nat := if ohEnvelope b then ohLen b else chCmdLen b
/-- One command and `len` bytes from the buckets of a metered stall. -/
def weirCharge (d : Dev) (i : Issuer) (len : Nat) : Dev :=
  match i with
  | .stall n => if (stall d n.val).fMetered then
      modStall d n.val fun s => { s with ctok := s.ctok - 65536, btok := s.btok - 65536 * (len : Int) } else d
  | _ => d
/-- R198, R268: the shadows take effect at the epoch switch. -/
def weirSwitch (s : Stall) : Stall :=
  let cfull : Int := 65536 * (s.cmdBurst : Int)
  let bfull : Int := 65536 * 1024 * (s.byteBurst : Int)
  { s with fMetered := s.metered, fWeight := s.weight, fCmdBurst := s.cmdBurst, fByteBurst := s.byteBurst,
           cinc := (s.cmdRate * 16777216 + 50000000) / 100000000, binc := (s.byteRate * 16777216 + 50) / 100,
           ctok := if s.metered && !s.fMetered then cfull else min s.ctok cfull,
           btok := if s.metered && !s.fMetered then bfull else min s.btok bfull }
def switchWeirs (d : Dev) : Dev := { d with stl := { d.stl with stalls := d.stl.stalls.map fun e => (e.1, weirSwitch e.2) } }
/-- R198: a tick of 1024 fabric cycles. -/
def weirTick (s : Stall) : Stall :=
  if s.fMetered then { s with ctok := min (s.ctok + s.cinc) (65536 * (s.fCmdBurst : Int)),
                              btok := min (s.btok + s.binc) (65536 * 1024 * (s.fByteBurst : Int)) } else s
/-- R198: may the next entry be fetched. -/
def weirOpen (s : Stall) : Bool := !s.fMetered || (decide (0 ≤ s.ctok) && decide (0 ≤ s.btok))

/-! ### The key and the match: R256-R259 -/

def extWidth (w : BitVec 2) : Nat := if w = 0 then 1 else if w = 1 then 2 else 4
/-- Value and width of one enabled extractor; a byte beyond the request reads 0. -/
def extValue (b : Bytes) (e : Ext) : Nat × Nat :=
  let w := extWidth e.width
  (leAt b e.offset.toNat w &&& (e.mask.toNat % 256 ^ w), w)
/-- R257: enabled extractors packed in index order. -/
def packKey (l : List (Nat × Nat)) : Nat := l.foldr (fun x a => x.1 + 256 ^ x.2 * a) 0
def clsKey (ext : Tab Ext) (b : Bytes) (i : Issuer) (pass2 frag : Bool) : BitVec 256 :=
  let vals := (ext.filter fun e => e.2.en).map fun e => extValue b e.2
  BitVec.ofNat 256 (packKey vals % 2 ^ 240 + issuerKey i * 2 ^ 240 + pass2.toNat * 2 ^ 254 + frag.toNat * 2 ^ 255)

def aEn (a : Word) : Bool := bit a 31
def aTerm (a : Word) : Nat := fld a 28 3
def aCount (a : Word) : Bool := bit a 27
def aMeter (a : Word) : Bool := bit a 26
def aPolicy (a : Word) : Nat := fld a 20 4
def aQueue (a : Word) : Nat := fld a 12 8
def aStatus (a : Word) : Half := if fld a 0 12 = 0 then ST.denied else BitVec.ofNat 16 (fld a 0 12)
def dfltEntry : Nat := 0x800

/-- R258: the lowest matching entry, or CLS.DEFAULT under its number 0x800. -/
def clsMatch (k : ClsBank) (key : BitVec 256) : Nat × Word :=
  match k.entries.find? fun e => aEn e.2.action && (key ^^^ e.2.value) &&& e.2.care == 0 with
  | some e => (e.1, e.2.action)
  | none => (dfltEntry, k.dflt)

def setCls (d : Dev) (c : Cls) : Dev := { d with cls := c }
/-- R267: a request keeps the bank of its epoch. -/
def bankFor (d : Dev) (q : Req) : ClsBank := if q.epoch = d.cls.epoch then d.cls.active else d.cls.shadow

/-- One pass: counters, the meter action and the policy word of the deciding entry. -/
def classPass (d : Dev) (q : Req) (pass2 frag : Bool) : Dev × Req × Nat × Word :=
  let k := bankFor d q
  let b := if frag then q.bytes.take 16 else q.bytes
  let m := clsMatch k (clsKey (if pass2 then k.extB else k.extA) b q.issuer pass2 frag)
  let c := d.cls
  let c := if m.1 = dfltEntry then { c with cntDefault := satInc c.cntDefault }
           else if aCount m.2 then { c with hits := tset c.hits m.1 (satInc (tgetD c.hits m.1 0)) } else c
  let d := setCls d c
  let d := if aMeter m.2 then weirCharge d q.issuer (chargedLen q.bytes) else d
  (d, if aPolicy m.2 = 0 then q else { q with pols := q.pols ++ [tgetD k.pol (aPolicy m.2) 0xFFFF] }, m.1, m.2)

/-! ### Terminal actions: R260, R265 -/

/-- 20 R370: the pieces of a request for a path of `lim` bytes; a run of fragments where it is longer. -/
def fragHead (h : Bytes) (first more : Bool) (len : Nat) : Bytes :=
  let f := (ohFlags h &&& 0xFC) ||| (if first then 1 else 0) ||| (if more then 2 else 0)
  h.take 2 ++ [f] ++ slice h 3 5 ++ leBytes 4 len ++ slice h 12 4
def cutRequest (h : Bytes) (lim : Nat) : Nat → Bool → Bytes → List Bytes
  | 0, _, _ => []
  | fuel + 1, first, pay =>
    let part := pay.take (lim - 16)
    let rest := pay.drop (lim - 16)
    (fragHead h first (!rest.isEmpty) part.length ++ part) :: (if rest.isEmpty then [] else cutRequest h lim fuel false rest)
def piecesOf (b : Bytes) (lim : Nat) : List Bytes := if b.length ≤ lim then [b] else cutRequest (b.take 16) lim b.length true (b.drop 16)

/-- 20 R379: does CHN.REMOTEn send this request to another unit. -/
def remoteDest (d : Dev) (q : Req) : Option Nat :=
  match q.issuer with
  | .stall n =>
    let r := tgetD d.chn.remote n.val (false, 0)
    let c := chOpcode q.bytes / 256
    if r.1 && (c == 1 || c == 3 || c == 4) then some r.2 else none
  | _ => none
/-- 12 R225: the largest result of a request that is to leave the unit does not fit its buffer; judged in the order of 13 R236. Of class 0x01 only NOP runs for another unit, and it has no result. -/
def remoteSpaceBad (d : Dev) (c : Cmd) : Bool :=
  let checks :=
    if c.opcode / 256 = 3 then (pkPlan d c).pre
    else if laned c then (symPlan d c).checks
    else []
  firstFail checks == some ST.resultSpace
def sendRemote (d : Dev) (rid : Nat) (q : Req) (dest : Nat) : Dev :=
  let peer := tget d.chn.view dest
  match firstFail [(q.pols.any (fun p => !p.getLsbD (chOpcode q.bytes / 256)), ST.denied), (d.chn.role == .excluded, ST.excluded), (peer.isNone, ST.linkLost),
                   (!selfInRepl d || !(match peer with | some p => peerInRepl d p.body | none => false), ST.quorumLost),
                   (remoteSpaceBad d (cmdOf rid q), ST.resultSpace)] with
  | some st => finish (setReq d rid q) rid st
  | none =>
    let d := freeCells d (holderOf q.issuer) (cellIdx q.cells)
    let d := setReq d rid { q with cells := [], stage := .remote dest, seq := ohSeq q.bytes }
    (piecesOf q.bytes (pathLimit d (routeTo d dest))).foldl (fun d b => (unicast d dest (.data b) (some rid)).getD d) d

/-- R259: the queue of a DELIVER. -/
def deliverQueue (i : Issuer) (a : Word) : Nat := match i with | .stall n => 4 * n.val + aQueue a % 4 | _ => 256 + aQueue a
def deliver (d : Dev) (rid : Nat) (q : Req) (n : Nat) : Dev :=
  match remoteDest d q with
  | some x => sendRemote d rid q x
  | none => enqueueReq d rid q n

/-- R265: a report, or an immediate end where the queue is full. -/
def trapReq (d : Dev) (rid : Nat) (q : Req) (entry : Nat) (pass2 : Bool) (st : Half) : Dev :=
  if 16 ≤ d.cls.traps.length then
    finish (setReq (setCls d { d.cls with trapLost := satInc d.cls.trapLost }) rid { q with fragOpen := false }) rid st
  else
    let t : Trap := { rid, pass2, entry := BitVec.ofNat 12 entry, issuer := BitVec.ofNat 8 (issuerKey q.issuer), epoch := q.epoch,
                      cell := BitVec.ofNat 15 ((q.cells.head?.map (·.idx)).getD 0) }
    let d := setCls d { d.cls with traps := d.cls.traps ++ [t] }
    raiseSecure (setReq d rid { q with stage := if q.fragOpen then .reassembly .trap else .trapped, trapStatus := st }) irqTrap

def dropRunOf (d : Dev) (rid : Nat) : Dev := setCls d { d.cls with runs := d.cls.runs.filter fun r => decide (r.2.rid ≠ rid) }
def nestEnd (d : Dev) (rid : Nat) : Dev := finish (setCls d { d.cls with cntNest := satInc d.cls.cntNest }) rid ST.nestLimit

/-- 12 R222: rules 1 and 2 over a whole reassembled request, whose header then reads as the issuer built it (log 23). -/
def wholeBytes (b : Bytes) : Bytes := fragHead b false false (b.length - 16) ++ b.drop 16
/-- A verdict that lets the request go on, once it is whole. -/
def goOn (d : Dev) (rid : Nat) (q : Req) (v : FragVerdict) : Dev :=
  let q := if q.fromFragment then { q with bytes := wholeBytes q.bytes } else q
  let rule := if q.fromFragment then lenRule q.bytes q.bytes.length else 0
  if rule ≠ 0 then finish (setReq (setCls d { d.cls with cntLen := satInc d.cls.cntLen }) rid q) rid ST.lenConflict [] (BitVec.ofNat 32 rule)
  else match v with
    | .deliver n => deliver d rid q n
    | .eddy => setReq d rid { q with stage := .eddy }
    | .drop st x => finish (setReq d rid q) rid st [] x
    | .trap => setReq d rid { q with stage := .trapped }

/-- R260: the action of a pass. An open run only takes note of it (R264). -/
def act (d : Dev) (rid : Nat) (q : Req) (entry : Nat) (a : Word) (pass2 : Bool) : Dev :=
  let verdict := fun v => if q.fragOpen then setReq d rid { q with stage := .reassembly v } else goOn d rid q v
  match aTerm a with
  | 0 => verdict (.deliver (deliverQueue q.issuer a))
  | 1 => if q.fragOpen then verdict (.drop (aStatus a) (BitVec.ofNat 32 entry)) else finish (setReq d rid q) rid (aStatus a) [] (BitVec.ofNat 32 entry)
  | 2 => trapReq d rid q entry pass2 (aStatus a)
  | _ =>
    if pass2 then nestEnd (setReq d rid q) rid
    else if !ohEnvelope q.bytes then finish (setReq (dropRunOf d rid) rid q) rid ST.format
    else verdict .eddy

/-- R270: classification pauses until the next successful epoch switch. -/
def clsHalt (d : Dev) : Dev := errD (setCls d { d.cls with halted := true }) 3 0 ST.aborted
/-- R255, R270: a held request passes the length stage (where it did not come by a ring) and the first pass. -/
def classifyReq (d : Dev) (rid : Nat) (ecc : ClsEcc) : Dev :=
  match tget d.reqs rid with
  | none => d
  | some q =>
    if q.stage != .held || paused d || d.cls.halted || !fabricOn d then d else
    match ecc with
    | .uncorrectable => clsHalt (finish (dropRunOf d rid) rid ST.aborted)
    | e =>
      let d := if e == .corrected then errC d else d
      let q := { q with epoch := d.cls.epoch }
      let ringed := match q.issuer with | .stall _ => true | .pf => true | _ => false
      match (if ringed || q.fromFragment then none else firstDetail (transportSteps d q.issuer q.bytes false)) with
      | some (st, x) => finish (setCls d { d.cls with cntLen := satInc d.cls.cntLen }) rid st [] x
      | none =>
        let r := classPass d q false q.fromFragment
        act r.1 rid r.2.1 r.2.2.1 r.2.2.2 false

/-! ### The Eddy: R261, R262 -/

/-- AAD of an envelope: HOPS and ORIGIN taken as 0. -/
def envAad (b : Bytes) : Bytes := slice b 0 3 ++ [0] ++ slice b 4 2 ++ [0] ++ slice b 7 9 ++ slice b 16 32
/-- R262 within 12 R224 steps 1 to 5. -/
def innerSteps (o b : Bytes) : List (Bool × Half × Word) :=
  [(ohFragFirst b || ohFragMore b || ohHops b != 0, ST.format, 0), (ohEnvelope b, ST.nestLimit, 0)] ++
  headSteps b false (headerLens b) (lenRule b (ehInnerLen o)) ++
  [(ohStall b != ohStall o || ohOwner b != ohOwner o, ST.denied, 0), (ownerBad b, ST.format, 0)]

/-- R261: what the Eddy needs a share for and does not get. -/
def eddyNoCells (d : Dev) (rid : Nat) (i : Issuer) : Dev := finish (match i with | .stall n => errT d n.val ST.noCells | _ => d) rid ST.noCells

/-- R263: the inner command header has been recovered: it has passed steps 1 to 3 (log 85). -/
def recovered (o b : Bytes) : Bool := (firstDetail ((innerSteps o b).take 5)).isNone
/-- The plaintext stands in cells of its own: the inner checks and the second pass, in which a byte beyond the inner request reads 0 (R256). -/
def secondPass (d : Dev) (rid : Nat) (q : Req) (outer : Bytes) (ecc : ClsEcc) : Dev :=
  match firstDetail (innerSteps outer q.bytes) with
  | some (st, x) =>
    if st == ST.nestLimit then nestEnd (setReq d rid q) rid
    else finish (setReq d rid { q with pass2 := recovered outer q.bytes }) rid st [] x
  | none =>
    let q := { q with pass2 := true, bytes := q.bytes.take (16 + ohLen q.bytes) }
    match ecc with
    | .uncorrectable => clsHalt (finish (setReq d rid q) rid ST.aborted)
    | e =>
      let r := classPass (if e == .corrected then errC d else d) q true false
      act r.1 rid r.2.1 r.2.2.1 r.2.2.2 true

/-- 17 R310: fabric cycles of an AES lane at 12.5 Gb/s (log 84). -/
def eddyCycles (n : Nat) : Nat := (32 * n + 124) / 125
/-- While classification pauses, only a request of an earlier epoch goes on: a switch waits for it (R267). -/
def eddyHeld (d : Dev) (q : Req) : Bool := d.cls.halted && q.epoch == d.cls.epoch
def runEddy (d : Dev) (rid : Nat) (keyMask : Bool) (ecc : ClsEcc) : Dev :=
  match tget d.reqs rid with
  | none => d
  | some q =>
    if q.stage != .eddy || d.glb.power != .run || (pickLane d false).isNone || eddyHeld d q then d else
    let b := q.bytes
    let c : Cmd := { rid, issuer := q.issuer, opcode := 0, key := ehKey b, owner := (ohOwner b).setWidth 32 }
    match firstFail (keyChecks d c c.key (fun t => t == 3) (some uDecrypt)), keyFor d c c.key with
    | some st, _ => finish d rid st
    | none, none => finish d rid ST.handleBad
    | none, some k =>
      let n := ehInnerLen b
      match (match useQuorum d c c.key with | some o => gateWith d rid (envelopeDigest b) o | none => (d, none)) with
      | (d, some st) => finish d rid st
      | (d, none) =>
      match claimCells d q.issuer (cellsFor n) with
      | none => eddyNoCells d rid q.issuer
      | some (d, l) =>
        if keyMask then maskFault d else
        let d := chargeLane d ((laneFor d false (issuerIdx q.issuer)).getD 0) (issuerIdx q.issuer) (eddyCycles n)
        let d := touchKey { d with rng := d.rng + 1 } k.ref
        match Config.gcmOpen k.bytes (ehIv b) (envAad b) (slice b 48 n) (slice b (48 + n) 16) with
        | none => finish (authFailed (freeCells d (holderOf q.issuer) l)) rid ST.authFail
        | some p =>
          let d := freeCells d (holderOf q.issuer) (cellIdx q.cells)
          secondPass d rid { q with bytes := p, cells := chain l p, env := some { key := k.bytes, hdr := slice b 16 32 } } b ecc

/-! ### Fragments: 12 R222, R264 -/

def runIdx : FragSrc → Nat | .krovlo o => o.val | .mgt => 16
def srcIssuer : FragSrc → Issuer | .krovlo o => .krovlo o | .mgt => .mgt
/-- What the transport of the request can carry back (20 R380 sets no limit; 22 R395). -/
def srcCap : FragSrc → Nat | .krovlo _ => 0xFFFFFFFF | .mgt => 16384

/-- A request from a transport, without cells. Of one from the management port the device writes ORIGIN (R219). -/
def newReq (d : Dev) (src : FragSrc) (b : Bytes) (tag : Byte) : Nat × Req × Dev :=
  let b := match src with | .mgt => b.set 6 (ownAddr d) | .krovlo _ => b
  (d.nextRid, { issuer := srcIssuer src, stage := .held, bytes := b, rawTag := quad b 24, dataCap := srcCap src, mgtTag := tag, seq := ohSeq b },
   { d with nextRid := d.nextRid + 1 })
/-- A fragment or request that ends at once. -/
def endNew (d : Dev) (src : FragSrc) (b : Bytes) (tag : Byte) (st : Half) (detail : Word := 0) : Dev :=
  let (rid, q, d) := newReq d src b tag
  finish (setReq d rid q) rid st [] detail
def lenFail (d : Dev) : Dev := setCls d { d.cls with cntLen := satInc d.cls.cntLen }

/-- Cells for bytes that follow what the request already holds. -/
def growCells (d : Dev) (q : Req) (b : Bytes) : Option (Dev × Req) :=
  (claimCells d q.issuer (cellsFor b.length - q.cells.length)).map fun r => (r.1, { q with bytes := b, cells := chain (cellIdx q.cells ++ r.2) b })

/-- A whole request from a transport is held for the classifier, without the bytes beyond its end (R256). None where its allotment is full (15 R281). -/
def holdWhole (d : Dev) (src : FragSrc) (b : Bytes) (tag : Byte) : Option Dev :=
  let (rid, q, d) := newReq d src b tag
  (growCells d q (q.bytes.take (16 + ohLen b))).map fun r => setReq r.1 rid r.2
/-- The first fragment of a run, which has passed the length stage. -/
def openRun (d : Dev) (src : FragSrc) (b : Bytes) (tag : Byte) : Option Dev :=
  let (rid, q, d) := newReq d src b tag
  (growCells d q (q.bytes.take (16 + ohLen b))).map fun r =>
    setCls (setReq r.1 rid { r.2 with fromFragment := true, fragOpen := true }) { r.1.cls with runs := tset r.1.cls.runs (runIdx src) { seq := ohSeq b, since := d.now, rid } }

/-- A run is broken (12 R222): one completion, whatever the verdict; a trap report of it is squashed (log 23). -/
def squashTraps (d : Dev) (p : Nat → Bool) : Dev := setCls d { d.cls with traps := d.cls.traps.map fun t => if p t.rid then { t with squashed := true } else t }
def breakRun (d : Dev) (src : FragSrc) : Dev :=
  match tget d.cls.runs (runIdx src) with
  | none => d
  | some r => finish (squashTraps (setCls d { d.cls with runs := tdel d.cls.runs (runIdx src) }) (· == r.rid)) r.rid ST.fragOrphan

/-- The run ends with its last fragment. -/
def closeRun (d : Dev) (src : FragSrc) (rid : Nat) (q : Req) : Dev :=
  let d := setCls d { d.cls with runs := tdel d.cls.runs (runIdx src) }
  let q := { q with fragOpen := false }
  match q.stage with
  | .reassembly (.drop st x) => finish (setReq d rid q) rid st [] x
  | .reassembly .trap => setReq d rid { q with stage := .trapped }
  | .reassembly v => goOn d rid q v
  | _ => setReq d rid q
/-- After DROP or TRAP the rest of a run is absorbed. -/
def absorbing (q : Req) : Bool := match q.stage with | .reassembly (.drop _ _) => true | .reassembly .trap => true | _ => false

/-- A later fragment of the open run. -/
def extendRun (d : Dev) (src : FragSrc) (rid : Nat) (q : Req) (b : Bytes) : Option Dev :=
  let fin := fun (d : Dev) (q : Req) => if ohFragMore b then setReq d rid q else closeRun d src rid q
  if absorbing q then some (fin d q) else
  let all := q.bytes ++ slice b 16 (ohLen b)
  match firstDetail (fragSteps q.issuer b ++ [(decide (64 * cellLimit d q.issuer < all.length), ST.lenRange, 0)]) with
  | some (st, x) => some (finish (dropRunOf (lenFail d) rid) rid st [] x)
  | none => (growCells d q all).map fun r => fin r.1 r.2

/-- The length stage of a packet that does not continue the open run, and behind it the fragment stage (14 R255, 12 R222). With a run open, a packet with FIRST = 0 breaks it (log 23). -/
def intakeFresh (d : Dev) (src : FragSrc) (b : Bytes) (tag : Byte) : Option Dev :=
  let runOpen := (tget d.cls.runs (runIdx src)).isSome
  let ended := fun (st : Half) (x : Word) => some (endNew (lenFail d) src b tag st x)
  if ohFragFirst b then
    match firstDetail (transportSteps d (srcIssuer src) b true) with
    | some (st, x) => ended st x
    | none => if ohFragMore b then openRun (breakRun d src) src b tag else some (endNew (breakRun d src) src b tag ST.format)
  else if ohFragMore b || runOpen then
    match firstDetail (fragSteps (srcIssuer src) b) with
    | some (st, x) => ended st x
    | none => some (endNew (breakRun d src) src b tag ST.fragOrphan)
  else holdWhole d src b tag
/-- A request or fragment from a transport; none where its allotment has no cells for it. -/
def intake (d : Dev) (src : FragSrc) (b : Bytes) (tag : Byte := 0) : Option Dev :=
  match tget d.cls.runs (runIdx src) with
  | none => intakeFresh d src b tag
  | some r =>
    if ohFragFirst b || ohSeq b != r.seq then intakeFresh d src b tag
    else match tget d.reqs r.rid with
      | some q => extendRun d src r.rid q b
      | none => intakeFresh (setCls d { d.cls with runs := tdel d.cls.runs (runIdx src) }) src b tag

/-- 20 R371, R375: a DATA frame for this unit. One that finds the allotment full is not accepted (15 R281); an EXCLUDED unit takes no remote request. -/
def onData (d : Dev) (p : Port) (h : LinkHdr) (b : Bytes) : Dev :=
  if forMe d h && decide (cellRoom d H.krovlo < cellsFor b.length) then reject d p h
  else onFrame d p h (.data b) fun d =>
    if d.chn.role == .excluded || decide (16 ≤ h.origin.toNat) then d
    else (intake d (.krovlo (Fin.ofNat 16 h.origin.toNat)) (b.take 3 ++ [BitVec.ofNat 8 h.hops] ++ b.drop 4)).getD d

/-! ### Traps: R265 -/

/-- 06 R91: bit 7 of the master ID. The management port has the world that owns it. -/
def masterSecure (d : Dev) : Master → Bool
  | .host _ => false
  | .cp _ s _ => s
  | .hw .hifDma _ => false | .hw .krovlo _ => false
  | .hw .sym _ => true | .hw .bootWitness _ => true | .hw .recorder _ => true
  | .hw .mgt _ => d.sec.own.getLsbD 22
  | .hw (.debug s) _ => s
def popTrap (d : Dev) : Dev :=
  match d.cls.traps with
  | [] => d
  | t :: l =>
    let d := setCls d { d.cls with traps := l }
    if t.squashed then d else
    match tget d.reqs t.rid with
    | none => d
    | some q => if q.fragOpen then setReq d t.rid { q with stage := .reassembly (.drop q.trapStatus 0) } else finish d t.rid q.trapStatus

/-! ### Epochs: R267, R268 -/

def extsOk (t : Tab Ext) : Bool :=
  let on := t.filter fun e => e.2.en
  on.all (fun e => e.2.width != 3) && decide ((on.map fun e => extWidth e.2.width).sum ≤ 30)
/-- Step 1: WIDTH and the 240-bit limit over the enabled extractors, every TERM (log 23). -/
def bankOk (k : ClsBank) : Bool := extsOk k.extA && extsOk k.extB && decide (aTerm k.dflt ≤ 3) && k.entries.all fun e => decide (aTerm e.2.action ≤ 3)
def startSwitch (d : Dev) : Dev :=
  if d.cls.sw != .idle then d
  else if bankOk d.cls.shadow then setCls d { d.cls with sw := .validated }
  else setCls d { d.cls with status := ST.param }
def swapBanks (d : Dev) : Dev :=
  if d.cls.sw != .validated then d
  else switchWeirs (setCls d { d.cls with active := d.cls.shadow, shadow := d.cls.active, epoch := d.cls.epoch + 1, sw := .draining })
/-- A request of the old epoch that still needs its second pass. -/
def oldEpoch (d : Dev) (q : Req) : Bool :=
  q.epoch != d.cls.epoch && (match q.stage with | .eddy => true | .reassembly .eddy => true | _ => false)
def drainEnd (d : Dev) : Dev :=
  if d.cls.sw != .draining || d.reqs.any (fun e => oldEpoch d e.2) then d
  else setCls d { d.cls with shadow := d.cls.active, sw := .copying }
def copyDone (d : Dev) : Dev :=
  if d.cls.sw != .copying then d else setCls d { d.cls with sw := .idle, status := ST.ok, halted := false }

def execRequestClassify (rid : Nat) (ecc : ClsEcc) (s : State) : Host.Outcome State Fault Refusal := onDev (fun d => classifyReq d rid ecc) s
def execEddy (u : EddyUse) (s : State) : Host.Outcome State Fault Refusal := onDev (fun d => across d .sym fun d => runEddy d u.rid u.keyMask u.ecc) s
/-- 22 R395: a message that finds the management allotment full is answered ST_BUSY and counted. -/
def mgtBusy (d : Dev) (msg tag : Byte) : Dev :=
  emit { d with mgt := { d.mgt with cntMsg := satInc d.mgt.cntMsg } } (.mgtReply (devMsg msg tag (b2 ST.busy)))
def execFragmentReceived (src : FragSrc) (bytes : Bytes) (s : State) : Host.Outcome State Fault Refusal :=
  onDev (fun d => match intake d src bytes with
    | some d => d
    | none => match src with | .mgt => mgtBusy d 0x01 0 | .krovlo _ => d) s
/-- 12 R222: 10 ms from FIRST. -/
def runOver (d : Dev) (src : FragSrc) : Bool :=
  match tget d.cls.runs (runIdx src) with | some r => decide (r.since + 4000000 ≤ d.now) | none => false
def execFragmentRunTimeout (src : FragSrc) (s : State) : Host.Outcome State Fault Refusal := onDev (fun d => if runOver d src then breakRun d src else d) s
def execSwitch (s : State) : Host.Outcome State Fault Refusal := onDev startSwitch s
def execEpochBankSwap (s : State) : Host.Outcome State Fault Refusal := onDev swapBanks s
def execEpochOldDrainEnd (s : State) : Host.Outcome State Fault Refusal := onDev drainEnd s
def execEpochCopyDone (s : State) : Host.Outcome State Fault Refusal := onDev copyDone s
def execData (p : Port) (h : LinkHdr) (request : Bytes) (s : State) : Host.Outcome State Fault Refusal := onDev (fun d => onData d p h request) s
def execWeirTick (s : State) : Host.Outcome State Fault Refusal :=
  onDev (fun d => { d with stl := { d.stl with stalls := d.stl.stalls.map fun e => (e.1, weirTick e.2) } }) s

end Sys2Proof.Machine
end

