-- ==== Sys2Proof/Machine/Rings.lean ====
section
/-! DEFINITION. Submission and completion rings (12), the dispatch of commands (13 R236, 11 R199), DMA completions (10 R180-R183, R452). -/

namespace Sys2Proof.Machine

def ringDepth (r : Ring) : Nat := 2 ^ r.depthLog2
/-- Distance from `a` to `b` on a ring. -/
def ringDist (r : Ring) (a b : Nat) : Nat := (b + ringDepth r - a % ringDepth r) % ringDepth r
def ringState (d : Dev) (r : RingId) : StallSt := match r with | .stall n => (stall d n.val).st | .pf => .active
def ringHolder (r : RingId) : Nat := match r with | .stall n => n.val | .pf => H.pf

/-! ### Enabling, restoring, doorbells: R212, R211, R213, R216 -/

/-- R212 in its order. The PF's ring needs no stall state. -/
def enableChecks (d : Dev) (r : RingId) (k : Nat) : List (Bool × Half) :=
  let x := ringOf d r
  [(match r with | .stall n => (stall d n.val).st != .ready | .pf => false, ST.stallState),
   (decide (k < 4) || decide (12 < k) || x.sqBase == 0 || x.cqBase == 0, ST.format),
   (match r with | .stall _ => decide (depthShare d < 2 ^ k) | .pf => false, ST.slotQuota)]

def ringEnable (d : Dev) (r : RingId) (k : Nat) : Dev :=
  let x := ringOf d r
  if r == .pf && x.en then d else
  match firstFail (enableChecks d r k) with
  | some st => setRing d r { x with status := st }
  | none =>
    let x := { x with en := true, depthLog2 := k, status := ST.ok, fetch := x.sqHead }
    let d := ldgIssue (setRing d r x) 0 (ringHolder r) (ringDist x x.sqHead x.sqTail)
    match r with | .stall n => toState d n.val .active | .pf => d

/-- 24 R425: a register of a stall's ring page, which the PF and the VF can both write. -/
def sharedKey (r : RingId) (o : Nat) : Option Nat := match r with | .stall n => some (0x2000 + 64 * n.val + o) | .pf => none
/-- The PF's write to a shared register in this cycle, by the bits it covers. -/
def notePf (d : Dev) (k : Nat) (mask : Word) : Dev :=
  let old := if d.stl.pfAt = d.now then d.stl.pfWrote else []
  { d with stl := { d.stl with pfAt := d.now, pfWrote := tset old k (tgetD old k 0 ||| mask) } }
def pfCovers (d : Dev) (k : Nat) : Word := if d.stl.pfAt = d.now then tgetD d.stl.pfWrote k 0 else 0
/-- 24 R425: of two writes in one fabric cycle the PF's value stands: where it has come first, what the VF writes over it in the same cycle has no effect (log 77). `f` gets the bits that the write still covers. -/
def sharedWrite (d : Dev) (side : Side) (key : Option Nat) (mask : Word) (f : Dev → Word → Dev) : Dev :=
  match key, side with
  | none, _ => f d mask
  | some k, .pf => f (notePf d k mask) mask
  | some k, .vf => let m := mask &&& ~~~pfCovers d k; if m = 0 then d else f d m

def dropDoorbell (d : Dev) (r : RingId) : Dev :=
  match r with
  | .stall n => modStall d n.val fun s => { s with dbDropped := satInc s.dbDropped }
  | .pf => d
/-- R203, R453: a bad tail doorbell. The spec names no code for it (log 24). -/
def badDoorbell (d : Dev) (r : RingId) : Dev :=
  match r with
  | .stall n => faultStall (errT { d with rng := d.rng + 1 } n.val (Config.openStatus d.rng)) n.val
  | .pf => errC d

def sqTailWrite (d : Dev) (r : RingId) (side : Side) (t : Nat) : Dev :=
  let x := ringOf d r
  if !x.en then
    match ringState d r, side with
    | .disabled, _ => d
    | .active, .vf => d
    | .active, .pf => if t < ringDepth x then setRing d r { x with sqTail := t } else d
    | .ready, .pf => if t < ringDepth x then setRing d r { x with sqTail := t } else dropDoorbell d r
    | _, _ => dropDoorbell d r
  else
    match ringState d r with
    | .active | .paused =>
      if ringDepth x ≤ t || ringDist x x.sqHead t < ringDist x x.sqHead x.sqTail then badDoorbell d r
      else if t = x.sqTail then d
      else ldgIssue (setRing d r { x with sqTail := t }) 0 (ringHolder r) (ringDist x x.sqTail t)
    | .disabled => d
    | _ => dropDoorbell d r

/-- R211: SQ_HEAD, SQ_TAIL and CQ_TAIL from the PF page while EN is 0. -/
def ringRestore (d : Dev) (r : RingId) (reg : Nat) (v : Word) : Dev :=
  let x := ringOf d r
  if x.en then (if reg = 1 then sqTailWrite d r .pf (fld v 0 12) else d)
  else if reg = 0 then setRing d r { x with sqHead := fld v 0 12, fetch := fld v 0 12 }
  else if reg = 1 then sqTailWrite d r .pf (fld v 0 12)
  else setRing d r { x with cqTail := fld v 0 12, phase := bit v 16 }

/-- R216. While EN is 0 no entry has been written, and the PF page restores a head (R217; log 25). -/
def cqHeadWrite (d : Dev) (r : RingId) (side : Side) (h : Nat) : Dev :=
  let x := ringOf d r
  let bad := decide (ringDepth x ≤ h) || (!(side == .pf && !x.en) && decide (ringDist x x.cqHead x.cqTail < ringDist x x.cqHead h))
  if bad then setRing d r { x with cqDbBad := satInc x.cqDbBad } else setRing d r { x with cqHead := h }

/-! ### Fetching: R226-R228, R281, 11 R198, R203 -/

/-- Requests of a ring that are fetched and not dispatched. -/
def undispatched (q : Req) : Bool :=
  match q.stage with | .dispatched => false | .nopWait _ => false | .remote _ => false | _ => true
def heldOf (d : Dev) (i : Issuer) : List (Nat × Req) := d.reqs.filter fun e => decide (e.2.issuer = i) && undispatched e.2 && !e.2.produced
def fetchingOf (d : Dev) (i : Issuer) : List (Nat × Req) := d.reqs.filter fun e => decide (e.2.issuer = i) && e.2.stage == .fetching
/-- R198: the charge of the entry before comes first. -/
def weirReady (d : Dev) (r : RingId) : Bool :=
  match r with
  | .stall n => weirOpen (stall d n.val) && (!(stall d n.val).fMetered || (fetchingOf d (.stall n)).isEmpty) && decide ((stall d n.val).recovery < 8)
  | .pf => true
def mayFetch (d : Dev) (r : RingId) : Bool :=
  let x := ringOf d r
  x.en && !paused d && fabricOn d && ringState d r == .active && x.fenceAt.isNone && decide (x.fetch ≠ x.sqTail) &&
  decide ((heldOf d (ringIssuer r)).length < 4) && weirReady d r && dmaAllowed d (ringFunc r)

/-- R281: fetching waits for its cells and for a DMA tag (23 R409). Entry k stands at SQ_BASE + 64 × k (R210). -/
def entryFetch (d : Dev) (r : RingId) (outerLen : Nat) : Dev :=
  if !mayFetch d r then d else
  let x := ringOf d r
  let i := ringIssuer r
  let need := if 64 * cellLimit d i < 16 + outerLen then 0 else cellsFor (16 + outerLen)
  match claimCells d i need with
  | none => d
  | some (d, l) =>
    let rid := d.nextRid
    match dmaIssue { d with nextRid := rid + 1 } (ringFunc r) (.entry rid) (x.sqBase.toNat + 64 * x.fetch) 64 with
    | none => freeCells d (ringHolder r) l
    | some d =>
      setRing (setReq d rid { issuer := i, sqIndex := x.fetch, stage := .fetching, cells := chain l [] }) r { x with fetch := (x.fetch + 1) % ringDepth x }

/-- DMA of the data buffer where it can be issued: the bytes beyond the first 32 of the outer payload, and no others (R218, R225). -/
def hasTag (d : Dev) (rid : Nat) : Bool := d.hif.tags.any fun t => t.2.use == .params rid
def issueParams (d : Dev) (e : Nat × Req) : Dev :=
  if e.2.stage == .awaitData && !hasTag d e.1 && dmaAllowed d (issuerFunc e.2.issuer) then
    (dmaIssue d (issuerFunc e.2.issuer) (.params e.1) e.2.dataAddr.toNat (ohLen e.2.bytes - 32)).getD d
  else d
def pumpParams (d : Dev) : Dev := d.reqs.foldl issueParams d

/-- R227: every entry fetched after a FENCE command is discarded; its credit stays issued. -/
def discardLater (d : Dev) (rid : Nat) (i : Issuer) : Dev :=
  (heldOf d i).foldl (fun d e => if rid < e.1 then delReq (freeCells d (holderOf i) (cellIdx e.2.cells)) e.1 else d) d
def applyFence (d : Dev) (rid : Nat) (q : Req) (r : RingId) : Dev :=
  let d := discardLater d rid q.issuer
  let x := ringOf d r
  setRing d r { x with fetch := (q.sqIndex + 1) % ringDepth x, fenceAt := some q.sqIndex }

/-- Exactly the cells the checked length needs. -/
def fitCells (d : Dev) (q : Req) (n : Nat) : Option (Dev × List Nat) :=
  let have_ := cellIdx q.cells
  if n ≤ have_.length then some (freeCells d (holderOf q.issuer) (have_.drop n), have_.take n)
  else (claimCells d q.issuer (n - have_.length)).map fun r => (r.1, have_ ++ r.2)

def ringOfIssuer : Issuer → RingId | .stall n => .stall n | _ => .pf

/-- R224, R225, 11 R198: a received entry is checked and charged; then its buffer is read. -/
def checkEntry (d : Dev) (rid : Nat) (q : Req) : Dev :=
  let e := q.bytes
  let q := { q with rawTag := quad e 24, fence := ohFence e, dataAddr := seAddr e, dataCap := seCap e, seq := ohSeq e }
  let d := setReq d rid { q with stage := .awaitData }
  let d := if q.fence then applyFence d rid q (ringOfIssuer q.issuer) else d
  match firstDetail (entrySteps14 e) with
  | some (st, x) => finish (weirCharge d q.issuer 0) rid st [] x
  | none =>
    let d := weirCharge d q.issuer (chargedLen e)
    match firstDetail (entrySteps5 d q.issuer e) with
    | some (st, x) => finish d rid st [] x
    | none =>
      match fitCells d q (cellsFor (16 + ohLen e)) with
      | none => eddyNoCells d rid q.issuer
      | some (d, l) =>
        let b := (e.take 48).set 6 (ownAddr d)
        let q := { q with bytes := b, cells := chain l b }
        if ohLen e ≤ 32 then setReq d rid { q with stage := .held }
        else issueParams (setReq d rid { q with stage := .awaitData }) (rid, { q with stage := .awaitData })

/-- Entries leave in fetch order. -/
def advanceEntries (i : Issuer) : Nat → Dev → Dev
  | 0, d => d
  | fuel + 1, d =>
    match fetchingOf d i with
    | [] => d
    | e :: _ => if e.2.bytes.isEmpty then d else advanceEntries i fuel (checkEntry d e.1 e.2)

/-- A fetched entry has arrived. -/
def receiveEntry (d : Dev) (rid : Nat) (e : Bytes) : Dev :=
  match tget d.reqs rid with
  | none => d
  | some q =>
    if q.stage != .fetching || !q.bytes.isEmpty then d
    else advanceEntries q.issuer 5 (setReq d rid { q with bytes := Config.fit 64 e })
/-- The buffer bytes of a request have arrived. -/
def receiveParams (d : Dev) (rid : Nat) (b : Bytes) : Dev :=
  match tget d.reqs rid with
  | none => d
  | some q =>
    if q.stage != .awaitData then d else
    let all := q.bytes ++ Config.fit (ohLen q.bytes - 32) b
    setReq d rid { q with bytes := all, cells := chain (cellIdx q.cells) all, stage := .held }

/-- 10 R452: data for a fenced tag reaches nothing; the tag is free again. -/
def dmaDone (d : Dev) (t : Nat) (b : Bytes) : Dev :=
  match tget d.hif.tags t with
  | none => d
  | some e =>
    let d := dmaRetire d t e
    let d := if e.fenced then d else match e.use with | .entry rid => receiveEntry d rid b | .params rid => receiveParams d rid b
    pumpParams d

/-- 10 R182: a DMA read has failed; the command completes with ST_DMA_FAIL. Where the entry itself could not be read its TAG is not known (log 24). -/
def dmaFailed (d : Dev) (t : Nat) (k : Option DmaErr) : Dev :=
  match tget d.hif.tags t with
  | none => d
  | some e =>
    let d := dmaRetire d t e
    if e.fenced then pumpParams d else
    let d := aerReport d e.func (.nonFatal k)
    let rid := match e.use with | .entry r => r | .params r => r
    match tget d.reqs rid with
    | none => pumpParams (match e.func with | .vf n => errT d n.val ST.dmaFail | .pf => errC d)
    | some q =>
      let d := errIssuer d q.issuer ST.dmaFail
      let d := match e.use with
        | .entry _ => setReq { d with rng := d.rng + 1 } rid { q with rawTag := quad (Config.fit 8 (Config.freeBytes d.rng 8)) 0 }
        | .params _ => d
      pumpParams (advanceEntries q.issuer 5 (finish d rid ST.dmaFail))

/-- The entry of the oldest fetch of a ring. -/
def entryReceived (d : Dev) (r : RingId) (e : Bytes) : Dev :=
  match (fetchingOf d (ringIssuer r)).find? fun x => x.2.bytes.isEmpty with
  | none => d
  | some x =>
    match d.hif.tags.find? fun t => t.2.use == .entry x.1 && !t.2.fenced with
    | some t => dmaDone d t.1 e
    | none => d

/-! ### Dispatch: 13 R236, 11 R199 -/

/-- 13 R234: the opcode tables. -/
def runCmd (d : Dev) (c : Cmd) : Dev :=
  match c.opcode with
  | 0x0101 => runNop d c | 0x0102 => runInfoDevice d c | 0x0103 => runInfoStall d c
  | 0x0201 => runKeyGenerate d c | 0x0202 => runKeyImport d c | 0x0203 => runKeyLoad d c | 0x0204 => runKeyUnload d c
  | 0x0205 => runKeyWrap d c | 0x0206 => runKeySetUsage d c | 0x0207 => runKeyExport d c | 0x0208 => runKeyAonPut d c
  | 0x0209 => runKeyInfo d c | 0x020A => runKeyPublic d c
  | 0x0301 => runPk d c | 0x0302 => runPk d c | 0x0303 => runPk d c | 0x0304 => runPk d c | 0x0305 => runPk d c | 0x0306 => runPk d c
  | 0x0401 => symStart d c | 0x0402 => symStart d c | 0x0403 => symStart d c | 0x0404 => symStart d c | 0x0405 => symStart d c
  | 0x0406 => symStart d c
  | 0x0501 => runOwnerCreate d c | 0x0502 => runOwnerDelete d c | 0x0503 => runOwnerBind d c | 0x0504 => runOwnerUnbind d c
  | 0x0505 => runOwnerSetPolicy d c | 0x0506 => runQuorumStatus d c | 0x0507 => runQuorumCancel d c
  | 0x0601 => runBwLoadManifest d c | 0x0602 => runBwSeal d c | 0x0603 => runBwGetJournal d c
  | 0x0604 => runLogAppend d c | 0x0605 => runLogRead d c | 0x0606 => runLogStatus d c
  | 0x0701 => runChnStatus d c | 0x0702 => runChnReplicate d c | 0x0703 => runChnAdmit d c | 0x0704 => runChnSetEpoch d c
  | 0x0801 => runLcGetState d c | 0x0802 => runLcTransition d c | 0x0803 => runLcResume d c
  | 0x0804 => runDbgChallenge d c | 0x0805 => runDbgResponse d c
  | 0x0F01 => runPkeSetChannel d c | 0x0F02 => runLedgerRead d c | 0x0F03 => runFwStage d c | 0x0F04 => runFwActivate d c
  | 0x0F05 => runSelfTest { d with rng := d.rng + 1 } c (Config.freePick d.rng)
  | _ => finish d c.rid ST.opcode

/-- R203, R217: a FAULTED stall dispatches nothing more (log 25). -/
def mayDispatch (d : Dev) (i : Issuer) : Bool :=
  d.glb.power == .run && !d.dbg.extest &&
  (match i with | .stall n => (stall d n.val).st == .active || (stall d n.val).st == .paused | _ => true)
/-- The commands that stand first in the queues of stall `n`, and may be dispatched. -/
def headsOf (d : Dev) (n : Nat) : List Cmd :=
  (List.range 4).filterMap fun k => ((queueOf d (4 * n + k)).reqs.head?).bind fun rid => (tget d.reqs rid).bind fun q =>
    if mayDispatch d q.issuer then some (cmdOf rid q) else none
/-- Stalls with a command that can go now. -/
def queuedStalls (d : Dev) : List Nat := (List.range 64).filter fun n => (headsOf d n).any fun c => !mustWait d c
/-- R193: a command without a share of the lane it needs leaves it to one that has one. -/
def laneYields (d : Dev) (c : Cmd) : Bool :=
  laned c && !hasShare d c && (List.range 64).any fun n => (headsOf d n).any fun x => laned x && hashLaned x == hashLaned c && !mustWait d x && hasShare d x
/-- R199: may a command of issuer `i` be dispatched now, and the round after it. -/
def wrrAllows (d : Dev) (i : Nat) : Option (Tab Nat) :=
  let r := d.stl.round
  if 64 ≤ i then some r
  else if tgetD r i 0 < weightOf d i then some (tset r i (tgetD r i 0 + 1))
  else if (queuedStalls d).any fun j => decide (tgetD r j 0 < weightOf d j) then none
  else some [(i, 1)]
/-- 19 R357: does a record have bytes in these units. -/
def inUnits (off units : Nat) (r : LogRec) : Bool :=
  let a := logPlace r.seq
  decide (a < off + 256 * units) && decide (off < a + r.len)
/-- 19 R357: the range becomes absent, and STORE_FAULT or CONFIG says so. -/
def unitsFail (d : Dev) (off units : Nat) (critical : Bool) : Dev :=
  let gone := d.evr.log.filter (inUnits off units)
  let d := dropUse { d with evr := { d.evr with log := d.evr.log.filter fun r => !inUnits off units r } } gone
  let w := [BitVec.ofNat 32 off, BitVec.ofNat 32 units]
  logRec d (if critical then recConfig ST.authFail w else devRec 0x1005 ST.authFail (w.flatMap b4))
/-- A processor serves request `rid` as command `c`, with what its reads met. -/
def serve (d : Dev) (i : Issuer) (rid : Nat) (c : Cmd) (met : ReadMet) : Dev :=
  match met with
  | .clean => runCmd d c
  | .corrected => runCmd (errC d) c
  | .cellData => cellLost d i rid
  | .cellLink => errFOpen d (rYrdFree d)
  | .keyMask => runCmd d { c with keyMask := true }
  | .unitTag off units critical => runCmd (unitsFail d off units critical) c

/-- A processor takes the oldest request of a queue. One that needs a lane stays while none is free (17 R310). -/
def dispatch (d : Dev) (n : Nat) (met : ReadMet) : Dev :=
  match (queueOf d n).reqs with
  | [] => d
  | rid :: _ =>
    match tget d.reqs rid with
    | none => takePacket d n rid
    | some q =>
      let c := cmdOf rid q
      if !mayDispatch d q.issuer || mustWait d c || laneYields d c then d else
      match wrrAllows d (issuerIdx q.issuer) with
      | none => d
      | some r =>
        let d := takePacket { d with stl := { d.stl with round := r } } n rid
        serve (setReq d rid { q with stage := .dispatched }) q.issuer rid c met

/-! ### Completions: R214-R216, R229, 10 R183, 11 R453 -/

def advanceHead (r : Ring) : Nat → Ring
  | 0 => r
  | fuel + 1 => if r.completed.contains r.sqHead then
      advanceHead { r with completed := r.completed.erase r.sqHead, sqHead := (r.sqHead + 1) % ringDepth r } fuel else r
/-- R214: HEAD once entry `k` has completed. -/
def completeAt (r : Ring) (k : Nat) : Ring :=
  let x := advanceHead { r with completed := r.completed ++ [k] } (r.completed.length + 1)
  { x with fenceAt := if r.fenceAt = some k then none else r.fenceAt }
def nextSlot (r : Ring) : Ring :=
  let t := (r.cqTail + 1) % ringDepth r
  { r with cqTail := t, phase := if t = 0 then !r.phase else r.phase }

/-- Cells, recovery cells and the request are given back. -/
def releaseComp (d : Dev) (rid : Nat) (q : Req) : Dev :=
  let d := freeCells d (holderOf q.issuer) q.resCells
  let d := delReq { d with comps := tdel d.comps rid } rid
  match q.issuer with
  | .stall n =>
    let staged := (d.comps.filter fun e => e.2.staged && match tget d.reqs e.1 with | some r => decide (r.issuer = q.issuer) | none => false).length
    if (stall d n.val).recovery = 0 then d else setRecovery d n.val (min 8 ((staged + 1) / 2))
  | _ => d

/-- R216, 23 R409: room in the completion ring and a free tag; a drain still writes, a reset does not (11 R200, 10 R185). -/
def mayComplete (d : Dev) (r : RingId) : Bool :=
  let x := ringOf d r
  x.en && decide ((x.cqTail + 1) % ringDepth x ≠ x.cqHead) && dmaAllowed d (ringFunc r) && decide (d.hif.tags.length < 256) &&
  (match r with
   | .pf => true
   | .stall n => match (stall d n.val).job with | some j => j.mode == .drain && !j.flr && !j.drained | none => true)

/-- The entry is written; its credit is retired in the same cycle. -/
def writeEntry (d : Dev) (r : RingId) (rid : Nat) (q : Req) (c : Comp) (bitmapFail : Bool) : Dev :=
  let x := ringOf d r
  let y := completeAt x q.sqIndex
  let b := compEntry c.tag c.status y.sqHead q.sqIndex x.phase c.result.length c.detail
  let d := setRing d r (nextSlot y)
  let d := hostWrite d (ringFunc r) (x.cqBase.toNat + 32 * x.cqTail) b bitmapFail
  signal (releaseComp (ldgRetire d 0 (ringHolder r) 1) rid q) (ringFunc r) 0

/-- R203, R453: the completion entry cannot be written. -/
def loseEntry (d : Dev) (r : RingId) (rid : Nat) (q : Req) (c : Comp) : Dev :=
  match r with
  | .stall n => faultStall (errT { d with comps := tdel d.comps rid } n.val ST.dmaFail) n.val
  | .pf =>
    let d := releaseComp (ldgRetire (setRing d r (completeAt (ringOf d r) q.sqIndex)) 0 H.pf 1) rid q
    errD d 2 0 ST.dmaFail 0x7F false true (some (c.status, c.tag.setWidth 32))

def completionWrite (d : Dev) (rid : Nat) (o : WriteOutcome) : Dev :=
  match tget d.reqs rid, tget d.comps rid with
  | some q, some c =>
    let r := ringOfIssuer q.issuer
    if !mayComplete d r then d else
    match o with
    | .ok => writeEntry (hostWrite d (ringFunc r) q.dataAddr.toNat c.result) r rid q c false
    | .bitmapFail => writeEntry (hostWrite d (ringFunc r) q.dataAddr.toNat c.result true) r rid q c true
    | .resultFail w =>
      if c.result.isEmpty then writeEntry d r rid q c false else
      let d := hostWrite d (ringFunc r) q.dataAddr.toNat (c.result.take (min w.length (c.result.length - 1)))
      writeEntry (errIssuer d q.issuer ST.dmaFail) r rid q { c with status := ST.dmaFail, result := [], detail := 0 } false
    | .entryFail => loseEntry (hostWrite d (ringFunc r) q.dataAddr.toNat c.result) r rid q c
  | _, _ => d

def execRingEnable (ring : RingId) (side : Side) (depthLog2 : Fin 16) (s : State) : Host.Outcome State Fault Refusal :=
  onDev (fun d => sharedWrite d side (sharedKey ring 0x10) 0xFFFFFFFF fun d _ => ringEnable d ring depthLog2.val) s
def execRingRestoreWrite (ring : RingId) (reg : Fin 3) (value : Word) (s : State) : Host.Outcome State Fault Refusal := onDev (fun d => ringRestore d ring reg.val value) s
def execSqTail (ring : RingId) (side : Side) (value : Word) (s : State) : Host.Outcome State Fault Refusal := 
  onDev (fun d => sharedWrite d side (sharedKey ring 0x14) 0xFFFFFFFF fun d _ => sqTailWrite d ring side (fld value 0 12)) s
def execCqHead (ring : RingId) (side : Side) (value : Word) (s : State) : Host.Outcome State Fault Refusal := 
  onDev (fun d => sharedWrite d side (sharedKey ring 0x1C) 0xFFFFFFFF fun d _ => cqHeadWrite d ring side (fld value 0 12)) s
def execEntryFetch (ring : RingId) (outerLen : Nat) (s : State) : Host.Outcome State Fault Refusal := onDev (fun d => entryFetch d ring outerLen) s
def execEntryReceived (ring : RingId) (entry : Bytes) (s : State) : Host.Outcome State Fault Refusal := onDev (fun d => across d .pcie fun d => entryReceived d ring entry) s
def execCommandDispatch (queue : Fin 512) (met : ReadMet) (s : State) : Host.Outcome State Fault Refusal := onDev (fun d => dispatch d queue.val met) s
def execCompletionWrite (rid : Nat) (outcome : WriteOutcome) (s : State) : Host.Outcome State Fault Refusal := onDev (fun d => completionWrite d rid outcome) s
def execDmaCompletion (tag : Nat) (bytes : Bytes) (s : State) : Host.Outcome State Fault Refusal := onDev (fun d => across d .pcie fun d => dmaDone d tag bytes) s
/-- 10 R182: the three statuses of a failed read have one response. -/
def execDmaCompletionError (tag : Nat) (k : DmaErr) (s : State) : Host.Outcome State Fault Refusal := onDev (fun d => across d .pcie fun d => dmaFailed d tag (some k)) s
def execCompletionTimeout (tag : Nat) (s : State) : Host.Outcome State Fault Refusal := onDev (fun d => across d .pcie fun d => dmaFailed d tag none) s

end Sys2Proof.Machine
end

