-- ==== Sys2Proof/Machine/Stalls.lean ====
section
/-! DEFINITION. Stalls (11): the operations of STL.CTL, reset and removal in the steps of R200, partition change, the message board's doorbell, the write log's swap. -/

namespace Sys2Proof.Machine

/-- R196: bits of LAST_CAUSE. -/
def causeReset : Byte := 1
def causeRemove : Byte := 2
def causeVfFlr : Byte := 4
def causePfFlr : Byte := 8
def causeVfEnable : Byte := 16

def ofStall (n : Nat) (q : Req) : Bool := decide (issuerIdx q.issuer = n)

/-- Requests of stall `n` leave without a completion entry (12 R215). A quorum session that one of them consumed stays in place (08 R148): only a completion closes it. -/
def dropReqs (d : Dev) (n : Nat) (p : Nat × Req → Bool) : Dev :=
  d.reqs.foldl (fun d e => if ofStall n e.2 && p e then { delReq d e.1 with comps := tdel d.comps e.1 } else d) d

/-- R200 step 3: what has not been dispatched is dropped and its credits are retired; trap reports stay, squashed (14 R266). -/
def dropUndispatched (d : Dev) (n : Nat) : Dev :=
  let gone := d.reqs.filter fun e => ofStall n e.2 && undispatched e.2
  let d := squashTraps d fun r => gone.any fun e => decide (e.1 = r)
  ldgRetire (dropReqs d n fun e => undispatched e.2) 0 n (gone.filter fun e => !e.2.produced).length

def onEngine (d : Dev) (n e : Nat) : Bool := holdsPke n (eng d e)
/-- R200 step 4: engine and lane work ends; a command that has no completion yet goes with it. -/
def abortStall (d : Dev) (n : Nat) : Dev :=
  let d := dropReqs d n fun e => (tget d.comps e.1).isNone
  let d := { d with pkeWait := d.pkeWait.filter fun w => decide (waitIssuer w ≠ n), sym := { d.sym with wait := d.sym.wait.filter fun c => decide (issuerIdx c.issuer ≠ n) } }
  let d := engines.foldl (fun d e => if !onEngine d n e then d else finishAbort (if (eng d e).aborting then d else startAbort d e) e true) d
  let lanes := d.sym.lanes.filter fun l => (tget d.reqs l.2.rid).isNone
  pumpLanes (lanes.foldl (fun d l => laneAbort d l.1 ST.aborted) d)

/-- R200 step 5 by squash: queued completions are discarded and issued reads fenced (10 R452). -/
def squashDma (d : Dev) (n : Nat) : Dev :=
  fenceWhere (dropReqs d n fun _ => true) fun t => decide (funcIdx t.func = n)

/-- R200 steps 1 to 5, as far as they run at once. Any reset ends a power request that waits (24 R457). -/
def beginJob (d : Dev) (n : Nat) (j : StallJob) : Dev :=
  let d := { d with glb := { d.glb with req := none } }
  let d := toState (modStall d n fun s => { s with job := some { j with since := d.now } }) n (if j.removal then .removing else .resetting)
  let d := abortStall (dropUndispatched d n) n
  if j.mode == .squash then squashDma d n else d

/-- R202: a request that meets a running reset joins it. -/
def joinJob (d : Dev) (n : Nat) (j : StallJob) (cause : Byte) (removal flr : Bool) : Dev :=
  let d := modStall d n fun s => { s with job := some { j with cause := j.cause ||| cause, removal := j.removal || removal, flr := j.flr || flr } }
  if removal then toState d n .removing else d

def startReset (d : Dev) (n : Nat) (mode : Mode) (cause : Byte) (removal flr : Bool) : Dev :=
  match (stall d n).job with
  | some j => joinJob d n j cause removal flr
  | none => if enabled (stall d n) then beginJob d n { mode, cause, removal, flr } else d

/-- R200 step 5 by drain has ended: nothing issued is outstanding and no queued entry is still to be written. -/
def drainDone (d : Dev) (n : Nat) (j : StallJob) : Bool :=
  j.mode == .squash || j.drained ||
  (!(d.hif.tags.any fun t => decide (funcIdx t.2.func = n) && !t.2.fenced) && (j.flr || !(d.reqs.any fun e => ofStall n e.2)))

/-- R209: the cap of 2 ms. -/
def drainCap (d : Dev) (n : Nat) : Dev :=
  match (stall d n).job with
  | some j => if j.mode == .drain && !j.drained && decide (j.since + 800000 ≤ d.now) then squashDma (modStall d n fun s => { s with job := some { j with capped := true, drained := true } }) n else d
  | none => d

/-- 12 R217: a STALL reset empties the rings and keeps bases and depth. -/
def ringReset (r : Ring) : Ring := { sqBase := r.sqBase, cqBase := r.cqBase, depthLog2 := r.depthLog2, status := r.status, cqDbBad := r.cqDbBad }
def clearBoard (d : Dev) (n : Nat) : Dev := { d with stl := { d.stl with boards := memClear d.stl.boards (boardSize * n + 64) (boardSize - 64) } }
/-- 07 R117: the slots charged to a stall are cleared. -/
def clearCharged (d : Dev) (n : Nat) : Dev := unloadWhere d fun s => s.charge == .stall n

/-- What a removal takes besides. -/
def removeShares (d : Dev) (n : Nat) : Dev := loseBalance (forgetUse (clearBoard (clearCharged d n) n) n) n

/-- 01 R16: pools whose units stall `n` still holds where it must hold none. -/
def ledgerFail (d : Dev) (pools : List Nat) : Dev :=
  if pools.isEmpty then d else
  let d := if d.hif.up then aerReport d .pf .uncorrectableInternal else d
  let d := pools.foldl (fun d p => logRec d (recLedgerPool d 0x0001 p .fatal)) d
  let n := pools.length
  match d.glb.fatal with
  | some f => { d with glb := { d.glb with fatal := some { f with waiting := f.waiting + n } } }
  | none => { d with glb := { d.glb with fatal := some { since := d.now, waiting := n } } }

/-- R200 steps 6 and 7: cells, rings, and for a removal slots and board. -/
def retireStall (d : Dev) (n : Nat) (removal : Bool) : Dev :=
  let d := reclaim (squashDma d n) n
  let d := modStall d n fun s => { s with ring := if removal then {} else ringReset s.ring }
  if removal then removeShares d n else d

/-- LAST_MODE. -/
def lastModeOf (j : StallJob) : Byte := (if j.mode == .drain then 1 else 0) ||| (if j.capped then 2 else 0)

/-- R200 step 8. -/
def completeJob (d : Dev) (n : Nat) : Dev :=
  match (stall d n).job with
  | none => d
  | some j =>
    if !drainDone d n j then d else
    let d := ldgDrain (retireStall d n j.removal) 0 n
    let d := setRecovery d n (max 1 (stall d n).recovery)
    let d := setRecovery d n 0
    let d := ledgerFail d ([0, 1, 2, 4].filter fun p => if p = 2 then engines.any (onEngine d n) else heldBy d p n != 0)
    let d := modStall d n fun s => { s with job := none, status := ST.ok, resets := satInc s.resets, lastStatus := ST.ok, lastCause := j.cause, lastMode := lastModeOf j }
    let d := toState d n (if j.removal then .disabled else .ready)
    { d with hif := { d.hif with flrBusy := d.hif.flrBusy &&& ~~~BitVec.ofNat 64 (2 ^ n) } }

/-! ### STL.CTL: R189, R192 -/

def setStatus (d : Dev) (n : Nat) (st : Half) : Dev := modStall d n fun s => { s with status := st }
/-- R192 in its order. A partition change is applied within its own step, so none is running. -/
def enableFails (d : Dev) (n : Nat) : Option Half :=
  firstFail [((stall d n).st != .disabled || !vfExists d n || decide (partN d ≤ n), ST.stallState),
             (decide (4096 < (enabledCount d + 1) * slotShare d + slotsOf d .pf), ST.slotQuota)]

/-- An operation as STL.CTL takes it; its status. OP and MODE are stored by the write. -/
def stallOp (d : Dev) (n : Nat) (op : Nat) (mode : Mode) : Dev × Half :=
  let s := stall d n
  let go := match s.st with | .ready | .active | .paused | .faulted => true | _ => false
  match op with
  | 1 => match enableFails d n with
    | some st => (d, st)
    | none => (grantBalance (toState d n .ready) n (windowLeft d), ST.ok)
  | 2 => if s.st == .active then (toState d n .paused, ST.ok) else (d, ST.stallState)
  | 3 => if s.st == .paused then (toState d n .active, ST.ok) else (d, ST.stallState)
  | 4 => if go || s.job.isSome then (startReset d n mode causeReset false false, ST.ok) else (d, ST.stallState)
  | 5 => if go || s.job.isSome then (startReset d n mode causeRemove true false, ST.ok) else (d, ST.stallState)
  | _ => (d, ST.stallState)

def stallCtl (d : Dev) (n op : Nat) (mode : Mode) : Dev :=
  let d := modStall d n fun s => { s with op := BitVec.ofNat 4 op, mode := mode == .drain }
  let r := stallOp d n op mode
  setStatus r.1 n r.2

/-! ### Partition count: R194 -/

def partChecks (d : Dev) (k : Nat) : List (Bool × Half) :=
  let on := (List.range 64).filter fun n => enabled (stall d n)
  [((List.range 64).any (fun n => !quiescent d n), ST.busy),
   (on.any fun n => decide (2 ^ k ≤ n), ST.stallState),
   (on.any fun n => decide (4096 / 2 ^ k < slotsOf d (.stall n)) || ((stall d n).ring.en && decide (min 4096 (16384 / 2 ^ k) < 2 ^ (stall d n).ring.depthLog2)), ST.slotQuota)]
def partitionChange (d : Dev) (log2n : Nat) : Dev :=
  let k := min log2n 6
  match firstFail (partChecks d k) with
  | some st => { d with stl := { d.stl with partReq := k, partStatus := st } }
  | none =>
    let old := partN d
    let d := { d with stl := { d.stl with partReq := k, partCur := k, partStatus := ST.ok } }
    (List.range 64).foldl (fun d n => let d := forgetUse d n; writeHeader (if enabled (stall d n) then scaleBalances d n old (2 ^ k) else d) n) d

/-! ### Message board and write log: R197, R205 -/

def mbSend (d : Dev) (n : Fin 64) (side : Side) : Dev :=
  match side with
  | .pf => signal (modStall d n.val fun s => { s with inboxVf := true }) (.vf n) 1
  | .vf =>
    let d := modStall d n.val fun s => { s with inboxPf := true }
    signal { d with stl := { d.stl with mbPend := d.stl.mbPend ||| BitVec.ofNat 64 (2 ^ n.val) } } .pf 1

def execEnable (n : Fin 64) (s : State) : Host.Outcome State Fault Refusal := onDev (fun d => stallCtl d n.val 1 .squash) s
def execPause (n : Fin 64) (s : State) : Host.Outcome State Fault Refusal := onDev (fun d => stallCtl d n.val 2 .squash) s
def execResume (n : Fin 64) (s : State) : Host.Outcome State Fault Refusal := onDev (fun d => stallCtl d n.val 3 .squash) s
def execReset (n : Fin 64) (mode : Mode) (s : State) : Host.Outcome State Fault Refusal := onDev (fun d => stallCtl d n.val 4 mode) s
def execRemove (n : Fin 64) (mode : Mode) (s : State) : Host.Outcome State Fault Refusal := onDev (fun d => stallCtl d n.val 5 mode) s
def execDrainCap (n : Fin 64) (s : State) : Host.Outcome State Fault Refusal := onDev (fun d => drainCap d n.val) s
def execPartitionChange (log2n : Fin 8) (s : State) : Host.Outcome State Fault Refusal := onDev (fun d => partitionChange d log2n.val) s
def execMbSend (n : Fin 64) (side : Side) (s : State) : Host.Outcome State Fault Refusal := onDev (fun d => mbSend d n side) s
def execSwap (n : Fin 64) (s : State) : Host.Outcome State Fault Refusal :=
  onDev (fun d => modStall d n.val fun x => { x with wlog := { x.wlog with bitmapB := !x.wlog.bitmapB } }) s

end Sys2Proof.Machine
end

