-- ==== Sys2Proof/Machine/Logbook.lean ====
section
/-! DEFINITION. The one writer of the Logbook (19 R350-R358): taking a record, its flash program, refusal, what the device does once a record is written, checkpoints. -/

namespace Sys2Proof.Machine

/-- R354: the actions that write a CRITICAL record before they proceed. -/
def isAction : After → Bool
  | .lcStart => true
  | .ownerDelete _ _ => true
  | .grant _ _ => true
  | .tokenEnter => true
  | .sealed (some _) _ => true
  | _ => false

def fatalWritten (d : Dev) : Dev :=
  match d.glb.fatal with
  | some f => { d with glb := { d.glb with fatal := some { f with waiting := f.waiting - 1 } } }
  | none => d

/-- 09 R167: after the tamper record TMP.CAUSE is cleared; what an event has latched since the record was built stays for the record of its own TAMPER reset. -/
def clearCause (d : Dev) : Dev :=
  let t := { d.tmp with cQueued := false, cLater := none }
  { d with tmp := match d.tmp.cLater with
      | none => { t with cValid := false, cInVault := false, cZdone := false, cZpart := false, cLid := 0, cMesh := 0, cMon := 0, stampPcc := 0, stampTime := 0 }
      | some (l, m, x, p, s) => { t with cInVault := false, cLid := l, cMesh := m, cMon := x, stampPcc := p, stampTime := s } }

/-- 01 R19: the first check runs 1024 fabric cycles after this moment. -/
def ledgerInitWritten (d : Dev) : Dev := { d with ldg := { d.ldg with initAt := some d.now } }

/-- The record is written at position `seq`: the device acts (R350). -/
def runAfter (d : Dev) (a : After) (seq : Nat) : Dev :=
  match a with
  | .nothing => d
  | .complete rid st withSeq => finish d rid st (if withSeq then leBytes 8 seq else [])
  | .lcStart => lcStart d
  | .lcDone rid => lcDone d rid
  | .ownerDelete rid o => finish (deleteOwner d o) rid ST.ok
  | .grant rid cert => makeGrant d rid cert
  | .tokenEnter => enterTest d
  | .sealed rid g => sealDone d rid ST.ok g
  | .fatal => fatalWritten d
  | .ledgerInit => ledgerInitWritten d
  | .tamper => clearCause d

/-- The record is not written: an action ends with `st` and changes nothing; an event still takes effect (R352, R354, R357). -/
def refuseAfter (d : Dev) (a : After) (st : Half) : Dev :=
  match a with
  | .nothing => d
  | .complete rid own withSeq => finish d rid (if withSeq then st else own)
  | .lcStart => (match d.lc.job with | some j => finish { d with lc := { d.lc with job := none } } j.rid st | none => d)
  | .lcDone rid => lcDone d rid
  | .ownerDelete rid _ => finish d rid st
  | .grant rid _ => endResponse d rid st
  | .tokenEnter => endToken d st
  | .sealed rid g => sealDone d rid (if rid.isSome then st else ST.ok) g
  | .fatal => fatalWritten d
  | .ledgerInit => ledgerInitWritten d
  | .tamper => clearCause d

/-- Counters and flags of a record that finds no room. A refusal for a share sets no flag (R352, R354). -/
def countRefused (d : Dev) (r : Record) (forShare : Bool) : Dev :=
  let e := d.evr
  if r.crit then { d with evr := { e with critFull := true, cntCritRefused := if isAction r.after then e.cntCritRefused else satInc e.cntCritRefused } }
  else { d with evr := { e with cntRefused := satInc e.cntRefused, ncRefusing := e.ncRefusing || !forShare } }

/-- Room for a record, or none with the reason: true where it is the stall's share. -/
def roomFor (d : Dev) (r : Record) : Dev ⊕ Bool :=
  if overShare d r then .inr true
  else match takeRoom d (24 + r.payload.length) with | some d => .inl d | none => .inr false

/-- R345, R350: the writer takes the oldest record; its stamp is that of this moment. -/
def takeRecord (d : Dev) : Dev :=
  let e := d.evr
  if !e.isOpen || e.writing.isSome then d else
  match e.queue with
  | [] => d
  | r :: rest =>
    let d := { d with evr := { e with queue := rest } }
    if e.failed && isAction r.after then refuseAfter d r.after ST.busy else
    match roomFor d r with
    | .inl d =>
      let b := recBytes d r
      programRec { d with evr := { d.evr with writing := some (r, b), retries := 0 } } (logPlace d.evr.head) b
    | .inr share => refuseAfter (countRefused d r share) r.after ST.logFull

/-- R357: the program fails for good: Class D with a code the spec leaves open (log 24), the ring takes over, and the record goes there. -/
def failStore (d : Dev) (r : Record) : Dev :=
  let e := d.evr
  let old : EvrSaved := { head := e.head, chain := e.chain, cchain := e.cchain }
  let d := { d with rng := d.rng + 1, evr := { e with failed := true, writing := none, retries := 0, queue := r :: e.queue, saved := some old } }
  alert (signal (errD d 7 0 (Config.openStatus (d.rng - 1))) .pf 8) 2

def writtenRecord (d : Dev) (ok : Bool) : Dev :=
  match d.evr.writing with
  | none => d
  | some (r, b) =>
    if !d.evr.isOpen then d else
    if ok || d.evr.failed then
      let seq := d.evr.head
      runAfter (appendRec { d with evr := { d.evr with writing := none, retries := 0 } } r b) r.after seq
    else if d.evr.retries < 3 then
      -- another place of the zone: which one is free (log 90)
      programRec { d with rng := d.rng + 1, evr := { d.evr with retries := d.evr.retries + 1 } } (logPlace (Config.freePick d.rng)) b
    else failStore d r

/-- What a record written within a reset still settles: the work that waited for it has ended, but the Logbook now holds the completion record of 04 R62, or the tamper record of 09 R167. -/
def settleAfter (d : Dev) (a : After) : Dev :=
  match a with
  | .lcDone _ => { d with lc := { d.lc with completionOpen := none } }
  | .tamper => clearCause d
  | _ => d
/-- A record stored at once. -/
def storeRec (d : Dev) (r : Record) : Dev :=
  match roomFor d r with
  | .inl d => let b := recBytes d r; settleAfter (appendRec (programRec d (logPlace d.evr.head) b) r b) r.after
  | .inr share => countRefused d { r with after := .nothing } share

/-- R358: a WDT or SOFT reset waits until the records the writer has accepted are written. -/
def flushRecords (d : Dev) : Dev :=
  let d := match d.evr.writing with | some (r, b) => settleAfter (appendRec { d with evr := { d.evr with writing := none } } r b) r.after | none => d
  let q := d.evr.queue
  q.foldl storeRec { d with evr := { d.evr with queue := [] } }

/-- R346: a checkpoint, which is not written while FAILED (R357). -/
def checkpoint (d : Dev) : Dev := if d.evr.failed then d else programZone { d with ps := { d.ps with checkpoint := opTime d } } 0x10000 (leBytes 8 (opTime d))

def execRecordAccept (s : State) : Host.Outcome State Fault Refusal := onDev takeRecord s
def execRecordWritten (ok : Bool) (s : State) : Host.Outcome State Fault Refusal := onDev (fun d => writtenRecord d ok) s
/-- R346: every 60 s in RUN and DOZE; the moment is the sender's (log 1). -/
def execOperatingTimeCheckpoint (s : State) : Host.Outcome State Fault Refusal := onDev (fun d => if fabricOn d then checkpoint d else d) s

end Sys2Proof.Machine
end

