-- ==== Sys2Proof/Machine/Functions.lean ====
section
/-! DEFINITION. The virtual functions (10 R175, R177) and function-level resets (10 R185, R186). -/

namespace Sys2Proof.Machine

def allStalls : List Nat := List.range 64

/-- R175: how many VFs a setting of VF Enable makes, from NumVFs and ARI Capable Hierarchy as they stand then. -/
def vfWanted (ari : Bool) (num : Nat) : Nat := if ari then min num 64 else min num 7
/-- Registers that a function-level or hot reset leaves (PRESUMED the standard's sticky ones): the AER masks and severities. -/
def stickyReg (off : Nat) : Bool := off == 0x108 || off == 0x10C || off == 0x114
/-- A function's PCIe state as a reset of it leaves it; what AER has logged stays, as PCIe gives (log 32). -/
def freshCfg (c : FuncCfg) : FuncCfg := { aerUnc := c.aerUnc, aerCor := c.aerCor, aerFirst := c.aerFirst, regs := c.regs.filter fun r => stickyReg r.1 }
def freshFunc (d : Dev) (f : Func) : Dev :=
  let c := freshCfg (cfgOf d f)
  { d with hif := { d.hif with cfg := if c = {} then tdel d.hif.cfg (funcIdx f) else tset d.hif.cfg (funcIdx f) c } }
def createVfs (d : Dev) : Dev :=
  let d := { d with hif := { d.hif with vfCount := vfWanted d.hif.askedAri d.hif.askedVfs } }
  if !d.hif.askedAri && decide (7 < d.hif.askedVfs) then logRec d (recEvent "HIF" 0 (b4 (rLinkStatus d))) else d

/-- The PF's own configuration space and its SR-IOV control as a reset leaves them (log 32). -/
def freshPf (d : Dev) : Dev :=
  freshFunc { d with hif := { d.hif with d3hot := false, pmeEn := false, bar := 0, vfBar := 0, numVfs := 0, ariHier := false, sysPageSize := true, vfMse := false } } .pf

/-- R177: has every removal ended. -/
def removing (d : Dev) : Bool := d.stl.stalls.any fun s => match s.2.job with | some j => j.removal | none => false
/-- The removal of every stall has completed: the VFs of a later VF Enable come into being. -/
def vfSettle (d : Dev) : Dev :=
  if !d.hif.vfRemoving || removing d then d else
  let d := { d with hif := { d.hif with vfRemoving := false } }
  if d.hif.vfEnable then createVfs d else d

def setVfEnable (d : Dev) : Dev :=
  if d.hif.vfEnable then d else
  let d := { d with hif := { d.hif with vfEnable := true, askedVfs := d.hif.numVfs.toNat, askedAri := d.hif.ariHier } }
  if d.hif.vfRemoving then d else createVfs d
/-- VF Enable reads 0; the VFs and their PCIe state are gone. -/
def dropVfs (d : Dev) : Dev :=
  allStalls.foldl (fun d n => freshFunc d (.vf (Fin.ofNat 64 n))) { d with hif := { d.hif with vfEnable := false, vfCount := 0 } }
def clearVfEnable (d : Dev) : Dev :=
  if !d.hif.vfEnable then d else
  let d := dropVfs { d with hif := { d.hif with vfRemoving := true } }
  vfSettle (allStalls.foldl (fun d n => startReset d n .squash causeVfEnable true false) d)

/-- R185: no DMA and no message from the moment of the FLR; its tags are fenced in squash mode (by the reset). -/
def startVfFlr (d : Dev) (n : Nat) : Dev :=
  if !vfExists d n then d else
  let d := freshFunc d (.vf (Fin.ofNat 64 n))
  if enabled (stall d n) then
    startReset { d with hif := { d.hif with flrBusy := d.hif.flrBusy ||| BitVec.ofNat 64 (2 ^ n) } } n (if d.hif.flrDrain then .drain else .squash) causeVfFlr false true
  else signal d .pf 2

/-- A word position of a queue once only the cells that `keep` accepts are left. -/
def shiftPos (cells : List QCell) (p : Nat) (keep : QCell → Bool) : Nat :=
  2 * ((cells.take (p / 2)).filter keep).length + (match cells[p / 2]? with | some c => if keep c then p % 2 else 0 | none => 0)
/-- Packets leave a queue: of its cells only those that `keep` accepts stay, the others are freed, each from its own allotment. -/
def keepCells (d : Dev) (n : Nat) (keep : QCell → Bool) : Dev :=
  let q := queueOf d n
  if q.cells.all keep then d else
  let d := (q.cells.filter fun c => !keep c).foldl (fun d c => freeCells d c.holder [c.idx]) d
  let cells := q.cells.filter keep
  setQueue d n { q with cells, rdPos := shiftPos q.cells q.rdPos keep, mkPos := shiftPos q.cells q.mkPos keep,
                        reqs := q.reqs.filter fun r => cells.any fun c => decide (c.rid = r) }
/-- The packets of one allotment leave the device's queues. -/
def purgeHolder (d : Dev) (holder : Nat) : Dev :=
  (d.yrd.queues.filter fun q => decide (256 ≤ q.1)).foldl (fun d q => keepCells d q.1 fun c => c.holder != holder) d

/-- A command known to the device ends with ST_ABORTED, wherever it stands; an entry still being fetched and an open run of fragments are none yet. -/
def abortReq (d : Dev) (e : Nat × Req) : Dev :=
  match e.2.stage with
  | .fetching => d
  | .reassembly _ => d
  | .queued n =>
    let d := keepCells d n fun c => decide (c.rid ≠ e.1)
    finish (setQueue d n { queueOf d n with reqs := (queueOf d n).reqs.erase e.1 }) e.1 ST.aborted
  | .trapped => finish (squashTraps d fun r => decide (r = e.1)) e.1 ST.aborted
  | _ => finish d e.1 ST.aborted

/-- A reset of the PF's rings: its requests go with their units (12 R231). Issued reads of the PF are fenced (10 R452). -/
def dropPf (d : Dev) : Dev :=
  let mine := fun e : Nat × Req => e.2.issuer == .pf
  let gone := d.reqs.filter mine
  let d := squashTraps d fun r => gone.any fun e => decide (e.1 = r)
  let d := gone.foldl (fun d e => { delReq (freeCells d H.pf (cellIdx e.2.cells ++ e.2.resCells)) e.1 with comps := tdel d.comps e.1 }) d
  let d := { d with pkeWait := d.pkeWait.filter fun w => decide (waitIssuer w ≠ 64), sym := { d.sym with wait := d.sym.wait.filter fun c => decide (issuerIdx c.issuer ≠ 64) } }
  let d := engines.foldl (fun d e => if !onEngine d 64 e then d else finishAbort (if (eng d e).aborting then d else startAbort d e) e true) d
  let lanes := d.sym.lanes.filter fun l => (tget d.reqs l.2.rid).isNone
  let d := pumpLanes (lanes.foldl (fun d l => laneAbort d l.1 ST.aborted) d)
  let d := fenceWhere (purgeHolder d H.pf) fun t => t.func == .pf
  ldgDrain { d with stl := { d.stl with pfRing := {} } } 0 H.pf

/-- A PF FLR ends once no stall reset runs. -/
def pfFlrSettle (d : Dev) : Dev :=
  if d.hif.pfFlrBusy && !(d.stl.stalls.any fun s => s.2.job.isSome) then
    signal { d with hif := { d.hif with pfFlrBusy := false, flrBusy := 0 } } .pf 2
  else d
/-- R185: a squash of every stall; VF Enable is cleared, which removes no stall here (log 26). -/
def startPfFlr (d : Dev) : Dev :=
  let d := dropPf (freshPf { d with hif := { d.hif with pfFlrBusy := true } })
  pfFlrSettle (dropVfs (allStalls.foldl (fun d n => startReset d n .squash causePfFlr false true) d))

def stallResetDone (d : Dev) (n : Nat) : Dev := pfFlrSettle (vfSettle (completeJob d n))
/-- 15 R287: the scan of step 6 meets an owner tag that it cannot read: Class F; the secure reset ends the stall's reset. -/
def stallResetEnd (d : Dev) (e : ResetEnd) : Dev :=
  if e.tagBad && (stall d e.stall.val).job.isSome then errFOpen d (rYrdFree d) else stallResetDone d e.stall.val

def execVfEnable (s : State) : Host.Outcome State Fault Refusal := onDev setVfEnable s
def execVfDisable (s : State) : Host.Outcome State Fault Refusal := onDev clearVfEnable s
def execVfFlr (n : Fin 64) (s : State) : Host.Outcome State Fault Refusal := onDev (fun d => startVfFlr d n.val) s
def execPfFlr (s : State) : Host.Outcome State Fault Refusal := onDev startPfFlr s
def execStallResetComplete (e : ResetEnd) (s : State) : Host.Outcome State Fault Refusal := onDev (fun d => stallResetEnd d e) s

end Sys2Proof.Machine
end

