-- ==== Sys2Proof/Machine/StartUp.lean ====
section
/-! DEFINITION. The steps of a start-up that a POR, a TAMPER, a WDT and a SOFT reset share (03 R52, R450, R451; 19 R359, R454; 23 R420). -/

namespace Sys2Proof.Machine

/-- Bits of GLB.RESET_CAUSE. -/
def causePor : Byte := 0x01
def causeTamper : Byte := 0x02
def causeWdt : Byte := 0x04
def causeHot : Byte := 0x08
def causeSoft : Byte := 0x10
def causeVault : Byte := 0x20
def causeFatal : Byte := 0x40
def causeRsvWipe : Byte := 0x80

/-! ### The Logbook across a reset -/

/-- The Logbook closes: what is in flash stays, the ring, the queue and the record being written go (19 R357, R358). -/
def closeLog (d : Dev) : Dev :=
  let e := d.evr
  let s : EvrSaved := e.saved.getD { head := e.head, chain := e.chain, cchain := e.cchain }
  let torn := if e.writing.isSome && !e.failed then satInc e.cntTorn else e.cntTorn
  { d with evr := { log := e.log, head := s.head, chain := s.chain, cchain := s.cchain,
                    cntLost := e.cntLost, cntRefused := e.cntRefused, cntCritRefused := e.cntCritRefused, cntTorn := torn } }

/-- 19 R348: STARTUP. -/
def recStartup (d : Dev) : Record :=
  devRec 0x9001 0 (b4 (rResetCause d) ++ b4 (rStraps d) ++ b4 (rTmpCause d) ++ [if d.glb.vaultFlag then 1 else 0] ++ leBytes 8 (opTime d))

/-- 19 R353: the use of every stall, from the records present. -/
def recountUse (d : Dev) : Dev :=
  allStalls.foldl (fun d n =>
    let u := ((d.evr.log.filter fun r => r.counted && decide (r.attr.toNat = n)).map fun r => r.bytes.length).sum
    if (stall d n).logUse = u then d else modStall d n fun s => { s with logUse := u }) d

/-- Step 11: the Logbook opens; the STARTUP record and the held ones follow in order (19 R359, R454). -/
def openLog (d : Dev) : Dev :=
  let d := recountUse d
  let e := d.evr
  { d with evr := { e with isOpen := true, critHigh := decide (15728640 ≤ critBytes e.log), early := [],
                           queue := { recStartup d with reached := d.now } :: e.early } }

/-- 19 R348: the tamper record of R167, where a cause is latched. -/
def recTamper (d : Dev) : Record := devRec 0x9004 0 (b4 (rTmpCause d) ++ b4 (rTmpMesh d) ++ stampOf d.tmp.stampPcc.toNat d.tmp.stampTime) .tamper
def logTamper (d : Dev) : Dev := if d.tmp.cValid then { logRec d (recTamper d) with tmp := { d.tmp with cQueued := true, cLater := none } } else d
/-- 08 R148: the record of a session that the reset has closed. -/
def logCutSession (d : Dev) : Dev :=
  match d.crd.cut with
  | some w => logRec { d with crd := { d.crd with cut := none } } (recEvent "CRD" 0x0203 (b4 w))
  | none => d

/-- 04 R62, R76: what the decode at this start-up calls for: the completion of a transition that a cut left without its record, or LOCKED. -/
def logLifecycle (d : Dev) : Dev :=
  match d.lc.completionOpen with
  | some t =>
    let d := { d with lc := { d.lc with completionOpen := none } }
    if d.lc.state == t then logRec (clearBank d) (recLifecycle d 0x0003 t)
    else if d.lc.state == 0xEE then logRec d (recLifecycle d 0x0004 d.lc.target) else d
  | none => if d.lc.state == 0xEE then logRec d (recLifecycle d 0x0004 d.lc.target) else d

/-- Step 12: every pool at its initial value, a sample, the INIT record (23 R410, R420). -/
def initLedger (d : Dev) (why : Byte) : Dev :=
  let d := takeSample { d with ldg := { d.ldg with pools := [], checks := 0, lastInit := why, initPcc := d.glb.pcc, initAt := none } }
  logRec d { recLedgerAll d 0x0003 with after := .ledgerInit }

/-! ### Steps 8 to 10 -/

/-- 03 R451: KEY.FW_MEAS follows the image that is loaded. -/
def measure (d : Dev) (img : Bytes) : Dev :=
  { d with key := { d.key with measValid := true, fwMeas := Config.sha384 img, fwVersion := Config.fwVersion img } }
def image (d : Dev) (slot : Nat) : Bytes := tgetD d.ps.fwSlot slot []
def recImage (slot : Nat) (halts : Bool) : Record := recCrit "SEC" ST.verifyFail [fields [(halts.toNat, 31), (slot, 0)]]
/-- The pending image becomes active, or is discarded with a CRITICAL record. -/
def choosePending (d : Dev) : Dev :=
  if !d.ps.fwPending then d else
  let other := 1 - d.ps.fwActive
  if Config.fwSigValid (image d other) then { d with ps := { d.ps with fwActive := other, fwPending := false, stage := none, stageOk := false } }
  else logRec { d with ps := { d.ps with fwPending := false } } (recImage other false)

/-- 09 R155: the seed a pair starts from when the always-on island powers up from OFF. -/
def provisionalSeed (n : Nat) : BitVec 31 := BitVec.ofNat 31 (0x40000000 + 0x08000000 * n + leAt Config.deviceId (4 * (n % 4)) 4 % 2 ^ 27)
/-- The eight seeds that the DRBG gives at step 9: distinct, and none zero, or its LFSR would stand still. -/
def seedFrom (l : List (BitVec 31)) (r : BitVec 31) : BitVec 31 :=
  (((List.range 9).map fun k => r + BitVec.ofNat 31 k).find? fun s => s != 0 && !l.contains s).getD r
def drawSeeds (b : Bytes) : List (BitVec 31) := (List.range 8).foldl (fun l n => l ++ [seedFrom l (BitVec.ofNat 31 (leAt b (4 * n) 4))]) []
def seedMesh (d : Dev) : Dev :=
  if drbgReady d then let (b, d) := draw d 32; { d with tmp := { d.tmp with seeds := drawSeeds b } } else d

/-- 17 R319, R320: the entropy start-up test; a failure after three attempts is one failure. -/
def entropyTest (d : Dev) (ok : Bool) : Dev :=
  if ok && !d.sym.rngPerm then instantiate d
  else if ok then d
  else
    let n := min 15 (d.sym.rngFails.toNat + 1)
    let d := { d with sym := { d.sym with rngInst := false, rngFailed := true, rngCause := 3, rngFails := BitVec.ofNat 4 n, rngPerm := d.sym.rngPerm || decide (3 ≤ n) } }
    logRec d (recCrit "SYM" ST.rngFail [rRngStatus d])
def laneTest (d : Dev) (bad : BitVec 12) : Dev :=
  let d := { d with sym := { d.sym with laneOos := bad } }
  if bad = 0 then d else logRec d (recCrit "SYM" ST.engineFault [bad.setWidth 32])
/-- 16 R308. -/
def engineTest (d : Dev) (bad : BitVec 4) : Dev :=
  engines.foldl (fun d e =>
    if bad.getLsbD e then
      let d := setEng d e { eng d e with oos := true }
      logRec d (recCrit (engName e) ST.engineFault [rPkeStatus d e])
    else d) d
def selfTests (d : Dev) (env : StartEnv) : Dev := engineTest (laneTest (entropyTest d env.entropyOk) env.laneBad) env.pkeBad

/-- 07 R116: the permutation of the key slots is drawn from the DRBG. -/
def drawPermutation (d : Dev) : Dev :=
  if drbgReady d then let d := reseed d; { d with rng := d.rng + 1, key := { d.key with perm := some d.rng } } else d

/-- 08 R152: an owner left enrolling is handled as if its window had lapsed. -/
def lapseAll (d : Dev) : Dev := d.key.owners.foldl (fun d w => if w.2.enrol.isSome then lapseEnrolment d w.1 else d) d

/-- Step 10: the root under R48, R164 and R320, then the owner table. -/
def startRoot (d : Dev) (entropyOk : Bool) : Dev := if entropyOk then loadRoot d else unloadRoot d
def recNoReserve (d : Dev) : Record := recCrit "KEY" ST.locked [rPwrStatus d, rKeyStatus d]

/-- 05 R83, 22 R405: the start-up ends with the management port in SMBus mode. -/
def enableMgt (d : Dev) : Dev := { d with mgt := { d.mgt with enabled := !d.mgt.bankOff } }

/-- 03 R451: start-up halts: step 11 first, then the record of the halt. -/
def haltStart (d : Dev) (linkKept : Bool) : Dev :=
  let d := logRec d (recImage d.ps.fwActive true)
  { d with glb := { d.glb with boot := .halted linkKept, raised := if linkKept then d.glb.raised else 0 } }

end Sys2Proof.Machine
end

