-- ==== Sys2Proof/Machine/Resets.lean ====
section
/-! DEFINITION. POR and TAMPER start-ups, the power-loss wipe and zeroization, WDT and SOFT resets (03 R43-R54, R450, R451; 09 R160-R167; 23 R415-R420; 24 R457). -/

namespace Sys2Proof.Machine

/-! ### Zeroization: 09 R160 -/

/-- Transient secrets kept in SRAM 0x2000_0000-0x2000_FFFF (R161): card exchanges, counted shares and the secrets of enrolments go (log 27), and so do the keys of opened envelopes: a command that needs one ends with ST_ABORTED. -/
def dropTransients (d : Dev) : Dev :=
  let cut := fun c : CardSlot => if c.exch.isSome then { c with exch := none, phase := .done } else c
  let d := (d.reqs.filter fun e => e.2.env.isSome).foldl abortReq d
  { d with crd := { d.crd with a := cut d.crd.a, b := cut d.crd.b, session := d.crd.session.map fun s => { s with indices := 0, met := false, countedB := none } },
           key := { d.key with owners := stripSecrets d.key.owners } }

/-- Step 3 without the bank: slots, root, engine memories, lane keys, DRBG state, 64 KiB of SRAM. What runs with these ends with ST_ABORTED. -/
def wipe (d : Dev) : Dev :=
  let d := (List.range 12).foldl (fun d l => laneAbort d l ST.aborted) (stopEngines d)
  let d := unloadRoot (clearSlots (dropTransients d))
  { d with sram := memClear d.sram 0x20000000 0x10000, sym := { d.sym with rngInst := false }, key := { d.key with replicas := [] } }

/-! ### What keeps its contents without VMAIN: 03 R40, R44 -/

/-- A card that stays seated (08 R152). -/
def reseat (c : CardSlot) : CardSlot := if c.phase == .empty then {} else { phase := .debounce }

/-- What the private store holds of the Boot Witness: a journal that stayed in SRAM is gone with it (19 R357, 03 R45). -/
def storedJournals (w : Bwt) : Bwt :=
  let j := w.inFlash.getD (w.current, w.previous, w.currentDigest, w.previousDigest)
  { stored := w.stored, current := j.1, previous := j.2.1, currentDigest := j.2.2.1, previousDigest := j.2.2.2, bootSeq := w.bootSeq }
/-- OTP, private store and the board's own levels. The generations of key and bank slots start again (log 7). -/
def persist (d : Dev) : Dev :=
  adoptDecode
  { now := d.now, nextRid := d.nextRid, rng := d.rng, out := d.out, otp := d.otp, ps := d.ps, psUser := d.psUser,
    glb := { pcc := d.glb.pcc, perstN := d.glb.perstN, vbatOk := d.glb.vbatOk },
    lc := { completionOpen := d.lc.completionOpen },
    bwt := storedJournals d.bwt,
    evr := { d.evr with queue := [], early := [], ring := [], isOpen := false },
    chn := { epoch := d.chn.epoch, admitted := d.chn.admitted },
    crd := { a := reseat d.crd.a, b := reseat d.crd.b, cut := if d.crd.session.isSome then some (rQStatus d) else d.crd.cut } }

/-- The always-on island besides: the bank, the tamper watch, the counters. -/
def withAon (d p : Dev) : Dev :=
  { p with key := { p.key with bank := d.key.bank, bankGens := d.key.bankGens }, tmp := d.tmp,
           glb := { p.glb with opBase := d.glb.opBase, opFrom := d.glb.opFrom, vaultFlag := d.glb.vaultFlag, restoreDue := d.glb.restoreDue } }

/-- 04 R67: a presentation and a certificate check end without a result. -/
def cutChecks (d : Dev) : Dev := let d := cutToken d; { d with dbg := { d.dbg with checking := false, nonce := none } }

/-- 03 R43, R44, R54: the power-loss wipe, then VAULT with the counters stopped, or OFF. -/
def losePower (d : Dev) : Dev :=
  if !d.glb.vmainGood then d else
  let d := wipe (cutChecks (cutTransition d))
  if d.glb.vbatOk then
    let p := withAon d (persist d)
    { p with glb := { p.glb with power := .vault, vaultFlag := true, opBase := opTime d, opFrom := none, restoreDue := false } }
  else persist d
/-- 03 R44: VBAT is lost in VAULT. -/
def loseVbat (d : Dev) : Dev :=
  match d.glb.power with
  | .vault => let p := persist d; { p with glb := { p.glb with vbatOk := false } }
  | .off => { d with glb := { d.glb with vbatOk := false } }
  | _ => { d with glb := { d.glb with vbatOk := false } }

/-! ### Start-up after POR or TAMPER: 03 R52 -/

def vioMatches (env : StartEnv) : Bool := match env.vioBf with | .v18 => !env.flashV | .v33 => env.flashV | _ => false
/-- Step 5: 02 R28, R30, R31. -/
def sampleStraps (d : Dev) (env : StartEnv) : Dev :=
  let s : Straps := { strapFault := env.bwMode == 3, vioBfOk := env.bwMode == 0 || vioMatches env, flashV := env.flashV, bwMode := env.bwMode, chainHead := env.chainHead }
  let d := { d with glb := { d.glb with straps := s, strapsValid := true }, chn := { d.chn with isHead := env.chainHead } }
  let d := if s.strapFault then logRec d (recCrit "GLB" 0x0001 [rStraps d]) else d
  if s.vioBfOk then d else logRec d (recCrit "GLB" 0x0002 [rStraps d])

/-- Step 6: 18 R340; the BF bank of an Absent or mismatched board stays in reset. -/
def checkFlash (d : Dev) (env : StartEnv) : Dev :=
  if absent d || !d.glb.straps.vioBfOk then d else
  let quad := env.flashReads.contains 0xEB || env.flashReads.contains 0x6B
  let bad := !env.flashPathOk || (quad && !env.flashQuadOk)
  let d := { d with glb := { d.glb with bankBf := .released },
                    bwt := { d.bwt with flashFault := bad, quadOk := env.flashPathOk && quad && env.flashQuadOk, offers := env.flashReads } }
  if bad then logRec d (recCrit "BWT" 0x0006 [rBwtStatus d]) else d

/-- 02 R25, R34: the level of VIO_MGT. Its record is in the words of the MGT block, whose register shows it (19 R456, log 60). -/
def measureMgt (d : Dev) (env : StartEnv) : Dev :=
  let off := match env.vioMgt with | .v18 => false | .v33 => false | _ => true
  let d := { d with mgt := { d.mgt with v33 := env.vioMgt == .v33, bankOff := off }, glb := { d.glb with bankMgt := if off then .hiZ else .inReset } }
  if off then logRec d (recEvent "MGT" 0 (b4 (rMgtStatus d))) else d

/-- 03 R44, 19 R346: operating time at the first step 11 after OFF. -/
def restoreTime (d : Dev) (env : StartEnv) : Dev :=
  { d with glb := { d.glb with restoreDue := false, opBase := if d.glb.restoreDue && env.checkpointOk then d.glb.opBase + d.ps.checkpoint else d.glb.opBase } }

/-- Step 11 with a new power cycle. -/
def openCold (d : Dev) (env : StartEnv) : Dev :=
  let d := restoreTime d env
  openLog { d with glb := { d.glb with pcc := d.glb.pcc + 1 } }

/-- Steps 9 to 12 and the wait for the link; the Krovlo ports train (20 R382). -/
def coldEnd (d : Dev) (env : StartEnv) : Dev :=
  let d := drawPermutation (seedMesh (selfTests d env))
  let d := startRoot { d with tmp := { d.tmp with hold := anyAlarm d } } env.entropyOk
  let d := if d.glb.rsvOk then d else logRec d (recNoReserve d)
  let d := lapseAll (openTable (clearCarried d) env.ownerTagOk)
  let d := logLifecycle (logTamper (logCutSession (openCold d env)))
  let d := initLedger d (if d.glb.resetCause.getLsbD 1 then 2 else 1)
  let d := sendTrain (sendTrain d .up false) .dn false
  enableMgt { d with glb := { d.glb with boot := .done, raised := 0, vaultFlag := false, bankCrd := .released, bankMgt := if d.mgt.bankOff then .hiZ else .released } }

/-- Step 8: the private flash starts in the mode its SFDP offers (19 R342). -/
def startPsf (d : Dev) (env : StartEnv) : Dev := { d with glb := { d.glb with psf := if env.sfdpOctal then .octal else .quad } }

/-- From step 5 on. -/
def coldRest (d : Dev) (env : StartEnv) : Dev :=
  let d := measureMgt (checkFlash (sampleStraps d env) env) env
  let d := startPsf { d with glb := { d.glb with bankPs := .released } } env
  if !env.directoryOk then { d with evr := { d.evr with early := [] }, glb := { d.glb with boot := .halted false, raised := 0 } } else
  let d := choosePending (if absent d then d else forceManifest d d.bwt.stored)
  let img := image d d.ps.fwActive
  if Config.fwSigValid img then coldEnd (measure d img) env else haltStart (logTamper (logCutSession (openCold d env))) false

/-- The device as a POR or TAMPER reset finds it, with the bits of RESET_CAUSE; then the steps. -/
def coldStart (d : Dev) (env : StartEnv) (cause : Byte) : Dev :=
  let d := cutChecks d
  let p := closeLog (withAon d (persist d))
  let p := adoptDecode { p with glb := { p.glb with power := .run, boot := .off, vmainGood := true, vbatOk := d.glb.vbatOk, rsvOk := d.glb.rsvOk, resetCause := cause, raised := cause, vioGen := env.vioGenOk },
                                tmp := { p.tmp with coreArmed := true, resetDue := false, hold := false, clearSince := none, cQueued := false, cLater := none } }
  if !env.xtalOk then { p with glb := { p.glb with boot := .halted false, raised := 0 } }
  else if !env.vioGenOk then { p with glb := { p.glb with boot := .waitStraps } }
  else coldRest p env

/-- 09 R156: the class of a pair, by whether it has read GOOD since the always-on island powered up. -/
def meshCode (seenGood : Bool) : MeshSeen → BitVec 4
  | .midRail => if seenGood then 5 else 1
  | .stuckLow => 2
  | .stuckHigh => 3
  | .otherPattern => 4
def envMesh (env : StartEnv) : Tab (BitVec 4) := env.mesh.foldl (fun t p => tset t p.1.val (meshCode false p.2)) []
/-- 09 R154, R168: what the always-on island finds when it powers up from OFF. Whether the reserve held is free (R162). -/
def powerUpTamper (d : Dev) (env : StartEnv) : Dev :=
  let mesh := envMesh env
  let bad := BitVec.ofNat 8 (meshBits mesh)
  let d := { d with tmp := { lid := env.lidBad, mesh, mon := env.monBad, meshSeenGood := ~~~bad, seeds := (List.range 8).map provisionalSeed } }
  if !anyAlarm d then d else
  let z := decide (Config.freePick d.rng % 2 = 0)
  { d with rng := d.rng + 1, tmp := { d.tmp with cValid := true, cLid := env.lidBad, cMesh := bad, cMon := monField env.monBad, cZdone := z, cZpart := !z,
                                                 stampPcc := d.glb.pcc, stampTime := opTime d, resetDue := true } }

def vmainGood (d : Dev) (env : StartEnv) : Dev :=
  if d.glb.vmainGood then d else
  let off := d.glb.power == .off
  let d := { d with glb := { d.glb with vmainGood := true, vbatOk := env.vbatOk, rsvOk := env.rsvOk, opBase := if off then 0 else d.glb.opBase, opFrom := some d.now, restoreDue := off } }
  let d := if off then powerUpTamper d env else d
  coldStart d env (causePor ||| (if off then 0 else causeVault) ||| (if d.tmp.resetDue then causeTamper else 0))

/-- 09 R167: once VMAIN is good. It takes over the sources of a reset that still runs, and VAULT_EXIT (03 R47). -/
def tamperReset (d : Dev) (env : StartEnv) : Dev :=
  if d.tmp.resetDue && d.glb.vmainGood then coldStart d env (causeTamper ||| (d.glb.raised &&& 0x3F)) else d

/-! ### WDT and SOFT resets: 03 R450 -/

/-- 11 R190, R195, R196, R208: a stall after a reset of the device. Its header keeps what it counts. -/
def disableStall (d : Dev) (n : Nat) : Dev :=
  let s := stall d n
  let d := clearCharged d n
  let d := setStall d n { st := s.st, gen := s.gen, classT := s.classT, lastErrRec := s.lastErrRec, logUse := s.logUse, resets := s.resets, lastStatus := s.lastStatus, lastCause := s.lastCause, lastMode := s.lastMode, dbDropped := s.dbDropped }
  toState d n .disabled
def disableStalls (d : Dev) : Dev := d.stl.stalls.foldl (fun d s => disableStall d s.1) d

/-- 23 R418, 01 R17: every held unit is retired; a pool that does not balance then writes a FAIL record (R416); FINAL. -/
def retireAll (d : Dev) : Dev :=
  let d := { d with ldg := { d.ldg with pools := d.ldg.pools.map fun p => (p.1, p.2.retireAll) } }
  let d := (failedPools d).foldl (fun d p => logRec d (recLedgerPool d 0x0001 p)) d
  logRec d (recLedgerAll d 0x0002)

/-- All work in the device ends without completions. -/
def dropWork (d : Dev) : Dev :=
  let d := { d with reqs := [], comps := [], pkeWait := [], sym := { d.sym with wait := [] }, cls := { d.cls with traps := [], runs := [] } }
  (List.range 12).foldl (fun d l => laneAbort d l ST.aborted) (stopEngines d)

/-- Before the clearing: what R45, R339, R61, R148 and R152 end, with their records; then the ledgers; then the writer catches up (19 R358). -/
def warmEnd (d : Dev) : Dev :=
  let d := loseJournal (closeSession (dropWork (cutChecks d)) 0x0203)
  flushRecords (retireAll (disableStalls (cutTransition d)))

/-- What a WDT or SOFT reset keeps (03 R45, R450, 24 R457). -/
def warmKeep (d : Dev) (cause : Byte) : Dev :=
  let p := persist d
  { p with
    glb := { p.glb with power := .run, boot := .warm, vmainGood := true, vbatOk := d.glb.vbatOk, rsvOk := d.glb.rsvOk,
                        resetCause := d.glb.resetCause ||| cause, raised := d.glb.raised ||| cause, straps := d.glb.straps, strapsValid := d.glb.strapsValid, vioGen := d.glb.vioGen,
                        opBase := d.glb.opBase, opFrom := d.glb.opFrom,
                        bankMgt := if d.mgt.bankOff then .hiZ else .inReset },
    hif := { d.hif with tags := [], flrBusy := 0, pfFlrBusy := false, vfRemoving := false },
    stl := { stalls := d.stl.stalls.map fun s => (s.1, { s.2 with classT := [], lastErrRec := none }) },
    key := { d.key with grantLock := false, measValid := false, ownerSel := 0, tableBad := false,
                        replicas := d.key.replicas.filter fun r => (tget d.key.slots r.2).isSome },
    sym := { rngFails := d.sym.rngFails, rngPerm := d.sym.rngPerm, rngFailed := d.sym.rngFailed },
    tmp := d.tmp,
    bwt := { p.bwt with flashFault := d.bwt.flashFault, quadOk := d.bwt.quadOk, offers := d.bwt.offers },
    chn := { p.chn with isHead := d.glb.straps.chainHead },
    dbg := { tokenFails := d.dbg.tokenFails, tapStatus := d.dbg.tapStatus, tapInstr := if d.dbg.extest then .idcode else d.dbg.tapInstr },
    mgt := { v33 := d.mgt.v33, bankOff := d.mgt.bankOff } }

/-- The root a state selects is missing although nothing held it back: a start-up whose entropy test failed loaded none (17 R320). -/
def rootGone (d : Dev) : Bool :=
  d.key.root == 0 && !d.key.rootWait && !d.key.grantLock && !d.tmp.hold && rootOfState d.lc.state != 0 && rootStatus d (rootOfState d.lc.state - 1) == 0
/-- Step 10: the root stays; it is loaded where R48 or R164 held it back, and where the grant, the TEST state or the state that kept it away has ended (04 R62, R68, R73), unless the entropy test fails (17 R320). -/
def warmRoot (d : Dev) (gone entropyOk : Bool) : Dev :=
  if d.key.root != 0 && d.key.root == rootOfState d.lc.state then d
  else if entropyOk && !gone then loadRoot d else { unloadRoot d with key := { d.key with root := 0, rootWait := false } }

/-- The shortened start-up; `gone`: no root was there to keep, and none was held back. -/
def warmStart (d : Dev) (env : StartEnv) (why : Byte) (gone : Bool) : Dev :=
  let d := d.stl.stalls.foldl (fun d s => if s.2.gen = 0 then d else writeHeader d s.1) (startPsf d env)
  let d := choosePending (if absent d then d else forceManifest d d.bwt.stored)
  let d := if d.hif.vfEnable && d.hif.vfCount = 0 then createVfs d else d
  let img := image d d.ps.fwActive
  if !Config.fwSigValid img then haltStart (openLog d) true else
  let d := warmRoot (selfTests (measure d img) env) gone env.entropyOk
  let d := lapseAll (openTable (clearCarried d) env.ownerTagOk)
  initLedger (logLifecycle (openLog d)) why

/-- Whether a WDT or SOFT reset can be raised: not before a start-up has come so far, nor after a halt. -/
def running (d : Dev) : Bool := powered d && (match d.glb.boot with | .done => true | .warm => true | _ => false)

/-- 03 R47: while a WDT or SOFT reset runs, one no higher in the order only sets its bits; a WDT reset is performed over a SOFT one. -/
def outranked (d : Dev) (cause : Byte) : Bool := d.glb.boot == .warm && !(cause.getLsbD 2 && !d.glb.raised.getLsbD 2)
def warmReset (d : Dev) (env : StartEnv) (cause why : Byte) : Dev :=
  if !running d then d
  else if outranked d cause then { d with glb := { d.glb with resetCause := d.glb.resetCause ||| cause, raised := d.glb.raised ||| cause } }
  else warmStart (closeLog (warmKeep (warmEnd d) cause)) env why (rootGone d)

/-- What a start-up meets where no row says it: each outcome is free (log 73). -/
def freeEnv (d : Dev) : StartEnv :=
  let n := Config.freePick d.rng
  { entropyOk := decide (n % 2 = 0), ownerTagOk := decide (n / 2 % 2 = 0), sfdpOctal := decide (n / 262144 % 2 = 0), laneBad := BitVec.ofNat 12 (n / 4), pkeBad := BitVec.ofNat 4 (n / 16384) }
/-- A write of GLB.RESET, SOFT with its KEY. -/
def softWrite (d : Dev) : Dev := warmReset { d with rng := d.rng + 1 } (freeEnv d) causeSoft 4

/-- The banks that a WDT or SOFT reset held (03 R46). -/
def releaseBanks (d : Dev) : Dev :=
  { d with glb := { d.glb with raised := 0, bankPs := .released, bankCrd := .released, bankMgt := if d.mgt.bankOff then .hiZ else .released,
                               bankBf := if absent d || !d.glb.straps.vioBfOk then .inReset else .released } }
/-- 03 R450, 10 R184: the interval of R46, or of a HOT reset, has ended. It ends for a start-up that has halted too (R46, R451). -/
def startUpComplete (d : Dev) : Dev :=
  let d := { d with glb := { d.glb with hotWait := false } }
  match d.glb.boot with
  | .warm => let d := sendTrain (sendTrain (releaseBanks d) .up false) .dn false; enableMgt { d with glb := { d.glb with boot := .done } }
  | .halted true => releaseBanks d
  | _ => d

/-! ### The rows -/

/-- 05 R84. -/
def leaveExtest (d : Dev) (env : StartEnv) : Dev :=
  if d.dbg.extest then warmReset { d with dbg := { d.dbg with extest := false, tapInstr := .idcode } } env causeSoft 4 else d
def tapReset (d : Dev) (env : StartEnv) : Dev := if powered d then leaveExtest (setInstr d .idcode) env else d

/-- Another instruction of the TAP leaves EXTEST too (05 R84); in STANDBY one other than BYPASS and IDCODE is not taken (R85). -/
def leaveBy (d : Dev) (env : StartEnv) : Dev := if asleep d then d else leaveExtest d env

def execTestUnlock (token : Bytes) (index : Fin 32) (state : Fin 8) (env : StartEnv) (s : State) : Host.Outcome State Fault Refusal :=
  onDev (fun d => presentToken (leaveBy d env) token index.val state.val) s
def execDbgChal (env : StartEnv) (s : State) : Host.Outcome State Fault Refusal := onDev (fun d => tapChallenge (leaveBy d env)) s
def execDbgResp (cert : Bytes) (env : StartEnv) (s : State) : Host.Outcome State Fault Refusal := onDev (fun d => tapResponse (leaveBy d env) cert) s
def execBypass (env : StartEnv) (s : State) : Host.Outcome State Fault Refusal := onDev (fun d => tapBypass (leaveExtest d env)) s
def execIdcode (env : StartEnv) (s : State) : Host.Outcome State Fault Refusal := onDev (fun d => tapIdcode (leaveExtest d env)) s
def execSamplePreload (env : StartEnv) (s : State) : Host.Outcome State Fault Refusal := onDev (fun d => tapSample (leaveBy d env)) s
def execExtestExit (env : StartEnv) (s : State) : Host.Outcome State Fault Refusal := onDev (fun d => leaveExtest d env) s
def execTapReset (_byTrst : Bool) (env : StartEnv) (s : State) : Host.Outcome State Fault Refusal := onDev (fun d => tapReset d env) s
def execSoft (env : StartEnv) (s : State) : Host.Outcome State Fault Refusal := onDev (fun d => warmReset d env causeSoft 4) s
/-- 06 R102, 05 R82: the count has run down, in RUN and not paused. -/
def swdtPaused (d : Dev) : Bool := d.dbg.halted.any (·.2)
def swdtOver (d : Dev) : Bool := d.sec.swdtCount = 0 && d.glb.power == .run && !swdtPaused d
def execSwdtExpire (env : StartEnv) (s : State) : Host.Outcome State Fault Refusal := onDev (fun d => if swdtOver d then warmReset d env causeWdt 3 else d) s
/-- 23 R415: the records are written or refused, or 2 ms have passed since the error. -/
def resetReady (d : Dev) : Bool := match d.glb.fatal with | some f => f.waiting = 0 || decide (f.since + 800000 ≤ d.now) | none => false
def execSecureReset (env : StartEnv) (s : State) : Host.Outcome State Fault Refusal :=
  onDev (fun d => if resetReady d then warmReset d env (causeWdt ||| causeFatal) 3 else d) s
def execStartUpComplete (s : State) : Host.Outcome State Fault Refusal := onDev startUpComplete s
def execVmainGood (env : StartEnv) (s : State) : Host.Outcome State Fault Refusal := onDev (fun d => vmainGood d env) s
/-- 02 R28: VIO_GEN has come into range. -/
def execStrapSample (env : StartEnv) (s : State) : Host.Outcome State Fault Refusal :=
  onDev (fun d => if d.glb.boot == .waitStraps && env.vioGenOk then coldRest { d with glb := { d.glb with vioGen := true } } env else d) s
def execVmainLost (s : State) : Host.Outcome State Fault Refusal := onDev losePower s
def execVbatLost (s : State) : Host.Outcome State Fault Refusal := onDev loseVbat s
def execTamperReset (env : StartEnv) (s : State) : Host.Outcome State Fault Refusal := onDev (fun d => tamperReset d env) s

end Sys2Proof.Machine
end

