-- ==== Sys2Proof/Machine/World.lean ====
section
/-! DEFINITION. The worlds and their guards (06): violations, hand-over of peripherals, the secure watchdog, the policy barrier; PKE.ABORT (16 R304). -/

namespace Sys2Proof.Machine

/-! ### Violations: R91, R109, R110 -/

def hwNum : HwMaster → Nat
  | .hifDma => 0x10 | .krovlo => 0x12 | .sym => 0x13 | .bootWitness => 0x14 | .recorder => 0x15 | .mgt => 0x16 | .debug _ => 0x17
def masterNum : Master → Nat | .host _ => 0x11 | .cp n _ _ => n.val | .hw m _ => hwNum m
def masterByte (d : Dev) (m : Master) : Byte := BitVec.ofNat 8 (masterNum m + if masterSecure d m then 128 else 0)
def isHost : Master → Bool | .host _ => true | _ => false
def useOf : Master → AccUse | .host _ => {} | .cp _ _ u => u | .hw _ u => u

namespace Kind
def read : Nat := 0
def write : Nat := 1
def fetch : Nat := 2
def atomic : Nat := 3
end Kind
/-- R107: KIND of a read and of a write of a master. -/
def readKind (m : Master) : Nat := match (useOf m).kind with | .data => Kind.read | .fetch => Kind.fetch | .atomic => Kind.atomic
def writeKind (m : Master) : Nat := match (useOf m).kind with | .atomic => Kind.atomic | _ => Kind.write

/-- REGION of a report where no programmable region decided. -/
def regionTransit : Nat := 15
def regionNone : Nat := 14
def regionWatermark : Nat := 13
/-- Slave IDs of R103 that rows of this block name. -/
def slaveSram : Nat := 0
def slaveStore : Nat := 1
def slaveYard : Nat := 2
def slaveBoards : Nat := 3
def slaveKeys : Nat := 4
def slavePke (e : Nat) : Nat := 5 + e
def slaveRegs : Nat := 10
def slaveBank : Nat := 11

/-- R110; T names the stall and the request that is served. -/
inductive ViolClass where
  | c | t (n rid : Nat) | d | f
deriving DecidableEq, Repr
/-- The stall's command that an access serves: a request of a stall in a processor, without a completion. -/
def servedBy (d : Dev) (m : Master) : Option (Nat × Nat) :=
  match (useOf m).serving with
  | none => none
  | some rid => match tget d.reqs rid with
    | some q => (match q.issuer with | .stall n => if (tget d.comps rid).isNone then some (n.val, rid) else none | _ => none)
    | none => none
def violClass (d : Dev) (m : Master) (region : Nat) : ViolClass :=
  if region = regionTransit || isHost m then .c
  else if masterSecure d m then .f
  else match servedBy d m with | some x => .t x.1 x.2 | none => .d

/-- The report enters the queue, or is lost; the secure interrupt; the class (R109, R110). A Class D pause lasts until its report is popped (23 R414). DESIGN CHOICE (log 28): where the report found the queue full, until the pop that empties the queue. -/
def violate (d : Dev) (m : Master) (region slave kind : Nat) (caught : Bool) (addr : Nat) : Dev :=
  let c := violClass d m region
  let v : Viol := { master := masterByte d m, region := BitVec.ofNat 4 region, slave := BitVec.ofNat 4 slave, kind := BitVec.ofNat 2 kind, caught, addr := BitVec.ofNat 32 addr, pauses := c = .d }
  let d := if d.sec.viol.length < 8 then { d with sec := { d.sec with viol := d.sec.viol ++ [v] } } else { d with sec := { d.sec with violLost := satInc d.sec.violLost } }
  let d := raiseSecure d irqViolation
  match c with
  | .c => errC d
  | .t n rid => finish (errT d n ST.denied) rid ST.denied
  | .d => errD { d with rng := d.rng + 1 } 8 0 (Config.openStatus d.rng) 0xFF true
  | .f => errF { d with rng := d.rng + 1 } (Config.openStatus d.rng) (v.master.setWidth 32) v.addr

/-- R105, R107: a register of the secure world written from the normal one, at its offset in PF BAR0. -/
def regDenied (d : Dev) (m : Master) (addr : Nat) : Dev := violate d m regionNone slaveRegs (writeKind m) true addr

/-- Pauses of violations that are still open. -/
def openViolations (d : Dev) : Nat := (d.glb.errD.openCauses.filter (· == (8, 0))).length
def closeViolations : Nat → Dev → Dev
  | 0, d => d
  | n + 1, d => closeViolations n (closeD d 8 0)
def popViolation (d : Dev) : Dev :=
  match d.sec.viol with
  | [] => d
  | v :: l =>
    let d := { d with sec := { d.sec with viol := l } }
    if l.isEmpty then closeViolations (openViolations d) d else if v.pauses then closeD d 8 0 else d

/-! ### Bases of the register blocks: 24 R422 -/
namespace Base
def glb : Nat := 0x0
def sec : Nat := 0x10000
def hif : Nat := 0x20000
def key : Nat := 0x30000
def pke (e : Nat) : Nat := 0x40000 + 0x1000 * e
def sym : Nat := 0x50000
def crd : Nat := 0x60000
def tmp : Nat := 0x70000
def bwt : Nat := 0x80000
def evr : Nat := 0x90000
def chn : Nat := 0xA0000
def tmr : Nat := 0xB0000
def mgt : Nat := 0xC0000
def cls : Nat := 0xD0000
def yrd : Nat := 0xE0000
def stl : Nat := 0x200000
def msix : Nat := 0x3F00000
def pba : Nat := 0x3F01000
end Base

/-! ### Hand-over: R97-R99 -/

def ownedBySecure (d : Dev) (p : Nat) : Bool := d.sec.own.getLsbD p
/-- 22 R404: the commands that the port has delivered end with ST_ABORTED; while the port is in transit their responses are discarded. -/
def dropMgt (d : Dev) : Dev :=
  let mine := fun i : Issuer => i == .mgt
  let d := { d with pkeWait := d.pkeWait.filter fun w => decide (waitIssuer w ≠ issuerIdx .mgt), sym := { d.sym with wait := d.sym.wait.filter fun c => !mine c.issuer },
                    cls := { d.cls with runs := tdel d.cls.runs (runIdx .mgt) } }
  let d := engines.foldl (fun d e => match (eng d e).op with | some o => if mine o.issuer then finishAbort (startAbort d e) e true else d | none => d) d
  let reqs := (d.reqs.filter fun e => mine e.2.issuer).map (·.1)
  let d := (d.sym.lanes.filter fun l => reqs.contains l.2.rid).foldl (fun d l => laneAbort d l.1 ST.aborted) d
  let d := squashTraps (purgeHolder d H.mgt) fun r => reqs.contains r
  pumpLanes (reqs.foldl (fun d r => finish d r ST.aborted) d)
/-- Steps 2 and 3 as far as they run at once: the work of the peripheral ends and its registers take their reset values. -/
def stopPeriph (d : Dev) (p : Nat) : Dev :=
  if p < 16 then { d with tmr := tset d.tmr p {} }
  else if p < 18 then
    let x : Slot := if p = 16 then .a else .b
    let c := slotOf d x
    setSlot d x { reseat c with present := c.present, phase := if c.phase == .empty then .empty else .debounce }
  else if p < 22 then startAbort d (p - 18)
  else
    let d := dropMgt d
    emit { d with mgt := { v33 := d.mgt.v33, bankOff := d.mgt.bankOff, enabled := d.mgt.enabled, eid := d.mgt.eid, alertEn := d.mgt.alertEn,
                           cntMsg := BitVec.ofNat 16 d.mgt.asm.length } } .mgtNack
/-- What the block reset of an engine leaves: its clock, and what the scheduler keeps of it, are no registers of its block. OOS takes its reset value. -/
def resetEngine (d : Dev) (e : Nat) : Dev :=
  let d := finishAbort d e true
  let p := eng d e
  setEng d e { clk := p.clk, relock := p.relock, secureMicros := p.secureMicros, balance := p.balance, round := p.round, failTimes := p.failTimes }

def setHandover (d : Dev) (p : Nat) (to_ : Bool) (go : Bool) (res : Nat) : Dev :=
  { d with sec := { d.sec with hoGo := go, hoResult := BitVec.ofNat 4 res, hoTo := to_, hoPeriph := BitVec.ofNat 5 p } }
def startHandover (d : Dev) (m : Master) (p : Nat) (to_ : Bool) : Dev :=
  if !masterSecure d m then regDenied d m (Base.sec + 0x14)
  else if d.sec.hoGo then d
  else if 22 < p then setHandover d p to_ false 3
  else if ownedBySecure d p == to_ then setHandover d p to_ false 2
  else stopPeriph (setHandover d p to_ true 0) p

def clearIrq (n p : Nat) : Nat := if n.testBit p then n - 2 ^ p else n
/-- Steps 3 to 5. -/
def finishHandover (d : Dev) : Dev :=
  if !d.sec.hoGo then d else
  let p := d.sec.hoPeriph.toNat
  let d := if 18 ≤ p && decide (p < 22) then resetEngine d (p - 18) else d
  let bit := BitVec.ofNat 23 (2 ^ p)
  let own := if d.sec.hoTo then d.sec.own ||| bit else d.sec.own &&& ~~~bit
  let d := { d with sec := { d.sec with own, fresh := { d.sec.fresh with own := d.sec.own :: d.sec.fresh.own }, hoGo := false, hoResult := 1, irqSecure := clearIrq d.sec.irqSecure p, irqNormal := clearIrq d.sec.irqNormal p } }
  sweepWaiting (logRec d (recEvent "SEC" 0 (leBytes 4 d.sec.own.toNat)))

/-! ### Watchdog: R102 -/

def swdtReload (d : Dev) : Dev := { d with sec := { d.sec with swdtCount := d.sec.swdtLoad.toNat, swdtWarned := false } }
def kick (d : Dev) (m : Master) (k : Half) : Dev :=
  if masterSecure d m && k == 0xC35A then swdtReload d else regDenied d m (Base.sec + 0x24)
/-- R102: an eighth of the load is left. -/
def swdtWarn (d : Dev) : Dev :=
  if d.sec.swdtWarned || swdtPaused d || d.glb.power != .run || decide (d.sec.swdtLoad.toNat / 8 < d.sec.swdtCount) then d else raiseSecure { d with sec := { d.sec with swdtWarned := true } } irqWatchdog

/-! ### Barrier: R111, R112 -/

/-- R112: GO covers the rules written before it; those written while it runs wait for the next one. -/
def startBarrier (d : Dev) (m : Master) : Dev :=
  if !masterSecure d m then regDenied d m (Base.sec + 0x38)
  else if d.sec.barrier then d
  else { d with sec := { d.sec with barrier := true, covered := d.sec.fresh, fresh := {} } }
def endBarrier (d : Dev) : Dev := { d with sec := { d.sec with barrier := false, covered := {} } }

/-! ### PKE.ABORT: 16 R304 -/

def abortWrite (d : Dev) (e : Nat) (m : Master) : Dev :=
  if inTransit d (18 + e) then violate d m regionTransit slaveRegs (writeKind m) true (Base.pke e + 8)
  else if !masterSecure d m then regDenied d m (Base.pke e + 8)
  else startAbort d e

def execHandover (src : Master) (periph : Fin 32) (toSecure : Bool) (s : State) : Host.Outcome State Fault Refusal := onDev (fun d => startHandover d src periph.val toSecure) s
def execHandoverComplete (s : State) : Host.Outcome State Fault Refusal := onDev finishHandover s
def execSwdtKick (src : Master) (key : Half) (s : State) : Host.Outcome State Fault Refusal := onDev (fun d => kick d src key) s
def execSwdtWarning (s : State) : Host.Outcome State Fault Refusal := onDev swdtWarn s
def execPolicyBarrier (src : Master) (s : State) : Host.Outcome State Fault Refusal := onDev (fun d => startBarrier d src) s
def execBarrierComplete (s : State) : Host.Outcome State Fault Refusal := onDev endBarrier s
def execViolationPop (src : Master) (s : State) : Host.Outcome State Fault Refusal :=
  onDev (fun d => if masterSecure d src then popViolation d else regDenied d src (Base.sec + 0x40)) s
/-- 14 R265; 06 R92: from any other master the pop is denied. -/
def trapPop (d : Dev) (m : Master) : Dev := if masterSecure d m then popTrap d else regDenied d m (Base.cls + 0x40)
def execTrapPop (src : Master) (s : State) : Host.Outcome State Fault Refusal := onDev (fun d => trapPop d src) s
def execAbort (e : Fin 4) (src : Master) (s : State) : Host.Outcome State Fault Refusal := onDev (fun d => abortWrite d e.val src) s

end Sys2Proof.Machine
end

