-- ==== Sys2Proof/Machine/Tamper.lean ====
section
/-! DEFINITION. Tamper sources, events and zeroization (09), the reserve capacitor (03 R48, R49), VBAT (25 R443). -/

namespace Sys2Proof.Machine

/-- Late loading of the root, with the owner table that its seal guards; an owner left enrolling lapses (08 R152). -/
def lateRoot (d : Dev) : Dev := let d := loadRoot d; if d.key.root = 0 then d else lapseAll (openTable d true)

/-! ### Events: R154, R160, R162, R165, R166 -/

/-- Latch the cause: a further source while one is latched only adds its bit (R165); a VAULT event sets IN_VAULT (R166). While the record of an earlier cause is on its way, the new one is kept apart too. -/
def latchLater (d : Dev) (lid : BitVec 4) (mesh : Byte) (mon : BitVec 4) : Option (BitVec 4 × Byte × BitVec 4 × Word × Nat) :=
  if !d.tmp.cQueued then none else
  match d.tmp.cLater with
  | none => some (lid, mesh, mon, d.glb.pcc, opTime d)
  | some (l, m, x, p, s) => some (l ||| lid, m ||| mesh, x ||| mon, p, s)
def latchCause (d : Dev) (lid : BitVec 4) (mesh : Byte) (mon : BitVec 4) (vault : Bool) : Dev :=
  let t := d.tmp
  let t := if t.cValid then t else { t with cValid := true, stampPcc := d.glb.pcc, stampTime := opTime d }
  { d with tmp := { t with cInVault := t.cInVault || vault, cLid := t.cLid ||| lid, cMesh := t.cMesh ||| mesh, cMon := t.cMon ||| mon, resetDue := true, clearSince := none,
                           cLater := latchLater d lid mesh mon } }
/-- Step 4: ZPART once latched stays (R162). -/
def latchDone (d : Dev) (held : Bool) : Dev :=
  { d with tmp := { d.tmp with cZdone := held && !d.tmp.cZpart, cZpart := !held || d.tmp.cZpart } }
/-- A tamper event outside VAULT: cause, wipe with the bank, ZDONE or ZPART. OTP programming stops. The event wakes the device (03 R42). -/
def tamperEvent (d : Dev) (lid : BitVec 4) (mesh : Byte) (mon : BitVec 4) (held : Bool) : Dev :=
  wake (latchDone (clearBank (wipe (cutChecks (cutTransition (latchCause d lid mesh mon false))))) held) .tamper

def aonOn (d : Dev) : Bool := match d.glb.power with | .off => false | _ => true

/-- R156: the class of what is seen. -/
def meshClass (d : Dev) (n : Nat) (seen : MeshSeen) : BitVec 4 := meshCode (d.tmp.meshSeenGood.getLsbD n) seen
def meshOf (d : Dev) (n : Nat) : BitVec 4 := tgetD d.tmp.mesh n 0
def setMesh (d : Dev) (n : Nat) (seen : MeshSeen) : Dev := { d with tmp := { d.tmp with mesh := tset d.tmp.mesh n (meshClass d n seen) } }
/-- A pair that is in alarm raises no further event (R154), but its class follows what is seen. -/
def meshAlarm (d : Dev) (n : Nat) (seen : MeshSeen) (held : Bool) : Dev :=
  if !powered d then d
  else if meshOf d n != 0 then setMesh d n seen
  else tamperEvent (setMesh d n seen) 0 (BitVec.ofNat 8 (2 ^ n)) 0 held

/-- R157. -/
def setLid (d : Dev) (n : Nat) : Dev := { d with tmp := { d.tmp with lid := d.tmp.lid ||| BitVec.ofNat 4 (2 ^ n) } }
def lidAlarm (d : Dev) (n : Nat) (held : Bool) : Dev :=
  if !powered d || d.tmp.lid.getLsbD n then d else tamperEvent (setLid d n) (BitVec.ofNat 4 (2 ^ n)) 0 0 held

/-- Place of a monitor among the eight sources. -/
def monIdx : Monitor → Nat
  | .light => 0 | .temperature => 1 | .coreVoltage => 2 | .vmainOver => 3 | .vbatOver => 4 | .fabricClock => 5 | .xtal => 6 | .osc32 => 7
def monMask (m : Monitor) : Byte := BitVec.ofNat 8 (2 ^ monIdx m)
/-- The bit of TMP.CAUSE that a monitor sets. -/
def monBits (m : Monitor) : BitVec 4 := monField (monMask m)
def monAlarmed (d : Dev) (m : Monitor) : Bool := d.tmp.mon.getLsbD (monIdx m)
/-- R158: the states in which a monitor is active; R159 disarms the core-voltage monitor. -/
def monActive (d : Dev) (m : Monitor) : Bool :=
  match m with
  | .light => powered d
  | .coreVoltage => powered d && d.tmp.coreArmed
  | .vmainOver => powered d
  | .fabricClock => fabricOn d
  | .xtal => fabricOn d
  | .temperature => aonOn d
  | .vbatOver => aonOn d
  | .osc32 => aonOn d
def setMon (d : Dev) (m : Monitor) : Dev := { d with tmp := { d.tmp with mon := d.tmp.mon ||| monMask m } }
/-- R158, R159: an excursion at the fall of VMAIN is a loss of VMAIN. -/
def monitorAlarm (d : Dev) (m : Monitor) (atFall held : Bool) : Dev :=
  if !powered d || !monActive d m then d
  else if atFall && m == .coreVoltage then let p := losePower d; { p with tmp := { p.tmp with coreArmed := false } }
  else if monAlarmed d m then d
  else tamperEvent (setMon d m) 0 0 (monBits m) held

/-! ### VAULT: R166 -/

def vaultEvent (d : Dev) (lid : BitVec 4) (mesh : Byte) (mon : BitVec 4) (held : Bool) : Dev :=
  latchDone (clearBank (latchCause d lid mesh mon true)) held
def vaultTamper (d : Dev) (x : TamperSource) (seen : MeshSeen) (held : Bool) : Dev :=
  if d.glb.power != .vault then d else
  match x with
  | .mesh n => if meshOf d n.val != 0 then setMesh d n.val seen else vaultEvent (setMesh d n.val seen) 0 (BitVec.ofNat 8 (2 ^ n.val)) 0 held
  | .lid n => if d.tmp.lid.getLsbD n.val then d else vaultEvent (setLid d n.val) (BitVec.ofNat 4 (2 ^ n.val)) 0 0 held
  | .monitor m =>
    (match m with
     | .temperature => if monAlarmed d m then d else vaultEvent (setMon d m) 0 0 (monBits m) held
     | .vbatOver => if monAlarmed d m then d else vaultEvent (setMon d m) 0 0 (monBits m) held
     | .osc32 => if monAlarmed d m then d else vaultEvent (setMon d m) 0 0 (monBits m) held
     | _ => d)

/-! ### Clearing and HOLD: R154, R164 -/

def clearSource (d : Dev) (x : TamperSource) : Dev :=
  if !aonOn d then d else
  let d := match x with
    | .mesh n => { d with tmp := { d.tmp with mesh := tdel d.tmp.mesh n.val, meshSeenGood := d.tmp.meshSeenGood ||| BitVec.ofNat 8 (2 ^ n.val) } }
    | .lid n => { d with tmp := { d.tmp with lid := d.tmp.lid &&& ~~~BitVec.ofNat 4 (2 ^ n.val) } }
    | .monitor m => { d with tmp := { d.tmp with mon := d.tmp.mon &&& ~~~monMask m } }
  if anyAlarm d then d else { d with tmp := { d.tmp with clearSince := some (d.tmp.clearSince.getD d.now) } }

/-- R164: every 100 ms; the roots load once every source has been clear for 1 s, and a record is written. -/
def holdOver (d : Dev) : Bool :=
  d.tmp.hold && !anyAlarm d && (match d.tmp.clearSince with | some t => decide (t + secondCycles ≤ d.now) | none => false)
/-- HOLD stays until the roots are loaded: not while the reserve or a grant keeps them away. -/
def holdRecheck (d : Dev) : Dev :=
  if !powered d || !holdOver d || !d.glb.rsvOk || d.key.grantLock then d else
  let d := lateRoot { d with tmp := { d.tmp with hold := false } }
  logRec d (recEvent "TMP" 0 (b4 (rTmpStatus d)))

/-! ### The reserve: 03 R48, R49; the battery: 25 R443 -/

/-- R49: the power-loss wipe at once; roots wait. The DRBG is instantiated again, since service goes on (log 30). -/
def reserveLow (d : Dev) : Dev :=
  if !powered d then d
  else if !d.glb.rsvOk then d
  else
    let live := d.sym.rngInst
    let d := lapseAll d
    let d := wipe { d with glb := { d.glb with rsvOk := false, resetCause := d.glb.resetCause ||| causeRsvWipe } }
    let d := loadRoot (if live && d.glb.power != .standby then instantiate d else d)
    logRec d (recCrit "GLB" 0x0003 [rResetCause d, rPwrStatus d])
def reserveGood (d : Dev) : Dev := if powered d then { d with glb := { d.glb with rsvOk := true } } else d
/-- R48: every 100 ms. -/
def rootRecheck (d : Dev) : Dev := if powered d && d.key.rootWait && d.glb.rsvOk then lateRoot d else d
/-- R443: a reversed battery writes an EVENT record. -/
def vbatChange (d : Dev) (ok reversed : Bool) : Dev :=
  if !d.glb.vmainGood then d else
  let d := { d with glb := { d.glb with vbatOk := ok && !reversed } }
  if reversed then logRec d (recEvent "GLB" 0 (b4 (rPwrStatus d))) else d

def execMeshAlarm (pair : Fin 8) (seen : MeshSeen) (reserveHeld : Bool) (s : State) : Host.Outcome State Fault Refusal := onDev (fun d => meshAlarm d pair.val seen reserveHeld) s
def execLidAlarm (lid : Fin 4) (reserveHeld : Bool) (s : State) : Host.Outcome State Fault Refusal := onDev (fun d => lidAlarm d lid.val reserveHeld) s
def execMonitorAlarm (m : Monitor) (atVmainFall reserveHeld : Bool) (s : State) : Host.Outcome State Fault Refusal := onDev (fun d => monitorAlarm d m atVmainFall reserveHeld) s
def execVaultTamper (src : TamperSource) (seen : MeshSeen) (vbatHeld : Bool) (s : State) : Host.Outcome State Fault Refusal := onDev (fun d => vaultTamper d src seen vbatHeld) s
def execTamperSourceClear (src : TamperSource) (s : State) : Host.Outcome State Fault Refusal := onDev (fun d => clearSource d src) s
def execTamperHoldRecheck (s : State) : Host.Outcome State Fault Refusal := onDev holdRecheck s
def execVrsvLow (s : State) : Host.Outcome State Fault Refusal := onDev reserveLow s
def execVrsvGood (s : State) : Host.Outcome State Fault Refusal := onDev reserveGood s
def execRootRecheck (s : State) : Host.Outcome State Fault Refusal := onDev rootRecheck s
def execVbatOkChange (ok reversed : Bool) (s : State) : Host.Outcome State Fault Refusal := onDev (fun d => vbatChange d ok reversed) s

end Sys2Proof.Machine
end

