-- ==== Sys2Proof/Machine/Power.lean ====
section
/-! DEFINITION. Power states (03 R40-R42), the crossing watchdog (01 R10, R11, 03 R50, R51), the PKE clocks (03 R39), the PCIe link and D3hot (10 R170, R181), the ledger check and the pause (01 R15, R16, 23 R410, R414). -/

namespace Sys2Proof.Machine

/-! ### Requests and their conditions: 03 R41 -/

def requestPower (d : Dev) (standby : Bool) : Dev :=
  if d.glb.power != .run || d.glb.boot != .done then d
  else { d with glb := { d.glb with req := some { standby, time := d.now }, refuse := 0 } }

/-- A command in a processor: dispatched and without a completion; a halted processor counts (05 R88), and so does a transition (04 R61). -/
def inProcessor (d : Dev) (e : Nat × Req) : Bool :=
  (match e.2.stage with | .dispatched => true | .nopWait _ => true | _ => false) && (tget d.comps e.1).isNone
def working (d : Dev) : Bool :=
  d.pke.any (fun e => e.2.op.isSome || e.2.aborting) || !d.sym.lanes.isEmpty || d.reqs.any (inProcessor d) || !d.dbg.halted.isEmpty || d.lc.job.isSome
def ringMember (d : Dev) : Bool := d.chn.role == .member && decide (2 ≤ d.chn.units)
def bootSealed (d : Dev) : Bool := absent d || (d.bwt.sealedBoot && !d.bwt.journal.opened && d.bwt.sealing.isNone)
def lowLink (d : Dev) : Bool := (d.hif.link == .l1 || d.hif.link == .l2) && d.hif.d3hot
/-- The conditions in order with their REFUSE codes. -/
def powerConds (d : Dev) (standby : Bool) : List (Bool × BitVec 4) :=
  [(working d, 1), (standby && !(allStalls.all (quiescent d)), 2), (standby && ringMember d, 3), (standby && !bootSealed d, 4), (standby && !lowLink d, 5)]
/-- The first condition that fails. -/
def refusal (d : Dev) (standby : Bool) : Option (BitVec 4) := ((powerConds d standby).find? (·.1)).map (·.2)

/-- 10 R181: the host may have taken a link in L1 on to L2 by a message that has no row: FREE (log 31). -/
def settleLink (d : Dev) : Dev :=
  if d.hif.link == .l1 && Config.freePick d.rng % 2 = 1 then { d with rng := d.rng + 1, hif := { d.hif with link := .l2 } } else { d with rng := d.rng + 1 }
/-- 03 R40: what STANDBY loses, and the checkpoint of its entry (19 R346). -/
def intoStandby (d : Dev) : Dev :=
  let d := settleLink d
  let d := engines.foldl (fun d e => if (tget d.pke e).isSome then clearEngine d e else d) d
  checkpoint { d with sym := { d.sym with rngInst := false }, dbg := { d.dbg with nonce := none } }
def enterPower (d : Dev) : Dev :=
  match d.glb.req with
  | none => d
  | some r =>
    if d.glb.power != .run || (refusal d r.standby).isSome then d else
    let d := if r.standby then intoStandby d else d
    swdtReload { d with glb := { d.glb with power := if r.standby then .standby else .doze, req := none, waking := false } }
/-- 1 ms after the request (log 1). -/
def refusePower (d : Dev) : Dev :=
  match d.glb.req with
  | none => d
  | some r => if d.now < r.time + 400000 then d else match refusal d r.standby with | some c => { d with glb := { d.glb with req := none, refuse := c } } | none => d

/-! ### Crossings: 01 R11, 03 R50, R51 -/

def xwdOf (d : Dev) (i : Island) : XwdCnt := tgetD d.glb.xwdCnt (islandCode i - 1) {}
def setXwd (d : Dev) (i : Island) (c : XwdCnt) : Dev := { d with glb := { d.glb with xwdCnt := tset d.glb.xwdCnt (islandCode i - 1) c } }
/-- GLB.XWD_STATUS and the counter, and the timeouts of the last second. -/
def countTimeout (d : Dev) (i : Island) : Dev :=
  let d := setXwd d i { xwdOf d i with timeouts := satInc (xwdOf d i).timeouts }
  let g := d.glb
  let times := (g.xwdTimes.filter fun x => decide (d.now < x.2 + secondCycles)) ++ [(islandCode i, d.now)]
  { d with glb := if g.xwdValid then { g with xwdMulti := true, xwdTimes := times }
                  else { g with xwdValid := true, xwdFirst := BitVec.ofNat 4 (islandCode i), xwdTimes := times } }
def timeoutsOf (d : Dev) (i : Island) : Nat := (d.glb.xwdTimes.filter fun x => x.1 = islandCode i).length

/-- Reset of a PKE island: its operation ends with ST_ABORTED and its unit comes back; its PLL locks again. No abort is counted (16 R304). -/
def resetPke (d : Dev) (e : Nat) : Dev :=
  let p := eng d e
  let d := ldgDrain (setEng d e { p with op := none, aborting := false, stopped := none, mem := [], acc := 0, relock := p.clk != 3 }) 2 (H.engine e)
  match p.op.orElse fun _ => p.stopped with
  | none => d
  | some o => dropOp d o
/-- Reset of the symmetric island: lanes end, the DRBG is instantiated afresh (log 30). -/
def resetSym (d : Dev) : Dev :=
  let d := (List.range 12).foldl (fun d l => laneAbort d l ST.aborted) d
  pumpLanes (if d.sym.rngInst then instantiate d else d)
/-- Reset of the PCIE island: the link is down and every tag comes back; the HOT reset follows as a command of its own. -/
def resetPcie (d : Dev) : Dev :=
  dropFenced (fenceWhere { d with hif := { d.hif with up := false, link := .down, width := 0, speed := 0, degraded := false, downDue := d.hif.downDue || d.hif.up } } fun _ => true)
def dropPort (d : Dev) (p : Port) : Dev :=
  let x := portOf d p
  sendTrain (setPort d p { x with up := false, degraded := false, locked := 0, acked := false, leftOut := 0, holding := x.holding || x.up, downAt := if x.up then d.now else x.downAt }) p false
def resetIsland (d : Dev) (i : Island) : Dev :=
  match i with
  | .pke0 => resetPke d 0 | .pke1 => resetPke d 1 | .pke2 => resetPke d 2 | .pke3 => resetPke d 3
  | .sym => resetSym d
  | .aon => d
  | .pcie => resetPcie d
  | .krovlo => noteLink d (dropPort (dropPort d .up) .dn)

/-- A timeout: Class D naming the island, whose reset is its recovery; the third of one island within 1 s is Class F. -/
def crossTimeout (d : Dev) (i : Island) : Dev :=
  if !running d then d else
  let d := countTimeout { d with rng := d.rng + 1, glb := { d.glb with xwdStalled := tdel d.glb.xwdStalled (islandCode i - 1) } } i
  let code := Config.openStatus (d.rng - 1)
  if 3 ≤ timeoutsOf d i then errF d code (BitVec.ofNat 32 (islandCode i)) 0
  else resetIsland (errD d 1 (islandCode i) code) i
/-- 01 R10, R20: the word is discarded and counted; it is not acknowledged, so its crossing takes nothing more until the watchdog times it out. -/
def codeFail (d : Dev) (i : Island) : Dev :=
  if !running d then d else
  let d := setXwd d i { xwdOf d i with codeFail := satInc (xwdOf d i).codeFail }
  if crossStalled d i then d else { d with glb := { d.glb with xwdStalled := tset d.glb.xwdStalled (islandCode i - 1) d.now } }
/-- 01 R11: the crossings whose word has gone unacknowledged for 4096 fabric cycles. -/
def islands : List Island := [.pke0, .pke1, .pke2, .pke3, .sym, .aon, .pcie, .krovlo]
def stallOver (d : Dev) (i : Island) : Bool := match tget d.glb.xwdStalled (islandCode i - 1) with | some t => decide (t + 4096 ≤ d.now) | none => false
def watchCrossings (d : Dev) : Dev := islands.foldl (fun d i => if stallOver d i then crossTimeout d i else d) d

/-! ### PKE clocks: 03 R39 -/

def wantedClk (d : Dev) (e : Nat) : BitVec 2 := BitVec.ofNat 2 (d.glb.clkCtl.toNat / 4 ^ e)
def clockChange (d : Dev) (e : Nat) : Dev :=
  let p := eng d e
  if p.op.isSome || p.aborting || p.clk == wantedClk d e then d
  else sweepWaiting (setEng d e { p with clk := wantedClk d e, relock := wantedClk d e != 3 })
def pllRelock (d : Dev) (e : Nat) : Dev := if (tget d.pke e).isSome then setEng d e { eng d e with relock := false } else d

/-! ### Link: 10 R170, R181, 03 R53 -/

/-- Bits the functions' link registers show: lanes and speed code. -/
def linkTrained (d : Dev) (w sp : Nat) : Dev :=
  if !(w == 1 || w == 2 || w == 4) || sp = 0 || !d.glb.perstN || d.glb.boot != .done || !powered d || d.hif.downDue then d else
  let low := decide (sp < 5) || decide (w < 4)
  let change := !d.hif.up || d.hif.width.toNat != w || d.hif.speed.toNat != sp
  let d := { d with hif := { d.hif with up := true, link := .l0, width := BitVec.ofNat 4 w, speed := BitVec.ofNat 4 sp, degraded := low } }
  if low && change then logRec d (recEvent "HIF" 0x0401 (b4 (rLinkStatus d))) else d

/-- R181; the link follows into L1 (log 31). -/
def enterD3 (d : Dev) : Dev := if d.hif.up then { d with hif := { d.hif with d3hot := true, link := .l1 } } else d
def allFuncs (d : Dev) : List Func := .pf :: (List.range d.hif.vfCount).map fun n => .vf (Fin.ofNat 64 n)
/-- Messages that waited go once; DMA goes on. -/
def resumeDma (d : Dev) : Dev := pumpParams ((allFuncs d).foldl unblockAll d)
def returnD0 (d : Dev) : Dev :=
  if !d.hif.d3hot then d else resumeDma { d with hif := { d.hif with d3hot := false, link := if d.hif.up then .l0 else d.hif.link } }

/-! ### The ledger check: 01 R15, R16, R19, 23 R410 -/

def checkDue (d : Dev) : Bool := fabricOn d && (match d.ldg.initAt with | some t => decide (t + 1024 ≤ d.now) | none => false)
/-- The sample, then the check: what fails is one Class F error with a record for each pool. The next is due 1024 cycles later. -/
def ledgerCheck (d : Dev) : Dev :=
  if !checkDue d then d else
  let d := takeSample { d with ldg := { d.ldg with initAt := some d.now } }
  match failedPools d with
  | [] => { d with ldg := { d.ldg with checks := satInc d.ldg.checks } }
  | l => ledgerFail d l

/-- 23 R414: 100 ms after it was raised. -/
def pauseTimeout (d : Dev) : Dev :=
  if d.glb.errD.paused && decide (d.glb.errD.since + secondCycles / 10 ≤ d.now) then errF d d.glb.errD.code (rErrD d) 0 else d

def execRequestDoze (s : State) : Host.Outcome State Fault Refusal := onDev (fun d => requestPower d false) s
def execRequestStandby (s : State) : Host.Outcome State Fault Refusal := onDev (fun d => requestPower d true) s
def execPowerStateEntry (s : State) : Host.Outcome State Fault Refusal := onDev enterPower s
def execPowerRequestRefuse (s : State) : Host.Outcome State Fault Refusal := onDev refusePower s
def execWake (cause : WakeCause) (s : State) : Host.Outcome State Fault Refusal := onDev (fun d => wake d cause) s
def execCrossingTimeout (i : Island) (s : State) : Host.Outcome State Fault Refusal := onDev (fun d => crossTimeout d i) s
def execCrossingCodeFail (i : Island) (s : State) : Host.Outcome State Fault Refusal := onDev (fun d => codeFail d i) s
def execPkeClockChange (e : Fin 4) (s : State) : Host.Outcome State Fault Refusal := onDev (fun d => clockChange d e.val) s
def execPkePllRelock (e : Fin 4) (s : State) : Host.Outcome State Fault Refusal := onDev (fun d => pllRelock d e.val) s
def execPerstRelease (s : State) : Host.Outcome State Fault Refusal := onDev (fun d => { d with glb := { d.glb with perstN := true } }) s
def execLinkTrained (width : Fin 5) (speed : Fin 6) (s : State) : Host.Outcome State Fault Refusal := onDev (fun d => linkTrained d width.val speed.val) s
def execD3hotEntry (s : State) : Host.Outcome State Fault Refusal := onDev enterD3 s
def execD0Return (s : State) : Host.Outcome State Fault Refusal := onDev returnD0 s
def execLedgerCheck (s : State) : Host.Outcome State Fault Refusal := onDev ledgerCheck s
def execClassDPauseTimeout (s : State) : Host.Outcome State Fault Refusal := onDev pauseTimeout s

end Sys2Proof.Machine
end

