-- ==== Sys2Proof/Machine/Pcie.lean ====
section
/-! DEFINITION. PCIe from the host's side (10): configuration requests, errors, Bus Master Enable, MSI-X masks, the HOT reset; and the end of a wake, which a HOT reset forces (03 R42, R47). -/

namespace Sys2Proof.Machine

/-! ### The end of a wake, less the requests held: 03 R40, R42, R51; 19 R346; 23 R410 -/

/-- From STANDBY: the fabric clock restarts, the DRBG is instantiated again, a checkpoint is written. -/
def fromStandby (d : Dev) : Dev :=
  let d := if d.sym.rngFailed then d else instantiate d
  checkpoint { d with ldg := { d.ldg with initAt := d.ldg.initAt.map fun _ => d.now } }
/-- 03 R51: an island whose PLL has not locked at the wake. -/
def pllIsland : Island → Bool | .aon => false | .pcie => false | _ => true
def wakeUp (d : Dev) (unlocked : List Island) : Dev :=
  let up := fun d : Dev => swdtReload { d with glb := { d.glb with power := .run, waking := false, wakeN := false } }
  match d.glb.power with
  | .doze => up d
  | .standby => (unlocked.filter pllIsland).foldl crossTimeout (fromStandby (up d))
  | _ => d

/-! ### Answers: R53, R177, R182, R184, R185 -/

/-- R182: an Unsupported Request or a Completer Abort, logged at the function or, where that does not exist, at the PF. -/
def errFunc (d : Dev) (f : Func) : Func := match f with | .vf n => if vfExists d n.val then f else .pf | .pf => .pf
def answerUr (d : Dev) (f : Func) : Dev := errC (aerReport (emit d (.tlp f .ur)) (errFunc d f) .unsupportedRequest)
def answerCa (d : Dev) (f : Func) : Dev := errC (aerReport (emit d (.tlp f .ca)) (errFunc d f) .completerAbort)

/-- A start-up or reset of the device runs, or has halted. -/
def notServing (d : Dev) : Bool := d.glb.boot != .done || d.glb.hotWait
/-- A reset of the function, or the removal of the VFs, runs. -/
def funcBusy (d : Dev) (f : Func) : Bool :=
  match f with | .pf => d.hif.pfFlrBusy | .vf n => d.hif.vfRemoving || d.hif.pfFlrBusy || d.hif.flrBusy.getLsbD n.val

/-! ### Configuration space: R172, R173, R175 -/

/-- A dword of which the spec (or PRESUMED the standard, log 32) fixes the bits of `mask`; the rest, which each implementation sets, is free. -/
def mixed (f : Func) (off : Nat) (mask value : Word) : Word := (value &&& mask) ||| (Config.cfgSpace (funcIdx f) off &&& ~~~mask)
/-- Header of an extended capability: PRESUMED the standard's numbers and versions, the chain by R173 (log 32). -/
def extCap (id version next : Nat) : Word := fields [(id, 0), (version, 16), (next, 20)]
/-- First 8 bytes of SHA-384 over DEVICE_ID, the first byte the most significant. -/
def serialNumber : Bytes := ((Config.sha384 Config.deviceId).take 8).reverse

/-- Registers that the standard lets the host write and that nothing in the device reads: reset value and writable bits (PRESUMED, log 32). The bits of RO, No Snoop, IDO, LTR, AtomicOp and TPH are fixed at 0 (R171, R174). -/
def stdReset (f : Func) (off : Nat) : Word :=
  match f, off with
  | .pf, 0x78 => mixed .pf off (~~~(0x100 : Word)) 0x2000
  | .pf, 0xA0 => 5
  | .pf, 0x108 => 0x00400000 | .pf, 0x10C => 0x00462030 | .pf, 0x114 => 0x00006000
  | _, _ => 0
def stdMask (f : Func) (off : Nat) : Word :=
  match f, off with
  | .pf, 0x04 => 0x0540 | .pf, 0x0C => 0xFF | .pf, 0x3C => 0xFF
  | .pf, 0x78 => 0x71EF | .pf, 0x80 => 0xCB | .pf, 0x98 => 0xF | .pf, 0xA0 => 0xFFBF
  | .pf, 0x108 => 0x0057F010 | .pf, 0x10C => 0x0057F010 | .pf, 0x114 => 0x71C1
  | _, _ => 0
def stdReg (d : Dev) (f : Func) (off : Nat) : Word := tgetD (cfgOf d f).regs off (stdReset f off)
def setStd (d : Dev) (f : Func) (off : Nat) (v : Word) : Dev :=
  let m := stdMask f off
  let new := (v &&& m) ||| (stdReg d f off &&& ~~~m)
  if new = stdReg d f off then d else setCfg d f { cfgOf d f with regs := tset (cfgOf d f).regs off new }
/-- Reads of the function that are on the link (Transactions Pending). -/
def dmaPending (d : Dev) (f : Func) : Bool := d.hif.tags.any fun t => t.2.func == f

def rCommand (d : Dev) (f : Func) : Word :=
  let c := cfgOf d f
  stdReg d f 0x04 ||| fields [(c.status.toNat, 16), (1, 20), (c.busMaster.toNat, 2), ((match f with | .pf => c.memEnable | .vf _ => false).toNat, 1)]
def rDevCtl (d : Dev) (f : Func) : Word := stdReg d f 0x78 ||| fields [((dmaPending d f).toNat, 21), ((cfgOf d f).devStatus.toNat, 16)]
def rLinkCtl (d : Dev) : Word := mixed .pf 0x80 (~~~(0x10000000 : Word)) (stdReg d .pf 0x80 ||| fields [(d.hif.width.toNat, 20), (d.hif.speed.toNat, 16)])
def rPmcsr (d : Dev) : Word := fields [(d.hif.pmeStatus.toNat, 15), (d.hif.pmeEn.toNat, 8), (1, 3), (if d.hif.d3hot then 3 else 0, 0)]
def rMsixCtl (d : Dev) (f : Func) : Word :=
  let c := cfgOf d f
  fields [(c.msixEnable.toNat, 31), (c.funcMask.toNat, 30), (15, 16), (0x7011, 0)]
def rSriovCtl (d : Dev) : Word := fields [(d.hif.ariHier.toNat, 4), (d.hif.vfMse.toNat, 3), (d.hif.vfEnable.toNat, 0)]

/-- What both kinds of function report. -/
def cfgCommon (d : Dev) (f : Func) (off : Nat) : Option Word :=
  match off with
  | 0x04 => some (rCommand d f)
  | 0x08 => some 0x108000B0
  | 0x0C => some (stdReg d f off)
  | 0x2C => some 0x00481D7C
  | 0x3C => some (stdReg d f off)
  | 0x50 => some (rMsixCtl d f)
  | 0x70 => some 0x00020010
  | 0x74 => some (mixed f off (~~~(0xFC0 : Word)) 0x10008022)
  | 0x78 => some (rDevCtl d f)
  | 0x94 => some 0x0001000F
  | 0x98 => some (stdReg d f off)
  | 0x9C => some 0x3E
  | 0x104 => some (cfgOf d f).aerUnc
  | 0x108 => some (stdReg d f off) | 0x10C => some (stdReg d f off)
  | 0x110 => some (cfgOf d f).aerCor
  | 0x114 => some (stdReg d f off)
  | 0x118 => some ((cfgOf d f).aerFirst.setWidth 32)
  | _ => none

def cfgPf (d : Dev) (off : Nat) : Option Word :=
  match off with
  | 0x00 => some 0x48301D7C
  | 0x10 => some ((d.hif.bar.setWidth 32) ||| 4) | 0x14 => some ((d.hif.bar >>> 32).setWidth 32)
  | 0x34 => some 0x40
  | 0x40 => some 0xC0035001
  | 0x44 => some (rPmcsr d)
  | 0x54 => some 0x03F00000 | 0x58 => some 0x03F01000
  | 0x7C => some (mixed .pf off (~~~(0xFF007000 : Word)) (fields [(5, 0), (4, 4), (2, 10), (5, 15), (1, 22)]))
  | 0x80 => some (rLinkCtl d)
  | 0xA0 => some (mixed .pf off 0x0000FFFF (stdReg d .pf off))
  | 0x100 => some (extCap 0x01 2 0x148) | 0x148 => some (extCap 0x19 1 0x168) | 0x168 => some (extCap 0x03 1 0x178)
  | 0x16C => some (word serialNumber 0) | 0x170 => some (word serialNumber 4)
  | 0x178 => some (extCap 0x0E 1 0x188) | 0x188 => some (extCap 0x10 1 0x1C8)
  | 0x18C => some (mixed .pf off (~~~(2 : Word)) 0)
  | 0x190 => some (rSriovCtl d)
  | 0x194 => some 0x00400040
  | 0x198 => some (d.hif.numVfs.setWidth 32)
  | 0x19C => some 0x00010001
  | 0x1A0 => some 0x48310000
  | 0x1A4 => some 1
  | 0x1A8 => some (fields [(d.hif.sysPageSize.toNat, 0)])
  | 0x1AC => some ((d.hif.vfBar.setWidth 32) ||| 4) | 0x1B0 => some ((d.hif.vfBar >>> 32).setWidth 32)
  | 0x1C8 => some (extCap 0x25 1 0x1D4) | 0x1D4 => some (extCap 0x26 1 0x200)
  | 0x200 => some (extCap 0x2A 1 0x230) | 0x230 => some (extCap 0x27 1 0)
  | _ => none
def cfgVf (f : Func) (off : Nat) : Option Word :=
  match off with
  | 0x00 => some 0xFFFFFFFF
  | 0x34 => some 0x50
  | 0x54 => some 0x0000E000 | 0x58 => some 0x0000F000
  | 0x7C => some (Config.cfgSpace (funcIdx f) off)
  | 0x100 => some (extCap 0x01 2 0x178) | 0x178 => some (extCap 0x0E 1 0)
  | _ => none
/-- Words whose contents the link's training, its lanes or a captured header give: FREE (log 32). Every other word that no capability holds reads 0. -/
def physWord (f : Func) (off : Nat) : Bool :=
  (decide (0x11C ≤ off) && decide (off ≤ 0x128)) ||
  (f == .pf && ((decide (0x14C ≤ off) && decide (off < 0x168)) || (decide (0x1CC ≤ off) && decide (off < 0x1D4)) || (decide (0x1D8 ≤ off) && decide (off < 0x200)) ||
                (decide (0x204 ≤ off) && decide (off < 0x230)) || (decide (0x234 ≤ off) && decide (off < 0x248))))
def cfgRead (d : Dev) (f : Func) (off : Nat) : Word :=
  let off := off / 4 * 4
  ((match f with | .pf => cfgPf d off | .vf _ => cfgVf f off).orElse fun _ => cfgCommon d f off).getD (if physWord f off then Config.cfgSpace (funcIdx f) off else 0)

/-! ### Writes of configuration space -/

def setMsix (d : Dev) (f : Func) (v : Word) : Dev := unblockAll (setCfg d f { cfgOf d f with msixEnable := bit v 31, funcMask := bit v 30 }) f
/-- R180. -/
def setBusMaster (d : Dev) (f : Func) (on : Bool) : Dev :=
  let d := setCfg d f { cfgOf d f with busMaster := on }
  if on then pumpParams (unblockAll d f) else d
/-- A write of 1 clears an error bit: of the uncorrectable status at 0x104, of the correctable one at 0x110, of Status and of Device Status (log 32). -/
def clearUnc (d : Dev) (f : Func) (v : Word) : Dev := if v = 0 then d else setCfg d f { cfgOf d f with aerUnc := (cfgOf d f).aerUnc &&& ~~~v }
def clearCor (d : Dev) (f : Func) (v : Word) : Dev := if v = 0 then d else setCfg d f { cfgOf d f with aerCor := (cfgOf d f).aerCor &&& ~~~v }
def clearStatus (d : Dev) (f : Func) (v : Word) : Dev :=
  if v >>> 16 = 0 then d else setCfg d f { cfgOf d f with status := (cfgOf d f).status &&& ~~~((v >>> 16).setWidth 16) }
def writeDevCtl (d : Dev) (f : Func) (v : Word) : Dev :=
  let d := setStd d f 0x78 v
  if fld v 16 4 = 0 then d else setCfg d f { cfgOf d f with devStatus := (cfgOf d f).devStatus &&& ~~~BitVec.ofNat 4 (fld v 16 4) }
def setPower (d : Dev) (v : Word) : Dev :=
  let d := { d with hif := { d.hif with pmeEn := bit v 8, pmeStatus := d.hif.pmeStatus && !bit v 15 } }
  match fld v 0 2 with | 3 => enterD3 d | 0 => returnD0 d | _ => d
/-- R175, R177. -/
def sriovCtl (d : Dev) (v : Word) : Dev :=
  let d := { d with hif := { d.hif with ariHier := bit v 4, vfMse := bit v 3 } }
  if bit v 0 then setVfEnable d else clearVfEnable d
/-- Replace one half of a 64-bit BAR, whose low `size` bits are fixed. -/
def setBar (old : Quad) (high : Bool) (size : Nat) (v : Word) : Quad :=
  if high then BitVec.ofNat 64 (v.toNat * 2 ^ 32 + old.toNat % 2 ^ 32)
  else BitVec.ofNat 64 (old.toNat / 2 ^ 32 * 2 ^ 32 + v.toNat / 2 ^ size * 2 ^ size)

def cfgWritePf (d : Dev) (off : Nat) (v : Word) : Dev :=
  match off with
  | 0x04 => let d := setStd (clearStatus d .pf v) .pf 0x04 v; setBusMaster (setCfg d .pf { cfgOf d .pf with memEnable := bit v 1 }) .pf (bit v 2)
  | 0x10 => { d with hif := { d.hif with bar := setBar d.hif.bar false 26 v } }
  | 0x14 => { d with hif := { d.hif with bar := setBar d.hif.bar true 26 v } }
  | 0x44 => setPower d v
  | 0x50 => setMsix d .pf v
  | 0x78 => let d := writeDevCtl d .pf v; if bit v 15 then startPfFlr d else d
  | 0x104 => clearUnc d .pf v
  | 0x110 => clearCor d .pf v
  | 0x190 => sriovCtl d v
  | 0x198 => { d with hif := { d.hif with numVfs := v.setWidth 16 } }
  | 0x1A8 => { d with hif := { d.hif with sysPageSize := bit v 0 } }
  | 0x1AC => { d with hif := { d.hif with vfBar := setBar d.hif.vfBar false 16 v } }
  | 0x1B0 => { d with hif := { d.hif with vfBar := setBar d.hif.vfBar true 16 v } }
  | _ => setStd d .pf off v
def cfgWriteVf (d : Dev) (n : Fin 64) (off : Nat) (v : Word) : Dev :=
  match off with
  | 0x04 => setBusMaster (clearStatus d (.vf n) v) (.vf n) (bit v 2)
  | 0x50 => setMsix d (.vf n) v
  | 0x78 => let d := writeDevCtl d (.vf n) v; if bit v 15 then startVfFlr d n.val else d
  | 0x104 => clearUnc d (.vf n) v
  | 0x110 => clearCor d (.vf n) v
  | _ => d
def cfgWrite (d : Dev) (f : Func) (off : Nat) (v : Word) : Dev :=
  match f with | .pf => cfgWritePf d (off / 4 * 4) v | .vf n => cfgWriteVf d n (off / 4 * 4) v

/-- A request that the device serves now. -/
def cfgServe (d : Dev) (f : Func) (off : Nat) (w : Option Word) : Dev :=
  if notServing d || funcBusy d f then emit d (.tlp f .crs)
  else if !(match f with | .vf n => vfExists d n.val | .pf => true) then emit d (.tlp f .ur)
  else match w with
    | none => emit d (.tlp f (.ok (cfgRead d f off)))
    | some v => emit (cfgWrite d f off v) (.tlp f (.ok 0))

/-- A request reaches the fabric over a link that is up and a crossing that takes words (01 R10). -/
def linkReaches (d : Dev) : Bool := powered d && d.hif.up && !crossStalled d .pcie
def configRequest (d : Dev) (f : Func) (off : Nat) (w : Option Word) : Dev :=
  if !linkReaches d then d
  else if sleeping d then holdAccess d (.config f off w)
  else cfgServe d f off w

/-! ### Errors on the link: R182 -/

def correctableError (d : Dev) (f : Func) (k : PcieCorr) : Dev := if d.hif.up then errC (aerReport d (errFunc d f) (.correctable k)) else d
def advisoryError (d : Dev) (f : Func) (k : PcieAdv) : Dev := if d.hif.up then errC (aerReport d (errFunc d f) (.advisory k)) else d
/-- ERR_FATAL; every tag is fenced and new DMA is held until a HOT reset. The fence is the recovery, so the pause of 23 R414 ends with it (log 33). -/
def fatalError (d : Dev) (k : PcieFatal) : Dev :=
  if !d.hif.up then d else
  let d := fenceWhere (aerReport d .pf (.errFatal k)) fun _ => true
  errD { d with rng := d.rng + 1, hif := { d.hif with dmaHeld := true } } 2 0 (Config.openStatus d.rng) 0xFF false false

/-! ### HOT reset: 03 R45, R47; R184; 11 R208; 12 R231; 15 R286; 18 R339; 23 R418, R419; 24 R457 -/

/-- The link goes down; PERST_N low is a level of its own. Fenced transactions are retired (R452), held requests are gone with the link. -/
def linkDown (d : Dev) (c : HotCause) : Dev :=
  let d := { d with glb := { d.glb with perstN := d.glb.perstN && c != .perst, heldAccess := [] },
                    hif := { d.hif with up := false, downDue := false, link := .down, width := 0, speed := 0, degraded := false } }
  dropFenced (fenceWhere d fun _ => true)
/-- Can the event arise: PERST_N falls, or a link that is up is lost. -/
def hotArises (d : Dev) (c : HotCause) : Bool := match c with | .perst => d.glb.perstN | .dlDown => d.hif.up || d.hif.downDue | _ => d.hif.up
/-- All configuration space. -/
def resetConfig (d : Dev) : Dev :=
  let d := allStalls.foldl (fun d n => freshFunc d (.vf (Fin.ofNat 64 n))) (freshPf d)
  { d with hif := { d.hif with vfEnable := false, vfCount := 0, vfRemoving := false, flrBusy := 0, pfFlrBusy := false, dmaHeld := false } }
/-- 16 R304: engine work of the normal world ends; that of the secure world goes on (23 R419). -/
def secureOp (d : Dev) (e : Nat) : Bool := match (eng d e).op with | some o => o.issuer == .secure | none => false
def dropEngineWork (d : Dev) : Dev :=
  engines.foldl (fun d e => if (eng d e).aborting then finishAbort d e true
                            else if (eng d e).op.isSome && !secureOp d e then finishAbort (startAbort d e) e true else d) d
/-- One stall: its work is dropped, its cells are reclaimed, it is DISABLED. -/
def hotStall (d : Dev) (n : Nat) : Dev :=
  let d := squashDma (abortStall (dropUndispatched d n) n) n
  let d := setRecovery (reclaim d n) n 0
  let d := { d with yrd := { d.yrd with queues := d.yrd.queues.filter fun q => decide (q.1 / 4 ≠ n) || decide (256 ≤ q.1) } }
  disableStall d n
def hotStalls (d : Dev) : Dev :=
  let d := (d.stl.stalls.map (·.1)).foldl hotStall d
  { d with stl := { d.stl with mbPend := 0, round := [] } }

/-- R419: the units that keep their holders. -/
def carriedKeys : List (Nat × Nat) :=
  [(1, H.krovlo), (1, H.mgt), (1, H.internal), (2, H.engine 0), (2, H.engine 1), (2, H.engine 2), (2, H.engine 3), (3, H.portUp), (3, H.portDn), (5, H.grant)]
def carried (d : Dev) : List (Nat × Nat × Nat) := carriedKeys.map fun k => (k.1, k.2, heldBy d k.1 k.2)
/-- R418: FINAL and INIT, the carried units issued afresh in the next cycle, and the sample that shows them. -/
def hotLedger (d : Dev) : Dev :=
  let l := carried d
  let d := initLedger (retireAll d) 5
  takeSample (l.foldl (fun d k => if k.2.2 = 0 then d else ldgIssue d k.1 k.2.1 k.2.2) d)

def hotRun (d : Dev) : Dev :=
  let d := wakeUp d []
  let d := { d with glb := { d.glb with resetCause := d.glb.resetCause ||| causeHot, req := none, hotWait := true }, dbg := { d.dbg with halted := [] } }
  let d := if d.bwt.journal.opened then sealNow d none 4 (manCosign d) else d
  hotLedger (resetConfig (hotStalls (dropEngineWork (dropPf d))))
/-- R47: within a WDT or SOFT reset, and before a start-up has come to the link, only the link and the cause show it. -/
def hotReset (d : Dev) (c : HotCause) : Dev :=
  if !hotArises d c then d else
  let d := linkDown d c
  if !powered d then d else
  match d.glb.boot with
  | .done => hotRun d
  | _ => resetConfig { d with glb := { d.glb with resetCause := d.glb.resetCause ||| causeHot, raised := d.glb.raised ||| causeHot } }

def execBusMasterDisable (f : Func) (s : State) : Host.Outcome State Fault Refusal := onDev (fun d => setBusMaster d f false) s
/-- R179: the vector's mask is cleared. -/
def execMsixUnblock (f : Func) (vector : Fin 16) (s : State) : Host.Outcome State Fault Refusal :=
  onDev (fun d => unblock (setCfg d f { cfgOf d f with vecMask := (cfgOf d f).vecMask &&& ~~~BitVec.ofNat 16 (2 ^ vector.val) }) f vector.val) s
def execConfigRequest (f : Func) (offset : Nat) (write : Option Word) (s : State) : Host.Outcome State Fault Refusal := onDev (fun d => configRequest d f offset write) s
def execHotReset (cause : HotCause) (s : State) : Host.Outcome State Fault Refusal := onDev (fun d => hotReset d cause) s
/-- R182: the errors of a class have one response; the log tells them apart. -/
def execPcieCorrectableError (f : Func) (k : PcieCorr) (s : State) : Host.Outcome State Fault Refusal := onDev (fun d => correctableError d f k) s
def execPcieAdvisoryError (f : Func) (k : PcieAdv) (s : State) : Host.Outcome State Fault Refusal := onDev (fun d => advisoryError d f k) s
def execPcieFatalError (k : PcieFatal) (s : State) : Host.Outcome State Fault Refusal := onDev (fun d => fatalError d k) s

end Sys2Proof.Machine
end

