-- ==== Sys2Proof/Machine/Timers.lean ====
section
/-! DEFINITION. The sixteen timers (21), and what one fabric cycle does (log 1): the count of cycles, the chain clock (20 R376), the secure watchdog (06 R102), the timers. -/

namespace Sys2Proof.Machine

def setTmr (d : Dev) (t : Nat) (x : Timer) : Dev := { d with tmr := tset d.tmr t x }
/-- R389, 06 R100: the interrupt goes to the owner world. -/
def tmrIrq (d : Dev) (t : Nat) : Dev := if ownedBySecure d t then raiseSecure d t else raiseNormal d t

/-- R386: does the timer count in this power state; in STANDBY only an F-mode timer on the 32.768 kHz clock does. -/
def counts (d : Dev) (x : Timer) : Bool := fabricOn d || (d.glb.power == .standby && x.fMode && x.src == 2)

/-- R384: COUNT reaches 0, and a STOP of that cycle has no effect (R388). R386, R389: the event wakes the device. -/
def zeroTimer (d : Dev) (t : Nat) : Dev :=
  let x := tmrOf d t
  if !(x.running || x.stopAt == some d.now) || !counts d x then d else
  let d := setTmr d t { x with running := false, count := 0, zero := true, zeroAt := some d.now, stopAt := none }
  let d := if x.zeroIe then tmrIrq d t else d
  wake d (if d.glb.power == .standby then .timer32k else .timer)

/-- R384: a write of ARM; none in the cycle in which COUNT reached 0 (R388). -/
def armTimer (d : Dev) (t : Nat) : Dev :=
  let x := tmrOf d t
  if x.running || x.zeroAt == some d.now then d else setTmr d t { x with running := true, count := x.load, phase := 0 }
/-- R384: a write of STOP. -/
def stopTimer (d : Dev) (t : Nat) : Dev :=
  let x := tmrOf d t
  if x.running then setTmr d t { x with running := false, stopAt := some d.now } else d

/-- Does CAP_EDGE or EDGE select an edge: 0 rising, 1 falling, 2 both. -/
def edgeOn (sel : BitVec 2) (rising : Bool) : Bool := if rising then sel != 1 else sel != 0
/-- CAP_IE, CAP_EN, CAP_PIN and CAP_EDGE as they hold in this cycle. -/
def capNow (now : Nat) (x : Timer) : Bool × Bool × BitVec 2 × BitVec 2 :=
  match x.capOld with
  | some (t, y) => if t = now then y else (x.capIe, x.capEn, x.capPin, x.capEdge)
  | none => (x.capIe, x.capEn, x.capPin, x.capEdge)
/-- R387. -/
def captureAt (d : Dev) (t : Nat) (rising : Bool) : Dev :=
  let x := tmrOf d t
  let c := capNow d.now x
  if !c.2.1 || !edgeOn c.2.2.2 rising then d
  else if x.caps.length < 4 then
    let d := setTmr d t { x with caps := x.caps ++ [x.count] }
    if c.1 then tmrIrq d t else d
  else setTmr d t { x with capOvf := true, missed := some (d.now, x.count, x.capOvf) }
/-- R385: ticks of an F-mode timer and its phase, where edges have raised the phase to `p`. -/
def prescale (x : Timer) (p : Nat) : Nat × Nat := (p / x.div.toNat, p % x.div.toNat)
/-- Ticks of a timer and its phase after them. -/
def addTicks (d : Dev) (t : Nat) (n : Nat × Nat) : Dev :=
  let x := tmrOf d t
  if x.count.toNat ≤ n.1 then zeroTimer d t else setTmr d t { x with count := x.count - BitVec.ofNat 32 n.1, phase := n.2 }
/-- R386: is TMR_IN `pin` the source of a running timer that counts this edge. -/
def onPin (x : Timer) (pin : Nat) (rising : Bool) : Bool := x.running && x.fMode && x.src.toNat = 3 + pin && edgeOn x.edge rising
/-- R386: an edge on a TMR_IN pin reaches every timer whose source the pin is. A pin has one edge of a kind in a fabric cycle: rows that report it for several timers count it once (log 1). -/
def pinEdge (d : Dev) (pin : Nat) (rising : Bool) : Dev :=
  let mine := (d.tmr.filter fun x => onPin x.2 pin rising).map (·.1)
  let k := 2 * pin + rising.toNat
  if mine.isEmpty || tget d.pinEdges k = some d.now then d else
  mine.foldl (fun d t => addTicks d t (prescale (tmrOf d t) ((tmrOf d t).phase + 0x10000))) { d with pinEdges := tset d.pinEdges k d.now }
/-- R386-R388: an edge on the capture pin of timer `t`: it is counted, and an entry captured in the cycle in which COUNT reaches 0 holds 0. -/
def captureEdge (d : Dev) (t : Nat) (rising : Bool) : Dev :=
  if !fabricOn d then d else captureAt (pinEdge d (capNow d.now (tmrOf d t)).2.2.1.toNat rising) t rising
/-- R387: a write of 1 to CAP_VALID; a capture of the same cycle that found the queue full comes after it (R388). -/
def popCapture (d : Dev) (t : Nat) : Dev :=
  let x := tmrOf d t
  if x.caps.isEmpty then d else
  match x.missed with
  | some (at_, c, ovf) =>
    if at_ = d.now then
      let d := setTmr d t { x with caps := x.caps.drop 1 ++ [c], capOvf := ovf, missed := none }
      if (capNow d.now x).1 then tmrIrq d t else d
    else setTmr d t { x with caps := x.caps.drop 1 }
  | none => setTmr d t { x with caps := x.caps.drop 1 }

/-- R384, R389, 06 R98: a write of the owner world to a timer's register; in transit it is denied. Processors run in RUN only. -/
def tmrWrite (d : Dev) (t off : Nat) (f : Dev → Dev) : Dev :=
  if d.glb.power != .run then d
  else if inTransit d t then violate d (.cp 0 (ownedBySecure d t)) regionTransit slaveRegs Kind.write true (Base.tmr + 0x40 * t + off)
  else f d

/-! ### One fabric cycle -/

def osc32 (n : Nat) : Nat := n * 32768 / secondCycles
/-- R386: edges of the F-mode source in the cycle before `now`; those of the TMR_IN pins come with CAPTURE. -/
def srcEdges (now : Nat) (x : Timer) : Nat :=
  let rise := if x.edge = 1 then 0 else 1
  let fall := if x.edge = 0 then 0 else 1
  match x.src.toNat with
  | 0 => rise + fall
  | 1 => (if now % 4 = 0 then rise else 0) + (if now % 4 = 2 then fall else 0)
  | 2 => osc32 now - osc32 (now - 1)
  | _ => 0
/-- R385: ticks of this cycle and the phase after it. -/
def ticksOf (now : Nat) (x : Timer) : Nat × Nat :=
  if x.fMode then prescale x (x.phase + 0x10000 * srcEdges now x)
  else
    let p := x.phase + 1
    (p / 2 ^ x.k.toNat, p % 2 ^ x.k.toNat)
def tickTimer (d : Dev) (t : Nat) : Dev :=
  let x := tmrOf d t
  if !x.running || !counts d x then d
  else addTicks d t (ticksOf d.now x)
def tickTimers (d : Dev) : Dev := (d.tmr.map (·.1)).foldl tickTimer d

/-- 06 R102, 05 R82: the watchdog that has run down raises its WDT reset; at an eighth of the load it warns; else it counts. -/
def tickWatchdog (d : Dev) : Dev :=
  if swdtOver d then warmReset { d with rng := d.rng + 1 } (freeEnv d) causeWdt 3
  else if d.glb.power != .run || swdtPaused d then d
  else
    let d := swdtWarn d
    { d with sec := { d.sec with swdtCount := d.sec.swdtCount - (osc32 d.now - osc32 (d.now - 1)) } }
/-- R100: the first processor that runs in the normal world, and the source taken first: the lowest number (log 21). -/
def normalCp (d : Dev) : Option Nat := (List.range 4).find? fun k => !d.sec.cpSecure.getLsbD k && (tget d.dbg.halted k).isNone
def firstIrq (n : Nat) : Nat := ((List.range 40).find? n.testBit).getD 0
/-- R100, R101: a secure interrupt goes first and pre-empts a processor of the normal world, whose context is saved; a normal one waits for a processor there. -/
def takeIrq (d : Dev) : Dev :=
  let s := d.sec
  if s.irqSecure ≠ 0 then
    let src := firstIrq s.irqSecure
    let (k, bit) := match normalCp d with | some k => (k, BitVec.ofNat 4 (2 ^ k)) | none => (0, 0)
    emit { d with sec := { s with irqSecure := clearIrq s.irqSecure src, cpSecure := s.cpSecure ||| bit, cpSaved := s.cpSaved ||| bit } } (.irqTaken k true src)
  else if s.irqNormal ≠ 0 then
    match normalCp d with
    | some k => emit { d with sec := { s with irqNormal := clearIrq s.irqNormal (firstIrq s.irqNormal) } } (.irqTaken k false (firstIrq s.irqNormal))
    | none => d
  else d
/-- When a processor goes (back) to the normal world is its own: FREE (log 21). -/
def tickCps (d : Dev) : Dev :=
  if d.glb.power != .run then d else
  let back := d.sec.cpSecure &&& BitVec.ofNat 4 (Config.freePick d.rng)
  let d := takeIrq { d with rng := d.rng + 1 }
  { d with sec := { d.sec with cpSecure := d.sec.cpSecure &&& ~~~back, cpSaved := d.sec.cpSaved &&& ~~~back } }
/-- 20 R376: the ns by which the rate moves chain time in this cycle: 1 in 1 µs at 1000 ppm, 1 in 5 µs at 200 ppm. -/
def rateStep (d : Dev) : Int :=
  let off := if d.chn.slewing.isSome then d.chn.slewLeft else d.chn.trim
  if d.now % (if d.chn.slewing.isSome then 400 else 2000) = 0 then off.sign else 0
/-- 20 R376: 2.5 ns, as 2 and 3 in turn, and the correction. -/
def tickChain (d : Dev) : Dev :=
  if !fabricOn d then d else
  let c := d.chn
  let s := rateStep d
  let c := if c.slewing.isSome then { c with slewLeft := c.slewLeft - s } else { c with trim := c.trim - s }
  { d with chn := { c with time := c.time + BitVec.ofInt 64 (((2 + d.now % 2 : Nat) : Int) + s) } }
/-- 01 R11: a crossing that has waited 4096 cycles times out. -/
def tickCrossings (d : Dev) : Dev := if fabricOn d then watchCrossings d else d
/-- 17 R316: 65 536 generate requests, or 1 s, after the last reseed. -/
def reseedDue (d : Dev) : Bool := decide (65536 ≤ d.sym.generates) || decide (d.sym.reseedAt + secondCycles ≤ d.now)
def tickDrbg (d : Dev) : Dev := if reseedDue d then reseed d else d
/-- The fabric cycle ends: what is judged at its end (15 R278, R279); then the next one. -/
def nextCycle (d : Dev) : Dev := let d := judgeQueues d; { d with now := d.now + 1 }
def tick (d : Dev) : Dev := tickDrbg (tickCps (tickCrossings (tickTimers (tickWatchdog (tickChain (nextCycle d))))))

def execArm (t : Fin 16) (s : State) : Host.Outcome State Fault Refusal := onDev (fun d => tmrWrite d t.val 0 fun d => armTimer d t.val) s
def execStop (t : Fin 16) (s : State) : Host.Outcome State Fault Refusal := onDev (fun d => tmrWrite d t.val 0 fun d => stopTimer d t.val) s
/-- The last tick, or the cycle after ARM with LOAD = 0; the ticks before it are the device's own (log 1). -/
def execZero (t : Fin 16) (s : State) : Host.Outcome State Fault Refusal :=
  onDev (fun d => if (tmrOf d t.val).count.toNat ≤ 1 then zeroTimer d t.val else d) s
def execCapture (e : PinEdge) (s : State) : Host.Outcome State Fault Refusal := onDev (fun d => captureEdge d e.t.val e.rising) s
def execCapturePop (t : Fin 16) (s : State) : Host.Outcome State Fault Refusal := onDev (fun d => tmrWrite d t.val 0x10 fun d => popCapture d t.val) s

end Sys2Proof.Machine
end

