-- ==== Sys2Proof/Machine/RegMap.lean ====
section
/-! DEFINITION. The register map (24 R422-R427): where a register stands in the PF's BAR0 and in a stall's VF BAR0, what a read of it returns, which of its fields a read clears (00 R5, R448). -/

namespace Sys2Proof.Machine

/-- A block or page of registers. -/
inductive Page where
  | glb | sec | hif | key | pke (e : Nat) | sym | crd | tmp | bwt | evr | chn | tmr (t : Nat) | mgt | cls
  | yrd
  | yardWin (q : Nat) (side : Side)
  | stl
  | stallPage (n : Fin 64) (side : Side)
  | ringPage (r : RingId) (side : Side)
  | msixTable (f : Func)
  | msixPba (f : Func)
deriving DecidableEq, Repr

/-- What an offset in a BAR names. -/
inductive Loc where
  | reg (p : Page) (off : Nat)
  | board (n : Fin 64) (off : Nat)
  | window (off : Nat)
  | nothing
deriving DecidableEq, Repr

/-- R422: the STL part of PF BAR0. -/
def locateStl (o : Nat) : Loc :=
  if o < 0x1000 then .reg .stl o
  else if o < 0x2000 then .reg (.stallPage (Fin.ofNat 64 ((o - 0x1000) / 64)) .pf) (o % 64)
  else if o < 0x3000 then .reg (.ringPage (.stall (Fin.ofNat 64 ((o - 0x2000) / 64))) .pf) (o % 64)
  else if o < 0x3040 then .reg (.ringPage .pf .pf) (o % 64)
  else if o < 0x100000 then .nothing
  else if o < 0x140000 then .board (Fin.ofNat 64 ((o - 0x100000) / 4096)) (o % 4096)
  else .nothing
/-- R422: a block of 64 KiB by its number. -/
def locateBlock (d : Dev) (k o : Nat) : Loc :=
  match k with
  | 0 => .reg .glb o | 1 => .reg .sec o | 2 => .reg .hif o | 3 => .reg .key o
  | 4 => if o < 0x4000 then .reg (.pke (o / 0x1000)) (o % 0x1000) else .nothing
  | 5 => .reg .sym o | 6 => .reg .crd o | 7 => .reg .tmp o | 8 => .reg .bwt o
  | 9 => if 0x100 ≤ o && decide (o < 0x200) then .window (o - 0x100) else .reg .evr o
  | 10 => .reg .chn o
  | 11 => if o < 0x400 then .reg (.tmr (o / 64)) (o % 64) else .nothing
  | 12 => .reg .mgt o | 13 => .reg .cls o
  | 14 => if 0x100 ≤ o && decide (o < 0x110) then .reg (.yardWin d.yrd.qSel.toNat .pf) (o - 0x100) else .reg .yrd o
  | _ => .nothing
def locatePf (d : Dev) (a : Nat) : Loc :=
  if a < 0x100000 then locateBlock d (a / 0x10000) (a % 0x10000)
  else if 0x200000 ≤ a && decide (a < 0x400000) then locateStl (a - 0x200000)
  else if Base.msix ≤ a && decide (a < Base.msix + 0x100) then .reg (.msixTable .pf) (a - Base.msix)
  else if Base.pba ≤ a && decide (a < Base.pba + 8) then .reg (.msixPba .pf) (a - Base.pba)
  else .nothing
/-- R423. -/
def locateVf (n : Fin 64) (a : Nat) : Loc :=
  if a < 0x40 then .reg (.stallPage n .vf) a
  else if a < 0x80 then .reg (.ringPage (.stall n) .vf) (a - 0x40)
  else if a < 0xC0 then .reg (.yardWin (4 * n.val + (a - 0x80) / 16) .vf) (a % 16)
  else if 0x1000 ≤ a && decide (a < 0x2000) then .board n (a - 0x1000)
  else if 0xE000 ≤ a && decide (a < 0xE100) then .reg (.msixTable (.vf n)) (a - 0xE000)
  else if 0xF000 ≤ a && decide (a < 0xF008) then .reg (.msixPba (.vf n)) (a - 0xF000)
  else .nothing

/-! ### Reads -/

def lo32 (q : Quad) : Word := q.setWidth 32
def hi32 (q : Quad) : Word := (q >>> 32).setWidth 32
/-- Bits of `w` as two halves, high then low. -/
def pairOf (h l : Half) : Word := fields [(h.toNat, 16), (l.toNat, 0)]
/-- Register `i` of a run of them at 4-byte steps that shows bytes `l`. -/
def wordsOf (l : Bytes) (i : Nat) : Word := word l (4 * i)

def readGlb (d : Dev) (o : Nat) : Word :=
  let s := tgetD d.ldg.sample d.ldg.sel.toNat {}
  match o with
  | 0x14 => rPwrStatus d
  | 0x18 => d.glb.clkCtl.setWidth 32
  | 0x24 => rResetCause d
  | 0x40 => rStraps d
  | 0x50 => rXwdStatus d
  | 0x80 => rLcState d
  | 0x84 => rDbgStatus d
  | 0xC0 => d.ldg.sel.setWidth 32
  | 0xC4 => lo32 s.issued | 0xC8 => hi32 s.issued
  | 0xCC => lo32 s.retired | 0xD0 => hi32 s.retired
  | 0xD4 => BitVec.ofNat 32 s.held
  | 0xD8 => BitVec.ofNat 32 (capacity d.ldg.sel.toNat)
  | 0xDC => if d.ldg.sel.toNat < 6 then d.ldg.checks else 0
  | 0xE4 => rErrCnt d
  | 0xE8 => rErrD d
  | o => if 0x60 ≤ o && decide (o < 0x80) then rXwdCnt d ((o - 0x60) / 4)
         else if 0x90 ≤ o && decide (o < 0xA0) then wordsOf Config.deviceId ((o - 0x90) / 4) else 0

def regionWord (r : Region) (k : Nat) (fw : Bool) : Word :=
  match k with
  | 0 => fields [(r.base.toNat, 12)]
  | 1 => fields [(r.limit.toNat, 12), (0xFFF, 0)]
  | 2 => fields [(r.en.toNat, 31), (r.perm.toNat, 0)]
  | _ => if fw then r.mask else 0
def readSec (d : Dev) (o : Nat) : Word :=
  let s := d.sec
  match o with
  | 0x00 => fields [(s.wmSramLock.toNat, 31), (s.wmSram, 0)]
  | 0x04 => fields [(s.wmPsLock.toNat, 31), (s.wmPs, 0)]
  | 0x10 => s.own.setWidth 32
  | 0x14 => rHandover d
  | 0x20 => s.swdtLoad.setWidth 32
  | 0x30 => s.mpuSel.setWidth 32
  | 0x34 => s.fwSel.setWidth 32
  | 0x38 => if s.barrier then 1 else 0
  | 0x40 => rViolInfo d
  | 0x44 => rViolAddr d
  | 0x48 => s.violLost
  | o => if 0x100 ≤ o && decide (o < 0x200) then regionWord (tgetD s.mpu (16 * s.mpuSel.toNat + (o - 0x100) / 16) {}) (o % 16 / 4) false
         else if 0x200 ≤ o && decide (o < 0x280) then regionWord (tgetD s.fw (8 * s.fwSel.toNat + (o - 0x200) / 16) {}) (o % 16 / 4) true else 0

def readHif (d : Dev) (o : Nat) : Word :=
  match o with
  | 0x00 => rLinkStatus d
  | 0x10 => if d.hif.flrDrain then 1 else 0
  | 0x18 => lo32 d.hif.flrBusy | 0x1C => hi32 d.hif.flrBusy
  | _ => 0
def readKey (d : Dev) (o : Nat) : Word :=
  let w := d.key.ownerSel.toNat
  match o with
  | 0x00 => rKeyStatus d
  | 0x04 => rSlotCount d
  | 0x40 => d.key.ownerSel.setWidth 32
  | 0x44 => rOwnerInfo d w
  | 0x48 => lo32 (rOwnerStalls d w) | 0x4C => hi32 (rOwnerStalls d w)
  | 0x50 => rOwnerCap d w
  | o => if 0x10 ≤ o && decide (o < 0x40) then wordsOf d.key.fwMeas ((o - 0x10) / 4) else 0
def readPke (d : Dev) (e o : Nat) : Word :=
  match o with
  | 0x00 => rPkeStatus d e
  | 0x04 => rPkeIrq d e
  | 0x08 => if (eng d e).aborting then 1 else 0
  | 0x0C => (eng d e).cntOps
  | 0x10 => rPkeFault d e
  | 0x14 => (eng d e).useSel.setWidth 32
  | 0x18 => rPkeUse d e
  | _ => 0
def readSym (d : Dev) (o : Nat) : Word :=
  match o with
  | 0x00 => rLaneBusy d | 0x04 => d.sym.laneOos.setWidth 32 | 0x08 => rRngStatus d | 0x10 => d.sym.cntAuth | 0x14 => d.sym.cntReseed | _ => 0
def readCrd (d : Dev) (o : Nat) : Word :=
  match o with | 0x00 => rCrdSlot d.crd.a | 0x04 => rCrdSlot d.crd.b | 0x10 => rQStatus d | 0x14 => rQRemain d | _ => 0
def readTmp (d : Dev) (o : Nat) : Word := match o with | 0x00 => rTmpStatus d | 0x04 => rTmpCause d | 0x08 => rTmpMesh d | _ => 0
def readBwt (d : Dev) (o : Nat) : Word :=
  match o with
  | 0x00 => rBwtStatus d
  | 0x04 => d.bwt.bootSeq
  | 0x08 => pairOf d.bwt.holdFailed d.bwt.holdPassed
  | 0x0C => pairOf d.bwt.refused d.bwt.wblkBlocked
  | 0x10 => d.bwt.cntPost
  | _ => 0
def readEvr (d : Dev) (o : Nat) : Word :=
  let e := d.evr
  match o with
  | 0x00 => rEvrStatus d
  | 0x08 => lo32 (BitVec.ofNat 64 e.first) | 0x0C => hi32 (BitVec.ofNat 64 e.first)
  | 0x10 => lo32 (BitVec.ofNat 64 e.next) | 0x14 => hi32 (BitVec.ofNat 64 e.next)
  | 0x18 => e.cntLost | 0x1C => e.cntRefused | 0x20 => e.cntCritRefused | 0x24 => e.cntTorn
  | o => if 0x40 ≤ o && decide (o < 0x70) then wordsOf (chainC d) ((o - 0x40) / 4)
         else if 0x80 ≤ o && decide (o < 0xB0) then wordsOf (chainK d) ((o - 0x80) / 4) else 0
def readChn (d : Dev) (o : Nat) : Word :=
  let c := d.chn
  match o with
  | 0x00 => rChnStatus d
  | 0x04 => if c.enumRunning then 1 else 0
  | 0x08 => BitVec.ofNat 32 c.linkHold
  | 0x10 => rPort c.up | 0x14 => rPort c.dn
  | 0x18 => rTokens d
  | 0x20 => lo32 c.epoch | 0x24 => hi32 c.epoch
  | 0x28 => lo32 c.time | 0x2C => hi32 c.time
  | 0x30 => c.cntRetx | 0x34 => c.cntMarkFalse | 0x38 => c.cntReturned | 0x3C => c.cntHopDrop
  | o => if 0x100 ≤ o && decide (o < 0x200) then
           let r := tgetD c.remote ((o - 0x100) / 4) (false, 0)
           fields [(r.1.toNat, 31), (r.2, 0)]
         else 0
def readTmr (d : Dev) (t o : Nat) : Word :=
  let x := tmrOf d t
  match o with
  | 0x00 => rTmrCtl x | 0x04 => x.load | 0x08 => x.count | 0x0C => x.div | 0x10 => rTmrStatus x | 0x14 => rTmrCap x | _ => 0
def readMgt (d : Dev) (o : Nat) : Word :=
  match o with | 0x00 => rMgtCfg d | 0x04 => rMgtStatus d | 0x08 => d.mgt.alert.setWidth 32 | 0x0C => rMgtCnt d | _ => 0

def extCtl (e : Ext) : Word := fields [(e.en.toNat, 31), (e.width.toNat, 24), (e.offset.toNat, 16)]
def readExt (t : Tab Ext) (k : Nat) : Word := let e := tgetD t (k / 8) {}; if k % 8 = 0 then extCtl e else e.mask
/-- The entry window: the shadow bank, or the active one (14 CLS.ENT_SEL). -/
def selEntry (d : Dev) : ClsEntry := tgetD (if d.cls.selActive then d.cls.active else d.cls.shadow).entries d.cls.entSel.toNat {}
def keyWord (k : BitVec 256) (i : Nat) : Word := (k >>> (32 * i)).setWidth 32
def readCls (d : Dev) (o : Nat) : Word :=
  let c := d.cls
  match o with
  | 0x00 => rEpochCtl d
  | 0x04 => c.shadow.dflt
  | 0x08 => fields [(c.selActive.toNat, 31), (c.entSel.toNat, 0)]
  | 0x20 => c.cntDefault | 0x24 => c.cntNest | 0x28 => c.cntLen | 0x2C => c.trapLost
  | 0x40 => rTrapInfo d
  | 0x44 => rTrapCell d
  | 0x140 => (selEntry d).action
  | 0x144 => tgetD c.hits c.entSel.toNat 0
  | o => if 0x100 ≤ o && decide (o < 0x120) then keyWord (selEntry d).value ((o - 0x100) / 4)
         else if 0x120 ≤ o && decide (o < 0x140) then keyWord (selEntry d).care ((o - 0x120) / 4)
         else if 0x184 ≤ o && decide (o < 0x1C0) then (tgetD c.shadow.pol ((o - 0x180) / 4) 0xFFFF).setWidth 32
         else if 0x200 ≤ o && decide (o < 0x280) then readExt c.shadow.extA (o - 0x200)
         else if 0x280 ≤ o && decide (o < 0x300) then readExt c.shadow.extB (o - 0x280) else 0

/-- 15 YRD.CELL_META0, 1. -/
def chainsOf (d : Dev) : List (List QCell) := d.yrd.queues.map (·.2.cells) ++ d.reqs.map (·.2.cells)
/-- A cell in its chain with the cell after it. -/
def findIn (i : Nat) : List QCell → Option (QCell × Option Nat)
  | [] => none
  | c :: l => if c.idx = i then some (c, l.head?.map (·.idx)) else findIn i l
def findCell (d : Dev) (i : Nat) : Option (QCell × Option Nat) := (chainsOf d).findSome? (findIn i)
def rCellMeta0 (d : Dev) (i : Nat) : Word :=
  let tag := tgetD d.yrd.tags i 0
  let free := cellFree d.yrd i
  let (last, next) := match findCell d i with
    | some (c, n) => (c.last, n.getD (Config.cellLink d.rng i).toNat)
    | none => (false, (Config.cellLink d.rng i).toNat)
  fields [(free.toNat, 25), (last.toNat, 24), ((decide (recoveryBase ≤ i)).toNat, 23), (tag, 16), (next, 0)]
def rCellMeta1 (d : Dev) (i : Nat) : Word :=
  match findCell d i with
  | some (c, _) => fields [(c.hi.length, 8), (c.lo.length, 0)]
  | none => if (tget d.yrd.tags i).isNone then 0
            else let x := Config.cellFill d.rng i; fields [((x >>> 6).toNat, 8), (x.toNat % 64, 0)]
def readYrd (d : Dev) (o : Nat) : Word :=
  match o with
  | 0x00 => rYrdFree d
  | 0x04 => fields [(d.yrd.reclaimStall.toNat, 16), (d.yrd.reclaimCount.toNat, 0)]
  | 0x08 => rDevUse0 d | 0x0C => rDevUse1 d
  | 0x10 => d.yrd.qSel.setWidth 32
  | 0x20 => d.yrd.cellSel.setWidth 32
  | 0x24 => rCellMeta0 d d.yrd.cellSel.toNat | 0x28 => rCellMeta1 d d.yrd.cellSel.toNat
  | o => if 0x40 ≤ o && decide (o < 0x80) then rEvtPend d ((o - 0x40) / 4) else 0
def readYardWin (d : Dev) (q : Nat) (side : Side) (o : Nat) : Word :=
  let y := queueOf d q
  match o with
  | 0x0 => rQLevel y | 0x4 => BitVec.ofNat 32 y.timeout | 0x8 => rYqStatus y
  | 0xC => (match side with | .pf => rQPtr y | .vf => 0)
  | _ => 0
def readStl (d : Dev) (o : Nat) : Word :=
  match o with | 0x00 => rPartCtl d | 0x08 => lo32 d.stl.mbPend | 0x0C => hi32 d.stl.mbPend | _ => 0
def readStallPage (d : Dev) (n : Nat) (side : Side) (o : Nat) : Word :=
  let s := stall d n
  let pf := fun w : Word => match side with | .pf => w | .vf => 0
  match o with
  | 0x00 => rStlState d n | 0x04 => s.gen
  | 0x08 => pf (rStlCtl d n)
  | 0x10 => rMeter s | 0x14 => rWeirCmd s | 0x18 => rWeirByte s
  | 0x1C => rStlFault d n
  | 0x20 => pf (rWlog s.wlog) | 0x24 => pf s.wlog.pages
  | 0x28 => pf (lo32 s.wlog.a) | 0x2C => pf (hi32 s.wlog.a) | 0x30 => pf (lo32 s.wlog.b) | 0x34 => pf (hi32 s.wlog.b)
  | 0x38 => if (match side with | .pf => s.inboxPf | .vf => s.inboxVf) then 1 else 0
  | _ => 0
def readRing (r : Ring) (o : Nat) : Word :=
  match o with
  | 0x00 => lo32 r.sqBase | 0x04 => hi32 r.sqBase | 0x08 => lo32 r.cqBase | 0x0C => hi32 r.cqBase
  | 0x10 => rRingCtl r | 0x14 => BitVec.ofNat 32 r.sqTail | 0x18 => rSqHead r | 0x1C => BitVec.ofNat 32 r.cqHead
  | 0x20 => rCqTail r | 0x24 => r.cqDbBad.setWidth 32
  | _ => 0
/-- 10 R178: the MSI-X table as PCIe gives it, 16 bytes a vector. -/
def readMsix (d : Dev) (f : Func) (o : Nat) : Word :=
  if o % 16 = 12 then (if (cfgOf d f).vecMask.getLsbD (o / 16) then 1 else 0) else tgetD (cfgOf d f).vecTable (o / 4) 0

/-- The word at an aligned offset of a page. -/
def readReg (d : Dev) (p : Page) (o : Nat) : Word :=
  match p with
  | .glb => readGlb d o | .sec => readSec d o | .hif => readHif d o | .key => readKey d o | .pke e => readPke d e o
  | .sym => readSym d o | .crd => readCrd d o | .tmp => readTmp d o | .bwt => readBwt d o | .evr => readEvr d o
  | .chn => readChn d o | .tmr t => readTmr d t o | .mgt => readMgt d o | .cls => readCls d o | .yrd => readYrd d o
  | .yardWin q s => readYardWin d q s o
  | .stl => readStl d o
  | .stallPage n s => readStallPage d n.val s o
  | .ringPage r _ => readRing (ringOf d r) o
  | .msixTable f => readMsix d f o
  | .msixPba f => if o = 0 then (cfgOf d f).pba.setWidth 32 else 0

/-! ### Fields that a read clears: 00 R5, R448 -/

/-- The RC fields of a register as (lowest bit, width). -/
def rcFields (p : Page) (o : Nat) : List (Nat × Nat) :=
  let whole := [(0, 32)]
  let halves := [(0, 16), (16, 16)]
  match p with
  | .glb => if o = 0xE4 || (decide (0x60 ≤ o) && decide (o < 0x80)) then halves else []
  | .sec => if o = 0x48 then whole else []
  | .pke _ => if o = 0x0C then whole else if o = 0x10 then halves else []
  | .sym => if o = 0x10 || o = 0x14 then whole else []
  | .bwt => if o = 0x08 || o = 0x0C then halves else if o = 0x10 then whole else []
  | .chn => if 0x30 ≤ o && decide (o < 0x40) then whole else []
  | .cls => if (decide (0x20 ≤ o) && decide (o < 0x30)) || o = 0x144 then whole else []
  | .mgt => if o = 0x0C then halves else []
  | .stallPage _ _ => if o = 0x1C then [(16, 16)] else []
  | .ringPage _ _ => if o = 0x24 then [(0, 16)] else []
  | _ => []

def setEngCnt (d : Dev) (e : Nat) (f : Pke → Pke) : Dev := setEng d e (f (eng d e))
/-- Clear the RC field at bit `lo` of a register. -/
def clearRc (d : Dev) (p : Page) (o lo : Nat) : Dev :=
  let low := lo = 0
  match p with
  | .glb =>
    if o = 0xE4 then { d with glb := if low then { d.glb with errC := 0 } else { d.glb with errDCount := 0 } }
    else
      let n := (o - 0x60) / 4
      let c := tgetD d.glb.xwdCnt n {}
      { d with glb := { d.glb with xwdCnt := tset d.glb.xwdCnt n (if low then { c with timeouts := 0 } else { c with codeFail := 0 }) } }
  | .sec => { d with sec := { d.sec with violLost := 0 } }
  | .pke e =>
    if o = 0x0C then setEngCnt d e fun p => { p with cntOps := 0 }
    else setEngCnt d e fun p => if low then { p with cntCheck := 0 } else { p with cntAborts := 0 }
  | .sym => { d with sym := if o = 0x10 then { d.sym with cntAuth := 0 } else { d.sym with cntReseed := 0 } }
  | .bwt =>
    { d with bwt := match o with
      | 0x08 => if low then { d.bwt with holdPassed := 0 } else { d.bwt with holdFailed := 0 }
      | 0x0C => if low then { d.bwt with wblkBlocked := 0 } else { d.bwt with refused := 0 }
      | _ => { d.bwt with cntPost := 0 } }
  | .chn =>
    { d with chn := match o with
      | 0x30 => { d.chn with cntRetx := 0 } | 0x34 => { d.chn with cntMarkFalse := 0 }
      | 0x38 => { d.chn with cntReturned := 0 } | _ => { d.chn with cntHopDrop := 0 } }
  | .cls =>
    { d with cls := match o with
      | 0x20 => { d.cls with cntDefault := 0 } | 0x24 => { d.cls with cntNest := 0 } | 0x28 => { d.cls with cntLen := 0 }
      | 0x2C => { d.cls with trapLost := 0 } | _ => { d.cls with hits := tdel d.cls.hits d.cls.entSel.toNat } }
  | .mgt => { d with mgt := if low then { d.mgt with cntPkt := 0 } else { d.mgt with cntMsg := 0 } }
  | .stallPage n _ => modStall d n.val fun s => { s with faultCount := 0 }
  | .ringPage r _ => setRing d r { ringOf d r with cqDbBad := 0 }
  | _ => d

/-- Does a read of bytes [a, a + n) return every byte of field (lo, w) of the word at `o`. -/
def covers (a n o : Nat) (f : Nat × Nat) : Bool := decide (a ≤ o + f.1 / 8) && decide (o + (f.1 + f.2) / 8 ≤ a + n)
def clearWord (d : Dev) (p : Page) (a n o : Nat) : Dev := ((rcFields p o).filter (covers a n o)).foldl (fun d f => clearRc d p o f.1) d

/-- Words that hold bytes [a, a + n). -/
def wordOffs (a n : Nat) : List Nat := if n = 0 then [] else (List.range ((a + n - 1) / 4 + 1 - a / 4)).map fun i => (a / 4 + i) * 4
/-- Bytes of a page: every word sampled in the same cycle (R424). -/
def readBytes (d : Dev) (p : Page) (a n : Nat) : Bytes := slice ((wordOffs a n).flatMap fun o => b4 (readReg d p o)) (a % 4) n
def clearRead (d : Dev) (p : Page) (a n : Nat) : Dev := (wordOffs a n).foldl (fun d o => clearWord d p a n o) d

end Sys2Proof.Machine
end

