-- ==== Sys2Proof/Machine/Registers.lean ====
section
/-! DEFINITION. What a write stores or starts in every register (00 R5-R7, 24 R424-R426). A row of its own and this map share one operation. -/

namespace Sys2Proof.Machine

/-- A write to one register: the bytes written as bits, and which bits they cover. -/
structure Wr where
  raw : Word
  mask : Word
/-- 00 R5, RW: the value stored, where a narrow write leaves the other bytes. -/
def Wr.over (w : Wr) (old : Word) : Word := (old &&& ~~~w.mask) ||| w.raw

/-- The part of a write that falls on the bits of `m`. -/
def Wr.only (w : Wr) (m : Word) : Wr := { raw := w.raw &&& m, mask := w.mask &&& m }

def writeGlb (d : Dev) (o : Nat) (w : Wr) : Dev :=
  let v := w.over (readGlb d o)
  let g := d.glb
  match o with
  | 0x10 => if fld w.raw 0 2 = 1 then requestPower d false else if fld w.raw 0 2 = 2 then requestPower d true else d
  | 0x18 => { d with glb := { g with clkCtl := v.setWidth 8 } }
  | 0x20 => if bit w.raw 0 && fld w.raw 16 16 = 0x5A3C then softWrite d else d
  | 0x24 => { d with glb := { g with resetCause := g.resetCause &&& ~~~(w.raw.setWidth 8) } }
  | 0x50 => { d with glb := { g with xwdValid := g.xwdValid && !bit w.raw 31, xwdMulti := g.xwdMulti && !bit w.raw 4 } }
  | 0xC0 => { d with ldg := { d.ldg with sel := v.setWidth 3 } }
  | 0xE8 => { d with glb := { g with errD := { g.errD with valid := g.errD.valid && !bit w.raw 31, multi := g.errD.multi && !bit w.raw 29 } } }
  | _ => d

/-! ### SEC: 06 -/

def setRegionWord (r : Region) (k : Nat) (v : Word) (fw : Bool) : Region :=
  match k with
  | 0 => { r with base := (v >>> 12).setWidth 20 }
  | 1 => { r with limit := (v >>> 12).setWidth 20 }
  | 2 => { r with en := bit v 31, perm := v.setWidth 8 }
  | _ => if fw then { r with mask := v } else r
def writeWm (d : Dev) (ps : Bool) (v : Word) : Dev :=
  let s := d.sec
  if ps then (if s.wmPsLock then d else { d with sec := { s with wmPs := min 4096 (fld v 0 13), wmPsLock := bit v 31, fresh := { s.fresh with wmPs := s.wmPs :: s.fresh.wmPs } } })
  else if s.wmSramLock then d else { d with sec := { s with wmSram := min 128 (fld v 0 8), wmSramLock := bit v 31, fresh := { s.fresh with wmSram := s.wmSram :: s.fresh.wmSram } } }
def writeHandover (d : Dev) (m : Master) (v : Word) (go : Bool) : Dev :=
  if go then startHandover d m (fld v 0 5) (bit v 8)
  else if d.sec.hoGo then d else { d with sec := { d.sec with hoTo := bit v 8, hoPeriph := v.setWidth 5 } }
/-- R103: does MPU_SEL name a master of R91, FW_SEL a slave. A selection of none shows disabled regions, and its window takes no write: DESIGN CHOICE (log 35). -/
def mpuNamed (d : Dev) : Bool := let n := d.sec.mpuSel.toNat; decide (n < 4) || (decide (0x10 ≤ n) && decide (n < 0x18))
def fwNamed (d : Dev) : Bool := decide (d.sec.fwSel.toNat < 12)
def writeMpu (d : Dev) (o : Nat) (v : Word) : Dev :=
  if !mpuNamed d then d else
  let i := 16 * d.sec.mpuSel.toNat + (o - 0x100) / 16
  let r := tgetD d.sec.mpu i {}
  { d with sec := { d.sec with mpu := tset d.sec.mpu i (setRegionWord r (o % 16 / 4) v false), fresh := { d.sec.fresh with mpu := tmod d.sec.fresh.mpu i [] (r :: ·) } } }
def writeFw (d : Dev) (o : Nat) (v : Word) : Dev :=
  if !fwNamed d then d else
  let i := 8 * d.sec.fwSel.toNat + (o - 0x200) / 16
  let r := tgetD d.sec.fw i {}
  { d with sec := { d.sec with fw := tset d.sec.fw i (setRegionWord r (o % 16 / 4) v true), fresh := { d.sec.fresh with fw := tmod d.sec.fresh.fw i [] (r :: ·) } } }
def writeSec (d : Dev) (m : Master) (o : Nat) (w : Wr) : Dev :=
  let v := w.over (readSec d o)
  match o with
  | 0x00 => writeWm d false v
  | 0x04 => writeWm d true v
  | 0x14 => writeHandover d m v (bit w.raw 31)
  | 0x20 => { d with sec := { d.sec with swdtLoad := if v.setWidth 16 = (0 : Half) then 1 else v.setWidth 16 } }
  | 0x24 => kick d m (w.raw.setWidth 16)
  | 0x30 => { d with sec := { d.sec with mpuSel := v.setWidth 7 } }
  | 0x34 => { d with sec := { d.sec with fwSel := v.setWidth 4 } }
  | 0x38 => if bit w.raw 0 then startBarrier d m else d
  | 0x40 => if bit w.raw 31 then popViolation d else d
  | o => if 0x100 ≤ o && decide (o < 0x200) then writeMpu d o v else if 0x200 ≤ o && decide (o < 0x280) then writeFw d o v else d

/-! ### Small blocks -/

def writeHif (d : Dev) (o : Nat) (w : Wr) : Dev := if o = 0x10 then { d with hif := { d.hif with flrDrain := bit (w.over (readHif d o)) 0 } } else d
def writeKey (d : Dev) (o : Nat) (w : Wr) : Dev := if o = 0x40 then { d with key := { d.key with ownerSel := (w.over (readKey d o)).setWidth 8 } } else d
def writePke (d : Dev) (m : Master) (e o : Nat) (w : Wr) : Dev :=
  let p := eng d e
  match o with
  | 0x04 => setEng d e { p with irqDone := p.irqDone && !bit w.raw 0, irqAborted := p.irqAborted && !bit w.raw 1, irqFault := p.irqFault && !bit w.raw 2 }
  | 0x08 => if !bit w.mask 0 || (masterSecure d m && !bit w.raw 0) then d else abortWrite d e m
  | 0x14 => setEng d e { p with useSel := (w.over (readPke d e o)).setWidth 6 }
  | _ => d
def writeChn (d : Dev) (o : Nat) (w : Wr) : Dev :=
  let v := w.over (readChn d o)
  match o with
  | 0x04 => if bit w.raw 0 then noteLink d (reenum d) else d
  | 0x08 => { d with chn := { d.chn with linkHold := min 100000 (fld v 0 17) } }
  | o => if 0x100 ≤ o && decide (o < 0x200) then { d with chn := { d.chn with remote := tset d.chn.remote ((o - 0x100) / 4) (bit v 31, fld v 0 4) } } else d
def writeMgt (d : Dev) (o : Nat) (w : Wr) : Dev :=
  match o with
  | 0x00 =>
    let v := w.over (rMgtCfg d)
    { d with mgt := { d.mgt with actEn := bit v 31, alertEn := BitVec.ofNat 5 (fld v 16 5), saddr := v.setWidth 7 } }
  | 0x08 => { d with mgt := { d.mgt with alert := d.mgt.alert &&& ~~~(w.raw.setWidth 5) } }
  | _ => d

/-! ### Timers: 21 -/

/-- 21 TMR.CTL: the value 3 of an edge field, and SRC 7, are stored as 0; MODE, SRC, EDGE and K only while stopped. -/
def tmrConfig (x : Timer) (v : Word) : Timer :=
  let e3 := fun n : Nat => if n = 3 then (0 : BitVec 2) else BitVec.ofNat 2 n
  let y := { x with zeroIe := bit v 21, capIe := bit v 20, capEn := bit v 19, capPin := BitVec.ofNat 2 (fld v 17 2), capEdge := e3 (fld v 15 2) }
  if x.running then y
  else { y with fMode := bit v 14, src := if fld v 11 3 = 7 then 0 else BitVec.ofNat 3 (fld v 11 3), edge := e3 (fld v 9 2), k := BitVec.ofNat 4 (fld v 0 4) }
def writeTmr (d : Dev) (t o : Nat) (w : Wr) : Dev :=
  let x := tmrOf d t
  let v := w.over (readTmr d t o)
  match o with
  | 0x00 =>
    let old := (x.capIe, x.capEn, x.capPin, x.capEdge)
    let d := setTmr d t { tmrConfig x v with capOld := match x.capOld with | some y => if y.1 = d.now then some y else some (d.now, old) | none => some (d.now, old) }
    if bit w.raw 30 then stopTimer d t else if bit w.raw 31 then armTimer d t else d
  | 0x04 => setTmr d t { x with load := v }
  | 0x0C => if x.running then d else setTmr d t { x with div := if v.toNat < 0x10000 then 0x10000 else v }
  | 0x10 =>
    let d := setTmr d t { x with zero := x.zero && !bit w.raw 31, capOvf := x.capOvf && !bit w.raw 30 }
    if bit w.raw 29 then popCapture d t else d
  | _ => d

/-! ### Classifier: 14 -/

/-- R267: writes to the shadow bank during a switch are lost. -/
def shadowWrite (d : Dev) (f : ClsBank → ClsBank) : Dev :=
  if d.cls.sw != .idle then setCls d { d.cls with wrLost := true } else setCls d { d.cls with shadow := f d.cls.shadow }
def entryWrite (d : Dev) (f : ClsEntry → ClsEntry) : Dev :=
  if d.cls.selActive then d
  else shadowWrite d fun k => { k with entries := tset k.entries d.cls.entSel.toNat (f (tgetD k.entries d.cls.entSel.toNat {})) }
def setKeyWord (k : BitVec 256) (i : Nat) (v : Word) : BitVec 256 :=
  (k &&& ~~~((0xFFFFFFFF : BitVec 256) <<< (32 * i))) ||| (v.setWidth 256 <<< (32 * i))
def setExt (t : Tab Ext) (k : Nat) (v : Word) : Tab Ext :=
  let e := tgetD t (k / 8) {}
  tset t (k / 8) (if k % 8 = 0 then { e with en := bit v 31, width := BitVec.ofNat 2 (fld v 24 2), offset := BitVec.ofNat 8 (fld v 16 8) } else { e with mask := v })
/-- Reserved bits of an ACTION word read 0. -/
def actionBits : Word := 0xFCFFFFFF
def writeCls (d : Dev) (m : Master) (o : Nat) (w : Wr) : Dev :=
  let v := w.over (readCls d o)
  match o with
  | 0x00 =>
    let d := if bit w.raw 30 then setCls d { d.cls with wrLost := false } else d
    if bit w.raw 31 then startSwitch d else d
  | 0x04 => shadowWrite d fun k => { k with dflt := v &&& actionBits }
  | 0x08 => setCls d { d.cls with entSel := v.setWidth 11, selActive := bit v 31 }
  | 0x40 => if !bit w.mask 31 || (masterSecure d m && !bit w.raw 31) then d else trapPop d m
  | 0x140 => entryWrite d fun e => { e with action := v &&& actionBits }
  | o =>
    if 0x100 ≤ o && decide (o < 0x120) then entryWrite d fun e => { e with value := setKeyWord e.value ((o - 0x100) / 4) v }
    else if 0x120 ≤ o && decide (o < 0x140) then entryWrite d fun e => { e with care := setKeyWord e.care ((o - 0x120) / 4) v }
    else if 0x184 ≤ o && decide (o < 0x1C0) then shadowWrite d fun k => { k with pol := tset k.pol ((o - 0x180) / 4) (v.setWidth 16) }
    else if 0x200 ≤ o && decide (o < 0x280) then shadowWrite d fun k => { k with extA := setExt k.extA (o - 0x200) v }
    else if 0x280 ≤ o && decide (o < 0x300) then shadowWrite d fun k => { k with extB := setExt k.extB (o - 0x280) v }
    else d

/-! ### Yard and stalls: 15, 11, 12 -/

def writeYrd (d : Dev) (o : Nat) (w : Wr) : Dev :=
  let v := w.over (readYrd d o)
  match o with
  | 0x10 => { d with yrd := { d.yrd with qSel := v.setWidth 9 } }
  | 0x20 => { d with yrd := { d.yrd with cellSel := v.setWidth 15 } }
  | _ => d
def writeYardWin (d : Dev) (q o : Nat) (w : Wr) : Dev :=
  let y := queueOf d q
  match o with
  | 0x0 => setQueue d q { y with thresh := fld (w.over (rQLevel y)) 16 16 }
  | 0x4 => setQueue d q { y with timeout := fld (w.over (BitVec.ofNat 32 y.timeout)) 0 12 }
  | 0x8 => setQueue d q { y with levelHit := y.levelHit && !bit w.raw 31, strandedBit := y.strandedBit && !bit w.raw 30 }
  | _ => d
def writeStl (d : Dev) (o : Nat) (w : Wr) : Dev :=
  if o = 0 then
    let k := fld (w.over (rPartCtl d)) 0 3
    if bit w.raw 31 then partitionChange d k else { d with stl := { d.stl with partReq := min k 6 } }
  else d

def setPart (q : Quad) (high : Bool) (v : Word) : Quad :=
  if high then BitVec.ofNat 64 (q.toNat % 2 ^ 32 + v.toNat * 2 ^ 32) else BitVec.ofNat 64 (q.toNat / 2 ^ 32 * 2 ^ 32 + v.toNat)
/-- Bits [11:0] of a _LO register are reserved. -/
def page4k (v : Word) : Word := v &&& 0xFFFFF000

/-- The manager's part of a stall page. -/
def writeStallPf (d : Dev) (n : Fin 64) (o : Nat) (w : Wr) : Dev :=
  let v := w.over (readStallPage d n.val .pf o)
  let wl := fun f : WLog → WLog => modStall d n.val fun s => { s with wlog := f s.wlog }
  match o with
  | 0x08 =>
    let mode : Mode := if bit v 4 then .drain else .squash
    if bit w.raw 31 then stallCtl d n.val (fld v 0 4) mode
    else modStall d n.val fun s => { s with op := v.setWidth 4, mode := bit v 4 }
  | 0x0C => if bit w.raw 0 then mbSend d n .pf else d
  | 0x10 => modStall d n.val fun s => { s with metered := bit v 31, weight := max 1 (fld v 0 4) }
  | 0x14 => modStall d n.val fun s => { s with cmdBurst := max 1 (fld v 20 12), cmdRate := min 1000000 (fld v 0 20) }
  | 0x18 => modStall d n.val fun s => { s with byteBurst := max 1 (fld v 16 16), byteRate := min 25000 (fld v 0 16) }
  | 0x20 => wl fun x => { x with en := bit v 0, bitmapB := x.bitmapB != bit w.raw 1, ovf := x.ovf && !bit w.raw 3 }
  | 0x24 => wl fun x => { x with pages := v }
  | 0x28 => wl fun x => { x with a := setPart x.a false (page4k v) }
  | 0x2C => wl fun x => { x with a := setPart x.a true v }
  | 0x30 => wl fun x => { x with b := setPart x.b false (page4k v) }
  | 0x34 => wl fun x => { x with b := setPart x.b true v }
  | 0x38 =>
    if bit w.raw 0 then
      let d := modStall d n.val fun s => { s with inboxPf := false }
      { d with stl := { d.stl with mbPend := d.stl.mbPend &&& ~~~BitVec.ofNat 64 (2 ^ n.val) } }
    else d
  | _ => d
/-- The tenant's part; R426: none while the stall is DISABLED. -/
def writeStallVf (d : Dev) (n : Fin 64) (o : Nat) (w : Wr) : Dev :=
  if !enabled (stall d n.val) then d else
  match o with
  | 0x0C => if bit w.raw 0 then mbSend d n .vf else d
  | 0x38 => if bit w.raw 0 then modStall d n.val fun s => { s with inboxVf := false } else d
  | _ => d

def writeBase (d : Dev) (r : RingId) (o : Nat) (v : Word) : Dev :=
  let x := ringOf d r
  if x.en then d else
  match o with
  | 0x00 => setRing d r { x with sqBase := setPart x.sqBase false (page4k v) }
  | 0x04 => setRing d r { x with sqBase := setPart x.sqBase true v }
  | 0x08 => setRing d r { x with cqBase := setPart x.cqBase false (page4k v) }
  | _ => setRing d r { x with cqBase := setPart x.cqBase true v }
/-- Does the tenant write a page of its own that R426 closes. -/
def closed (d : Dev) (r : RingId) (side : Side) : Bool :=
  match side, r with | .vf, .stall n => !enabled (stall d n.val) | _, _ => false
def writeRing (d : Dev) (r : RingId) (side : Side) (o : Nat) (w : Wr) : Dev :=
  let x := ringOf d r
  let v := w.over (readRing x o)
  if closed d r side then d else
  match o with
  | 0x10 =>
    if bit w.raw 31 then ringEnable d r (fld v 0 4)
    else if x.en then d else setRing d r { x with depthLog2 := fld v 0 4 }
  | 0x14 => sqTailWrite d r side (fld v 0 12)
  | 0x18 => (match side with | .pf => if x.en then d else ringRestore d r 0 v | .vf => d)
  | 0x1C => cqHeadWrite d r side (fld v 0 12)
  | 0x20 => (match side with | .pf => if x.en then d else ringRestore d r 2 v | .vf => d)
  | o => if o < 0x10 then writeBase d r o v else d

/-- 10 R178, R179. -/
def writeMsix (d : Dev) (f : Func) (o : Nat) (w : Wr) : Dev :=
  let c := cfgOf d f
  if o % 16 = 12 then
    let v := w.over (readMsix d f o)
    let b := BitVec.ofNat 16 (2 ^ (o / 16))
    if bit v 0 then setCfg d f { c with vecMask := c.vecMask ||| b } else unblock (setCfg d f { c with vecMask := c.vecMask &&& ~~~b }) f (o / 16)
  else setCfg d f { c with vecTable := tset c.vecTable (o / 4) (w.over (readMsix d f o)) }

/-- 24 R425: the stored fields of a stall's Yard window. Bits that a write of 1 clears take both writes. -/
def yardKey (q o : Nat) : Option Nat := if q < 256 && (o = 0 || o = 4) then some (0x100000 + 16 * q + o) else none

/-- A word written at an aligned offset of a page by master `m`. Blocks not named hold nothing that a write changes. -/
def writeReg (d : Dev) (m : Master) (p : Page) (o : Nat) (w : Wr) : Dev :=
  match p with
  | .glb => writeGlb d o w | .sec => writeSec d m o w | .hif => writeHif d o w | .key => writeKey d o w | .pke e => writePke d m e o w
  | .sym => d | .crd => d | .tmp => d | .bwt => d | .evr => d
  | .chn => writeChn d o w | .tmr t => writeTmr d t o w | .mgt => writeMgt d o w | .cls => writeCls d m o w | .yrd => writeYrd d o w
  | .yardWin q side =>
    if (match side with | .pf => false | .vf => !enabled (stall d (q / 4))) then d
    else sharedWrite d side (yardKey q o) w.mask fun d m => writeYardWin d q o (w.only m)
  | .stl => writeStl d o w
  | .stallPage n side => (match side with | .pf => writeStallPf d n o w | .vf => writeStallVf d n o w)
  | .ringPage r side => sharedWrite d side (sharedKey r o) w.mask fun d m => writeRing d r side o (w.only m)
  | .msixTable f => writeMsix d f o w
  | .msixPba _ => d

/-- The part of bytes `b`, written at `a`, that falls into the word at `o`. -/
def lane (a : Nat) (b : Bytes) (o : Nat) : Wr :=
  let l := (List.range 4).map fun i => if a ≤ o + i then b[o + i - a]? else none
  { raw := word (l.map (·.getD 0)) 0, mask := word (l.map fun x => if x.isSome then 0xFF else 0) 0 }
def writeBytes (d : Dev) (m : Master) (p : Page) (a : Nat) (b : Bytes) : Dev :=
  (wordOffs a b.length).foldl (fun d o => writeReg d m p o (lane a b o)) d

/-! ### Boards: 11 R195 -/

/-- The device owns bytes [0:63]. -/
def boardWrite (d : Dev) (n : Fin 64) (side : Side) (o : Nat) (b : Bytes) : Dev :=
  let shut := match side with | .vf => !enabled (stall d n.val) | .pf => false
  if shut then d else
  let skip := 64 - o
  { d with stl := { d.stl with boards := memWriteBytes d.stl.boards (boardSize * n.val + (o + skip)) ((b.drop skip).take (boardSize - (o + skip))) } }
def boardRead (d : Dev) (n : Fin 64) (side : Side) (o len : Nat) : Bytes :=
  let shut := match side with | .vf => !enabled (stall d n.val) | .pf => false
  if shut then zeros len else memBytes d.stl.boards (boardSize * n.val + o) len

end Sys2Proof.Machine
end

