-- ==== Sys2Proof/Machine/Access.lean ====
section
/-! DEFINITION. Who may read and write what: the host through the BARs (10 R176, R177, R181, R182; 06 R92), the masters inside the device (06 R91-R94, R103-R108, R113); REGISTER_WRITE and RC_FIELD_READ. -/

namespace Sys2Proof.Machine

/-! ### Worlds of the registers: 06 R92, R96, R105 -/

/-- The movable peripheral a page or register belongs to. -/
def periphOf (p : Page) (o : Nat) : Option Nat :=
  match p with
  | .tmr t => some t
  | .pke e => some (18 + e)
  | .mgt => some 22
  | .crd => if o = 0x00 then some 16 else if o = 0x04 then some 17 else none
  | _ => none
def moving (d : Dev) (p : Page) (o : Nat) : Bool := match periphOf p o with | some i => inTransit d i | none => false
/-- GLB's life-cycle and debug registers. -/
def lcRegister (o : Nat) : Bool := o = 0x80 || o = 0x84 || (decide (0x90 ≤ o) && decide (o < 0xA0))
/-- Does the secure world own this register. -/
def secureReg (d : Dev) (p : Page) (o : Nat) : Bool :=
  match p with
  | .sec => true | .key => true | .tmp => true | .bwt => true | .evr => true | .sym => true
  | .glb => lcRegister o
  | .crd => (match periphOf p o with | some i => ownedBySecure d i | none => true)
  | _ => (match periphOf p o with | some i => ownedBySecure d i | none => false)
/-- Is there a register of a secure block at this offset; a write to any other offset is discarded (00 R7). -/
def listedReg (p : Page) (o : Nat) : Bool :=
  match p with
  | .sec => o = 0x00 || o = 0x04 || o = 0x10 || o = 0x14 || o = 0x20 || o = 0x24 || o = 0x30 || o = 0x34 || o = 0x38 || o = 0x40 || o = 0x44 || o = 0x48 ||
            (decide (0x100 ≤ o) && decide (o < 0x200) && decide (o % 16 ≠ 12)) || (decide (0x200 ≤ o) && decide (o < 0x280))
  | .key => o = 0x00 || o = 0x04 || (decide (0x10 ≤ o) && decide (o < 0x54))
  | .tmp => decide (o < 0x0C)
  | .bwt => decide (o < 0x14)
  | .evr => o = 0x00 || (decide (0x08 ≤ o) && decide (o < 0x28)) || (decide (0x40 ≤ o) && decide (o < 0x70)) || (decide (0x80 ≤ o) && decide (o < 0xB0))
  | .sym => decide (o < 0x0C) || o = 0x10 || o = 0x14
  | .glb => lcRegister o
  | .crd => o = 0x00 || o = 0x04 || o = 0x10 || o = 0x14
  | .tmr _ => decide (o < 0x18)
  | .pke _ => decide (o < 0x1C)
  | .mgt => decide (o < 0x10)
  | _ => true

/-! ### The host: 10 R176 -/

/-- Naturally aligned accesses of 1, 2, 4 or 8 bytes. -/
def regShape (a n : Nat) : Bool := (n = 1 || n = 2 || n = 4 || n = 8) && decide (a % n = 0)
/-- Boards and the Logbook window: 1, 2 or 4 bytes aligned, or whole words up to 256 bytes that stay inside. -/
def memShape (o n size : Nat) : Bool :=
  ((n = 1 || n = 2 || n = 4) && decide (o % n = 0)) || (decide (0 < n) && decide (n % 4 = 0) && decide (n ≤ 256) && decide (o % 4 = 0) && decide (o + n ≤ size))
def shapeOk (l : Loc) (a n : Nat) : Bool :=
  match l with
  | .board _ o => memShape o n boardSize
  | .window o => memShape o n 256
  | _ => regShape a n
def locate (d : Dev) (f : Func) (a : Nat) : Loc := match f with | .pf => locatePf d a | .vf n => locateVf n a
def sideOf : Func → Side | .pf => .pf | .vf _ => .vf
/-- Address of a register access as a violation reports it: its offset in PF BAR0. -/
def pfAddr (f : Func) (a : Nat) : Nat := match f with | .pf => a | .vf n => (if a < 0x40 then Base.stl + 0x1000 + 0x40 * n.val + a else Base.stl + 0x2000 + 0x40 * n.val + a % 64)

/-- 06 R92: a host write to a register that the secure world keeps. -/
def hostDenied (d : Dev) (p : Page) (o : Nat) : Bool := secureReg d p o && listedReg p o && !(p = .key && o = 0x40)
def hostWriteReg (d : Dev) (f : Func) (p : Page) (a o : Nat) (b : Bytes) : Dev :=
  let ws := wordOffs o b.length
  if ws.any (moving d p) then violate d (.host f) regionTransit slaveRegs Kind.write true (pfAddr f a)
  else if ws.any (hostDenied d p) then violate d (.host f) regionNone slaveRegs Kind.write true (pfAddr f a)
  else writeBytes d (.host f) p o b
def hostStore (d : Dev) (f : Func) (a : Nat) (b : Bytes) : Dev :=
  match locate d f a with
  | .reg p o => hostWriteReg d f p a o b
  | .board n o => boardWrite d n (sideOf f) o b
  | .window _ => violate d (.host f) regionNone slaveRegs Kind.write true (pfAddr f a)
  | .nothing => d
def hostLoad (d : Dev) (f : Func) (a n : Nat) : Dev :=
  let answer := fun (d : Dev) b => emit d (.tlp f (.data b))
  match locate d f a with
  | .reg p o =>
    if (wordOffs o n).any (moving d p) then emit (violate d (.host f) regionTransit slaveRegs Kind.read true (pfAddr f a)) (.tlp f (.denied (zeros n)))
    else answer (clearRead d p o n) (readBytes d p o n)
  | .board k o => answer d (boardRead d k (sideOf f) o n)
  | .window o => answer d (Config.fit n (slice d.evr.window o n))
  | .nothing => answer d (zeros n)

/-- Memory Space Enable of the function, and whether it exists at all. -/
def memOn (d : Dev) (f : Func) : Bool := match f with | .pf => (cfgOf d .pf).memEnable | .vf n => d.hif.vfMse && vfExists d n.val
/-- R53, R177, R181, R182: the first answer that keeps a request from its target. Only a request whose target exists is an error of its own. -/
def hostGate (d : Dev) (f : Func) (a n : Nat) : Option Dev :=
  if notServing d then some (emit d (.tlp f .ur))
  else if funcBusy d f || d.hif.d3hot then some (emit d (.tlp f .ur))
  else if !memOn d f then some (answerUr d f)
  else if !shapeOk (locate d f a) a n then some (answerCa d f)
  else none
def hostServeWrite (d : Dev) (f : Func) (a : Nat) (b : Bytes) : Dev := match hostGate d f a b.length with | some d => d | none => hostStore d f a b
def hostServeRead (d : Dev) (f : Func) (a n : Nat) : Dev := match hostGate d f a n with | some d => d | none => hostLoad d f a n
/-- Link down: the request does not arrive; asleep: it wakes the device and is held. -/
def hostReach (d : Dev) (held : HeldAccess) (serve : Dev → Dev) : Dev :=
  if !linkReaches d then d else if sleeping d then holdAccess d held else serve d

/-! ### Masters inside: 06 R91-R94, R103-R108, R113 -/

/-- Where an internal address lies; register space stands at the PF's BAR0 offsets, the key store and the always-on bank at addresses the spec does not give (log 35). -/
inductive Inner where
  | sram | store | yard (cell off : Nat) | pkeMem (e off : Nat) | keyStore | keyBank | regs (l : Loc) | hole
deriving DecidableEq, Repr
def inner (d : Dev) (a : Nat) : Inner :=
  if a < 0x4000000 then .regs (locatePf d a)
  else if 0x20000000 ≤ a && decide (a < 0x20800000) then .sram
  else if 0x30000000 ≤ a && decide (a < 0x30200000) then .yard ((a - 0x30000000) / 64) ((a - 0x30000000) % 64)
  else if 0x34000000 ≤ a && decide (a < 0x34040000) then .pkeMem ((a - 0x34000000) / 0x10000) ((a - 0x34000000) % 0x10000)
  else if 0x38000000 ≤ a && decide (a < 0x39000000) then .keyStore
  else if 0x39000000 ≤ a && decide (a < 0x39010000) then .keyBank
  else if 0x40000000 ≤ a && decide (a < 0x50000000) then .store
  else .hole
def slaveOf (i : Inner) : Nat :=
  match i with
  | .sram => slaveSram | .store => slaveStore | .yard _ _ => slaveYard | .pkeMem e _ => slavePke e
  | .keyStore => slaveKeys | .keyBank => slaveBank
  | .regs (.board _ _) => slaveBoards
  | _ => slaveRegs

def regionHas (r : Region) (a : Nat) : Bool := r.en && decide (r.base.toNat ≤ a / 4096) && decide (a / 4096 ≤ r.limit.toNat)
/-- R104: the lowest-numbered enabled region that contains the address. -/
def deciding (t : Tab Region) (base count a : Nat) : Option (Nat × Region) :=
  ((List.range count).map fun n => (n, tgetD t (base + n) {})).find? fun x => regionHas x.2 a
/-- R106: the permission bit of a world and kind of access. -/
def allowed (r : Region) (secure : Bool) (kind : Nat) : Bool := r.perm.getLsbD (kind + if secure then 4 else 0)
/-- REGION and CAUGHT of a denial. -/
structure Denial where
  region : Nat
  target : Bool
deriving DecidableEq, Repr

def mpuCheck (d : Dev) (m : Master) (a kind : Nat) : Option Denial :=
  match deciding d.sec.mpu (16 * masterNum m) 16 a with
  | none => some ⟨regionNone, false⟩
  | some x => if allowed x.2 (masterSecure d m) kind then none else some ⟨x.1, false⟩
def fwCheck (d : Dev) (m : Master) (a kind slave : Nat) : Option Denial :=
  match deciding d.sec.fw (8 * slave) 8 a with
  | none => some ⟨regionNone, true⟩
  | some x => if allowed x.2 (masterSecure d m) kind && decide (masterNum m < 32) && x.2.mask.getLsbD (masterNum m) then none else some ⟨x.1, true⟩
/-- R93, R94. -/
def secureAddr (d : Dev) (i : Inner) (a : Nat) : Bool :=
  match i with
  | .sram => sramSecure d a
  | .store => decide (a < 0x40000000 + 65536 * d.sec.wmPs)
  | _ => false
/-- R113: CP0 in the secure world reads, writes and fetches SRAM. DESIGN CHOICE (log 35): a fixed rule, which stands also when regions have been programmed; R94 still refuses a fetch from the normal part. -/
def bootRule (m : Master) (i : Inner) (kind : Nat) : Bool := i = .sram && kind ≠ Kind.atomic && (match m with | .cp n s _ => n = 0 && s | _ => false)
/-- R105: the SEC block has fixed rules of its own. -/
def fixedRule (i : Inner) : Bool := match i with | .regs (.reg .sec _) => true | _ => false
/-- R92: registers whose field the secure world keeps for itself in a block of the normal world: PKE.ABORT and CLS.TRAP_INFO. -/
def reservedReg (p : Page) (o : Nat) : Bool := match p with | .pke _ => o = 0x08 | .cls => o = 0x40 | _ => false
/-- R92, R105: is one word of the world that reaches for it; SEC is read by both worlds. -/
def wordOk (d : Dev) (sec : Bool) (p : Page) (kind o : Nat) : Bool :=
  match p with
  | .sec => kind = Kind.read || sec
  | _ => secureReg d p o == sec || (sec && reservedReg p o)
def worldOk (d : Dev) (m : Master) (i : Inner) (kind n : Nat) : Bool :=
  let sec := masterSecure d m
  match i with
  | .regs (.reg p o) => (wordOffs o n).all (wordOk d sec p kind)
  | .regs (.window _) => sec
  | .pkeMem e _ => ownedBySecure d (18 + e) == sec
  | .yard _ _ => sec | .keyStore => sec | .keyBank => sec
  | _ => true
/-- R111: the value a checker holds of one rule: the last one written, or one that no barrier has covered. -/
def heldValue {α : Type} (check rule : Nat) (last : α) (old : List α) : α := (old[Config.heldRule check rule % (old.length + 1)]?).getD last
def heldRegions (check rule : Nat) (t : Tab Region) (old : Tab (List Region)) : Tab Region :=
  old.foldl (fun t e => tset t e.1 (heldValue check (rule + 8 * e.1) (tgetD t e.1 {}) e.2)) t
def heldOver (check rule : Nat) (o : OldRules) (s : Sec) : Sec :=
  { s with wmSram := heldValue check rule s.wmSram o.wmSram, wmPs := heldValue check (rule + 1) s.wmPs o.wmPs, own := heldValue check (rule + 2) s.own o.own,
           mpu := heldRegions check (rule + 3) s.mpu o.mpu, fw := heldRegions check (rule + 4) s.fw o.fw }
/-- The rules that one end of an access is checked under. -/
def ruleView (d : Dev) (check : Nat) : Dev := { d with sec := heldOver check 0 d.sec.covered (heldOver check 0x10000 d.sec.fresh d.sec) }
/-- Every rule written has been covered by a barrier. -/
def settled (d : Dev) : Bool := d.sec.fresh == {} && d.sec.covered == {}

/-- R93, R94: the watermark refuses the normal world the secure part, and a fetch of the secure world from the normal one. -/
def waterMarked : Inner → Bool | .sram => true | .store => true | _ => false
def wmDenies (t : Dev) (m : Master) (i : Inner) (a kind : Nat) : Bool :=
  waterMarked i && (if masterSecure t m then kind = Kind.fetch && !secureAddr t i a else secureAddr t i a)
/-- R97: is any part of the access in transit. -/
def inMotion (d : Dev) (i : Inner) (n : Nat) : Bool :=
  match i with | .regs (.reg p o) => (wordOffs o n).any (moving d p) | .pkeMem e _ => inTransit d (18 + e) | _ => false
/-- R108: initiator, watermark, target, then the world of the block; `t` is the device as the target's checkers see its rules. -/
def denialAt (d t : Dev) (m : Master) (i : Inner) (a n kind : Nat) : Option Denial :=
  let wm := if wmDenies t m i a kind then some (⟨regionWatermark, true⟩ : Denial) else none
  if inMotion d i n then some ⟨regionTransit, true⟩
  else if bootRule m i kind then wm
  else if fixedRule i then (if worldOk t m i kind n then none else some ⟨regionNone, true⟩)
  else ((mpuCheck d m a kind).orElse fun _ => wm).orElse fun _ =>
    (fwCheck t m a kind (slaveOf i)).orElse fun _ => if worldOk t m i kind n then none else some ⟨regionNone, true⟩
/-- R111: the initiator and the target end may hold different rules until a barrier completes. -/
def denial (d : Dev) (m : Master) (i : Inner) (a n kind : Nat) : Option Denial := denialAt (ruleView d d.rng) (ruleView d (d.rng + 1)) m i a n kind
/-- A check under rules no barrier has covered is one draw of what each end holds. -/
def checked (d : Dev) : Dev := if settled d then d else { d with rng := d.rng + 2 }

/-- 16 R300: operand memory in words of 128 bits, the accumulator at 0x8000 in limbs of 16 bytes. -/
def pkeByte (d : Dev) (e o : Nat) : Byte :=
  let p := eng d e
  if o < 0x8000 then ((tgetD p.mem (o / 16) 0) >>> (8 * (o % 16))).setWidth 8
  else if o < 0x8000 + 66 * 16 then (p.acc >>> (8 * (o - 0x8000))).setWidth 8 else 0
def pkeSetByte (d : Dev) (e o : Nat) (b : Byte) : Dev :=
  let p := eng d e
  if o < 0x8000 then
    let s := 8 * (o % 16)
    setEng d e { p with mem := tmod p.mem (o / 16) 0 fun w => (w &&& ~~~((0xFF : BitVec 128) <<< s)) ||| (b.setWidth 128 <<< s) }
  else if o < 0x8000 + 66 * 16 then
    let s := 8 * (o - 0x8000)
    setEng d e { p with acc := (p.acc &&& ~~~((0xFF : BitVec 8448) <<< s)) ||| (b.setWidth 8448 <<< s) }
  else d
/-- 15: cell data by halves; a byte that no packet holds reads 0, and one of a result or frame is free. -/
def cellByte (d : Dev) (c o : Nat) : Byte :=
  match findCell d c with
  | some (x, _) => if o < 32 then byteAt x.lo o else byteAt x.hi (o - 32)
  | none => if (tget d.yrd.tags c).isNone then 0 else Config.zoneByte d.rng (0x30000000 + 64 * c + o)
/-- 19 R343: normal-world flash above 32 MiB; below it stand the zones of the device. -/
def storeByte (d : Dev) (a : Nat) : Byte := if a < 0x42000000 then Config.zoneByte d.rng a else memRead d.psUser a

def innerRead (d : Dev) (i : Inner) (a n : Nat) : Dev × Bytes :=
  match i with
  | .sram => (d, memBytes d.sram a n)
  | .store => ({ d with rng := d.rng + 1 }, (List.range n).map fun k => storeByte d (a + k))
  | .yard _ _ => ({ d with rng := d.rng + 1 }, (List.range n).map fun k => cellByte d ((a + k - 0x30000000) / 64) ((a + k) % 64))
  | .pkeMem e o => (d, (List.range n).map fun k => pkeByte d e (o + k))
  | .keyStore => ({ d with rng := d.rng + 1 }, (List.range n).map fun k => Config.zoneByte d.rng (a + k))
  | .keyBank => ({ d with rng := d.rng + 1 }, (List.range n).map fun k => Config.zoneByte d.rng (a + k))
  | .regs (.reg p o) => (clearRead d p o n, readBytes d p o n)
  | .regs (.board k o) => (d, boardRead d k .pf o n)
  | .regs (.window o) => (d, Config.fit n (slice d.evr.window o n))
  | _ => (d, zeros n)
def writeFrom (f : Dev → Nat → Byte → Dev) (d : Dev) (k : Nat) : Bytes → Dev
  | [] => d
  | b :: l => writeFrom f (f d k b) (k + 1) l
/-- A write into a zone of the store, into the key store or the bank is part of what the device's own commands do there (log 34). -/
def innerWrite (d : Dev) (m : Master) (i : Inner) (a : Nat) (b : Bytes) : Dev :=
  match i with
  | .sram => { d with sram := memWriteBytes d.sram a b }
  | .store => if a < 0x42000000 then d else { d with psUser := memWriteBytes d.psUser a b }
  | .pkeMem e o => writeFrom (fun d k x => pkeSetByte d e k x) d o b
  | .regs (.reg p o) => writeBytes d m p o b
  | .regs (.board n o) => boardWrite d n .pf o b
  | _ => d

/-- R107: a denied access: the report, and what the master gets. -/
def refuseAccess (d : Dev) (m : Master) (i : Inner) (a kind : Nat) (x : Denial) : Dev :=
  let d := violate (checked d) m x.region (slaveOf i) kind x.target a
  if kind = Kind.write then d
  else if kind = Kind.fetch then emit d (.fetchFault (masterNum m))
  else emit d (.bus m none)
/-- Processors and the other masters run in RUN. An atomic access puts in the new value and answers the old one (log 35). -/
def busWrite (d : Dev) (m : Master) (a : Nat) (b : Bytes) : Dev :=
  if d.glb.power != .run || b.isEmpty then d else
  let i := inner d a
  match denial d m i a b.length (writeKind m) with
  | some x => refuseAccess d m i a (writeKind m) x
  | none =>
    if writeKind m = Kind.write then innerWrite (checked d) m i a b
    else let r := innerRead (checked d) i a b.length; emit (innerWrite r.1 m i a b) (.bus m (some r.2))
def busRead (d : Dev) (m : Master) (a n : Nat) : Dev :=
  if d.glb.power != .run || n = 0 then d else
  let i := inner d a
  match denial d m i a n (readKind m) with
  | some x => refuseAccess d m i a (readKind m) x
  | none => let r := innerRead (checked d) i a n; emit r.1 (.bus m (some r.2))

/-! ### The rows -/

def registerWrite (d : Dev) (m : Master) (a n : Nat) (v : Bytes) : Dev :=
  let b := Config.fit n v
  match m with
  | .host f => hostReach d (.write m a n v) fun d => hostServeWrite d f a b
  | _ => busWrite d m a b
def registerRead (d : Dev) (m : Master) (a n : Nat) : Dev :=
  match m with
  | .host f => hostReach d (.read m a n) fun d => hostServeRead d f a n
  | _ => busRead d m a n

def execRegisterWrite (src : Master) (addr size : Nat) (value : Bytes) (s : State) : Host.Outcome State Fault Refusal := onDev (fun d => registerWrite d src addr size value) s
def execRcFieldRead (src : Master) (addr size : Nat) (s : State) : Host.Outcome State Fault Refusal := onDev (fun d => registerRead d src addr size) s

end Sys2Proof.Machine
end

