-- ==== Sys2Proof/Machine/DebugPort.lean ====
section
/-! DEFINITION. Debug accesses through the TAP and the PF window (05 R78-R82, R85), and EXTEST (05 R84). -/

namespace Sys2Proof.Machine

/-- R78, R80: the right an access needs, by its bit in RIGHTS. -/
def needsRight (a : DebugAcc) : Nat :=
  let invasive := match a.kind with | .read => false | .trace => false | _ => true
  (if invasive then 1 else 0) + (if a.secure then 2 else 0)
def isRead (k : DebugKind) : Bool := match k with | .read => true | _ => false

/-- Does the address lie where the access says, and, for a register, does the world own it. An address of no register names one inside a processor, which the spec does not lay out (log 18). -/
def whereSaid (d : Dev) (a : DebugAcc) : Bool :=
  match a.what with
  | .sramNormal => inSram a.addr && !sramSecure d a.addr
  | .sramSecure => inSram a.addr && sramSecure d a.addr
  | .regs => (match locatePf d a.addr with | .reg p o => secureReg d p o == a.secure && !moving d p o | _ => true)
  | .yard => (match inner d a.addr with | .yard _ _ => true | .regs (.board _ _) => true | _ => false)
  | .pkeMem => (match inner d a.addr with | .pkeMem _ _ => true | _ => false)
  | .keyStore => true
/-- R80: readable memories by code: A, N and S under every grant, Y and P under FULL only. Writes reach registers and SRAM of the world. -/
def memOpen (d : Dev) (a : DebugAcc) : Bool :=
  match a.kind with
  | .read => whereSaid d a && (match a.what with | .yard => d.dbg.grant == 3 | .pkeMem => d.dbg.grant == 3 | _ => true)
  | .write => whereSaid d a && (match a.what with | .regs => true | .sramNormal => !a.secure | .sramSecure => a.secure | _ => false)
  | _ => true

/-- What a read returns: nothing of a key-bearing store (R79), nothing of engine memory while RK_MAKER is loaded (R80); it clears no RC field, since observation never changes state (R78). Where the spec lays nothing out the value is free (log 18). -/
def debugRead (d : Dev) (a : DebugAcc) : Dev × Bytes :=
  let free : Dev × Bytes := ({ d with rng := d.rng + 1 }, b4 (Config.debugData d.rng))
  match a.what with
  | .keyStore => ({ d with dbg := { d.dbg with traceKeyReads := d.dbg.traceKeyReads + 1 } }, zeros 4)
  | .sramNormal => (d, memBytes d.sram a.addr 4)
  | .sramSecure => (d, memBytes d.sram a.addr 4)
  | .regs => (match locatePf d a.addr with | .reg p o => (d, readBytes d p (o / 4 * 4) 4) | _ => free)
  | .pkeMem => if d.lc.state == 1 && d.key.root == 1 then (d, zeros 4) else innerRead d (inner d a.addr) a.addr 4
  | .yard => innerRead d (inner d a.addr) a.addr 4
def debugWrite (d : Dev) (a : DebugAcc) : Dev :=
  match a.what with
  | .regs => (match locatePf d a.addr with | .reg p o => writeBytes d (.hw (.debug a.secure)) p o [a.value] | _ => d)
  | _ => { d with sram := memWrite d.sram a.addr a.value }

/-- An access allowed by the matrix. -/
def debugDo (d : Dev) (a : DebugAcc) : Dev :=
  match a.kind with
  | .read => let r := debugRead d a; tapReport r.1 ST.ok r.2
  | .write => tapReport (debugWrite d a) ST.ok
  | .trace => tapReport { d with rng := d.rng + 1 } ST.ok (b4 (Config.debugData d.rng))
  | .halt => tapReport { d with dbg := { d.dbg with halted := tset d.dbg.halted a.cp.val a.secure } } ST.ok
  | .step => tapReport d ST.ok
  | .release => tapReport { d with dbg := { d.dbg with halted := tdel d.dbg.halted a.cp.val } } ST.ok
  | .breakpoint => tapReport { d with dbg := { d.dbg with breakpoints := d.dbg.breakpoints + 1 } } ST.ok

/-- R78, R80: is the access open; the PF window serves the normal world only, and its memories. -/
def debugOpen (d : Dev) (a : DebugAcc) : Bool :=
  !(a.viaPf && (a.secure || a.what == .sramSecure)) && d.dbg.rights.getLsbD (needsRight a) && memOpen d a &&
  !(a.what == .sramSecure && isRead a.kind && !d.dbg.rights.getLsbD 2)
/-- R80, R85. -/
def debugAccess (d : Dev) (a : DebugAcc) : Dev :=
  if !powered d then d
  else if asleep d then tapReport d ST.dbgAsleep
  else if !debugOpen d a then tapReport d ST.denied
  else if d.glb.power == .doze && a.gatedIsland then
    let d := wake d .barAccess
    { d with glb := { d.glb with heldAccess := d.glb.heldAccess ++ [.debug a] } }
  else debugDo d a

/-! ### EXTEST: R84 -/

def isNop (e : Nat × Req) : Bool := match e.2.stage with | .nopWait _ => true | _ => false
/-- Every engine stops and every outstanding command ends; a NOP before those it waits for. -/
def abortAll (d : Dev) : Dev :=
  let d := stopEngines (d.pkeWait.foldl (fun d w => match w with | .secure o => cutSecure d o | .cmd _ => d) { d with pkeWait := [], sym := { d.sym with wait := [] } })
  let d := (List.range 12).foldl (fun d l => laneAbort d l ST.aborted) d
  let d := (d.reqs.filter isNop).foldl abortReq d
  d.reqs.foldl abortReq d
def tapExtest (d : Dev) : Dev :=
  if !powered d then d else if asleep d then tapReport d ST.dbgAsleep
  else if !boundaryOpen d then tapReport d ST.denied
  else
    let d := abortAll (setInstr d .extest)
    tapReport { d with dbg := { d.dbg with extest := true } } ST.ok

def execExtest (s : State) : Host.Outcome State Fault Refusal := onDev tapExtest s
def execDebugAccess (a : DebugAcc) (s : State) : Host.Outcome State Fault Refusal := onDev (fun d => debugAccess d a) s

end Sys2Proof.Machine
end

