-- ==== Sys2Proof/Machine/Mgmt.lean ====
section
/-! DEFINITION. The management port (22): bus and addresses, MCTP assembly, MCTP control, SPDM, the device messages; and the end of a wake with the requests it held (03 R42). Message layouts that DSP0236 and DSP0274 give are PRESUMED (log 36). -/

namespace Sys2Proof.Machine

def setMgt (d : Dev) (m : Mgt) : Dev := { d with mgt := m }
def reply (d : Dev) (b : Bytes) : Dev := emit d (.mgtReply b)
/-- Bytes that no rule gives: FREE. -/
def openBytes (d : Dev) (n : Nat) : Bytes × Dev := (Config.fit n (Config.freeBytes d.rng n), { d with rng := d.rng + 1 })

/-- R403, R405, 06 R97: what an access to the port meets before it is served. -/
def mgtAccess (d : Dev) (x : MgtOp) (serve : Dev → Dev) : Dev :=
  match d.glb.power with
  | .vault => d
  | .off => d
  | .standby =>
    if !d.mgt.enabled then d
    else if d.mgt.i3c then wake (emit d .mgtNack) .mgtAccess
    else let d := wake d .mgtAccess; { d with glb := { d.glb with heldAccess := d.glb.heldAccess ++ [.mgt x] } }
  | _ =>
    if d.mgt.bankOff then d
    else if !d.mgt.enabled || inTransit d 22 then emit d .mgtNack
    else serve (wake d .mgtAccess)

/-! ### Bus: R392, R393 -/

/-- A CCC for a target with a dynamic address. -/
def inI3c (d : Dev) (f : Dev → Dev) : Dev := if d.mgt.i3c then f d else d
def takeAddr (d : Dev) (a : BitVec 7) : Dev := if d.mgt.i3c then d else setMgt d { d.mgt with i3c := true, dynAddr := a }
def toSmbus (d : Dev) : Dev := setMgt d { d.mgt with i3c := false, dynAddr := 0 }
/-- PID, most significant byte first as I3C sends it. -/
def pid : Bytes := beBytes 6 (0x1D7C * 2 ^ 33 + leAt Config.deviceId 0 4)
def sendStatus (d : Dev) : Dev := let r := openBytes d 2; reply r.2 r.1
def answerAra (d : Dev) : Dev := if d.mgt.i3c then d else reply d [(d.mgt.saddr.setWidth 8) <<< 1]

/-! ### Replies that name a refusal: R395 -/

def countMsg (d : Dev) : Dev := setMgt d { d.mgt with cntMsg := satInc d.mgt.cntMsg }
def countPkt (d : Dev) : Dev := setMgt d { d.mgt with cntPkt := satInc d.mgt.cntPkt }
def mType (b : Bytes) : Byte := byteAt b 0
/-- Completion of a control request. -/
def ctlReply (d : Dev) (b : Bytes) (code : Byte) (rest : Bytes) : Dev := reply d ([0x00, byteAt b 1 &&& 0x1F, byteAt b 2, code] ++ rest)
def spdmError (d : Dev) (code : Byte) : Dev := reply d [0x05, 0x12, 0x7F, code, 0]
def devReply (d : Dev) (b : Bytes) (st : Half) (rest : Bytes) : Dev := reply d (devMsg (byteAt b 3) (byteAt b 4) (b2 st ++ rest))
def busyReply (d : Dev) (b : Bytes) : Dev :=
  let d := countMsg d
  if mType b == 0x00 then ctlReply d b 0x04 [] else if mType b == 0x05 then spdmError d 0x03 else if mType b == 0x7E then devReply d b ST.busy [] else d

/-! ### MCTP control: R394 -/

def setEid (d : Dev) (b : Bytes) : Dev :=
  let e := byteAt b 4
  if e == 0 || e == 0xFF then ctlReply d b 0x02 [] else ctlReply (setMgt d { d.mgt with eid := e }) b 0 [0, e, 0]
def ctlMsg (d : Dev) (b : Bytes) : Dev :=
  match (byteAt b 2).toNat with
  | 0x01 => setEid d b
  | 0x02 => ctlReply d b 0 [d.mgt.eid, 0, 0]
  | 0x04 => ctlReply d b 0 [1, 0xF1, 0xF3, 0xFF, 0x00]
  | 0x05 => ctlReply d b 0 [2, 0x05, 0x7E]
  | 0x06 => let r := openBytes d 2; ctlReply r.2 b 0 ([0xFF, 0x00, 0x1D, 0x7C] ++ r.1)
  | _ => ctlReply d b 0x05 []

/-! ### SPDM: R396, R397 -/

def keepTranscript (d : Dev) (stage : Nat) (b r : Bytes) : Dev :=
  reply (setMgt d { d.mgt with spdmStage := stage, transcript := d.mgt.transcript ++ b.drop 1 ++ r.drop 1, measTranscript := [] }) r
def spdmVersion (d : Dev) (b : Bytes) : Dev :=
  keepTranscript (setMgt d { d.mgt with transcript := [] }) 1 b [0x05, 0x10, 0x04, 0, 0, 0, 1, 0x00, 0x12]
/-- MEAS_CAP 2 in [4:3], CHAL_CAP in [2], PUB_KEY_ID_CAP in [16]. -/
def capFlags : Nat := 0x10014
def spdmCaps (d : Dev) (b : Bytes) : Dev :=
  let r := openBytes d 9
  keepTranscript r.2 2 b ([0x05, 0x12, 0x61, 0, 0, 0] ++ r.1.take 1 ++ [0, 0] ++ leBytes 4 capFlags ++ r.1.drop 1)
/-- P-384 is bit 7 of the asymmetric algorithms, SHA-384 bit 1 of the hashes, the DMTF specification bit 0. -/
def spdmAlgs (d : Dev) (b : Bytes) : Dev :=
  let meas := (byteAt b 7).getLsbD 0
  let asym := (byteAt b 9).getLsbD 7
  let hash := (byteAt b 13).getLsbD 1
  let pick := fun (on : Bool) (x : Nat) => leBytes 4 (if on then x else 0)
  keepTranscript d 3 b ([0x05, 0x12, 0x63, 0, 0] ++ leBytes 2 36 ++ [if meas then 1 else 0, 0] ++ pick meas 4 ++ pick asym 0x80 ++ pick hash 2 ++ zeros 16)
/-- What SPDM 1.2 signs: a prefix of 100 bytes that ends in the context, and the hash of the transcript (log 36). -/
def spdmSigned (context : String) (m : Bytes) : Bytes :=
  (List.replicate 4 (ascii "dmtf-spdm-v1.2.*")).flatten ++ zeros (36 - (ascii context).length) ++ ascii context ++ Config.sha384 m
/-- A signature by the attestation key; it is not among the works of 16 R290, so it takes no engine (log 37). -/
def spdmSign (d : Dev) (context : String) (m : Bytes) : Bytes × Dev :=
  let r := draw d 64
  (Config.pkSign 0x21 96 3 0 false (attestScalar d) (spdmSigned context m) r.1, r.2)
def canSign (d : Dev) : Bool := rootLoaded d && !lcLocked d && drbgReady d
def spdmChallenge (d : Dev) (b : Bytes) : Dev :=
  if byteAt b 3 != 0xFF then spdmError d 0x01
  else if !canSign d then spdmError d 0x05
  else
    let n := draw d 32
    let head : Bytes := [0x05, 0x12, 0x03, 0x0F, 0] ++ Config.sha384 (attestPub d) ++ n.1 ++ [0, 0]
    let g := spdmSign n.2 "responder-challenge_auth signing" (n.2.mgt.transcript ++ b.drop 1 ++ head.drop 1)
    reply g.2 (head ++ g.1)

/-- R397: value type and value of block `i`; 19 R357's SRAM copies hold the same digests. -/
def measValue (d : Dev) (i : Nat) : Byte × Bytes :=
  match i with
  | 1 => (0x01, Config.fit 48 d.bwt.currentDigest)
  | 2 => (0x01, Config.fit 48 d.key.fwMeas)
  | 3 => (0x82, b4 (rLcState d) ++ b4 (rDbgStatus d))
  | _ => (0x04, Config.fit 48 d.bwt.previousDigest)
def measBlock (d : Dev) (i : Nat) : Bytes :=
  let v := measValue d i
  [BitVec.ofNat 8 i, 0x01] ++ leBytes 2 (v.2.length + 3) ++ [v.1] ++ leBytes 2 v.2.length ++ v.2
def spdmMeas (d : Dev) (b : Bytes) : Dev :=
  let signed := (byteAt b 3).getLsbD 0
  let i := (byteAt b 4).toNat
  let sel := if i = 0 then [] else if i = 0xFF then [1, 2, 3, 4] else [i]
  if !(i ≤ 4 || i = 0xFF) then spdmError d 0x01
  else if signed && !canSign d then spdmError d 0x05
  else
    let rec_ := sel.flatMap (measBlock d)
    let n := openBytes d 32
    let head : Bytes := [0x05, 0x12, 0x60, if i = 0 then 4 else 0, if signed then 0x0F else 0, BitVec.ofNat 8 sel.length] ++ leBytes 3 rec_.length ++ rec_ ++ n.1 ++ [0, 0]
    let l := n.2.mgt.measTranscript ++ b.drop 1 ++ head.drop 1
    if !signed then reply (setMgt n.2 { n.2.mgt with measTranscript := l }) head
    else let g := spdmSign n.2 "responder-measurements signing" (n.2.mgt.transcript ++ l); reply (setMgt g.2 { g.2.mgt with measTranscript := [] }) (head ++ g.1)

/-- Requests out of their order get UnexpectedRequest (0x04), as DSP0274 gives (log 36). -/
def spdmMsg (d : Dev) (b : Bytes) : Dev :=
  let st := d.mgt.spdmStage
  match (byteAt b 2).toNat with
  | 0x84 => spdmVersion d b
  | 0xE1 => if st = 0 then spdmError d 0x04 else spdmCaps d b
  | 0xE3 => if st < 2 then spdmError d 0x04 else spdmAlgs d b
  | 0x83 => if st < 3 then spdmError d 0x04 else spdmChallenge d b
  | 0xE0 => if st < 3 then spdmError d 0x04 else spdmMeas d b
  | _ => spdmError d 0x07

/-! ### Device messages: R398-R401 -/

/-- LOCKED: COMMAND accepts three opcodes (R403). A later fragment of a run has no opcode of its own. -/
def lockedOut (d : Dev) (q : Bytes) : Bool :=
  let op := chOpcode q
  lcLocked d && !(ohFragMore q && !ohFragFirst q) && !(op = 0x0801 || op = 0x0605 || op = 0x0606)
def devCommand (d : Dev) (b : Bytes) : Dev :=
  let q := b.drop 8
  let tag := byteAt b 4
  if lockedOut d q then endNew d .mgt q tag ST.locked
  else match intake d .mgt q tag with | some d => d | none => mgtBusy d 0x01 tag

def stallView (d : Dev) (b : Bytes) : Dev :=
  let n := (byteAt b 8).toNat
  let g := word b 12
  if 64 ≤ n || b.length < 16 then devReply d b ST.param []
  else devReply d b ST.ok ([if g != 0 && g != (stall d n).gen then 1 else 0, byteAt b 8] ++ infoStall d n)
def stallAct (d : Dev) (b : Bytes) : Dev :=
  let n := (byteAt b 8).toNat
  let op := (byteAt b 9).toNat
  if !d.mgt.actEn then devReply d b ST.denied []
  else if 64 ≤ n || b.length < 16 || !(op = 2 || op = 3) then devReply d b ST.param []
  else if word b 12 != (stall d n).gen then devReply d b ST.genStale []
  else let r := stallOp d n op .squash; devReply r.1 b r.2 []
/-- All in one fabric cycle; the alert bits returned are cleared. -/
def snapshot (d : Dev) (b : Bytes) : Dev :=
  let l := [rPwrStatus d, rLcState d, rDbgStatus d, rTmpStatus d, rBwtStatus d, rEvrStatus d, rChnStatus d, rXwdStatus d, d.mgt.alert.setWidth 32]
  devReply (setMgt d { d.mgt with alert := 0 }) b ST.ok (l.flatMap b4)
def attestKeys (d : Dev) (b : Bytes) : Dev :=
  if rootLoaded d && !lcLocked d then devReply d b ST.ok (attestPub d ++ attestMlPub d ++ Config.fit 48 d.key.fwMeas) else devReply d b ST.locked []
def devMessage (d : Dev) (b : Bytes) : Dev :=
  if byteAt b 1 != 0x1D || byteAt b 2 != 0x7C then d else
  match (byteAt b 3).toNat with
  | 0x01 => devCommand d b
  | 0x02 => stallView d b
  | 0x03 => stallAct d b
  | 0x04 => snapshot d b
  | 0x05 => attestKeys d b
  | _ => devReply d b ST.opcode []

/-! ### A whole message, and its assembly: R394, R395 -/

/-- The management allotment has no cell for it. -/
def mgtFull (d : Dev) (b : Bytes) : Bool := decide (cellRoom d H.mgt < cellsFor b.length)
/-- `null` says that the message is addressed to the null EID. -/
def deliverMsg (d : Dev) (null : Bool) (b : Bytes) : Dev :=
  if d.mgt.eid == 0 && (mType b != 0x00 || !null) then d
  else if !(mType b == 0x00 || mType b == 0x05 || mType b == 0x7E) then d
  else if 4104 < b.length then countMsg d
  else if mgtFull d b then busyReply d b
  else if mType b == 0x00 then ctlMsg d b
  else if mType b == 0x05 then spdmMsg d b
  else devMessage d b

def dropAsm (d : Dev) (k : AsmKey) : Dev := setMgt d { d.mgt with asm := d.mgt.asm.filter fun a => decide (a.key ≠ k) }
def asmOf (d : Dev) (k : AsmKey) : Option Asm := d.mgt.asm.find? fun a => decide (a.key = k)
def addAsm (d : Dev) (a : Asm) : Dev := setMgt d { d.mgt with asm := d.mgt.asm ++ [a] }
def putAsm (d : Dev) (a : Asm) : Dev := setMgt d { d.mgt with asm := d.mgt.asm.map fun x => if x.key = a.key then a else x }
/-- A message goes on with `b`: whole, too long, or still in assembly. -/
def growAsm (d : Dev) (k : AsmKey) (p : McPacket) (since : Nat) (fresh : Bool) (b : Bytes) : Dev :=
  if p.eom then deliverMsg (if fresh then d else dropAsm d k) (p.dst == 0) b
  else if 4104 < b.length then countMsg (dropAsm d k)
  else
    let a : Asm := { key := k, nextSeq := (p.pktSeq.val + 1) % 4, bytes := b, since }
    if fresh then addAsm d a else putAsm d a
/-- The first packet of a message; one of its source and tag that was still open is out of sequence. -/
def firstPacket (d : Dev) (k : AsmKey) (p : McPacket) : Dev :=
  let d := if (asmOf d k).isSome then countMsg (dropAsm d k) else d
  if 8 ≤ d.mgt.asm.length then busyReply d p.payload else growAsm d k p d.now true p.payload
def laterPacket (d : Dev) (k : AsmKey) (p : McPacket) : Dev :=
  match asmOf d k with
  | none => d
  | some a => if p.pktSeq.val ≠ a.nextSeq then countMsg (dropAsm d k) else growAsm d k p a.since false (a.bytes ++ p.payload)
def takePkt (d : Dev) (p : McPacket) : Dev :=
  if p.i3c != d.mgt.i3c then emit d .mgtNack
  else if !p.i3c && !p.pecOk then countPkt d
  else if p.ic || decide (64 < p.payload.length) || !(p.dst == 0 || p.dst == d.mgt.eid) then d
  else if p.som then firstPacket d { src := p.src, tag := p.tag } p else laterPacket d { src := p.src, tag := p.tag } p
/-- 100 ms after its first packet. -/
def asmTimeout (d : Dev) (k : AsmKey) : Dev := if (asmOf d k).any fun a => decide (a.since + secondCycles / 10 ≤ d.now) then countMsg (dropAsm d k) else d

/-! ### The messages the rows stand for -/

def ctlBytes (cmd : Byte) (rest : Bytes) : Bytes := [0x00, 0x80, cmd] ++ rest
def spdmBytes (ver code p1 p2 : Byte) (rest : Bytes) : Bytes := [0x05, ver, code, p1, p2] ++ rest
def devBytes (msg tag : Byte) (rest : Bytes) : Bytes := [0x7E, 0x1D, 0x7C, msg, tag, 0, 0, 0] ++ rest
def algBytes (asym hash meas : Bool) : Bytes :=
  spdmBytes 0x12 0xE3 0 0 (leBytes 2 32 ++ [if meas then 1 else 0, 0] ++ leBytes 4 (if asym then 0x80 else 0) ++ leBytes 4 (if hash then 2 else 0) ++ zeros 16)
def measBytes (i : Byte) (signed : Bool) (nonce : Bytes) : Bytes :=
  spdmBytes 0x12 0xE0 (if signed then 1 else 0) i (if signed then Config.fit 32 nonce ++ [0x0F] else [])

/-- What each access does once the port serves it. -/
def mgtServe (x : MgtOp) (d : Dev) : Dev :=
  match x with
  | .enec => inI3c d fun d => setMgt d { d.mgt with ibiEn := true }
  | .disec => inI3c d fun d => setMgt d { d.mgt with ibiEn := false }
  | .rstdaa => inI3c d toSmbus
  | .entdaa a => takeAddr d a
  | .setdasa a => takeAddr d a
  | .setnewda a => inI3c d fun d => setMgt d { d.mgt with dynAddr := a }
  | .getpid => inI3c d fun d => reply d pid
  | .getbcr => inI3c d fun d => reply d [0x06]
  | .getdcr => inI3c d fun d => reply d [0x00]
  | .getstatus => inI3c d sendStatus
  | .ara => answerAra d
  | .packet p => takePkt d p
  | .message null b => deliverMsg d null b
def mgtRow (x : MgtOp) (d : Dev) : Dev := mgtAccess d x (mgtServe x)

/-! ### The end of a wake: 03 R42 -/

/-- The requests held during the wake are completed in their order. -/
def replay (d : Dev) (h : HeldAccess) : Dev :=
  match h with
  | .write m a n v => registerWrite d m a n v
  | .read m a n => registerRead d m a n
  | .config f o v => configRequest d f o v
  | .debug x => debugAccess d x
  | .request op r failed => command d op r fun d c => if op = 0x0F05 then runSelfTest d c failed else runCmd d c
  | .mgt x => mgtRow x d
def wakeComplete (d : Dev) (unlocked : List Island) : Dev :=
  if !d.glb.waking || !sleeping d then d else
  let d := wakeUp d unlocked
  d.glb.heldAccess.foldl replay { d with glb := { d.glb with heldAccess := [] } }

def execWakeComplete (unlocked : List Island) (s : State) : Host.Outcome State Fault Refusal := onDev (fun d => wakeComplete d unlocked) s
def execMctpPacket (p : McPacket) (s : State) : Host.Outcome State Fault Refusal := onDev (mgtRow (.packet p)) s
def execMctpAssemblyTimeout (k : AsmKey) (s : State) : Host.Outcome State Fault Refusal := onDev (fun d => asmTimeout d k) s
def execEnec (s : State) : Host.Outcome State Fault Refusal := onDev (mgtRow .enec) s
def execDisec (s : State) : Host.Outcome State Fault Refusal := onDev (mgtRow .disec) s
def execRstdaa (s : State) : Host.Outcome State Fault Refusal := onDev (mgtRow .rstdaa) s
def execEntdaa (addr : BitVec 7) (s : State) : Host.Outcome State Fault Refusal := onDev (mgtRow (.entdaa addr)) s
def execSetdasa (addr : BitVec 7) (s : State) : Host.Outcome State Fault Refusal := onDev (mgtRow (.setdasa addr)) s
def execSetnewda (addr : BitVec 7) (s : State) : Host.Outcome State Fault Refusal := onDev (mgtRow (.setnewda addr)) s
def execGetpid (s : State) : Host.Outcome State Fault Refusal := onDev (mgtRow .getpid) s
def execGetbcr (s : State) : Host.Outcome State Fault Refusal := onDev (mgtRow .getbcr) s
def execGetdcr (s : State) : Host.Outcome State Fault Refusal := onDev (mgtRow .getdcr) s
def execGetstatus (s : State) : Host.Outcome State Fault Refusal := onDev (mgtRow .getstatus) s
def execAlertResponseAddress (s : State) : Host.Outcome State Fault Refusal := onDev (mgtRow .ara) s
def execSetEndpointId (eid : Byte) (s : State) : Host.Outcome State Fault Refusal := onDev (mgtRow (.message true (ctlBytes 0x01 [0, eid]))) s
def execGetEndpointId (s : State) : Host.Outcome State Fault Refusal := onDev (mgtRow (.message true (ctlBytes 0x02 []))) s
def execGetMctpVersionSupport (s : State) : Host.Outcome State Fault Refusal := onDev (mgtRow (.message true (ctlBytes 0x04 [0xFF]))) s
def execGetMessageTypeSupport (s : State) : Host.Outcome State Fault Refusal := onDev (mgtRow (.message true (ctlBytes 0x05 []))) s
def execGetVendorDefinedSupport (s : State) : Host.Outcome State Fault Refusal := onDev (mgtRow (.message true (ctlBytes 0x06 [0]))) s
def execGetVersion (s : State) : Host.Outcome State Fault Refusal := onDev (mgtRow (.message false (spdmBytes 0x10 0x84 0 0 []))) s
def execGetCapabilities (s : State) : Host.Outcome State Fault Refusal := onDev (mgtRow (.message false (spdmBytes 0x12 0xE1 0 0 (zeros 16)))) s
def execNegotiateAlgorithms (asym hash meas : Bool) (s : State) : Host.Outcome State Fault Refusal := onDev (mgtRow (.message false (algBytes asym hash meas))) s
def execChallenge (slotId : Byte) (nonce : Bytes) (s : State) : Host.Outcome State Fault Refusal := onDev (mgtRow (.message false (spdmBytes 0x12 0x83 slotId 0 (Config.fit 32 nonce)))) s
def execGetMeasurements (index : Byte) (signed : Bool) (nonce : Bytes) (s : State) : Host.Outcome State Fault Refusal := onDev (mgtRow (.message false (measBytes index signed nonce))) s
def execCommand (tag : Byte) (request : Bytes) (s : State) : Host.Outcome State Fault Refusal := onDev (mgtRow (.message false (devBytes 0x01 tag request))) s
def execStallView (tag stall : Byte) (expectGen : Word) (s : State) : Host.Outcome State Fault Refusal := onDev (mgtRow (.message false (devBytes 0x02 tag ([stall, 0, 0, 0] ++ b4 expectGen)))) s
def execStallAct (tag stall op : Byte) (gen : Word) (s : State) : Host.Outcome State Fault Refusal := onDev (mgtRow (.message false (devBytes 0x03 tag ([stall, op, 0, 0] ++ b4 gen)))) s
def execSnapshot (tag : Byte) (s : State) : Host.Outcome State Fault Refusal := onDev (mgtRow (.message false (devBytes 0x04 tag []))) s
def execAttestKey (tag : Byte) (s : State) : Host.Outcome State Fault Refusal := onDev (mgtRow (.message false (devBytes 0x05 tag []))) s

end Sys2Proof.Machine
end

