-- ==== Sys2Proof/Machine/Dispatch.lean ====
section
/-! DEFINITION. One arm per command. -/

namespace Sys2Proof.Machine

def exec (i : Instr) (s : State) : Host.Outcome State Fault Refusal :=
  match i with
  | .nop r => Sys2Proof.Machine.execNop r s
  | .infoDevice r => Sys2Proof.Machine.execInfoDevice r s
  | .infoStall r => Sys2Proof.Machine.execInfoStall r s
  | .keyGenerate r => Sys2Proof.Machine.execKeyGenerate r s
  | .keyImport r => Sys2Proof.Machine.execKeyImport r s
  | .keyLoad r => Sys2Proof.Machine.execKeyLoad r s
  | .keyUnload r => Sys2Proof.Machine.execKeyUnload r s
  | .keyWrap r => Sys2Proof.Machine.execKeyWrap r s
  | .keySetUsage r => Sys2Proof.Machine.execKeySetUsage r s
  | .keyExport r => Sys2Proof.Machine.execKeyExport r s
  | .keyAonPut r => Sys2Proof.Machine.execKeyAonPut r s
  | .keyInfo r => Sys2Proof.Machine.execKeyInfo r s
  | .keyPublic r => Sys2Proof.Machine.execKeyPublic r s
  | .pkSign r => Sys2Proof.Machine.execPkSign r s
  | .pkVerify r => Sys2Proof.Machine.execPkVerify r s
  | .pkEncaps r => Sys2Proof.Machine.execPkEncaps r s
  | .pkDecaps r => Sys2Proof.Machine.execPkDecaps r s
  | .pkAgree r => Sys2Proof.Machine.execPkAgree r s
  | .pkMacRun r => Sys2Proof.Machine.execPkMacRun r s
  | .symCipher r => Sys2Proof.Machine.execSymCipher r s
  | .symMac r => Sys2Proof.Machine.execSymMac r s
  | .hash r => Sys2Proof.Machine.execHash r s
  | .symKdf r => Sys2Proof.Machine.execSymKdf r s
  | .symKw r => Sys2Proof.Machine.execSymKw r s
  | .symRng r => Sys2Proof.Machine.execSymRng r s
  | .ownerCreate r => Sys2Proof.Machine.execOwnerCreate r s
  | .ownerDelete r => Sys2Proof.Machine.execOwnerDelete r s
  | .ownerBind r => Sys2Proof.Machine.execOwnerBind r s
  | .ownerUnbind r => Sys2Proof.Machine.execOwnerUnbind r s
  | .ownerSetPolicy r => Sys2Proof.Machine.execOwnerSetPolicy r s
  | .quorumStatus r => Sys2Proof.Machine.execQuorumStatus r s
  | .quorumCancel r => Sys2Proof.Machine.execQuorumCancel r s
  | .bwLoadManifest r => Sys2Proof.Machine.execBwLoadManifest r s
  | .bwSeal r => Sys2Proof.Machine.execBwSeal r s
  | .bwGetJournal r => Sys2Proof.Machine.execBwGetJournal r s
  | .logAppend r => Sys2Proof.Machine.execLogAppend r s
  | .logRead r => Sys2Proof.Machine.execLogRead r s
  | .logStatus r => Sys2Proof.Machine.execLogStatus r s
  | .chnStatus r => Sys2Proof.Machine.execChnStatus r s
  | .chnReplicate r => Sys2Proof.Machine.execChnReplicate r s
  | .chnAdmit r => Sys2Proof.Machine.execChnAdmit r s
  | .chnSetEpoch r => Sys2Proof.Machine.execChnSetEpoch r s
  | .lcGetState r => Sys2Proof.Machine.execLcGetState r s
  | .lcTransition r => Sys2Proof.Machine.execLcTransition r s
  | .lcResume r => Sys2Proof.Machine.execLcResume r s
  | .dbgChallenge r => Sys2Proof.Machine.execDbgChallenge r s
  | .dbgResponse r => Sys2Proof.Machine.execDbgResponse r s
  | .pkeSetChannel r => Sys2Proof.Machine.execPkeSetChannel r s
  | .ledgerRead r => Sys2Proof.Machine.execLedgerRead r s
  | .fwStage r => Sys2Proof.Machine.execFwStage r s
  | .fwActivate r => Sys2Proof.Machine.execFwActivate r s
  | .selfTest r failed => Sys2Proof.Machine.execSelfTest r failed s
  | .testUnlock token index state env => Sys2Proof.Machine.execTestUnlock token index state env s
  | .dbgChal env => Sys2Proof.Machine.execDbgChal env s
  | .dbgResp cert env => Sys2Proof.Machine.execDbgResp cert env s
  | .bypass env => Sys2Proof.Machine.execBypass env s
  | .idcode env => Sys2Proof.Machine.execIdcode env s
  | .samplePreload env => Sys2Proof.Machine.execSamplePreload env s
  | .extest => Sys2Proof.Machine.execExtest s
  | .extestExit env => Sys2Proof.Machine.execExtestExit env s
  | .tapReset byTrst env => Sys2Proof.Machine.execTapReset byTrst env s
  | .debugAccess a => Sys2Proof.Machine.execDebugAccess a s
  | .internalScanEntry island => Sys2Proof.Machine.execInternalScanEntry island s
  | .requestDoze => Sys2Proof.Machine.execRequestDoze s
  | .requestStandby => Sys2Proof.Machine.execRequestStandby s
  | .powerStateEntry => Sys2Proof.Machine.execPowerStateEntry s
  | .powerRequestRefuse => Sys2Proof.Machine.execPowerRequestRefuse s
  | .wake cause => Sys2Proof.Machine.execWake cause s
  | .wakeComplete unlocked => Sys2Proof.Machine.execWakeComplete unlocked s
  | .soft env => Sys2Proof.Machine.execSoft env s
  | .registerWrite src addr size value => Sys2Proof.Machine.execRegisterWrite src addr size value s
  | .rcFieldRead src addr size => Sys2Proof.Machine.execRcFieldRead src addr size s
  | .vmainGood env => Sys2Proof.Machine.execVmainGood env s
  | .strapSample env => Sys2Proof.Machine.execStrapSample env s
  | .perstRelease => Sys2Proof.Machine.execPerstRelease s
  | .linkTrained width speed => Sys2Proof.Machine.execLinkTrained width speed s
  | .rootRecheck => Sys2Proof.Machine.execRootRecheck s
  | .vmainLost => Sys2Proof.Machine.execVmainLost s
  | .vbatLost => Sys2Proof.Machine.execVbatLost s
  | .vrsvLow => Sys2Proof.Machine.execVrsvLow s
  | .crossingTimeout island => Sys2Proof.Machine.execCrossingTimeout island s
  | .crossingCodeFail island => Sys2Proof.Machine.execCrossingCodeFail island s
  | .pkeClockChange e => Sys2Proof.Machine.execPkeClockChange e s
  | .pkePllRelock e => Sys2Proof.Machine.execPkePllRelock e s
  | .meshAlarm pair seen reserveHeld => Sys2Proof.Machine.execMeshAlarm pair seen reserveHeld s
  | .lidAlarm lid reserveHeld => Sys2Proof.Machine.execLidAlarm lid reserveHeld s
  | .monitorAlarm m atVmainFall reserveHeld => Sys2Proof.Machine.execMonitorAlarm m atVmainFall reserveHeld s
  | .vaultTamper src seen vbatHeld => Sys2Proof.Machine.execVaultTamper src seen vbatHeld s
  | .tamperReset env => Sys2Proof.Machine.execTamperReset env s
  | .tamperHoldRecheck => Sys2Proof.Machine.execTamperHoldRecheck s
  | .swdtKick src key => Sys2Proof.Machine.execSwdtKick src key s
  | .swdtWarning => Sys2Proof.Machine.execSwdtWarning s
  | .swdtExpire env => Sys2Proof.Machine.execSwdtExpire env s
  | .handover src periph toSecure => Sys2Proof.Machine.execHandover src periph toSecure s
  | .handoverComplete => Sys2Proof.Machine.execHandoverComplete s
  | .policyBarrier src => Sys2Proof.Machine.execPolicyBarrier src s
  | .barrierComplete => Sys2Proof.Machine.execBarrierComplete s
  | .violationPop src => Sys2Proof.Machine.execViolationPop src s
  | .ledgerCheck => Sys2Proof.Machine.execLedgerCheck s
  | .secureReset env => Sys2Proof.Machine.execSecureReset env s
  | .classDPauseTimeout => Sys2Proof.Machine.execClassDPauseTimeout s
  | .vfEnable => Sys2Proof.Machine.execVfEnable s
  | .vfDisable => Sys2Proof.Machine.execVfDisable s
  | .vfFlr n => Sys2Proof.Machine.execVfFlr n s
  | .pfFlr => Sys2Proof.Machine.execPfFlr s
  | .busMasterDisable f => Sys2Proof.Machine.execBusMasterDisable f s
  | .msixUnblock f vector => Sys2Proof.Machine.execMsixUnblock f vector s
  | .d3hotEntry => Sys2Proof.Machine.execD3hotEntry s
  | .d0Return => Sys2Proof.Machine.execD0Return s
  | .configRequest f offset write => Sys2Proof.Machine.execConfigRequest f offset write s
  | .hotReset cause => Sys2Proof.Machine.execHotReset cause s
  | .pcieCorrectableError f k => Sys2Proof.Machine.execPcieCorrectableError f k s
  | .pcieAdvisoryError f k => Sys2Proof.Machine.execPcieAdvisoryError f k s
  | .pcieFatalError k => Sys2Proof.Machine.execPcieFatalError k s
  | .dmaCompletion tag bytes => Sys2Proof.Machine.execDmaCompletion tag bytes s
  | .dmaCompletionError tag k => Sys2Proof.Machine.execDmaCompletionError tag k s
  | .completionTimeout tag => Sys2Proof.Machine.execCompletionTimeout tag s
  | .enable n => Sys2Proof.Machine.execEnable n s
  | .pause n => Sys2Proof.Machine.execPause n s
  | .resume n => Sys2Proof.Machine.execResume n s
  | .reset n mode => Sys2Proof.Machine.execReset n mode s
  | .remove n mode => Sys2Proof.Machine.execRemove n mode s
  | .drainCap n => Sys2Proof.Machine.execDrainCap n s
  | .stallResetComplete n => Sys2Proof.Machine.execStallResetComplete n s
  | .partitionChange log2n => Sys2Proof.Machine.execPartitionChange log2n s
  | .mbSend n side => Sys2Proof.Machine.execMbSend n side s
  | .swap n => Sys2Proof.Machine.execSwap n s
  | .ringEnable ring side depthLog2 => Sys2Proof.Machine.execRingEnable ring side depthLog2 s
  | .ringRestoreWrite ring reg value => Sys2Proof.Machine.execRingRestoreWrite ring reg value s
  | .sqTail ring side value => Sys2Proof.Machine.execSqTail ring side value s
  | .cqHead ring side value => Sys2Proof.Machine.execCqHead ring side value s
  | .weirTick => Sys2Proof.Machine.execWeirTick s
  | .entryFetch ring outerLen => Sys2Proof.Machine.execEntryFetch ring outerLen s
  | .entryReceived ring entry => Sys2Proof.Machine.execEntryReceived ring entry s
  | .commandDispatch queue met => Sys2Proof.Machine.execCommandDispatch queue met s
  | .completionWrite rid outcome => Sys2Proof.Machine.execCompletionWrite rid outcome s
  | .requestClassify rid ecc => Sys2Proof.Machine.execRequestClassify rid ecc s
  | .eddy u => Sys2Proof.Machine.execEddy u s
  | .trapPop src => Sys2Proof.Machine.execTrapPop src s
  | .fragmentReceived src bytes => Sys2Proof.Machine.execFragmentReceived src bytes s
  | .fragmentRunTimeout src => Sys2Proof.Machine.execFragmentRunTimeout src s
  | .switch => Sys2Proof.Machine.execSwitch s
  | .epochBankSwap => Sys2Proof.Machine.execEpochBankSwap s
  | .epochOldDrainEnd => Sys2Proof.Machine.execEpochOldDrainEnd s
  | .epochCopyDone => Sys2Proof.Machine.execEpochCopyDone s
  | .read q => Sys2Proof.Machine.execRead q s
  | .mark q => Sys2Proof.Machine.execMark q s
  | .rewind q => Sys2Proof.Machine.execRewind q s
  | .release q => Sys2Proof.Machine.execRelease q s
  | .packetEnd q bytes => Sys2Proof.Machine.execPacketEnd q bytes s
  | .packetAbandon rid => Sys2Proof.Machine.execPacketAbandon rid s
  | .cellReentry cell => Sys2Proof.Machine.execCellReentry cell s
  | .stranded q => Sys2Proof.Machine.execStranded q s
  | .pkeOperationStart e => Sys2Proof.Machine.execPkeOperationStart e s
  | .pkeDone e outcome runMicros => Sys2Proof.Machine.execPkeDone e outcome runMicros s
  | .pkeWindowStart => Sys2Proof.Machine.execPkeWindowStart s
  | .abort e src => Sys2Proof.Machine.execAbort e src s
  | .aborted e zeroed => Sys2Proof.Machine.execAborted e zeroed s
  | .symLaneDone lane => Sys2Proof.Machine.execSymLaneDone lane s
  | .rngHealthFail cause => Sys2Proof.Machine.execRngHealthFail cause s
  | .drbgReseed => Sys2Proof.Machine.execDrbgReseed s
  | .cardInsert slot => Sys2Proof.Machine.execCardInsert slot s
  | .slotPowerUp slot => Sys2Proof.Machine.execSlotPowerUp slot s
  | .cardPull slot => Sys2Proof.Machine.execCardPull slot s
  | .cmd1Poll slot response => Sys2Proof.Machine.execCmd1Poll slot response s
  | .cardBusError slot => Sys2Proof.Machine.execCardBusError slot s
  | .cardSupplyLimit slot => Sys2Proof.Machine.execCardSupplyLimit slot s
  | .short slot => Sys2Proof.Machine.execShort slot s
  | .issue slot desc => Sys2Proof.Machine.execIssue slot desc s
  | .present slot desc => Sys2Proof.Machine.execPresent slot desc s
  | .cardReply slot reply after => Sys2Proof.Machine.execCardReply slot reply after s
  | .quorumWindowExpire => Sys2Proof.Machine.execQuorumWindowExpire s
  | .enrolmentWindowLapse owner => Sys2Proof.Machine.execEnrolmentWindowLapse owner s
  | .hostFlashCommand opcode => Sys2Proof.Machine.execHostFlashCommand opcode s
  | .arrayRead r => Sys2Proof.Machine.execArrayRead r s
  | .hostFlashWrite opcode addr len => Sys2Proof.Machine.execHostFlashWrite opcode addr len s
  | .statusCopyRefresh sr1 sr2 => Sys2Proof.Machine.execStatusCopyRefresh sr1 sr2 s
  | .gateVerifyComplete region content => Sys2Proof.Machine.execGateVerifyComplete region content s
  | .gateReverifyStart region => Sys2Proof.Machine.execGateReverifyStart region s
  | .sealTimeout => Sys2Proof.Machine.execSealTimeout s
  | .cosignWindowEnd => Sys2Proof.Machine.execCosignWindowEnd s
  | .recordAccept => Sys2Proof.Machine.execRecordAccept s
  | .recordWritten ok => Sys2Proof.Machine.execRecordWritten ok s
  | .operatingTimeCheckpoint => Sys2Proof.Machine.execOperatingTimeCheckpoint s
  | .laneBlockLock p lane => Sys2Proof.Machine.execLaneBlockLock p lane s
  | .laneLockLoss p lane => Sys2Proof.Machine.execLaneLockLoss p lane s
  | .train p t => Sys2Proof.Machine.execTrain p t s
  | .laneTrainTimeout p lane => Sys2Proof.Machine.execLaneTrainTimeout p lane s
  | .linkHoldExpire p => Sys2Proof.Machine.execLinkHoldExpire p s
  | .slotStart => Sys2Proof.Machine.execSlotStart s
  | .frameCorrupt p k => Sys2Proof.Machine.execFrameCorrupt p k s
  | .data p h request => Sys2Proof.Machine.execData p h request s
  | .ack p ackSeq rxFree nak => Sys2Proof.Machine.execAck p ackSeq rxFree nak s
  | .retxTimeout p => Sys2Proof.Machine.execRetxTimeout p s
  | .status p h b => Sys2Proof.Machine.execStatus p h b s
  | .heartbeat => Sys2Proof.Machine.execHeartbeat s
  | .solitary => Sys2Proof.Machine.execSolitary s
  | .statusTimeout addr => Sys2Proof.Machine.execStatusTimeout addr s
  | .enumerate p h head next => Sys2Proof.Machine.execEnumerate p h head next s
  | .enumBack p h head next => Sys2Proof.Machine.execEnumBack p h head next s
  | .enumerateRetry => Sys2Proof.Machine.execEnumerateRetry s
  | .reenum => Sys2Proof.Machine.execReenum s
  | .noAddressTimeout => Sys2Proof.Machine.execNoAddressTimeout s
  | .roster p h head units closed delays => Sys2Proof.Machine.execRoster p h head units closed delays s
  | .config p h epoch admitted => Sys2Proof.Machine.execConfig p h epoch admitted s
  | .replica p h b => Sys2Proof.Machine.execReplica p h b s
  | .replAck p h srcHandle => Sys2Proof.Machine.execReplAck p h srcHandle s
  | .replicateWindowEnd => Sys2Proof.Machine.execReplicateWindowEnd s
  | .replDrop p h srcHandle => Sys2Proof.Machine.execReplDrop p h srcHandle s
  | .result p h b => Sys2Proof.Machine.execResult p h b s
  | .resultRunTimeout reqSeq => Sys2Proof.Machine.execResultRunTimeout reqSeq s
  | .cosignReq p h digest => Sys2Proof.Machine.execCosignReq p h digest s
  | .cosign p h devId sig => Sys2Proof.Machine.execCosign p h devId sig s
  | .arm t => Sys2Proof.Machine.execArm t s
  | .stop t => Sys2Proof.Machine.execStop t s
  | .zero t => Sys2Proof.Machine.execZero t s
  | .capture e => Sys2Proof.Machine.execCapture e s
  | .capturePop t => Sys2Proof.Machine.execCapturePop t s
  | .mctpPacket p => Sys2Proof.Machine.execMctpPacket p s
  | .mctpAssemblyTimeout k => Sys2Proof.Machine.execMctpAssemblyTimeout k s
  | .enec => Sys2Proof.Machine.execEnec s
  | .disec => Sys2Proof.Machine.execDisec s
  | .rstdaa => Sys2Proof.Machine.execRstdaa s
  | .entdaa addr => Sys2Proof.Machine.execEntdaa addr s
  | .setdasa addr => Sys2Proof.Machine.execSetdasa addr s
  | .setnewda addr => Sys2Proof.Machine.execSetnewda addr s
  | .getpid => Sys2Proof.Machine.execGetpid s
  | .getbcr => Sys2Proof.Machine.execGetbcr s
  | .getdcr => Sys2Proof.Machine.execGetdcr s
  | .getstatus => Sys2Proof.Machine.execGetstatus s
  | .alertResponseAddress => Sys2Proof.Machine.execAlertResponseAddress s
  | .setEndpointId eid => Sys2Proof.Machine.execSetEndpointId eid s
  | .getEndpointId => Sys2Proof.Machine.execGetEndpointId s
  | .getMctpVersionSupport => Sys2Proof.Machine.execGetMctpVersionSupport s
  | .getMessageTypeSupport => Sys2Proof.Machine.execGetMessageTypeSupport s
  | .getVendorDefinedSupport => Sys2Proof.Machine.execGetVendorDefinedSupport s
  | .getVersion => Sys2Proof.Machine.execGetVersion s
  | .getCapabilities => Sys2Proof.Machine.execGetCapabilities s
  | .negotiateAlgorithms asym hash meas => Sys2Proof.Machine.execNegotiateAlgorithms asym hash meas s
  | .challenge slotId nonce => Sys2Proof.Machine.execChallenge slotId nonce s
  | .getMeasurements index signed nonce => Sys2Proof.Machine.execGetMeasurements index signed nonce s
  | .command tag request => Sys2Proof.Machine.execCommand tag request s
  | .stallView tag stall expectGen => Sys2Proof.Machine.execStallView tag stall expectGen s
  | .stallAct tag stall op gen => Sys2Proof.Machine.execStallAct tag stall op gen s
  | .snapshot tag => Sys2Proof.Machine.execSnapshot tag s
  | .attestKey tag => Sys2Proof.Machine.execAttestKey tag s
  | .otpWordWriteDone readsBack => Sys2Proof.Machine.execOtpWordWriteDone readsBack s
  | .tokenCheckDone => Sys2Proof.Machine.execTokenCheckDone s
  | .startUpComplete => Sys2Proof.Machine.execStartUpComplete s
  | .tamperSourceClear src => Sys2Proof.Machine.execTamperSourceClear src s
  | .vbatOkChange ok reversed => Sys2Proof.Machine.execVbatOkChange ok reversed s
  | .vrsvGood => Sys2Proof.Machine.execVrsvGood s
  | .chainTimeSlewEnd => Sys2Proof.Machine.execChainTimeSlewEnd s

end Sys2Proof.Machine
end

