-- ==== Sys2Proof/Machine/Step.lean ====
section
/-! DEFINITION. One step: the command at the front of the queue, or one fabric cycle. -/

namespace Sys2Proof.Machine

/-- Take the command at the front and run it over the queue's rest. On an empty queue one fabric cycle passes (log 1). -/
def step (s : State) : Host.Outcome State Fault Refusal :=
  match s.pending with
  | [] => onDev tick s
  | c :: rest => exec c { s with pending := rest }

/-- `s` with the command that `w` spells at the front of its queue: the table gives no row any bits, so `s`. -/
def State.withFetchWord (s : State) (nbits w : Nat) : State :=
  match Sys2Proof.decodeTableWord nbits w with
  | none => s
  | some c => { s with pending := c :: s.pending }

end Sys2Proof.Machine
end

