-- ==== Sys2Proof/Machine/Pins.lean ====
section
/-! DEFINITION. The signals of the package (02 R24-R27): direction, pull, I/O bank, state in reset, and what each signal shows in a state of the device. -/

namespace Sys2Proof.Machine

/-- The rows of R26, a row with two kinds of pull or level as one signal each. -/
inductive Sig where
  | pcieLanes | refclk | rext | perstN | clkreqN | wakeN | krovloLanes
  | bwhSck | bwhCsN | bwhIo | bwfSck | bwfCsN | bwfRstN | bwfIo
  | psfSck | psfCsN | psfRstN | psfDqs | psfIo
  | crdVcc (x : Slot) | crdClk (x : Slot) | crdCmdDat (x : Slot) | crdDetN (x : Slot)
  | meshOut | meshIn | lid | crystals | mgtSclSda | mgtAlertN
  | tck | tms | tdi | tdo | trstN | tmrIn | strapLow | bwMode0
deriving DecidableEq, Repr

inductive Dir where
  | inp | out | inOut | openDrain | power | none
deriving DecidableEq, Repr
inductive Pull where
  | none | up | down
deriving DecidableEq, Repr
/-- What a signal shows. `active`: it follows its function. -/
inductive PinSt where
  | electricalIdle | input | released | hiZ | low | high | off | pattern | oscillating | passive | active
deriving DecidableEq, Repr
/-- R24. -/
inductive IoBank where
  | bf | ps | crd | mgt | gen | aon | analog
deriving DecidableEq, Repr

def pinDir : Sig → Dir
  | .pcieLanes => .inOut | .krovloLanes => .inOut | .clkreqN => .openDrain | .wakeN => .openDrain | .mgtAlertN => .openDrain
  | .bwhIo => .inOut | .bwfIo => .inOut | .psfIo => .inOut | .crdCmdDat _ => .inOut | .mgtSclSda => .inOut
  | .bwfSck => .out | .bwfCsN => .out | .bwfRstN => .out | .psfSck => .out | .psfCsN => .out | .psfRstN => .out
  | .crdClk _ => .out | .meshOut => .out | .tdo => .out | .crdVcc _ => .power | .rext => .none | .crystals => .none
  | .refclk => .inp | .perstN => .inp | .bwhSck => .inp | .bwhCsN => .inp | .psfDqs => .inp | .crdDetN _ => .inp | .meshIn => .inp | .lid => .inp
  | .tck => .inp | .tms => .inp | .tdi => .inp | .trstN => .inp | .tmrIn => .inp | .strapLow => .inp | .bwMode0 => .inp

/-- The internal pulls; a slot's CMD and DAT pulls turn to CRD_x_VCC with its supply. -/
def pinPull (d : Dev) : Sig → Pull
  | .perstN => .down | .bwhSck => .down | .psfDqs => .down | .crdClk _ => .down | .tck => .down | .trstN => .down | .tmrIn => .down | .strapLow => .down
  | .bwhCsN => .up | .bwhIo => .up | .bwfIo => .up | .psfIo => .up | .crdDetN _ => .up | .lid => .up | .tms => .up | .tdi => .up | .bwMode0 => .up
  | .crdCmdDat x => if (slotOf d x).supply then .up else .down
  | _ => .none

def pinBank : Sig → IoBank
  | .bwhSck => .bf | .bwhCsN => .bf | .bwhIo => .bf | .bwfSck => .bf | .bwfCsN => .bf | .bwfRstN => .bf | .bwfIo => .bf
  | .psfSck => .ps | .psfCsN => .ps | .psfRstN => .ps | .psfDqs => .ps | .psfIo => .ps
  | .crdVcc _ => .crd | .crdClk _ => .crd | .crdCmdDat _ => .crd | .crdDetN _ => .crd
  | .mgtSclSda => .mgt | .mgtAlertN => .mgt
  | .meshOut => .aon | .meshIn => .aon | .lid => .aon
  | .pcieLanes => .analog | .krovloLanes => .analog | .refclk => .analog | .rext => .analog | .crystals => .analog
  | .perstN => .gen | .clkreqN => .gen | .wakeN => .gen | .tck => .gen | .tms => .gen | .tdi => .gen | .tdo => .gen | .trstN => .gen | .tmrIn => .gen | .strapLow => .gen | .bwMode0 => .gen

/-- The column "In reset". -/
def pinReset : Sig → PinSt
  | .pcieLanes => .electricalIdle | .krovloLanes => .electricalIdle | .clkreqN => .released | .wakeN => .released | .mgtAlertN => .released
  | .bwhIo => .hiZ | .bwfIo => .hiZ | .psfIo => .hiZ | .crdCmdDat _ => .hiZ | .crdClk _ => .hiZ | .mgtSclSda => .hiZ | .tdo => .hiZ
  | .bwfSck => .low | .bwfRstN => .low | .psfSck => .low | .psfRstN => .low | .bwfCsN => .high | .psfCsN => .high
  | .crdVcc _ => .off | .meshOut => .pattern | .rext => .passive | .crystals => .oscillating
  | .refclk => .input | .perstN => .input | .bwhSck => .input | .bwhCsN => .input | .psfDqs => .input | .crdDetN _ => .input | .meshIn => .input | .lid => .input
  | .tck => .input | .tms => .input | .tdi => .input | .trstN => .input | .tmrIn => .input | .strapLow => .input | .bwMode0 => .input

/-- Has the start-up, or a reset that keeps the link, come past the release of the sideband signals (log 78). -/
def sideband (d : Dev) : Bool := powered d && (match d.glb.boot with | .done => true | .warm => true | .halted k => k | _ => false)
/-- 22 R402: an enabled alert stands in SMBus mode. -/
def alertLow (d : Dev) : Bool := d.mgt.enabled && !d.mgt.i3c && d.mgt.alert &&& d.mgt.alertEn != 0
def bankOf (d : Dev) : IoBank → Bank
  | .bf => d.glb.bankBf | .ps => d.glb.bankPs | .crd => d.glb.bankCrd | .mgt => d.glb.bankMgt | _ => .released

/-- A signal of a bank that is released, or of none. -/
def pinLive (d : Dev) (s : Sig) : PinSt :=
  match s with
  | .pcieLanes => if d.hif.up then .active else .electricalIdle
  | .krovloLanes => if sideband d then .active else .electricalIdle
  | .clkreqN => if sideband d && d.hif.link != .l2 then .low else .released
  | .wakeN => if d.glb.wakeN then .low else .released
  | .mgtAlertN => if alertLow d then .low else .released
  | .crdVcc x => if (slotOf d x).supply then .active else .off
  | .crdClk x => if (slotOf d x).supply then .active else .hiZ
  | .crdCmdDat x => if (slotOf d x).supply then .active else .hiZ
  | .psfDqs => if d.glb.psf == .octal then .active else .input
  | .tdo => if tapUp d then .active else .hiZ
  | .bwhIo => .active | .bwfIo => .active | .psfIo => .active | .mgtSclSda => .active
  | .bwfSck => .active | .psfSck => .active | .bwfCsN => .active | .psfCsN => .active
  | .bwfRstN => .high | .psfRstN => .high
  | s => pinReset s
/-- R25-R27, R31: what a signal shows: its entry of "In reset" while its bank is held there, high impedance where VIO_MGT is out of range. -/
def pinState (d : Dev) (s : Sig) : PinSt :=
  match bankOf d (pinBank s) with
  | .inReset => pinReset s
  | .hiZ => .hiZ
  | .released => pinLive d s

end Sys2Proof.Machine
end

