-- ==== Sys2Proof/Safety.lean ====
section
/-! DEFINITION. What counts as a safe state, in the terms the statements use: the conservation ledger balances, and every byte store of the device is in its canonical form. -/

namespace Sys2Proof.Safety

open Sys2Proof.Machine

/-- 01 R15: in a pool the units issued less the units retired are the units held. The holding counters are listed by rising holder code. -/
def poolOk (p : Pool) : Prop := twf p.held = true ∧ p.balanced = true

/-- 01 R15 over the six pools and every other index. -/
def ledgerOk (d : Dev) : Prop := ∀ p, poolOk (poolOf d p)

/-- The byte stores the spec addresses: the message boards (11 R195), the SRAM (06 R93) and the user zones of the private store (19 R343). -/
def memoryOk (d : Dev) : Prop := memWf d.stl.boards = true ∧ memWf d.sram = true ∧ memWf d.psUser = true

/-- A safe device: no unit of a shared resource is lost or made, and equal memories are equal data. -/
def Inv (d : Dev) : Prop := ledgerOk d ∧ memoryOk d


/-! ### The terms the statements are written in -/

/-- The device once a request of opcode `op` has come to a command processor: it is listed under `s.nextRid`. -/
def took (s : State) (op : Nat) (r : Request) : Dev := (takeReq s.toDev op r).1

/-- The command the processor reads from it. -/
def asCmd (s : State) (op : Nat) (r : Request) : Cmd := (takeReq s.toDev op r).2

/-- The device after a command of the request has claimed the cells of its result (13 R236 step 8). -/
def claimed (s : State) (op : Nat) (r : Request) (n : Nat) (d : Dev) : Prop := claimResult (took s op r) (asCmd s op r) n = some d

/-- `s` with another device, its queue as it was. -/
def on (s : State) (d : Dev) : State := { s with toDev := d }

/-- The outcome in which the request ends in the device `d` with a status and a result. -/
def ends (s : State) (d : Dev) (st : Half) (res : Bytes := []) : Host.Outcome State Fault Refusal :=
  .next { s with toDev := finish d s.nextRid st res }

/-- 07 R115, R125: in RUN a request of the PF or a stall names the live key `k` of an owner it is bound to, in a state that lists key commands. -/
def opensKey (s : State) (r : Request) (k : LiveKey) : Prop :=
  s.glb.power = .run ∧ (r.issuer = .pf ∨ ∃ n, r.issuer = .stall n) ∧ stateR s.toDev = true ∧ s.key.tableBad = false ∧ (ownerOf s.toDev r.ownerId.toNat).isSome ∧
  bound s.toDev r.issuer r.ownerId.toNat = true ∧ hOwner r.key = r.ownerId.toNat ∧ findKey s.toDev r.key = some k ∧ k.owner.toNat = r.ownerId.toNat

/-- The same for a command that puts a key into a slot and names none: an owner it is bound to, random numbers, a slot within the shares (07 R126). -/
def opensSlot (s : State) (op : Nat) (r : Request) : Prop :=
  s.glb.power = .run ∧ (r.issuer = .pf ∨ ∃ n, r.issuer = .stall n) ∧ stateR s.toDev = true ∧ s.key.tableBad = false ∧ (ownerOf s.toDev r.ownerId.toNat).isSome ∧
  bound s.toDev r.issuer r.ownerId.toNat = true ∧ drbgReady s.toDev = true ∧ (slotCheck (took s op r) (asCmd s op r)).1 = false

/-- 13 R234: P, V and M. -/
def fromPVM (r : Request) : Prop := r.issuer = .pf ∨ r.issuer = .mgt ∨ ∃ n, r.issuer = .stall n
def fromPM (r : Request) : Prop := r.issuer = .pf ∨ r.issuer = .mgt
def fromPV (r : Request) : Prop := r.issuer = .pf ∨ ∃ n, r.issuer = .stall n

/-- 07 R115, R116: a key of the request's owner and issuer lands in slot `i`; the result is its handle followed by `more`. -/
def keyLands (s : State) (r : Request) (d : Dev) (i : Nat) (t : Byte) (u : Half) (k : Bytes) (more : Bytes := []) : State :=
  on s (finish (storeKey { d with rng := d.rng + 1 } i t u (r.ownerId.setWidth 8) (chargeOf r.issuer) k) s.nextRid ST.ok
    (b4 (mkHandle false (r.ownerId.setWidth 8).toNat (genOf d i) i) ++ more))

/-- A sequenced frame in order at port `p` has been taken: it is acknowledged in the unit's next slot (20 R372). -/
def heard (d : Dev) (p : Port) : Dev :=
  setPort { d with chn := { d.chn with heardInCycle := true } } p { portOf d p with rxNext := (portOf d p).rxNext + 1, ackDue := true }

/-- The same for a frame that is for this unit: one addressed to it wakes it from DOZE (03 R42). -/
def heardHere (d : Dev) (p : Port) (h : LinkHdr) : Dev := woken (heard d p) h

/-- The frames of the link that a unit delivers or forwards (20 R365, R371). -/
def frameOf : Instr → Option (Port × LinkHdr × FBody)
  | .data p h b => some (p, h, .data b)
  | .roster p h a u c l => some (p, h, .roster a u c l)
  | .config p h e l => some (p, h, if l.isEmpty then .configReq else .config e l)
  | .replica p h b => some (p, h, .replica b)
  | .replAck p h x => some (p, h, .replAck x)
  | .replDrop p h x => some (p, h, .replDrop x)
  | .result p h b => some (p, h, .result b)
  | .cosignReq p h g => some (p, h, .cosignReq g)
  | .cosign p h i g => some (p, h, .cosign i g)
  | _ => none

/-- A frame in order at a port that is up and heard (01 R10), for this unit and for no unit beyond it. -/
def forUs (d : Dev) (p : Port) (h : LinkHdr) : Prop :=
  hears d p = true ∧ h.seq = (portOf d p).rxNext ∧
  ((h.dest = 0xFF ∧ lastHop d p h = true) ∨ (h.dest ≠ 0xFF ∧ d.chn.addrValid = true ∧ h.dest.toNat = d.chn.addr))

/-- A frame as it is sent again. -/
def again (t : TxFrame) : TxFrame := { t with frame := { t.frame with hdr := { t.frame.hdr with retx := true } } }

/-- No request of this unit waits for another unit. -/
def allLocal (d : Dev) : Prop := ∀ e ∈ d.reqs, ∀ a, e.2.stage ≠ .remote a

/-- 20 R375: `a` is the lowest address among the FIELDED units of the highest epoch, or among all units where none is FIELDED. -/
def leads (l : List (Nat × Byte × Nat)) (a : Nat) : Prop :=
  ∃ f, f = (if l.any (fun x => x.2.1 == 3) then l.filter (fun x => x.2.1 == 3) else l) ∧
    ∃ x ∈ f, x.1 = a ∧ ∀ y ∈ f, y.2.2 ≤ x.2.2 ∧ (y.2.2 = x.2.2 → a ≤ y.1)

/-- The access to the management port that a row of its family stands for (22 R392-R401). -/
def mgtOp : Instr → Option MgtOp
  | .mctpPacket p => some (.packet p)
  | .enec => some .enec
  | .disec => some .disec
  | .rstdaa => some .rstdaa
  | .entdaa a => some (.entdaa a)
  | .setdasa a => some (.setdasa a)
  | .setnewda a => some (.setnewda a)
  | .getpid => some .getpid
  | .getbcr => some .getbcr
  | .getdcr => some .getdcr
  | .getstatus => some .getstatus
  | .alertResponseAddress => some .ara
  | .setEndpointId e => some (.message true [0x00, 0x80, 0x01, 0, e])
  | .getEndpointId => some (.message true [0x00, 0x80, 0x02])
  | .getMctpVersionSupport => some (.message true [0x00, 0x80, 0x04, 0xFF])
  | .getMessageTypeSupport => some (.message true [0x00, 0x80, 0x05])
  | .getVendorDefinedSupport => some (.message true [0x00, 0x80, 0x06, 0])
  | .getVersion => some (.message false [0x05, 0x10, 0x84, 0, 0])
  | .getCapabilities => some (.message false ([0x05, 0x12, 0xE1, 0, 0] ++ zeros 16))
  | .negotiateAlgorithms a h m => some (.message false (algBytes a h m))
  | .challenge i n => some (.message false ([0x05, 0x12, 0x83, i, 0] ++ Config.fit 32 n))
  | .getMeasurements i g n => some (.message false (measBytes i g n))
  | .command t q => some (.message false ([0x7E, 0x1D, 0x7C, 0x01, t, 0, 0, 0] ++ q))
  | .stallView t n g => some (.message false ([0x7E, 0x1D, 0x7C, 0x02, t, 0, 0, 0] ++ [n, 0, 0, 0] ++ b4 g))
  | .stallAct t n o g => some (.message false ([0x7E, 0x1D, 0x7C, 0x03, t, 0, 0, 0] ++ [n, o, 0, 0] ++ b4 g))
  | .snapshot t => some (.message false [0x7E, 0x1D, 0x7C, 0x04, t, 0, 0, 0])
  | .attestKey t => some (.message false [0x7E, 0x1D, 0x7C, 0x05, t, 0, 0, 0])
  | _ => none

/-- 22 R403, R405: the port serves an access in RUN and DOZE; in DOZE the access also wakes the device (03 R42). -/
def servedMgt (s : State) (e : Dev) : Prop :=
  (s.glb.power = .run ∨ s.glb.power = .doze) ∧ s.mgt.bankOff = false ∧ s.mgt.enabled = true ∧ inTransit s.toDev 22 = false ∧ e = wake s.toDev .mgtAccess

/-- 13 R234, R239-R254: the catalogue: opcode, request, the issuers that may send it, and whether every state admits it (L), every state but LOCKED (U), or only those with the root loaded (R). -/
def catalogue : Instr → Option (Nat × Request × Who × Bool)
  | .nop r => some (0x0101, r, { p := true, v := true, m := true, k := true }, false)
  | .infoDevice r => some (0x0102, r, { p := true, v := true, m := true }, false)
  | .infoStall r => some (0x0103, r, { p := true, v := true }, false)
  | .keyGenerate r => some (0x0201, r, { p := true, v := true }, false)
  | .keyImport r => some (0x0202, r, { p := true, v := true }, false)
  | .keyLoad r => some (0x0203, r, { p := true, v := true }, false)
  | .keyUnload r => some (0x0204, r, { p := true, v := true }, false)
  | .keyWrap r => some (0x0205, r, { p := true, v := true }, false)
  | .keySetUsage r => some (0x0206, r, { p := true, v := true }, false)
  | .keyExport r => some (0x0207, r, { p := true, v := true }, false)
  | .keyAonPut r => some (0x0208, r, { p := true, v := true }, false)
  | .keyInfo r => some (0x0209, r, { p := true, v := true }, false)
  | .keyPublic r => some (0x020A, r, { p := true, v := true }, false)
  | .pkSign r => some (0x0301, r, { p := true, v := true, k := true }, false)
  | .pkVerify r => some (0x0302, r, { p := true, v := true, k := true }, false)
  | .pkEncaps r => some (0x0303, r, { p := true, v := true, k := true }, false)
  | .pkDecaps r => some (0x0304, r, { p := true, v := true, k := true }, false)
  | .pkAgree r => some (0x0305, r, { p := true, v := true, k := true }, false)
  | .pkMacRun r => some (0x0306, r, { p := true, v := true, k := true }, false)
  | .symCipher r => some (0x0401, r, { p := true, v := true, k := true }, false)
  | .symMac r => some (0x0402, r, { p := true, v := true, k := true }, false)
  | .hash r => some (0x0403, r, { p := true, v := true, k := true }, false)
  | .symKdf r => some (0x0404, r, { p := true, v := true, k := true }, false)
  | .symKw r => some (0x0405, r, { p := true, v := true, k := true }, false)
  | .symRng r => some (0x0406, r, { p := true, v := true, k := true }, false)
  | .ownerCreate r => some (0x0501, r, { p := true }, false)
  | .ownerDelete r => some (0x0502, r, { p := true }, false)
  | .ownerBind r => some (0x0503, r, { p := true }, false)
  | .ownerUnbind r => some (0x0504, r, { p := true }, false)
  | .ownerSetPolicy r => some (0x0505, r, { p := true }, false)
  | .quorumStatus r => some (0x0506, r, { p := true, m := true }, false)
  | .quorumCancel r => some (0x0507, r, { p := true }, false)
  | .bwLoadManifest r => some (0x0601, r, { p := true }, false)
  | .bwSeal r => some (0x0602, r, { p := true, m := true }, false)
  | .bwGetJournal r => some (0x0603, r, { p := true, v := true, m := true }, false)
  | .logAppend r => some (0x0604, r, { p := true, v := true }, false)
  | .logRead r => some (0x0605, r, { p := true, m := true }, true)
  | .logStatus r => some (0x0606, r, { p := true, m := true }, true)
  | .chnStatus r => some (0x0701, r, { p := true, m := true }, false)
  | .chnReplicate r => some (0x0702, r, { p := true, v := true }, false)
  | .chnAdmit r => some (0x0703, r, { p := true }, false)
  | .chnSetEpoch r => some (0x0704, r, { p := true }, false)
  | .lcGetState r => some (0x0801, r, { p := true, v := true, m := true }, true)
  | .lcTransition r => some (0x0802, r, { p := true }, false)
  | .lcResume r => some (0x0803, r, { p := true }, true)
  | .dbgChallenge r => some (0x0804, r, { p := true }, false)
  | .dbgResponse r => some (0x0805, r, { p := true }, false)
  | .pkeSetChannel r => some (0x0F01, r, { p := true }, false)
  | .ledgerRead r => some (0x0F02, r, { p := true }, false)
  | .fwStage r => some (0x0F03, r, { p := true }, false)
  | .fwActivate r => some (0x0F04, r, { p := true }, false)
  | .selfTest r _ => some (0x0F05, r, { p := true }, false)
  | _ => none

/-- No request, no lane and no operation of an engine holds a key. -/
def atRest (d : Dev) : Prop := d.reqs = [] ∧ d.sym.lanes = [] ∧ d.pkeWait = [] ∧ ∀ e, (eng d e).op = none ∧ (eng d e).stopped = none

/-- 03 R50, R51: the watchdog has counted a timeout of the island's crossing, which takes words again. -/
def timedOut (s : State) (i : Island) : Dev :=
  countTimeout { s.toDev with rng := s.rng + 1, glb := { s.glb with xwdStalled := tdel s.glb.xwdStalled (islandCode i - 1) } } i

/-- 24 R425: the PF's write of this cycle stands in the register at offset `o` of the ring page of stall `n`. -/
def pfStands (s : State) (n : Fin 64) (o : Nat) : Prop := s.stl.pfAt = s.now ∧ tgetD s.stl.pfWrote (0x2000 + 64 * n.val + o) 0 = 0xFFFFFFFF

/-- The device with a write of the whole register noted for this cycle where it is the PF's. -/
def noted (s : State) (side : Side) (n : Fin 64) (o : Nat) : Dev :=
  match side with
  | .vf => s.toDev
  | .pf => { s.toDev with stl := { s.stl with pfAt := s.now, pfWrote := tset (if s.stl.pfAt = s.now then s.stl.pfWrote else []) (0x2000 + 64 * n.val + o) 0xFFFFFFFF } }

/-- No tamper record waits for the Logbook's writer (09 R167). -/
def noTamperRecord (s : State) : Prop := (∀ r ∈ s.evr.queue, r.after ≠ .tamper) ∧ ∀ x, s.evr.writing = some x → x.1.after ≠ .tamper

/-- What a WDT, SOFT or secure reset has done to `s`, with the causes `c` (03 R45, R450, R451; 23 R418). -/
def warmLeaves (s t : State) (c : Byte) : Prop :=
  t.pending = s.pending ∧ t.glb.resetCause = s.glb.resetCause ||| c ∧ t.glb.raised = s.glb.raised ||| c ∧ t.glb.power = .run ∧ t.glb.pcc = s.glb.pcc ∧ t.glb.straps = s.glb.straps ∧ t.sram = [] ∧ t.psUser = s.psUser ∧
  t.reqs = [] ∧ t.comps = [] ∧ t.pkeWait = [] ∧ t.sym.lanes = [] ∧ t.hif.tags = [] ∧ t.crd.session = none ∧ t.glb.fatal = none ∧ t.evr.isOpen = true ∧ (noTamperRecord s → t.tmp = s.tmp) ∧
  t.tmp.lid = s.tmp.lid ∧ t.tmp.mesh = s.tmp.mesh ∧ t.tmp.mon = s.tmp.mon ∧ t.tmp.resetDue = s.tmp.resetDue ∧ t.tmp.hold = s.tmp.hold ∧ t.dbg.grant = 0 ∧ t.dbg.token = none ∧ t.dbg.checking = false ∧
  (∀ n, (stall t.toDev n).st = .disabled) ∧ (∀ p, (poolOf t.toDev p).held = []) ∧
  (s.ps.fwPending = false → t.glb.boot = if Config.fwSigValid (tgetD s.ps.fwSlot s.ps.fwActive []) then .warm else .halted true)

/-- 09 R165: the watch with a further source latched: the first cause keeps its stamp; an event in VAULT sets IN_VAULT (R166), and one that comes while the record of an earlier cause waits is kept for the record of its own reset (R167). -/
def latched (d : Dev) (t : Tmp) (lid : BitVec 4) (mesh : Byte) (mon : BitVec 4) (vault held : Bool) : Tmp :=
  let t := if t.cValid then t else { t with cValid := true, stampPcc := d.glb.pcc, stampTime := opTime d }
  { t with cInVault := t.cInVault || vault,
           cLater := if t.cQueued then some (match t.cLater with
             | none => (lid, mesh, mon, d.glb.pcc, opTime d)
             | some (l, m, x, p, q) => (l ||| lid, m ||| mesh, x ||| mon, p, q)) else none,
           cLid := t.cLid ||| lid, cMesh := t.cMesh ||| mesh, cMon := t.cMon ||| mon, resetDue := true, clearSince := none,
           cZdone := held && !t.cZpart, cZpart := !held || t.cZpart }

/-- 09 R160, R162, R165: a tamper event outside VAULT: the watch is `w`, no secret is left, and the device is awake or waking. -/
def zeroized (s t : State) (w : Tmp) : Prop :=
  t.tmp = w ∧ t.key.slots = [] ∧ t.key.bank = [] ∧ t.key.root = 0 ∧ t.key.replicas = [] ∧ (∀ l, l < 12 → tget t.sym.lanes l = none) ∧ t.sym.rngInst = false ∧ t.lc.job = none ∧
  t.dbg.token = none ∧ t.dbg.checking = false ∧ (∀ c ∈ [t.crd.a, t.crd.b], c.exch = none) ∧
  (∀ e, e < 4 → (eng t.toDev e).mem = [] ∧ (eng t.toDev e).acc = 0) ∧ (∀ a, 0x20000000 ≤ a → a < 0x20010000 → memRead t.sram a = 0) ∧
  (∀ a, a < 0x20000000 ∨ 0x20010000 ≤ a → memRead t.sram a = memRead s.sram a) ∧
  t.glb = (wake s.toDev .tamper).glb ∧ t.psUser = s.psUser ∧ t.pending = s.pending

/-- 01 R10, 10 R176, R177, R181, R182, R185; 03 R42, R53: the host reaches a function that serves requests. -/
def hostReady (s : State) (f : Func) : Prop :=
  s.glb.power = .run ∧ s.hif.up = true ∧ crossStalled s.toDev .pcie = false ∧ s.glb.boot = .done ∧ s.glb.hotWait = false ∧ funcBusy s.toDev f = false ∧ s.hif.d3hot = false ∧ memOn s.toDev f = true

/-- 11 R190, R196: stall `n` of `t` is `x` after a change of STATE, its header shows it, and no other stall, request, cell, unit or key has changed. -/
def stallMoves (s t : State) (n : Nat) (x : Stall) : Prop :=
  stall t.toDev n = x ∧ (∀ m, m ≠ n → stall t.toDev m = stall s.toDev m) ∧ memBytes t.stl.boards (4096 * n) 64 = boardHeader t.toDev n ∧
  (∀ a, a < 4096 * n ∨ 4096 * n + 64 ≤ a → memRead t.stl.boards a = memRead s.stl.boards a) ∧ t.mgt.alert = s.mgt.alert ||| 1 ∧
  t.ldg = s.ldg ∧ t.reqs = s.reqs ∧ t.comps = s.comps ∧ t.yrd = s.yrd ∧ t.key = s.key ∧ t.evr = s.evr ∧ t.chn = s.chn ∧ t.pending = s.pending

/-- 11 R189, R200: the reset `j` of stall `n` has begun: STATE, the job, the other stalls, any waiting power request gone, and in squash mode no request of the stall left. -/
def stallResets (s t : State) (n : Nat) (j : StallJob) : Prop :=
  (stall t.toDev n).st = (if j.removal then .removing else .resetting) ∧ (stall t.toDev n).job = some j ∧ (stall t.toDev n).status = ST.ok ∧
  (stall t.toDev n).gen = nextGen (stall s.toDev n).gen ∧ (∀ m, m ≠ n → (stall t.toDev m).st = (stall s.toDev m).st) ∧ t.glb.req = none ∧
  (j.mode = .squash → ∀ e ∈ t.reqs, issuerIdx e.2.issuer ≠ n) ∧ (∀ e ∈ t.reqs, issuerIdx e.2.issuer = n → undispatched e.2 = false) ∧ t.pending = s.pending

/-- Registers of one page that read `v`. -/
def rowsOf (p : Page) (v : Word) (l : List Nat) : List (Page × Nat × Word) := l.map fun o => (p, o, v)

/-- 24 R427: the registers whose reset value the index gives as a number, with that value (of a run of instances the first and the last). LIMIT[11:0] reads 0xFFF (06). -/
def resetValuesA : List (Page × Nat × Word) :=
  rowsOf .glb 0 [0x18, 0x84, 0xE4, 0xE8, 0xDC, 0xD4, 0xC4, 0xC8, 0xCC, 0xD0, 0xC0, 0x10, 0x20, 0x60, 0x7C, 0x50] ++ rowsOf .glb 0x5000 [0xD8] ++
  rowsOf .sec 0 [0x38, 0x200, 0x208, 0x20C, 0x270, 0x278, 0x27C, 0x34, 0x14, 0x100, 0x108, 0x1F0, 0x1F8, 0x30, 0x24, 0x44, 0x40, 0x48] ++
  rowsOf .sec 0xFFF [0x104, 0x1F4, 0x204, 0x274] ++ rowsOf .sec 0x0003FF00 [0x10] ++ rowsOf .sec 0x8000 [0x20] ++ rowsOf .sec 0x1000 [0x04] ++ rowsOf .sec 0x80 [0x00] ++
  rowsOf .hif 0 [0x18, 0x1C, 0x10, 0x00] ++ rowsOf .key 0 [0x10, 0x3C, 0x50, 0x44, 0x40, 0x48, 0x4C, 0x00] ++ rowsOf .key 0x10000000 [0x04] ++
  rowsOf (.pke 0) 0 [0x08, 0x10, 0x0C, 0x04, 0x00, 0x14] ++ rowsOf (.pke 3) 0 [0x08, 0x10, 0x0C, 0x04, 0x00, 0x14] ++ rowsOf (.pke 0) 1000 [0x18] ++ rowsOf (.pke 3) 1000 [0x18]
def resetValuesB : List (Page × Nat × Word) :=
  rowsOf .sym 0 [0x10, 0x14, 0x00, 0x04, 0x08] ++ rowsOf .crd 0 [0x14, 0x10, 0x00, 0x04] ++ rowsOf .tmp 0 [0x08] ++
  rowsOf .bwt 0 [0x08, 0x10, 0x0C, 0x00] ++ rowsOf .evr 0 [0x08, 0x0C, 0x10, 0x14, 0x00] ++
  rowsOf .chn 0 [0x3C, 0x34, 0x38, 0x30, 0x04, 0x14, 0x10, 0x100, 0x1FC, 0x28, 0x2C] ++ rowsOf .chn 0x7D0 [0x08] ++ rowsOf .chn 0xC0000000 [0x00] ++ rowsOf .chn 0x00200020 [0x18] ++
  rowsOf (.tmr 0) 0 [0x14, 0x08, 0x00, 0x04, 0x10] ++ rowsOf (.tmr 0) 0x00010000 [0x0C] ++ rowsOf (.tmr 15) 0 [0x14, 0x08, 0x00, 0x04, 0x10] ++ rowsOf (.tmr 15) 0x00010000 [0x0C] ++
  rowsOf .mgt 0 [0x08, 0x0C, 0x04] ++ rowsOf .mgt 0x4E [0x00] ++
  rowsOf .cls 0 [0x140, 0x120, 0x13C, 0x20, 0x28, 0x24, 0x08, 0x00, 0x200, 0x204, 0x278, 0x27C, 0x280, 0x284, 0x2F8, 0x2FC, 0x144, 0x44, 0x40, 0x2C, 0x100, 0x11C] ++
  rowsOf .cls 0x80000000 [0x04] ++ rowsOf .cls 0xFFFF [0x184, 0x1BC] ++ rowsOf .yrd 0 [0x20, 0x08, 0x0C, 0x40, 0x7C, 0x10, 0x04] ++ rowsOf .yrd 0x8000 [0x00]
def resetValuesC : List (Page × Nat × Word) :=
  rowsOf (.yardWin 0 .pf) 0 [0x0, 0xC, 0x4] ++ rowsOf (.yardWin 0 .pf) 0x00010000 [0x8] ++ rowsOf (.yardWin 511 .pf) 0 [0x0, 0xC, 0x4] ++ rowsOf (.yardWin 511 .pf) 0x00010000 [0x8] ++
  rowsOf .stl 0 [0x08, 0x0C] ++ rowsOf .stl 0x66 [0x00] ++
  rowsOf (.stallPage 0 .pf) 0 [0x08, 0x1C, 0x04, 0x0C, 0x38, 0x18, 0x14, 0x28, 0x2C, 0x30, 0x34, 0x20, 0x24] ++ rowsOf (.stallPage 0 .pf) 8 [0x10] ++ rowsOf (.stallPage 0 .pf) 0x80000000 [0x00] ++
  rowsOf (.stallPage 63 .pf) 0 [0x08, 0x1C, 0x04, 0x0C, 0x38, 0x18, 0x14, 0x28, 0x2C, 0x30, 0x34, 0x20, 0x24] ++ rowsOf (.stallPage 63 .pf) 8 [0x10] ++ rowsOf (.stallPage 63 .pf) 0x80000000 [0x00] ++
  rowsOf (.ringPage (.stall 0) .pf) 0 [0x08, 0x0C, 0x1C, 0x10, 0x24, 0x00, 0x04, 0x18, 0x14] ++ rowsOf (.ringPage (.stall 0) .pf) 0x00010000 [0x20] ++
  rowsOf (.ringPage (.stall 63) .pf) 0 [0x08, 0x0C, 0x1C, 0x10, 0x24, 0x00, 0x04, 0x18, 0x14] ++ rowsOf (.ringPage (.stall 63) .pf) 0x00010000 [0x20] ++
  rowsOf (.ringPage .pf .pf) 0 [0x08, 0x0C, 0x1C, 0x10, 0x24, 0x00, 0x04, 0x18, 0x14] ++ rowsOf (.ringPage .pf .pf) 0x00010000 [0x20]

end Sys2Proof.Safety
end

