-- ==== Sys2Proof/WellFormed.lean ====
section
/-! DEFINITION. Which commands the outside can put in: the lengths and ranges the spec gives the operands of a command. `exec` is total and answers for the others too; a statement that needs one of these bounds takes it from here. -/

namespace Sys2Proof

/-- 12 R219, R220: parameters and payload of one request fill at most the 16,384 bytes of its outer payload. -/
def Request.wf (r : Request) : Bool := decide (r.params.length ≤ 16384)

/-- 20 R365: LEN is at most 1516 in a frame, HOPS below 16, and an address is 0-15 or 0xFF. -/
def LinkHdr.wf (h : LinkHdr) : Bool :=
  decide (h.hops < 16) && (decide (h.origin.toNat < 16) || h.origin == 0xFF) && (decide (h.dest.toNat < 16) || h.dest == 0xFF)

/-- 20 R374: the fixed widths of a STATUS body. -/
def StatusBody.wf (b : StatusBody) : Bool :=
  b.devId.length == 16 && b.admDigest.length == 48 && b.attestPub.length == 96

/-- 20 R378: the nonce has 32 bytes and the key form carries a 16-byte tag. -/
def ReplicaBody.wf (b : ReplicaBody) : Bool :=
  b.nonce.length == 32 && decide (16 ≤ b.cipher.length) && decide (43 + b.cipher.length ≤ 1516)

/-- 20 R380: the first part carries the 32-byte completion entry, a later one none. -/
def ResultBody.wf (b : ResultBody) : Bool :=
  (if b.first then b.completion.length == 32 && b.offset == 0 else b.completion.isEmpty) && decide (b.result.length ≤ 1500)

/-- 08 R142: serial and public key of a card. -/
def CardDesc.wf (c : CardDesc) : Bool := c.serial.length == 8 && c.pub.length == 96

/-- 22 R393: a packet carries at most 64 bytes of a message. -/
def McPacket.wf (p : McPacket) : Bool := decide (p.payload.length ≤ 64)

/-- 06 R107: only a processor fetches instructions, and it fetches by reading; only a write carries the operand of an atomic access. -/
def Master.wf (write : Bool) : Master → Bool
  | .host _ => true
  | .cp _ _ u => (match u.kind with | .data => true | .fetch => !write | .atomic => write)
  | .hw _ u => (match u.kind with | .data => true | .fetch => false | .atomic => write)

/-- 24 R424: the sizes of a register access. -/
def sizeOk (size : Nat) : Bool := size == 1 || size == 2 || size == 4 || size == 8

/-- The commands whose operands have the lengths and ranges of the spec. -/
def Instr.wf : Instr → Bool
  | .nop r | .infoDevice r | .infoStall r | .keyGenerate r | .keyImport r | .keyLoad r | .keyUnload r | .keyWrap r | .keySetUsage r
  | .keyExport r | .keyAonPut r | .keyInfo r | .keyPublic r | .pkSign r | .pkVerify r | .pkEncaps r | .pkDecaps r | .pkAgree r
  | .pkMacRun r | .symCipher r | .symMac r | .hash r | .symKdf r | .symKw r | .symRng r | .ownerCreate r | .ownerDelete r | .ownerBind r
  | .ownerUnbind r | .ownerSetPolicy r | .quorumStatus r | .quorumCancel r | .bwLoadManifest r | .bwSeal r | .bwGetJournal r
  | .logAppend r | .logRead r | .logStatus r | .chnStatus r | .chnReplicate r | .chnAdmit r | .chnSetEpoch r | .lcGetState r
  | .lcTransition r | .lcResume r | .dbgChallenge r | .dbgResponse r | .pkeSetChannel r | .ledgerRead r | .fwStage r | .fwActivate r => r.wf
  | .selfTest r _ => r.wf
  | .testUnlock token _ _ _ => token.length == 16
  | .registerWrite m _ size value => m.wf true && sizeOk size && value.length == size
  | .rcFieldRead m _ size => m.wf false && sizeOk size
  | .linkTrained width speed => (width.val == 1 || width.val == 2 || width.val == 4) && decide (1 ≤ speed.val)
  | .configRequest _ offset _ => offset % 4 == 0 && decide (offset < 4096)
  | .dmaCompletion tag _ => decide (tag < 256)
  | .dmaCompletionError tag _ => decide (tag < 256)
  | .completionTimeout tag => decide (tag < 256)
  | .entryFetch _ n => decide (n ≤ 16384)
  | .entryReceived _ entry => entry.length == 64
  | .partitionChange n => decide (n.val ≤ 6)
  | .issue _ c => c.wf
  | .present _ c => c.wf
  | .cardReply _ _ c => c.wf
  | .hostFlashWrite _ a n => decide (a + n ≤ 2 ^ 32)
  | .arrayRead r => !r.bytes.isEmpty && decide (r.addr + r.bytes.length ≤ 2 ^ 32)
  | .packetEnd _ b => !b.isEmpty
  | .fragmentReceived _ b => decide (b.length ≤ 4104)
  | .data _ h r => h.wf && decide (r.length ≤ 1516)
  | .status _ h b => h.wf && b.wf
  | .enumerate _ h g _ => h.wf && g.length == 16
  | .enumBack _ h g _ => h.wf && g.length == 16
  | .roster _ h g n _ _ => h.wf && g.length == 16 && decide (n ≤ 16)
  | .config _ h _ l => h.wf && l.all (·.length == 16)
  | .replica _ h b => h.wf && b.wf
  | .replAck _ h _ => h.wf
  | .replDrop _ h _ => h.wf
  | .result _ h b => h.wf && b.wf
  | .cosignReq _ h g => h.wf && g.length == 48
  | .cosign _ h i g => h.wf && i.length == 16 && g.length == 96
  | .mctpPacket p => p.wf
  | .challenge _ n => n.length == 32
  | .getMeasurements _ signed n => if signed then n.length == 32 else n.isEmpty
  | _ => true

end Sys2Proof
end

