-- ==== Sys2Proof/Certificates/Slice0/Obligations.lean ====
section
/-! DEFINITION. The statements about the block: what each command does to State, for every command, and what every step keeps. Each docstring says what is stated and what in it is the model's own choice, by its log entry. -/

open Sys2Proof Sys2Proof.Machine Sys2Proof.Safety

/-- A step runs the command at the front of the queue. A step with a command at the front of the queue is that command run over the rest of the queue. Every command answers a next state and leaves the queue alone. On an empty queue a step passes one fabric cycle (the model's choice, log 1); where in it no Yard queue is due to be judged, no crossing has stalled, the watchdog has not run down and no reseed is due, it changes nothing but clocks, counters that run, interrupts taken and the wake they cause. -/
def Obligations.StepRunsTheFront : Prop :=
  (∀ (c : Instr) (s : State) (rest : List Instr), step { s with pending := c :: rest } = exec c { s with pending := rest }) ∧
  (∀ (c : Instr) (s : State), ∃ d : Dev, exec c s = .next { s with toDev := d }) ∧
  (∀ s : State, s.pending = [] → ∃ d : Dev, step s = .next (on s d) ∧ d.now = s.now + 1 ∧
    (s.yrd.judge = [] → s.glb.xwdStalled = [] → swdtOver s.toDev = false → reseedDue { s.toDev with now := s.now + 1 } = false →
      d.ldg = s.ldg ∧ d.reqs = s.reqs ∧ d.comps = s.comps ∧ d.stl = s.stl ∧ d.yrd = s.yrd ∧ (s.glb.power = .run → d.hif = s.hif ∧ d.glb = s.glb) ∧ d.cls = s.cls ∧ d.key = s.key ∧ d.pke = s.pke ∧ d.pkeWait = s.pkeWait ∧
      d.sym = s.sym ∧ d.lc = s.lc ∧ d.otp = s.otp ∧ d.dbg = s.dbg ∧ d.crd = s.crd ∧ d.tmp = s.tmp ∧ d.bwt = s.bwt ∧ d.evr = s.evr ∧ d.mgt = s.mgt ∧ d.ps = s.ps ∧ d.sram = s.sram ∧ d.psUser = s.psUser))

/-- What reset leaves. In the state after reset every register of the tables Safety.resetValuesA, B and C reads the value the register index gives it (of a run of instances the first and the last are read), nothing waits, no request is listed, SRAM and boards list nothing, every stall is DISABLED, and the safety invariant holds. That the state before the first start-up is OFF with these values is the model's choice (log 3). -/
def Obligations.ResetValues : Prop :=
  (∀ x ∈ Safety.resetValuesA ++ Safety.resetValuesB ++ Safety.resetValuesC, readReg State.reset.toDev x.1 x.2.1 = x.2.2) ∧
  State.reset.pending = [] ∧ State.reset.glb.power = .off ∧ State.reset.reqs = [] ∧ State.reset.sram = [] ∧ State.reset.stl.boards = [] ∧ (∀ n, (stall State.reset.toDev n).st = .disabled) ∧
  Safety.Inv State.reset.toDev

/-- No step loses or makes a unit of a conserved pool. From every state in which each pool's holders are listed by rising code and ISSUED - RETIRED = HELD, a step that answers a next state, with any command at the front of the queue or none, leaves every pool so. The form of the holder table is the model's. -/
def Obligations.StepKeepsTheLedger : Prop :=
  ∀ s t : State, Safety.ledgerOk s.toDev → step s = .next t → Safety.ledgerOk t.toDev

/-- Every step keeps the byte stores in their one canonical form. From every state whose boards, SRAM and user zones of the private store are listed by strictly rising address with no zero byte, a step leaves them so, whatever command it runs. The canonical form is the model's (an unlisted byte reads 0). -/
def Obligations.StepKeepsTheByteStores : Prop :=
  ∀ s t : State, Safety.memoryOk s.toDev → step s = .next t → Safety.memoryOk t.toDev

/-- The catalogue's issuers and LOCKED gate every command. For every command of the catalogue that its processor runs at once: from an issuer its row does not list it ends with ST_DENIED; from a listed issuer in LOCKED it ends with ST_LOCKED, unless the row is one of those LOCKED admits. It changes nothing else but the request's own listing and completion. -/
def Obligations.CommandsAreGated : Prop :=
  ∀ (i : Instr) (s : State) (op : Nat) (r : Request) (who : Who) (locked : Bool), catalogue i = some (op, r, who, locked) →
    (s.glb.power = .doze ∨ s.glb.power = .standby →
      ∃ f, (op ≠ 0x0F05 → f = 0) ∧ exec i s = .next (on s (holdAccess s.toDev (.request op r f)))) ∧
    (s.glb.power = .run → mustWait (took s op r) (asCmd s op r) = false →
    (listed who r.issuer = false → exec i s = ends s (took s op r) ST.denied) ∧
    (listed who r.issuer = true → s.lc.state = 0xEE → locked = false → exec i s = ends s (took s op r) ST.locked))

/-- Information commands answer their tables. NOP completes with ST_OK, or waits for the earlier commands of its issuer; INFO_DEVICE, INFO_STALL, QUORUM_STATUS, LC_GET_STATE, LEDGER_READ and CHN_STATUS end with ST_OK and the bytes of their tables, and change nothing but the claim of their result; INFO_STALL of another stall ends with ST_DENIED for a stall. -/
def Obligations.InfoCommandsAnswer : Prop :=
  ∀ (r : Request) (s : State) (d : Dev), s.glb.power = .run → r.key = 0 → r.ownerId = 0 →
    (r.issuer ≠ .secure → s.lc.state ≠ 0xEE → r.params = [] → earlierOf (took s 0x0101 r) (asCmd s 0x0101 r) = [] →
      exec (.nop r) s = .next (on s (finish (took s 0x0101 r) s.nextRid ST.ok))) ∧
    (r.issuer ≠ .secure → s.lc.state ≠ 0xEE → r.params = [] → earlierOf (took s 0x0101 r) (asCmd s 0x0101 r) ≠ [] →
      exec (.nop r) s = .next (on s (setReq (took s 0x0101 r) s.nextRid
        { issuer := r.issuer, sqIndex := r.sqIndex, rawTag := r.tag, dataCap := r.dataCap, stage := .nopWait (earlierOf (took s 0x0101 r) (asCmd s 0x0101 r)) }))) ∧
    (fromPVM r → s.lc.state ≠ 0xEE → r.params = [] → 64 ≤ r.dataCap → claimed s 0x0102 r 64 d →
      exec (.infoDevice r) s = .next (on s (finish d s.nextRid ST.ok
        (Config.deviceId ++ [0xB0, d.lc.state, BitVec.ofNat 8 d.stl.partCur, if d.chn.addrValid then BitVec.ofNat 8 d.chn.addr else 0xFF] ++
          b4 d.key.fwVersion ++ b8 d.chn.epoch ++ b4 d.glb.pcc ++ [BitVec.ofNat 8 d.chn.units, BitVec.ofNat 8 (roleCode d.chn.role), 0, 0] ++
          d.key.fwMeas.take 24)))) ∧
    (∀ n : Fin 64, r.issuer = .pf ∨ r.issuer = .stall n → s.lc.state ≠ 0xEE → r.params = [BitVec.ofNat 8 n.val, 0, 0, 0] → 32 ≤ r.dataCap → claimed s 0x0103 r 32 d →
      exec (.infoStall r) s = .next (on s (finish d s.nextRid ST.ok
        (b4 (rStlState d n.val) ++ b4 (stall d n.val).gen ++ leBytes 4 (heldBy d 1 n.val) ++ leBytes 4 (cellShare d n.val) ++
          leBytes 2 (slotsOf d (.stall n.val)) ++ leBytes 2 (slotShareOf d n.val) ++ leBytes 2 (heldBy d 0 n.val) ++
          leBytes 2 (if (stall d n.val).ring.en then 2 ^ (stall d n.val).ring.depthLog2 else 0) ++
          leBytes 4 (stall d n.val).logUse ++ leBytes 4 (logShareOf d n.val))))) ∧
    (∀ n m : Fin 64, r.issuer = .stall m → n ≠ m → s.lc.state ≠ 0xEE → r.params = [BitVec.ofNat 8 n.val, 0, 0, 0] → 32 ≤ r.dataCap →
      exec (.infoStall r) s = .next (on s (finish (took s 0x0103 r) s.nextRid ST.denied))) ∧
    (fromPM r → s.lc.state ≠ 0xEE → r.params = [] → 8 ≤ r.dataCap → claimed s 0x0506 r 8 d →
      exec (.quorumStatus r) s = .next (on s (finish d s.nextRid ST.ok (b4 (rQStatus d) ++ b4 (rQRemain d))))) ∧
    (fromPVM r → r.params = [] → 8 ≤ r.dataCap → claimed s 0x0801 r 8 d →
      exec (.lcGetState r) s = .next (on s (finish d s.nextRid ST.ok (b4 (rLcState d) ++ b4 (rDbgStatus d))))) ∧
    (r.issuer = .pf → s.lc.state ≠ 0xEE → r.params = [] → 256 ≤ r.dataCap → claimed s 0x0F02 r 256 d →
      exec (.ledgerRead r) s = .next (on s (finish d s.nextRid ST.ok
        (b2 0x1E01 ++ [6, d.ldg.lastInit] ++ b4 d.ldg.initPcc ++ leBytes 8 d.ldg.checks.toNat ++ poolIdx.flatMap (poolBytes d) ++ zeros 48)))) ∧
    (fromPM r → s.lc.state ≠ 0xEE → r.params = [] → 256 ≤ r.dataCap → claimed s 0x0701 r 256 d →
      exec (.chnStatus r) s = .next (on s (finish d s.nextRid ST.ok (chnView d))))

/-- Commands on a live key. For a PF or a stall that names a live key of an owner it is bound to: KEY_INFO, KEY_PUBLIC of a type that needs no engine, KEY_UNLOAD, KEY_SET_USAGE (removing bits, and adding bits behind the quorum gate), KEY_WRAP, KEY_EXPORT and KEY_AON_PUT have their effect and results. The random bytes of a wrap and of a mask are free values (log 5), the place in the bank is free (log 8). -/
def Obligations.KeyCommandsOnALiveKey : Prop :=
  ∀ (r : Request) (s : State) (k : LiveKey), opensKey s r k →
    (∀ d, r.params = [] → 8 ≤ r.dataCap → claimed s 0x0209 r 8 d →
      exec (.keyInfo r) s = .next (on s (finish d s.nextRid ST.ok
        ([k.type, 0] ++ b2 k.usage ++ leBytes 2 k.bytes.length ++ leBytes 2 ((match k.ref with | .bank _ => 1 | .slot _ => 0) + if k.stale then 2 else 0))))) ∧
    (r.params = [] → exec (.keyUnload r) s = .next (on s (finish (dropRef (took s 0x0204 r) k.ref r.key) s.nextRid ST.ok))) ∧
    (∀ u : Half, r.params = b2 u ++ [0, 0] → (u &&& 0xF000) = 0 → usageClash k.type u = false → (u &&& ~~~k.usage) = 0 →
      exec (.keySetUsage r) s = .next (on s (finish (setUsage (took s 0x0206 r) k.ref u) s.nextRid ST.ok))) ∧
    (∀ (u : Half) (d : Dev), r.params = b2 u ++ [0, 0] → (u &&& 0xF000) = 0 → usageClash k.type u = false → (u &&& ~~~k.usage) ≠ 0 →
      quorumGate (took s 0x0206 r) (asCmd s 0x0206 r) r.ownerId.toNat = (d, none) →
      exec (.keySetUsage r) s = .next (on s (finish (setUsage d k.ref u) s.nextRid ST.ok))) ∧
    (∀ d, r.params = [] → r.keyMask = false → hAon r.key = false → k.usage.getLsbD uQuorum = false → drbgReady s.toDev = true → 64 + k.bytes.length ≤ r.dataCap →
      ∀ w, ownerOf s.toDev r.ownerId.toNat = some w → claimed s 0x0205 r (64 + k.bytes.length) d →
      exec (.keyWrap r) s = .next (on s (
        let d := touchKey d k.ref
        let d := { d with key := { d.key with owners := tset d.key.owners r.ownerId.toNat { w with wraps := w.wraps + 1 } } }
        let d := saveTable d
        let iv := draw d 12
        let h := b2 0xB401 ++ [k.type, 0] ++ b2 k.usage ++ leBytes 2 k.bytes.length ++ [k.owner, w.mode, d.lc.state, 0] ++ iv.1 ++
          (if w.mode == 0 then zeros 8 else d.key.fwMeas.take 8) ++ b8 (w.wraps + 1) ++ zeros 8
        finish iv.2 s.nextRid ST.ok (h ++ Config.gcmCt (ownerKey iv.2 "DX48 BLOB" r.ownerId.toNat) iv.1 h k.bytes ++
          Config.gcmTag (ownerKey iv.2 "DX48 BLOB" r.ownerId.toNat) iv.1 h k.bytes)))) ∧
    (∀ (dst : Byte) (q d : Dev), r.params = [dst, 0, 0, 0] → r.keyMask = false → k.usage.getLsbD uExport = true → (ownerOf s.toDev dst.toNat).isSome → drbgReady s.toDev = true →
      16 + Config.kwLen 1 (16 + k.bytes.length) ≤ r.dataCap →
      quorumGate (took s 0x0207 r) (asCmd s 0x0207 r) r.ownerId.toNat = (q, none) →
      claimResult q (asCmd s 0x0207 r) (16 + Config.kwLen 1 (16 + k.bytes.length)) = some d →
      exec (.keyExport r) s = .next (on s (finish (touchKey d k.ref) s.nextRid ST.ok
        (packHeader k.type k.usage k.bytes.length k.owner dst ++
          Config.kwWrap 1 (ownerKey d "DX48 EXPORT" dst.toNat) (packHeader k.type k.usage k.bytes.length k.owner dst ++ k.bytes))))) ∧
    (∀ (b : Nat) (d : Dev), r.params = [] → r.keyMask = false → k.bytes.length ≤ 96 → k.usage.getLsbD uAon = true → k.usage.getLsbD uQuorum = false → drbgReady s.toDev = true →
      bankRoom s.toDev r.ownerId.toNat = true → 4 ≤ r.dataCap → claimed s 0x0208 r 4 d → pickBank d = some b →
      exec (.keyAonPut r) s = .next (on s (
        let m := draw (touchKey d k.ref) k.bytes.length
        finish { m.2 with key := { m.2.key with bank := tset m.2.key.bank b { type := k.type, usage := k.usage, owner := k.owner, masked := xorBytes k.bytes m.1, mask := m.1 } } }
          s.nextRid ST.ok (b4 (mkHandle true k.owner.toNat (bankGenOf m.2 b) b))))) ∧
    (∀ (d : Dev), k.type ≠ 0x40 → publicType k.type = true → r.params = leBytes 4 0 → r.keyMask = false → k.usage.getLsbD uQuorum = false → drbgReady s.toDev = true →
      pubSize k.type k.bytes.length 0 ≤ r.dataCap → claimed s 0x020A r (pubSize k.type k.bytes.length 0) d →
      exec (.keyPublic r) s = .next (on s (finish (touchKey d k.ref) s.nextRid (publicResult k.type (pubSize k.type k.bytes.length 0) k.bytes []).1
        (publicResult k.type (pubSize k.type k.bytes.length 0) k.bytes []).2))) ∧
    (∀ d, r.keyMask = true → k.usage.getLsbD uQuorum = false → drbgReady s.toDev = true →
      (r.params = [] → hAon r.key = false → 64 + k.bytes.length ≤ r.dataCap → claimed s 0x0205 r (64 + k.bytes.length) d → exec (.keyWrap r) s = .next (on s (maskFault d))) ∧
      (r.params = [] → k.bytes.length ≤ 96 → k.usage.getLsbD uAon = true → bankRoom s.toDev r.ownerId.toNat = true → 4 ≤ r.dataCap → claimed s 0x0208 r 4 d →
        exec (.keyAonPut r) s = .next (on s (maskFault d))))

/-- Commands that put a key into a slot. KEY_GENERATE of a symmetric or seed type, KEY_IMPORT in its three forms and KEY_LOAD store the key of the requested type and usage in a free slot and answer its handle; a wrapped key that does not open, does not match its header or is not valid for its type ends with the status of its failure and stores nothing. Which free slot is taken and what random bytes are drawn is free (log 5, log 8); the ciphers are uninterpreted (log 4). -/
def Obligations.KeyCommandsFillASlot : Prop :=
  ∀ (r : Request) (s : State) (d : Dev) (i : Nat) (t : Byte) (u : Half), (u &&& 0xF000) = 0 → usageClash t u = false →
    (∀ size : Half, opensSlot s 0x0201 r → r.key = 0 → r.params = [t, 0] ++ b2 u ++ b2 size ++ [0, 0] → isSym t = true ∨ t = 0x40 → genSizeOk t size.toNat = true →
      8 ≤ r.dataCap → claimed s 0x0201 r 8 d → pickSlot (draw d (genLen t size.toNat)).2 = some i →
      exec (.keyGenerate r) s = .next (keyLands s r (draw d (genLen t size.toNat)).2 i t u (draw d (genLen t size.toNat)).1 (zeros 4))) ∧
    (∀ (k : Bytes) (q : Dev), r.key = 0 → r.params = [0, t] ++ b2 u ++ leBytes 2 k.length ++ [0, 0] ++ zeros 4 ++ leBytes 4 k.length ++ k →
      k.length ≤ 1088 → storedLenOk t k.length = true → formValid t k = true → opensSlot s 0x0202 r → 4 ≤ r.dataCap →
      quorumGate (took s 0x0202 r) (asCmd s 0x0202 r) r.ownerId.toNat = (q, none) → claimResult q (asCmd s 0x0202 r) 4 = some d → pickSlot d = some i →
      exec (.keyImport r) s = .next (keyLands s r d i t u k)) ∧
    (∀ (w : LiveKey) (h : Word) (len : Half) (x : Bytes), opensKey s { r with key := h } w → r.keyMask = false → r.key = 0 →
      r.params = [1, t] ++ b2 u ++ b2 len ++ [0, 0] ++ b4 h ++ leBytes 4 x.length ++ x → x.length < 2 ^ 32 →
      len.toNat ≤ 1088 → storedLenOk t len.toNat = true → 16 ≤ x.length → x.length % 8 = 0 → isAes w.type = true → w.usage.getLsbD uUnwrap = true →
      w.usage.getLsbD uQuorum = false → opensSlot s 0x0202 r → 4 ≤ r.dataCap → claimed s 0x0202 r 4 d → pickSlot (touchKey d w.ref) = some i →
      exec (.keyImport r) s = .next (
        match Config.kwUnwrap 1 w.bytes x with
        | none => on s (finish (authFailed (touchKey d w.ref)) s.nextRid ST.authFail)
        | some k => if k.length ≠ len.toNat then on s (finish (touchKey d w.ref) s.nextRid ST.blobBad)
                    else if formValid t k then keyLands s r (touchKey d w.ref) i t u k
                    else on s (finish (touchKey d w.ref) s.nextRid ST.algParam))) ∧
    (∀ (src : Byte) (len : Half) (x : Bytes), opensSlot s 0x0202 r → r.key = 0 →
      r.params = [2, t] ++ b2 u ++ b2 len ++ [src, 0] ++ zeros 4 ++ leBytes 4 (16 + x.length) ++ packHeader t u len.toNat src (r.ownerId.setWidth 8) ++ x →
      x.length < 2 ^ 31 → len.toNat ≤ 1088 → storedLenOk t len.toNat = true → 16 ≤ x.length → x.length % 8 = 0 → 4 ≤ r.dataCap → claimed s 0x0202 r 4 d → pickSlot d = some i →
      exec (.keyImport r) s = .next (
        match Config.kwUnwrap 1 (ownerKey d "DX48 EXPORT" r.ownerId.toNat) x with
        | none => on s (finish (authFailed d) s.nextRid ST.authFail)
        | some k => if k.take 16 ≠ packHeader t u len.toNat src (r.ownerId.setWidth 8) ∨ k.length ≠ 16 + len.toNat then on s (finish d s.nextRid ST.blobBad)
                    else if formValid t (k.drop 16) then keyLands s r d i t u (k.drop 16)
                    else on s (finish d s.nextRid ST.algParam))) ∧
    (∀ (w : Owner) (h iv hint serial ct tag : Bytes), opensSlot s 0x0203 r → ownerOf s.toDev r.ownerId.toNat = some w → r.key = 0 →
      h = b2 0xB401 ++ [t, 0] ++ b2 u ++ leBytes 2 ct.length ++ [r.ownerId.setWidth 8, w.mode, s.lc.state, 0] ++ iv ++ hint ++ serial ++ zeros 8 →
      iv.length = 12 → hint.length = 8 → serial.length = 8 → tag.length = 16 → r.params = h ++ ct ++ tag → r.ownerId.toNat < 256 → ct.length ≤ 1088 → storedLenOk t ct.length = true →
      (w.mode = 1 → hint = s.key.fwMeas.take 8) → 4 ≤ r.dataCap → claimed s 0x0203 r 4 d → pickSlot d = some i →
      exec (.keyLoad r) s = .next (
        match Config.gcmOpen (ownerKey d "DX48 BLOB" r.ownerId.toNat) iv h ct tag with
        | none => on s (finish (freeSlot { d with rng := d.rng + 1, key := { d.key with slots := tset d.key.slots i { type := t, usage := u, owner := r.ownerId.setWidth 8, charge := chargeOf r.issuer, masked := [], mask := [], reserved := true } } } i) s.nextRid ST.blobBad)
        | some k => keyLands s r d i t u k))

/-- Public-key commands wait for an engine. A public-key command that fails a check before the engine ends with that status; one that passes waits for an engine while an engine of its channel and world serves; where none does it ends with ST_BUSY or the status its operands give. -/
def Obligations.PublicKeyCommandsWaitForAnEngine : Prop :=
  ∀ (r : Request) (s : State) (op : Nat) (i : Instr),
    (op, i) ∈ [(0x0201, Instr.keyGenerate r), (0x020A, .keyPublic r), (0x0301, .pkSign r), (0x0302, .pkVerify r), (0x0303, .pkEncaps r),
               (0x0304, .pkDecaps r), (0x0305, .pkAgree r), (0x0306, .pkMacRun r)] →
    s.glb.power = .run → (op = 0x0201 → isSym (byteAt r.params 0) = false ∧ byteAt r.params 0 ≠ 0x40) →
    (op = 0x020A → keyType (took s op r) (asCmd s op r) r.key = 0x40) →
    (∀ st, firstFail (pkPlan (took s op r) (asCmd s op r)).pre = some st →
      exec i s = .next (on s (finish (took s op r) s.nextRid st))) ∧
    (firstFail (pkPlan (took s op r) (asCmd s op r)).pre = none → canServe s.toDev (op == 0x0306) false = true →
      (freeEngine s.toDev (op == 0x0306) false = false ∨
        ∃ d o, pkTry (took s op r) (asCmd s op r) (pkPlan (took s op r) (asCmd s op r)) true = (d, .inr o)) →
      exec i s = .next (on s { took s op r with pkeWait := s.pkeWait ++ [.cmd (asCmd s op r)] })) ∧
    (∀ d st, firstFail (pkPlan (took s op r) (asCmd s op r)).pre = none → freeEngine s.toDev (op == 0x0306) false = true →
      pkTry (took s op r) (asCmd s op r) (pkPlan (took s op r) (asCmd s op r)) true = (d, .inl st) → st ≠ ST.noCells →
      exec i s = .next (on s (finish d s.nextRid st))) ∧
    (∀ d, firstFail (pkPlan (took s op r) (asCmd s op r)).pre = none → canServe s.toDev (op == 0x0306) false = false →
      pkTry (took s op r) (asCmd s op r) (pkPlan (took s op r) (asCmd s op r)) false = (d, .inl ST.busy) →
      exec i s = .next (on s (finish d s.nextRid ST.busy)))

/-- Symmetric commands take a lane. SYM_CIPHER, SYM_MAC, HASH, SYM_KDF and SYM_KW wait in order while no lane serves them, end with the first failing status of their checks, or claim their result and take a free lane (which one is free, log 8). -/
def Obligations.SymmetricCommandsStartALane : Prop :=
  ∀ (r : Request) (s : State) (op : Nat) (i : Instr),
    (op, i) ∈ [(0x0401, Instr.symCipher r), (0x0402, .symMac r), (0x0403, .hash r), (0x0404, .symKdf r), (0x0405, .symKw r), (0x0406, .symRng r)] → s.glb.power = .run →
    (mustWait s.toDev (asCmd s op r) = true →
      exec i s = .next (on s { took s op r with sym := { s.sym with wait := s.sym.wait ++ [asCmd s op r] } })) ∧
    (∀ st, mustWait s.toDev (asCmd s op r) = false → firstFail (symPlan (took s op r) (asCmd s op r)).checks = some st →
      exec i s = .next (on s (finish (took s op r) s.nextRid st))) ∧
    (∀ d l, mustWait s.toDev (asCmd s op r) = false → firstFail (symPlan (took s op r) (asCmd s op r)).checks = none →
      (symPlan (took s op r) (asCmd s op r)).quorum = none → firstFail (symPlan (took s op r) (asCmd s op r)).resources = none →
      claimed s op r (symPlan (took s op r) (asCmd s op r)).res d →
      maskBad (asCmd s op r) = false → laneFor d (hashLaned (asCmd s op r)) (issuerIdx r.issuer) = some l →
      exec i s = .next (on s (
        let b := (symPlan (took s op r) (asCmd s op r)).build { d with rng := d.rng + 1 }
        setLanes b.1 (tset b.1.sym.lanes l { b.2 with payer := issuerIdx r.issuer, since := d.now })))) ∧
    (∀ d, mustWait s.toDev (asCmd s op r) = false → firstFail (symPlan (took s op r) (asCmd s op r)).checks = none →
      (symPlan (took s op r) (asCmd s op r)).quorum = none → firstFail (symPlan (took s op r) (asCmd s op r)).resources = none →
      claimed s op r (symPlan (took s op r) (asCmd s op r)).res d → maskBad (asCmd s op r) = true → exec i s = .next (on s (maskFault d)))

/-- Random numbers and digests. SYM_RNG of 1 to 4096 bytes takes an AES lane (the model's reading, log 88), which answers that many bytes, free values (log 5), or ST_RNG_FAIL without a ready DRBG. HASH of an algorithm 1 to 7 starts a lane with the message and the digest's length. -/
def Obligations.RandomAndHash : Prop :=
  ∀ (r : Request) (s : State) (d : Dev), r.issuer = .pf ∨ (∃ n, r.issuer = .stall n) ∨ (∃ o, r.issuer = .krovlo o) → s.glb.power = .run → r.key = 0 → r.ownerId = 0 → s.lc.state ≠ 0xEE →
    (∀ n l, 1 ≤ n → n ≤ 4096 → r.params = leBytes 4 n → n ≤ r.dataCap → drbgReady s.toDev = true → mustWait s.toDev (asCmd s 0x0406 r) = false → claimed s 0x0406 r n d →
      laneFor d false (issuerIdx r.issuer) = some l →
      exec (.symRng r) s = .next (on s { d with rng := d.rng + 1, sym := { d.sym with lanes := tset d.sym.lanes l { rid := s.nextRid, kind := .rng n, payer := issuerIdx r.issuer, since := d.now } } })) ∧
    (∀ n, 1 ≤ n → n ≤ 4096 → r.params = leBytes 4 n → n ≤ r.dataCap → drbgReady s.toDev = false → mustWait s.toDev (asCmd s 0x0406 r) = false →
      exec (.symRng r) s = .next (on s (finish (took s 0x0406 r) s.nextRid ST.rngFail))) ∧
    (∀ (h : Byte) (m : Bytes) (l : Nat), 1 ≤ h.toNat → h.toNat ≤ 7 → m.length < 2 ^ 32 → r.params = [h, 0, 0, 0] ++ leBytes 4 m.length ++ m →
      Config.digestLen h.toNat ≤ r.dataCap → mustWait s.toDev (asCmd s 0x0403 r) = false → claimed s 0x0403 r (Config.digestLen h.toNat) d → laneFor d true (issuerIdx r.issuer) = some l →
      exec (.hash r) s = .next (on s { d with rng := d.rng + 1, sym := { d.sym with lanes := tset d.sym.lanes l { rid := s.nextRid, kind := .hash h.toNat (Config.digestLen h.toNat) m, payer := issuerIdx r.issuer, since := d.now } } }))

/-- Owner commands act on the owner table. OWNER_CREATE, OWNER_DELETE in both modes, OWNER_BIND, OWNER_UNBIND, OWNER_SET_POLICY with and without enrolment, and QUORUM_CANCEL, once their field rules hold and their quorum is met, write the owner table (and save it), unload the keys they must and end with ST_OK. Salt and secret are free values (log 5). -/
def Obligations.OwnerCommandsAct : Prop :=
  ∀ (r : Request) (s : State) (d : Dev) (w : Owner), s.glb.power = .run → r.issuer = .pf → r.key = 0 → s.lc.state ≠ 0xEE → s.key.tableBad = false →
    (∀ (mode m n q : Byte) (cap : Half), r.params = [mode, m, n, q] ++ b2 cap ++ [0, 0] → mode.toNat ≤ 1 → 1 ≤ m.toNat → m.toNat ≤ 5 → m.toNat ≤ n.toNat → n.toNat ≤ 8 →
      (s.lc.state = 3 → m ≠ 1) → ownerOf s.toDev r.ownerId.toNat = none → drbgReady s.toDev = true →
      quotaSum s.toDev r.ownerId.toNat + q.toNat ≤ 64 →
      (r.ownerId = 0 ∧ (s.lc.state = 1 ∨ s.lc.state = 2) ∧ d = took s 0x0501 r) ∨ (r.ownerId ≠ 0 ∧ quorumGate (took s 0x0501 r) (asCmd s 0x0501 r) 0 = (d, none)) →
      exec (.ownerCreate r) s = .next (on s (
        let salt := draw (reseed d) 32
        let secret := draw salt.2 48
        finish (saveTable (setOwner secret.2 r.ownerId.toNat
          { mode, salt := salt.1, m := m.toNat, n := n.toNat, cap := cap.toNat, aonQuota := q.toNat,
            enrol := some { secret := secret.1, m := m.toNat, n := n.toNat, next := 1, creation := true, oldShares := [], since := s.now } })) s.nextRid ST.ok))) ∧
    (r.params = [0, 0, 0, 0] → r.ownerId ≠ 0 → ownerOf s.toDev r.ownerId.toNat = some w →
      quorumGate (took s 0x0502 r) (asCmd s 0x0502 r) r.ownerId.toNat = (d, none) →
      exec (.ownerDelete r) s = .next (on s (finish (deleteOwner d r.ownerId.toNat) s.nextRid ST.ok))) ∧
    (r.params = [1, 0, 0, 0] → r.ownerId ≠ 0 → ownerOf s.toDev r.ownerId.toNat = some w → s.evr.failed = false → s.evr.critFull = false →
      quorumGate (took s 0x0502 r) (asCmd s 0x0502 r) 0 = (d, none) →
      exec (.ownerDelete r) s = .next (on s (logRec d
        { recCrit "KEY" 0x0004 [rOwnerInfo d r.ownerId.toNat, (rOwnerStalls d r.ownerId.toNat).setWidth 32, (rOwnerStalls d r.ownerId.toNat >>> 32).setWidth 32] with
          after := .ownerDelete s.nextRid r.ownerId.toNat }))) ∧
    (∀ n : Fin 64, r.params = [BitVec.ofNat 8 n.val, 0, 0, 0] → r.ownerId ≠ 0 → ownerOf s.toDev r.ownerId.toNat = some w →
      w.stalls.getLsbD n.val = true ∨ boundCount s.toDev n.val < 8 →
      quorumGate (took s 0x0503 r) (asCmd s 0x0503 r) r.ownerId.toNat = (d, none) →
      exec (.ownerBind r) s = .next (on s (finish (saveTable (setOwner d r.ownerId.toNat { w with stalls := w.stalls ||| BitVec.ofNat 64 (2 ^ n.val) })) s.nextRid ST.ok))) ∧
    (∀ n : Fin 64, r.params = [BitVec.ofNat 8 n.val, 0, 0, 0] → r.ownerId ≠ 0 → ownerOf s.toDev r.ownerId.toNat = some w →
      quorumGate (took s 0x0504 r) (asCmd s 0x0504 r) r.ownerId.toNat = (d, none) →
      exec (.ownerUnbind r) s = .next (on s (finish (saveTable (unloadWhere (setOwner d r.ownerId.toNat { w with stalls := w.stalls &&& ~~~BitVec.ofNat 64 (2 ^ n.val) })
        fun k => decide (k.owner.toNat = r.ownerId.toNat) && decide (k.charge = .stall n.val))) s.nextRid ST.ok))) ∧
    (∀ (m n q re : Byte) (win cap : Half), r.params = [m, n, q, re] ++ b2 win ++ b2 cap → re.toNat ≤ 1 → 1 ≤ m.toNat → m.toNat ≤ 5 → m.toNat ≤ n.toNat → n.toNat ≤ 8 →
      10 ≤ win.toNat → win.toNat ≤ 600 → (re = 0 → m.toNat = w.m ∧ n.toNat = w.n) → (s.lc.state = 3 → m ≠ 1) →
      ownerOf s.toDev r.ownerId.toNat = some w → quorumGate (took s 0x0505 r) (asCmd s 0x0505 r) r.ownerId.toNat = (d, none) →
      (re = 1 → drbgReady s.toDev = true) → quotaSum s.toDev r.ownerId.toNat + q.toNat ≤ 64 →
      exec (.ownerSetPolicy r) s = .next (on s (finish (saveTable (
        if re = 1 then setOwner (draw d 48).2 r.ownerId.toNat { w with aonQuota := q.toNat, window := win.toNat, cap := cap.toNat, shares := [], enrol := some { secret := (draw d 48).1, m := m.toNat, n := n.toNat, next := 1, creation := false, oldShares := w.shares, since := s.now } }
        else setOwner d r.ownerId.toNat { w with aonQuota := q.toNat, window := win.toNat, cap := cap.toNat })) s.nextRid ST.ok))) ∧
    (r.ownerId = 0 → r.params = [] → exec (.quorumCancel r) s = .next (on s (finish (closeSession (took s 0x0507 r) 0x0202) s.nextRid ST.ok)))

/-- The quorum gate. A command that needs a quorum opens a session for its owner and digest and ends with ST_QUORUM_PENDING; another owner, another digest or a session already used is ST_BUSY; a session not yet met is ST_QUORUM_PENDING; a met session is consumed by exactly this command. -/
def Obligations.QuorumGateOpensAndConsumes : Prop :=
  ∀ (s : State) (r : Request) (op o : Nat) (w : Owner), ownerOf s.toDev o = some w → w.enrol = none →
    (s.crd.session = none → quorumGate (took s op r) (asCmd s op r) o =
      ({ took s op r with crd := { s.crd with session := some { owner := o, mEff := if s.lc.state = 3 then max w.m 2 else w.m, digest := quorumDigest (asCmd s op r), since := s.now } } },
       some ST.quorumPending)) ∧
    (∀ q, s.crd.session = some q → q.owner ≠ o ∨ q.digest ≠ quorumDigest (asCmd s op r) ∨ q.consumedBy.isSome →
      quorumGate (took s op r) (asCmd s op r) o = (took s op r, some ST.busy)) ∧
    (∀ q, s.crd.session = some q → q.owner = o → q.digest = quorumDigest (asCmd s op r) → q.consumedBy = none → q.met = false →
      quorumGate (took s op r) (asCmd s op r) o = (took s op r, some ST.quorumPending)) ∧
    (∀ q, s.crd.session = some q → q.owner = o → q.digest = quorumDigest (asCmd s op r) → q.consumedBy = none → q.met = true →
      quorumGate (took s op r) (asCmd s op r) o = ({ took s op r with crd := { s.crd with session := some { q with consumedBy := some s.nextRid } } }, none))

/-- Logbook commands, and the result of LOG_STATUS. LOG_APPEND sends one record of the issuer to the writer and completes when it is written; LOG_READ answers FIRST, NEXT and the window and sets the PF's window registers; LOG_STATUS returns the 32 bytes of R356: OLDEST, HEAD, bytes present, bytes of critical records, CNT_LOST, CNT_REFUSED (with no record present OLDEST is HEAD, the model's reading, log 38). -/
def Obligations.LogbookCommandsAnswer : Prop :=
  ∀ (r : Request) (s : State) (d : Dev), s.glb.power = .run → r.key = 0 → r.ownerId = 0 → s.evr.isOpen = true →
    (∀ (t : Half) (x : Bytes), r.issuer = .pf ∨ (∃ n, r.issuer = .stall n) → s.lc.state ≠ 0xEE → t.toNat ≤ 0x0FFF → 1 ≤ x.length → x.length ≤ 960 →
      r.params = b2 t ++ [0, 0] ++ leBytes 4 x.length ++ x → 8 ≤ r.dataCap → claimed s 0x0604 r 8 d →
      exec (.logAppend r) s = .next (on s (logRec d { rtype := t, attr := BitVec.ofNat 8 (issuerCode r.issuer), payload := x, after := .complete s.nextRid ST.ok true }))) ∧
    (∀ cur : Quad, fromPM r → r.params = b8 cur → 272 ≤ r.dataCap → claimed s 0x0605 r 272 d →
      exec (.logRead r) s = .next (on s (
        let w := logWindow d.evr cur.toNat
        finish (if r.issuer = .pf then { d with evr := { d.evr with first := w.1, next := w.2.1, window := Config.fit 256 w.2.2 } } else d) s.nextRid ST.ok
          (leBytes 8 w.1 ++ leBytes 8 w.2.1 ++ Config.fit 256 w.2.2)))) ∧
    (fromPM r → r.params = [] → 32 ≤ r.dataCap → claimed s 0x0606 r 32 d →
      exec (.logStatus r) s = .next (on s (finish d s.nextRid ST.ok
        (leBytes 8 (((d.evr.log ++ d.evr.ring).head?.map (·.seq)).getD d.evr.head) ++ leBytes 8 d.evr.head ++ leBytes 4 (bytesOf (d.evr.log ++ d.evr.ring)) ++
          leBytes 4 (critBytes (d.evr.log ++ d.evr.ring)) ++ b4 d.evr.cntLost ++ b4 d.evr.cntRefused))))

/-- Life-cycle transitions begin and write their words in order. LC_TRANSITION on a legal move (with its quorum where custodians are needed) and LC_RESUME on a resumable unit begin a job with its words and a record; LC_RESUME otherwise is ST_LC_ILLEGAL. A written word makes the next one due or ends the transition; a failed word is tried again up to three times, then the transition fails. -/
def Obligations.LifeCycleTransitionsRun : Prop :=
  (
    ∀ (r : Request) (s : State) (t : Byte) (k : Nat), s.glb.power = .run → r.issuer = .pf → r.key = 0 → r.ownerId = 0 → r.params = [t, 0, 0, 0] → s.lc.job = none →
      s.evr.failed = false → s.evr.critFull = false →
      (legalMove s.lc.state t = true → needsCustodians s.lc.state t = false → anyStall s.toDev = false → s.glb.rsvOk = true → blankSlot s.toDev = some k →
        s.dbg.rights.getLsbD 3 = false → s.dbg.rights.getLsbD 4 = false →
        exec (.lcTransition r) s = .next (on s (logRec
          { took s 0x0802 r with lc := { s.lc with job := some { rid := s.nextRid, target := t, writes := .intent k (intentValue t) :: writesFor s.toDev t } } }
          (devRec 0x9003 0x0001 (t :: b4 (rLcState { s.toDev with lc := { s.lc with job := some { rid := s.nextRid, target := t, writes := [] } } })) .lcStart)))) ∧
      (∀ (w : Owner) (d : Dev), legalMove s.lc.state t = true → needsCustodians s.lc.state t = true → anyStall s.toDev = false → s.glb.rsvOk = true → blankSlot s.toDev = some k →
        s.dbg.rights.getLsbD 3 = false → s.dbg.rights.getLsbD 4 = false → ownerOf s.toDev 0 = some w → (s.lc.state = 2 → 2 ≤ w.m) →
        quorumGate (took s 0x0802 r) (asCmd s 0x0802 r) 0 = (d, none) →
        exec (.lcTransition r) s = .next (on s (logRec
          { d with lc := { s.lc with job := some { rid := s.nextRid, target := t, writes := .intent k (intentValue t) :: writesFor s.toDev t } } }
          (devRec 0x9003 0x0001 (t :: b4 (rLcState { s.toDev with lc := { s.lc with job := some { rid := s.nextRid, target := t, writes := [] } } })) .lcStart)))) ∧
      (s.lc.resumable = true → t = s.lc.target →
        exec (.lcResume r) s = .next (on s (logRec
          { took s 0x0803 r with lc := { s.lc with job := some { rid := s.nextRid, target := t, writes := writesFor s.toDev t } } }
          (devRec 0x9003 0x0001 (t :: b4 (rLcState { s.toDev with lc := { s.lc with job := some { rid := s.nextRid, target := t, writes := [] } } })) .lcStart)))) ∧
      (s.lc.resumable = false → exec (.lcResume r) s = .next (on s (finish (took s 0x0803 r) s.nextRid ST.lcIllegal)))) ∧
  (
    ∀ (s : State) (j : LcJob) (w : OtpWrite) (rest : List OtpWrite), s.lc.job = some j → j.started = true → j.writes = w :: rest →
      (∀ x l, nextWrites (program s.toDev w) rest = x :: l →
        exec (.otpWordWriteDone true) s = .next (on s { program s.toDev w with lc := { s.lc with job := some { j with writes := x :: l, retries := 0 } } })) ∧
      (nextWrites (program s.toDev w) rest = [] →
        exec (.otpWordWriteDone true) s = .next (on s (endTransition (program s.toDev w) { j with writes := [] } false))) ∧
      (j.retries < 3 →
        exec (.otpWordWriteDone false) s = .next (on s { programPartly s.toDev w with lc := { s.lc with job := some { j with retries := j.retries + 1 } } })) ∧
      (3 ≤ j.retries → exec (.otpWordWriteDone false) s = .next (on s (endTransition (programPartly s.toDev w) j true))))

/-- Debug challenge and response commands. DBG_CHALLENGE draws a nonce (a free value, log 5), keeps it and answers the 64-byte challenge; DBG_RESPONSE whose first checks pass waits for a secure engine to check the signature. -/
def Obligations.DebugCommandsAct : Prop :=
  ∀ (r : Request) (s : State) (d : Dev), s.glb.power = .run → r.issuer = .pf → r.key = 0 → r.ownerId = 0 → s.lc.state ≠ 0xEE → s.lc.job = none →
    (r.params = [] → 64 ≤ r.dataCap → drbgReady s.toDev = true → claimed s 0x0804 r 64 d →
      exec (.dbgChallenge r) s = .next (on s (
        let n := draw d 32
        finish { n.2 with dbg := { d.dbg with nonce := some n.1 } } s.nextRid ST.ok
          (b2 0xD801 ++ [d.lc.state, 0] ++ b4 d.glb.pcc ++ Config.deviceId ++ n.1 ++ zeros 8)))) ∧
    (r.params.length = 160 → s.dbg.checking = false → canServe s.toDev false true = true → s.evr.failed = false → s.evr.critFull = false →
      firstFail (certBefore s.toDev r.params) = none →
      exec (.dbgResponse r) s = .next (on s { took s 0x0805 r with dbg := { s.dbg with checking := true },
                                                                     pkeWait := s.pkeWait ++ [.secure { rid := some s.nextRid, issuer := .secure, kind := .dbgCert r.params false, alg := 0x21 }] }))

/-- Boot Witness commands. BW_LOAD_MANIFEST stores a manifest that checks under a key of owner 0 and refuses others with ST_MANIFEST_BAD; BW_SEAL seals the open journal; BW_GET_JOURNAL answers the current or the previous journal. -/
def Obligations.BootWitnessCommandsAct : Prop :=
  ∀ (r : Request) (s : State) (d : Dev), s.glb.power = .run → s.lc.state ≠ 0xEE →
    (∀ (m : Bytes) (k : LiveKey), r.issuer = .pf → m.length < 2 ^ 32 → r.params = leBytes 4 m.length ++ m → r.ownerId = 0 → (ownerOf s.toDev 0).isSome →
      hOwner r.key = 0 → findKey s.toDev r.key = some k → k.owner = 0 → k.type = 0x21 → k.usage.getLsbD uVerify = true → k.usage.getLsbD uQuorum = false →
      s.key.tableBad = false → r.keyMask = false → drbgReady s.toDev = true →
      exec (.bwLoadManifest r) s = .next (on s (
        let t := touchKey (took s 0x0601 r) k.ref
        if manifestOk t m (Config.pkPublic 0x21 96 k.bytes []) then
          let d := programZone { t with bwt := { t.bwt with stored := some (parseManifest m) } } 0x40000 m
          finish (if strict d && d.bwt.man.isNone then forceManifest d (some (parseManifest m)) else d) s.nextRid ST.ok
        else finish t s.nextRid ST.manifestBad))) ∧
    (∀ co : Byte, fromPM r → r.key = 0 → r.ownerId = 0 → r.params = [co, 0, 0, 0] → co.toNat ≤ 1 → stateR s.toDev = true → absent s.toDev = false → s.bwt.journal.opened = true →
      s.evr.failed = false → s.evr.critFull = false → canServe s.toDev false true = true → 48 ≤ r.dataCap → claimed s 0x0602 r 48 d →
      exec (.bwSeal r) s = .next (on s (sealNow d (some s.nextRid) (if r.issuer = .mgt then 2 else 1) (co == 1)))) ∧
    (∀ which : Byte, fromPVM r → r.key = 0 → r.ownerId = 0 → r.params = [which, 0, 0, 0] → which.toNat ≤ 1 → 16384 ≤ r.dataCap →
      claimed s 0x0603 r ((if which = 0 then s.bwt.current else s.bwt.previous).getD []).length d →
      exec (.bwGetJournal r) s = .next (on s (finish d s.nextRid ST.ok ((if which = 0 then s.bwt.current else s.bwt.previous).getD []))))

/-- Krovlo commands. For a unit in replication: CHN_REPLICATE sends the key to the other units in replication and waits for their answers; CHN_ADMIT raises the epoch with the unit's DEVICE_ID admitted; CHN_SET_EPOCH sets a higher epoch. -/
def Obligations.KrovloCommandsAct : Prop :=
  ∀ (r : Request) (s : State), s.glb.power = .run → firstFail (replChecks s.toDev) = none →
    (∀ (k : LiveKey) (w : Owner) (d e : Dev), opensKey s r k → r.keyMask = false → r.params = [] → 2 ≤ r.dataCap → hAon r.key = false → k.usage.getLsbD uReplicate = true → k.usage.getLsbD uQuorum = false →
      drbgReady s.toDev = true → ownerOf s.toDev r.ownerId.toNat = some w → claimed s 0x0702 r 2 d →
      sendReplicas (markReplicated (touchKey d k.ref) k.ref) s.nextRid k r.key w.mode (replPeers d) = some e →
      exec (.chnReplicate r) s = .next (on s (setChn e { e.chn with replicates := e.chn.replicates ++ [{ rid := s.nextRid, handle := r.key, since := e.now }] }))) ∧
    (∀ (a : Fin 16) (id : Bytes), r.issuer = .pf → r.key = 0 → r.ownerId = 0 → s.lc.state ≠ 0xEE → s.lc.state ≠ 3 → r.params = [BitVec.ofNat 8 a.val, 0, 0, 0] →
      (if s.chn.addrValid ∧ a.val = s.chn.addr then some Config.deviceId else (tget s.chn.view a.val).map (·.body.devId)) = some id →
      exec (.chnAdmit r) s = .next (on s (newConfig (took s 0x0703 r) s.nextRid (BitVec.ofNat 64 (selfEpochMax s.toDev + 1))
        (if (admittedOf s.toDev).contains id then admittedOf s.toDev else admittedOf s.toDev ++ [id])))) ∧
    (∀ e : Quad, r.issuer = .pf → r.key = 0 → r.ownerId = 0 → s.lc.state ≠ 0xEE → s.lc.state ≠ 3 → r.params = b8 e → s.chn.epoch.toNat < e.toNat →
      exec (.chnSetEpoch r) s = .next (on s (newConfig (took s 0x0704 r) s.nextRid e (admittedOf s.toDev))))

/-- Service commands. PKE_SET_CHANNEL changes an idle normal engine and is denied for a secure one; FW_STAGE collects the image and checks it at its end; FW_ACTIVATE marks a staged image pending; SELF_TEST of an engine waits for it, that of the lanes and of the DRBG answers. -/
def Obligations.ServiceCommandsAct : Prop :=
  ∀ (r : Request) (s : State), s.glb.power = .run → r.issuer = .pf → r.key = 0 → r.ownerId = 0 → s.lc.state ≠ 0xEE →
    (∀ (e : Fin 4) (ch : Bool), r.params = [BitVec.ofNat 8 e.val, if ch then 1 else 0, 0, 0] → engSecure s.toDev e.val = false →
      (eng s.toDev e.val).op = none → (eng s.toDev e.val).aborting = false →
      exec (.pkeSetChannel r) s = .next (on s (finish (sweepWaiting (setEng (took s 0x0F01 r) e.val { eng s.toDev e.val with mem := [], acc := 0, mac := ch })) s.nextRid ST.ok))) ∧
    (∀ (e : Fin 4) (ch : Byte), r.params = [BitVec.ofNat 8 e.val, ch, 0, 0] → ch.toNat ≤ 1 → engSecure s.toDev e.val = true →
      exec (.pkeSetChannel r) s = .next (on s (finish (took s 0x0F01 r) s.nextRid ST.denied))) ∧
    (∀ (x : Bytes) (total : Nat), s.ps.stageOk = false → s.ps.stage = none → total ≤ 2097152 → x.length < total →
      r.params = leBytes 4 0 ++ leBytes 4 total ++ leBytes 4 x.length ++ x →
      exec (.fwStage r) s = .next (on s (finish
        (programZone { took s 0x0F03 r with ps := { s.ps with stage := some (x, total), stageOk := false, fwSlot := tset s.ps.fwSlot (1 - s.ps.fwActive) x } }
          (0x100000 + 0x200000 * (1 - s.ps.fwActive)) x) s.nextRid ST.ok))) ∧
    (∀ (a x : Bytes) (total : Nat) (d : Dev), s.ps.stageOk = false → s.ps.stage = some (a, total) → total ≤ 2097152 → a.length + x.length = total →
      r.params = leBytes 4 a.length ++ leBytes 4 total ++ leBytes 4 x.length ++ x → 48 ≤ r.dataCap → claimed s 0x0F03 r 48 d →
      exec (.fwStage r) s = .next (on s (
        let d := programZone { d with ps := { d.ps with stage := some (a ++ x, total), stageOk := false, fwSlot := tset d.ps.fwSlot (1 - d.ps.fwActive) (a ++ x) } }
          (0x100000 + 0x200000 * (1 - d.ps.fwActive) + a.length) x
        if Config.fwSigValid (a ++ x) then finish { d with ps := { d.ps with stageOk := true } } s.nextRid ST.ok (Config.sha384 (a ++ x))
        else finish { d with ps := { d.ps with stage := none } } s.nextRid ST.verifyFail))) ∧
    (∀ x n, s.ps.stageOk = true → s.ps.stage = some (x, n) → r.params = Config.sha384 x → s.lc.state ≠ 3 →
      exec (.fwActivate r) s = .next (on s (finish { took s 0x0F04 r with ps := { s.ps with fwPending := true } } s.nextRid ST.ok))) ∧
    (∀ (e : Fin 4) (f : TestBits) (d : Dev), r.params = [BitVec.ofNat 8 e.val, 0, 0, 0] → (eng s.toDev e.val).clk ≠ 3 → inTransit s.toDev (18 + e.val) = false →
      engSecure s.toDev e.val = false → 4 ≤ r.dataCap → claimed s 0x0F05 r 4 d →
      exec (.selfTest r f) s = .next (on s { d with pkeWait := d.pkeWait ++ [.secure { rid := some s.nextRid, issuer := .pf, kind := .selfTest f.toNat, alg := 0, engine := some e.val }] })) ∧
    (∀ d, r.params = [4, 0, 0, 0] → 4 ≤ r.dataCap → claimed s 0x0F05 r 4 d →
      exec (.selfTest r 0) s = .next (on s (finish (pumpLanes { d with sym := { d.sym with laneOos := 0 } }) s.nextRid ST.ok (zeros 4)))) ∧
    (∀ d, r.params = [5, 0, 0, 0] → s.sym.rngPerm = false → 4 ≤ r.dataCap → claimed s 0x0F05 r 4 d →
      exec (.selfTest r 0) s = .next (on s (finish (instantiate d) s.nextRid ST.ok (zeros 4))))

/-- TAP instructions, in and out of EXTEST. Outside EXTEST the TAP instructions BYPASS, IDCODE, SAMPLE/PRELOAD, EXTEST, DBG_CHAL, DBG_RESP, TEST_UNLOCK and a TAP reset have their effect and their report; in EXTEST leaving it, by any other instruction or a TAP reset, first resets the device as a SOFT reset does. What the reset meets is the row's operand; cells and nonces are free values (log 5, log 18). -/
def Obligations.TapInstructionsAct : Prop :=
  (
    ∀ (s : State) (env : StartEnv), powered s.toDev = true → s.dbg.extest = false →
      (s.glb.vioGen = true → exec (.bypass env) s = .next (on s (tapReport { s.toDev with dbg := { s.dbg with tapInstr := .bypass } } ST.ok))) ∧
      (s.glb.vioGen = true → exec (.idcode env) s = .next (on s (tapReport { s.toDev with dbg := { s.dbg with tapInstr := .idcode } } ST.ok (b4 0x14830F79)))) ∧
      (exec (.extestExit env) s = .next s) ∧
      (∀ t, exec (.tapReset t env) s = .next (on s { s.toDev with dbg := { s.dbg with tapInstr := .idcode } })) ∧
      (s.glb.power ≠ .standby → boundaryOpen s.toDev = true →
        exec (.samplePreload env) s = .next (on s (tapReport { s.toDev with rng := s.rng + 1, dbg := { s.dbg with tapInstr := .sample } } ST.ok (Config.boundaryCells s.rng)))) ∧
      (s.glb.power ≠ .standby → boundaryOpen s.toDev = true →
        exec .extest s = .next (on s (tapReport
          { abortAll (setInstr s.toDev .extest) with dbg := { (abortAll (setInstr s.toDev .extest)).dbg with extest := true } } ST.ok))) ∧
      (s.glb.power ≠ .standby → boundaryOpen s.toDev = false →
        exec (.samplePreload env) s = .next (on s (tapReport s.toDev ST.denied)) ∧ exec .extest s = .next (on s (tapReport s.toDev ST.denied))) ∧
      (s.glb.power ≠ .standby → s.lc.state ≠ 0xEE → s.lc.job = none → drbgReady s.toDev = true →
        exec (.dbgChal env) s = .next (on s (
          let n := draw s.toDev 32
          tapReport { n.2 with dbg := { s.dbg with nonce := some n.1 } } ST.ok (b2 0xD801 ++ [s.lc.state, 0] ++ b4 s.glb.pcc ++ Config.deviceId ++ n.1 ++ zeros 8)))) ∧
      (∀ c : Bytes, c.length = 160 → s.glb.power ≠ .standby → s.lc.job = none → s.dbg.checking = false → canServe s.toDev false true = true → s.evr.failed = false →
        s.evr.critFull = false → firstFail (certBefore s.toDev c) = none →
        exec (.dbgResp c env) s = .next (on s { s.toDev with dbg := { s.dbg with checking := true },
                                                              pkeWait := s.pkeWait ++ [.secure { rid := none, issuer := .secure, kind := .dbgCert c true, alg := 0x21 }] })) ∧
      (∀ (t : Bytes) (i : Fin 32) (n : Fin 8), s.glb.power ≠ .standby → s.lc.state ≠ 0xEE →
        (s.dbg.token.isSome = true → exec (.testUnlock t i n env) s = .next (on s (tapReport s.toDev ST.busy))) ∧
        (s.dbg.token = none → 8 ≤ s.dbg.tokenFails.toNat → exec (.testUnlock t i n env) s = .next (on s (endToken (ldgIssue s.toDev 5 H.token 1) ST.tokenBad))) ∧
        (s.dbg.token = none → s.dbg.tokenFails.toNat < 8 → s.dbg.grant ≠ 0 →
          exec (.testUnlock t i n env) s = .next (on s (endToken (ldgIssue s.toDev 5 H.token 1) ST.denied)))) ∧
      (∀ (t : Bytes) (i : Fin 32) (n : Fin 8), t.length = 16 → s.glb.power ≠ .standby → s.lc.state ≠ 0xEE → s.dbg.tokenFails.toNat < 8 → s.dbg.grant = 0 → s.dbg.token = none →
        s.evr.failed = false → s.evr.critFull = false →
        exec (.testUnlock t i n env) s = .next (on s { ldgIssue s.toDev 5 H.token 1 with dbg := { s.dbg with token := some { token := t, index := i.val, state := n.val } } })) ∧
      (s.glb.vioGen = false → exec (.bypass env) s = .next s ∧ exec (.idcode env) s = .next s)) ∧
  (
    ∀ (s : State) (env : StartEnv) (d : Dev), s.dbg.extest = true → d = { s.toDev with dbg := { s.dbg with extest := false, tapInstr := .idcode } } →
      (exec (.extestExit env) s = .next (on s (warmReset d env causeSoft 4))) ∧
      (exec (.bypass env) s = .next (on s (tapBypass (warmReset d env causeSoft 4)))) ∧
      (exec (.idcode env) s = .next (on s (tapIdcode (warmReset d env causeSoft 4)))) ∧
      (∀ t, powered s.toDev = true → exec (.tapReset t env) s = .next (on s (warmReset d env causeSoft 4))) ∧
      (∀ cert t i n, s.glb.power ≠ .standby →
        exec (.samplePreload env) s = .next (on s (tapSample (warmReset d env causeSoft 4))) ∧
        exec (.dbgChal env) s = .next (on s (tapChallenge (warmReset d env causeSoft 4))) ∧
        exec (.dbgResp cert env) s = .next (on s (tapResponse (warmReset d env causeSoft 4) cert)) ∧
        exec (.testUnlock t i n env) s = .next (on s (presentToken (warmReset d env causeSoft 4) t i.val n.val))))

/-- Debug accesses follow the matrix. A debug access in STANDBY reports that the device is asleep; without the right, outside the matrix, or from the PF window at the secure world it is denied; otherwise reads, writes, halts and releases have their effect and keys read as zero. Internal scan under a FULL grant clears the secrets once and needs its right. -/
def Obligations.DebugAccessesFollowTheMatrix : Prop :=
  ∀ (s : State) (a : DebugAcc), powered s.toDev = true →
    (s.glb.power = .standby → exec (.debugAccess a) s = .next (on s (tapReport s.toDev ST.dbgAsleep))) ∧
    (s.glb.power ≠ .standby → s.dbg.rights.getLsbD (needsRight a) = false ∨ memOpen s.toDev a = false ∨ (a.viaPf = true ∧ (a.secure = true ∨ a.what = .sramSecure)) →
      exec (.debugAccess a) s = .next (on s (tapReport s.toDev ST.denied))) ∧
    (s.glb.power = .run → (a.viaPf = true → a.secure = false ∧ a.what ≠ .sramSecure) → s.dbg.rights.getLsbD (needsRight a) = true → memOpen s.toDev a = true →
      (a.what = .sramSecure → a.kind = .read → s.dbg.rights.getLsbD 2 = true) →
      (a.kind = .read → a.what = .keyStore →
        exec (.debugAccess a) s = .next (on s (tapReport { s.toDev with dbg := { s.dbg with traceKeyReads := s.dbg.traceKeyReads + 1 } } ST.ok (zeros 4)))) ∧
      (a.kind = .read → a.what = .sramNormal ∨ a.what = .sramSecure →
        exec (.debugAccess a) s = .next (on s (tapReport s.toDev ST.ok (memBytes s.sram a.addr 4)))) ∧
      (a.kind = .read → a.what = .pkeMem → s.lc.state = 1 → s.key.root = 1 → exec (.debugAccess a) s = .next (on s (tapReport s.toDev ST.ok (zeros 4)))) ∧
      (∀ p o, a.kind = .read → a.what = .regs → locatePf s.toDev a.addr = .reg p o →
        exec (.debugAccess a) s = .next (on s (tapReport s.toDev ST.ok (readBytes s.toDev p (o / 4 * 4) 4)))) ∧
      (∀ p o, a.kind = .write → a.what = .regs → locatePf s.toDev a.addr = .reg p o →
        exec (.debugAccess a) s = .next (on s (tapReport (writeBytes s.toDev (.hw (.debug a.secure)) p o [a.value]) ST.ok))) ∧
      (a.kind = .read → a.what = .yard →
        exec (.debugAccess a) s = .next (on s (tapReport (innerRead s.toDev (inner s.toDev a.addr) a.addr 4).1 ST.ok (innerRead s.toDev (inner s.toDev a.addr) a.addr 4).2))) ∧
      (a.kind = .write → a.what ≠ .regs → exec (.debugAccess a) s = .next (on s (tapReport { s.toDev with sram := memWrite s.sram a.addr a.value } ST.ok))) ∧
      (a.kind = .halt → exec (.debugAccess a) s = .next (on s (tapReport { s.toDev with dbg := { s.dbg with halted := tset s.dbg.halted a.cp.val a.secure } } ST.ok))) ∧
      (a.kind = .release → exec (.debugAccess a) s = .next (on s (tapReport { s.toDev with dbg := { s.dbg with halted := tdel s.dbg.halted a.cp.val } } ST.ok)))) ∧
    (∀ i : Fin 9, s.glb.power ≠ .standby → s.lc.state ≠ 0x10 → s.lc.state ≠ 0x17 → s.dbg.rights.getLsbD 4 = true → i.val ≤ 4 ∨ i.val = 8 → s.dbg.scanned = false →
      exec (.internalScanEntry i) s = .next (on s (
        let d := stopEngines (lockForGrant s.toDev)
        tapReport { d with dbg := { d.dbg with scanned := true }, sym := { d.sym with rngInst := false } } ST.ok))) ∧
    (∀ i : Fin 9, s.glb.power ≠ .standby → s.lc.state ≠ 0x10 → s.lc.state ≠ 0x17 → s.dbg.rights.getLsbD 4 = false →
      exec (.internalScanEntry i) s = .next (on s (tapReport s.toDev ST.denied)))

/-- A test-unlock token is checked in order. The first failing check of a presented token ends the presentation with its status and counts the failure; a token that passes all three is recorded before the TEST state is entered. -/
def Obligations.TokenChecksEndInOrder : Prop :=
  ∀ (s : State) (t : TokenCheck), s.dbg.token = some t → t.passed = false →
    (∀ st, tokenBarred s.toDev t = some st → exec .tokenCheckDone s = .next (on s (endToken s.toDev st))) ∧
    (∀ st, tokenBarred s.toDev t = none → firstFail (tokenChecks s.toDev t) = some st →
      exec .tokenCheckDone s = .next (on s (failToken s.toDev st))) ∧
    (tokenBarred s.toDev t = none → firstFail (tokenChecks s.toDev t) = none → s.evr.isOpen = true →
      exec .tokenCheckDone s = .next (on s (logRec { s.toDev with dbg := { s.dbg with token := some { t with passed := true } } }
        (devRec 0x9007 0x0003 [BitVec.ofNat 8 t.state, BitVec.ofNat 8 t.index] .tokenEnter)))) ∧
    (tokenBarred s.toDev t = none → firstFail (tokenChecks s.toDev t) = none → s.evr.isOpen = false →
      exec .tokenCheckDone s = .next (on s (enterTest (logRec { s.toDev with dbg := { s.dbg with token := some { t with passed := true } } }
        (devRec 0x9007 0x0003 [BitVec.ofNat 8 t.state, BitVec.ofNat 8 t.index] .tokenEnter)))))

/-- Power requests, wakes, supplies and the link's training. A request for DOZE or STANDBY is held until its conditions hold, entered then, or, once it has waited 1 ms, refused with the number of the first condition that fails; wakes leave DOZE and STANDBY as the cause allows. Loss and return of supplies, the reserve, the battery and the root recheck have their effect. A signal of a bank held in reset shows its in-reset entry. The moments of the supplies are the sender's (log 1). -/
def Obligations.PowerStatesAndSupplies : Prop :=
  (
    ∀ s : State,
      (s.glb.power = .run → s.glb.boot = .done →
        exec .requestDoze s = .next (on s { s.toDev with glb := { s.glb with req := some { standby := false, time := s.now }, refuse := 0 } }) ∧
        exec .requestStandby s = .next (on s { s.toDev with glb := { s.glb with req := some { standby := true, time := s.now }, refuse := 0 } })) ∧
      (∀ r, s.glb.req = some r → s.glb.power = .run → working s.toDev = false → r.standby = false →
        exec .powerStateEntry s = .next (on s { s.toDev with glb := { s.glb with power := .doze, req := none, waking := false },
                                                             sec := { s.sec with swdtCount := s.sec.swdtLoad.toNat, swdtWarned := false } })) ∧
      (∀ r, s.glb.req = some r → s.glb.power = .run → working s.toDev = false → r.standby = true → allStalls.all (quiescent s.toDev) = true →
        ringMember s.toDev = false → bootSealed s.toDev = true → lowLink s.toDev = true →
        exec .powerStateEntry s = .next (on s
          { intoStandby s.toDev with glb := { (intoStandby s.toDev).glb with power := .standby, req := none, waking := false },
                                     sec := { s.sec with swdtCount := s.sec.swdtLoad.toNat, swdtWarned := false } })) ∧
      (∀ r c, s.glb.req = some r → r.time + 400000 ≤ s.now →
        c = (if working s.toDev then 1 else if r.standby && !allStalls.all (quiescent s.toDev) then 2 else if r.standby && ringMember s.toDev then 3
             else if r.standby && !bootSealed s.toDev then 4 else if r.standby && !lowLink s.toDev then 5 else (0 : BitVec 4)) → c ≠ 0 →
        exec .powerRequestRefuse s = .next (on s { s.toDev with glb := { s.glb with req := none, refuse := c } })) ∧
      (∀ c, s.glb.power = .doze → s.hif.d3hot = false → c ≠ .linkLeft →
        exec (.wake c) s = .next (on s { s.toDev with glb := { s.glb with waking := true } })) ∧
      (∀ c, s.glb.power = .doze → s.hif.d3hot = true → s.hif.pmeEn = false → s.glb.waking = false → c ≠ .linkLeft →
        exec (.wake c) s = .next (on s { s.toDev with glb := { s.glb with waking := true }, hif := { s.hif with pmeStatus := true } })) ∧
      (∀ c, s.glb.power = .standby → s.hif.d3hot = true → s.hif.pmeEn = true → s.hif.link = .l2 → s.glb.waking = false → c ≠ .linkLeft → c ≠ .barAccess → c ≠ .krovloFrame → c ≠ .timer →
        exec (.wake c) s = .next (on s { s.toDev with glb := { s.glb with waking := true, wakeN := true }, hif := { s.hif with pmeStatus := true } })) ∧
      (∀ c : WakeCause, s.glb.waking = true → c ≠ .linkLeft → exec (.wake c) s = .next s) ∧
      (∀ l, s.glb.power = .doze → s.glb.waking = true → s.glb.heldAccess = [] →
        exec (.wakeComplete l) s = .next (on s { s.toDev with glb := { s.glb with power := .run, waking := false, wakeN := false },
                                                              sec := { s.sec with swdtCount := s.sec.swdtLoad.toNat, swdtWarned := false } })) ∧
      (s.glb.power = .standby → s.glb.waking = true → s.glb.heldAccess = [] → s.sym.rngFailed = false → s.evr.failed = false →
        exec (.wakeComplete []) s = .next (on s (
          let d := instantiate { s.toDev with glb := { s.glb with power := .run, waking := false, wakeN := false },
                                              sec := { s.sec with swdtCount := s.sec.swdtLoad.toNat, swdtWarned := false } }
          programZone { d with ldg := { s.ldg with initAt := s.ldg.initAt.map fun _ => s.now }, ps := { s.ps with checkpoint := opTime s.toDev } } 0x10000 (leBytes 8 (opTime s.toDev)))))) ∧
  (
    ∀ s : State,
      (s.glb.vmainGood = true → s.glb.vbatOk = true → ∃ t, exec .vmainLost s = .next t ∧ t.glb.power = .vault ∧ t.glb.vaultFlag = true ∧
        t.key.slots = [] ∧ t.key.root = 0 ∧ t.sram = [] ∧ t.stl.stalls = [] ∧ (atRest s.toDev → t.key.bank = s.key.bank) ∧ t.tmp = s.tmp ∧
        t.glb.pcc = s.glb.pcc ∧ t.psUser = s.psUser ∧ t.glb.opFrom = none ∧ t.pending = s.pending) ∧
      (s.glb.vmainGood = true → s.glb.vbatOk = false → ∃ t, exec .vmainLost s = .next t ∧ t.glb.power = .off ∧ t.key.slots = [] ∧ t.key.bank = [] ∧
        t.sram = [] ∧ t.glb.pcc = s.glb.pcc ∧ t.psUser = s.psUser ∧ t.pending = s.pending) ∧
      (s.glb.power = .vault → ∃ t, exec .vbatLost s = .next t ∧ t.glb.power = .off ∧ t.glb.vbatOk = false ∧ t.key.bank = [] ∧ t.psUser = s.psUser ∧ t.pending = s.pending) ∧
      (s.glb.power = .run ∨ s.glb.power = .doze ∨ s.glb.power = .standby → exec .vbatLost s = .next (on s { s.toDev with glb := { s.glb with vbatOk := false } })) ∧
      (s.glb.power = .run ∨ s.glb.power = .doze → s.glb.rsvOk = true → ∃ t, exec .vrsvLow s = .next t ∧ t.glb.rsvOk = false ∧ t.glb.resetCause = s.glb.resetCause ||| 0x80 ∧
        t.key.slots = [] ∧ (atRest s.toDev → (∀ o ∈ s.key.owners, o.2.enrol = none) → t.key.bank = s.key.bank) ∧ t.glb.power = s.glb.power ∧ t.pending = s.pending) ∧
      (powered s.toDev = true → exec .vrsvGood s = .next (on s { s.toDev with glb := { s.glb with rsvOk := true } })) ∧
      (powered s.toDev = true → s.key.rootWait = true → s.glb.rsvOk = true → s.key.grantLock = false → s.tmp.hold = false → s.lc.state = 3 → rootStatus s.toDev 2 = 0 →
        exec .rootRecheck s = .next (on s (lapseAll (openTable { s.toDev with key := { s.key with root := 3, rootWait := false } } true)))) ∧
      (exec .perstRelease s = .next (on s { s.toDev with glb := { s.glb with perstN := true } })) ∧
      (∀ ok, s.glb.vmainGood = true → exec (.vbatOkChange ok false) s = .next (on s { s.toDev with glb := { s.glb with vbatOk := ok } })) ∧
      (∀ ok, s.glb.vmainGood = true → exec (.vbatOkChange ok true) s = .next (on s (
        let d := { s.toDev with glb := { s.glb with vbatOk := false } }
        logRec d (recEvent "GLB" 0 (b4 (rPwrStatus d))))))) ∧
  (
    ∀ (s : State) (env : StartEnv),
      (∀ x, (bankOf s.toDev (pinBank x) = .inReset → pinState s.toDev x = pinReset x) ∧ (bankOf s.toDev (pinBank x) = .hiZ → pinState s.toDev x = .hiZ)) ∧
      (swdtOver s.toDev = true → running s.toDev = true → outranked s.toDev causeWdt = false → ∃ u : State, exec (.swdtExpire env) s = .next u ∧
        pinState u.toDev .bwfCsN = .high ∧ pinState u.toDev .bwfRstN = .low ∧ pinState u.toDev .bwhIo = .hiZ ∧ pinState u.toDev .psfCsN = .high ∧ pinState u.toDev .psfRstN = .low ∧
        (∀ x, pinState u.toDev (.crdVcc x) = .off ∧ pinState u.toDev (.crdClk x) = .hiZ) ∧ pinState u.toDev .mgtSclSda = .hiZ ∧ pinPull u.toDev .bwhIo = .up))

/-- Crossing watchdogs, PKE clocks and PCIe training. A crossing timeout is counted, is Class D and resets its island, and the third of one island within a second is Class F; a failed code is counted and stalls its crossing until the timeout; an idle engine takes its wanted clock; training shows lanes and speed and records a link below x4 at 32 GT/s. The status code of a crossing error is a free value (log 24). -/
def Obligations.CrossingsAndClocks : Prop :=
  ∀ s : State,
    (∀ i d, running s.toDev = true → d = timedOut s i → timeoutsOf d i < 3 →
      exec (.crossingTimeout i) s = .next (on s (resetIsland (errD d 1 (islandCode i) (Config.openStatus s.rng)) i))) ∧
    (∀ i d, running s.toDev = true → d = timedOut s i → 3 ≤ timeoutsOf d i →
      exec (.crossingTimeout i) s = .next (on s (errF d (Config.openStatus s.rng) (BitVec.ofNat 32 (islandCode i)) 0))) ∧
    (∀ i, twf s.glb.xwdStalled = true → crossStalled (timedOut s i) i = false) ∧
    (∀ i c, running s.toDev = true → c = tgetD s.glb.xwdCnt (islandCode i - 1) {} →
      exec (.crossingCodeFail i) s = .next (on s { s.toDev with glb := { s.glb with
        xwdCnt := tset s.glb.xwdCnt (islandCode i - 1) { c with codeFail := if c.codeFail = 0xFFFF then c.codeFail else c.codeFail + 1 },
        xwdStalled := if crossStalled s.toDev i then s.glb.xwdStalled else tset s.glb.xwdStalled (islandCode i - 1) s.now } })) ∧
    (∀ e : Fin 4, (eng s.toDev e.val).op = none → (eng s.toDev e.val).aborting = false → (eng s.toDev e.val).clk ≠ wantedClk s.toDev e.val →
      exec (.pkeClockChange e) s = .next (on s (sweepWaiting (setEng s.toDev e.val
        { eng s.toDev e.val with clk := wantedClk s.toDev e.val, relock := wantedClk s.toDev e.val != 3 })))) ∧
    (∀ (e : Fin 4) (p : Pke), tget s.pke e.val = some p →
      exec (.pkePllRelock e) s = .next (on s { s.toDev with pke := tset s.pke e.val { p with relock := false } })) ∧
    (s.glb.power = .run → s.glb.boot = .done → s.glb.perstN = true → s.hif.downDue = false →
      exec (.linkTrained 4 5) s = .next (on s { s.toDev with hif := { s.hif with up := true, link := .l0, width := 4, speed := 5, degraded := false } })) ∧
    (∀ (w : Fin 5) (sp : Fin 6), w = 1 ∨ w = 2 ∨ w = 4 → sp ≠ 0 → w.val < 4 ∨ sp.val < 5 → s.glb.power = .run → s.glb.boot = .done → s.glb.perstN = true → s.hif.downDue = false → s.hif.up = false →
      exec (.linkTrained w sp) s = .next (on s (
        let d := { s.toDev with hif := { s.hif with up := true, link := .l0, width := BitVec.ofNat 4 w.val, speed := BitVec.ofNat 4 sp.val, degraded := true } }
        logRec d (recEvent "HIF" 0x0401 (b4 (rLinkStatus d))))))

/-- Cold starts. VMAIN becoming good, the strap sampling after a wait for VIO_GEN, and a TAMPER reset run the start-up steps: cause, straps, halt without crystal or directory, the wait for VIO_GEN, the firmware's choice, the power-cycle count, an open Logbook, no keys in slots, SRAM cleared and stalls DISABLED. -/
def Obligations.ColdStartsRunTheSteps : Prop :=
  ∀ (s : State) (env : StartEnv),
    (∀ cause : Byte, cause = (if s.glb.power = .off then (if env.lidBad = 0 ∧ env.mesh = [] ∧ env.monBad = 0 then 0x01 else 0x03) else if s.tmp.resetDue then 0x23 else 0x21) →
      s.glb.vmainGood = false → ∃ t, exec (.vmainGood env) s = .next t ∧ t.pending = s.pending ∧
      t.glb.power = .run ∧ t.glb.vmainGood = true ∧ t.glb.resetCause = cause ∧ t.glb.vioGen = env.vioGenOk ∧ t.key.slots = [] ∧ t.sram = [] ∧ (∀ n, (stall t.toDev n).st = .disabled) ∧
      (env.xtalOk = false → t.glb.boot = .halted false ∧ t.glb.pcc = s.glb.pcc) ∧
      (env.xtalOk = true → env.vioGenOk = false → t.glb.boot = .waitStraps ∧ t.glb.pcc = s.glb.pcc) ∧
      (env.xtalOk = true → env.vioGenOk = true → env.directoryOk = false → t.glb.boot = .halted false ∧ t.glb.pcc = s.glb.pcc) ∧
      (env.xtalOk = true → env.vioGenOk = true → env.directoryOk = true → s.ps.fwPending = false →
        t.glb.boot = (if Config.fwSigValid (tgetD s.ps.fwSlot s.ps.fwActive []) then .done else .halted false) ∧ t.glb.pcc = s.glb.pcc + 1 ∧ t.evr.isOpen = true)) ∧
    (s.glb.boot = .waitStraps → env.vioGenOk = true → env.directoryOk = true → s.ps.fwPending = false → ∃ t, exec (.strapSample env) s = .next t ∧ t.pending = s.pending ∧
      t.glb.boot = (if Config.fwSigValid (tgetD s.ps.fwSlot s.ps.fwActive []) then .done else .halted false) ∧ t.glb.pcc = s.glb.pcc + 1 ∧ t.evr.isOpen = true ∧
      t.glb.psf = (if env.sfdpOctal then .octal else .quad) ∧ t.glb.strapsValid = true ∧ t.glb.raised = 0 ∧
      t.glb.straps = { strapFault := env.bwMode == 3, vioBfOk := env.bwMode == 0 || vioMatches env, flashV := env.flashV, bwMode := env.bwMode, chainHead := env.chainHead }) ∧
    (s.tmp.resetDue = true → s.glb.vmainGood = true → ∃ t, exec (.tamperReset env) s = .next t ∧ t.pending = s.pending ∧
      t.glb.power = .run ∧ t.glb.resetCause = 0x02 ||| (s.glb.raised &&& 0x3F) ∧ t.glb.vioGen = env.vioGenOk ∧ t.tmp.resetDue = false ∧ t.key.slots = [] ∧ t.sram = [] ∧ (∀ n, (stall t.toDev n).st = .disabled) ∧
      (env.xtalOk = true → env.vioGenOk = true → env.directoryOk = true → s.ps.fwPending = false →
        t.glb.boot = (if Config.fwSigValid (tgetD s.ps.fwSlot s.ps.fwActive []) then .done else .halted false) ∧ t.glb.pcc = s.glb.pcc + 1 ∧ t.evr.isOpen = true))

/-- WDT, SOFT and secure resets. A SOFT, WDT or secure reset adds its cause, keeps straps, power-cycle count, user zones and the tamper watch, ends every request, tag, lane, session and grant, retires every pool, and runs the shortened start-up; during one only the cause is added, but a WDT reset is performed over a SOFT one. A WDT reset comes once the watchdog has run down, a secure reset once the records of the Class F error are written or 2 ms have passed. The end of start-up releases the banks, of one that halted too. A secure reset without a Class F error does not arise (log 9). -/
def Obligations.WarmResetsKeepTheDevice : Prop :=
  ∀ (s : State) (env : StartEnv), powered s.toDev = true →
    (s.glb.boot = .done → ∃ t, exec (.soft env) s = .next t ∧ warmLeaves s t 0x10) ∧
    (s.glb.boot = .done ∨ (s.glb.boot = .warm ∧ s.glb.raised.getLsbD 2 = false) →
      (s.sec.swdtCount = 0 → s.glb.power = .run → (∀ x ∈ s.dbg.halted, x.2 = false) → ∃ t, exec (.swdtExpire env) s = .next t ∧ warmLeaves s t 0x04) ∧
      (∀ f, s.glb.fatal = some f → f.waiting = 0 ∨ f.since + 800000 ≤ s.now → ∃ t, exec (.secureReset env) s = .next t ∧ warmLeaves s t 0x44)) ∧
    (s.glb.boot = .warm →
      exec (.soft env) s = .next (on s { s.toDev with glb := { s.glb with resetCause := s.glb.resetCause ||| 0x10, raised := s.glb.raised ||| 0x10 } }) ∧
      (s.glb.raised.getLsbD 2 = true → s.sec.swdtCount = 0 → s.glb.power = .run → (∀ x ∈ s.dbg.halted, x.2 = false) →
        exec (.swdtExpire env) s = .next (on s { s.toDev with glb := { s.glb with resetCause := s.glb.resetCause ||| 0x04, raised := s.glb.raised ||| 0x04 } }))) ∧
    (s.sec.swdtCount ≠ 0 ∨ s.glb.power ≠ .run ∨ (∃ x ∈ s.dbg.halted, x.2 = true) → exec (.swdtExpire env) s = .next s) ∧
    (∀ g : Glb, g = { s.glb with hotWait := false, raised := 0, bankPs := .released, bankCrd := .released, bankMgt := if s.mgt.bankOff then .hiZ else .released,
                                 bankBf := if absent s.toDev || !s.glb.straps.vioBfOk then .inReset else .released } →
      (s.glb.boot = .warm → exec .startUpComplete s = .next (on s (
        let d := sendTrain (sendTrain { s.toDev with glb := g } .up false) .dn false
        { d with glb := { g with boot := .done }, mgt := { s.mgt with enabled := !s.mgt.bankOff } }))) ∧
      (s.glb.boot = .halted true → exec .startUpComplete s = .next (on s { s.toDev with glb := g }))) ∧
    (s.glb.boot = .done → exec .startUpComplete s = .next (on s { s.toDev with glb := { s.glb with hotWait := false } })) ∧
    (s.glb.fatal = none → exec (.secureReset env) s = .next s)

/-- A tamper event leaves no secret. A mesh, lid or monitor alarm of a powered device latches its source under the first cause's stamp and leaves no key slot, bank key, root, replica, lane, engine memory, DRBG state or secret SRAM, all else of SRAM and of the private store as it was; in VAULT the bank is cleared. A source that clears, and one second clear of all, end the hold. -/
def Obligations.TamperEventsZeroize : Prop :=
  (
    ∀ (s : State) (held : Bool), powered s.toDev = true → twf s.sym.lanes = true →
      (∀ (n : Fin 8) seen, meshOf s.toDev n.val = 0 → ∃ t, exec (.meshAlarm n seen held) s = .next t ∧
        zeroized s t (latched s.toDev { s.tmp with mesh := tset s.tmp.mesh n.val (meshClass s.toDev n.val seen) } 0 (BitVec.ofNat 8 (2 ^ n.val)) 0 false held)) ∧
      (∀ (n : Fin 8) seen, meshOf s.toDev n.val ≠ 0 →
        exec (.meshAlarm n seen held) s = .next (on s { s.toDev with tmp := { s.tmp with mesh := tset s.tmp.mesh n.val (meshClass s.toDev n.val seen) } })) ∧
      (∀ n : Fin 4, s.tmp.lid.getLsbD n.val = false → ∃ t, exec (.lidAlarm n held) s = .next t ∧
        zeroized s t (latched s.toDev { s.tmp with lid := s.tmp.lid ||| BitVec.ofNat 4 (2 ^ n.val) } (BitVec.ofNat 4 (2 ^ n.val)) 0 0 false held)) ∧
      (∀ m fall, monActive s.toDev m = true → monAlarmed s.toDev m = false → fall = false ∨ m ≠ .coreVoltage → ∃ t, exec (.monitorAlarm m fall held) s = .next t ∧
        zeroized s t (latched s.toDev { s.tmp with mon := s.tmp.mon ||| monMask m } 0 0 (monBits m) false held)) ∧
      (s.tmp.coreArmed = true → exec (.monitorAlarm .coreVoltage true held) s = .next (on s
        { losePower s.toDev with tmp := { (losePower s.toDev).tmp with coreArmed := false } }))) ∧
  (
    ∀ (s : State) (held : Bool) (seen : MeshSeen),
      (s.glb.power = .vault →
        (∀ n : Fin 8, meshOf s.toDev n.val = 0 → exec (.vaultTamper (.mesh n) seen held) s = .next (on s { clearBank s.toDev with
          tmp := latched s.toDev { s.tmp with mesh := tset s.tmp.mesh n.val (meshClass s.toDev n.val seen) } 0 (BitVec.ofNat 8 (2 ^ n.val)) 0 true held })) ∧
        (∀ n : Fin 8, meshOf s.toDev n.val ≠ 0 → exec (.vaultTamper (.mesh n) seen held) s = .next (on s { s.toDev with
          tmp := { s.tmp with mesh := tset s.tmp.mesh n.val (meshClass s.toDev n.val seen) } })) ∧
        (∀ n : Fin 4, s.tmp.lid.getLsbD n.val = false → exec (.vaultTamper (.lid n) seen held) s = .next (on s { clearBank s.toDev with
          tmp := latched s.toDev { s.tmp with lid := s.tmp.lid ||| BitVec.ofNat 4 (2 ^ n.val) } (BitVec.ofNat 4 (2 ^ n.val)) 0 0 true held })) ∧
        (∀ m, m = .temperature ∨ m = .vbatOver ∨ m = .osc32 → monAlarmed s.toDev m = false → exec (.vaultTamper (.monitor m) seen held) s = .next (on s { clearBank s.toDev with
          tmp := latched s.toDev { s.tmp with mon := s.tmp.mon ||| monMask m } 0 0 (monBits m) true held })) ∧
        (∀ m, m ≠ .temperature → m ≠ .vbatOver → m ≠ .osc32 → exec (.vaultTamper (.monitor m) seen held) s = .next s)) ∧
      (∀ m, s.glb.power ≠ .off → m ∈ [Monitor.light, .temperature, .coreVoltage, .vmainOver, .vbatOver, .fabricClock, .xtal, .osc32] →
        exec (.tamperSourceClear (.monitor m)) s = .next (on s { s.toDev with tmp := { s.tmp with
          mon := s.tmp.mon &&& ~~~monMask m,
          clearSince := if s.tmp.lid = 0 ∧ meshBits s.tmp.mesh = 0 ∧ s.tmp.mon &&& ~~~monMask m = 0 then some (s.tmp.clearSince.getD s.now) else s.tmp.clearSince } })) ∧
      (∀ t0, powered s.toDev = true → s.glb.rsvOk = true → s.key.grantLock = false → s.tmp.hold = true → anyAlarm s.toDev = false → s.tmp.clearSince = some t0 → t0 + secondCycles ≤ s.now →
        exec .tamperHoldRecheck s = .next (on s (
          let d := lateRoot { s.toDev with tmp := { s.tmp with hold := false } }
          logRec d (recEvent "TMP" 0 (b4 (rTmpStatus d)))))) ∧
      (∀ t0, powered s.toDev = true → s.tmp.clearSince = some t0 → s.now < t0 + secondCycles → exec .tamperHoldRecheck s = .next s) ∧
      (s.glb.rsvOk = false ∨ s.key.grantLock = true → exec .tamperHoldRecheck s = .next s))

/-- World commands: watchdog, hand-over, policy barrier, violation and trap queues. The secure world kicks the watchdog with its key, hands peripherals over (to the owning world at once with RESULT 2 and no reset, an index above 22 with RESULT 3, and a write while GO reads 1 has no effect: R99), runs the policy barrier and pops violation reports and traps; each write by the normal world is a violation and changes nothing else. The hand-over's end moves OWN and clears the peripheral's interrupt. -/
def Obligations.WorldCommandsAct : Prop :=
  ∀ (s : State) (m : Master), masterSecure s.toDev m = true →
    (exec (.swdtKick m 0xC35A) s = .next (on s { s.toDev with sec := { s.sec with swdtCount := s.sec.swdtLoad.toNat, swdtWarned := false } })) ∧
    (∀ k, k ≠ 0xC35A → exec (.swdtKick m k) s = .next (on s (violate s.toDev m regionNone slaveRegs (writeKind m) true (Base.sec + 0x24)))) ∧
    (s.sec.swdtWarned = false → s.dbg.halted.any (·.2) = false → s.glb.power = .run → s.sec.swdtCount ≤ s.sec.swdtLoad.toNat / 8 →
      exec .swdtWarning s = .next (on s (raiseSecure { s.toDev with sec := { s.sec with swdtWarned := true } } irqWatchdog))) ∧
    (s.sec.swdtWarned = true ∨ s.dbg.halted.any (·.2) = true ∨ s.glb.power ≠ .run ∨ s.sec.swdtLoad.toNat / 8 < s.sec.swdtCount → exec .swdtWarning s = .next s) ∧
    (∀ (p : Fin 32) (b : Bool), s.sec.hoGo = true → exec (.handover m p b) s = .next s) ∧
    (∀ (p : Fin 32) (b : Bool), s.sec.hoGo = false → 23 ≤ p.val →
      exec (.handover m p b) s = .next (on s { s.toDev with sec := { s.sec with hoResult := 3, hoTo := b, hoPeriph := BitVec.ofNat 5 p.val } })) ∧
    (∀ (p : Fin 32) (b : Bool), s.sec.hoGo = false → p.val < 23 → s.sec.own.getLsbD p.val = b →
      exec (.handover m p b) s = .next (on s { s.toDev with sec := { s.sec with hoResult := 2, hoTo := b, hoPeriph := BitVec.ofNat 5 p.val } })) ∧
    (∀ (p : Fin 32) (b : Bool), s.sec.hoGo = false → p.val < 16 → s.sec.own.getLsbD p.val = !b →
      exec (.handover m p b) s = .next (on s { s.toDev with sec := { s.sec with hoGo := true, hoResult := 0, hoTo := b, hoPeriph := BitVec.ofNat 5 p.val }, tmr := tset s.tmr p.val {} })) ∧
    (∀ (p : Fin 23) (own : BitVec 23), s.sec.hoGo = true → s.sec.hoPeriph = BitVec.ofNat 5 p.val → p.val < 18 ∨ p.val = 22 →
      own = (if s.sec.hoTo then s.sec.own ||| BitVec.ofNat 23 (2 ^ p.val) else s.sec.own &&& ~~~BitVec.ofNat 23 (2 ^ p.val)) →
      exec .handoverComplete s = .next (on s (sweepWaiting (logRec
        { s.toDev with sec := { s.sec with own, fresh := { s.sec.fresh with own := s.sec.own :: s.sec.fresh.own }, hoGo := false, hoResult := 1, irqSecure := clearIrq s.sec.irqSecure p.val, irqNormal := clearIrq s.sec.irqNormal p.val } }
        (recEvent "SEC" 0 (leBytes 4 own.toNat)))))) ∧
    (s.sec.barrier = false → exec (.policyBarrier m) s = .next (on s { s.toDev with sec := { s.sec with barrier := true, covered := s.sec.fresh, fresh := {} } })) ∧
    (exec .barrierComplete s = .next (on s { s.toDev with sec := { s.sec with barrier := false, covered := {} } })) ∧
    (∀ v l o, s.sec.viol = v :: l → l ≠ [] → o = (if v.pauses then s.glb.errD.openCauses.erase (8, 0) else s.glb.errD.openCauses) →
      exec (.violationPop m) s = .next (on s { s.toDev with sec := { s.sec with viol := l }, glb := { s.glb with errD := { s.glb.errD with openCauses := o, paused := if v.pauses then !o.isEmpty else s.glb.errD.paused } } })) ∧
    (∀ v o, s.sec.viol = [v] → o = s.glb.errD.openCauses.filter (· != (8, 0)) →
      exec (.violationPop m) s = .next (on s { s.toDev with sec := { s.sec with viol := [] }, glb := { s.glb with errD := { s.glb.errD with openCauses := o, paused := if o = s.glb.errD.openCauses then s.glb.errD.paused else !o.isEmpty } } })) ∧
    (∀ t l q, s.cls.traps = t :: l → t.squashed = false → tget s.reqs t.rid = some q → q.fragOpen = false →
      exec (.trapPop m) s = .next (on s (finish { s.toDev with cls := { s.cls with traps := l } } t.rid q.trapStatus))) ∧
    (∀ t l, s.cls.traps = t :: l → t.squashed = true → exec (.trapPop m) s = .next (on s { s.toDev with cls := { s.cls with traps := l } })) ∧
    (∀ n, masterSecure s.toDev n = false →
      exec (.swdtKick n 0xC35A) s = .next (on s (violate s.toDev n regionNone slaveRegs (writeKind n) true (Base.sec + 0x24))) ∧
      (∀ p b, exec (.handover n p b) s = .next (on s (violate s.toDev n regionNone slaveRegs (writeKind n) true (Base.sec + 0x14)))) ∧
      exec (.policyBarrier n) s = .next (on s (violate s.toDev n regionNone slaveRegs (writeKind n) true (Base.sec + 0x38))) ∧
      exec (.violationPop n) s = .next (on s (violate s.toDev n regionNone slaveRegs (writeKind n) true (Base.sec + 0x40))) ∧
      exec (.trapPop n) s = .next (on s (violate s.toDev n regionNone slaveRegs (writeKind n) true (Base.cls + 0x40))))

/-- Host accesses to registers and message boards. In RUN a host write of a legal shape writes the register it reaches or is a violation where host access is denied; a read answers the bytes and clears the read-clear fields it covers; a bad shape is a completer abort; an empty offset reads 0. Writes to a board miss its 64-byte header and change no other byte; a DISABLED stall's board takes none from its VF. -/
def Obligations.HostAccessesReachRegistersAndBoards : Prop :=
  (
    ∀ (s : State) (f : Func) (a n : Nat) (v : Bytes), hostReady s f → v.length = n →
      (∀ p o, locate s.toDev f a = .reg p o → regShape a n = true → (wordOffs o n).any (moving s.toDev p) = false →
        ((wordOffs o n).any (hostDenied s.toDev p) = false → exec (.registerWrite (.host f) a n v) s = .next (on s (writeBytes s.toDev (.host f) p o v))) ∧
        ((wordOffs o n).any (hostDenied s.toDev p) = true →
          exec (.registerWrite (.host f) a n v) s = .next (on s (violate s.toDev (.host f) regionNone slaveRegs Kind.write true (pfAddr f a)))) ∧
        exec (.rcFieldRead (.host f) a n) s = .next (on s (emit (clearRead s.toDev p o n) (.tlp f (.data (readBytes s.toDev p o n)))))) ∧
      (∀ p o, locate s.toDev f a = .reg p o → regShape a n = true → (wordOffs o n).any (moving s.toDev p) = true →
        exec (.registerWrite (.host f) a n v) s = .next (on s (violate s.toDev (.host f) regionTransit slaveRegs Kind.write true (pfAddr f a))) ∧
        exec (.rcFieldRead (.host f) a n) s = .next (on s (emit (violate s.toDev (.host f) regionTransit slaveRegs Kind.read true (pfAddr f a)) (.tlp f (.denied (zeros n)))))) ∧
      (∀ p o, locate s.toDev f a = .reg p o → regShape a n = false →
        exec (.registerWrite (.host f) a n v) s = .next (on s (errC (aerReport (emit s.toDev (.tlp f .ca)) (errFunc s.toDev f) .completerAbort))) ∧
        exec (.rcFieldRead (.host f) a n) s = .next (on s (errC (aerReport (emit s.toDev (.tlp f .ca)) (errFunc s.toDev f) .completerAbort)))) ∧
      (locate s.toDev f a = .nothing → regShape a n = true →
        exec (.registerWrite (.host f) a n v) s = .next s ∧ exec (.rcFieldRead (.host f) a n) s = .next (on s (emit s.toDev (.tlp f (.data (zeros n)))))) ∧
      (f = .pf → a = 0x24 → n = 1 → exec (.registerWrite (.host f) a n v) s = .next (on s { s.toDev with glb := { s.glb with resetCause := s.glb.resetCause &&& ~~~(byteAt v 0) } })) ∧
      (f = .pf → a = 0x18 → n = 1 → exec (.registerWrite (.host f) a n v) s = .next (on s { s.toDev with glb := { s.glb with clkCtl := byteAt v 0 } })) ∧
      (f = .pf → a = 0x80 → n = 4 → exec (.rcFieldRead (.host f) a n) s = .next (on s (emit s.toDev (.tlp .pf (.data (b4 (rLcState s.toDev))))))) ∧
      (f = .pf → a = 0x80 → n = 4 → exec (.registerWrite (.host f) a n v) s = .next (on s (violate s.toDev (.host .pf) regionNone slaveRegs Kind.write true 0x80)))) ∧
  (
    ∀ (s : State) (f : Func) (a : Nat) (v : Bytes) (k : Fin 64) (o : Nat), hostReady s f → memWf s.stl.boards = true → locate s.toDev f a = .board k o → memShape o v.length 4096 = true →
      (f = .pf ∨ enabled (stall s.toDev k.val) = true → ∃ t, exec (.registerWrite (.host f) a v.length v) s = .next t ∧
        t = on s { s.toDev with stl := { s.stl with boards := t.stl.boards } } ∧
        (∀ i, i < v.length → 64 ≤ o + i → memRead t.stl.boards (4096 * k.val + o + i) = byteAt v i) ∧
        (∀ x, x < 4096 * k.val + max o 64 ∨ 4096 * k.val + o + v.length ≤ x → memRead t.stl.boards x = memRead s.stl.boards x)) ∧
      (f ≠ .pf → enabled (stall s.toDev k.val) = false → exec (.registerWrite (.host f) a v.length v) s = .next s) ∧
      (f = .pf ∨ enabled (stall s.toDev k.val) = true →
        exec (.rcFieldRead (.host f) a v.length) s = .next (on s (emit s.toDev (.tlp f (.data (memBytes s.stl.boards (4096 * k.val + o) v.length)))))))

/-- Inner accesses are checked at both ends. A write or a read of an inner master that the checks deny is one violation and moves no data; one that passes to SRAM moves exactly its bytes. The secure world of CP0 reaches SRAM under the boot rule; with every rule covered by a barrier a normal master is denied at the initiator without a region and at the watermark with one. Until then which of the rules a check holds is a free value (log 29). -/
def Obligations.InnerAccessesAreChecked : Prop :=
  ∀ (s : State) (m : Master) (a : Nat) (v : Bytes), isHost m = false → s.glb.power = .run → v ≠ [] →
    (∀ x, writeKind m = Kind.write → denial s.toDev m (inner s.toDev a) a v.length Kind.write = some x →
      exec (.registerWrite m a v.length v) s = .next (on s (violate (checked s.toDev) m x.region (slaveOf (inner s.toDev a)) Kind.write x.target a))) ∧
    (∀ x, writeKind m = Kind.atomic → denial s.toDev m (inner s.toDev a) a v.length Kind.atomic = some x →
      exec (.registerWrite m a v.length v) s = .next (on s (emit (violate (checked s.toDev) m x.region (slaveOf (inner s.toDev a)) Kind.atomic x.target a) (.bus m none)))) ∧
    (∀ x k, readKind m = k → k ≠ Kind.fetch → denial s.toDev m (inner s.toDev a) a v.length k = some x →
      exec (.rcFieldRead m a v.length) s = .next (on s (emit (violate (checked s.toDev) m x.region (slaveOf (inner s.toDev a)) k x.target a) (.bus m none)))) ∧
    (∀ x, readKind m = Kind.fetch → denial s.toDev m (inner s.toDev a) a v.length Kind.fetch = some x →
      exec (.rcFieldRead m a v.length) s = .next (on s (emit (violate (checked s.toDev) m x.region (slaveOf (inner s.toDev a)) Kind.fetch x.target a) (.fetchFault (masterNum m))))) ∧
    (writeKind m = Kind.write → denial s.toDev m (inner s.toDev a) a v.length Kind.write = none → inner s.toDev a = .sram →
      exec (.registerWrite m a v.length v) s = .next (on s { checked s.toDev with sram := memWriteBytes s.sram a v })) ∧
    (writeKind m = Kind.atomic → denial s.toDev m (inner s.toDev a) a v.length Kind.atomic = none → inner s.toDev a = .sram →
      exec (.registerWrite m a v.length v) s = .next (on s (emit { checked s.toDev with sram := memWriteBytes s.sram a v } (.bus m (some (memBytes s.sram a v.length)))))) ∧
    (denial s.toDev m (inner s.toDev a) a v.length (readKind m) = none → inner s.toDev a = .sram →
      exec (.rcFieldRead m a v.length) s = .next (on s (emit (checked s.toDev) (.bus m (some (memBytes s.sram a v.length)))))) ∧
    (∀ u : AccUse, 0x20000000 ≤ a → a < 0x20800000 → m = .cp 0 true u →
      (u.kind ≠ .atomic → exec (.registerWrite m a v.length v) s = .next (on s { checked s.toDev with sram := memWriteBytes s.sram a v })) ∧
      (u.kind = .data → exec (.rcFieldRead m a v.length) s = .next (on s (emit (checked s.toDev) (.bus m (some (memBytes s.sram a v.length)))))) ∧
      (u.kind = .fetch → settled s.toDev = true → sramSecure s.toDev a = true →
        exec (.rcFieldRead m a v.length) s = .next (on s (emit s.toDev (.bus m (some (memBytes s.sram a v.length)))))) ∧
      (u.kind = .fetch → settled s.toDev = true → sramSecure s.toDev a = false →
        exec (.rcFieldRead m a v.length) s = .next (on s (emit (violate s.toDev m regionWatermark slaveSram Kind.fetch true a) (.fetchFault 0))))) ∧
    (settled s.toDev = true → 0x20000000 ≤ a → a < 0x20800000 → writeKind m = Kind.write → masterSecure s.toDev m = false → sramSecure s.toDev a = true →
      deciding s.sec.mpu (16 * masterNum m) 16 a = none →
      exec (.registerWrite m a v.length v) s = .next (on s (violate s.toDev m regionNone slaveSram Kind.write false a))) ∧
    (∀ r, settled s.toDev = true → 0x20000000 ≤ a → a < 0x20800000 → writeKind m = Kind.write → masterSecure s.toDev m = false → sramSecure s.toDev a = true →
      deciding s.sec.mpu (16 * masterNum m) 16 a = some r → allowed r.2 false Kind.write = true →
      exec (.registerWrite m a v.length v) s = .next (on s (violate s.toDev m regionWatermark slaveSram Kind.write true a)))

/-- The ledger check and the Class D pause. A due check of a balanced ledger samples every pool and counts one pass; a check that fails counts no pass, raises one Class F error, queues one record for each failed pool and moves no unit. A pause of 100 ms becomes Class F. -/
def Obligations.LedgerCheckAndPause : Prop :=
  ∀ s : State,
    (∀ t0, (s.glb.power = .run ∨ s.glb.power = .doze) → s.ldg.initAt = some t0 → t0 + 1024 ≤ s.now → Safety.ledgerOk s.toDev → exec .ledgerCheck s = .next (on s { s.toDev with ldg := { s.ldg with
        initAt := some s.now, sample := poolIdx.map fun p => (p, (poolOf s.toDev p).sample), checks := if s.ldg.checks = 0xFFFFFFFF then s.ldg.checks else s.ldg.checks + 1 } })) ∧
    (∀ t0 l, (s.glb.power = .run ∨ s.glb.power = .doze) → s.ldg.initAt = some t0 → t0 + 1024 ≤ s.now → failedPools s.toDev = l → l ≠ [] → ∃ t, exec .ledgerCheck s = .next t ∧ t.pending = s.pending ∧ t.ldg.checks = s.ldg.checks ∧
      (s.glb.fatal = none → t.glb.fatal = some { since := s.now, waiting := l.length }) ∧
      (s.evr.isOpen = true → ∀ p ∈ l, ∃ r ∈ t.evr.queue, r.rtype = 0x9002 ∧ r.payload = b2 0x0001 ++ BitVec.ofNat 8 p :: triple (poolOf s.toDev p)) ∧
      (∀ p, poolOf t.toDev p = poolOf s.toDev p)) ∧
    (s.ldg.initAt = none ∨ (∃ t0, s.ldg.initAt = some t0 ∧ s.now < t0 + 1024) ∨ (s.glb.power ≠ .run ∧ s.glb.power ≠ .doze) → exec .ledgerCheck s = .next s) ∧
    (s.glb.errD.paused = true → s.glb.errD.since + secondCycles / 10 ≤ s.now → exec .classDPauseTimeout s = .next (on s (errF s.toDev s.glb.errD.code (rErrD s.toDev) 0))) ∧
    (s.glb.errD.paused = false ∨ s.now < s.glb.errD.since + secondCycles / 10 → exec .classDPauseTimeout s = .next s)

/-- PCIe functions, configuration requests and HOT reset. VF Enable and its clearing, FLR of a VF and of the PF, Bus Master, MSI-X unblocking and D3hot act on functions and stalls; configuration requests get CRS while a function is not ready, UR beyond the functions and their data otherwise; a HOT reset takes the link down, disables VFs and stalls and keeps the device. The layout of configuration space is presumed (log 32), the link's move into L1 is the model's (log 31). -/
def Obligations.PcieFunctionsAndResets : Prop :=
  (
    ∀ s : State,
      (s.hif.vfEnable = false → s.hif.vfRemoving = false → s.hif.ariHier = true ∨ s.hif.numVfs.toNat ≤ 7 →
        exec .vfEnable s = .next (on s { s.toDev with hif := { s.hif with vfEnable := true, askedVfs := s.hif.numVfs.toNat, askedAri := s.hif.ariHier, vfCount := if s.hif.ariHier then min s.hif.numVfs.toNat 64 else min s.hif.numVfs.toNat 7 } })) ∧
      (s.hif.vfEnable = true → ∃ t, exec .vfDisable s = .next t ∧ t.pending = s.pending ∧ t.hif.vfEnable = false ∧ (∀ n, vfExists t.toDev n = false) ∧
        (∀ n : Fin 64, enabled (stall s.toDev n.val) = true → (stall t.toDev n.val).st = .removing ∧ t.hif.vfRemoving = true) ∧
        (∀ n : Fin 64, enabled (stall s.toDev n.val) = false → (stall s.toDev n.val).job = none → (stall t.toDev n.val).st = .disabled)) ∧
      (s.hif.vfEnable = false → s.hif.vfRemoving = true →
        exec .vfEnable s = .next (on s { s.toDev with hif := { s.hif with vfEnable := true, askedVfs := s.hif.numVfs.toNat, askedAri := s.hif.ariHier } })) ∧
      (∀ n : Fin 64, vfExists s.toDev n.val = true → enabled (stall s.toDev n.val) = true → (stall s.toDev n.val).job = none → ∃ t, exec (.vfFlr n) s = .next t ∧ t.pending = s.pending ∧
        t.hif.flrBusy.getLsbD n.val = true ∧ (stall t.toDev n.val).st = .resetting ∧
        (stall t.toDev n.val).job = some { mode := if s.hif.flrDrain then .drain else .squash, cause := 4, removal := false, flr := true, since := s.now } ∧
        (∀ m, m ≠ n.val → (stall t.toDev m).st = (stall s.toDev m).st)) ∧
      (∀ n : Fin 64, vfExists s.toDev n.val = true → enabled (stall s.toDev n.val) = false →
        exec (.vfFlr n) s = .next (on s (signal (freshFunc s.toDev (.vf n)) .pf 2))) ∧
      (∃ t, exec .pfFlr s = .next t ∧ t.pending = s.pending ∧ t.hif.vfEnable = false ∧ (∀ n, vfExists t.toDev n = false) ∧ (cfgOf t.toDev .pf).busMaster = false ∧ t.stl.pfRing = {} ∧
        (∀ n : Fin 64, enabled (stall s.toDev n.val) = true → (stall s.toDev n.val).job = none → (stall t.toDev n.val).st = .resetting ∧ t.hif.pfFlrBusy = true)) ∧
      (∀ f, exec (.busMasterDisable f) s = .next (on s { s.toDev with hif := { s.hif with cfg := tset s.hif.cfg (funcIdx f) { cfgOf s.toDev f with busMaster := false } } })) ∧
      (∀ f (v : Fin 16) c, c = cfgOf s.toDev f → c.pba.getLsbD v.val = true → c.msixEnable = true → c.busMaster = true → c.funcMask = false → s.hif.d3hot = false →
        exec (.msixUnblock f v) s = .next (on s { s.toDev with out := .msix f v.val :: s.out, hif := { s.hif with cfg := tset (tset s.hif.cfg (funcIdx f) { c with vecMask := c.vecMask &&& ~~~BitVec.ofNat 16 (2 ^ v.val) }) (funcIdx f) { c with vecMask := c.vecMask &&& ~~~BitVec.ofNat 16 (2 ^ v.val), pba := c.pba &&& ~~~BitVec.ofNat 16 (2 ^ v.val) } } })) ∧
      (∀ f (v : Fin 16) c, c = cfgOf s.toDev f → c.pba.getLsbD v.val = false →
        exec (.msixUnblock f v) s = .next (on s { s.toDev with hif := { s.hif with cfg := tset s.hif.cfg (funcIdx f) { c with vecMask := c.vecMask &&& ~~~BitVec.ofNat 16 (2 ^ v.val) } } })) ∧
      (s.hif.up = true → exec .d3hotEntry s = .next (on s { s.toDev with hif := { s.hif with d3hot := true, link := .l1 } })) ∧
      (s.hif.d3hot = true → exec .d0Return s = .next (on s (resumeDma { s.toDev with hif := { s.hif with d3hot := false, link := if s.hif.up then .l0 else s.hif.link } }))) ∧
      (s.hif.d3hot = false → exec .d0Return s = .next s)) ∧
  (
    ∀ s : State,
      (∀ f o w, s.hif.up = true → crossStalled s.toDev .pcie = false → s.glb.power = .run → s.glb.boot ≠ .done ∨ s.glb.hotWait = true ∨ funcBusy s.toDev f = true →
        exec (.configRequest f o w) s = .next (on s (emit s.toDev (.tlp f .crs)))) ∧
      (∀ (n : Fin 64) o w, s.glb.power = .run → s.hif.up = true → crossStalled s.toDev .pcie = false → s.glb.boot = .done → s.glb.hotWait = false → funcBusy s.toDev (.vf n) = false → s.hif.vfCount ≤ n.val →
        exec (.configRequest (.vf n) o w) s = .next (on s (emit s.toDev (.tlp (.vf n) .ur)))) ∧
      (s.glb.power = .run → s.hif.up = true → crossStalled s.toDev .pcie = false → s.glb.boot = .done → s.glb.hotWait = false → s.hif.pfFlrBusy = false →
        exec (.configRequest .pf 0 none) s = .next (on s (emit s.toDev (.tlp .pf (.ok 0x48301D7C)))) ∧
        exec (.configRequest .pf 0x2C none) s = .next (on s (emit s.toDev (.tlp .pf (.ok 0x00481D7C)))) ∧
        exec (.configRequest .pf 0x104 none) s = .next (on s (emit s.toDev (.tlp .pf (.ok (cfgOf s.toDev .pf).aerUnc)))) ∧
        exec (.configRequest .pf 0x110 none) s = .next (on s (emit s.toDev (.tlp .pf (.ok (cfgOf s.toDev .pf).aerCor)))) ∧
        exec (.configRequest .pf 0 (some 0)) s = .next (on s (emit s.toDev (.tlp .pf (.ok 0)))) ∧
        exec (.configRequest .pf 0x44 (some 3)) s = .next (on s (emit { s.toDev with hif := { s.hif with pmeEn := false, d3hot := true, link := .l1 } } (.tlp .pf (.ok 0)))) ∧
        ∀ v : Word, exec (.configRequest .pf 0x198 (some v)) s = .next (on s (emit { s.toDev with hif := { s.hif with numVfs := v.setWidth 16 } } (.tlp .pf (.ok 0))))) ∧
      (∀ f o w, s.glb.power = .doze → s.hif.up = true → crossStalled s.toDev .pcie = false → s.hif.d3hot = false →
        exec (.configRequest f o w) s = .next (on s { s.toDev with glb := { s.glb with waking := true, heldAccess := s.glb.heldAccess ++ [.config f o w] } })) ∧
      (∀ c, hotArises s.toDev c = true → powered s.toDev = true → s.glb.boot = .done → ∃ t, exec (.hotReset c) s = .next t ∧ t.pending = s.pending ∧
        t.glb.resetCause = s.glb.resetCause ||| 0x08 ∧ t.hif.up = false ∧ t.hif.link = .down ∧ t.glb.hotWait = true ∧ t.hif.vfEnable = false ∧ t.hif.vfCount = 0 ∧ t.glb.heldAccess = [] ∧
        t.glb.pcc = s.glb.pcc ∧ t.glb.straps = s.glb.straps ∧ t.tmp = s.tmp ∧ t.psUser = s.psUser ∧ t.sram = s.sram ∧ (c = .perst → t.glb.perstN = false) ∧ (∀ n, (stall t.toDev n).st = .disabled)) ∧
      (∀ f o w, s.hif.up = false ∨ crossStalled s.toDev .pcie = true → exec (.configRequest f o w) s = .next s) ∧
      (∀ c, hotArises s.toDev c = true → powered s.toDev = true → s.glb.boot ≠ .done → ∃ t, exec (.hotReset c) s = .next t ∧ t.pending = s.pending ∧
        t.glb.resetCause = s.glb.resetCause ||| 0x08 ∧ t.glb.raised = s.glb.raised ||| 0x08 ∧ t.hif.up = false ∧ t.glb.boot = s.glb.boot ∧ t.stl = s.stl) ∧
      (∀ c, hotArises s.toDev c = false → exec (.hotReset c) s = .next s))

/-- PCIe errors and the ends of DMA reads. Correctable and advisory errors are Class C; a fatal error fences every outstanding tag and is Class D; the end of a fenced read retires its unit and nothing else; a parameter read gives its bytes to its request or ends it with ST_DMA_FAIL; an unknown tag changes nothing. -/
def Obligations.PcieErrorsAndReads : Prop :=
  ∀ s : State,
    (∀ f k, s.hif.up = true → exec (.pcieCorrectableError f k) s = .next (on s (errC (aerReport s.toDev (errFunc s.toDev f) (.correctable k))))) ∧
    (∀ f k, s.hif.up = true → exec (.pcieAdvisoryError f k) s = .next (on s (errC (aerReport s.toDev (errFunc s.toDev f) (.advisory k))))) ∧
    (∀ k, s.hif.up = true → twf s.hif.tags = true → ∃ t, exec (.pcieFatalError k) s = .next t ∧ t.pending = s.pending ∧ t.hif.dmaHeld = true ∧ (∀ e ∈ t.hif.tags, e.2.fenced = true) ∧
      t.glb.errDCount = (if s.glb.errDCount = 0xFFFF then s.glb.errDCount else s.glb.errDCount + 1)) ∧
    (∀ f k l m, s.hif.up = false → exec (.pcieCorrectableError f k) s = .next s ∧ exec (.pcieAdvisoryError f l) s = .next s ∧ exec (.pcieFatalError m) s = .next s) ∧
    (∀ t e b k, crossStalled s.toDev .pcie = false → tget s.hif.tags t = some e → e.fenced = true →
      exec (.dmaCompletion t b) s = .next (on s (pumpParams (ldgRetire { s.toDev with hif := { s.hif with tags := tdel s.hif.tags t } } 4 H.fenced 1))) ∧
      exec (.dmaCompletionError t k) s = .next (on s (pumpParams (ldgRetire { s.toDev with hif := { s.hif with tags := tdel s.hif.tags t } } 4 H.fenced 1))) ∧
      exec (.completionTimeout t) s = .next (on s (pumpParams (ldgRetire { s.toDev with hif := { s.hif with tags := tdel s.hif.tags t } } 4 H.fenced 1)))) ∧
    (∀ t f rid q b, crossStalled s.toDev .pcie = false → tget s.hif.tags t = some { func := f, use := .params rid } → tget s.reqs rid = some q → q.stage = .awaitData → b.length = ohLen q.bytes - 32 →
      exec (.dmaCompletion t b) s = .next (on s (pumpParams (setReq (dmaRetire s.toDev t { func := f, use := .params rid }) rid
        { q with bytes := q.bytes ++ b, cells := chain (cellIdx q.cells) (q.bytes ++ b), stage := .held })))) ∧
    (∀ t f rid q k, crossStalled s.toDev .pcie = false → tget s.hif.tags t = some { func := f, use := .params rid } → tget s.reqs rid = some q →
      exec (.dmaCompletionError t k) s = .next (on s (pumpParams (advanceEntries q.issuer 5 (finish
        (errIssuer (aerReport (dmaRetire s.toDev t { func := f, use := .params rid }) f (.nonFatal (some k))) q.issuer ST.dmaFail) rid ST.dmaFail)))) ∧
      exec (.completionTimeout t) s = .next (on s (pumpParams (advanceEntries q.issuer 5 (finish
        (errIssuer (aerReport (dmaRetire s.toDev t { func := f, use := .params rid }) f (.nonFatal none)) q.issuer ST.dmaFail) rid ST.dmaFail))))) ∧
    (∀ t b k, tget s.hif.tags t = none ∨ crossStalled s.toDev .pcie = true → exec (.dmaCompletion t b) s = .next s ∧ exec (.dmaCompletionError t k) s = .next s ∧ exec (.completionTimeout t) s = .next s)

/-- Operations on a stall. ENABLE, PAUSE and RESUME move a stall in the right state to the next one with a new generation and header and touch no other stall, request, cell, unit or key; RESET and REMOVE begin the reset of an enabled stall and, in squash mode, leave no request of it; in a wrong state each reports ST_STALL_STATE and moves nothing. -/
def Obligations.StallOperationsAct : Prop :=
  ∀ (s : State) (n : Fin 64) (x : Stall), x = stall s.toDev n.val → memWf s.stl.boards = true → twf s.reqs = true →
    (x.st = .disabled → vfExists s.toDev n.val = true → n.val < partN s.toDev → (enabledCount s.toDev + 1) * slotShare s.toDev + slotsOf s.toDev .pf ≤ 4096 →
      ∃ t, exec (.enable n) s = .next t ∧ stallMoves s t n.val { x with op := 1, mode := false, status := ST.ok, st := .ready, gen := nextGen x.gen }) ∧
    (x.st = .active → ∃ t, exec (.pause n) s = .next t ∧ stallMoves s t n.val { x with op := 2, mode := false, status := ST.ok, st := .paused, gen := nextGen x.gen }) ∧
    (x.st = .paused → ∃ t, exec (.resume n) s = .next t ∧ stallMoves s t n.val { x with op := 3, mode := false, status := ST.ok, st := .active, gen := nextGen x.gen }) ∧
    (∀ mode, x.st = .ready ∨ x.st = .active ∨ x.st = .paused ∨ x.st = .faulted → x.job = none →
      (∃ t, exec (.reset n mode) s = .next t ∧ stallResets s t n.val { mode, cause := 1, removal := false, flr := false, since := s.now }) ∧
      (∃ t, exec (.remove n mode) s = .next t ∧ stallResets s t n.val { mode, cause := 2, removal := true, flr := false, since := s.now })) ∧
    (x.st ≠ .disabled → exec (.enable n) s = .next (on s (setStall s.toDev n.val { x with op := 1, mode := false, status := ST.stallState }))) ∧
    (x.st ≠ .active → exec (.pause n) s = .next (on s (setStall s.toDev n.val { x with op := 2, mode := false, status := ST.stallState }))) ∧
    (x.st ≠ .paused → exec (.resume n) s = .next (on s (setStall s.toDev n.val { x with op := 3, mode := false, status := ST.stallState }))) ∧
    (∀ mode, x.st = .disabled → x.job = none →
      exec (.reset n mode) s = .next (on s (setStall s.toDev n.val { x with op := 4, mode := mode == .drain, status := ST.stallState })) ∧
      exec (.remove n mode) s = .next (on s (setStall s.toDev n.val { x with op := 5, mode := mode == .drain, status := ST.stallState })))

/-- Stall resets end, and partitions change. The drain cap squashes what is left; the end of a reset leaves the stall READY or DISABLED, without job, requests or credits, with the reset counted and its ring and board as the kind of reset says; a change of partition checks its conditions and then takes its new shares at once (the model's reading of its duration, log 1). -/
def Obligations.StallResetsEndAndPartitionsChange : Prop :=
  ∀ (s : State) (n : Fin 64) (x : Stall), x = stall s.toDev n.val → memWf s.stl.boards = true → twf s.reqs = true →
    (∀ j, x.job = some j → j.mode = .drain → j.drained = false → j.since + 800000 ≤ s.now →
      exec (.drainCap n) s = .next (on s (squashDma (setStall s.toDev n.val { x with job := some { j with capped := true, drained := true } }) n.val))) ∧
    (∀ j, x.job = some j → j.mode = .squash ∨ j.drained = true ∨ s.now < j.since + 800000 → exec (.drainCap n) s = .next s) ∧
    (∀ j, x.job = some j → j.mode = .squash ∨ j.drained = true → ∃ t, exec (.stallResetComplete { stall := n }) s = .next t ∧ t.pending = s.pending ∧
      (stall t.toDev n.val).st = (if j.removal then .disabled else .ready) ∧ (stall t.toDev n.val).job = none ∧ (stall t.toDev n.val).recovery = 0 ∧
      (stall t.toDev n.val).resets = (if x.resets = 0xFFFFFFFF then x.resets else x.resets + 1) ∧ (stall t.toDev n.val).lastStatus = ST.ok ∧ (stall t.toDev n.val).lastCause = j.cause ∧
      (stall t.toDev n.val).lastMode = ((if j.mode = .drain then 1 else 0) ||| (if j.capped then 2 else 0)) ∧
      (stall t.toDev n.val).ring = (if j.removal then {} else { sqBase := x.ring.sqBase, cqBase := x.ring.cqBase, depthLog2 := x.ring.depthLog2, status := x.ring.status, cqDbBad := x.ring.cqDbBad }) ∧
      heldBy t.toDev 0 n.val = 0 ∧ t.hif.flrBusy.getLsbD n.val = false ∧ (∀ e ∈ t.reqs, issuerIdx e.2.issuer ≠ n.val) ∧
      (j.removal = true → (∀ o, 64 ≤ o → o < 4096 → memRead t.stl.boards (4096 * n.val + o) = 0) ∧ (stall t.toDev n.val).logUse = 0)) ∧
    (x.job = none → s.hif.pfFlrBusy = false → s.hif.vfRemoving = false → exec (.stallResetComplete { stall := n }) s = .next s) ∧
    (x.job ≠ none → exec (.stallResetComplete { stall := n, tagBad := true }) s = .next (on s (errFOpen s.toDev (rYrdFree s.toDev)))) ∧
    (∀ (k : Fin 8) st, firstFail (partChecks s.toDev (min k.val 6)) = some st →
      exec (.partitionChange k) s = .next (on s { s.toDev with stl := { s.stl with partReq := min k.val 6, partStatus := st } })) ∧
    (∀ k : Fin 8, firstFail (partChecks s.toDev (min k.val 6)) = none → ∃ t, exec (.partitionChange k) s = .next t ∧ t.pending = s.pending ∧
      t.stl.partReq = min k.val 6 ∧ t.stl.partCur = min k.val 6 ∧ t.stl.partStatus = ST.ok ∧ (stall t.toDev n.val).st = x.st ∧ (stall t.toDev n.val).gen = x.gen ∧ (stall t.toDev n.val).ring = x.ring ∧
      (stall t.toDev n.val).logUse = 0 ∧ t.reqs = s.reqs ∧ t.ldg = s.ldg ∧ memBytes t.stl.boards (4096 * n.val) 64 = boardHeader t.toDev n.val)

/-- Mailboxes, the write log and the ring registers. Mailbox sends set the other side's inbox and its vector; SWAP exchanges the bitmaps. RING_CTL enables a ring of a READY stall or reports why not; restored registers are taken only while it is disabled; tail doorbells issue credits, fault the stall on a bad value and are dropped in the wrong state; head doorbells move CQ_HEAD or count. A write of the PF stands over one of the VF to the same register in one fabric cycle (24 R425). -/
def Obligations.RingsAndDoorbells : Prop :=
  (
    ∀ (s : State) (n : Fin 64) (x : Stall), x = stall s.toDev n.val →
      (exec (.mbSend n .pf) s = .next (on s (signal (setStall s.toDev n.val { x with inboxVf := true }) (.vf n) 1))) ∧
      (exec (.mbSend n .vf) s = .next (on s (
        let d := setStall s.toDev n.val { x with inboxPf := true }
        signal { d with stl := { d.stl with mbPend := s.stl.mbPend ||| BitVec.ofNat 64 (2 ^ n.val) } } .pf 1))) ∧
      (exec (.swap n) s = .next (on s (setStall s.toDev n.val { x with wlog := { x.wlog with bitmapB := !x.wlog.bitmapB } })))) ∧
  (
    ∀ (s : State) (n : Fin 64) (side : Side) (x : Stall) (r : Ring), x = stall s.toDev n.val → r = x.ring → (∀ o, side = .pf ∨ ¬ pfStands s n o) →
      (∀ k : Fin 16, 4 ≤ k.val → k.val ≤ 12 → 2 ^ k.val ≤ depthShare s.toDev → r.sqBase ≠ 0 → r.cqBase ≠ 0 → x.st = .ready →
        exec (.ringEnable (.stall n) side k) s = .next (on s (toState
          (ldgIssue (setRing (noted s side n 0x10) (.stall n) { r with en := true, depthLog2 := k.val, status := ST.ok, fetch := r.sqHead }) 0 n.val
            (ringDist { r with depthLog2 := k.val } r.sqHead r.sqTail)) n.val .active))) ∧
      (∀ k : Fin 16, 4 ≤ k.val → k.val ≤ 12 → s.stl.pfRing.en = false → s.stl.pfRing.sqBase ≠ 0 → s.stl.pfRing.cqBase ≠ 0 →
        exec (.ringEnable .pf side k) s = .next (on s (
          ldgIssue (setRing s.toDev .pf { s.stl.pfRing with en := true, depthLog2 := k.val, status := ST.ok, fetch := s.stl.pfRing.sqHead }) 0 H.pf
            (ringDist { s.stl.pfRing with depthLog2 := k.val } s.stl.pfRing.sqHead s.stl.pfRing.sqTail)))) ∧
      (∀ (k : Fin 16) st, st = (if x.st ≠ .ready then ST.stallState else if k.val < 4 ∨ 12 < k.val ∨ r.sqBase = 0 ∨ r.cqBase = 0 then ST.format
          else if depthShare s.toDev < 2 ^ k.val then ST.slotQuota else ST.ok) → st ≠ ST.ok →
        exec (.ringEnable (.stall n) side k) s = .next (on s (setRing (noted s side n 0x10) (.stall n) { r with status := st }))) ∧
      (∀ v : Word, r.en = false →
        exec (.ringRestoreWrite (.stall n) 0 v) s = .next (on s (setRing s.toDev (.stall n) { r with sqHead := fld v 0 12, fetch := fld v 0 12 })) ∧
        exec (.ringRestoreWrite (.stall n) 2 v) s = .next (on s (setRing s.toDev (.stall n) { r with cqTail := fld v 0 12, phase := bit v 16 }))) ∧
      (∀ v : Word, r.en = true → exec (.ringRestoreWrite (.stall n) 0 v) s = .next s ∧ exec (.ringRestoreWrite (.stall n) 2 v) s = .next s) ∧
      (∀ v : Word, r.en = true → x.st = .active ∨ x.st = .paused → fld v 0 12 < 2 ^ r.depthLog2 → ringDist r r.sqHead r.sqTail ≤ ringDist r r.sqHead (fld v 0 12) → fld v 0 12 ≠ r.sqTail →
        exec (.sqTail (.stall n) side v) s = .next (on s (ldgIssue (setRing (noted s side n 0x14) (.stall n) { r with sqTail := fld v 0 12 }) 0 n.val (ringDist r r.sqTail (fld v 0 12))))) ∧
      (∀ v : Word, r.en = true → x.st = .active ∨ x.st = .paused → 2 ^ r.depthLog2 ≤ fld v 0 12 ∨ ringDist r r.sqHead (fld v 0 12) < ringDist r r.sqHead r.sqTail →
        exec (.sqTail (.stall n) side v) s = .next (on s (faultStall (errT { noted s side n 0x14 with rng := s.rng + 1 } n.val (Config.openStatus s.rng)) n.val))) ∧
      (∀ v : Word, r.en = true → x.st = .faulted ∨ x.st = .resetting ∨ x.st = .removing ∨ x.st = .ready →
        exec (.sqTail (.stall n) side v) s = .next (on s (setStall (noted s side n 0x14) n.val { x with dbDropped := if x.dbDropped = 0xFFFFFFFF then x.dbDropped else x.dbDropped + 1 }))) ∧
      (∀ v : Word, r.en = true → fld v 0 12 < 2 ^ r.depthLog2 → ringDist r r.cqHead (fld v 0 12) ≤ ringDist r r.cqHead r.cqTail →
        exec (.cqHead (.stall n) side v) s = .next (on s (setRing (noted s side n 0x1C) (.stall n) { r with cqHead := fld v 0 12 }))) ∧
      (∀ v : Word, r.en = true → 2 ^ r.depthLog2 ≤ fld v 0 12 ∨ ringDist r r.cqHead r.cqTail < ringDist r r.cqHead (fld v 0 12) →
        exec (.cqHead (.stall n) side v) s = .next (on s (setRing (noted s side n 0x1C) (.stall n) { r with cqDbBad := if r.cqDbBad = 0xFFFF then r.cqDbBad else r.cqDbBad + 1 })))) ∧
  (
    ∀ (s : State) (n : Fin 64) (v : Word) (k : Fin 16),
      (pfStands s n 0x10 → exec (.ringEnable (.stall n) .vf k) s = .next s) ∧
      (pfStands s n 0x14 → exec (.sqTail (.stall n) .vf v) s = .next s) ∧
      (pfStands s n 0x1C → exec (.cqHead (.stall n) .vf v) s = .next s) ∧
      (∃ t, exec (.sqTail (.stall n) .pf v) s = .next t ∧ pfStands t n 0x14) ∧ (∃ t, exec (.cqHead (.stall n) .pf v) s = .next t ∧ pfStands t n 0x1C))

/-- The weirs fill every millisecond. A weir tick adds each metered stall's increments to its command and byte tokens, up to their bursts, and changes nothing else, for every stall. -/
def Obligations.WeirsFillAndMeter : Prop :=
  ∀ (s : State) (n : Nat), twf s.stl.stalls = true → ∃ t, exec .weirTick s = .next t ∧ t = on s { s.toDev with stl := { s.stl with stalls := t.stl.stalls } } ∧
    stall t.toDev n = (if (stall s.toDev n).fMetered then
      { stall s.toDev n with ctok := min ((stall s.toDev n).ctok + (stall s.toDev n).cinc) (65536 * (stall s.toDev n).fCmdBurst),
                             btok := min ((stall s.toDev n).btok + (stall s.toDev n).binc) (67108864 * (stall s.toDev n).fByteBurst) }
      else stall s.toDev n)

/-- Submission entries are fetched and checked. Where a ring may fetch, an entry takes cells and a tag and joins the requests (which cells and tag is free, log 8); otherwise nothing happens; a received entry that fails its check ends with that status, charged to the stall's weir; one that passes joins its queue or waits for its parameters. -/
def Obligations.EntriesAreFetchedAndChecked : Prop :=
  ∀ (s : State) (r : RingId) (x : Ring), x = ringOf s.toDev r →
    (∀ len d e l, mayFetch s.toDev r = true → 16 + len ≤ 64 * cellLimit s.toDev (ringIssuer r) →
      claimCells s.toDev (ringIssuer r) (cellsFor (16 + len)) = some (d, l) → dmaIssue { d with nextRid := d.nextRid + 1 } (ringFunc r) (.entry d.nextRid) (x.sqBase.toNat + 64 * x.fetch) 64 = some e →
      exec (.entryFetch r len) s = .next (on s (setRing
        (setReq e d.nextRid { issuer := ringIssuer r, sqIndex := x.fetch, stage := .fetching, cells := chain l [] }) r { x with fetch := (x.fetch + 1) % 2 ^ x.depthLog2 }))) ∧
    (∀ len, mayFetch s.toDev r = false → exec (.entryFetch r len) s = .next s) ∧
    (∀ rid q t (b : Bytes) g q1 e1, b.length = 64 → crossStalled s.toDev .pcie = false → fetchingOf s.toDev (ringIssuer r) = [(rid, q)] → q.bytes = [] → q.issuer = ringIssuer r → q.stage = .fetching →
      tget s.reqs rid = some q → twf s.reqs = true → g = { func := ringFunc r, use := .entry rid } → s.hif.tags.find? (fun t => t.2.use == .entry rid && !t.2.fenced) = some (t, g) → tget s.hif.tags t = some g →
      ohFence b = false → q1 = { q with bytes := b, rawTag := quad b 24, fence := false, dataAddr := seAddr b, dataCap := seCap b, seq := ohSeq b, stage := .awaitData } →
      e1 = setReq (dmaRetire s.toDev t g) rid q1 →
      (∀ st y, firstDetail (entrySteps14 b) = some (st, y) → exec (.entryReceived r b) s = .next (on s (pumpParams (finish (weirCharge e1 q.issuer 0) rid st [] y)))) ∧
      (∀ st y, firstDetail (entrySteps14 b) = none → firstDetail (entrySteps5 s.toDev q.issuer b) = some (st, y) →
        exec (.entryReceived r b) s = .next (on s (pumpParams (finish (weirCharge e1 q.issuer (chargedLen b)) rid st [] y)))) ∧
      (∀ c q2, firstDetail (entrySteps14 b) = none → firstDetail (entrySteps5 s.toDev q.issuer b) = none → q.cells.length = cellsFor (16 + ohLen b) →
        c = (b.take 48).set 6 (ownAddr s.toDev) → q2 = { q1 with bytes := c, cells := chain (cellIdx q.cells) c } →
        (ohLen b ≤ 32 → exec (.entryReceived r b) s = .next (on s (pumpParams (setReq (freeCells (weirCharge e1 q.issuer (chargedLen b)) (holderOf q.issuer) []) rid { q2 with stage := .held })))) ∧
        (32 < ohLen b → exec (.entryReceived r b) s = .next (on s (pumpParams (issueParams (setReq (freeCells (weirCharge e1 q.issuer (chargedLen b)) (holderOf q.issuer) []) rid q2) (rid, q2)))))))

/-- Commands are dispatched, and completions written. The command at the head of a queue whose issuer may dispatch runs at once under the round; a completion without a result is written as its entry, retires its credit and moves the ring, or faults the stall where its write fails; where an issuer may not complete nothing happens. -/
def Obligations.CommandsAreDispatchedAndComplete : Prop :=
  ∀ (s : State) (rid : Nat) (q : Req),
    (∀ (k : Fin 512) l r, (queueOf s.toDev k.val).reqs = rid :: l → tget s.reqs rid = some q → mayDispatch s.toDev q.issuer = true → mustWait s.toDev (cmdOf rid q) = false →
      laneYields s.toDev (cmdOf rid q) = false → wrrAllows s.toDev (issuerIdx q.issuer) = some r →
      exec (.commandDispatch k .clean) s = .next (on s (runCmd (setReq (takePacket { s.toDev with stl := { s.stl with round := r } } k.val rid) rid { q with stage := .dispatched }) (cmdOf rid q)))) ∧
    (∀ (k : Fin 512) l r c, (queueOf s.toDev k.val).reqs = rid :: l → tget s.reqs rid = some q → mayDispatch s.toDev q.issuer = true → c = cmdOf rid q → mustWait s.toDev c = false →
      laneYields s.toDev c = false → wrrAllows s.toDev (issuerIdx q.issuer) = some r →
      exec (.commandDispatch k .keyMask) s = .next (on s (runCmd (setReq (takePacket { s.toDev with stl := { s.stl with round := r } } k.val rid) rid { q with stage := .dispatched }) { c with keyMask := true })) ∧
      exec (.commandDispatch k .corrected) s = .next (on s (runCmd (errC (setReq (takePacket { s.toDev with stl := { s.stl with round := r } } k.val rid) rid { q with stage := .dispatched })) c)) ∧
      exec (.commandDispatch k .cellData) s = .next (on s (cellLost (setReq (takePacket { s.toDev with stl := { s.stl with round := r } } k.val rid) rid { q with stage := .dispatched }) q.issuer rid))) ∧
    (∀ (k : Fin 512) l m, (queueOf s.toDev k.val).reqs = rid :: l → tget s.reqs rid = some q → mustWait s.toDev (cmdOf rid q) = true ∨ laneYields s.toDev (cmdOf rid q) = true →
      exec (.commandDispatch k m) s = .next s) ∧
    (∀ (k : Fin 512) l m, (queueOf s.toDev k.val).reqs = rid :: l → tget s.reqs rid = some q → mayDispatch s.toDev q.issuer = false → exec (.commandDispatch k m) s = .next s) ∧
    (∀ (n : Fin 64) (c : Comp) x y b, q.issuer = .stall n → tget s.reqs rid = some q → tget s.comps rid = some c → x = (stall s.toDev n.val).ring → mayComplete s.toDev (.stall n) = true → c.result = [] →
      y = completeAt x q.sqIndex → b = compEntry c.tag c.status y.sqHead q.sqIndex x.phase 0 c.detail →
      exec (.completionWrite rid .ok) s = .next (on s (signal (releaseComp (ldgRetire (hostWrite (setRing s.toDev (.stall n) (nextSlot y)) (.vf n) (x.cqBase.toNat + 32 * x.cqTail) b) 0 n.val 1) rid q) (.vf n) 0))) ∧
    (∀ (n : Fin 64) (c : Comp), q.issuer = .stall n → tget s.reqs rid = some q → tget s.comps rid = some c → mayComplete s.toDev (.stall n) = true → c.result = [] →
      exec (.completionWrite rid .entryFail) s = .next (on s (faultStall (errT { s.toDev with comps := tdel s.comps rid } n.val ST.dmaFail) n.val))) ∧
    (∀ o r, r = ringOfIssuer q.issuer → tget s.reqs rid = some q → mayComplete s.toDev r = false → exec (.completionWrite rid o) s = .next s)

/-- The classifier's terms. A held packet that matches an entry without a meter is delivered, ended with the entry's status, trapped, or sent to the Eddy, and the entry or the default is counted; an uncorrectable table halts the classifier with a Class D error; a packet that is not held is left alone. -/
def Obligations.RequestsAreClassified : Prop :=
  ∀ (s : State) (rid : Nat) (q : Req) (e : Nat) (a : Word), tget s.reqs rid = some q → paused s.toDev = false → fabricOn s.toDev = true → s.cls.halted = false →
    (∀ c q', q.stage = .held → (q.issuer = .pf ∨ ∃ n, q.issuer = .stall n) → q.fromFragment = false → q.fragOpen = false →
      clsMatch s.cls.active (clsKey s.cls.active.extA q.bytes q.issuer false false) = (e, a) → aMeter a = false → q' = { q with epoch := s.cls.epoch, pols := if aPolicy a = 0 then q.pols else q.pols ++ [tgetD s.cls.active.pol (aPolicy a) 0xFFFF] } →
      c = (if e = 0x800 then { s.cls with cntDefault := satInc s.cls.cntDefault } else if aCount a then { s.cls with hits := tset s.cls.hits e (satInc (tgetD s.cls.hits e 0)) } else s.cls) →
      (aTerm a = 0 → exec (.requestClassify rid .clean) s = .next (on s (deliver { s.toDev with cls := c } rid q' (deliverQueue q.issuer a)))) ∧
      (aTerm a = 1 → exec (.requestClassify rid .clean) s = .next (on s (finish (setReq { s.toDev with cls := c } rid q') rid (aStatus a) [] (BitVec.ofNat 32 e)))) ∧
      (aTerm a = 2 → s.cls.traps.length < 16 → exec (.requestClassify rid .clean) s = .next (on s (raiseSecure (setReq { s.toDev with cls := { c with traps := s.cls.traps ++
          [{ rid, pass2 := false, entry := BitVec.ofNat 12 e, issuer := BitVec.ofNat 8 (issuerKey q.issuer), epoch := s.cls.epoch, cell := BitVec.ofNat 15 ((q.cells.head?.map (·.idx)).getD 0) }] } }
          rid { q' with stage := .trapped, trapStatus := aStatus a }) irqTrap))) ∧
      (aTerm a = 3 → ohEnvelope q.bytes = true → exec (.requestClassify rid .clean) s = .next (on s (setReq { s.toDev with cls := c } rid { q' with stage := .eddy }))) ∧
      (aTerm a = 3 → ohEnvelope q.bytes = false → exec (.requestClassify rid .clean) s = .next (on s (
        finish (setReq { s.toDev with cls := { c with runs := s.cls.runs.filter fun r => decide (r.2.rid ≠ rid) } } rid q') rid ST.format)))) ∧
    (q.stage = .held → exec (.requestClassify rid .uncorrectable) s = .next (on s (
      let d := finish { s.toDev with cls := { s.cls with runs := s.cls.runs.filter fun r => decide (r.2.rid ≠ rid) } } rid ST.aborted
      errD { d with cls := { d.cls with halted := true } } 3 0 ST.aborted))) ∧
    (∀ m, q.stage ≠ .held → exec (.requestClassify rid m) s = .next s)

/-- The Eddy opens envelopes. An envelope under a live AES-256 key of an owner its issuer is bound to is opened: a bad tag ends it with ST_AUTH_FAIL and counts it, a good one goes to the second pass with its plaintext in new cells. Cells charged to the issuer are the model's reading; the cipher is uninterpreted (log 4). -/
def Obligations.TheEddyOpensEnvelopes : Prop :=
  ∀ (s : State) (rid : Nat) (q : Req) (k : LiveKey) (d : Dev) (l : List Nat) (b : Bytes), tget s.reqs rid = some q → q.stage = .eddy → s.glb.power = .run → crossStalled s.toDev .sym = false → pickLane s.toDev false ≠ none →
    s.cls.halted = false ∨ q.epoch ≠ s.cls.epoch → s.key.tableBad = false →
    q.issuer = .pf ∨ (∃ n, q.issuer = .stall n) → b = q.bytes → (ownerOf s.toDev (ohOwner b).toNat).isSome → bound s.toDev q.issuer (ohOwner b).toNat = true → hOwner (ehKey b) = (ohOwner b).toNat →
    findKey s.toDev (ehKey b) = some k → k.owner = ohOwner b → k.type = 3 → k.usage.getLsbD uDecrypt = true → k.usage.getLsbD uQuorum = false → claimCells s.toDev q.issuer (cellsFor (ehInnerLen b)) = some (d, l) →
    exec (.eddy { rid, keyMask := true }) s = .next (on s (maskFault d)) ∧
    ∀ x, exec (.eddy { rid, ecc := x }) s = .next (on s (
      let d := chargeLane d ((laneFor d false (issuerIdx q.issuer)).getD 0) (issuerIdx q.issuer) (eddyCycles (ehInnerLen b))
      let d := touchKey { d with rng := d.rng + 1 } k.ref
      match Config.gcmOpen k.bytes (ehIv b) (envAad b) (slice b 48 (ehInnerLen b)) (slice b (48 + ehInnerLen b) 16) with
      | none => finish (authFailed (freeCells d (holderOf q.issuer) l)) rid ST.authFail
      | some p => secondPass (freeCells d (holderOf q.issuer) (cellIdx q.cells)) rid { q with bytes := p, cells := chain l p, env := some { key := k.bytes, hdr := slice b 16 32 } } b x))

/-- Fragments make a request. A packet alone is one request; a fragment without a run is ST_FRAG_ORPHAN, a first one with bad marks ST_FORMAT; a first fragment opens a run; a run that times out ends with ST_FRAG_ORPHAN and squashes its traps. -/
def Obligations.FragmentsMakeARequest : Prop :=
  ∀ (s : State) (src : FragSrc) (b b1 b2 : Bytes) (d : Dev) (l : List Nat) (q : Req),
    b1 = (match src with | .mgt => b.set 6 (ownAddr s.toDev) | .krovlo _ => b) → b2 = b1.take (16 + ohLen b) →
    q = { issuer := srcIssuer src, stage := .held, bytes := b1, rawTag := quad b1 24, dataCap := srcCap src, seq := ohSeq b1 } →
    (tget s.cls.runs (runIdx src) = none → ohFragFirst b = false → ohFragMore b = false → claimCells { s.toDev with nextRid := s.nextRid + 1 } (srcIssuer src) (cellsFor b2.length) = some (d, l) →
      exec (.fragmentReceived src b) s = .next (on s (setReq d s.nextRid { q with bytes := b2, cells := chain l b2 }))) ∧
    (tget s.cls.runs (runIdx src) = none → ohFragFirst b = false → ohFragMore b = false → claimCells { s.toDev with nextRid := s.nextRid + 1 } (srcIssuer src) (cellsFor b2.length) = none →
      exec (.fragmentReceived src b) s = .next (on s (match src with | .mgt => mgtBusy s.toDev 0x01 0 | .krovlo _ => s.toDev))) ∧
    (tget s.cls.runs (runIdx src) = none → ohFragFirst b = false → ohFragMore b = true → firstDetail (fragSteps (srcIssuer src) b) = none →
      exec (.fragmentReceived src b) s = .next (on s (finish (setReq { s.toDev with nextRid := s.nextRid + 1 } s.nextRid q) s.nextRid ST.fragOrphan))) ∧
    (tget s.cls.runs (runIdx src) = none → ohFragFirst b = true → ohFragMore b = false → firstDetail (transportSteps s.toDev (srcIssuer src) b true) = none →
      exec (.fragmentReceived src b) s = .next (on s (finish (setReq { s.toDev with nextRid := s.nextRid + 1 } s.nextRid q) s.nextRid ST.format))) ∧
    (∀ st x c, tget s.cls.runs (runIdx src) = none → c = { s.cls with cntLen := if s.cls.cntLen = 0xFFFFFFFF then s.cls.cntLen else s.cls.cntLen + 1 } →
      (ohFragFirst b = true ∧ firstDetail (transportSteps s.toDev (srcIssuer src) b true) = some (st, x)) ∨
        (ohFragFirst b = false ∧ ohFragMore b = true ∧ firstDetail (fragSteps (srcIssuer src) b) = some (st, x)) →
      exec (.fragmentReceived src b) s = .next (on s (finish (setReq { s.toDev with cls := c, nextRid := s.nextRid + 1 } s.nextRid q) s.nextRid st [] x))) ∧
    (tget s.cls.runs (runIdx src) = none → ohFragFirst b = true → ohFragMore b = true → firstDetail (transportSteps s.toDev (srcIssuer src) b true) = none →
      claimCells { s.toDev with nextRid := s.nextRid + 1 } (srcIssuer src) (cellsFor b2.length) = some (d, l) →
      exec (.fragmentReceived src b) s = .next (on s (
        let d := setReq d s.nextRid { q with bytes := b2, cells := chain l b2, fromFragment := true, fragOpen := true }
        { d with cls := { d.cls with runs := tset d.cls.runs (runIdx src) { seq := ohSeq b, since := d.now, rid := s.nextRid } } }))) ∧
    (∀ r, tget s.cls.runs (runIdx src) = some r → r.since + 4000000 ≤ s.now → exec (.fragmentRunTimeout src) s = .next (on s (finish
      { s.toDev with cls := { s.cls with runs := tdel s.cls.runs (runIdx src), traps := s.cls.traps.map fun t => if t.rid == r.rid then { t with squashed := true } else t } } r.rid ST.fragOrphan))) ∧
    (∀ r, tget s.cls.runs (runIdx src) = some r → s.now < r.since + 4000000 → exec (.fragmentRunTimeout src) s = .next s) ∧
    (tget s.cls.runs (runIdx src) = none → exec (.fragmentRunTimeout src) s = .next s)

/-- The policy epoch switches in four steps. SWITCH validates the shadow bank or reports ST_PARAM; the swap exchanges the banks and starts the stalls' new policies; the drain ends only without a request of the old epoch; the copy ends the switch. Out of order nothing happens. -/
def Obligations.TheEpochSwitches : Prop :=
  ∀ s : State,
    (s.cls.sw = .idle → bankOk s.cls.shadow = true → exec .switch s = .next (on s { s.toDev with cls := { s.cls with sw := .validated } })) ∧
    (s.cls.sw = .idle → bankOk s.cls.shadow = false → exec .switch s = .next (on s { s.toDev with cls := { s.cls with status := ST.param } })) ∧
    (s.cls.sw ≠ .idle → exec .switch s = .next s) ∧
    (s.cls.sw = .validated → exec .epochBankSwap s = .next (on s { s.toDev with
      cls := { s.cls with active := s.cls.shadow, shadow := s.cls.active, epoch := s.cls.epoch + 1, sw := .draining },
      stl := { s.stl with stalls := s.stl.stalls.map fun e => (e.1, weirSwitch e.2) } })) ∧
    (s.cls.sw = .draining → s.reqs.any (fun e => oldEpoch s.toDev e.2) = false →
      exec .epochOldDrainEnd s = .next (on s { s.toDev with cls := { s.cls with shadow := s.cls.active, sw := .copying } })) ∧
    (s.cls.sw = .draining → s.reqs.any (fun e => oldEpoch s.toDev e.2) = true → exec .epochOldDrainEnd s = .next s) ∧
    (s.cls.sw = .copying → exec .epochCopyDone s = .next (on s { s.toDev with cls := { s.cls with sw := .idle, status := ST.ok, halted := false } }))

/-- READ, MARK, REWIND and RELEASE, and packets of a queue. READ returns the word at RD and advances RD, MARK sets MK to RD, REWIND sets RD to MK, RELEASE frees every cell before the one that holds MK (R276): each changes nothing else but the strand watch. An empty queue reads empty. A finished packet takes cells and joins its queue; an abandoned one ends; freed cells re-enter; a stranded queue sets its event once, at the end of its fabric cycle. -/
def Obligations.YardQueuesAct : Prop :=
  ∀ (s : State) (n : Fin 512) (q : YQueue), q = queueOf s.toDev n.val →
    (∀ b fin, wordAt q = some (b, fin) → exec (.read { queue := n }) s = .next (on s (
      let r := { q with rdPos := if fin then 2 * (q.rdPos / 2) + 2 else q.rdPos + 1, strandQuiet := false, strandDue := false }
      let e := { r with strandFrom := if r.rdPos < 2 * r.cells.length then some s.now else none }
      emit { s.toDev with yrd := { s.yrd with queues := tset s.yrd.queues n.val e } } (.word (Config.fit 32 b) b.length fin)))) ∧
    (2 * q.cells.length ≤ q.rdPos → exec (.read { queue := n }) s = .next (on s (emit s.toDev .yardEmpty))) ∧
    (exec (.read { queue := n, met := .corrected }) s = .next (on s (readWord (errC s.toDev) n.val))) ∧
    (exec (.read { queue := n, met := .data }) s = .next (on s (losePacket s.toDev n.val))) ∧
    (exec (.read { queue := n, met := .link }) s = .next (on s (errFOpen s.toDev (rYrdFree s.toDev)))) ∧
    (exec (.mark n) s = .next (on s { s.toDev with yrd := { s.yrd with queues := tset s.yrd.queues n.val { q with mkPos := q.rdPos } } })) ∧
    (exec (.rewind n) s = .next (on s { s.toDev with yrd := { s.yrd with queues := tset s.yrd.queues n.val { q with rdPos := q.mkPos, strandFrom := if q.mkPos < 2 * q.cells.length then some s.now else none } } })) ∧
    (exec (.release n) s = .next (on s (
      let k := q.mkPos / 2
      let d := (q.cells.take k).foldl (fun d c => freeCells d c.holder [c.idx]) (touchQueue s.toDev n.val)
      { d with yrd := { d.yrd with queues := tset d.yrd.queues n.val { q with cells := q.cells.drop k, rdPos := q.rdPos - 2 * k, mkPos := q.mkPos - 2 * k, strandFrom := if (q.cells.drop k).isEmpty then none else q.strandFrom } } }))) ∧
    (∀ (b : Bytes) d l, b ≠ [] → (n.val < 256 → enabled (stall s.toDev (n.val / 4)) = true) → claimCells s.toDev (queueIssuer n.val) (cellsFor b.length) = some (d, l) →
      exec (.packetEnd n b) s = .next (on s (enqueueReq { d with nextRid := d.nextRid + 1 } d.nextRid
        { issuer := queueIssuer n.val, stage := .held, bytes := b, cells := chain l b, rawTag := quad b 24, seq := ohSeq b, produced := true } n.val))) ∧
    (∀ rid r, tget s.reqs rid = some r → isOpenPacket r = true →
      exec (.packetAbandon rid) s = .next (on s (finish { s.toDev with cls := { s.cls with runs := s.cls.runs.filter fun x => decide (x.2.rid ≠ rid) } } rid ST.aborted))) ∧
    (∀ rid r, tget s.reqs rid = some r → isOpenPacket r = false → exec (.packetAbandon rid) s = .next s) ∧
    (∀ c, exec (.cellReentry c) s = .next (on s { s.toDev with yrd := { s.yrd with zeroing := s.yrd.zeroing.erase c.val } })) ∧
    (∀ t0, q.timeout ≠ 0 → q.rdPos < 2 * q.cells.length → q.strandQuiet = false → q.strandFrom = some t0 → t0 + 65536 * q.timeout ≤ s.now →
      exec (.stranded n) s = .next (on s (
        let d := touchQueue s.toDev n.val
        { d with yrd := { d.yrd with queues := tset d.yrd.queues n.val { q with strandDue := true } } }))) ∧
    (q.timeout = 0 ∨ 2 * q.cells.length ≤ q.rdPos ∨ q.strandQuiet = true ∨ q.strandFrom = none ∨ (∃ t0, q.strandFrom = some t0 ∧ s.now < t0 + 65536 * q.timeout) →
      exec (.stranded n) s = .next s) ∧
    (∀ before level due, level = (q.thresh ≠ 0 ∧ before < q.thresh ∧ q.thresh ≤ q.cells.length) → due = (q.strandDue = true ∧ q.rdPos < 2 * q.cells.length) →
      ∃ e, queueOf (judgeQueue s.toDev n.val before) n.val = e ∧ e.cells = q.cells ∧ e.rdPos = q.rdPos ∧ e.strandDue = false ∧
        (e.levelHit = true ↔ q.levelHit = true ∨ level) ∧ (e.strandedBit = true ↔ q.strandedBit = true ∨ due) ∧ (e.strandQuiet = true ↔ q.strandQuiet = true ∨ due))

/-- Engines run operations. An idle engine takes the next operation of its channel and world with its slot unit; its end returns the unit, counts the operation, clears the memory and completes the request with the result, the verification or the failure. What an operation computes is uninterpreted (log 4). -/
def Obligations.EnginesRunOperations : Prop :=
  ∀ (s : State) (e : Fin 4) (p : Pke), p = eng s.toDev e.val →
    (∀ o r d, crossStalled s.toDev (pkeIsland e) = false → engIdle s.toDev e.val = true → s.glb.power = .run → s.dbg.extest = false → nextOp s.toDev e.val = some (.secure o, r) →
      d = { s.toDev with pkeWait := s.pkeWait.erase (.secure o) } →
      (∀ d' o', (d', o') = (match o.kind with
          | .sealSign => ((draw d 64).2, { o with rnd := (draw d 64).1 })
          | .cosign _ _ _ => ((draw d 64).2, { o with rnd := (draw d 64).1 })
          | .cardKey _ _ => ((draw (reseed d) 48).2, { o with rnd := (draw (reseed d) 48).1 })
          | _ => (d, o)) →
        exec (.pkeOperationStart e) s = .next (on s (ldgIssue (setEng d' e.val { p with round := r, op := some o', mem := startMem o.kind, acc := 0 }) 2 (H.engine e.val) 1)))) ∧
    (∀ c r d, crossStalled s.toDev (pkeIsland e) = false → engIdle s.toDev e.val = true → s.glb.power = .run → s.dbg.extest = false → nextOp s.toDev e.val = some (.cmd c, r) →
      d = setEng { s.toDev with pkeWait := s.pkeWait.erase (.cmd c) } e.val { p with round := r } →
      exec (.pkeOperationStart e) s = .next (on s (match pkTry d c (pkPlan d c) true with
        | (d', .inl st) => endWith d' c st
        | (d', .inr o) => if maskBad c then maskFault d else ldgIssue (setEng d' e.val { eng d' e.val with op := some o, mem := startMem o.kind, acc := 0 }) 2 (H.engine e.val) 1))) ∧
    (s.glb.power ≠ .run ∨ s.dbg.extest = true ∨ engIdle s.toDev e.val = false ∨ nextOp s.toDev e.val = none ∨ crossStalled s.toDev (pkeIsland e) = true → exec (.pkeOperationStart e) s = .next s) ∧
    (∀ o micros d rid, crossStalled s.toDev (pkeIsland e) = false → (p.op = some o ∨ (p.op = none ∧ p.aborting = true ∧ p.stoppedAt = s.now ∧ p.stopped = some o)) →
      o.rid = some rid → o.usesSlot = none →
      d = engIrq (chargeRun (ldgDrain (setEng s.toDev e.val { p with op := none, stopped := none, mem := [], acc := 0, irqDone := true, cntOps := satInc p.cntOps }) 2 (H.engine e.val)) e.val o.issuer micros) e.val →
      (∀ t h q isd m, o.kind = .sign t h q isd m → exec (.pkeDone e .ok micros) s = .next (on s (
        if Config.pkKeyOk t.toNat o.key then finish d rid ST.ok (Config.pkSign t.toNat (sigSize t o.key.length) h q isd o.key m o.rnd) else finish d rid ST.algParam))) ∧
      (∀ t h q isd m sig pub, o.kind = .verify t h q isd m sig pub → pub ≠ [] → exec (.pkeDone e .ok micros) s = .next (on s (
        finish d rid (if !Config.pkOperandOk t.toNat pub [] then ST.algParam else if (isRsa t = false ∨ beNat sig < beNat (pub.drop 4)) ∧ Config.pkVerify t.toNat h q isd pub m sig = true then ST.ok else ST.verifyFail)))) ∧
      (∀ prog n, o.kind = .mac prog n → exec (.pkeDone e .ok micros) s = .next (on s (finish d rid ST.ok (macRun prog n)))) ∧
      (reservedOf o.kind = none → isSecureKind o.kind = false →
        (∀ prog n, o.kind = .mac prog n → exec (.pkeDone e .nonZeroReadback micros) s = .next (on s (finish (readbackFault d e.val) rid ST.ok (macRun prog n)))) ∧
        exec (.pkeDone e .checkFail micros) s = .next (on s (finish (checkFailed d e.val) rid ST.engineFault)) ∧
        exec (.pkeDone e .checkFailNonZero micros) s = .next (on s (finish (readbackFault (checkFailed d e.val) e.val) rid ST.engineFault)) ∧
        exec (.pkeDone e .limit micros) s = .next (on s (
          finish (logRec d (recEvent (engName e.val) (limitStatus o.kind) (b4 (rPkeStatus d e.val)))) rid (limitStatus o.kind))) ∧
        ∀ d', d' = readbackFault d e.val → exec (.pkeDone e .limitNonZero micros) s = .next (on s (
          finish (logRec d' (recEvent (engName e.val) (limitStatus o.kind) (b4 (rPkeStatus d' e.val)))) rid (limitStatus o.kind))))) ∧
    (∀ oc micros, p.op = none → (p.aborting = false ∨ p.stoppedAt ≠ s.now) ∨ crossStalled s.toDev (pkeIsland e) = true → exec (.pkeDone e oc micros) s = .next s)

/-- Engine windows and aborts. A window gives every enabled stall its share and clears the secure time; ABORT by the secure world cuts the operation and clears the memory; by the normal world or in transit it is a violation; the end of an abort completes the request with ST_ABORTED, and a memory that does not clear is Class F. -/
def Obligations.EngineWindowsAndAborts : Prop :=
  ∀ (s : State) (e : Fin 4) (p : Pke) (m : Master), p = eng s.toDev e.val →
    (s.now < s.pkeWindow + 64 * msCycles → exec .pkeWindowStart s = .next s) ∧
    (s.pkeWindow + 64 * msCycles ≤ s.now → ∃ t, exec .pkeWindowStart s = .next t ∧ t = on s { s.toDev with pke := t.pke, pkeWindow := s.now } ∧ (eng t.toDev e.val).secureMicros = 0 ∧ (eng t.toDev e.val).op = p.op ∧
      ∀ n : Fin 64, enabled (stall s.toDev n.val) = true → balanceOf t.toDev e.val n.val = (let share : Int := (64000 / partN s.toDev : Nat)
        let b := balanceOf s.toDev e.val n.val; if b < 0 then share + max b (-share) else share)) ∧
    (∀ o, masterSecure s.toDev m = true → inTransit s.toDev (18 + e.val) = false → p.op = some o →
      exec (.abort e m) s = .next (on s (setEng s.toDev e.val { p with op := none, aborting := true, stopped := some o, stoppedAt := s.now, mem := [], acc := 0 }))) ∧
    (masterSecure s.toDev m = true → inTransit s.toDev (18 + e.val) = false → p.op = none →
      exec (.abort e m) s = .next (on s (setEng s.toDev e.val { p with aborting := true, mem := [], acc := 0 }))) ∧
    (masterSecure s.toDev m = false → inTransit s.toDev (18 + e.val) = false →
      exec (.abort e m) s = .next (on s (violate s.toDev m regionNone slaveRegs (writeKind m) true (0x40008 + 0x1000 * e.val)))) ∧
    (inTransit s.toDev (18 + e.val) = true →
      exec (.abort e m) s = .next (on s (violate s.toDev m regionTransit slaveRegs (writeKind m) true (0x40008 + 0x1000 * e.val)))) ∧
    (∀ o rid d, crossStalled s.toDev (pkeIsland e) = false → p.aborting = true → p.stopped = some o → o.rid = some rid → reservedOf o.kind = none → o.usesSlot = none → isSecureKind o.kind = false →
      d = finish (engIrq (ldgDrain (setEng s.toDev e.val { p with aborting := false, stopped := none, irqAborted := true, cntAborts := satInc p.cntAborts }) 2 (H.engine e.val)) e.val) rid ST.aborted →
      exec (.aborted e true) s = .next (on s d) ∧
      exec (.aborted e false) s = .next (on s (errF d ST.engineFault (rPkeStatus d e.val) (BitVec.ofNat 32 (0x34000000 + 0x10000 * e.val))))) ∧
    (∀ d, crossStalled s.toDev (pkeIsland e) = false → p.aborting = true → p.stopped = none →
      d = engIrq (ldgDrain (setEng s.toDev e.val { p with aborting := false, irqAborted := true }) 2 (H.engine e.val)) e.val →
      exec (.aborted e true) s = .next (on s d) ∧
      exec (.aborted e false) s = .next (on s (errF d ST.engineFault (rPkeStatus d e.val) (BitVec.ofNat 32 (0x34000000 + 0x10000 * e.val))))) ∧
    (∀ z, p.aborting = false ∨ crossStalled s.toDev (pkeIsland e) = true → exec (.aborted e z) s = .next s)

/-- Lanes end, and the DRBG's health. A lane's end completes its request with the digest, the verification or the opened plaintext and frees the lane; a health failure uninstantiates the DRBG, counts it, is permanent at the third, is Class D and a CRITICAL record; a reseed happens only while the DRBG is ready. The values computed are uninterpreted or free (log 4, log 5). -/
def Obligations.LanesAndRandomNumbers : Prop :=
  ∀ s : State,
    (∀ (l : Fin 12) j d, crossStalled s.toDev .sym = false → tget s.sym.lanes l.val = some j →
      d = chargeLane { s.toDev with sym := { s.sym with lanes := tdel s.sym.lanes l.val } } l.val j.payer (s.now - j.since) →
      (∀ h n msg, j.kind = .hash h n msg → exec (.symLaneDone l) s = .next (on s (pumpLanes (finish (j.usesSlots.foldl endUse d) j.rid ST.ok (if h ≤ 7 then Config.hash h msg else Config.xof h n msg))))) ∧
      (∀ alg n msg, j.kind = .macGen alg n msg → exec (.symLaneDone l) s = .next (on s (pumpLanes (finish (j.usesSlots.foldl endUse d) j.rid ST.ok ((macOf alg j.key msg).take n))))) ∧
      (∀ alg n msg mac, j.kind = .macVerify alg n msg mac → exec (.symLaneDone l) s = .next (on s (pumpLanes (finish (j.usesSlots.foldl endUse d) j.rid
        (if (macOf alg j.key msg).take n = mac then ST.ok else ST.verifyFail))))) ∧
      (∀ iv aad data tag, j.kind = .cipher 3 1 [] iv aad data tag → exec (.symLaneDone l) s = .next (on s (pumpLanes (
        match Config.gcmOpen j.key iv aad data tag with
        | some p => finish (j.usesSlots.foldl endUse d) j.rid ST.ok p
        | none => finish (j.usesSlots.foldl endUse (authFailed d)) j.rid ST.authFail)))) ∧
      (∀ mode dir k2 iv aad data tag, j.kind = .cipher mode dir k2 iv aad data tag → mode ≠ 3 → exec (.symLaneDone l) s = .next (on s (pumpLanes (
        finish (j.usesSlots.foldl endUse d) j.rid ST.ok (Config.aes mode dir j.key k2 iv data))))) ∧
      (∀ n, j.kind = .rng n → exec (.symLaneDone l) s = .next (on s (pumpLanes (
        if drbgReady s.toDev then finish (j.usesSlots.foldl endUse (draw d n).2) j.rid ST.ok (draw d n).1 else finish (j.usesSlots.foldl endUse d) j.rid ST.rngFail))))) ∧
    (∀ l : Fin 12, (tget s.sym.lanes l.val = none ∧ s.sym.wait = []) ∨ crossStalled s.toDev .sym = true → exec (.symLaneDone l) s = .next s) ∧
    (∀ (c : RngCause) n y d, crossStalled s.toDev .sym = false → s.sym.rngInst = true → n = min 15 (s.sym.rngFails.toNat + 1) →
      y = { s.sym with rngFailed := true, rngInst := false, rngFails := BitVec.ofNat 4 n,
                       rngCause := (match c with | .repetition => 1 | .adaptive => 2 | .startup => 3 | .kat => 4), rngPerm := s.sym.rngPerm || decide (3 ≤ n) } →
      d = errD { s.toDev with sym := y } 6 0 ST.rngFail → exec (.rngHealthFail c) s = .next (on s (logRec d (recCrit "SYM" ST.rngFail [rRngStatus d])))) ∧
    (∀ c, s.sym.rngInst = false ∨ crossStalled s.toDev .sym = true → exec (.rngHealthFail c) s = .next s) ∧
    (crossStalled s.toDev .sym = false → drbgReady s.toDev = true → exec .drbgReseed s = .next (on s { s.toDev with rng := s.rng + 1, sym := { s.sym with cntReseed := satInc s.sym.cntReseed, generates := 0, reseedAt := s.now } })) ∧
    (drbgReady s.toDev = false ∨ crossStalled s.toDev .sym = true → exec .drbgReseed s = .next s)

/-- Card slots follow their phases. Insertion, power-up, CMD1 polls, bus errors, supply limits and pulls take a slot through its phases to the transfer state or to the fault of its failure. -/
def Obligations.CardSlotsFollowThePhases : Prop :=
  ∀ (s : State) (x : Slot) (c : CardSlot), c = slotOf s.toDev x →
    (c.phase = .empty → exec (.cardInsert x) s = .next (on s (setSlot (wake s.toDev .cardDetect) x { c with phase := .debounce, fault := 0 }))) ∧
    (c.phase = .debounce → s.glb.bankCrd = .released → s.glb.power = .run → exec (.slotPowerUp x) s = .next (on s (
      cardCmd (setSlot s.toDev x { c with present := true, supply := true, polls := 0, busFails := 0, foldBack := false, pushPull := false, wide := false, phase := .identification }) x .cmd0))) ∧
    (exec (.cardPull x) s = .next (on s (setSlot (wake s.toDev .cardDetect) x { c with present := false, supply := false, foldBack := false, phase := .empty, exch := none, fault := (match c.exch with | some e => if e.issue then c.fault else 7 | none => c.fault) }))) ∧
    (∀ r d k, c.phase = .identification → s.glb.power = .run → k = { c with polls := c.polls + 1, busFails := 0 } → d = cardCmd (setSlot s.toDev x k) x .cmd1 →
      (∀ w : Word, r.response = some w → w.getLsbD 31 = true → w.getLsbD 21 = true → w.getLsbD 20 = true →
        exec (.cmd1Poll x r) s = .next (on s (setSlot (cardCmd (cardCmd (cardCmd (cardCmd d x .cmd3) x .cmd7) x .cmd6Width) x .cmd6Timing) x { k with phase := .transfer, pushPull := true, wide := r.widthOk && r.timingOk }))) ∧
      (∀ w : Word, r.response = some w → w.getLsbD 31 = true → w.getLsbD 21 = false ∨ w.getLsbD 20 = false → exec (.cmd1Poll x r) s = .next (on s (slotFault d x 4 false .done))) ∧
      (r.response = none ∨ (∃ w : Word, r.response = some w ∧ w.getLsbD 31 = false) →
        (c.polls < 99 → exec (.cmd1Poll x r) s = .next (on s d)) ∧ (99 ≤ c.polls → exec (.cmd1Poll x r) s = .next (on s (slotFault d x 2 false .done))))) ∧
    (∀ b n, b.slot = x → c.supply = true → n = (if b.again then c.busFails + 1 else 1) →
      (n < 4 → exec (.cardBusError b) s = .next (on s (cardCmd (setSlot s.toDev x { c with busFails := n }) x b.cmd))) ∧
      (4 ≤ n → exec (.cardBusError b) s = .next (on s (slotFault (setSlot s.toDev x { c with busFails := 0 }) x 3 false (if c.phase = .identification then .empty else .done))))) ∧
    (c.supply = true → exec (.cardSupplyLimit x) s = .next (on s (setSlot s.toDev x { c with foldBack := true }))) ∧
    (c.foldBack = true → exec (.short x) s = .next (on s (slotFault s.toDev x 1 false .disabled))) ∧
    (c.phase ≠ .empty → exec (.cardInsert x) s = .next s) ∧ (c.phase ≠ .debounce ∨ s.glb.bankCrd ≠ .released ∨ s.glb.power ≠ .run → exec (.slotPowerUp x) s = .next s) ∧
    (∀ r, c.phase ≠ .identification ∨ s.glb.power ≠ .run → exec (.cmd1Poll x r) s = .next s)

/-- Tacks are issued, presented and counted once. A blank card takes a share of the owner that enrols, an issued card of the session's owner presents it, and every other card faults with its code; a counted Tack sets its index once and meets the quorum at M, and a second one of that index is DUP. Window ends close the session or the enrolment. The share and exchange use uninterpreted functions (log 4). -/
def Obligations.TacksAreIssuedAndCounted : Prop :=
  (
    ∀ (s : State) (x : Slot) (c : CardSlot) (desc : CardDesc) (d : Dev), c = slotOf s.toDev x →
      (∀ o w n, c.phase = .transfer → c.exch = none → s.glb.power = .run → enrolling s.toDev = some (o, w, n) → drbgReady s.toDev = true → (∀ y e, (slotOf s.toDev y).exch = some e → e.issue = false) →
        d = setSlot (cardCmd s.toDev x (.cmd17 0)) x { c with index := desc.index.setWidth 4, owner := desc.owner } →
        (desc.format = 0xC101 → desc.tackState = 0 → exec (.issue x desc) s = .next (on s (beginExchange d x true o n.next desc (zeros 48) (Config.fit 48 (Config.shareRaw n.secret n.m n.n n.next))))) ∧
        (desc.format ≠ 0xC101 ∨ desc.tackState ≠ 0 → exec (.issue x desc) s = .next (on s (slotFault (cardCmd d x .cmd15) x 4 true .done)))) ∧
      (∀ z w sh, c.phase = .transfer → c.exch = none → s.glb.power = .run → s.crd.session = some z → drbgReady s.toDev = true →
        d = setSlot (cardCmd s.toDev x (.cmd17 0)) x { c with index := desc.index.setWidth 4, owner := desc.owner } →
        (desc.format = 0xC101 → desc.tackState = 1 → desc.owner.toNat = z.owner → ownerOf s.toDev z.owner = some w → tget w.shares desc.index.toNat = some sh → sh.serial = desc.serial → sh.pub = desc.pub →
          exec (.present x desc) s = .next (on s (beginExchange d x false z.owner desc.index.toNat desc z.digest []))) ∧
        (desc.format = 0xC101 → desc.tackState = 1 → desc.owner.toNat ≠ z.owner → exec (.present x desc) s = .next (on s (slotFault (cardCmd d x .cmd15) x 5 true .done))) ∧
        (desc.format = 0xC101 → desc.tackState = 1 → desc.owner.toNat = z.owner → ownerOf s.toDev z.owner = some w →
          (tget w.shares desc.index.toNat = none ∨ (tget w.shares desc.index.toNat = some sh ∧ (sh.serial ≠ desc.serial ∨ sh.pub ≠ desc.pub))) →
          exec (.present x desc) s = .next (on s (slotFault (cardCmd d x .cmd15) x 4 true .done))) ∧
        (desc.format ≠ 0xC101 ∨ desc.tackState ≠ 1 → exec (.present x desc) s = .next (on s (slotFault (cardCmd d x .cmd15) x 4 true .done)))) ∧
      (∀ e r, c.exch = some e → e.reply = none → c.phase = .exchange → s.glb.power = .run → exec (.cardReply x r desc) s = .next (on s (
        let d := cardCmd (cardCmd s.toDev x .cmd13) x (.cmd17 2)
        let d := setSlot (if e.issue then cardCmd d x (.cmd17 0) else d) x { c with busFails := 0, exch := some { e with reply := some (r, desc) } }
        { d with pkeWait := s.pkeWait ++ [.secure { rid := none, issuer := .secure, kind := .cardExchange (x == .b) e.id, alg := 0x21 }] }))) ∧
      (∀ r, c.exch = none ∨ s.glb.power ≠ .run → exec (.cardReply x r desc) s = .next s) ∧
      (∀ z w, s.crd.session = some z → ownerOf s.toDev z.owner = some w →
        (z.since + w.window * secondCycles ≤ s.now → exec .quorumWindowExpire s = .next (on s (
          signal (logRec { s.toDev with crd := { s.crd with session := none } } (recEvent "CRD" 0x0201 (b4 (rQStatus s.toDev)))) .pf 6))) ∧
        (s.now < z.since + w.window * secondCycles → exec .quorumWindowExpire s = .next s)) ∧
      (s.crd.session = none → exec .quorumWindowExpire s = .next s) ∧
      (∀ (o : Fin 256) w n, ownerOf s.toDev o.val = some w → w.enrol = some n → d = logRec (dropIssue s.toDev o.val) (recEvent "CRD" 0x0204 [BitVec.ofNat 8 o.val, BitVec.ofNat 8 n.next]) →
        (n.since + w.window * secondCycles ≤ s.now → n.creation = true → exec (.enrolmentWindowLapse o) s = .next (on s (deleteOwner d o.val))) ∧
        (n.since + w.window * secondCycles ≤ s.now → n.creation = false →
          exec (.enrolmentWindowLapse o) s = .next (on s (saveTable { d with key := { d.key with owners := tset s.key.owners o.val { w with shares := n.oldShares, enrol := none } } }))) ∧
        (s.now < n.since + w.window * secondCycles → exec (.enrolmentWindowLapse o) s = .next s))) ∧
  (
    ∀ (s : Dev) (x : Slot) (e : Exchange) (z : Session), s.crd.session = some z → z.owner = e.owner → slice e.request 152 48 = z.digest → 1 ≤ e.index → e.index ≤ 8 →
      (z.indices.getLsbD (e.index - 1) = false → ∃ y, (countTack s x e).crd.session = some y ∧ y.owner = z.owner ∧ y.digest = z.digest ∧
        (∀ i, i < 8 → y.indices.getLsbD i = (z.indices.getLsbD i || decide (i = e.index - 1))) ∧ y.met = decide (z.mEff ≤ popCount8 z.indices + 1)) ∧
      (z.indices.getLsbD (e.index - 1) = true → x = .b ∨ z.countedB = none → (countTack s x e).crd.session = some z ∧ (slotOf (countTack s x e) x).fault = 6))

/-- Flash commands are filtered. Reads, allowed writes and pass-through commands reach the flash, identification, SFDP and status reads are answered; an unlisted command is refused and counted; a write that touches a WBLOCK region is blocked and counted, and one that passes marks the regions it touches unverified. -/
def Obligations.FlashCommandsAreFiltered : Prop :=
  ∀ (s : State) (op : Byte) (addr len : Nat) (e : Dev), e = csFall s.toDev →
    (bwhLive s.toDev = true →
    (op ∈ readOps ∨ op ∈ writeOps → exec (.hostFlashCommand op) s = .next (on s (emit e (.flashPass op)))) ∧
    (exec (.hostFlashCommand 0x9F) s = .next (on s (emit e (.flashAnswer (Config.fit 3 Config.flashId))))) ∧
    (exec (.hostFlashCommand 0x05) s = .next (on s (emit e (.flashAnswer [s.bwt.sr1])))) ∧
    (exec (.hostFlashCommand 0x35) s = .next (on s (emit e (.flashAnswer [s.bwt.sr2])))) ∧
    (exec (.hostFlashCommand 0x5A) s = .next (on s (emit e (.flashAnswer (sfdpAnswer s.toDev))))) ∧
    (op ∈ passOps → exec (.hostFlashCommand op) s = .next (on s (emit
      { e with bwt := { s.bwt with addr4 := if op = 0xB7 then true else if op = 0xE9 then false else s.bwt.addr4 } } (.flashPass op)))) ∧
    (∀ o, (o = op ∧ op ∉ readOps ++ writeOps ++ passOps ++ wholeOps ∧ op ∉ [0x9F, 0x5A, 0x05, 0x35]) →
      ∃ t : State, exec (.hostFlashCommand op) s = .next t ∧ t.bwt = { s.bwt with refused := satInc s.bwt.refused, journal := t.bwt.journal } ∧ t.out = .flashRefused op :: e.out ∧
        (op ∈ s.bwt.journal.refusedOps → t.bwt.journal = s.bwt.journal ∧ t.evr = s.evr) ∧
        (op ∉ s.bwt.journal.refusedOps → t.bwt.journal = { s.bwt.journal with refusedOps := s.bwt.journal.refusedOps ++ [op] })) ∧
    (∀ i, (op ∈ writeOps ∧ i = Instr.hostFlashWrite op addr len ∧ ((manRegions s.toDev).any fun x => x.1.wblock && touches x.1 (flashAddr s.toDev op addr) len) = true) ∨
          (op ∈ wholeOps ∧ i = Instr.hostFlashCommand op ∧ ((manRegions s.toDev).any fun x => x.1.wblock) = true) →
      ∃ t : State, exec i s = .next t ∧ t.bwt.journal.writesBlocked = s.bwt.journal.writesBlocked + 1 ∧ t.bwt.journal.writesPassed = s.bwt.journal.writesPassed ∧
        t.bwt.wblkBlocked = satInc s.bwt.wblkBlocked ∧ t.bwt.refused = satInc s.bwt.refused ∧ t.bwt.regions = s.bwt.regions ∧ t.out = .flashRefused op :: e.out) ∧
    (∀ i (hit : ManRegion → Bool), (op ∈ writeOps ∧ i = Instr.hostFlashWrite op addr len ∧ ((manRegions s.toDev).any fun x => x.1.wblock && touches x.1 (flashAddr s.toDev op addr) len) = false ∧ hit = fun x => touches x (flashAddr s.toDev op addr) len) ∨
          (op ∈ wholeOps ∧ i = Instr.hostFlashCommand op ∧ ((manRegions s.toDev).any fun x => x.1.wblock) = false ∧ hit = fun _ => true) →
      ∃ t : State, exec i s = .next t ∧ t.bwt.journal = { s.bwt.journal with writesPassed := s.bwt.journal.writesPassed + 1 } ∧ t.out = .flashPass op :: e.out ∧ t.bwt.man = s.bwt.man ∧
        ∀ x ∈ manRegions s.toDev, let o := regionSt s.toDev x.2 x.1.base; regionSt t.toDev x.2 x.1.base =
          if hit x.1 then { o with written := true, verified := o.verified && !x.1.gate, reverify := o.reverify || x.1.gate } else o) ∧
    (∀ x ∈ advertised s.toDev, x ∈ s.bwt.offers ∧ x ∈ readOps)) ∧
    (bwhLive e = false → exec (.hostFlashWrite op addr len) s = .next (on s e) ∧
      (op ∉ [0x9F, 0x5A, 0x05, 0x35] → exec (.hostFlashCommand op) s = .next (on s e)) ∧
      (op ∈ [0x9F, 0x5A, 0x05, 0x35] → bwhPulled e = false → exec (.hostFlashCommand op) s = .next (on s e)) ∧
      (op = 0x9F ∨ op = 0x05 ∨ op = 0x35 → bwhPulled e = true → exec (.hostFlashCommand op) s = .next (on s (emit e (.flashAnswer (List.replicate (if op = 0x9F then 3 else 1) 0xFF)))))) ∧
    (∀ a b, exec (.statusCopyRefresh a b) s = .next (on s { s.toDev with bwt := { s.bwt with sr1 := a, sr2 := b } }))

/-- Array reads are gated and witnessed. A read returns 0xFF for every byte under an unverified gate and the flash's byte elsewhere, and is witnessed: the trace, each region's progress, gaps, rereads, completeness and match. In STANDBY it returns 0xFF and wakes the device. Gate verification passes on the region's digest only. -/
def Obligations.ArrayReadsAreGatedAndWitnessed : Prop :=
  ∀ (s : State) (r : FlashRead) (a : Nat), a = flashAddr s.toDev r.op r.addr →
    (bwhLive s.toDev = true → asleep (csFall s.toDev) = false → r.op ∈ readOps → ∃ t : State, exec (.arrayRead r) s = .next t ∧
      (∃ got, t.out = .flashAnswer got :: (csFall s.toDev).out ∧ got.length = r.bytes.length ∧
        (∀ k b, r.bytes[k]? = some b → got[k]? = some (if gated s.toDev (a + k) then 0xFF else b)) ∧
        t.bwt.journal.trace = s.bwt.journal.trace ++ leBytes 4 a ++ leBytes 4 got.length ++ got ∧
        (∀ x ∈ manRegions s.toDev, ∀ o n, o = regionSt s.toDev x.2 x.1.base → n = regionSt t.toDev x.2 x.1.base →
          (touches x.1 a r.bytes.length = false → n = o) ∧
          (touches x.1 a r.bytes.length = true → x.1.base ≤ x.1.limit → r.bytes ≠ [] → ∀ lo hi, lo = max a x.1.base → hi = min (a + r.bytes.length) (x.1.limit + 1) →
            n.reads = o.reads + 1 ∧ n.verified = o.verified ∧ n.denied = o.denied ∧ n.heldFf = (o.heldFf || (x.1.gate && !o.verified)) ∧
            (o.next < lo → n.gap = true ∧ n.content = o.content ∧ n.next = o.next ∧ n.reread = o.reread) ∧
            (lo ≤ o.next → n.gap = o.gap ∧ n.reread = o.reread + min (hi - lo) (o.next - lo)) ∧
            (lo ≤ o.next → o.gap = true → n.content = o.content ∧ n.next = o.next) ∧
            (lo ≤ o.next → o.gap = false → n.next = max o.next hi ∧ n.content = o.content ++ slice got (o.next - a) (hi - o.next) ∧
              n.complete = decide (x.1.limit < n.next) ∧ (n.matched = true ↔ x.1.limit < n.next ∧ allZero x.1.digest = false ∧ Config.sha384 n.content = x.1.digest))))) ∧
      t.bwt.journal.opened = true ∧ t.bwt.journal.reads = s.bwt.journal.reads + 1 ∧ t.bwt.man = s.bwt.man ∧
      ((∃ k < r.bytes.length, gated s.toDev (a + k) = true) → t.bwt.holdFailed = satInc s.bwt.holdFailed ∧ t.bwt.holdPassed = s.bwt.holdPassed) ∧
      ((∀ k < r.bytes.length, gated s.toDev (a + k) = false) → t.bwt.holdFailed = s.bwt.holdFailed)) ∧
    (bwhPulled (csFall s.toDev) = true → exec (.arrayRead r) s = .next (on s (emit (csFall s.toDev) (.flashAnswer (List.replicate r.bytes.length 0xFF))))) ∧
    (bwhLive s.toDev = true → s.glb.power = .standby → r.op ∈ readOps → ∃ t : State, exec (.arrayRead r) s = .next t ∧
      t.out = .flashAnswer (List.replicate r.bytes.length 0xFF) :: (csFall s.toDev).out ∧ t.glb.waking = true ∧ t.bwt.journal = s.bwt.journal ∧ t.bwt.regions = s.bwt.regions) ∧
    (∀ (i : Fin 64) (x : ManRegion) (o : RegionSt) (c : Bytes), (manRegions s.toDev).find? (fun y => decide (y.2 = i.val)) = some (x, i.val) → o = regionSt s.toDev i.val x.base →
      (x.gate = true → o.verified = false → o.denied = false → o.reverify = false →
        (Config.sha384 c = x.digest → exec (.gateVerifyComplete i c) s = .next (on s (setRegion s.toDev i.val { o with verified := true }))) ∧
        (Config.sha384 c ≠ x.digest → ∃ t : State, exec (.gateVerifyComplete i c) s = .next t ∧ t.bwt = { s.bwt with regions := tset s.bwt.regions i.val { o with denied := true } } ∧ t.mgt.alert.getLsbD 1 = true)) ∧
      (o.reverify = true → s.bwt.sr1.getLsbD 0 = false → exec (.gateReverifyStart i) s = .next (on s (setRegion s.toDev i.val { o with reverify := false, denied := false }))) ∧
      (o.reverify = false ∨ s.bwt.sr1.getLsbD 0 = true → exec (.gateReverifyStart i) s = .next s))

/-- Seals and the Logbook's writer. An open journal seals at its timeout; a co-signing window ends; the writer accepts a record that fits, refuses one beyond its share or room, and ends it when it is written; a failed write is tried again in another place, the fourth failure marks the Logbook failed; a checkpoint stores the operating time. -/
def Obligations.SealsAndRecordsGoOn : Prop :=
  ∀ s : State,
    (s.bwt.journal.opened = true → s.bwt.journal.openedAt + (match s.bwt.man with | some m => m.sealTimeout | none => 300) * secondCycles ≤ s.now → exec .sealTimeout s = .next (on s (sealNow s.toDev none 3 (match s.bwt.man with | some m => m.cosign | none => false)))) ∧
    (s.bwt.journal.opened = false ∨ s.now < s.bwt.journal.openedAt + (match s.bwt.man with | some m => m.sealTimeout | none => 300) * secondCycles → exec .sealTimeout s = .next s) ∧
    (∀ x, s.bwt.sealing = some x → x.windowOpen = true → x.askedAt + 40000000 ≤ s.now → exec .cosignWindowEnd s = .next (on s (
      let d := { s.toDev with bwt := { s.bwt with sealing := some { x with windowOpen := false } } }
      if x.signed then storeSeal d { x with windowOpen := false } else d))) ∧
    (s.bwt.sealing = none ∨ (∃ x, s.bwt.sealing = some x ∧ (x.windowOpen = false ∨ s.now < x.askedAt + 40000000)) → exec .cosignWindowEnd s = .next s) ∧
    (∀ r rest, s.evr.isOpen = true → s.evr.writing = none → s.evr.queue = r :: rest → s.evr.failed = false ∨ isAction r.after = false →
      ∀ d : Dev, d = { s.toDev with evr := { s.evr with queue := rest } } →
      (overShare d r = false → bytesOf s.evr.log + 24 + r.payload.length ≤ logCap → s.evr.failed = false →
        exec .recordAccept s = .next (on s (programRec { d with evr := { d.evr with writing := some (r, recBytes d r), retries := 0 } } (logPlace s.evr.head) (recBytes d r)))) ∧
      (overShare d r = true → exec .recordAccept s = .next (on s (refuseAfter (countRefused d r true) r.after ST.logFull))) ∧
      (overShare d r = false → takeRoom d (24 + r.payload.length) = none → exec .recordAccept s = .next (on s (refuseAfter (countRefused d r false) r.after ST.logFull)))) ∧
    (s.evr.isOpen = false ∨ s.evr.queue = [] ∨ s.evr.writing.isSome = true → exec .recordAccept s = .next s) ∧
    (∀ r b, s.evr.isOpen = true → s.evr.writing = some (r, b) →
      (exec (.recordWritten true) s = .next (on s (runAfter (appendRec { s.toDev with evr := { s.evr with writing := none, retries := 0 } } r b) r.after s.evr.head))) ∧
      (s.evr.failed = false → s.evr.retries < 3 → ∃ place, exec (.recordWritten false) s = .next (on s (programRec { s.toDev with rng := s.rng + 1, evr := { s.evr with retries := s.evr.retries + 1 } } place b))) ∧
      (s.evr.failed = false → 3 ≤ s.evr.retries → ∃ t : State, exec (.recordWritten false) s = .next t ∧ t.evr.failed = true ∧ t.evr.writing = none ∧ t.evr.log = s.evr.log ∧ t.glb.errD.valid = true)) ∧
    (fabricOn s.toDev = true → s.evr.failed = false → exec .operatingTimeCheckpoint s = .next (on s (programZone { s.toDev with ps := { s.ps with checkpoint := opTime s.toDev } } 0x10000 (leBytes 8 (opTime s.toDev))))) ∧
    (fabricOn s.toDev = false ∨ s.evr.failed = true → exec .operatingTimeCheckpoint s = .next s)

/-- Krovlo ports train and fall. Lanes lock, ports train to full or degraded width or report a miswire, lose lanes and fall with their frames held, and give the frames back when the hold ends: one unit of the link's pool for a lone frame. A port comes up once TRAIN with ACK has gone both ways and each lane is locked or left out; it then sends an ACK, from which the neighbour resumes (the model's, log 14). -/
def Obligations.KrovloPortsTrainAndFall : Prop :=
  ∀ (s : State) (p : Port) (lane : Fin 2) (t : TrainInfo) (x y : PortSt), x = portOf s.toDev p →
    (exec (.laneBlockLock p lane) s = .next (on s (setPort s.toDev p { x with locked := x.locked ||| BitVec.ofNat 2 (2 ^ lane.val) }))) ∧
    (x.locked.getLsbD lane.val = false → exec (.laneLockLoss p lane) s = .next s) ∧
    (x.up = false → x.locked.getLsbD lane.val = true → exec (.laneLockLoss p lane) s = .next (on s (setPort s.toDev p { x with locked := x.locked &&& ~~~BitVec.ofNat 2 (2 ^ lane.val), acked := false }))) ∧
    (∀ l, x.up = true → x.locked.getLsbD lane.val = true → l = x.locked &&& ~~~BitVec.ofNat 2 (2 ^ lane.val) →
      ∃ u : State, exec (.laneLockLoss p lane) s = .next u ∧ u.ldg = s.ldg ∧
        portOf u.toDev p = (if l = 0 then { x with locked := 0, up := false, degraded := false, holding := true, downAt := s.now } else { x with locked := l, degraded := true })) ∧
    (x.up = true ∨ x.locked = 0 → exec (.train p t) s = .next s) ∧
    (x.up = false → x.locked ≠ 0 → t.peerPort = p → ∃ u : State, exec (.train p t) s = .next u ∧ portOf u.toDev p = { x with miswire := true }) ∧
    (x.up = false → x.locked ≠ 0 → t.peerPort ≠ p → t.ack = false ∨ x.locked ||| x.leftOut ≠ 3 →
      exec (.train p t) s = .next (on s (sendTrain (setPort s.toDev p { x with inverted := t.inverted, swapped := t.swapped, acked := t.ack }) p true))) ∧
    (y = { x with acked := false, leftOut := 0, up := true, degraded := x.locked != 3, holding := false, miswire := false, cut := false, ackDue := true, resync := !x.retained.isEmpty } →
      x.up = false → x.locked ≠ 0 → isHead s.toDev = false ∨ s.chn.role = .member ∨ s.chn.role = .excluded →
      (t.peerPort ≠ p → t.ack = true → x.locked ||| x.leftOut = 3 → ∃ u : State, exec (.train p t) s = .next u ∧ portOf u.toDev p = { y with inverted := t.inverted, swapped := t.swapped }) ∧
      (x.locked.getLsbD lane.val = false → x.acked = true → x.locked ||| (x.leftOut ||| BitVec.ofNat 2 (2 ^ lane.val)) = 3 → ∃ u : State, exec (.laneTrainTimeout p lane) s = .next u ∧ portOf u.toDev p = y)) ∧
    (x.up = false → x.locked.getLsbD lane.val = false → x.acked = false ∨ x.locked ||| (x.leftOut ||| BitVec.ofNat 2 (2 ^ lane.val)) ≠ 3 →
      exec (.laneTrainTimeout p lane) s = .next (on s (setPort s.toDev p { x with leftOut := x.leftOut ||| BitVec.ofNat 2 (2 ^ lane.val) }))) ∧
    (x.up = true ∨ x.locked.getLsbD lane.val = true → exec (.laneTrainTimeout p lane) s = .next s) ∧
    (x.up = true ∨ x.holding = false ∨ s.now < x.downAt + 400 * s.chn.linkHold → exec (.linkHoldExpire p) s = .next s) ∧
    (∀ f, x.up = false → x.holding = true → x.downAt + 400 * s.chn.linkHold ≤ s.now → x.waiting = [] → x.retained ++ x.queue = [f] → f.rid = none → (∀ b, f.frame.body ≠ .data b) →
      ∃ u : State, exec (.linkHoldExpire p) s = .next u ∧ portOf u.toDev p = { x with queue := [], retained := [], waiting := [], holding := false, cut := true } ∧
        u.chn.openRing = true ∧ u.chn.cntReturned = satInc s.chn.cntReturned ∧ heldBy u.toDev 3 (portHolder p) = heldBy s.toDev 3 (portHolder p) - 1)

/-- Frames flow on the link. A frame out of order is not taken and asks again; a frame for another unit is forwarded until 16 hops; DATA for this unit becomes a request unless the unit is excluded or out of cells; acknowledgements free frames and return their units; retransmission keeps order, and after a port came up starts with the neighbour's first ACK; a slot sends only frames of its unit, within the neighbour's credit. On two lanes the mark stands on both and the k-th 8-byte group of a frame on lane k mod 2 (the layout of some bodies is the model's, log 14). -/
def Obligations.KrovloFramesFlow : Prop :=
  (
    ∀ (s : State) (p : Port) (x : PortSt), x = portOf s.toDev p →
      (∀ i h b, frameOf i = some (p, h, b) →
        (hears s.toDev p = false → exec i s = .next s) ∧
        (hears s.toDev p = true → h.seq ≠ x.rxNext → exec i s = .next (on s (setPort s.toDev p { x with ackDue := true, nakDue := x.nakDue || !seqBefore h.seq x.rxNext }))) ∧
        (hears s.toDev p = true → h.dest ≠ 0xFF → rxFree s.toDev p ≤ 4 → s.chn.addrValid = false ∨ h.dest.toNat ≠ s.chn.addr →
          exec i s = .next (on s (setPort s.toDev p { x with ackDue := true, nakDue := x.nakDue || !seqBefore h.seq x.rxNext }))) ∧
        (hears s.toDev p = true → h.seq = x.rxNext → h.dest ≠ 0xFF → 4 < rxFree s.toDev p → s.chn.addrValid = false ∨ h.dest.toNat ≠ s.chn.addr →
          (h.hops + 1 < 16 → exec i s = .next (on s (enqueue (heard s.toDev p) (opposite p) { hdr := { h with hops := h.hops + 1 }, body := b }))) ∧
          (16 ≤ h.hops + 1 → exec i s = .next (on s (setChn (heard s.toDev p) { (heard s.toDev p).chn with cntHopDrop := satInc s.chn.cntHopDrop }))))) ∧
      (∀ h b, forUs s.toDev p h → (s.chn.role = .excluded → exec (.data p h b) s =
          .next (on s (if cellRoom s.toDev H.krovlo < cellsFor b.length then setPort s.toDev p { x with ackDue := true, nakDue := x.nakDue || !seqBefore h.seq x.rxNext } else heardHere s.toDev p h))) ∧
        (s.chn.role ≠ .excluded → ∀ o : Fin 16, h.origin.toNat = o.val → cellsFor b.length ≤ cellRoom s.toDev H.krovlo → ∀ d, intake (heardHere s.toDev p h) (.krovlo o) (b.take 3 ++ [BitVec.ofNat 8 h.hops] ++ b.drop 4) = some d →
          exec (.data p h b) s = .next (on s d))) ∧
      (∀ (k : Word) (free : Nat) (r w : List TxFrame), hears s.toDev p = true → x.waiting = [] → r = x.retained.filter (fun t => !seqBefore t.frame.hdr.seq k) →
        w = x.queue.filter (fun t => !(t.frame.hdr.retx && seqBefore t.frame.hdr.seq k)) →
        ∀ nak, ∃ u : State, exec (.ack p k free nak) s = .next u ∧ u.chn.heardInCycle = true ∧
          portOf u.toDev p = (if nak || x.resync then { x with retained := [], queue := r.map again ++ w, peerFree := min 32 free, resync := false }
            else { x with retained := r, queue := w, peerFree := min 32 free }) ∧
          heldBy u.toDev 3 (portHolder p) = heldBy s.toDev 3 (portHolder p) - (x.retained.length - r.length) - (x.queue.length - w.length)) ∧
      (x.up = true → ∃ u : State, exec (.retxTimeout p) s = .next u ∧ portOf u.toDev p = { x with queue := x.retained.map again ++ x.queue, retained := [], resync := false } ∧
        u.chn.cntRetx.toNat = min 0xFFFFFFFF (s.chn.cntRetx.toNat + x.retained.length)) ∧
      (x.up = true → exec (.frameCorrupt p .falseMark) s = .next (on s (setChn s.toDev { s.chn with cntMarkFalse := satInc s.chn.cntMarkFalse }))) ∧
      (exec (.frameCorrupt p .badBody) s = .next s) ∧
      (x.up = false → exec (.retxTimeout p) s = .next s) ∧
      (hears s.toDev p = false → ∀ a b c, exec (.ack p a b c) s = .next s) ∧
      (∃ u : State, ∃ sent : List TxFrame, ∃ y, y = portOf u.toDev p ∧ exec .slotStart s = .next u ∧ u.chn.slot = (s.chn.slot + 1) % 16 ∧
        y.retained = x.retained ++ sent ∧ y.queue.Sublist x.queue ∧ y.queue.length + sent.length = x.queue.length ∧
        (hears s.toDev p = false ∨ x.resync = true → sent = []) ∧ sent.length ≤ min 32 x.peerFree - x.retained.length ∧
        (∀ f ∈ sent, f ∈ x.queue ∧ (s.chn.role = .enumerating ∨ s.chn.units = 0 ∨ f.frame.hdr.origin.toNat = u.chn.slot ∨
          (f.frame.hdr.origin = 0xFF ∧ u.chn.slot = if s.chn.addrValid then s.chn.addr else 15))))) ∧
  (
    ∀ (f : Frame) (b : Bytes) (g : Nat → Bytes), b = frameBytes f → (∀ k, g k = (b.drop (8 * k) ++ zeros 8).take 8) →
      (∃ l, laneBlocks true f = [[0x48, 0x7B, 0xD2, 0x96, 0x0E, 0x5C, 0xF1, 0xA3] :: l] ∧ l.length = (b.length + 7) / 8 ∧ ∀ k < l.length, l[k]? = some (g k)) ∧
      (∃ l m, laneBlocks false f = [[0x48, 0x7B, 0xD2, 0x96, 0x0E, 0x5C, 0xF1, 0xA3] :: l, [0x83, 0xF1, 0x64, 0x0D, 0xA7, 0xC9, 0x2B, 0x5E] :: m] ∧
        l.length = (b.length + 15) / 16 ∧ m.length = l.length ∧ ∀ k < 2 * l.length, (if k % 2 = 0 then l else m)[k / 2]? = some (g k)) ∧
      b.length = 20 + (bodyBytes f.body).length ∧ b.take 1 = [frameType f.body] ∧ slice b 12 4 = b4 (crc32c (b.take 12)) ∧ b.drop (b.length - 4) = b4 (crc32c (bodyBytes f.body)))

/-- Enumeration gives addresses. A unit takes the next address below 16 and passes ENUMERATE on, or is excluded; heads settle by DEVICE_ID; the round trip closes the ring or finds it open and fixes the number of units. -/
def Obligations.EnumerationGivesAddresses : Prop :=
  ∀ (s : State) (p : Port) (h : LinkHdr) (H : Bytes) (next : Nat) (d e : Dev) (c : Chn), hears s.toDev p = true → h.seq = (portOf s.toDev p).rxNext → d = heard s.toDev p → c = d.chn →
    (isHead s.toDev = false → s.chn.headId = none ∨ s.chn.headId = some H →
      ∀ on' : Nat → Dev → Dev, (∀ n e, on' n e = if (portOf e (opposite p)).up then enqueue { e with chn := { e.chn with split := 16 } } (opposite p) (headFrame e (.enumerate H n))
        else enqueue { e with chn := { e.chn with split := n } } p (headFrame e (.enumBack H n))) →
      (s.chn.headId = some H → s.chn.addrValid = true → s.chn.role ≠ .solitary → next ≤ s.chn.addr → exec (.enumerate p h H next) s = .next (on s (on' (s.chn.addr + 1) d))) ∧
      (s.chn.addrValid = false → s.chn.role ≠ .solitary → next < 16 → e = { d with chn := { c with addr := next, addrValid := true, headId := some H, role := .member, upstream := p == .dn } } →
        exec (.enumerate p h H next) s = .next (on s (noteLink s.toDev (on' (next + 1) e)))) ∧
      (s.chn.role = .solitary → next < 16 → e = { d with chn := { c with addr := next, addrValid := true, headId := some H, role := .member, upstream := p == .dn } } →
        exec (.enumerate p h H next) s = .next (on s (noteLink s.toDev (on' (next + 1) (recStatus e 0x0302))))) ∧
      (s.chn.addrValid = false → 16 ≤ next → e = { d with chn := { c with addr := 0, addrValid := false, headId := some H, role := .excluded, repl := false, upstream := p == .dn } } →
        exec (.enumerate p h H next) s = .next (on s (noteLink s.toDev (on' (next + 1) e))))) ∧
    (isHead s.toDev = false → ∀ y, s.chn.headId = some y → s.chn.addrValid = true → s.chn.role ≠ .solitary → idLt y H = true → exec (.enumerate p h H next) s = .next (on s d)) ∧
    (isHead s.toDev = true → H ≠ Config.deviceId → idLt H Config.deviceId = false → exec (.enumerate p h H next) s = .next (on s d)) ∧
    (isHead s.toDev = true → H ≠ Config.deviceId → idLt H Config.deviceId = true → ∃ u : State, exec (.enumerate p h H next) s = .next u ∧ u.chn.isHead = false ∧ u.chn.enumRunning = false ∧ u.chn.headId = some H) ∧
    (isHead s.toDev = true → H = Config.deviceId → ∃ u : State, exec (.enumerate p h H next) s = .next u ∧ u.chn.units = min next 16 ∧ u.chn.openRing = false ∧ u.chn.role = .member ∧ u.chn.enumRunning = false ∧ u.chn.attempts = 0) ∧
    (isHead s.toDev = false → exec (.enumBack p h H next) s = .next (on s (
      let e := if p = .dn then { d with chn := { c with split := next } } else d
      if (portOf e (opposite p)).up then enqueue e (opposite p) (headFrame e (.enumBack H next)) else e))) ∧
    (isHead s.toDev = true → H ≠ Config.deviceId → exec (.enumBack p h H next) s = .next (on s d)) ∧
    (isHead s.toDev = true → H = Config.deviceId → p = .up ∨ s.chn.up.up = false →
      ∃ u : State, exec (.enumBack p h H next) s = .next u ∧ u.chn.units = min next 16 ∧ u.chn.openRing = true ∧ u.chn.role = .member) ∧
    (isHead s.toDev = true → H = Config.deviceId → p = .dn → s.chn.up.up = true → e = { d with chn := { c with split := next } } →
      exec (.enumBack p h H next) s = .next (on s (enqueue e .up (headFrame e (.enumerate H next))))) ∧
    (∀ q, isHead s.toDev = true → s.chn.dn.up = true ∨ s.chn.up.up = true → q = (if s.chn.dn.up then Port.dn else Port.up) →
      (e = { s.toDev with chn := { s.chn with addr := 0, addrValid := true, headId := some Config.deviceId, enumRunning := s.chn.enumRunning && decide (s.chn.attempts < 8), attempts := s.chn.attempts + 1, upstream := false, split := if s.chn.dn.up then 16 else 1 } } →
        s.chn.role = .solitary ∨ (s.chn.enumRunning = true ∧ s.chn.attempts < 8) → exec .enumerateRetry s = .next (on s (enqueue e q (headFrame e (.enumerate Config.deviceId 1))))) ∧
      (e = { s.toDev with chn := { s.chn with addr := 0, addrValid := true, headId := some Config.deviceId, enumRunning := true, attempts := 1, upstream := false, split := if s.chn.dn.up then 16 else 1 } } →
        s.chn.enumRunning = false → exec .reenum s = .next (on s (enqueue e q (headFrame e (.enumerate Config.deviceId 1)))))) ∧
    (isHead s.toDev = false ∨ (s.chn.up.up = false ∧ s.chn.dn.up = false) ∨ (s.chn.role ≠ .solitary ∧ (8 ≤ s.chn.attempts ∨ s.chn.enumRunning = false)) → exec .enumerateRetry s = .next s) ∧
    (isHead s.toDev = false ∨ s.chn.enumRunning = true → exec .reenum s = .next s)

/-- Units agree on a leader. From STATUS frames a unit chooses as leader the lowest address among the FIELDED units of the highest epoch (among all where none is FIELDED), keeps its epoch, is excluded on a version that differs, follows the leader's time within its limits; lost units are dropped; a unit alone becomes SOLITARY; ROSTER and CONFIG of higher epoch are adopted. -/
def Obligations.UnitsAgreeOnALeader : Prop :=
  ∀ (s : State) (p : Port) (h : LinkHdr) (d : Dev), d = heardHere s.toDev p h → allLocal s.toDev → s.chn.cfgWaits = [] →
    (∀ b : StatusBody, hears s.toDev p = true → h.origin.toNat < 16 → s.chn.addrValid = false ∨ h.origin.toNat ≠ s.chn.addr →
      ∃ u : State, exec (.status p h b) s = .next u ∧ u.chn.view = tset s.chn.view h.origin.toNat { body := b, seenAt := s.now } ∧ u.chn.heardInCycle = true ∧
        leads (candidates u.toDev) u.chn.leader ∧ u.chn.epoch = s.chn.epoch ∧ u.chn.admitted = s.chn.admitted ∧
        (b.devId = Config.deviceId → u.chn.dupId = true ∧ u.chn.repl = false) ∧
        (∀ q, tget u.chn.view u.chn.leader = some q →
          (q.body.epoch = s.chn.epoch → q.body.admDigest ≠ admDigestOf (admittedOf s.toDev) → u.chn.admMismatch = true ∧ u.chn.repl = false) ∧
          (q.body.fwVersion.toNat / 65536 ≠ s.key.fwVersion.toNat / 65536 → u.chn.role = .excluded ∧ u.chn.repl = false)) ∧
        (h.origin.toNat ≠ u.chn.leader → u.chn.time = s.chn.time ∧ u.chn.slewing = s.chn.slewing) ∧
        (h.origin.toNat = u.chn.leader → ∀ off : Int, off = (b.time.toNat : Int) + (pathDelay s.toDev : Nat) - (s.chn.time.toNat : Int) →
          (off.natAbs ≤ 1000000 → u.chn.time = s.chn.time ∧ u.chn.slewing = s.chn.slewing) ∧
          (1000000 < off.natAbs → off.natAbs ≤ 1000000000 → u.chn.time = s.chn.time ∧ u.chn.slewing = some (s.chn.slewing.getD off) ∧ (s.chn.slewing = none → u.chn.slewLeft = off)) ∧
          (1000000000 < off.natAbs → u.chn.time = BitVec.ofNat 64 (b.time.toNat + pathDelay s.toDev) ∧ u.chn.slewing = none))) ∧
    (∃ u : State, exec .heartbeat s = .next u ∧ u.chn.unacked = (if s.chn.heardInCycle then 0 else s.chn.unacked + 1) ∧ u.chn.heardInCycle = false ∧
      u.chn.statusDue = ((s.chn.addrValid && decide (s.chn.units ≠ 0)) || s.chn.role == .excluded) ∧ u.chn.view = s.chn.view ∧
      (s.chn.role = .member ∨ s.chn.role = .excluded → candidates s.toDev ≠ [] → leads (candidates s.toDev) u.chn.leader)) ∧
    (∀ i, (i = .solitary ∧ (8 ≤ s.chn.unacked ∨ 8 ≤ s.chn.attempts ∨ s.chn.everUp = false)) ∨ (i = .noAddressTimeout ∧ isHead s.toDev = false ∧ s.chn.everUp = true ∧ s.chn.addrValid = false ∧ s.chn.role ≠ .excluded) →
      s.chn.role ≠ .solitary → s.chn.replicates = [] → ∃ u : State, exec i s = .next u ∧
        u.chn = { s.chn with role := .solitary, addr := 0, addrValid := true, units := 1, leader := 0, view := [], repl := false, unacked := 0, attempts := 0, enumRunning := false, replicates := [], cfgWaits := [] } ∧
        u.mgt.alert.getLsbD 4 = true) ∧
    (s.chn.unacked < 8 → s.chn.attempts < 8 → s.chn.everUp = true → exec .solitary s = .next s) ∧
    (s.chn.addrValid = true ∨ s.chn.role = .excluded ∨ isHead s.toDev = true ∨ s.chn.everUp = false → exec .noAddressTimeout s = .next s) ∧
    (∀ a : Fin 16, (∀ q, tget s.chn.view a.val = none ∨ (tget s.chn.view a.val = some q ∧ s.now < q.seenAt + 3200000) → exec (.statusTimeout a) s = .next s) ∧
      (∀ q, tget s.chn.view a.val = some q → q.seenAt + 3200000 ≤ s.now → ∃ u : State, exec (.statusTimeout a) s = .next u ∧ u.chn.view = tdel s.chn.view a.val ∧
        (candidates u.toDev ≠ [] → leads (candidates u.toDev) u.chn.leader))) ∧
    (∀ H units closed delays, forUs s.toDev p h →
      (s.chn.headId = some H → ∃ u : State, exec (.roster p h H units closed delays) s = .next u ∧ u.chn.units = units ∧ u.chn.delays = delays ∧
        u.chn.openRing = (!closed || s.chn.up.cut || s.chn.dn.cut) ∧ u.chn.role = if s.chn.role = .enumerating ∧ s.chn.addrValid = true then .member else s.chn.role) ∧
      (s.chn.headId ≠ some H → exec (.roster p h H units closed delays) s = .next (on s d))) ∧
    (∀ (e : Quad) (l : List Bytes), forUs s.toDev p h →
      (l ≠ [] → s.chn.epoch.toNat < e.toNat → ∃ u : State, exec (.config p h e l) s = .next u ∧ u.chn.epoch = e ∧ u.chn.admitted = l ∧ u.chn.admMismatch = false ∧ u.chn.statusDue = true) ∧
      (l ≠ [] → e.toNat ≤ s.chn.epoch.toNat → exec (.config p h e l) s = .next (on s d)) ∧
      (exec (.config p h e []) s = .next (on s ((unicast d h.origin.toNat (.config s.chn.epoch (admittedOf s.toDev))).getD d)))) ∧
    (∀ off, s.chn.slewing = some off → ∃ u : State, exec .chainTimeSlewEnd s = .next u ∧ u.chn = { s.chn with slewing := none, slewLeft := 0, time := BitVec.ofInt 64 ((s.chn.time.toNat : Int) + s.chn.slewLeft) }) ∧
    (s.chn.slewing = none → exec .chainTimeSlewEnd s = .next s)

/-- Replicas, results and co-signatures. A REPLICA that opens is stored and acknowledged, any other stores nothing; acknowledgements gather in the answer of CHN_REPLICATE; REPL_DROP frees the replica; RESULT runs end a remote request with its bytes or ST_LINK_LOST; a unit co-signs up to 16 times a second for each unit, and a valid co-signature joins the open seal. -/
def Obligations.KrovloServicesAct : Prop :=
  ∀ (s : State) (p : Port) (h : LinkHdr) (d : Dev), d = heardHere s.toDev p h → forUs s.toDev p h →
    (∀ (b : ReplicaBody) (x : Peer) (w : Owner) (i : Nat), tget s.chn.view h.origin.toNat = some x → ownerOf s.toDev b.owner.toNat = some w →
      selfInRepl s.toDev = true → peerInRepl s.toDev x.body = true → w.mode = b.mode → slotRoom s.toDev .pf b.owner.toNat = true → drbgReady s.toDev = true →
      (∀ r ∈ s.key.replicas, r.1 ≠ (x.body.devId, b.srcHandle)) → pickSlot s.toDev = some i →
      match Config.gcmOpen (ringKey s.toDev x.body.attestPub b.nonce) (b.nonce.take 12) [] (b.cipher.take (b.cipher.length - 16)) (b.cipher.drop (b.cipher.length - 16)) with
      | none => exec (.replica p h b) s = .next (on s d)
      | some k => if k.length ≠ b.length ∨ storedLenOk b.type b.length = false then exec (.replica p h b) s = .next (on s d) else
          exec (.replica p h b) s = .next (on s (
            let e := storeKey { d with rng := d.rng + 1 } i b.type b.usage b.owner .pf k
            let e := { e with key := { e.key with replicas := e.key.replicas ++ [((x.body.devId, b.srcHandle), i)] } }
            (unicast e h.origin.toNat (.replAck b.srcHandle)).getD e))) ∧
    (∀ (b : ReplicaBody), tget s.chn.view h.origin.toNat = none ∨ ownerOf s.toDev b.owner.toNat = none → exec (.replica p h b) s = .next (on s d)) ∧
    (∀ x : Word, exec (.replAck p h x) s = .next (on s { d with chn := { d.chn with replicates := s.chn.replicates.map fun r =>
      if r.handle = x then { r with bitmap := r.bitmap ||| BitVec.ofNat 16 (2 ^ (h.origin.toNat % 16)) } else r } })) ∧
    (∀ r l, s.chn.replicates = r :: l →
      (r.since + 40000000 ≤ s.now → exec .replicateWindowEnd s = .next (on s (finish { s.toDev with chn := { s.chn with replicates := l } } r.rid ST.ok (b2 r.bitmap)))) ∧
      (s.now < r.since + 40000000 → exec .replicateWindowEnd s = .next s)) ∧
    (s.chn.replicates = [] → exec .replicateWindowEnd s = .next s) ∧
    (∀ (x : Word) (id : Bytes), id = peerId s.toDev h.origin.toNat →
      ((∀ r ∈ s.key.replicas, r.1 ≠ (id, x)) → exec (.replDrop p h x) s = .next (on s d)) ∧
      (∀ i k, s.key.replicas.find? (fun r => r.1 == (id, x)) = some ((id, x), i) → tget s.key.slots i = some k → k.uses = 0 → k.reserved = false →
        exec (.replDrop p h x) s = .next (on s (freeSlot { d with key := { s.key with replicas := s.key.replicas.filter fun r => r.1 != (id, x) } } i)))) ∧
    (∀ (b : ResultBody) (n : Nat) (q : Req) (r : Option ResultRun) (have_ : Bytes), remoteReq s.toDev b.reqSeq = some (n, q) → r = tget s.chn.results b.reqSeq.toNat →
      b.first = r.isNone → have_ = (match r with | some y => y.bytes | none => []) → b.offset = have_.length → ∀ total comp, total = (match r with | some y => y.total | none => b.total) →
      comp = (match r with | some y => y.completion | none => b.completion) →
      (b.more = true → ∀ need, need = cellsFor (bodyLen (.result b)) →
        (cellRoom s.toDev H.krovlo < need →
          exec (.result p h b) s = .next (on s (setPort s.toDev p { portOf s.toDev p with ackDue := true, nakDue := (portOf s.toDev p).nakDue || !seqBefore h.seq (portOf s.toDev p).rxNext }))) ∧
        (need ≤ cellRoom s.toDev H.krovlo → ∀ e cells, claimCells d (.krovlo 0) need = some (e, cells) →
          exec (.result p h b) s = .next (on s { e with chn := { e.chn with results := tset s.chn.results b.reqSeq.toNat { completion := comp, bytes := have_ ++ b.result, total := total, since := (match r with | some y => y.since | none => s.now), cells := (match r with | some y => y.cells | none => []) ++ cells } } }))) ∧
      (b.more = false → ∀ e : Dev, e = (match r with | some y => freeCells { d with chn := { d.chn with results := tdel s.chn.results b.reqSeq.toNat } } H.krovlo y.cells | none => d) →
        ((have_ ++ b.result).length = total → q.pass2 = false → total ≤ q.dataCap → exec (.result p h b) s = .next (on s (finish e n (half comp 8) (have_ ++ b.result) (word comp 20)))) ∧
        ((have_ ++ b.result).length = total → q.pass2 = false → q.dataCap < total → exec (.result p h b) s = .next (on s (finish e n ST.resultSpace))) ∧
        ((have_ ++ b.result).length ≠ total → exec (.result p h b) s = .next (on s (finish e n ST.linkLost))))) ∧
    (∀ seq n q y, tget s.chn.results seq.toNat = some y → remoteReq s.toDev seq = some (n, q) →
      (y.since + 4000000 ≤ s.now → exec (.resultRunTimeout seq) s = .next (on s (finish (freeCells { s.toDev with chn := { s.chn with results := tdel s.chn.results seq.toNat } } H.krovlo y.cells) n ST.linkLost))) ∧
      (s.now < y.since + 4000000 → exec (.resultRunTimeout seq) s = .next s)) ∧
    (∀ seq : Word, tget s.chn.results seq.toNat = none → exec (.resultRunTimeout seq) s = .next s) ∧
    (∀ (g : Bytes) (x : Peer) (recent : List (Nat × Nat)), tget s.chn.view h.origin.toNat = some x → recent = s.chn.cosigTimes.filter (fun t => decide (s.now < t.2 + secondCycles)) →
      selfInRepl s.toDev = true → peerInRepl s.toDev x.body = true → x.body.lcState = s.lc.state → rootLoaded s.toDev = true →
      ((recent.filter fun t => decide (t.1 = h.origin.toNat)).length < 16 → exec (.cosignReq p h g) s = .next (on s { d with chn := { d.chn with cosigTimes := recent ++ [(h.origin.toNat, s.now)] }, pkeWait := s.pkeWait ++ [.secure { rid := none, issuer := .secure, kind := .cosign (p == .dn) h.origin.toNat g, alg := 0x21 }] })) ∧
      (16 ≤ (recent.filter fun t => decide (t.1 = h.origin.toNat)).length → exec (.cosignReq p h g) s = .next (on s d))) ∧
    (∀ (id sig : Bytes) (x : Peer) (z : Seal), s.bwt.sealing = some z → tget s.chn.view h.origin.toNat = some x →
      (z.windowOpen = true → x.body.devId = id → z.cosigs.length < 15 → exec (.cosign p h id sig) s = .next (on s (
        if Config.pkVerify 0x21 3 0 false x.body.attestPub (z.digest ++ id) sig then { d with bwt := { s.bwt with sealing := some { z with cosigs := tset z.cosigs h.origin.toNat (id, sig) } } } else d))) ∧
      (z.windowOpen = false ∨ x.body.devId ≠ id → exec (.cosign p h id sig) s = .next (on s d)))

/-- Timers count, reach zero and capture. ARM, STOP and pops act on the timer in RUN; ZERO stops it, sets the bit, wakes and interrupts the owner world; a capture queues COUNT up to four entries, keeps the oldest and sets CAP_OVF; an edge on a TMR_IN pin counts in every timer whose source it is. In the model an empty queue is one fabric cycle (log 1): then a P-mode timer, and an F-mode one on the fabric clock, counts down by its ticks or reaches zero. -/
def Obligations.TimersCountAndCapture : Prop :=
  ∀ (s : State) (t : Fin 16) (x : Timer), x = tmrOf s.toDev t.val →
    (s.glb.power = .run → inTransit s.toDev t.val = false →
      (x.running = false → x.zeroAt ≠ some s.now → exec (.arm t) s = .next (on s (setTmr s.toDev t.val { x with running := true, count := x.load, phase := 0 }))) ∧
      (x.running = true ∨ x.zeroAt = some s.now → exec (.arm t) s = .next s) ∧
      (x.running = true → exec (.stop t) s = .next (on s (setTmr s.toDev t.val { x with running := false, stopAt := some s.now }))) ∧
      (x.running = false → exec (.stop t) s = .next s) ∧
      (x.caps ≠ [] → (∀ m, x.missed = some m → m.1 ≠ s.now) → exec (.capturePop t) s = .next (on s (setTmr s.toDev t.val { x with caps := x.caps.tail }))) ∧
      (∀ c o, x.caps ≠ [] → x.missed = some (s.now, c, o) → (capNow s.now x).1 = false →
        exec (.capturePop t) s = .next (on s (setTmr s.toDev t.val { x with caps := x.caps.tail ++ [c], capOvf := o, missed := none }))) ∧
      (x.caps = [] → exec (.capturePop t) s = .next s)) ∧
    (s.glb.power ≠ .run → exec (.arm t) s = .next s ∧ exec (.stop t) s = .next s ∧ exec (.capturePop t) s = .next s) ∧
    ((x.running = false ∧ x.stopAt ≠ some s.now) ∨ 1 < x.count.toNat → exec (.zero t) s = .next s) ∧
    (x.running = true ∨ x.stopAt = some s.now → x.count.toNat ≤ 1 → s.glb.power = .run ∨ s.glb.power = .doze ∨ (s.glb.power = .standby ∧ x.fMode = true ∧ x.src = 2) →
      ∃ u : State, exec (.zero t) s = .next u ∧ tmrOf u.toDev t.val = { x with running := false, count := 0, zero := true, zeroAt := some s.now, stopAt := none } ∧
        (∀ j, j ≠ t.val → tmrOf u.toDev j = tmrOf s.toDev j) ∧ (s.glb.power ≠ .run → u.glb.waking = true) ∧
        (x.zeroIe = true → ownedBySecure s.toDev t.val = true → u.sec.irqSecure = s.sec.irqSecure ||| 2 ^ t.val) ∧
        (x.zeroIe = true → ownedBySecure s.toDev t.val = false → u.sec.irqNormal = s.sec.irqNormal ||| 2 ^ t.val) ∧
        (x.zeroIe = false → u.sec = s.sec)) ∧
    (s.glb.power = .standby → x.fMode = false ∨ x.src ≠ 2 → exec (.zero t) s = .next s) ∧
    (∀ (e : PinEdge) (d : Dev) (y : Timer) c, e.t = t → fabricOn s.toDev = true → d = pinEdge s.toDev (capNow s.now x).2.2.1.toNat e.rising → y = tmrOf d t.val → c = capNow d.now y →
      (c.2.1 = false ∨ edgeOn c.2.2.2 e.rising = false → exec (.capture e) s = .next (on s d)) ∧
      (c.2.1 = true → edgeOn c.2.2.2 e.rising = true →
        (y.caps.length < 4 → c.1 = false → exec (.capture e) s = .next (on s (setTmr d t.val { y with caps := y.caps ++ [y.count] }))) ∧
        (y.caps.length < 4 → c.1 = true → exec (.capture e) s = .next (on s (
          let d' := setTmr d t.val { y with caps := y.caps ++ [y.count] }
          if ownedBySecure d t.val then raiseSecure d' t.val else raiseNormal d' t.val))) ∧
        (4 ≤ y.caps.length → exec (.capture e) s = .next (on s (setTmr d t.val { y with capOvf := true, missed := some (s.now, y.count, y.capOvf) }))))) ∧
    (∀ e : PinEdge, e.t = t → fabricOn s.toDev = false → exec (.capture e) s = .next s) ∧
    (∀ (pin : Nat) (r : Bool) (n p : Nat), twf s.tmr = true → fabricOn s.toDev = true → x.running = true → x.fMode = true → x.src.toNat = 3 + pin → edgeOn x.edge r = true → tget s.pinEdges (2 * pin + r.toNat) ≠ some s.now →
      n = (x.phase + 0x10000) / x.div.toNat → p = (x.phase + 0x10000) % x.div.toNat →
      tmrOf (pinEdge s.toDev pin r) t.val = (if x.count.toNat ≤ n then { x with running := false, count := 0, zero := true, zeroAt := some s.now, stopAt := none } else { x with count := x.count - BitVec.ofNat 32 n, phase := p })) ∧
    (∀ n p : Nat, s.pending = [] → twf s.tmr = true → x.running = true → s.glb.power = .run ∨ s.glb.power = .doze → swdtOver s.toDev = false →
      (x.fMode = false ∧ n = (x.phase + 1) / 2 ^ x.k.toNat ∧ p = (x.phase + 1) % 2 ^ x.k.toNat) ∨
      (x.fMode = true ∧ x.src = 0 ∧ n = (x.phase + 0x10000 * (if x.edge = 0 ∨ x.edge = 1 then 1 else 2)) / x.div.toNat ∧ p = (x.phase + 0x10000 * (if x.edge = 0 ∨ x.edge = 1 then 1 else 2)) % x.div.toNat) →
      ∃ u : State, step s = .next u ∧ u.now = s.now + 1 ∧
        tmrOf u.toDev t.val = (if x.count.toNat ≤ n then { x with running := false, count := 0, zero := true, zeroAt := some (s.now + 1), stopAt := none }
          else { x with count := x.count - BitVec.ofNat 32 n, phase := p }))

/-- The management bus. The port is silent, not acknowledging, waking or serving as its power state and ownership say; CCCs and the alert response act on its address and alert state in their mode; MCTP packets assemble in order up to 8 messages, and broken ones are dropped and counted. Packet layouts are presumed from DSP0236 (log 36). -/
def Obligations.TheManagementBus : Prop :=
  (∀ (s : State) (i : Instr) (x : MgtOp), mgtOp i = some x →
    (s.glb.power = .vault ∨ s.glb.power = .off → exec i s = .next s) ∧
    (s.glb.power = .run ∨ s.glb.power = .doze → s.mgt.bankOff = true → exec i s = .next s) ∧
    (s.glb.power = .run ∨ s.glb.power = .doze → s.mgt.bankOff = false → s.mgt.enabled = false ∨ inTransit s.toDev 22 = true → exec i s = .next (on s (emit s.toDev .mgtNack))) ∧
    (s.glb.power = .standby → s.mgt.enabled = true → s.mgt.i3c = true → ∃ u : State, exec i s = .next u ∧ u.glb.waking = true ∧ .mgtNack ∈ u.out ∧ u.mgt = s.mgt ∧ u.glb.heldAccess = s.glb.heldAccess) ∧
    (s.glb.power = .standby → s.mgt.enabled = true → s.mgt.i3c = false → ∃ u : State, exec i s = .next u ∧ u.glb.waking = true ∧ u.mgt = s.mgt ∧ u.glb.heldAccess = s.glb.heldAccess ++ [.mgt x])) ∧
  (∀ (s : State) (e : Dev) (a : BitVec 7), servedMgt s e →
    (s.mgt.i3c = true →
      exec .enec s = .next (on s { e with mgt := { s.mgt with ibiEn := true } }) ∧ exec .disec s = .next (on s { e with mgt := { s.mgt with ibiEn := false } }) ∧
      exec .rstdaa s = .next (on s { e with mgt := { s.mgt with i3c := false, dynAddr := 0 } }) ∧ exec (.setnewda a) s = .next (on s { e with mgt := { s.mgt with dynAddr := a } }) ∧
      exec .getpid s = .next (on s (emit e (.mgtReply (beBytes 6 (0x1D7C * 2 ^ 33 + leAt Config.deviceId 0 4))))) ∧
      exec .getbcr s = .next (on s (emit e (.mgtReply [0x06]))) ∧ exec .getdcr s = .next (on s (emit e (.mgtReply [0x00]))) ∧
      (∃ b : Bytes, exec .getstatus s = .next (on s (emit { e with rng := e.rng + 1 } (.mgtReply b)))) ∧
      exec (.entdaa a) s = .next (on s e) ∧ exec (.setdasa a) s = .next (on s e) ∧ exec .alertResponseAddress s = .next (on s e)) ∧
    (s.mgt.i3c = false →
      (∀ i, i ∈ [Instr.entdaa a, Instr.setdasa a] → exec i s = .next (on s { e with mgt := { s.mgt with i3c := true, dynAddr := a } })) ∧
      exec .alertResponseAddress s = .next (on s (emit e (.mgtReply [s.mgt.saddr.setWidth 8 <<< 1]))) ∧
      (∀ i, i ∈ [Instr.enec, .disec, .rstdaa, .setnewda a, .getpid, .getbcr, .getdcr, .getstatus] → exec i s = .next (on s e)))) ∧
  (∀ (s : State) (e : Dev) (p : McPacket) (k : AsmKey), servedMgt s e → k = { src := p.src, tag := p.tag } →
    (p.i3c ≠ s.mgt.i3c → exec (.mctpPacket p) s = .next (on s (emit e .mgtNack))) ∧
    (p.i3c = false → s.mgt.i3c = false → p.pecOk = false → exec (.mctpPacket p) s = .next (on s { e with mgt := { s.mgt with cntPkt := satInc s.mgt.cntPkt } })) ∧
    (p.i3c = s.mgt.i3c → p.i3c = true ∨ p.pecOk = true →
      (p.ic = true ∨ 64 < p.payload.length ∨ (p.dst ≠ 0 ∧ p.dst ≠ s.mgt.eid) → exec (.mctpPacket p) s = .next (on s e)) ∧
      (p.ic = false → p.payload.length ≤ 64 → p.dst = 0 ∨ p.dst = s.mgt.eid →
        (p.som = true → p.eom = true → (∀ a ∈ s.mgt.asm, a.key ≠ k) → s.mgt.asm.length < 8 → exec (.mctpPacket p) s = .next (on s (deliverMsg e (p.dst == 0) p.payload))) ∧
        (p.som = true → p.eom = false → (∀ a ∈ s.mgt.asm, a.key ≠ k) → s.mgt.asm.length < 8 →
          exec (.mctpPacket p) s = .next (on s { e with mgt := { s.mgt with asm := s.mgt.asm ++ [{ key := k, nextSeq := (p.pktSeq.val + 1) % 4, bytes := p.payload, since := s.now }] } })) ∧
        (p.som = true → (∀ a ∈ s.mgt.asm, a.key ≠ k) → 8 ≤ s.mgt.asm.length → exec (.mctpPacket p) s = .next (on s (busyReply e p.payload))) ∧
        (p.som = false → (∀ a ∈ s.mgt.asm, a.key ≠ k) → exec (.mctpPacket p) s = .next (on s e)) ∧
        (∀ l m y, p.som = false → s.mgt.asm = l ++ y :: m → y.key = k → (∀ a ∈ l ++ m, a.key ≠ k) →
          (p.pktSeq.val ≠ y.nextSeq → exec (.mctpPacket p) s = .next (on s { e with mgt := { s.mgt with asm := l ++ m, cntMsg := satInc s.mgt.cntMsg } })) ∧
          (p.pktSeq.val = y.nextSeq → p.eom = true → exec (.mctpPacket p) s = .next (on s (deliverMsg { e with mgt := { s.mgt with asm := l ++ m } } (p.dst == 0) (y.bytes ++ p.payload)))) ∧
          (p.pktSeq.val = y.nextSeq → p.eom = false → y.bytes.length + p.payload.length ≤ 4104 →
            exec (.mctpPacket p) s = .next (on s { e with mgt := { s.mgt with asm := l ++ { y with nextSeq := (p.pktSeq.val + 1) % 4, bytes := y.bytes ++ p.payload } :: m } })))))) ∧
  (∀ (s : State) (k : AsmKey), (∀ l m y, s.mgt.asm = l ++ y :: m → y.key = k → (∀ a ∈ l ++ m, a.key ≠ k) →
      (y.since + secondCycles / 10 ≤ s.now → exec (.mctpAssemblyTimeout k) s = .next (on s { s.toDev with mgt := { s.mgt with asm := l ++ m, cntMsg := satInc s.mgt.cntMsg } })) ∧
      (s.now < y.since + secondCycles / 10 → exec (.mctpAssemblyTimeout k) s = .next s)) ∧
    ((∀ a ∈ s.mgt.asm, a.key ≠ k) → exec (.mctpAssemblyTimeout k) s = .next s))

/-- Management messages are answered. MCTP control, SPDM and device messages are answered in their order and with their contents: versions, capabilities, algorithms, signed challenge, measurements, stall views and acts, the snapshot, the attestation keys and commands. Message layouts are presumed from DSP0236 and DSP0274 (log 36); signatures are uninterpreted (log 4). -/
def Obligations.ManagementMessagesAreAnswered : Prop :=
  (∀ (s : State) (e : Dev), servedMgt s e → 1 ≤ cellRoom e H.mgt →
    (∀ x : Byte, exec (.setEndpointId x) s = .next (on s (if x = 0 ∨ x = 0xFF then emit e (.mgtReply [0, 0, 1, 2])
        else emit { e with mgt := { s.mgt with eid := x } } (.mgtReply [0, 0, 1, 0, 0, x, 0])))) ∧
    exec .getEndpointId s = .next (on s (emit e (.mgtReply [0, 0, 2, 0, s.mgt.eid, 0, 0]))) ∧
    exec .getMctpVersionSupport s = .next (on s (emit e (.mgtReply [0, 0, 4, 0, 1, 0xF1, 0xF3, 0xFF, 0]))) ∧
    exec .getMessageTypeSupport s = .next (on s (emit e (.mgtReply [0, 0, 5, 0, 2, 0x05, 0x7E]))) ∧
    (∃ a b : Byte, exec .getVendorDefinedSupport s = .next (on s (emit { e with rng := e.rng + 1 } (.mgtReply [0, 0, 6, 0, 0xFF, 0, 0x1D, 0x7C, a, b]))))) ∧
  (∀ (s : State) (e : Dev) (i : Instr) (b : Bytes), servedMgt s e → mgtOp i = some (.message false b) →
    (s.mgt.eid = 0 → exec i s = .next (on s e)) ∧
    (s.mgt.eid ≠ 0 → 4104 < b.length → exec i s = .next (on s { e with mgt := { s.mgt with cntMsg := satInc s.mgt.cntMsg } })) ∧
    (s.mgt.eid ≠ 0 → b.length ≤ 4104 → cellRoom e H.mgt < cellsFor b.length → exec i s = .next (on s (emit { e with mgt := { s.mgt with cntMsg := satInc s.mgt.cntMsg } }
      (.mgtReply (if byteAt b 0 = 0x05 then [0x05, 0x12, 0x7F, 0x03, 0] else devMsg (byteAt b 3) (byteAt b 4) (b2 ST.busy))))))) ∧
  (∀ (s : State) (e : Dev), servedMgt s e → s.mgt.eid ≠ 0 → 65 ≤ cellRoom e H.mgt →
    (∃ u : State, exec .getVersion s = .next u ∧ u.mgt.spdmStage = 1 ∧ u.out = .mgtReply [0x05, 0x10, 0x04, 0, 0, 0, 1, 0x00, 0x12] :: e.out ∧
      u.mgt.transcript = [0x10, 0x84, 0, 0] ++ [0x10, 0x04, 0, 0, 0, 1, 0x00, 0x12]) ∧
    (s.mgt.spdmStage = 0 → exec .getCapabilities s = .next (on s (emit e (.mgtReply [0x05, 0x12, 0x7F, 0x04, 0])))) ∧
    (1 ≤ s.mgt.spdmStage → ∃ u : State, ∃ r : Bytes, exec .getCapabilities s = .next u ∧ u.mgt.spdmStage = 2 ∧ u.out = .mgtReply r :: e.out ∧ r.length = 21 ∧
      slice r 9 4 = [0x14, 0x00, 0x01, 0x00] ∧ u.mgt.measTranscript = []) ∧
    (∀ a h m, (s.mgt.spdmStage < 2 → exec (.negotiateAlgorithms a h m) s = .next (on s (emit e (.mgtReply [0x05, 0x12, 0x7F, 0x04, 0])))) ∧
      (2 ≤ s.mgt.spdmStage → ∃ u : State, ∃ r : Bytes, exec (.negotiateAlgorithms a h m) s = .next u ∧ u.mgt.spdmStage = 3 ∧ u.out = .mgtReply r :: e.out ∧ byteAt r 2 = 0x63 ∧
        leAt r 9 4 = (if m then 4 else 0) ∧ leAt r 13 4 = (if a then 0x80 else 0) ∧ leAt r 17 4 = (if h then 2 else 0))) ∧
    (∀ (x : Byte) (n : Bytes), (s.mgt.spdmStage < 3 → exec (.challenge x n) s = .next (on s (emit e (.mgtReply [0x05, 0x12, 0x7F, 0x04, 0])))) ∧
      (3 ≤ s.mgt.spdmStage → x ≠ 0xFF → exec (.challenge x n) s = .next (on s (emit e (.mgtReply [0x05, 0x12, 0x7F, 0x01, 0])))) ∧
      (3 ≤ s.mgt.spdmStage → rootLoaded s.toDev = false ∨ s.lc.state = 0xEE → exec (.challenge 0xFF n) s = .next (on s (emit e (.mgtReply [0x05, 0x12, 0x7F, 0x05, 0])))) ∧
      (3 ≤ s.mgt.spdmStage → rootLoaded s.toDev = true → s.lc.state ≠ 0xEE → drbgReady s.toDev = true → ∃ u : State, ∃ nonce rnd head : Bytes, exec (.challenge 0xFF n) s = .next u ∧
        head = [0x05, 0x12, 0x03, 0x0F, 0] ++ Config.sha384 (attestPub e) ++ nonce ++ [0, 0] ∧ nonce = (draw e 32).1 ∧
        u.out = .mgtReply (head ++ Config.pkSign 0x21 96 3 0 false (attestScalar e) (spdmSigned "responder-challenge_auth signing" (s.mgt.transcript ++ ([0x12, 0x83, 0xFF, 0] ++ Config.fit 32 n) ++ head.drop 1)) rnd) :: e.out)) ∧
    (∀ (i : Byte) (g : Bool) (n : Bytes), (s.mgt.spdmStage < 3 → exec (.getMeasurements i g n) s = .next (on s (emit e (.mgtReply [0x05, 0x12, 0x7F, 0x04, 0])))) ∧
      (3 ≤ s.mgt.spdmStage → 4 < i.toNat → i ≠ 0xFF → exec (.getMeasurements i g n) s = .next (on s (emit e (.mgtReply [0x05, 0x12, 0x7F, 0x01, 0])))) ∧
      (3 ≤ s.mgt.spdmStage → i.toNat ≤ 4 ∨ i = 0xFF → rootLoaded s.toDev = false ∨ s.lc.state = 0xEE → exec (.getMeasurements i true n) s = .next (on s (emit e (.mgtReply [0x05, 0x12, 0x7F, 0x05, 0])))) ∧
      (3 ≤ s.mgt.spdmStage → i.toNat ≤ 4 ∨ i = 0xFF → g = false ∨ (rootLoaded s.toDev = true ∧ s.lc.state ≠ 0xEE ∧ drbgReady s.toDev = true) →
        ∀ sel : List Nat, sel = (if i = 0 then [] else if i = 0xFF then [1, 2, 3, 4] else [i.toNat]) → ∃ u : State, ∃ r : Bytes, exec (.getMeasurements i g n) s = .next u ∧ u.out = .mgtReply r :: e.out ∧
          r.take 6 = [0x05, 0x12, 0x60, if i = 0 then 4 else 0, if g then 0x0F else 0, BitVec.ofNat 8 sel.length] ∧ slice r 9 (sel.flatMap (measBlock e)).length = sel.flatMap (measBlock e))) ∧
    (∀ (t n : Byte) (g : Word), exec (.stallView t n g) s = .next (on s (emit e (.mgtReply (
      if n.toNat < 64 then devMsg 0x02 t (b2 ST.ok ++ ([if g ≠ 0 ∧ g ≠ (stall s.toDev n.toNat).gen then 1 else 0, n] ++ infoStall e n.toNat)) else devMsg 0x02 t (b2 ST.param)))))) ∧
    (∀ (t n o : Byte) (g : Word),
      (s.mgt.actEn = false → exec (.stallAct t n o g) s = .next (on s (emit e (.mgtReply (devMsg 0x03 t (b2 ST.denied)))))) ∧
      (s.mgt.actEn = true → 64 ≤ n.toNat ∨ (o ≠ 2 ∧ o ≠ 3) → exec (.stallAct t n o g) s = .next (on s (emit e (.mgtReply (devMsg 0x03 t (b2 ST.param)))))) ∧
      (s.mgt.actEn = true → n.toNat < 64 → o = 2 ∨ o = 3 → g ≠ (stall s.toDev n.toNat).gen → exec (.stallAct t n o g) s = .next (on s (emit e (.mgtReply (devMsg 0x03 t (b2 ST.genStale)))))) ∧
      (∀ r : Dev × Half, s.mgt.actEn = true → n.toNat < 64 → o = 2 ∨ o = 3 → g = (stall s.toDev n.toNat).gen → r = stallOp e n.toNat o.toNat .squash →
        exec (.stallAct t n o g) s = .next (on s (emit r.1 (.mgtReply (devMsg 0x03 t (b2 r.2))))))) ∧
    (∀ t : Byte, exec (.snapshot t) s = .next (on s (emit { e with mgt := { s.mgt with alert := 0 } } (.mgtReply (devMsg 0x04 t (b2 ST.ok ++
      (b4 (rPwrStatus e) ++ b4 (rLcState e) ++ b4 (rDbgStatus e) ++ b4 (rTmpStatus e) ++ b4 (rBwtStatus e) ++ b4 (rEvrStatus e) ++ b4 (rChnStatus e) ++ b4 (rXwdStatus e) ++ b4 (s.mgt.alert.setWidth 32)))))))) ∧
    (∀ t : Byte, exec (.attestKey t) s = .next (on s (emit e (.mgtReply (
      if rootLoaded s.toDev = true ∧ s.lc.state ≠ 0xEE then devMsg 0x05 t (b2 ST.ok ++ (attestPub e ++ attestMlPub e ++ Config.fit 48 e.key.fwMeas)) else devMsg 0x05 t (b2 ST.locked)))))) ∧
    (∀ (t : Byte) (q : Bytes), q.length ≤ 4096 →
      (s.lc.state = 0xEE → chOpcode q ∉ [0x0801, 0x0605, 0x0606] → ohFragMore q = false → exec (.command t q) s = .next (on s (endNew e .mgt q t ST.locked))) ∧
      (s.lc.state ≠ 0xEE → ∀ d, intake e .mgt q t = some d → exec (.command t q) s = .next (on s d))))
end

