-- ==== Sys2Proof/Laws/Tables.lean ====
section
/-! SUPPORT. Laws of the sparse tables and the byte stores: a read after a write, canonical form kept; and of the pools of the conservation ledger. -/

namespace Sys2Proof.Machine

/-! ### Tables -/

theorem tget_tset {α : Type} (t : Tab α) (k : Nat) (v : α) (j : Nat) : tget (tset t k v) j = if j = k then some v else tget t j := by
  induction t with
  | nil =>
    by_cases h : j = k
    · simp [tset, tget, h]
    · have h' : k ≠ j := fun e => h e.symm
      simp [tset, tget, h, h']
  | cons e t ih =>
    obtain ⟨i, w⟩ := e
    simp only [tset]
    split
    · by_cases h : j = k
      · simp [tget, h]
      · simp [tget, h, Ne.symm h]
    · split
      · rename_i _ h; subst h
        by_cases h : j = k
        · simp [tget, h]
        · simp [tget, h, Ne.symm h]
      · rename_i h1 h2
        simp only [tget, ih]
        by_cases h : i = j
        · subst h; simp [Ne.symm h2]
        · simp [h]

@[simp] theorem tget_tset_self {α : Type} (t : Tab α) (k : Nat) (v : α) : tget (tset t k v) k = some v := by simp [tget_tset]
theorem tget_tset_ne {α : Type} (t : Tab α) {k j : Nat} (v : α) (h : j ≠ k) : tget (tset t k v) j = tget t j := by simp [tget_tset, h]
@[simp] theorem tgetD_tset_self {α : Type} (t : Tab α) (k : Nat) (v d : α) : tgetD (tset t k v) k d = v := by simp [tgetD]
theorem tgetD_tset_ne {α : Type} (t : Tab α) {k j : Nat} (v d : α) (h : j ≠ k) : tgetD (tset t k v) j d = tgetD t j d := by
  simp [tgetD, tget_tset_ne t v h]

theorem tget_tdel_ne {α : Type} (t : Tab α) {k j : Nat} (h : j ≠ k) : tget (tdel t k) j = tget t j := by
  induction t with
  | nil => rfl
  | cons e t ih =>
    obtain ⟨i, w⟩ := e
    simp only [tdel]
    split
    · rename_i h'; subst h'; simp [tget, Ne.symm h]
    · simp only [tget, ih]

theorem risingFrom_mono {α : Type} {a b : Nat} (t : Tab α) (h : a ≤ b) (hb : risingFrom b t = true) : risingFrom a t = true := by
  cases t with
  | nil => rfl
  | cons e t => obtain ⟨i, w⟩ := e; simp [risingFrom] at hb ⊢; exact ⟨by omega, hb.2⟩

theorem risingFrom_tset {α : Type} (t : Tab α) (lo k : Nat) (v : α) (h : risingFrom lo t = true) (hk : lo ≤ k) : risingFrom lo (tset t k v) = true := by
  induction t generalizing lo with
  | nil => simp [tset, risingFrom, hk]
  | cons e t ih =>
    obtain ⟨i, w⟩ := e
    simp [risingFrom] at h
    simp only [tset]
    split
    · simp [risingFrom]; exact ⟨hk, by omega, h.2⟩
    · split
      · rename_i _ h2; subst h2; simp [risingFrom]; exact h
      · simp [risingFrom]; exact ⟨h.1, ih (i + 1) h.2 (by omega)⟩

theorem twf_tset {α : Type} (t : Tab α) (k : Nat) (v : α) (h : twf t = true) : twf (tset t k v) = true := risingFrom_tset t 0 k v h (by omega)

theorem risingFrom_tdel {α : Type} (t : Tab α) (lo k : Nat) (h : risingFrom lo t = true) : risingFrom lo (tdel t k) = true := by
  induction t generalizing lo with
  | nil => rfl
  | cons e t ih =>
    obtain ⟨i, w⟩ := e
    simp [risingFrom] at h
    simp only [tdel]
    split
    · exact risingFrom_mono t (by omega) h.2
    · simp [risingFrom]; exact ⟨h.1, ih _ h.2⟩

theorem twf_tdel {α : Type} (t : Tab α) (k : Nat) (h : twf t = true) : twf (tdel t k) = true := risingFrom_tdel t 0 k h

/-! ### Byte stores -/

theorem memFrom_mono {a b : Nat} (m : Mem) (h : a ≤ b) (hb : memFrom b m = true) : memFrom a m = true := by
  cases m with
  | nil => rfl
  | cons e m => obtain ⟨i, w⟩ := e; simp [memFrom] at hb ⊢; exact ⟨⟨by omega, hb.1.2⟩, hb.2⟩

theorem memRead_below (m : Mem) (k lo : Nat) (h : memFrom lo m = true) (hk : k < lo) : memRead m k = 0 := by
  induction m generalizing lo with
  | nil => rfl
  | cons e m ih =>
    obtain ⟨i, w⟩ := e
    simp [memFrom] at h
    have : i ≠ k := by omega
    simp [memRead, this]; exact ih _ h.2 (by omega)

theorem memRead_memWrite_ne (m : Mem) {k j : Nat} (v : Byte) (h : j ≠ k) : memRead (memWrite m k v) j = memRead m j := by
  induction m with
  | nil => simp only [memWrite]; split <;> simp [memRead, Ne.symm h]
  | cons e m ih =>
    obtain ⟨i, w⟩ := e
    simp only [memWrite]
    split
    · split <;> simp [memRead, Ne.symm h]
    · split
      · rename_i _ h2; subst h2; split <;> simp [memRead, Ne.symm h]
      · simp only [memRead, ih]

theorem memRead_memWrite_from (m : Mem) (lo k : Nat) (v : Byte) (hm : memFrom lo m = true) : memRead (memWrite m k v) k = v := by
  induction m generalizing lo with
  | nil => simp only [memWrite]; split <;> simp_all [memRead]
  | cons e m ih =>
    obtain ⟨i, w⟩ := e
    simp [memFrom] at hm
    simp only [memWrite]
    split
    · split
      · rename_i h1 h2
        subst h2
        have : i ≠ k := by omega
        simp [memRead, this]; exact memRead_below m k _ hm.2 (by omega)
      · simp [memRead]
    · split
      · rename_i h1 h2
        subst h2
        split
        · rename_i h3; subst h3; exact memRead_below m k _ hm.2 (by omega)
        · simp [memRead]
      · rename_i h1 h2
        have : i ≠ k := fun e => h2 e.symm
        simp [memRead, this]; exact ih _ hm.2

/-- A read after a write to the same byte gives what was written. -/
theorem memRead_memWrite_self (m : Mem) (k : Nat) (v : Byte) (hm : memWf m = true) : memRead (memWrite m k v) k = v :=
  memRead_memWrite_from m 0 k v hm

theorem memFrom_memWrite (m : Mem) (lo k : Nat) (v : Byte) (h : memFrom lo m = true) (hk : lo ≤ k) : memFrom lo (memWrite m k v) = true := by
  induction m generalizing lo with
  | nil => simp only [memWrite]; split <;> simp_all [memFrom]
  | cons e m ih =>
    obtain ⟨i, w⟩ := e
    have h' := h
    simp [memFrom] at h
    simp only [memWrite]
    split
    · split
      · exact h'
      · rename_i h1 h2; simp [memFrom]; exact ⟨⟨hk, h2⟩, ⟨by omega, h.1.2⟩, h.2⟩
    · split
      · rename_i h1 h2; subst h2
        split
        · exact memFrom_mono m (by omega) h.2
        · rename_i h3; simp [memFrom]; exact ⟨⟨hk, h3⟩, h.2⟩
      · simp [memFrom]; exact ⟨h.1, ih _ h.2 (by omega)⟩

theorem memWf_memWrite (m : Mem) (k : Nat) (v : Byte) (h : memWf m = true) : memWf (memWrite m k v) = true := memFrom_memWrite m 0 k v h (by omega)

theorem memWf_memWriteBytes (b : Bytes) (m : Mem) (k : Nat) (h : memWf m = true) : memWf (memWriteBytes m k b) = true := by
  induction b generalizing m k with
  | nil => exact h
  | cons x b ih => exact ih _ _ (memWf_memWrite m k x h)

/-- Bytes outside the written range read as before. -/
theorem memRead_memWriteBytes_out (b : Bytes) (m : Mem) (k j : Nat) (h : j < k ∨ k + b.length ≤ j) : memRead (memWriteBytes m k b) j = memRead m j := by
  induction b generalizing m k with
  | nil => rfl
  | cons x b ih =>
    simp only [List.length_cons] at h
    simp only [memWriteBytes]
    rw [ih _ _ (by omega), memRead_memWrite_ne m x (by omega)]

theorem memFrom_filter (m : Mem) (lo : Nat) (p : Nat × Byte → Bool) (h : memFrom lo m = true) : memFrom lo (m.filter p) = true := by
  induction m generalizing lo with
  | nil => rfl
  | cons e m ih =>
    obtain ⟨i, w⟩ := e
    simp [memFrom] at h
    by_cases hp : p (i, w) = true
    · simp [hp, memFrom]; exact ⟨h.1, ih _ h.2⟩
    · simp [hp]; exact memFrom_mono _ (by omega) (ih _ h.2)

theorem memWf_memClear (m : Mem) (lo len : Nat) (h : memWf m = true) : memWf (memClear m lo len) = true := memFrom_filter m 0 _ h

/-! ### Pools -/

theorem tgetD_below (t : Tab Nat) (lo k : Nat) (h : risingFrom lo t = true) (hk : k < lo) : tgetD t k 0 = 0 := by
  induction t generalizing lo with
  | nil => rfl
  | cons e t ih =>
    obtain ⟨i, w⟩ := e
    simp [risingFrom] at h
    have : i ≠ k := by omega
    have := ih (i + 1) h.2 (by omega)
    simp_all [tgetD, tget]

theorem heldSum_tset_from (t : Tab Nat) (lo k v : Nat) (h : risingFrom lo t = true) : heldSum (tset t k v) + tgetD t k 0 = heldSum t + v := by
  induction t generalizing lo with
  | nil => simp [tset, heldSum, tgetD, tget]
  | cons e t ih =>
    obtain ⟨i, w⟩ := e
    simp [risingFrom] at h
    simp only [tset]
    split
    · have := tgetD_below t (i + 1) k h.2 (by omega)
      have h3 : i ≠ k := by omega
      simp_all [heldSum, tgetD, tget]; omega
    · split
      · rename_i _ h2; subst h2; simp [heldSum, tgetD, tget]; omega
      · rename_i h1 h2
        have := ih (i + 1) h.2
        have h3 : i ≠ k := fun e => h2 e.symm
        simp_all [heldSum, tgetD, tget]; omega

theorem heldSum_tset (t : Tab Nat) (k v : Nat) (h : twf t = true) : heldSum (tset t k v) + tgetD t k 0 = heldSum t + v := heldSum_tset_from t 0 k v h

open Sys2Proof.Safety

theorem balanced_iff (p : Pool) : p.balanced = true ↔ p.issued - p.retired = BitVec.ofNat 64 (heldSum p.held) := by
  simp [Pool.balanced]

theorem ofNat_sub64 (a b : Nat) (h : b ≤ a) : BitVec.ofNat 64 (a - b) = BitVec.ofNat 64 a - BitVec.ofNat 64 b := by
  apply eq_sub_of_add_eq64
  rw [← BitVec.ofNat_add]
  congr 1
  omega
where
  eq_sub_of_add_eq64 {x y z : BitVec 64} (h : x + y = z) : x = z - y := by
    subst h; simp [BitVec.add_sub_cancel]

theorem poolOk_empty : poolOk {} := by constructor <;> rfl

/-- 01 R14, R15: an issue keeps ISSUED less RETIRED equal to what is held. -/
theorem poolOk_issue (p : Pool) (h n : Nat) (hp : poolOk p) : poolOk (p.issue h n) := by
  obtain ⟨hw, hb⟩ := hp
  refine ⟨twf_tset _ _ _ hw, ?_⟩
  rw [balanced_iff] at hb ⊢
  have hs := heldSum_tset p.held h (tgetD p.held h 0 + n) hw
  have : heldSum (tset p.held h (tgetD p.held h 0 + n)) = heldSum p.held + n := by omega
  simp only [Pool.issue, this, BitVec.ofNat_add, ← hb]
  bv_omega

theorem poolOk_retire (p : Pool) (h n : Nat) (hp : poolOk p) : poolOk (p.retire h n) := by
  obtain ⟨hw, hb⟩ := hp
  refine ⟨twf_tset _ _ _ hw, ?_⟩
  rw [balanced_iff] at hb ⊢
  have hs := heldSum_tset p.held h (tgetD p.held h 0 - min n (tgetD p.held h 0)) hw
  have e : heldSum p.held = heldSum (tset p.held h (tgetD p.held h 0 - min n (tgetD p.held h 0))) + min n (tgetD p.held h 0) := by omega
  rw [e, BitVec.ofNat_add] at hb
  simp only [Pool.retire]
  generalize BitVec.ofNat 64 (heldSum (tset p.held h (tgetD p.held h 0 - min n (tgetD p.held h 0)))) = a at *
  generalize BitVec.ofNat 64 (min n (tgetD p.held h 0)) = b at *
  bv_omega

theorem poolOk_move (p : Pool) (h h' n : Nat) (hp : poolOk p) : poolOk (p.move h h' n) := by
  obtain ⟨hw, hb⟩ := hp
  have hw' := twf_tset p.held h (tgetD p.held h 0 - min n (tgetD p.held h 0)) hw
  refine ⟨twf_tset _ _ _ hw', ?_⟩
  rw [balanced_iff] at hb ⊢
  have hs := heldSum_tset p.held h (tgetD p.held h 0 - min n (tgetD p.held h 0)) hw
  have hs' := heldSum_tset _ h' (tgetD (tset p.held h (tgetD p.held h 0 - min n (tgetD p.held h 0))) h' 0 + min n (tgetD p.held h 0)) hw'
  have e : heldSum (p.move h h' n).held = heldSum p.held := by simp only [Pool.move]; omega
  rw [e]; exact hb

theorem poolOk_retireAll (p : Pool) (hp : poolOk p) : poolOk p.retireAll := by
  obtain ⟨_, hb⟩ := hp
  refine ⟨rfl, ?_⟩
  rw [balanced_iff] at hb ⊢
  simp only [Pool.retireAll, ← hb]
  have : heldSum [] = 0 := rfl
  rw [this]
  bv_omega

end Sys2Proof.Machine
end

