-- ==== Sys2Proof/Laws/Commands.lean ====
section
/-! SUPPORT. What the shared operations of the command processors do: taking a request, the order of checks (13 R236), the claim of result cells, and how a command without an engine ends. -/

namespace Sys2Proof.Machine

/-! ### Taking a request -/

/-- In RUN a processor takes the request at once. -/
theorem command_run {d : Dev} (h : d.glb.power = .run) (op : Nat) (r : Request) (run : Dev → Cmd → Dev) (failed : Nat) :
    command d op r run failed = run (takeReq d op r).1 (takeReq d op r).2 := by
  simp only [command, h]
/-- In DOZE and STANDBY the request wakes the device and waits for the wake (03 R42, 05 R85). -/
theorem command_asleep {d : Dev} (h : d.glb.power = .doze ∨ d.glb.power = .standby) (op : Nat) (r : Request) (run : Dev → Cmd → Dev) (failed : Nat) :
    command d op r run failed = holdAccess d (.request op r failed) := by
  rcases h with h | h <;> simp only [command, h]
theorem exec_onDev (f : Dev → Dev) (s : State) : onDev f s = .next { s with toDev := f s.toDev } := rfl

@[simp] theorem took_rid (d : Dev) (op : Nat) (r : Request) : (takeReq d op r).2.rid = d.nextRid := rfl
@[simp] theorem took_issuer (d : Dev) (op : Nat) (r : Request) : (takeReq d op r).2.issuer = r.issuer := rfl
@[simp] theorem took_opcode (d : Dev) (op : Nat) (r : Request) : (takeReq d op r).2.opcode = op := rfl
@[simp] theorem took_key (d : Dev) (op : Nat) (r : Request) : (takeReq d op r).2.key = r.key := rfl
@[simp] theorem took_owner (d : Dev) (op : Nat) (r : Request) : (takeReq d op r).2.owner = r.ownerId := rfl
@[simp] theorem took_params (d : Dev) (op : Nat) (r : Request) : (takeReq d op r).2.params = r.params := rfl
@[simp] theorem took_dataCap (d : Dev) (op : Nat) (r : Request) : (takeReq d op r).2.dataCap = r.dataCap := rfl
@[simp] theorem took_sealed (d : Dev) (op : Nat) (r : Request) : (takeReq d op r).2.sealed = false := rfl
@[simp] theorem took_keyMask (d : Dev) (op : Nat) (r : Request) : (takeReq d op r).2.keyMask = r.keyMask := rfl
@[simp] theorem took_pols (d : Dev) (op : Nat) (r : Request) : (takeReq d op r).2.pols = [] := rfl
@[simp] theorem took_lc (d : Dev) (op : Nat) (r : Request) : (takeReq d op r).1.lc = d.lc := rfl
@[simp] theorem took_keyUnit (d : Dev) (op : Nat) (r : Request) : (takeReq d op r).1.key = d.key := rfl
@[simp] theorem took_tmp (d : Dev) (op : Nat) (r : Request) : (takeReq d op r).1.tmp = d.tmp := rfl
@[simp] theorem took_evr (d : Dev) (op : Nat) (r : Request) : (takeReq d op r).1.evr = d.evr := rfl
@[simp] theorem took_sym (d : Dev) (op : Nat) (r : Request) : (takeReq d op r).1.sym = d.sym := rfl
@[simp] theorem took_crd (d : Dev) (op : Nat) (r : Request) : (takeReq d op r).1.crd = d.crd := rfl
@[simp] theorem took_rng (d : Dev) (op : Nat) (r : Request) : (takeReq d op r).1.rng = d.rng := rfl
@[simp] theorem took_comps (d : Dev) (op : Nat) (r : Request) : (takeReq d op r).1.comps = d.comps := rfl
theorem took_req (d : Dev) (op : Nat) (r : Request) :
    tget (takeReq d op r).1.reqs d.nextRid = some { issuer := r.issuer, sqIndex := r.sqIndex, stage := .dispatched, rawTag := r.tag, dataCap := r.dataCap } := by
  simp [takeReq, tget_tset_self]

/-! ### The order of checks -/

@[simp] theorem firstFail_nil : firstFail [] = none := rfl
@[simp] theorem firstFail_cons_false (st : Half) (l : List (Bool × Half)) : firstFail ((false, st) :: l) = firstFail l := rfl
@[simp] theorem firstFail_cons_true (st : Half) (l : List (Bool × Half)) : firstFail ((true, st) :: l) = some st := rfl

theorem firstFail_append (a b : List (Bool × Half)) :
    firstFail (a ++ b) = match firstFail a with | some st => some st | none => firstFail b := by
  induction a with
  | nil => rfl
  | cons x l ih =>
    obtain ⟨bad, st⟩ := x
    cases bad
    · simpa using ih
    · rfl

theorem firstFail_append_none {a b : List (Bool × Half)} (ha : firstFail a = none) (hb : firstFail b = none) : firstFail (a ++ b) = none := by
  rw [firstFail_append, ha]; exact hb

/-- A list of checks passes when none of its conditions is bad. -/
theorem firstFail_none {l : List (Bool × Half)} (h : ∀ x ∈ l, x.1 = false) : firstFail l = none := by
  induction l with
  | nil => rfl
  | cons x l ih =>
    obtain ⟨bad, st⟩ := x
    have hb : bad = false := h (bad, st) (by simp)
    subst hb
    exact ih fun y hy => h y (by simp [hy])

/-- 13 R236, steps 1 to 5 pass: no policy bars the class, the issuer and the state are listed, the parameters parse and have valid values, and the result fits. -/
theorem preChecks_pass {d : Dev} {c : Cmd} {who : Who} {stateOk : Bool} {parsed : Option Half} {values : Bool} {res : Nat}
    (hp : c.pols = []) (hw : listed who c.issuer = true) (hs : stateOk = true) (ht : d.key.tableBad = false ∨ tableBarred c = false)
    (hparse : parsed = none) (hv : values = true) (hc : c.sealed = false) (hr : res ≤ c.dataCap) :
    firstFail (preChecks d c who stateOk parsed values res) = none := by
  apply firstFail_none
  intro x hx
  simp only [preChecks, List.mem_cons, List.not_mem_nil, or_false] at hx
  rcases hx with rfl | rfl | rfl | rfl | rfl | rfl | rfl
  · simp [policyBad, hp]
  · simp [hw]
  · simp [hs]
  · rcases ht with h | h
    · simp [h]
    · simp [h]
  · simp [hparse]
  · simp [hv]
  · simp [hc]; omega

/-! ### Result cells -/

theorem claimResult_zero (d : Dev) (c : Cmd) : claimResult d c 0 = some d := rfl

/-- Claiming cells changes the Yard, the ledger, the draw counter and nothing else. -/
theorem claimCells_frame {d d' : Dev} {i : Issuer} {n : Nat} {l : List Nat} (h : claimCells d i n = some (d', l)) :
    ∃ y g k, d' = { d with yrd := y, ldg := g, rng := k } := by
  simp only [claimCells] at h
  split at h
  · cases h
  · simp only [Option.map_eq_some_iff] at h
    obtain ⟨r, -, h⟩ := h
    simp only [Prod.mk.injEq] at h
    exact ⟨_, _, _, h.1.symm⟩

/-- Claiming result cells changes the Yard, the ledger, the draw counter, the list of requests and nothing else. -/
theorem claimResult_frame {d d' : Dev} {c : Cmd} {n : Nat} (h : claimResult d c n = some d') :
    ∃ y g k q, d' = { d with yrd := y, ldg := g, rng := k, reqs := q } := by
  simp only [claimResult] at h
  split at h
  · cases h; exact ⟨_, _, _, _, rfl⟩
  · simp only [Option.map_eq_some_iff] at h
    obtain ⟨r, hc, h⟩ := h
    obtain ⟨y, g, k, e⟩ := claimCells_frame (l := r.2) (d' := r.1) hc
    split at h
    · subst h; rw [e]; exact ⟨_, _, _, _, rfl⟩
    · subst h; rw [e]; exact ⟨_, _, _, _, rfl⟩

theorem claimResult_keyUnit {d d' : Dev} {c : Cmd} {n : Nat} (h : claimResult d c n = some d') : d'.key = d.key := by
  obtain ⟨y, g, k, q, rfl⟩ := claimResult_frame h; rfl

/-! ### Commands without an engine -/

/-- A command whose checks pass, that needs no quorum, finds its resources and claims its cells ends as its body says. -/
theorem runAtomic_pass {d d' : Dev} {c : Cmd} {checks : List (Bool × Half)} {resources : Dev → List (Bool × Half)} {res : Nat} {body : Dev → Dev × Half × Bytes}
    (hc : firstFail checks = none) (hm : maskBad c = false) (hr : firstFail (resources d) = none) (hcl : claimResult d c res = some d') :
    runAtomic d c checks none resources res body = finish (body d').1 c.rid (body d').2.1 (body d').2.2 := by
  simp only [runAtomic, hc, hr, hcl, hm, Bool.false_eq_true, if_false]

/-- The same where the owner's quorum is met and this command consumes it (08 R147). -/
theorem runAtomic_quorum {d d' d'' : Dev} {c : Cmd} {checks : List (Bool × Half)} {o : Nat} {resources : Dev → List (Bool × Half)} {res : Nat}
    {body : Dev → Dev × Half × Bytes}
    (hc : firstFail checks = none) (hm : maskBad c = false) (hq : quorumGate d c o = (d', none)) (hr : firstFail (resources d') = none) (hcl : claimResult d' c res = some d'') :
    runAtomic d c checks (some o) resources res body = finish (body d'').1 c.rid (body d'').2.1 (body d'').2.2 := by
  simp only [runAtomic, hc, hq, hr, hcl, hm, Bool.false_eq_true, if_false]

/-- The first check that fails gives the status, and nothing else of the command happens. -/
theorem runAtomic_fail {d : Dev} {c : Cmd} {checks : List (Bool × Half)} {quorum : Option Nat} {resources : Dev → List (Bool × Half)} {res : Nat}
    {body : Dev → Dev × Half × Bytes} {st : Half} (hc : firstFail checks = some st) :
    runAtomic d c checks quorum resources res body = finish d c.rid st := by
  simp only [runAtomic, hc]

theorem runRead_pass {d d' : Dev} {c : Cmd} {checks : List (Bool × Half)} {res : Nat} {result : Dev → Bytes}
    (hc : firstFail checks = none) (hm : maskBad c = false) (hcl : claimResult d c res = some d') :
    runRead d c checks res result = finish d' c.rid ST.ok (result d') :=
  runAtomic_pass hc hm rfl hcl

end Sys2Proof.Machine
end

