-- ==== Sys2Proof/Laws/Picks.lean ====
section
/-! SUPPORT. The free choices (log 8): a search from any start finds a free place where there is one, and finds none that is taken. So commands that need a slot, a cell, a lane or a tag complete wherever one is free, whichever it is. -/

namespace Sys2Proof.Machine

theorem scan_none {p : Nat → Bool} {n : Nat} : ∀ (f k : Nat), scan p n f k = none → ∀ j, j < f → p ((k + j) % n) = false := by
  intro f
  induction f with
  | zero => intro k _ j hj; omega
  | succ f ih =>
    intro k h j hj
    simp only [scan] at h
    split at h
    · cases h
    · rename_i hp
      rcases j with _ | j
      · simpa using hp
      · have := ih (k + 1) h j (by omega)
        rwa [show k + (j + 1) = k + 1 + j by omega]

/-- A search over `n` places that any one of them satisfies ends at one. -/
theorem scan_isSome {p : Nat → Bool} {n i : Nat} (hi : i < n) (hp : p i = true) (k : Nat) : (scan p n n k).isSome = true := by
  cases h : scan p n n k with
  | some _ => rfl
  | none =>
    have hn := scan_none n k h ((i + n - k % n) % n) (Nat.mod_lt _ (by omega))
    have hk : k % n < n := Nat.mod_lt _ (by omega)
    have e : (k + (i + n - k % n) % n) % n = i := by
      rw [Nat.add_mod, Nat.mod_mod, ← Nat.add_mod, ← Nat.div_add_mod k n]
      rw [show n * (k / n) + k % n + (i + n - (n * (k / n) + k % n) % n) = n * (k / n) + n + i by
        rw [Nat.mul_add_mod, Nat.mod_mod]; omega]
      rw [show n * (k / n) + n + i = i + n * (k / n + 1) by rw [Nat.mul_add]; omega, Nat.add_mul_mod_self_left, Nat.mod_eq_of_lt hi]
    rw [e, hp] at hn; cases hn

/-- What a search finds is in range and satisfies it. -/
theorem scan_some {p : Nat → Bool} {n : Nat} (hn : 0 < n) : ∀ (f k i : Nat), scan p n f k = some i → i < n ∧ p i = true := by
  intro f
  induction f with
  | zero => intro k i h; cases h
  | succ f ih =>
    intro k i h
    simp only [scan] at h
    split at h
    · rename_i hp; cases h; exact ⟨Nat.mod_lt _ hn, hp⟩
    · exact ih _ _ h

/-- A list shorter than `n` misses one of the first `n` numbers. -/
theorem exists_missing : ∀ (n : Nat) (l : List Nat), l.length < n → ∃ i, i < n ∧ i ∉ l := by
  intro n
  induction n with
  | zero => intro l h; omega
  | succ n ih =>
    intro l h
    by_cases hn : n ∈ l
    · have hlt : (l.filter (· != n)).length < l.length := by
        apply List.length_filter_lt_length_iff_exists.mpr
        exact ⟨n, hn, by simp⟩
      obtain ⟨i, hi, hm⟩ := ih (l.filter (· != n)) (by omega)
      exact ⟨i, by omega, fun hil => hm (List.mem_filter.mpr ⟨hil, by simp; omega⟩)⟩
    · exact ⟨n, by omega, hn⟩

theorem tget_none {α : Type} {t : Tab α} {k : Nat} (h : k ∉ t.map (·.1)) : tget t k = none := by
  induction t with
  | nil => rfl
  | cons e t ih =>
    obtain ⟨i, w⟩ := e
    simp only [List.map_cons, List.mem_cons, not_or] at h
    simp [tget, Ne.symm h.1, ih h.2]

theorem length_tset {α : Type} (t : Tab α) (k : Nat) (v : α) : (tset t k v).length ≤ t.length + 1 := by
  induction t with
  | nil => simp [tset]
  | cons e t ih =>
    obtain ⟨i, w⟩ := e
    simp only [tset]
    split
    · simp
    · split <;> simp <;> omega

/-- 07: while fewer than 4096 slots are taken a free one is found. -/
theorem pickSlot_isSome {d : Dev} (h : d.key.slots.length < 4096) : (pickSlot d).isSome = true := by
  obtain ⟨i, hi, hm⟩ := exists_missing 4096 (d.key.slots.map (·.1)) (by simpa using h)
  exact scan_isSome hi (by simp [tget_none hm]) _
/-- 07: the same for the 64 places of the always-on key bank. -/
theorem pickBank_isSome {d : Dev} (h : d.key.bank.length < 64) : (pickBank d).isSome = true := by
  obtain ⟨i, hi, hm⟩ := exists_missing 64 (d.key.bank.map (·.1)) (by simpa using h)
  exact scan_isSome hi (by simp [tget_none hm]) _
/-- 17: with every lane free and in service one is found. -/
theorem pickLane_isSome {d : Dev} (hash : Bool) (h : laneUsable d 0 = true ∧ laneUsable d 8 = true) : (pickLane d hash).isSome = true := by
  cases hash
  · simpa [pickLane, pickLaneOf] using scan_isSome (p := laneUsable d) (n := 8) (i := 0) (by omega) h.1 (Config.freePick d.rng)
  · simp only [pickLane, pickLaneOf]
    have := scan_isSome (p := fun i => laneUsable d (8 + i)) (n := 4) (i := 0) (by omega) h.2 (Config.freePick d.rng)
    simpa using this

/-- 15: while enough of the free list is left, cells are found. -/
theorem pickCells_isSome (tag : Nat) : ∀ (n : Nat) (y : Yrd) (r : Nat), y.tags.length + y.zeroing.length + n ≤ recoveryBase → (pickCells y r tag n).isSome = true := by
  intro n
  induction n with
  | zero => intro y r _; rfl
  | succ n ih =>
    intro y r h
    obtain ⟨i, hi, hm⟩ := exists_missing recoveryBase (y.tags.map (·.1) ++ y.zeroing) (by simp; omega)
    simp only [List.mem_append, not_or] at hm
    have hs := scan_isSome (p := cellFree y) hi (by simp [cellFree, tget_none hm.1, hm.2]) (Config.freePick r)
    simp only [pickCells]
    cases hc : scan (cellFree y) recoveryBase recoveryBase (Config.freePick r) with
    | none => rw [hc] at hs; cases hs
    | some c =>
      have hl := length_tset y.tags c tag
      simpa using ih { y with tags := tset y.tags c tag } (r + 1) (by simp; omega)

/-- 15 R281: an issuer whose allotment has room gets its cells. -/
theorem claimCells_isSome {d : Dev} {i : Issuer} {n : Nat} (hr : n ≤ cellRoom d (holderOf i)) (h : d.yrd.tags.length + d.yrd.zeroing.length + n ≤ recoveryBase) :
    ∃ e l, claimCells d i n = some (e, l) := by
  have hp := pickCells_isSome (tagOf i) n d.yrd d.rng h
  simp only [claimCells, Nat.not_lt.mpr hr, if_false]
  cases hc : pickCells d.yrd d.rng (tagOf i) n with
  | none => rw [hc] at hp; cases hp
  | some r => exact ⟨_, _, rfl⟩

/-- 23 R409: while one of the 256 tags is free a read gets one. -/
theorem dmaIssue_isSome {d : Dev} (f : Func) (u : DmaUse) (a n : Nat) (h : d.hif.tags.length < 256) : ∃ e, dmaIssue d f u a n = some e := by
  obtain ⟨i, hi, hm⟩ := exists_missing 256 (d.hif.tags.map (·.1)) (by simpa using h)
  have hs := scan_isSome (p := tagFree d) hi (by simp [tagFree, tget_none hm]) (Config.freePick d.rng)
  simp only [dmaIssue]
  cases hc : scan (tagFree d) 256 256 (Config.freePick d.rng) with
  | none => rw [hc] at hs; cases hs
  | some t => exact ⟨_, rfl⟩

end Sys2Proof.Machine
end

