-- ==== Sys2Proof/Laws/State.lean ====
section
/-! SUPPORT. What each named update of the device leaves alone, field by field, and what it writes: so that no proof unfolds a record update. A conjunction tagged simp is one rewrite rule for each field. -/

namespace Sys2Proof.Machine

@[simp] theorem emit_frame (d : Dev) (o : Out) :
    (emit d o).now = d.now ∧ (emit d o).glb = d.glb ∧ (emit d o).ldg = d.ldg ∧ (emit d o).otp = d.otp ∧ (emit d o).lc = d.lc ∧ (emit d o).dbg = d.dbg ∧ (emit d o).sec = d.sec ∧ (emit d o).sram =
    d.sram ∧ (emit d o).psUser = d.psUser ∧ (emit d o).hif = d.hif ∧ (emit d o).stl = d.stl ∧ (emit d o).yrd = d.yrd ∧ (emit d o).reqs = d.reqs ∧ (emit d o).comps = d.comps ∧ (emit d o).nextRid
    = d.nextRid ∧ (emit d o).cls = d.cls ∧ (emit d o).key = d.key ∧ (emit d o).ps = d.ps ∧ (emit d o).pke = d.pke ∧ (emit d o).pkeWait = d.pkeWait ∧ (emit d o).pkeWindow = d.pkeWindow ∧ (emit d
    o).sym = d.sym ∧ (emit d o).rng = d.rng ∧ (emit d o).crd = d.crd ∧ (emit d o).tmp = d.tmp ∧ (emit d o).bwt = d.bwt ∧ (emit d o).evr = d.evr ∧ (emit d o).chn = d.chn ∧ (emit d o).tmr = d.tmr
    ∧ (emit d o).pinEdges = d.pinEdges ∧ (emit d o).mgt = d.mgt := by
  unfold emit; exact ⟨rfl, rfl, rfl, rfl, rfl, rfl, rfl, rfl, rfl, rfl, rfl, rfl, rfl, rfl, rfl, rfl, rfl, rfl, rfl, rfl, rfl, rfl, rfl, rfl, rfl, rfl, rfl, rfl, rfl, rfl, rfl⟩
@[simp] theorem emit_writes (d : Dev) (o : Out) : (emit d o).out = o :: d.out := by unfold emit; rfl
@[simp] theorem setCfg_frame (d : Dev) (f : Func) (c : FuncCfg) :
    (setCfg d f c).now = d.now ∧ (setCfg d f c).glb = d.glb ∧ (setCfg d f c).ldg = d.ldg ∧ (setCfg d f c).otp = d.otp ∧ (setCfg d f c).lc = d.lc ∧ (setCfg d f c).dbg = d.dbg ∧ (setCfg d f c).sec
    = d.sec ∧ (setCfg d f c).sram = d.sram ∧ (setCfg d f c).psUser = d.psUser ∧ (setCfg d f c).stl = d.stl ∧ (setCfg d f c).yrd = d.yrd ∧ (setCfg d f c).reqs = d.reqs ∧ (setCfg d f c).comps =
    d.comps ∧ (setCfg d f c).nextRid = d.nextRid ∧ (setCfg d f c).cls = d.cls ∧ (setCfg d f c).key = d.key ∧ (setCfg d f c).ps = d.ps ∧ (setCfg d f c).pke = d.pke ∧ (setCfg d f c).pkeWait =
    d.pkeWait ∧ (setCfg d f c).pkeWindow = d.pkeWindow ∧ (setCfg d f c).sym = d.sym ∧ (setCfg d f c).rng = d.rng ∧ (setCfg d f c).crd = d.crd ∧ (setCfg d f c).tmp = d.tmp ∧ (setCfg d f c).bwt =
    d.bwt ∧ (setCfg d f c).evr = d.evr ∧ (setCfg d f c).chn = d.chn ∧ (setCfg d f c).tmr = d.tmr ∧ (setCfg d f c).pinEdges = d.pinEdges ∧ (setCfg d f c).mgt = d.mgt ∧ (setCfg d f c).out = d.out := by
  unfold setCfg; exact ⟨rfl, rfl, rfl, rfl, rfl, rfl, rfl, rfl, rfl, rfl, rfl, rfl, rfl, rfl, rfl, rfl, rfl, rfl, rfl, rfl, rfl, rfl, rfl, rfl, rfl, rfl, rfl, rfl, rfl, rfl, rfl⟩
@[simp] theorem setCfg_writes (d : Dev) (f : Func) (c : FuncCfg) : (setCfg d f c).hif = { d.hif with cfg := tset d.hif.cfg (funcIdx f) c } := by unfold setCfg; rfl
@[simp] theorem onPool_frame (d : Dev) (p : Nat) (f : Pool → Pool) :
    (onPool d p f).now = d.now ∧ (onPool d p f).glb = d.glb ∧ (onPool d p f).otp = d.otp ∧ (onPool d p f).lc = d.lc ∧ (onPool d p f).dbg = d.dbg ∧ (onPool d p f).sec = d.sec ∧ (onPool d p
    f).sram = d.sram ∧ (onPool d p f).psUser = d.psUser ∧ (onPool d p f).hif = d.hif ∧ (onPool d p f).stl = d.stl ∧ (onPool d p f).yrd = d.yrd ∧ (onPool d p f).reqs = d.reqs ∧ (onPool d p
    f).comps = d.comps ∧ (onPool d p f).nextRid = d.nextRid ∧ (onPool d p f).cls = d.cls ∧ (onPool d p f).key = d.key ∧ (onPool d p f).ps = d.ps ∧ (onPool d p f).pke = d.pke ∧ (onPool d p
    f).pkeWait = d.pkeWait ∧ (onPool d p f).pkeWindow = d.pkeWindow ∧ (onPool d p f).sym = d.sym ∧ (onPool d p f).rng = d.rng ∧ (onPool d p f).crd = d.crd ∧ (onPool d p f).tmp = d.tmp ∧ (onPool
    d p f).bwt = d.bwt ∧ (onPool d p f).evr = d.evr ∧ (onPool d p f).chn = d.chn ∧ (onPool d p f).tmr = d.tmr ∧ (onPool d p f).pinEdges = d.pinEdges ∧ (onPool d p f).mgt = d.mgt ∧ (onPool d p
    f).out = d.out := by
  unfold onPool; exact ⟨rfl, rfl, rfl, rfl, rfl, rfl, rfl, rfl, rfl, rfl, rfl, rfl, rfl, rfl, rfl, rfl, rfl, rfl, rfl, rfl, rfl, rfl, rfl, rfl, rfl, rfl, rfl, rfl, rfl, rfl, rfl⟩
@[simp] theorem onPool_writes (d : Dev) (p : Nat) (f : Pool → Pool) : (onPool d p f).ldg = { d.ldg with pools := tset d.ldg.pools p (f (poolOf d p)) } := by unfold onPool; rfl
@[simp] theorem setStall_frame (d : Dev) (n : Nat) (x : Stall) :
    (setStall d n x).now = d.now ∧ (setStall d n x).glb = d.glb ∧ (setStall d n x).ldg = d.ldg ∧ (setStall d n x).otp = d.otp ∧ (setStall d n x).lc = d.lc ∧ (setStall d n x).dbg = d.dbg ∧
    (setStall d n x).sec = d.sec ∧ (setStall d n x).sram = d.sram ∧ (setStall d n x).psUser = d.psUser ∧ (setStall d n x).hif = d.hif ∧ (setStall d n x).yrd = d.yrd ∧ (setStall d n x).reqs =
    d.reqs ∧ (setStall d n x).comps = d.comps ∧ (setStall d n x).nextRid = d.nextRid ∧ (setStall d n x).cls = d.cls ∧ (setStall d n x).key = d.key ∧ (setStall d n x).ps = d.ps ∧ (setStall d n
    x).pke = d.pke ∧ (setStall d n x).pkeWait = d.pkeWait ∧ (setStall d n x).pkeWindow = d.pkeWindow ∧ (setStall d n x).sym = d.sym ∧ (setStall d n x).rng = d.rng ∧ (setStall d n x).crd = d.crd
    ∧ (setStall d n x).tmp = d.tmp ∧ (setStall d n x).bwt = d.bwt ∧ (setStall d n x).evr = d.evr ∧ (setStall d n x).chn = d.chn ∧ (setStall d n x).tmr = d.tmr ∧ (setStall d n x).pinEdges =
    d.pinEdges ∧ (setStall d n x).mgt = d.mgt ∧ (setStall d n x).out = d.out := by
  unfold setStall; exact ⟨rfl, rfl, rfl, rfl, rfl, rfl, rfl, rfl, rfl, rfl, rfl, rfl, rfl, rfl, rfl, rfl, rfl, rfl, rfl, rfl, rfl, rfl, rfl, rfl, rfl, rfl, rfl, rfl, rfl, rfl, rfl⟩
@[simp] theorem setStall_writes (d : Dev) (n : Nat) (x : Stall) : (setStall d n x).stl = { d.stl with stalls := tset d.stl.stalls n x } := by unfold setStall; rfl
@[simp] theorem writeHeader_frame (d : Dev) (n : Nat) :
    (writeHeader d n).now = d.now ∧ (writeHeader d n).glb = d.glb ∧ (writeHeader d n).ldg = d.ldg ∧ (writeHeader d n).otp = d.otp ∧ (writeHeader d n).lc = d.lc ∧ (writeHeader d n).dbg = d.dbg ∧
    (writeHeader d n).sec = d.sec ∧ (writeHeader d n).sram = d.sram ∧ (writeHeader d n).psUser = d.psUser ∧ (writeHeader d n).hif = d.hif ∧ (writeHeader d n).yrd = d.yrd ∧ (writeHeader d n).reqs
    = d.reqs ∧ (writeHeader d n).comps = d.comps ∧ (writeHeader d n).nextRid = d.nextRid ∧ (writeHeader d n).cls = d.cls ∧ (writeHeader d n).key = d.key ∧ (writeHeader d n).ps = d.ps ∧
    (writeHeader d n).pke = d.pke ∧ (writeHeader d n).pkeWait = d.pkeWait ∧ (writeHeader d n).pkeWindow = d.pkeWindow ∧ (writeHeader d n).sym = d.sym ∧ (writeHeader d n).rng = d.rng ∧
    (writeHeader d n).crd = d.crd ∧ (writeHeader d n).tmp = d.tmp ∧ (writeHeader d n).bwt = d.bwt ∧ (writeHeader d n).evr = d.evr ∧ (writeHeader d n).chn = d.chn ∧ (writeHeader d n).tmr = d.tmr
    ∧ (writeHeader d n).pinEdges = d.pinEdges ∧ (writeHeader d n).mgt = d.mgt ∧ (writeHeader d n).out = d.out := by
  unfold writeHeader; exact ⟨rfl, rfl, rfl, rfl, rfl, rfl, rfl, rfl, rfl, rfl, rfl, rfl, rfl, rfl, rfl, rfl, rfl, rfl, rfl, rfl, rfl, rfl, rfl, rfl, rfl, rfl, rfl, rfl, rfl, rfl, rfl⟩
@[simp] theorem writeHeader_writes (d : Dev) (n : Nat) : (writeHeader d n).stl.stalls = d.stl.stalls := by unfold writeHeader; rfl
@[simp] theorem raiseSecure_frame (d : Dev) (i : Nat) :
    (raiseSecure d i).now = d.now ∧ (raiseSecure d i).glb = d.glb ∧ (raiseSecure d i).ldg = d.ldg ∧ (raiseSecure d i).otp = d.otp ∧ (raiseSecure d i).lc = d.lc ∧ (raiseSecure d i).dbg = d.dbg ∧
    (raiseSecure d i).sram = d.sram ∧ (raiseSecure d i).psUser = d.psUser ∧ (raiseSecure d i).hif = d.hif ∧ (raiseSecure d i).stl = d.stl ∧ (raiseSecure d i).yrd = d.yrd ∧ (raiseSecure d i).reqs
    = d.reqs ∧ (raiseSecure d i).comps = d.comps ∧ (raiseSecure d i).nextRid = d.nextRid ∧ (raiseSecure d i).cls = d.cls ∧ (raiseSecure d i).key = d.key ∧ (raiseSecure d i).ps = d.ps ∧
    (raiseSecure d i).pke = d.pke ∧ (raiseSecure d i).pkeWait = d.pkeWait ∧ (raiseSecure d i).pkeWindow = d.pkeWindow ∧ (raiseSecure d i).sym = d.sym ∧ (raiseSecure d i).rng = d.rng ∧
    (raiseSecure d i).crd = d.crd ∧ (raiseSecure d i).tmp = d.tmp ∧ (raiseSecure d i).bwt = d.bwt ∧ (raiseSecure d i).evr = d.evr ∧ (raiseSecure d i).chn = d.chn ∧ (raiseSecure d i).tmr = d.tmr
    ∧ (raiseSecure d i).pinEdges = d.pinEdges ∧ (raiseSecure d i).mgt = d.mgt := by
  unfold raiseSecure emit; exact ⟨rfl, rfl, rfl, rfl, rfl, rfl, rfl, rfl, rfl, rfl, rfl, rfl, rfl, rfl, rfl, rfl, rfl, rfl, rfl, rfl, rfl, rfl, rfl, rfl, rfl, rfl, rfl, rfl, rfl, rfl⟩
@[simp] theorem raiseSecure_writes (d : Dev) (i : Nat) : (raiseSecure d i).sec = { d.sec with irqSecure := d.sec.irqSecure ||| 2 ^ i } := by unfold raiseSecure emit; rfl
@[simp] theorem raiseNormal_frame (d : Dev) (i : Nat) :
    (raiseNormal d i).now = d.now ∧ (raiseNormal d i).glb = d.glb ∧ (raiseNormal d i).ldg = d.ldg ∧ (raiseNormal d i).otp = d.otp ∧ (raiseNormal d i).lc = d.lc ∧ (raiseNormal d i).dbg = d.dbg ∧
    (raiseNormal d i).sram = d.sram ∧ (raiseNormal d i).psUser = d.psUser ∧ (raiseNormal d i).hif = d.hif ∧ (raiseNormal d i).stl = d.stl ∧ (raiseNormal d i).yrd = d.yrd ∧ (raiseNormal d i).reqs
    = d.reqs ∧ (raiseNormal d i).comps = d.comps ∧ (raiseNormal d i).nextRid = d.nextRid ∧ (raiseNormal d i).cls = d.cls ∧ (raiseNormal d i).key = d.key ∧ (raiseNormal d i).ps = d.ps ∧
    (raiseNormal d i).pke = d.pke ∧ (raiseNormal d i).pkeWait = d.pkeWait ∧ (raiseNormal d i).pkeWindow = d.pkeWindow ∧ (raiseNormal d i).sym = d.sym ∧ (raiseNormal d i).rng = d.rng ∧
    (raiseNormal d i).crd = d.crd ∧ (raiseNormal d i).tmp = d.tmp ∧ (raiseNormal d i).bwt = d.bwt ∧ (raiseNormal d i).evr = d.evr ∧ (raiseNormal d i).chn = d.chn ∧ (raiseNormal d i).tmr = d.tmr
    ∧ (raiseNormal d i).pinEdges = d.pinEdges ∧ (raiseNormal d i).mgt = d.mgt := by
  unfold raiseNormal emit; exact ⟨rfl, rfl, rfl, rfl, rfl, rfl, rfl, rfl, rfl, rfl, rfl, rfl, rfl, rfl, rfl, rfl, rfl, rfl, rfl, rfl, rfl, rfl, rfl, rfl, rfl, rfl, rfl, rfl, rfl, rfl⟩
@[simp] theorem raiseNormal_writes (d : Dev) (i : Nat) : (raiseNormal d i).sec = { d.sec with irqNormal := d.sec.irqNormal ||| 2 ^ i } := by unfold raiseNormal emit; rfl
@[simp] theorem closeD_frame (d : Dev) (b s : Nat) :
    (closeD d b s).now = d.now ∧ (closeD d b s).ldg = d.ldg ∧ (closeD d b s).otp = d.otp ∧ (closeD d b s).lc = d.lc ∧ (closeD d b s).dbg = d.dbg ∧ (closeD d b s).sec = d.sec ∧ (closeD d b
    s).sram = d.sram ∧ (closeD d b s).psUser = d.psUser ∧ (closeD d b s).hif = d.hif ∧ (closeD d b s).stl = d.stl ∧ (closeD d b s).yrd = d.yrd ∧ (closeD d b s).reqs = d.reqs ∧ (closeD d b
    s).comps = d.comps ∧ (closeD d b s).nextRid = d.nextRid ∧ (closeD d b s).cls = d.cls ∧ (closeD d b s).key = d.key ∧ (closeD d b s).ps = d.ps ∧ (closeD d b s).pke = d.pke ∧ (closeD d b
    s).pkeWait = d.pkeWait ∧ (closeD d b s).pkeWindow = d.pkeWindow ∧ (closeD d b s).sym = d.sym ∧ (closeD d b s).rng = d.rng ∧ (closeD d b s).crd = d.crd ∧ (closeD d b s).tmp = d.tmp ∧ (closeD
    d b s).bwt = d.bwt ∧ (closeD d b s).evr = d.evr ∧ (closeD d b s).chn = d.chn ∧ (closeD d b s).tmr = d.tmr ∧ (closeD d b s).pinEdges = d.pinEdges ∧ (closeD d b s).mgt = d.mgt ∧ (closeD d b
    s).out = d.out := by
  unfold closeD; exact ⟨rfl, rfl, rfl, rfl, rfl, rfl, rfl, rfl, rfl, rfl, rfl, rfl, rfl, rfl, rfl, rfl, rfl, rfl, rfl, rfl, rfl, rfl, rfl, rfl, rfl, rfl, rfl, rfl, rfl, rfl, rfl⟩
@[simp] theorem setReq_frame (d : Dev) (r : Nat) (q : Req) :
    (setReq d r q).now = d.now ∧ (setReq d r q).glb = d.glb ∧ (setReq d r q).ldg = d.ldg ∧ (setReq d r q).otp = d.otp ∧ (setReq d r q).lc = d.lc ∧ (setReq d r q).dbg = d.dbg ∧ (setReq d r q).sec
    = d.sec ∧ (setReq d r q).sram = d.sram ∧ (setReq d r q).psUser = d.psUser ∧ (setReq d r q).hif = d.hif ∧ (setReq d r q).stl = d.stl ∧ (setReq d r q).yrd = d.yrd ∧ (setReq d r q).comps =
    d.comps ∧ (setReq d r q).nextRid = d.nextRid ∧ (setReq d r q).cls = d.cls ∧ (setReq d r q).key = d.key ∧ (setReq d r q).ps = d.ps ∧ (setReq d r q).pke = d.pke ∧ (setReq d r q).pkeWait =
    d.pkeWait ∧ (setReq d r q).pkeWindow = d.pkeWindow ∧ (setReq d r q).sym = d.sym ∧ (setReq d r q).rng = d.rng ∧ (setReq d r q).crd = d.crd ∧ (setReq d r q).tmp = d.tmp ∧ (setReq d r q).bwt =
    d.bwt ∧ (setReq d r q).evr = d.evr ∧ (setReq d r q).chn = d.chn ∧ (setReq d r q).tmr = d.tmr ∧ (setReq d r q).pinEdges = d.pinEdges ∧ (setReq d r q).mgt = d.mgt ∧ (setReq d r q).out = d.out := by
  unfold setReq; exact ⟨rfl, rfl, rfl, rfl, rfl, rfl, rfl, rfl, rfl, rfl, rfl, rfl, rfl, rfl, rfl, rfl, rfl, rfl, rfl, rfl, rfl, rfl, rfl, rfl, rfl, rfl, rfl, rfl, rfl, rfl, rfl⟩
@[simp] theorem setReq_writes (d : Dev) (r : Nat) (q : Req) : (setReq d r q).reqs = tset d.reqs r q := by unfold setReq; rfl
@[simp] theorem delReq_frame (d : Dev) (r : Nat) :
    (delReq d r).now = d.now ∧ (delReq d r).glb = d.glb ∧ (delReq d r).ldg = d.ldg ∧ (delReq d r).otp = d.otp ∧ (delReq d r).lc = d.lc ∧ (delReq d r).dbg = d.dbg ∧ (delReq d r).sec = d.sec ∧
    (delReq d r).sram = d.sram ∧ (delReq d r).psUser = d.psUser ∧ (delReq d r).hif = d.hif ∧ (delReq d r).stl = d.stl ∧ (delReq d r).yrd = d.yrd ∧ (delReq d r).comps = d.comps ∧ (delReq d
    r).nextRid = d.nextRid ∧ (delReq d r).cls = d.cls ∧ (delReq d r).key = d.key ∧ (delReq d r).ps = d.ps ∧ (delReq d r).pke = d.pke ∧ (delReq d r).pkeWait = d.pkeWait ∧ (delReq d r).pkeWindow =
    d.pkeWindow ∧ (delReq d r).sym = d.sym ∧ (delReq d r).rng = d.rng ∧ (delReq d r).crd = d.crd ∧ (delReq d r).tmp = d.tmp ∧ (delReq d r).bwt = d.bwt ∧ (delReq d r).evr = d.evr ∧ (delReq d
    r).chn = d.chn ∧ (delReq d r).tmr = d.tmr ∧ (delReq d r).pinEdges = d.pinEdges ∧ (delReq d r).mgt = d.mgt ∧ (delReq d r).out = d.out := by
  unfold delReq; exact ⟨rfl, rfl, rfl, rfl, rfl, rfl, rfl, rfl, rfl, rfl, rfl, rfl, rfl, rfl, rfl, rfl, rfl, rfl, rfl, rfl, rfl, rfl, rfl, rfl, rfl, rfl, rfl, rfl, rfl, rfl, rfl⟩
@[simp] theorem delReq_writes (d : Dev) (r : Nat) : (delReq d r).reqs = tdel d.reqs r := by unfold delReq; rfl
@[simp] theorem setEng_frame (d : Dev) (e : Nat) (p : Pke) :
    (setEng d e p).now = d.now ∧ (setEng d e p).glb = d.glb ∧ (setEng d e p).ldg = d.ldg ∧ (setEng d e p).otp = d.otp ∧ (setEng d e p).lc = d.lc ∧ (setEng d e p).dbg = d.dbg ∧ (setEng d e p).sec
    = d.sec ∧ (setEng d e p).sram = d.sram ∧ (setEng d e p).psUser = d.psUser ∧ (setEng d e p).hif = d.hif ∧ (setEng d e p).stl = d.stl ∧ (setEng d e p).yrd = d.yrd ∧ (setEng d e p).reqs =
    d.reqs ∧ (setEng d e p).comps = d.comps ∧ (setEng d e p).nextRid = d.nextRid ∧ (setEng d e p).cls = d.cls ∧ (setEng d e p).key = d.key ∧ (setEng d e p).ps = d.ps ∧ (setEng d e p).pkeWait =
    d.pkeWait ∧ (setEng d e p).pkeWindow = d.pkeWindow ∧ (setEng d e p).sym = d.sym ∧ (setEng d e p).rng = d.rng ∧ (setEng d e p).crd = d.crd ∧ (setEng d e p).tmp = d.tmp ∧ (setEng d e p).bwt =
    d.bwt ∧ (setEng d e p).evr = d.evr ∧ (setEng d e p).chn = d.chn ∧ (setEng d e p).tmr = d.tmr ∧ (setEng d e p).pinEdges = d.pinEdges ∧ (setEng d e p).mgt = d.mgt ∧ (setEng d e p).out = d.out := by
  unfold setEng; exact ⟨rfl, rfl, rfl, rfl, rfl, rfl, rfl, rfl, rfl, rfl, rfl, rfl, rfl, rfl, rfl, rfl, rfl, rfl, rfl, rfl, rfl, rfl, rfl, rfl, rfl, rfl, rfl, rfl, rfl, rfl, rfl⟩
@[simp] theorem setEng_writes (d : Dev) (e : Nat) (p : Pke) : (setEng d e p).pke = tset d.pke e p := by unfold setEng; rfl
@[simp] theorem setChn_frame (d : Dev) (c : Chn) :
    (setChn d c).now = d.now ∧ (setChn d c).glb = d.glb ∧ (setChn d c).ldg = d.ldg ∧ (setChn d c).otp = d.otp ∧ (setChn d c).lc = d.lc ∧ (setChn d c).dbg = d.dbg ∧ (setChn d c).sec = d.sec ∧
    (setChn d c).sram = d.sram ∧ (setChn d c).psUser = d.psUser ∧ (setChn d c).hif = d.hif ∧ (setChn d c).stl = d.stl ∧ (setChn d c).yrd = d.yrd ∧ (setChn d c).reqs = d.reqs ∧ (setChn d c).comps
    = d.comps ∧ (setChn d c).nextRid = d.nextRid ∧ (setChn d c).cls = d.cls ∧ (setChn d c).key = d.key ∧ (setChn d c).ps = d.ps ∧ (setChn d c).pke = d.pke ∧ (setChn d c).pkeWait = d.pkeWait ∧
    (setChn d c).pkeWindow = d.pkeWindow ∧ (setChn d c).sym = d.sym ∧ (setChn d c).rng = d.rng ∧ (setChn d c).crd = d.crd ∧ (setChn d c).tmp = d.tmp ∧ (setChn d c).bwt = d.bwt ∧ (setChn d c).evr
    = d.evr ∧ (setChn d c).tmr = d.tmr ∧ (setChn d c).pinEdges = d.pinEdges ∧ (setChn d c).mgt = d.mgt ∧ (setChn d c).out = d.out := by
  unfold setChn; exact ⟨rfl, rfl, rfl, rfl, rfl, rfl, rfl, rfl, rfl, rfl, rfl, rfl, rfl, rfl, rfl, rfl, rfl, rfl, rfl, rfl, rfl, rfl, rfl, rfl, rfl, rfl, rfl, rfl, rfl, rfl, rfl⟩
@[simp] theorem setChn_writes (d : Dev) (c : Chn) : (setChn d c).chn = c := by unfold setChn; rfl
@[simp] theorem setCls_frame (d : Dev) (c : Cls) :
    (setCls d c).now = d.now ∧ (setCls d c).glb = d.glb ∧ (setCls d c).ldg = d.ldg ∧ (setCls d c).otp = d.otp ∧ (setCls d c).lc = d.lc ∧ (setCls d c).dbg = d.dbg ∧ (setCls d c).sec = d.sec ∧
    (setCls d c).sram = d.sram ∧ (setCls d c).psUser = d.psUser ∧ (setCls d c).hif = d.hif ∧ (setCls d c).stl = d.stl ∧ (setCls d c).yrd = d.yrd ∧ (setCls d c).reqs = d.reqs ∧ (setCls d c).comps
    = d.comps ∧ (setCls d c).nextRid = d.nextRid ∧ (setCls d c).key = d.key ∧ (setCls d c).ps = d.ps ∧ (setCls d c).pke = d.pke ∧ (setCls d c).pkeWait = d.pkeWait ∧ (setCls d c).pkeWindow =
    d.pkeWindow ∧ (setCls d c).sym = d.sym ∧ (setCls d c).rng = d.rng ∧ (setCls d c).crd = d.crd ∧ (setCls d c).tmp = d.tmp ∧ (setCls d c).bwt = d.bwt ∧ (setCls d c).evr = d.evr ∧ (setCls d
    c).chn = d.chn ∧ (setCls d c).tmr = d.tmr ∧ (setCls d c).pinEdges = d.pinEdges ∧ (setCls d c).mgt = d.mgt ∧ (setCls d c).out = d.out := by
  unfold setCls; exact ⟨rfl, rfl, rfl, rfl, rfl, rfl, rfl, rfl, rfl, rfl, rfl, rfl, rfl, rfl, rfl, rfl, rfl, rfl, rfl, rfl, rfl, rfl, rfl, rfl, rfl, rfl, rfl, rfl, rfl, rfl, rfl⟩
@[simp] theorem setCls_writes (d : Dev) (c : Cls) : (setCls d c).cls = c := by unfold setCls; rfl
@[simp] theorem setOwner_frame (d : Dev) (o : Nat) (w : Owner) :
    (setOwner d o w).now = d.now ∧ (setOwner d o w).glb = d.glb ∧ (setOwner d o w).ldg = d.ldg ∧ (setOwner d o w).otp = d.otp ∧ (setOwner d o w).lc = d.lc ∧ (setOwner d o w).dbg = d.dbg ∧
    (setOwner d o w).sec = d.sec ∧ (setOwner d o w).sram = d.sram ∧ (setOwner d o w).psUser = d.psUser ∧ (setOwner d o w).hif = d.hif ∧ (setOwner d o w).stl = d.stl ∧ (setOwner d o w).yrd =
    d.yrd ∧ (setOwner d o w).reqs = d.reqs ∧ (setOwner d o w).comps = d.comps ∧ (setOwner d o w).nextRid = d.nextRid ∧ (setOwner d o w).cls = d.cls ∧ (setOwner d o w).ps = d.ps ∧ (setOwner d o
    w).pke = d.pke ∧ (setOwner d o w).pkeWait = d.pkeWait ∧ (setOwner d o w).pkeWindow = d.pkeWindow ∧ (setOwner d o w).sym = d.sym ∧ (setOwner d o w).rng = d.rng ∧ (setOwner d o w).crd = d.crd
    ∧ (setOwner d o w).tmp = d.tmp ∧ (setOwner d o w).bwt = d.bwt ∧ (setOwner d o w).evr = d.evr ∧ (setOwner d o w).chn = d.chn ∧ (setOwner d o w).tmr = d.tmr ∧ (setOwner d o w).pinEdges =
    d.pinEdges ∧ (setOwner d o w).mgt = d.mgt ∧ (setOwner d o w).out = d.out := by
  unfold setOwner; exact ⟨rfl, rfl, rfl, rfl, rfl, rfl, rfl, rfl, rfl, rfl, rfl, rfl, rfl, rfl, rfl, rfl, rfl, rfl, rfl, rfl, rfl, rfl, rfl, rfl, rfl, rfl, rfl, rfl, rfl, rfl, rfl⟩
@[simp] theorem setOwner_writes (d : Dev) (o : Nat) (w : Owner) : (setOwner d o w).key = { d.key with owners := tset d.key.owners o w } := by unfold setOwner; rfl
@[simp] theorem setRegion_frame (d : Dev) (i : Nat) (r : RegionSt) :
    (setRegion d i r).now = d.now ∧ (setRegion d i r).glb = d.glb ∧ (setRegion d i r).ldg = d.ldg ∧ (setRegion d i r).otp = d.otp ∧ (setRegion d i r).lc = d.lc ∧ (setRegion d i r).dbg = d.dbg ∧
    (setRegion d i r).sec = d.sec ∧ (setRegion d i r).sram = d.sram ∧ (setRegion d i r).psUser = d.psUser ∧ (setRegion d i r).hif = d.hif ∧ (setRegion d i r).stl = d.stl ∧ (setRegion d i r).yrd
    = d.yrd ∧ (setRegion d i r).reqs = d.reqs ∧ (setRegion d i r).comps = d.comps ∧ (setRegion d i r).nextRid = d.nextRid ∧ (setRegion d i r).cls = d.cls ∧ (setRegion d i r).key = d.key ∧
    (setRegion d i r).ps = d.ps ∧ (setRegion d i r).pke = d.pke ∧ (setRegion d i r).pkeWait = d.pkeWait ∧ (setRegion d i r).pkeWindow = d.pkeWindow ∧ (setRegion d i r).sym = d.sym ∧ (setRegion d
    i r).rng = d.rng ∧ (setRegion d i r).crd = d.crd ∧ (setRegion d i r).tmp = d.tmp ∧ (setRegion d i r).evr = d.evr ∧ (setRegion d i r).chn = d.chn ∧ (setRegion d i r).tmr = d.tmr ∧ (setRegion
    d i r).pinEdges = d.pinEdges ∧ (setRegion d i r).mgt = d.mgt ∧ (setRegion d i r).out = d.out := by
  unfold setRegion; exact ⟨rfl, rfl, rfl, rfl, rfl, rfl, rfl, rfl, rfl, rfl, rfl, rfl, rfl, rfl, rfl, rfl, rfl, rfl, rfl, rfl, rfl, rfl, rfl, rfl, rfl, rfl, rfl, rfl, rfl, rfl, rfl⟩
@[simp] theorem setRegion_writes (d : Dev) (i : Nat) (r : RegionSt) : (setRegion d i r).bwt = { d.bwt with regions := tset d.bwt.regions i r } := by unfold setRegion; rfl
@[simp] theorem setJournal_frame (d : Dev) (j : Journal) :
    (setJournal d j).now = d.now ∧ (setJournal d j).glb = d.glb ∧ (setJournal d j).ldg = d.ldg ∧ (setJournal d j).otp = d.otp ∧ (setJournal d j).lc = d.lc ∧ (setJournal d j).dbg = d.dbg ∧
    (setJournal d j).sec = d.sec ∧ (setJournal d j).sram = d.sram ∧ (setJournal d j).psUser = d.psUser ∧ (setJournal d j).hif = d.hif ∧ (setJournal d j).stl = d.stl ∧ (setJournal d j).yrd =
    d.yrd ∧ (setJournal d j).reqs = d.reqs ∧ (setJournal d j).comps = d.comps ∧ (setJournal d j).nextRid = d.nextRid ∧ (setJournal d j).cls = d.cls ∧ (setJournal d j).key = d.key ∧ (setJournal d
    j).ps = d.ps ∧ (setJournal d j).pke = d.pke ∧ (setJournal d j).pkeWait = d.pkeWait ∧ (setJournal d j).pkeWindow = d.pkeWindow ∧ (setJournal d j).sym = d.sym ∧ (setJournal d j).rng = d.rng ∧
    (setJournal d j).crd = d.crd ∧ (setJournal d j).tmp = d.tmp ∧ (setJournal d j).evr = d.evr ∧ (setJournal d j).chn = d.chn ∧ (setJournal d j).tmr = d.tmr ∧ (setJournal d j).pinEdges =
    d.pinEdges ∧ (setJournal d j).mgt = d.mgt ∧ (setJournal d j).out = d.out := by
  unfold setJournal; exact ⟨rfl, rfl, rfl, rfl, rfl, rfl, rfl, rfl, rfl, rfl, rfl, rfl, rfl, rfl, rfl, rfl, rfl, rfl, rfl, rfl, rfl, rfl, rfl, rfl, rfl, rfl, rfl, rfl, rfl, rfl, rfl⟩
@[simp] theorem setJournal_writes (d : Dev) (j : Journal) : (setJournal d j).bwt = { d.bwt with journal := j } := by unfold setJournal; rfl
@[simp] theorem setLanes_frame (d : Dev) (t : Tab LaneJob) :
    (setLanes d t).now = d.now ∧ (setLanes d t).glb = d.glb ∧ (setLanes d t).ldg = d.ldg ∧ (setLanes d t).otp = d.otp ∧ (setLanes d t).lc = d.lc ∧ (setLanes d t).dbg = d.dbg ∧ (setLanes d t).sec
    = d.sec ∧ (setLanes d t).sram = d.sram ∧ (setLanes d t).psUser = d.psUser ∧ (setLanes d t).hif = d.hif ∧ (setLanes d t).stl = d.stl ∧ (setLanes d t).yrd = d.yrd ∧ (setLanes d t).reqs =
    d.reqs ∧ (setLanes d t).comps = d.comps ∧ (setLanes d t).nextRid = d.nextRid ∧ (setLanes d t).cls = d.cls ∧ (setLanes d t).key = d.key ∧ (setLanes d t).ps = d.ps ∧ (setLanes d t).pke = d.pke
    ∧ (setLanes d t).pkeWait = d.pkeWait ∧ (setLanes d t).pkeWindow = d.pkeWindow ∧ (setLanes d t).rng = d.rng ∧ (setLanes d t).crd = d.crd ∧ (setLanes d t).tmp = d.tmp ∧ (setLanes d t).bwt =
    d.bwt ∧ (setLanes d t).evr = d.evr ∧ (setLanes d t).chn = d.chn ∧ (setLanes d t).tmr = d.tmr ∧ (setLanes d t).pinEdges = d.pinEdges ∧ (setLanes d t).mgt = d.mgt ∧ (setLanes d t).out = d.out := by
  unfold setLanes; exact ⟨rfl, rfl, rfl, rfl, rfl, rfl, rfl, rfl, rfl, rfl, rfl, rfl, rfl, rfl, rfl, rfl, rfl, rfl, rfl, rfl, rfl, rfl, rfl, rfl, rfl, rfl, rfl, rfl, rfl, rfl, rfl⟩
@[simp] theorem setLanes_writes (d : Dev) (t : Tab LaneJob) : (setLanes d t).sym = { d.sym with lanes := t } := by unfold setLanes; rfl
@[simp] theorem setInstr_frame (d : Dev) (i : TapInstr) :
    (setInstr d i).now = d.now ∧ (setInstr d i).glb = d.glb ∧ (setInstr d i).ldg = d.ldg ∧ (setInstr d i).otp = d.otp ∧ (setInstr d i).lc = d.lc ∧ (setInstr d i).sec = d.sec ∧ (setInstr d
    i).sram = d.sram ∧ (setInstr d i).psUser = d.psUser ∧ (setInstr d i).hif = d.hif ∧ (setInstr d i).stl = d.stl ∧ (setInstr d i).yrd = d.yrd ∧ (setInstr d i).reqs = d.reqs ∧ (setInstr d
    i).comps = d.comps ∧ (setInstr d i).nextRid = d.nextRid ∧ (setInstr d i).cls = d.cls ∧ (setInstr d i).key = d.key ∧ (setInstr d i).ps = d.ps ∧ (setInstr d i).pke = d.pke ∧ (setInstr d
    i).pkeWait = d.pkeWait ∧ (setInstr d i).pkeWindow = d.pkeWindow ∧ (setInstr d i).sym = d.sym ∧ (setInstr d i).rng = d.rng ∧ (setInstr d i).crd = d.crd ∧ (setInstr d i).tmp = d.tmp ∧
    (setInstr d i).bwt = d.bwt ∧ (setInstr d i).evr = d.evr ∧ (setInstr d i).chn = d.chn ∧ (setInstr d i).tmr = d.tmr ∧ (setInstr d i).pinEdges = d.pinEdges ∧ (setInstr d i).mgt = d.mgt ∧
    (setInstr d i).out = d.out := by
  unfold setInstr; exact ⟨rfl, rfl, rfl, rfl, rfl, rfl, rfl, rfl, rfl, rfl, rfl, rfl, rfl, rfl, rfl, rfl, rfl, rfl, rfl, rfl, rfl, rfl, rfl, rfl, rfl, rfl, rfl, rfl, rfl, rfl, rfl⟩
@[simp] theorem setInstr_writes (d : Dev) (i : TapInstr) : (setInstr d i).dbg = { d.dbg with tapInstr := i } := by unfold setInstr; rfl
@[simp] theorem setTmr_frame (d : Dev) (t : Nat) (x : Timer) :
    (setTmr d t x).now = d.now ∧ (setTmr d t x).glb = d.glb ∧ (setTmr d t x).ldg = d.ldg ∧ (setTmr d t x).otp = d.otp ∧ (setTmr d t x).lc = d.lc ∧ (setTmr d t x).dbg = d.dbg ∧ (setTmr d t x).sec
    = d.sec ∧ (setTmr d t x).sram = d.sram ∧ (setTmr d t x).psUser = d.psUser ∧ (setTmr d t x).hif = d.hif ∧ (setTmr d t x).stl = d.stl ∧ (setTmr d t x).yrd = d.yrd ∧ (setTmr d t x).reqs =
    d.reqs ∧ (setTmr d t x).comps = d.comps ∧ (setTmr d t x).nextRid = d.nextRid ∧ (setTmr d t x).cls = d.cls ∧ (setTmr d t x).key = d.key ∧ (setTmr d t x).ps = d.ps ∧ (setTmr d t x).pke = d.pke
    ∧ (setTmr d t x).pkeWait = d.pkeWait ∧ (setTmr d t x).pkeWindow = d.pkeWindow ∧ (setTmr d t x).sym = d.sym ∧ (setTmr d t x).rng = d.rng ∧ (setTmr d t x).crd = d.crd ∧ (setTmr d t x).tmp =
    d.tmp ∧ (setTmr d t x).bwt = d.bwt ∧ (setTmr d t x).evr = d.evr ∧ (setTmr d t x).chn = d.chn ∧ (setTmr d t x).pinEdges = d.pinEdges ∧ (setTmr d t x).mgt = d.mgt ∧ (setTmr d t x).out = d.out := by
  unfold setTmr; exact ⟨rfl, rfl, rfl, rfl, rfl, rfl, rfl, rfl, rfl, rfl, rfl, rfl, rfl, rfl, rfl, rfl, rfl, rfl, rfl, rfl, rfl, rfl, rfl, rfl, rfl, rfl, rfl, rfl, rfl, rfl, rfl⟩
@[simp] theorem setTmr_writes (d : Dev) (t : Nat) (x : Timer) : (setTmr d t x).tmr = tset d.tmr t x := by unfold setTmr; rfl
@[simp] theorem setMgt_frame (d : Dev) (m : Mgt) :
    (setMgt d m).now = d.now ∧ (setMgt d m).glb = d.glb ∧ (setMgt d m).ldg = d.ldg ∧ (setMgt d m).otp = d.otp ∧ (setMgt d m).lc = d.lc ∧ (setMgt d m).dbg = d.dbg ∧ (setMgt d m).sec = d.sec ∧
    (setMgt d m).sram = d.sram ∧ (setMgt d m).psUser = d.psUser ∧ (setMgt d m).hif = d.hif ∧ (setMgt d m).stl = d.stl ∧ (setMgt d m).yrd = d.yrd ∧ (setMgt d m).reqs = d.reqs ∧ (setMgt d m).comps
    = d.comps ∧ (setMgt d m).nextRid = d.nextRid ∧ (setMgt d m).cls = d.cls ∧ (setMgt d m).key = d.key ∧ (setMgt d m).ps = d.ps ∧ (setMgt d m).pke = d.pke ∧ (setMgt d m).pkeWait = d.pkeWait ∧
    (setMgt d m).pkeWindow = d.pkeWindow ∧ (setMgt d m).sym = d.sym ∧ (setMgt d m).rng = d.rng ∧ (setMgt d m).crd = d.crd ∧ (setMgt d m).tmp = d.tmp ∧ (setMgt d m).bwt = d.bwt ∧ (setMgt d m).evr
    = d.evr ∧ (setMgt d m).chn = d.chn ∧ (setMgt d m).tmr = d.tmr ∧ (setMgt d m).pinEdges = d.pinEdges ∧ (setMgt d m).out = d.out := by
  unfold setMgt; exact ⟨rfl, rfl, rfl, rfl, rfl, rfl, rfl, rfl, rfl, rfl, rfl, rfl, rfl, rfl, rfl, rfl, rfl, rfl, rfl, rfl, rfl, rfl, rfl, rfl, rfl, rfl, rfl, rfl, rfl, rfl, rfl⟩
@[simp] theorem setMgt_writes (d : Dev) (m : Mgt) : (setMgt d m).mgt = m := by unfold setMgt; rfl
@[simp] theorem setQueue_frame (d : Dev) (n : Nat) (q : YQueue) :
    (setQueue d n q).now = d.now ∧ (setQueue d n q).glb = d.glb ∧ (setQueue d n q).ldg = d.ldg ∧ (setQueue d n q).otp = d.otp ∧ (setQueue d n q).lc = d.lc ∧ (setQueue d n q).dbg = d.dbg ∧
    (setQueue d n q).sec = d.sec ∧ (setQueue d n q).sram = d.sram ∧ (setQueue d n q).psUser = d.psUser ∧ (setQueue d n q).hif = d.hif ∧ (setQueue d n q).stl = d.stl ∧ (setQueue d n q).reqs =
    d.reqs ∧ (setQueue d n q).comps = d.comps ∧ (setQueue d n q).nextRid = d.nextRid ∧ (setQueue d n q).cls = d.cls ∧ (setQueue d n q).key = d.key ∧ (setQueue d n q).ps = d.ps ∧ (setQueue d n
    q).pke = d.pke ∧ (setQueue d n q).pkeWait = d.pkeWait ∧ (setQueue d n q).pkeWindow = d.pkeWindow ∧ (setQueue d n q).sym = d.sym ∧ (setQueue d n q).rng = d.rng ∧ (setQueue d n q).crd = d.crd
    ∧ (setQueue d n q).tmp = d.tmp ∧ (setQueue d n q).bwt = d.bwt ∧ (setQueue d n q).evr = d.evr ∧ (setQueue d n q).chn = d.chn ∧ (setQueue d n q).tmr = d.tmr ∧ (setQueue d n q).pinEdges =
    d.pinEdges ∧ (setQueue d n q).mgt = d.mgt ∧ (setQueue d n q).out = d.out := by
  unfold setQueue; exact ⟨rfl, rfl, rfl, rfl, rfl, rfl, rfl, rfl, rfl, rfl, rfl, rfl, rfl, rfl, rfl, rfl, rfl, rfl, rfl, rfl, rfl, rfl, rfl, rfl, rfl, rfl, rfl, rfl, rfl, rfl, rfl⟩
@[simp] theorem setQueue_writes (d : Dev) (n : Nat) (q : YQueue) : (setQueue d n q).yrd = { d.yrd with queues := tset d.yrd.queues n q } := by unfold setQueue; rfl
@[simp] theorem setMesh_frame (d : Dev) (n : Nat) (x : MeshSeen) :
    (setMesh d n x).now = d.now ∧ (setMesh d n x).glb = d.glb ∧ (setMesh d n x).ldg = d.ldg ∧ (setMesh d n x).otp = d.otp ∧ (setMesh d n x).lc = d.lc ∧ (setMesh d n x).dbg = d.dbg ∧ (setMesh d n
    x).sec = d.sec ∧ (setMesh d n x).sram = d.sram ∧ (setMesh d n x).psUser = d.psUser ∧ (setMesh d n x).hif = d.hif ∧ (setMesh d n x).stl = d.stl ∧ (setMesh d n x).yrd = d.yrd ∧ (setMesh d n
    x).reqs = d.reqs ∧ (setMesh d n x).comps = d.comps ∧ (setMesh d n x).nextRid = d.nextRid ∧ (setMesh d n x).cls = d.cls ∧ (setMesh d n x).key = d.key ∧ (setMesh d n x).ps = d.ps ∧ (setMesh d
    n x).pke = d.pke ∧ (setMesh d n x).pkeWait = d.pkeWait ∧ (setMesh d n x).pkeWindow = d.pkeWindow ∧ (setMesh d n x).sym = d.sym ∧ (setMesh d n x).rng = d.rng ∧ (setMesh d n x).crd = d.crd ∧
    (setMesh d n x).bwt = d.bwt ∧ (setMesh d n x).evr = d.evr ∧ (setMesh d n x).chn = d.chn ∧ (setMesh d n x).tmr = d.tmr ∧ (setMesh d n x).pinEdges = d.pinEdges ∧ (setMesh d n x).mgt = d.mgt ∧
    (setMesh d n x).out = d.out := by
  unfold setMesh; exact ⟨rfl, rfl, rfl, rfl, rfl, rfl, rfl, rfl, rfl, rfl, rfl, rfl, rfl, rfl, rfl, rfl, rfl, rfl, rfl, rfl, rfl, rfl, rfl, rfl, rfl, rfl, rfl, rfl, rfl, rfl, rfl⟩
@[simp] theorem setLid_frame (d : Dev) (n : Nat) :
    (setLid d n).now = d.now ∧ (setLid d n).glb = d.glb ∧ (setLid d n).ldg = d.ldg ∧ (setLid d n).otp = d.otp ∧ (setLid d n).lc = d.lc ∧ (setLid d n).dbg = d.dbg ∧ (setLid d n).sec = d.sec ∧
    (setLid d n).sram = d.sram ∧ (setLid d n).psUser = d.psUser ∧ (setLid d n).hif = d.hif ∧ (setLid d n).stl = d.stl ∧ (setLid d n).yrd = d.yrd ∧ (setLid d n).reqs = d.reqs ∧ (setLid d n).comps
    = d.comps ∧ (setLid d n).nextRid = d.nextRid ∧ (setLid d n).cls = d.cls ∧ (setLid d n).key = d.key ∧ (setLid d n).ps = d.ps ∧ (setLid d n).pke = d.pke ∧ (setLid d n).pkeWait = d.pkeWait ∧
    (setLid d n).pkeWindow = d.pkeWindow ∧ (setLid d n).sym = d.sym ∧ (setLid d n).rng = d.rng ∧ (setLid d n).crd = d.crd ∧ (setLid d n).bwt = d.bwt ∧ (setLid d n).evr = d.evr ∧ (setLid d n).chn
    = d.chn ∧ (setLid d n).tmr = d.tmr ∧ (setLid d n).pinEdges = d.pinEdges ∧ (setLid d n).mgt = d.mgt ∧ (setLid d n).out = d.out := by
  unfold setLid; exact ⟨rfl, rfl, rfl, rfl, rfl, rfl, rfl, rfl, rfl, rfl, rfl, rfl, rfl, rfl, rfl, rfl, rfl, rfl, rfl, rfl, rfl, rfl, rfl, rfl, rfl, rfl, rfl, rfl, rfl, rfl, rfl⟩
@[simp] theorem setMon_frame (d : Dev) (m : Monitor) :
    (setMon d m).now = d.now ∧ (setMon d m).glb = d.glb ∧ (setMon d m).ldg = d.ldg ∧ (setMon d m).otp = d.otp ∧ (setMon d m).lc = d.lc ∧ (setMon d m).dbg = d.dbg ∧ (setMon d m).sec = d.sec ∧
    (setMon d m).sram = d.sram ∧ (setMon d m).psUser = d.psUser ∧ (setMon d m).hif = d.hif ∧ (setMon d m).stl = d.stl ∧ (setMon d m).yrd = d.yrd ∧ (setMon d m).reqs = d.reqs ∧ (setMon d m).comps
    = d.comps ∧ (setMon d m).nextRid = d.nextRid ∧ (setMon d m).cls = d.cls ∧ (setMon d m).key = d.key ∧ (setMon d m).ps = d.ps ∧ (setMon d m).pke = d.pke ∧ (setMon d m).pkeWait = d.pkeWait ∧
    (setMon d m).pkeWindow = d.pkeWindow ∧ (setMon d m).sym = d.sym ∧ (setMon d m).rng = d.rng ∧ (setMon d m).crd = d.crd ∧ (setMon d m).bwt = d.bwt ∧ (setMon d m).evr = d.evr ∧ (setMon d m).chn
    = d.chn ∧ (setMon d m).tmr = d.tmr ∧ (setMon d m).pinEdges = d.pinEdges ∧ (setMon d m).mgt = d.mgt ∧ (setMon d m).out = d.out := by
  unfold setMon; exact ⟨rfl, rfl, rfl, rfl, rfl, rfl, rfl, rfl, rfl, rfl, rfl, rfl, rfl, rfl, rfl, rfl, rfl, rfl, rfl, rfl, rfl, rfl, rfl, rfl, rfl, rfl, rfl, rfl, rfl, rfl, rfl⟩
@[simp] theorem setHandover_frame (d : Dev) (p : Nat) (t g : Bool) (r : Nat) :
    (setHandover d p t g r).now = d.now ∧ (setHandover d p t g r).glb = d.glb ∧ (setHandover d p t g r).ldg = d.ldg ∧ (setHandover d p t g r).otp = d.otp ∧ (setHandover d p t g r).lc = d.lc ∧
    (setHandover d p t g r).dbg = d.dbg ∧ (setHandover d p t g r).sram = d.sram ∧ (setHandover d p t g r).psUser = d.psUser ∧ (setHandover d p t g r).hif = d.hif ∧ (setHandover d p t g r).stl =
    d.stl ∧ (setHandover d p t g r).yrd = d.yrd ∧ (setHandover d p t g r).reqs = d.reqs ∧ (setHandover d p t g r).comps = d.comps ∧ (setHandover d p t g r).nextRid = d.nextRid ∧ (setHandover d p
    t g r).cls = d.cls ∧ (setHandover d p t g r).key = d.key ∧ (setHandover d p t g r).ps = d.ps ∧ (setHandover d p t g r).pke = d.pke ∧ (setHandover d p t g r).pkeWait = d.pkeWait ∧
    (setHandover d p t g r).pkeWindow = d.pkeWindow ∧ (setHandover d p t g r).sym = d.sym ∧ (setHandover d p t g r).rng = d.rng ∧ (setHandover d p t g r).crd = d.crd ∧ (setHandover d p t g
    r).tmp = d.tmp ∧ (setHandover d p t g r).bwt = d.bwt ∧ (setHandover d p t g r).evr = d.evr ∧ (setHandover d p t g r).chn = d.chn ∧ (setHandover d p t g r).tmr = d.tmr ∧ (setHandover d p t g
    r).pinEdges = d.pinEdges ∧ (setHandover d p t g r).mgt = d.mgt ∧ (setHandover d p t g r).out = d.out := by
  unfold setHandover; exact ⟨rfl, rfl, rfl, rfl, rfl, rfl, rfl, rfl, rfl, rfl, rfl, rfl, rfl, rfl, rfl, rfl, rfl, rfl, rfl, rfl, rfl, rfl, rfl, rfl, rfl, rfl, rfl, rfl, rfl, rfl, rfl⟩
@[simp] theorem draw_frame (d : Dev) (n : Nat) :
    ((draw d n).2).now = d.now ∧ ((draw d n).2).glb = d.glb ∧ ((draw d n).2).ldg = d.ldg ∧ ((draw d n).2).otp = d.otp ∧ ((draw d n).2).lc = d.lc ∧ ((draw d n).2).dbg = d.dbg ∧ ((draw d n).2).sec
    = d.sec ∧ ((draw d n).2).sram = d.sram ∧ ((draw d n).2).psUser = d.psUser ∧ ((draw d n).2).hif = d.hif ∧ ((draw d n).2).stl = d.stl ∧ ((draw d n).2).yrd = d.yrd ∧ ((draw d n).2).reqs =
    d.reqs ∧ ((draw d n).2).comps = d.comps ∧ ((draw d n).2).nextRid = d.nextRid ∧ ((draw d n).2).cls = d.cls ∧ ((draw d n).2).key = d.key ∧ ((draw d n).2).ps = d.ps ∧ ((draw d n).2).pke = d.pke
    ∧ ((draw d n).2).pkeWait = d.pkeWait ∧ ((draw d n).2).pkeWindow = d.pkeWindow ∧ ((draw d n).2).crd = d.crd ∧ ((draw d n).2).tmp = d.tmp ∧ ((draw d n).2).bwt = d.bwt ∧ ((draw d n).2).evr =
    d.evr ∧ ((draw d n).2).chn = d.chn ∧ ((draw d n).2).tmr = d.tmr ∧ ((draw d n).2).pinEdges = d.pinEdges ∧ ((draw d n).2).mgt = d.mgt ∧ ((draw d n).2).out = d.out := by
  unfold draw; exact ⟨rfl, rfl, rfl, rfl, rfl, rfl, rfl, rfl, rfl, rfl, rfl, rfl, rfl, rfl, rfl, rfl, rfl, rfl, rfl, rfl, rfl, rfl, rfl, rfl, rfl, rfl, rfl, rfl, rfl, rfl⟩
@[simp] theorem draw_writes (d : Dev) (n : Nat) : (draw d n).2.rng = d.rng + 1 := by unfold draw; rfl
@[simp] theorem takeSample_frame (d : Dev)  :
    (takeSample d).now = d.now ∧ (takeSample d).glb = d.glb ∧ (takeSample d).otp = d.otp ∧ (takeSample d).lc = d.lc ∧ (takeSample d).dbg = d.dbg ∧ (takeSample d).sec = d.sec ∧ (takeSample
    d).sram = d.sram ∧ (takeSample d).psUser = d.psUser ∧ (takeSample d).hif = d.hif ∧ (takeSample d).stl = d.stl ∧ (takeSample d).yrd = d.yrd ∧ (takeSample d).reqs = d.reqs ∧ (takeSample
    d).comps = d.comps ∧ (takeSample d).nextRid = d.nextRid ∧ (takeSample d).cls = d.cls ∧ (takeSample d).key = d.key ∧ (takeSample d).ps = d.ps ∧ (takeSample d).pke = d.pke ∧ (takeSample
    d).pkeWait = d.pkeWait ∧ (takeSample d).pkeWindow = d.pkeWindow ∧ (takeSample d).sym = d.sym ∧ (takeSample d).rng = d.rng ∧ (takeSample d).crd = d.crd ∧ (takeSample d).tmp = d.tmp ∧
    (takeSample d).bwt = d.bwt ∧ (takeSample d).evr = d.evr ∧ (takeSample d).chn = d.chn ∧ (takeSample d).tmr = d.tmr ∧ (takeSample d).pinEdges = d.pinEdges ∧ (takeSample d).mgt = d.mgt ∧
    (takeSample d).out = d.out := by
  unfold takeSample; exact ⟨rfl, rfl, rfl, rfl, rfl, rfl, rfl, rfl, rfl, rfl, rfl, rfl, rfl, rfl, rfl, rfl, rfl, rfl, rfl, rfl, rfl, rfl, rfl, rfl, rfl, rfl, rfl, rfl, rfl, rfl, rfl⟩
@[simp] theorem takeSample_writes (d : Dev)  : (takeSample d).ldg.pools = d.ldg.pools := by unfold takeSample; rfl
@[simp] theorem setRing_frame (d : Dev) (r : RingId) (x : Ring) :
    (setRing d r x).now = d.now ∧ (setRing d r x).glb = d.glb ∧ (setRing d r x).ldg = d.ldg ∧ (setRing d r x).otp = d.otp ∧ (setRing d r x).lc = d.lc ∧ (setRing d r x).dbg = d.dbg ∧ (setRing d r
    x).sec = d.sec ∧ (setRing d r x).sram = d.sram ∧ (setRing d r x).psUser = d.psUser ∧ (setRing d r x).hif = d.hif ∧ (setRing d r x).yrd = d.yrd ∧ (setRing d r x).reqs = d.reqs ∧ (setRing d r
    x).comps = d.comps ∧ (setRing d r x).nextRid = d.nextRid ∧ (setRing d r x).cls = d.cls ∧ (setRing d r x).key = d.key ∧ (setRing d r x).ps = d.ps ∧ (setRing d r x).pke = d.pke ∧ (setRing d r
    x).pkeWait = d.pkeWait ∧ (setRing d r x).pkeWindow = d.pkeWindow ∧ (setRing d r x).sym = d.sym ∧ (setRing d r x).rng = d.rng ∧ (setRing d r x).crd = d.crd ∧ (setRing d r x).tmp = d.tmp ∧
    (setRing d r x).bwt = d.bwt ∧ (setRing d r x).evr = d.evr ∧ (setRing d r x).chn = d.chn ∧ (setRing d r x).tmr = d.tmr ∧ (setRing d r x).pinEdges = d.pinEdges ∧ (setRing d r x).mgt = d.mgt ∧
    (setRing d r x).out = d.out := by
  cases r <;> exact ⟨rfl, rfl, rfl, rfl, rfl, rfl, rfl, rfl, rfl, rfl, rfl, rfl, rfl, rfl, rfl, rfl, rfl, rfl, rfl, rfl, rfl, rfl, rfl, rfl, rfl, rfl, rfl, rfl, rfl, rfl, rfl⟩
@[simp] theorem setPort_frame (d : Dev) (p : Port) (x : PortSt) :
    (setPort d p x).now = d.now ∧ (setPort d p x).glb = d.glb ∧ (setPort d p x).ldg = d.ldg ∧ (setPort d p x).otp = d.otp ∧ (setPort d p x).lc = d.lc ∧ (setPort d p x).dbg = d.dbg ∧ (setPort d p
    x).sec = d.sec ∧ (setPort d p x).sram = d.sram ∧ (setPort d p x).psUser = d.psUser ∧ (setPort d p x).hif = d.hif ∧ (setPort d p x).stl = d.stl ∧ (setPort d p x).yrd = d.yrd ∧ (setPort d p
    x).reqs = d.reqs ∧ (setPort d p x).comps = d.comps ∧ (setPort d p x).nextRid = d.nextRid ∧ (setPort d p x).cls = d.cls ∧ (setPort d p x).key = d.key ∧ (setPort d p x).ps = d.ps ∧ (setPort d
    p x).pke = d.pke ∧ (setPort d p x).pkeWait = d.pkeWait ∧ (setPort d p x).pkeWindow = d.pkeWindow ∧ (setPort d p x).sym = d.sym ∧ (setPort d p x).rng = d.rng ∧ (setPort d p x).crd = d.crd ∧
    (setPort d p x).tmp = d.tmp ∧ (setPort d p x).bwt = d.bwt ∧ (setPort d p x).evr = d.evr ∧ (setPort d p x).tmr = d.tmr ∧ (setPort d p x).pinEdges = d.pinEdges ∧ (setPort d p x).mgt = d.mgt ∧
    (setPort d p x).out = d.out := by
  cases p <;> exact ⟨rfl, rfl, rfl, rfl, rfl, rfl, rfl, rfl, rfl, rfl, rfl, rfl, rfl, rfl, rfl, rfl, rfl, rfl, rfl, rfl, rfl, rfl, rfl, rfl, rfl, rfl, rfl, rfl, rfl, rfl, rfl⟩
@[simp] theorem setSlot_frame (d : Dev) (x : Slot) (c : CardSlot) :
    (setSlot d x c).now = d.now ∧ (setSlot d x c).glb = d.glb ∧ (setSlot d x c).ldg = d.ldg ∧ (setSlot d x c).otp = d.otp ∧ (setSlot d x c).lc = d.lc ∧ (setSlot d x c).dbg = d.dbg ∧ (setSlot d x
    c).sec = d.sec ∧ (setSlot d x c).sram = d.sram ∧ (setSlot d x c).psUser = d.psUser ∧ (setSlot d x c).hif = d.hif ∧ (setSlot d x c).stl = d.stl ∧ (setSlot d x c).yrd = d.yrd ∧ (setSlot d x
    c).reqs = d.reqs ∧ (setSlot d x c).comps = d.comps ∧ (setSlot d x c).nextRid = d.nextRid ∧ (setSlot d x c).cls = d.cls ∧ (setSlot d x c).key = d.key ∧ (setSlot d x c).ps = d.ps ∧ (setSlot d
    x c).pke = d.pke ∧ (setSlot d x c).pkeWait = d.pkeWait ∧ (setSlot d x c).pkeWindow = d.pkeWindow ∧ (setSlot d x c).sym = d.sym ∧ (setSlot d x c).rng = d.rng ∧ (setSlot d x c).tmp = d.tmp ∧
    (setSlot d x c).bwt = d.bwt ∧ (setSlot d x c).evr = d.evr ∧ (setSlot d x c).chn = d.chn ∧ (setSlot d x c).tmr = d.tmr ∧ (setSlot d x c).pinEdges = d.pinEdges ∧ (setSlot d x c).mgt = d.mgt ∧
    (setSlot d x c).out = d.out := by
  cases x <;> exact ⟨rfl, rfl, rfl, rfl, rfl, rfl, rfl, rfl, rfl, rfl, rfl, rfl, rfl, rfl, rfl, rfl, rfl, rfl, rfl, rfl, rfl, rfl, rfl, rfl, rfl, rfl, rfl, rfl, rfl, rfl, rfl⟩

/-! ### Reading back what an update wrote -/

@[simp] theorem stall_setStall (d : Dev) (n : Nat) (x : Stall) : stall (setStall d n x) n = x := by simp [stall]
theorem stall_setStall_ne (d : Dev) {n m : Nat} (x : Stall) (h : m ≠ n) : stall (setStall d n x) m = stall d m := by simp [stall, tgetD_tset_ne _ _ _ h]
@[simp] theorem queueOf_setQueue (d : Dev) (n : Nat) (q : YQueue) : queueOf (setQueue d n q) n = q := by simp [queueOf]
@[simp] theorem eng_setEng (d : Dev) (e : Nat) (p : Pke) : eng (setEng d e p) e = p := by simp [eng]
@[simp] theorem tmrOf_setTmr (d : Dev) (t : Nat) (x : Timer) : tmrOf (setTmr d t x) t = x := by simp [tmrOf]
theorem tmrOf_setTmr_ne (d : Dev) {t j : Nat} (x : Timer) (h : j ≠ t) : tmrOf (setTmr d t x) j = tmrOf d j := by simp [tmrOf, tgetD_tset_ne _ _ _ h]
@[simp] theorem portOf_setPort (d : Dev) (p : Port) (x : PortSt) : portOf (setPort d p x) p = x := by cases p <;> rfl
@[simp] theorem portOf_setPort_opposite (d : Dev) (p : Port) (x : PortSt) : portOf (setPort d p x) (opposite p) = portOf d (opposite p) := by cases p <;> rfl
@[simp] theorem slotOf_setSlot (d : Dev) (x : Slot) (c : CardSlot) : slotOf (setSlot d x c) x = c := by cases x <;> rfl
@[simp] theorem poolOf_onPool (d : Dev) (p : Nat) (f : Pool → Pool) : poolOf (onPool d p f) p = f (poolOf d p) := by simp [poolOf, onPool]
theorem poolOf_onPool_ne (d : Dev) {p q : Nat} (f : Pool → Pool) (h : q ≠ p) : poolOf (onPool d p f) q = poolOf d q := by simp [poolOf, onPool, tgetD_tset_ne _ _ _ h]

end Sys2Proof.Machine
end

