-- ==== Sys2Proof/Laws/Frames.lean ====
section
/-! SUPPORT. Everything a shared operation can change: an operation answers the device with the named parts changed and no other. And what that gives the two invariants: an operation that does not name the ledger (the byte stores) keeps it. -/

namespace Sys2Proof.Machine

open Sys2Proof.Safety

theorem signal_frame (d : Dev) (f : Func) (v : Nat) : ∃ h o, signal d f v = { d with hif := h, out := o } := by
  unfold signal; split <;> exact ⟨_, _, rfl⟩
theorem unblock_frame (d : Dev) (f : Func) (v : Nat) : ∃ h o, unblock d f v = { d with hif := h, out := o } := by
  unfold unblock; split <;> exact ⟨_, _, rfl⟩
theorem alert_frame (d : Dev) (b : Nat) : ∃ m o, alert d b = { d with mgt := m, out := o } := by
  unfold alert; simp only; split <;> exact ⟨_, _, rfl⟩
theorem aerReport_frame (d : Dev) (f : Func) (a : Aer) : ∃ h o, aerReport d f a = { d with hif := h, out := o } := ⟨_, _, rfl⟩
/-- A record goes to the writer, waits, or is counted. -/
theorem logRec_frame (d : Dev) (r : Record) : ∃ e, logRec d r = { d with evr := e } := by
  unfold logRec; split
  · exact ⟨_, rfl⟩
  · split
    · exact ⟨_, rfl⟩
    · split <;> exact ⟨_, rfl⟩
/-- `e` is `d` after reports alone: GLB's error fields and wakes, the stalls' states and headers, vectors and AER, alerts, records and outputs. -/
def Reports (d e : Dev) : Prop := ∃ g t h m r o, e = { d with glb := g, stl := t, hif := h, mgt := m, evr := r, out := o }

theorem Reports.refl (d : Dev) : Reports d d := ⟨_, _, _, _, _, _, rfl⟩
theorem Reports.trans {a b c : Dev} (h : Reports a b) (k : Reports b c) : Reports a c := by
  obtain ⟨_, _, _, _, _, _, rfl⟩ := h
  obtain ⟨_, _, _, _, _, _, rfl⟩ := k
  exact ⟨_, _, _, _, _, _, rfl⟩
theorem Reports.glb (d : Dev) (g : Glb) : Reports d { d with glb := g } := ⟨_, _, _, _, _, _, rfl⟩
theorem Reports.emit (d : Dev) (o : Out) : Reports d (Machine.emit d o) := ⟨_, _, _, _, _, _, rfl⟩
theorem Reports.stall (d : Dev) (n : Nat) (x : Stall) : Reports d (setStall d n x) := ⟨_, _, _, _, _, _, rfl⟩
theorem Reports.signal (d : Dev) (f : Func) (v : Nat) : Reports d (Machine.signal d f v) := by
  obtain ⟨h, o, e⟩ := signal_frame d f v; rw [e]; exact ⟨_, _, _, _, _, _, rfl⟩
theorem Reports.alert (d : Dev) (b : Nat) : Reports d (Machine.alert d b) := by
  obtain ⟨m, o, e⟩ := alert_frame d b; rw [e]; exact ⟨_, _, _, _, _, _, rfl⟩
theorem Reports.aer (d : Dev) (f : Func) (a : Aer) : Reports d (aerReport d f a) := by
  obtain ⟨h, o, e⟩ := aerReport_frame d f a; rw [e]; exact ⟨_, _, _, _, _, _, rfl⟩
theorem Reports.logRec (d : Dev) (r : Record) : Reports d (Machine.logRec d r) := by
  obtain ⟨x, e⟩ := logRec_frame d r; rw [e]; exact ⟨_, _, _, _, _, _, rfl⟩
theorem Reports.ite {c : Prop} [Decidable c] {d a b : Dev} (ha : Reports d a) (hb : Reports d b) : Reports d (if c then a else b) := by
  split
  · exact ha
  · exact hb

/-- 23 R413: Class C. -/
theorem errC_reports (d : Dev) : Reports d (errC d) := (Reports.glb d _).trans (.signal _ _ _)
/-- 23 R413: a Class D error reaches its registers, vector 4, the alert, AER and the Logbook. -/
theorem errD_reports (d : Dev) (b s : Nat) (c : Half) (n : Byte) (op aer : Bool) (rec : Option (Half × Word)) : Reports d (errD d b s c n op aer rec) := by
  unfold errD
  refine Reports.trans ?_ (.logRec _ _)
  have h : ∀ g, Reports d (alert (signal { d with glb := g } .pf 4) 3) := fun g => ((Reports.glb d g).trans (.signal _ _ _)).trans (.alert _ _)
  exact .ite ((h _).trans (.aer _ _ _)) (h _)
/-- 23 R413, R415: a Class F error reaches AER, the Logbook and GLB. -/
theorem errF_reports (d : Dev) (c : Half) (a b : Word) : Reports d (errF d c a b) := by
  unfold errF
  have h : Reports d (logRec (if d.hif.up then aerReport d .pf .uncorrectableInternal else d) (devRec 0x9008 c (b4 a ++ b4 b) .fatal)) :=
    (Reports.ite (.aer _ _ _) (.refl _)).trans (.logRec _ _)
  refine .ite (h.trans (.glb _ _)) ?_
  split
  · exact h.trans (.glb _ _)
  · exact h.trans (.glb _ _)
/-- 11 R190: a change of STATE. -/
theorem toState_reports (d : Dev) (n : Nat) (st : StallSt) : Reports d (toState d n st) := by
  unfold toState
  refine .ite (.refl _) ?_
  have h : Reports d (writeHeader (modStall d n fun s => { s with st := st, gen := nextGen s.gen }) n) := ⟨_, _, _, _, _, _, rfl⟩
  exact (h.trans (.signal _ _ _)).trans (.alert _ _)
theorem faultStall_reports (d : Dev) (n : Nat) : Reports d (faultStall d n) := by
  unfold faultStall; split
  · exact toState_reports ..
  · exact toState_reports ..
  · exact .refl _
/-- 11 R203: a Class T error reaches its stall, the vectors, the Logbook and, at the sixteenth of a second, the stall's state. -/
theorem errT_reports (d : Dev) (n : Nat) (c : Half) : Reports d (errT d n c) := by
  unfold errT
  have h : ∀ f, Reports d (signal (signal (modStall d n f) (.vf (Fin.ofNat 64 n)) 3) .pf 3) := fun f => ((Reports.stall d n _).trans (.signal _ _ _)).trans (.signal _ _ _)
  have k : ∀ f (p : Prop) [Decidable p] r, Reports d (if p then logRec (signal (signal (modStall d n f) (.vf (Fin.ofNat 64 n)) 3) .pf 3) r
      else signal (signal (modStall d n f) (.vf (Fin.ofNat 64 n)) 3) .pf 3) := fun f p _ r => .ite ((h f).trans (.logRec _ _)) (h f)
  exact .ite ((k _ _ _).trans (faultStall_reports _ _)) (k _ _ _)
theorem errIssuer_reports (d : Dev) (i : Issuer) (c : Half) : Reports d (errIssuer d i c) := by
  unfold errIssuer; split
  · exact errT_reports ..
  · exact errC_reports ..
/-- 03 R42: a wake reaches GLB, PM_PME and the link's state. -/
theorem wake_reports (d : Dev) (c : WakeCause) : Reports d (wake d c) := by
  have hp : ∀ d, Reports d (pme d) := by
    intro d
    have h : Reports d { d with hif := { d.hif with pmeStatus := true } } := ⟨_, _, _, _, _, _, rfl⟩
    unfold pme; refine .ite (.refl _) (.ite h (h.trans ?_))
    split
    · exact .emit _ _
    · exact .glb _ _
    · exact .refl _
  have hs : ∀ d, Reports d (if d.glb.waking then d else pme { d with glb := { d.glb with waking := true } }) := fun d =>
    .ite (.refl _) ((Reports.glb d { d.glb with waking := true }).trans (hp _))
  unfold wake
  refine .ite (.refl _) ?_
  cases c <;> first | exact hs d | exact Reports.trans ⟨_, _, _, _, _, _, rfl⟩ (hs _)
/-- Reports leave every other part of the device as it was. -/
theorem Reports.keeps {d e : Dev} (h : Reports d e) :
    e.now = d.now ∧ e.ldg = d.ldg ∧ e.otp = d.otp ∧ e.lc = d.lc ∧ e.dbg = d.dbg ∧ e.sec = d.sec ∧ e.sram = d.sram ∧ e.psUser = d.psUser ∧ e.yrd = d.yrd ∧ e.reqs = d.reqs ∧
    e.comps = d.comps ∧ e.nextRid = d.nextRid ∧ e.cls = d.cls ∧ e.key = d.key ∧ e.ps = d.ps ∧ e.pke = d.pke ∧ e.pkeWait = d.pkeWait ∧ e.pkeWindow = d.pkeWindow ∧ e.sym = d.sym ∧
    e.rng = d.rng ∧ e.crd = d.crd ∧ e.tmp = d.tmp ∧ e.bwt = d.bwt ∧ e.chn = d.chn ∧ e.tmr = d.tmr := by
  obtain ⟨_, _, _, _, _, _, rfl⟩ := h
  exact ⟨rfl, rfl, rfl, rfl, rfl, rfl, rfl, rfl, rfl, rfl, rfl, rfl, rfl, rfl, rfl, rfl, rfl, rfl, rfl, rfl, rfl, rfl, rfl, rfl, rfl⟩
theorem freeCells_frame (d : Dev) (h : Nat) (l : List Nat) : ∃ y g, freeCells d h l = { d with yrd := y, ldg := g } := ⟨_, _, rfl⟩
theorem dmaIssue_frame {d e : Dev} {f : Func} {u : DmaUse} {a n : Nat} (h : dmaIssue d f u a n = some e) : ∃ k i g o, e = { d with rng := k, hif := i, ldg := g, out := o } := by
  simp only [dmaIssue, Option.map_eq_some_iff] at h
  obtain ⟨t, -, rfl⟩ := h
  exact ⟨_, _, _, _, rfl⟩
theorem dmaRetire_frame (d : Dev) (t : Nat) (e : DmaTag) : ∃ h g, dmaRetire d t e = { d with hif := h, ldg := g } := ⟨_, _, rfl⟩

/-! ### The two invariants -/

theorem ledgerOk_congr {d e : Dev} (h : e.ldg.pools = d.ldg.pools) (hd : ledgerOk d) : ledgerOk e := by
  intro p; have := hd p; simpa only [poolOf, h] using this
theorem ledgerOk_reports {d e : Dev} (h : Reports d e) (hd : ledgerOk d) : ledgerOk e := ledgerOk_congr (by rw [h.keeps.2.1]) hd
theorem ledgerOk_onPool {d : Dev} {p : Nat} {f : Pool → Pool} (hf : ∀ x, poolOk x → poolOk (f x)) (hd : ledgerOk d) : ledgerOk (onPool d p f) := by
  intro q
  by_cases h : q = p
  · subst h; rw [poolOf_onPool]; exact hf _ (hd _)
  · rw [poolOf_onPool_ne d f h]; exact hd q
theorem ledgerOk_issue {d : Dev} (p h n : Nat) (hd : ledgerOk d) : ledgerOk (ldgIssue d p h n) := ledgerOk_onPool (fun x hx => poolOk_issue x h n hx) hd
theorem ledgerOk_retire {d : Dev} (p h n : Nat) (hd : ledgerOk d) : ledgerOk (ldgRetire d p h n) := ledgerOk_onPool (fun x hx => poolOk_retire x h n hx) hd
theorem ledgerOk_move {d : Dev} (p h h' n : Nat) (hd : ledgerOk d) : ledgerOk (ldgMove d p h h' n) := ledgerOk_onPool (fun x hx => poolOk_move x h h' n hx) hd
theorem ledgerOk_freeCells {d : Dev} (h : Nat) (l : List Nat) (hd : ledgerOk d) : ledgerOk (freeCells d h l) := ledgerOk_retire 1 h l.length (ledgerOk_congr (d := d) rfl hd)
theorem ledgerOk_claimCells {d e : Dev} {i : Issuer} {n : Nat} {l : List Nat} (h : claimCells d i n = some (e, l)) (hd : ledgerOk d) : ledgerOk e := by
  simp only [claimCells] at h
  split at h
  · cases h
  · simp only [Option.map_eq_some_iff, Prod.mk.injEq] at h
    obtain ⟨r, -, rfl, -⟩ := h
    exact ledgerOk_issue _ _ _ (ledgerOk_congr (d := d) rfl hd)
theorem memoryOk_congr {d e : Dev} (h1 : e.stl.boards = d.stl.boards) (h2 : e.sram = d.sram) (h3 : e.psUser = d.psUser) (hd : memoryOk d) : memoryOk e := by
  unfold memoryOk at *; rw [h1, h2, h3]; exact hd
theorem memoryOk_writeHeader {d : Dev} (n : Nat) (hd : memoryOk d) : memoryOk (writeHeader d n) := by
  obtain ⟨h1, h2⟩ := hd
  have h := memWf_memWriteBytes (boardHeader d n) d.stl.boards (boardSize * n) h1
  generalize hb : memWriteBytes d.stl.boards (boardSize * n) (boardHeader d n) = b at h
  have e : writeHeader d n = { d with stl := { d.stl with boards := b } } := by unfold writeHeader; rw [hb]
  rw [e]; exact ⟨h, h2⟩
theorem memoryOk_toState {d : Dev} (n : Nat) (st : StallSt) (hd : memoryOk d) : memoryOk (toState d n st) := by
  unfold toState; split
  · exact hd
  · obtain ⟨h, o, e⟩ := signal_frame (writeHeader (modStall d n fun s => { s with st := st, gen := nextGen s.gen }) n) .pf 2
    obtain ⟨m, o2, e2⟩ := alert_frame (signal (writeHeader (modStall d n fun s => { s with st := st, gen := nextGen s.gen }) n) .pf 2) 0
    rw [e2, e]
    exact memoryOk_congr (d := writeHeader (modStall d n fun s => { s with st := st, gen := nextGen s.gen }) n) rfl rfl rfl (memoryOk_writeHeader n (memoryOk_congr (d := d) rfl rfl rfl hd))

end Sys2Proof.Machine
end

