-- ==== Sys2Proof/Laws/Rules.lean ====
section
/-! SUPPORT. 06 R111: once every rule written has been covered by a barrier, both ends of an access are checked under the rules as they stand. -/

namespace Sys2Proof.Machine

@[simp] theorem heldValue_nil {α : Type} (check rule : Nat) (last : α) : heldValue check rule last [] = last := rfl
@[simp] theorem heldRegions_nil (check rule : Nat) (t : Tab Region) : heldRegions check rule t [] = t := rfl
@[simp] theorem heldOver_none (check rule : Nat) (s : Sec) : heldOver check rule {} s = s := rfl

theorem ruleView_settled {d : Dev} (h : settled d = true) (check : Nat) : ruleView d check = d := by
  simp only [settled, Bool.and_eq_true, beq_iff_eq] at h
  simp only [ruleView, h.1, h.2, heldOver_none]
theorem checked_settled {d : Dev} (h : settled d = true) : checked d = d := by simp [checked, h]
theorem denial_settled {d : Dev} (h : settled d = true) (m : Master) (i : Inner) (a n kind : Nat) : denial d m i a n kind = denialAt d d m i a n kind := by
  simp only [denial, ruleView_settled h]
/-- A check draws at most what it holds: nothing else of the device changes. -/
theorem checked_frame (d : Dev) : ∃ k, checked d = { d with rng := k } := by
  unfold checked; split <;> exact ⟨_, rfl⟩
@[simp] theorem checked_sram (d : Dev) : (checked d).sram = d.sram := by unfold checked; split <;> rfl

end Sys2Proof.Machine
end

