-- ==== Sys2Proof/Laws/Statements.lean ====
section
/-! SUPPORT. Laws in the terms of Safety: issuers listed, key checks passed, a Krovlo frame taken. -/

namespace Sys2Proof.Machine

open Sys2Proof.Safety


theorem listedPVM {r : Request} (h : fromPVM r) : listed whoPVM r.issuer = true := by
  rcases h with h | h | ⟨n, h⟩ <;> simp [h, listed, whoPVM]

theorem listedPM {r : Request} (h : fromPM r) : listed whoPM r.issuer = true := by
  rcases h with h | h <;> simp [h, listed, whoPM]

theorem keyFor_pv {d : Dev} {c : Cmd} {h : Word} (hi : c.issuer = .pf ∨ ∃ n, c.issuer = .stall n) : keyFor d c h = findKey d h := by
  rcases hi with hi | ⟨n, hi⟩ <;> simp [keyFor, hi]

theorem keyChecks_pass {d : Dev} {c : Cmd} {h : Word} {t : Byte → Bool} {u : Option Nat} {k : LiveKey}
  (hi : c.issuer = .pf ∨ ∃ n, c.issuer = .stall n) (ho : (ownerOf d c.owner.toNat).isSome) (hb : bound d c.issuer c.owner.toNat = true)
  (hh : hOwner h = c.owner.toNat) (hf : findKey d h = some k) (hko : k.owner.toNat = c.owner.toNat) (ht : t k.type = true)
  (hu : ∀ x, u = some x → k.usage.getLsbD x = true) : firstFail (keyChecks d c h t u) = none := by
  apply firstFail_none
  intro x hx
  simp only [keyChecks, keyFor_pv hi, hf, List.mem_cons, List.not_mem_nil, or_false] at hx
  rcases hx with rfl | rfl | rfl | rfl | rfl | rfl
  · simp [ownerOk, ho, hb]
  · rcases hi with hi | ⟨n, hi⟩ <;> simp [hi, hh]
  · rfl
  · simp [hko]
  · simp [ht]
  · cases u <;> simp_all

theorem findKey_congr {d d' : Dev} (h : d'.key = d.key) (x : Word) : findKey d' x = findKey d x := by
  cases d; cases d'; cases h; rfl

theorem take_leBytes (n x : Nat) : leNat (leBytes n x) = x % 256 ^ n := by
  induction n generalizing x with
  | zero => simp [leBytes, leNat, Nat.mod_one]
  | succ n ih => simp [leBytes, leNat, ih, Nat.pow_succ]; rw [Nat.mul_comm (256^n) 256, Nat.mod_mul]; 

theorem accept_inOrder {d : Dev} {p : Port} {h : LinkHdr} (h1 : hears d p = true) (h2 : h.seq = (portOf d p).rxNext) : accept d p h = some (heard d p) := by
  simp only [accept, h1, h2, Bool.not_true, Bool.false_eq_true, if_false, if_true]
  cases p <;> rfl
theorem endsHere_forUs {d : Dev} {p : Port} {h : LinkHdr} (hu : forUs d p h) : endsHere d p h = true ∧ forMe d h = true := by
  obtain ⟨-, -, ⟨a, b⟩ | ⟨a, b, c⟩⟩ := hu
  · simp [endsHere, forMe, a, b]
  · have a' : h.dest ≠ 255#8 := a
    simp [endsHere, forMe, a', b, c]
/-- Hearing a frame changes nothing that says where a frame goes. -/
theorem endsHere_heard (d : Dev) (p : Port) (h : LinkHdr) : endsHere (heard d p) p h = endsHere d p h := by cases p <;> rfl
theorem forMe_heard (d : Dev) (p : Port) (h : LinkHdr) : forMe (heard d p) h = forMe d h := by cases p <;> rfl
/-- A frame that ends here is acknowledged and delivered, and goes no further. -/
theorem accept_heard {d : Dev} {p : Port} {h : LinkHdr} (hu : forUs d p h) (b : FBody) (f : Dev → Dev) : onFrame d p h b f = f (heardHere d p h) := by
  have he := endsHere_forUs hu
  simp only [onFrame, refused, he.1, Bool.not_true, Bool.false_and, Bool.false_eq_true, if_false, accept_inOrder hu.1 hu.2.1, forward, endsHere_heard, forMe_heard, he.2, if_true, heardHere]

theorem hop_heard {d : Dev} {p : Port} {h : LinkHdr} (h1 : hears d p = true) (h2 : h.seq = (portOf d p).rxNext) (f : Dev → Dev) : onHop d p h f = f (heard d p) := by
  simp only [onHop, accept_inOrder h1 h2]

end Sys2Proof.Machine
end

