-- ==== Sys2Proof/Tests/Slice0.lean ====
section
/-! SUPPORT. The model's own tests: an ill-formed operand for each check of WellFormed, and single commands with values that spec/ gives. -/

open Sys2Proof Sys2Proof.Machine
namespace Sys2Proof.Tests
set_option Elab.async false

/-- A device in RUN after its start-up, in MAKER, with the link up. -/
def inRun : Dev := { State.reset.toDev with
  glb := { power := .run, boot := .done, vioGen := true, vmainGood := true, vbatOk := true, rsvOk := true, perstN := true }
  key := { root := 1 }
  hif := { up := true, link := .l0, cfg := [(64, { memEnable := true, busMaster := true })] }
  sym := { rngInst := true }
  mgt := { enabled := true, eid := 9 } }
/-- The device after one command. -/
def after (i : Instr) (d : Dev) : Dev :=
  match exec i { toDev := d } with
  | .next s => s.toDev
  | .fault _ => d
  | .refused _ => d
/-- A write of a word by the PF, by a secure processor, by a normal one; and the device with its VFs. -/
def pfWrite (a : Nat) (w : Word) (d : Dev) : Dev := after (.registerWrite (.host .pf) a 4 (b4 w)) d
def cpWrite (a : Nat) (w : Word) (d : Dev) : Dev := after (.registerWrite (.cp 0 true) a 4 (b4 w)) d
def cpWriteNormal (a : Nat) (w : Word) (d : Dev) : Dev := after (.registerWrite (.cp 1 false) a 4 (b4 w)) d
/-- With regions that let processor 1 through to the timers. -/
def opened : Dev := { inRun with sec.mpu := [(16, { limit := 0xFFFFF, en := true, perm := 0xFF })], sec.fw := [(80, { limit := 0xFFFFF, en := true, perm := 0xFF, mask := 0xFFFFFFFF })] }
def withVfs : Dev := { inRun with hif.vfEnable := true, hif.vfCount := 64 }

/-! ### Each check of WellFormed refuses an ill-formed operand -/

/-- 12 R219: parameters beyond the largest outer payload. -/
theorem test_wf_request : (Instr.pkMacRun { issuer := .pf, params := List.replicate 16385 0 }).wf = false := by decide +kernel
/-- 20 R365: HOPS of 16. -/
theorem test_wf_link_header : (Instr.replAck .up { hops := 16 } 0).wf = false := by decide
/-- 20 R374: a DEVICE_ID of 15 bytes. -/
theorem test_wf_status : (StatusBody.wf { devId := zeros 15, lcState := 3, role := 1, fwVersion := 0, epoch := 0, admDigest := zeros 48, time := 0, attestPub := zeros 96 }) = false := by decide +kernel
/-- 20 R378: a nonce of 31 bytes. -/
theorem test_wf_replica : (ReplicaBody.wf { type := 3, usage := 0, length := 32, owner := 0, mode := 0, srcHandle := 0, nonce := zeros 31, cipher := zeros 48 }) = false := by decide +kernel
/-- 20 R380: a first part without its completion entry. -/
theorem test_wf_result : (ResultBody.wf { first := true, more := false, reqSeq := 0, offset := 0, total := 0, completion := [], result := [] }) = false := by decide
/-- 08 R142: a serial of 7 bytes. -/
theorem test_wf_card : (CardDesc.wf { tackState := 0, index := 0, owner := 0, serial := zeros 7, pub := zeros 96 }) = false := by decide +kernel
/-- 22 R393: 65 bytes in one packet. -/
theorem test_wf_packet : (McPacket.wf { som := true, eom := true, pktSeq := 0, tag := 0, src := 0, dst := 0, payload := zeros 65 }) = false := by decide +kernel
/-- 24 R424: a register access of 3 bytes. -/
theorem test_wf_size : (Instr.rcFieldRead (.host .pf) 0 3).wf = false := by decide
/-- 11 R188: log2(N) of 7. -/
theorem test_wf_partition : (Instr.partitionChange 7).wf = false := by decide
/-- A well-formed one passes. -/
theorem test_wf_accepts : (Instr.nop { issuer := .pf }).wf = true := by decide

/-! ### Values that spec/ gives -/

/-- 12 R221: CRC32C over the text 123456789. -/
theorem test_crc32c : crc32c (ascii "123456789") = 0xE3069283 := by decide +kernel

/-- 06, case of PKE2, step 3: a normal-world load of operand memory of PKE2 in transit. -/
theorem test_violation : rViolInfo (after (.rcFieldRead (.cp 1 false) 0x34020000 4) (cpWrite 0x10014 0x80000114 inRun)) = 0x8001F701 := by decide +kernel
/-- 06, case of PKE2, step 2: a secure write of 0x8000_0114 to SEC.HANDOVER is read back. -/
theorem test_handover_starts : rHandover (cpWrite 0x10014 0x80000114 inRun) = 0x80000114 := by decide +kernel
/-- Step 5: SEC.OWN and SEC.HANDOVER once it has completed. -/
theorem test_handover_ends : (readReg (after .handoverComplete (cpWrite 0x10014 0x80000114 inRun)) .sec 0x10 = 0x0013FF00 ∧
    rHandover (after .handoverComplete (cpWrite 0x10014 0x80000114 inRun)) = 0x00010114) := by decide +kernel

/-- 05 R83: IDCODE. -/
theorem test_idcode : (after (.idcode {}) inRun).out.head? = some (.tap 0 [0x79, 0x0F, 0x83, 0x14]) := by decide +kernel

/-- 21, case of TMR2, steps 1 and 2: CTL as it reads once armed. -/
theorem test_timer_control : readReg (cpWriteNormal 0xB0080 0x80285000 (cpWriteNormal 0xB0084 1000 opened)) (.tmr 2) 0 = 0x80285000 := by decide +kernel

/-- 11, case of a Weir: cinc and binc of 10 000 commands per second and RATE 800. -/
theorem test_weir_rates : ((weirSwitch { cmdRate := 10000, byteRate := 800 }).cinc = 1678 ∧ (weirSwitch { cmdRate := 10000, byteRate := 800 }).binc = 134217728) := by decide
/-- 26, case of sixteen stalls: the same of 20 000 and 1000. -/
theorem test_weir_rates_26 : ((weirSwitch { cmdRate := 20000, byteRate := 1000 }).cinc = 3355 ∧ (weirSwitch { cmdRate := 20000, byteRate := 1000 }).binc = 167772160) := by decide

/-- 26, case of sixteen stalls, step 2: STL.PART_CTL before and after the change. -/
theorem test_partition : (readReg inRun .stl 0 = 0x66 ∧ readReg (pfWrite 0x200000 0x80000004 inRun) .stl 0 = 0x44) := by decide +kernel
/-- Step 3: STATE and GEN of stall 0 after ENABLE. -/
theorem test_enable : (readReg (after (.enable 0) withVfs) (.stallPage 0 .pf) 0 = 0x80000001 ∧ readReg (after (.enable 0) withVfs) (.stallPage 0 .pf) 4 = 1) := by decide +kernel

/-- 26, first provisioning, step 1: GLB.LC_STATE. -/
theorem test_lc_state : rLcState inRun = 0x0101 := by decide
/-- 26, case of owner 12, step 1: CRD.Q_STATUS of a session with M of 2; and with custodians 2 and 3. -/
theorem test_q_status : (rQStatus { inRun with crd.session := some { owner := 0, mEff := 2, digest := [], since := 0 } } = 0x90000000 ∧
    rQStatus { inRun with crd.session := some { owner := 0, mEff := 2, digest := [], indices := 6, met := true, since := 0 } } = 0xD1000600) := by decide
/-- 26: KEY.OWNER_INFO of a 2-of-3 owner with AON_QUOTA 4. -/
theorem test_owner_info : rOwnerInfo { inRun with key.owners := [(12, { mode := 0, salt := [], m := 2, n := 3, aonQuota := 4 })] } 12 = 0x91800004 := by decide

/-- 13 R239: a NOP completes with ST_OK. -/
theorem test_nop : (after (.nop { issuer := .pf }) inRun).comps.map (·.2.status) = [0] := by decide +kernel
/-- 13 R238: an opcode that LOCKED does not admit completes with ST_LOCKED, 0x0207. -/
theorem test_locked : (after (.keyGenerate { issuer := .pf }) { inRun with lc := { state := 0xEE, base := 1 } }).comps.map (·.2.status) = [ST.locked] := by decide +kernel

/-- 11 R189, R190: a second ENABLE is no transition, so GEN stays. -/
theorem test_enable_twice : (stall (after (.enable 0) (after (.enable 0) withVfs)) 0).gen = 1 := by decide +kernel
/-- 15 R276: MARK sets the mark where the read position stands. -/
theorem test_mark : (queueOf (after (.mark 3) { inRun with yrd.queues := [(3, { rdPos := 5 })] }) 3).mkPos = 5 := by decide +kernel
/-- 08 R140: a card found in an empty slot starts the debounce. -/
theorem test_card_insert : (after (.cardInsert .a) inRun).crd.a.phase = .debounce := by decide +kernel
/-- 18 R325: a read of the identification is answered by the device. -/
theorem test_flash_status : (after (.hostFlashCommand 0x05) { inRun with glb.straps.bwMode := 1, glb.bankBf := .released, bwt.sr1 := 0x5A }).out.head? = some (.flashAnswer [0x5A]) := by decide +kernel
/-- 21 R388: STOP clears RUN and keeps the count. -/
theorem test_stop : (tmrOf (after (.stop 0) { inRun with tmr := [(0, { running := true, count := 7 })] }) 0).count = 7 := by decide +kernel
/-- 22 R394: Set Endpoint ID to 0x23. -/
theorem test_set_eid : (after (.setEndpointId 0x23) inRun).mgt.eid = 0x23 := by decide +kernel
/-- 20 R369: a slot opens after the one before. -/
theorem test_slot : (after .slotStart { inRun with chn.slot := 15 }).chn.slot = 0 := by decide +kernel
/-- 03 R42: a request for DOZE waits for its entry. -/
theorem test_doze : (after .requestDoze inRun).glb.req.isSome = true := by decide +kernel
/-- 19: a record that is due is taken by the writer. -/
theorem test_record : (after .recordAccept { inRun with evr := { isOpen := true, queue := [{ rtype := 0x1001, attr := 0x7F, payload := [] }] } }).evr.queue = [] := by decide +kernel

/-- 24 R425: SQ_BASE of stall 0, written by the PF and then by the VF in one fabric cycle, holds the PF's value. -/
theorem test_pf_write_stands : readReg (after (.registerWrite (.host (.vf 0)) 0x40 4 (b4 0x7000)) (pfWrite 0x202000 0x5000 (after (.enable 0) { withVfs with hif.vfMse := true }))) (.ringPage (.stall 0) .pf) 0 = 0x5000 := by decide +kernel
/-- Of two cycles the later write stands. -/
theorem test_later_write_stands : readReg (after (.registerWrite (.host (.vf 0)) 0x40 4 (b4 0x7000)) { pfWrite 0x202000 0x5000 (after (.enable 0) { withVfs with hif.vfMse := true }) with now := 1 }) (.ringPage (.stall 0) .pf) 0 = 0x7000 := by decide +kernel
/-- 02 R26: with bank BF in reset the flash sees its select high and its reset low. -/
theorem test_pins : (pinState State.reset.toDev .bwfCsN = .high ∧ pinState State.reset.toDev .bwfRstN = .low) := by decide
/-- 20 R363: MARK on both lanes, and the second group of 8 bytes of an ACK frame on lane 1. -/
theorem test_mark_blocks : (laneBlocks false { hdr := { dest := 0 }, body := .ack 7 3 false }).map (·.take 2) =
    [[[0x48, 0x7B, 0xD2, 0x96, 0x0E, 0x5C, 0xF1, 0xA3], [2, 0, 0, 0, 8, 0, 0, 0]],
     [[0x83, 0xF1, 0x64, 0x0D, 0xA7, 0xC9, 0x2B, 0x5E], [0, 0, 0, 0] ++ b4 (crc32c ([2, 0, 0, 0, 8] ++ zeros 7))]] := by decide +kernel

end Sys2Proof.Tests
end

