-- ==== Sys2Proof/Tests/Witnesses.lean ====
section
/-! SUPPORT. For every obligation with hypotheses, states and operands that meet them, one for each of its clauses. Where a clause speaks of an uninterpreted function (a token whose hash matches, a DEVICE_ID above zero) the witness is given for every value that meets that condition. -/

open Sys2Proof Sys2Proof.Machine Sys2Proof.Safety
namespace Sys2Proof.Tests
set_option Elab.async false

/-! ### States the witnesses are built on -/

/-- An AES-256 key of owner 0 in slot 0, its handle 0x0000_1000. -/
def aKey (u : Half) : KSlot := { type := 3, usage := u, owner := 0, charge := .pf, masked := zeros 32, mask := zeros 32 }
def anOwner : Owner := { mode := 0, salt := zeros 32, m := 2, n := 3, aonQuota := 4, cap := 0 }
/-- A FIELDED device in RUN with its root loaded, its link up and owner 0 in its table. -/
def dev : Dev := {
  now := 1000000000
  glb := { power := .run, boot := .done, vmainGood := true, vbatOk := true, rsvOk := true, perstN := true, bankCrd := .released }
  lc := { state := 2, base := 2 }
  key := { root := 2, owners := [(0, anOwner)], slots := [(0, aKey 0)] }
  hif := { up := true, link := .l0, width := 4, speed := 5 }
  sym := { rngInst := true }
  evr := { isOpen := true }
  mgt := { enabled := true } }
/-- The device with a key of a usage. -/
def keyDev (u : Half) : Dev := { dev with key.slots := [(0, aKey u)] }
def live (u : Half) : LiveKey := { ref := .slot 0, type := 3, usage := u, owner := 0, bytes := zeros 32 }
def S (d : Dev) : State := { toDev := d }
/-- A request of the PF with parameters. -/
def ask (p : Bytes) (cap : Nat := 0) : Request := { issuer := .pf, params := p, dataCap := cap }
/-- One that names the key of `keyDev`. -/
def askKey (p : Bytes) (cap : Nat := 0) : Request := { issuer := .pf, key := 0x1000, params := p, dataCap := cap }

/-! ### Free choices that have a value -/

theorem claimsOf {d : Dev} {c : Cmd} {n : Nat} (h : cellsFor n ≤ cellRoom d (holderOf c.issuer))
    (h' : d.yrd.tags.length + d.yrd.zeroing.length + cellsFor n ≤ recoveryBase) :
    ∃ y g k q, claimResult d c n = some { d with yrd := y, ldg := g, rng := k, reqs := q } := by
  have : ∃ e, claimResult d c n = some e := by
    unfold claimResult
    split
    · exact ⟨_, rfl⟩
    · obtain ⟨e, l, h⟩ := claimCells_isSome (d := d) (i := c.issuer) h h'
      rw [h]; exact ⟨_, rfl⟩
  obtain ⟨e, h⟩ := this
  obtain ⟨y, g, k, q, e⟩ := claimResult_frame h
  exact ⟨y, g, k, q, e ▸ h⟩

theorem claims {s : State} {op : Nat} {r : Request} {n : Nat} (h : cellsFor n ≤ cellRoom (took s op r) (holderOf r.issuer))
    (h' : s.yrd.tags.length + s.yrd.zeroing.length + cellsFor n ≤ recoveryBase) :
    ∃ y g k q, claimed s op r n { took s op r with yrd := y, ldg := g, rng := k, reqs := q } := claimsOf (c := asCmd s op r) h h'

theorem someSlot {d : Dev} (h : d.key.slots.length < 4096) : ∃ i, pickSlot d = some i := Option.isSome_iff_exists.mp (pickSlot_isSome h)


theorem slotFree {d : Dev} {c : Cmd} (hr : slotRoom d c.issuer c.owner.toNat = true) (h : d.key.slots.length < 4096) : (slotCheck d c).1 = false := by
  have hp := pickSlot_isSome h
  simp only [slotCheck, hr]
  cases hq : pickSlot d with
  | none => rw [hq] at hp; cases hp
  | some i => rfl

/-- The session a command of opcode `op` has opened, with its quorum met. -/
def metFor (op : Nat) (r : Request) (o : Nat) (rid : Nat := 0) : Session :=
  { owner := o, mEff := 2, digest := quorumDigest { rid, issuer := r.issuer, opcode := op, key := r.key, owner := r.ownerId, params := r.params, dataCap := r.dataCap },
    indices := 3, met := true, since := 0 }
/-- The device with that session. -/
def quorumMet (d : Dev) (op : Nat) (r : Request) (o : Nat) : Dev := { d with crd.session := some (metFor op r o d.nextRid) }

/-- The device once the gate has let that command pass. -/
def passed (d : Dev) (op : Nat) (r : Request) (o : Nat) : Dev :=
  { took (S (quorumMet d op r o)) op r with crd.session := some { metFor op r o d.nextRid with consumedBy := some d.nextRid } }

theorem gate_met (d : Dev) (op : Nat) (r : Request) (o : Nat) (h : (ownerOf d o).any (·.enrol.isNone) = true) :
    quorumGate (took (S (quorumMet d op r o)) op r) (asCmd (S (quorumMet d op r o)) op r) o =
      (passed d op r o, none) := by
  obtain ⟨w, hw, he⟩ : ∃ w, ownerOf d o = some w ∧ w.enrol.isNone = true := by
    cases hw : ownerOf d o with
    | none => rw [hw] at h; cases h
    | some w => exact ⟨w, rfl, by rw [hw] at h; exact h⟩
  have hw' : ownerOf (took (S (quorumMet d op r o)) op r) o = some w := hw
  have hs : (took (S (quorumMet d op r o)) op r).crd.session = some (metFor op r o d.nextRid) := rfl
  have hq : (metFor op r o d.nextRid).digest = quorumDigest (asCmd (S (quorumMet d op r o)) op r) := rfl
  have he' : w.enrol.isSome = false := by cases h : w.enrol <;> simp_all
  have ho : (metFor op r o d.nextRid).owner = o := rfl
  rw [quorumGate, ← hq]
  simp only [gateWith, hw', hs, he', ho, bne_self_eq_false, ne_eq, not_true_eq_false, decide_false]
  rfl

theorem reset_safe : Safety.Inv State.reset.toDev := ⟨fun _ => poolOk_empty, rfl, rfl, rfl⟩

theorem noLane {d : Dev} {c : Cmd} (h : (laned c && (List.range 12).all fun i => !laneUsable d i) = true) : mustWait d c = true := by
  simp only [Bool.and_eq_true, List.all_eq_true, List.mem_range, Bool.not_eq_true'] at h
  obtain ⟨hl, h⟩ := h
  have h8 : ∀ n f k, n ≤ 12 → 0 < n → scan (laneUsable d) n f k = none := by
    intro n f k hn hp
    cases hs : scan (laneUsable d) n f k with
    | none => rfl
    | some i => have := scan_some hp f k i hs; rw [h i (by omega)] at this; cases this.2
  have h4 : ∀ f k, scan (fun i => laneUsable d (8 + i)) 4 f k = none := by
    intro f k
    cases hs : scan (fun i => laneUsable d (8 + i)) 4 f k with
    | none => rfl
    | some i => have := scan_some (by omega) f k i hs; rw [h (8 + i) (by omega)] at this; cases this.2
  simp only [mustWait, hl, pickLane, pickLaneOf, Bool.and_true, h8 8 _ _ (by omega) (by omega), h4]
  cases hashLaned c <;> rfl

theorem someLane {d : Dev} {c : Cmd} (h : (laneUsable d 0 && laneUsable d 8) = true) : mustWait d c = false := by
  have := pickLane_isSome (hashLaned c) (Bool.and_eq_true_iff.mp h)
  simp only [mustWait]
  cases hp : pickLane d (hashLaned c) with
  | none => rw [hp] at this; cases this
  | some _ => simp

/-- A debug certificate for this unit whose fields are zero. -/
def aCert : Bytes := b2 0xD802 ++ [0, 0] ++ Config.deviceId ++ zeros 140
theorem deviceId_length : Config.deviceId.length = 16 := by simp [Config.deviceId, Config.fit]
theorem aCert_length : aCert.length = 160 := by simp [aCert, deviceId_length, b2, leBytes, zeros]
theorem aCert_before : firstFail (certBefore dev aCert) = none := by
  have h : slice aCert 4 16 = Config.deviceId := by
    have : aCert = ([0x02, 0xD8, 0, 0] ++ Config.deviceId) ++ zeros 140 := rfl
    rw [this, slice]
    have l := deviceId_length
    simp [l]
  have hf : certFlags aCert = 0 := rfl
  have hh : half aCert 0 = 0xD802 := rfl
  have hk : certKey aCert = 0 := rfl
  simp only [certBefore, h, hf, hh, hk, bne_self_eq_false]
  rfl

/-- A device in MAKER with a token presented. -/
def tokenDev (x : Bytes) : Dev := { dev with lc := { state := 1, base := 1 }, dbg.token := some { token := x, index := 31, state := 0 } }
theorem tokenPasses (x : Bytes) (h : (Config.sha384 (x ++ Config.deviceId ++ [0, 31])).take 16 = Config.tokenHash 0 31) :
    firstFail (tokenChecks (tokenDev x) { token := x, index := 31, state := 0 }) = none := by
  have h' : (Config.sha384 (x ++ Config.deviceId ++ [BitVec.ofNat 8 0, BitVec.ofNat 8 31])).take 16 = Config.tokenHash 0 31 := h
  have h1 : (!mainState (tokenDev x) || !testAllowed (tokenDev x).lc.state 0) = false := by simp [mainState, testAllowed, tokenDev]
  have h2 : tokenUsed (tokenDev x) 0 31 = false := by simp [tokenUsed, tokenDev, dev, tgetD, tget]
  simp only [tokenChecks, h', bne_self_eq_false, h1, h2, firstFail_cons_false, firstFail_nil]

/-- A request of the PF without parameters as it stands on a link: outer header with flags, command header with its CRC. -/
def aPacket (flags : Byte) : Bytes :=
  let h := b2 0x0101 ++ [0, 0] ++ leBytes 4 32 ++ zeros 20
  b2 0x4401 ++ [flags, 0, 0x7F, 0, 0, 0] ++ leBytes 4 32 ++ zeros 4 ++ h ++ b4 (crc32c h)

/-- The same with `n` zero bytes of parameters. -/
def aLong (n : Nat) : Bytes :=
  let h := b2 0x0101 ++ [0, 0] ++ leBytes 4 (32 + n) ++ zeros 16 ++ leBytes 4 n
  b2 0x4401 ++ [0, 0, 0x7F, 0, 0, 0] ++ leBytes 4 (32 + n) ++ zeros 4 ++ h ++ b4 (crc32c h)

theorem claimsCells (d : Dev) (i : Issuer) (n : Nat) (h : n ≤ cellRoom d (holderOf i) ∧ d.yrd.tags.length + d.yrd.zeroing.length + n ≤ recoveryBase) :
    ∃ y g k l, claimCells d i n = some ({ d with yrd := y, ldg := g, rng := k }, l) := by
  obtain ⟨e, l, hc⟩ := claimCells_isSome h.1 h.2
  obtain ⟨y, g, k, e⟩ := claimCells_frame hc
  exact ⟨y, g, k, l, e ▸ hc⟩


/-- A critical record of `n` bytes. -/
@[irreducible] def recOf (n : Nat) : LogRec := { seq := 0, bytes := zeros n, crit := true, attr := 0xFF }
theorem recOf_len (n : Nat) : (recOf n).len = n := by unfold recOf LogRec.len zeros; exact List.length_replicate
theorem recOf_crit (n : Nat) : (recOf n).crit = true := by unfold recOf; rfl
/-- A Logbook whose critical records leave no room. -/
theorem noRoom {d : Dev} {k n : Nat} (h : d.evr.failed = false) (hl : d.evr.log = [recOf k]) (hk : logCap < k + n) : takeRoom d n = none := by
  have hb : bytesOf d.evr.log = k := by simp [hl, bytesOf, recOf_len]
  have hc : critBytes d.evr.log = k := by simp [hl, critBytes, bytesOf, recOf_len, recOf_crit]
  have h1 : ¬ k + n ≤ logCap := by omega
  have h2 : ¬ k + n + lossLen ≤ logCap := by omega
  simp [takeRoom, h, makeRoom, hb, hc, h1, h2]
theorem sha384_length (m : Bytes) : (Config.sha384 m).length = 48 := by simp [Config.sha384, Config.fit]

theorem deviceId_ne {l : Bytes} (h : l.length ≠ 16) : l ≠ Config.deviceId := fun e => h (e ▸ deviceId_length)
theorem leNat_lt (l : Bytes) : leNat l < 256 ^ l.length := by
  induction l with
  | nil => exact Nat.one_pos
  | cons b l ih =>
    have hb := b.isLt
    have hp : 256 ^ (l.length + 1) = 256 * 256 ^ l.length := by rw [Nat.pow_succ, Nat.mul_comm]
    simp only [leNat, List.length_cons, hp]
    omega
theorem not_idLt : idLt (zeros 16 ++ [1]) Config.deviceId = false := by
  have h := leNat_lt Config.deviceId
  rw [deviceId_length] at h
  have e : leNat (zeros 16 ++ [1]) = 256 ^ 16 := by decide +kernel
  simp only [idLt, e, decide_eq_false_iff_not]
  omega
theorem deviceId_pos (h : 0 < leNat Config.deviceId) : idLt [0] Config.deviceId = true := decide_eq_true h
/-- What another unit says of itself. -/
def aBody : StatusBody := { devId := [1], lcState := 2, role := 1, fwVersion := 0, epoch := 7, admDigest := [], time := 0, attestPub := zeros 96 }
theorem admitted_one {d : Dev} (h : d.chn.admitted.contains [1] = true) : (admittedOf d).contains [1] = true := by
  unfold admittedOf
  split
  · exact h
  · rw [List.contains_cons, h, Bool.or_true]
theorem aBody_repl {d : Dev} (h : (d.chn.admitted.contains [1] && aBody.lcState == leaderLc d && aBody.fwVersion.toNat / 65536 == (leaderFw d).toNat / 65536 && d.chn.epoch == 0 && decide ((d.chn.view.filter fun p => p.2.body.devId == [1]).length ≤ 1)) = true) : peerInRepl d aBody = true := by
  simp only [Bool.and_eq_true] at h
  obtain ⟨⟨⟨⟨h0, h2⟩, h3⟩, h4⟩, h5⟩ := h
  have h1 := admitted_one h0
  have hi : ([1] != Config.deviceId) = true := bne_iff_ne.mpr (deviceId_ne (by decide))
  have he : (7 != d.chn.epoch) = true := by rw [eq_of_beq h4]; rfl
  have e : peerInRepl d aBody = (true && (admittedOf d).contains [1] && (aBody.lcState == leaderLc d) && true && (aBody.fwVersion.toNat / 65536 == (leaderFw d).toNat / 65536) && ([1] != Config.deviceId) && ((7 != d.chn.epoch) || aBody.admDigest == admDigestOf (admittedOf d)) && decide ((d.chn.view.filter fun p => p.2.body.devId == [1]).length ≤ 1)) := rfl
  rw [e, h1, h2, h3, hi, he, h5]; rfl
/-- A unit whose view shows no second unit of its own DEVICE_ID. -/
theorem self_repl {d : Dev} (h : (d.chn.role == .member && d.lc.state == leaderLc d && !lcLocked d && d.key.fwVersion.toNat / 65536 == (leaderFw d).toNat / 65536 && !d.chn.admMismatch) = true)
    (hv : d.chn.view.map (·.2.body.devId) = [[1]]) : selfInRepl d = true := by
  have : (d.chn.view.any fun p => p.2.body.devId == Config.deviceId) = (d.chn.view.map (·.2.body.devId)).any (· == Config.deviceId) := by simp [List.any_map, Function.comp_def]
  have hi : (([1] : Bytes) == Config.deviceId) = false := by
    rw [Bool.eq_false_iff]
    exact fun h => deviceId_ne (by decide) (eq_of_beq h)
  have ha : ([[1]] : List Bytes).any (· == Config.deviceId) = (([1] : Bytes) == Config.deviceId || false) := rfl
  rw [selfInRepl, h, this, hv, ha, hi]; rfl
/-- A member of a ring with one other unit at address 1. -/
def ring : Dev := { dev with chn := { role := .member, addrValid := true, units := 2, up := { up := true }, dn := { up := true }, admitted := [[1]], view := [(1, { body := aBody, seenAt := 0 })] } }
theorem lanePicked {d : Dev} (h : Bool) (n : Nat) (hu : (laneUsable d 0 && laneUsable d 8) = true) : ∃ l, Machine.laneFor d h n = some l := by
  obtain ⟨l, hl⟩ := Option.isSome_iff_exists.mp (pickLane_isSome h (Bool.and_eq_true_iff.mp hu))
  unfold Machine.laneFor
  cases pickLaneOf d h (laneBalance d n) with
  | some k => exact ⟨k, rfl⟩
  | none => exact ⟨l, hl⟩


/-! ### The witnesses -/

/-- States and operands that meet the hypotheses of `Obligations.StepRunsTheFront`, one for each of its clauses. -/
theorem meets_StepRunsTheFront :
  ∃ s : State, s.pending = [] := ⟨S dev, by first | decide +kernel | rfl⟩

/-- States and operands that meet the hypotheses of `Obligations.ResetValues`, one for each of its clauses. -/
theorem meets_ResetValues :
  ∃ x, x ∈ Safety.resetValuesA ++ Safety.resetValuesB ++ Safety.resetValuesC := ⟨(.glb, 0x18, 0), .head _⟩

/-- States and operands that meet the hypotheses of `Obligations.StepKeepsTheLedger`, one for each of its clauses. -/
theorem meets_StepKeepsTheLedger :
  ∃ s : State, ∃ t : State, Safety.ledgerOk s.toDev ∧ step s = .next t := ⟨_, _, reset_safe.1, rfl⟩

/-- States and operands that meet the hypotheses of `Obligations.StepKeepsTheByteStores`, one for each of its clauses. -/
theorem meets_StepKeepsTheByteStores :
  ∃ s : State, ∃ t : State, Safety.memoryOk s.toDev ∧ step s = .next t := ⟨_, _, reset_safe.2, rfl⟩

/-- States and operands that meet the hypotheses of `Obligations.CommandsAreGated`, one for each of its clauses. -/
theorem meets_CommandsAreGated :
  (∃ i : Instr, ∃ s : State, ∃ op : Nat, ∃ r : Request, ∃ who : Who, ∃ locked : Bool, catalogue i = some (op, r, who, locked) ∧ (s.glb.power = .doze ∨ s.glb.power = .standby)) ∧
  (∃ i : Instr, ∃ s : State, ∃ op : Nat, ∃ r : Request, ∃ who : Who, ∃ locked : Bool, catalogue i = some (op, r, who, locked) ∧ s.glb.power = .run ∧ mustWait (took s op r) (asCmd s op r) = false ∧ listed who r.issuer = false) ∧
  (∃ i : Instr, ∃ s : State, ∃ op : Nat, ∃ r : Request, ∃ who : Who, ∃ locked : Bool, catalogue i = some (op, r, who, locked) ∧ s.glb.power = .run ∧ mustWait (took s op r) (asCmd s op r) = false ∧ listed who r.issuer = true ∧ s.lc.state = 0xEE ∧ locked = false) :=
  ⟨⟨.pkSign { issuer := .mgt }, S { dev with glb.power := .doze }, 0x0301, { issuer := .mgt }, _, _, by and_intros <;> first | decide +kernel | exact .inl rfl | exact rfl | rfl⟩,
   ⟨.pkSign { issuer := .mgt }, S dev, 0x0301, { issuer := .mgt }, _, _, by and_intros <;> first | decide +kernel | exact rfl | rfl⟩,
   ⟨.pkSign (ask []), S { dev with lc.state := 0xEE }, 0x0301, ask [], { p := true, v := true, k := true }, false, by and_intros <;> first | decide +kernel | rfl⟩⟩

/-- States and operands that meet the hypotheses of `Obligations.InfoCommandsAnswer`, one for each of its clauses. -/
theorem meets_InfoCommandsAnswer :
  (∃ r : Request, ∃ s : State, s.glb.power = .run ∧ r.key = 0 ∧ r.ownerId = 0 ∧ r.issuer ≠ .secure ∧ s.lc.state ≠ 0xEE ∧ r.params = [] ∧ earlierOf (took s 0x0101 r) (asCmd s 0x0101 r) = []) ∧
  (∃ r : Request, ∃ s : State, s.glb.power = .run ∧ r.key = 0 ∧ r.ownerId = 0 ∧ r.issuer ≠ .secure ∧ s.lc.state ≠ 0xEE ∧ r.params = [] ∧ earlierOf (took s 0x0101 r) (asCmd s 0x0101 r) ≠ []) ∧
  (∃ r : Request, ∃ s : State, ∃ d : Dev, s.glb.power = .run ∧ r.key = 0 ∧ r.ownerId = 0 ∧ fromPVM r ∧ s.lc.state ≠ 0xEE ∧ r.params = [] ∧ 64 ≤ r.dataCap ∧ claimed s 0x0102 r 64 d) ∧
  (∃ r : Request, ∃ s : State, ∃ d : Dev, ∃ n : Fin 64, s.glb.power = .run ∧ r.key = 0 ∧ r.ownerId = 0 ∧ (r.issuer = .pf ∨ r.issuer = .stall n) ∧ s.lc.state ≠ 0xEE ∧ r.params = [BitVec.ofNat 8 n.val, 0, 0, 0] ∧ 32 ≤ r.dataCap ∧ claimed s 0x0103 r 32 d) ∧
  (∃ r : Request, ∃ s : State, ∃ n : Fin 64, ∃ m : Fin 64, s.glb.power = .run ∧ r.key = 0 ∧ r.ownerId = 0 ∧ r.issuer = .stall m ∧ n ≠ m ∧ s.lc.state ≠ 0xEE ∧ r.params = [BitVec.ofNat 8 n.val, 0, 0, 0] ∧ 32 ≤ r.dataCap) ∧
  (∃ r : Request, ∃ s : State, ∃ d : Dev, s.glb.power = .run ∧ r.key = 0 ∧ r.ownerId = 0 ∧ fromPM r ∧ s.lc.state ≠ 0xEE ∧ r.params = [] ∧ 8 ≤ r.dataCap ∧ claimed s 0x0506 r 8 d) ∧
  (∃ r : Request, ∃ s : State, ∃ d : Dev, s.glb.power = .run ∧ r.key = 0 ∧ r.ownerId = 0 ∧ fromPVM r ∧ r.params = [] ∧ 8 ≤ r.dataCap ∧ claimed s 0x0801 r 8 d) ∧
  (∃ r : Request, ∃ s : State, ∃ d : Dev, s.glb.power = .run ∧ r.key = 0 ∧ r.ownerId = 0 ∧ r.issuer = .pf ∧ s.lc.state ≠ 0xEE ∧ r.params = [] ∧ 256 ≤ r.dataCap ∧ claimed s 0x0F02 r 256 d) ∧
  (∃ r : Request, ∃ s : State, ∃ d : Dev, s.glb.power = .run ∧ r.key = 0 ∧ r.ownerId = 0 ∧ fromPM r ∧ s.lc.state ≠ 0xEE ∧ r.params = [] ∧ 256 ≤ r.dataCap ∧ claimed s 0x0701 r 256 d) :=
  ⟨⟨{ issuer := .pf }, S dev, by and_intros <;> first | decide +kernel | rfl⟩,
   ⟨{ issuer := .pf }, S { dev with reqs := [(0, { issuer := .pf, stage := .dispatched })], nextRid := 1 }, by and_intros <;> first | decide +kernel | exact List.cons_ne_nil _ _ | rfl⟩,
   by obtain ⟨y, g, k, q, hc⟩ := claims (s := S dev) (op := 0x0102) (r := ask [] 64) (n := 64) (by decide +kernel) (by decide +kernel); exact ⟨ask [] 64, S dev, _, by and_intros <;> first | decide +kernel | exact hc | rfl | exact .inl rfl⟩,
   by obtain ⟨y, g, k, q, hc⟩ := claims (s := S dev) (op := 0x0103) (r := ask [63, 0, 0, 0] 32) (n := 32) (by decide +kernel) (by decide +kernel); exact ⟨ask [63, 0, 0, 0] 32, S dev, _, 63, by and_intros <;> first | decide +kernel | exact hc | rfl⟩,
   ⟨{ issuer := .stall 1, params := [0, 0, 0, 0], dataCap := 32 }, S dev, 0, 1, by and_intros <;> first | decide +kernel | rfl⟩,
   by obtain ⟨y, g, k, q, hc⟩ := claims (s := S dev) (op := 0x0506) (r := ask [] 8) (n := 8) (by decide +kernel) (by decide +kernel); exact ⟨ask [] 8, S dev, _, by and_intros <;> first | decide +kernel | exact hc | rfl | exact .inl rfl⟩,
   by obtain ⟨y, g, k, q, hc⟩ := claims (s := S dev) (op := 0x0801) (r := ask [] 8) (n := 8) (by decide +kernel) (by decide +kernel); exact ⟨ask [] 8, S dev, _, by and_intros <;> first | decide +kernel | exact hc | rfl | exact .inl rfl⟩,
   by obtain ⟨y, g, k, q, hc⟩ := claims (s := S dev) (op := 0x0F02) (r := ask [] 256) (n := 256) (by decide +kernel) (by decide +kernel); exact ⟨ask [] 256, S dev, _, by and_intros <;> first | decide +kernel | exact hc | rfl⟩,
   by obtain ⟨y, g, k, q, hc⟩ := claims (s := S dev) (op := 0x0701) (r := ask [] 256) (n := 256) (by decide +kernel) (by decide +kernel); exact ⟨ask [] 256, S dev, _, by and_intros <;> first | decide +kernel | exact hc | rfl | exact .inl rfl⟩⟩

/-- States and operands that meet the hypotheses of `Obligations.KeyCommandsOnALiveKey`, one for each of its clauses. -/
theorem meets_KeyCommandsOnALiveKey :
  (∃ r : Request, ∃ s : State, ∃ k : LiveKey, ∃ d, opensKey s r k ∧ r.params = [] ∧ 8 ≤ r.dataCap ∧ claimed s 0x0209 r 8 d) ∧
  (∃ r : Request, ∃ s : State, ∃ k : LiveKey, opensKey s r k ∧ r.params = []) ∧
  (∃ r : Request, ∃ s : State, ∃ k : LiveKey, ∃ u : Half, opensKey s r k ∧ r.params = b2 u ++ [0, 0] ∧ (u &&& 0xF000) = 0 ∧ usageClash k.type u = false ∧ (u &&& ~~~k.usage) = 0) ∧
  (∃ r : Request, ∃ s : State, ∃ k : LiveKey, ∃ u : Half, ∃ d : Dev, opensKey s r k ∧ r.params = b2 u ++ [0, 0] ∧ (u &&& 0xF000) = 0 ∧ usageClash k.type u = false ∧ (u &&& ~~~k.usage) ≠ 0 ∧ quorumGate (took s 0x0206 r) (asCmd s 0x0206 r) r.ownerId.toNat = (d, none)) ∧
  (∃ r : Request, ∃ s : State, ∃ k : LiveKey, ∃ d, ∃ w, opensKey s r k ∧ r.params = [] ∧ r.keyMask = false ∧ hAon r.key = false ∧ k.usage.getLsbD uQuorum = false ∧ drbgReady s.toDev = true ∧ 64 + k.bytes.length ≤ r.dataCap ∧ ownerOf s.toDev r.ownerId.toNat = some w ∧ claimed s 0x0205 r (64 + k.bytes.length) d) ∧
  (∃ r : Request, ∃ s : State, ∃ k : LiveKey, ∃ dst : Byte, ∃ q : Dev, ∃ d : Dev, opensKey s r k ∧ r.params = [dst, 0, 0, 0] ∧ r.keyMask = false ∧ k.usage.getLsbD uExport = true ∧ (ownerOf s.toDev dst.toNat).isSome ∧ drbgReady s.toDev = true ∧ 16 + Config.kwLen 1 (16 + k.bytes.length) ≤ r.dataCap ∧ quorumGate (took s 0x0207 r) (asCmd s 0x0207 r) r.ownerId.toNat = (q, none) ∧ claimResult q (asCmd s 0x0207 r) (16 + Config.kwLen 1 (16 + k.bytes.length)) = some d) ∧
  (∃ r : Request, ∃ s : State, ∃ k : LiveKey, ∃ b : Nat, ∃ d : Dev, opensKey s r k ∧ r.params = [] ∧ r.keyMask = false ∧ k.bytes.length ≤ 96 ∧ k.usage.getLsbD uAon = true ∧ k.usage.getLsbD uQuorum = false ∧ drbgReady s.toDev = true ∧ bankRoom s.toDev r.ownerId.toNat = true ∧ 4 ≤ r.dataCap ∧ claimed s 0x0208 r 4 d ∧ pickBank d = some b) ∧
  (∃ r : Request, ∃ s : State, ∃ k : LiveKey, ∃ d : Dev, opensKey s r k ∧ k.type ≠ 0x40 ∧ publicType k.type = true ∧ r.params = leBytes 4 0 ∧ r.keyMask = false ∧ k.usage.getLsbD uQuorum = false ∧ drbgReady s.toDev = true ∧ pubSize k.type k.bytes.length 0 ≤ r.dataCap ∧ claimed s 0x020A r (pubSize k.type k.bytes.length 0) d) ∧
  (∃ r : Request, ∃ s : State, ∃ k : LiveKey, ∃ d, opensKey s r k ∧ r.keyMask = true ∧ k.usage.getLsbD uQuorum = false ∧ drbgReady s.toDev = true ∧ r.params = [] ∧ hAon r.key = false ∧ 64 + k.bytes.length ≤ r.dataCap ∧ claimed s 0x0205 r (64 + k.bytes.length) d) ∧
  (∃ r : Request, ∃ s : State, ∃ k : LiveKey, ∃ d, opensKey s r k ∧ r.keyMask = true ∧ k.usage.getLsbD uQuorum = false ∧ drbgReady s.toDev = true ∧ r.params = [] ∧ k.bytes.length ≤ 96 ∧ k.usage.getLsbD uAon = true ∧ bankRoom s.toDev r.ownerId.toNat = true ∧ 4 ≤ r.dataCap ∧ claimed s 0x0208 r 4 d) :=
  ⟨by obtain ⟨y, g, k, q, hc⟩ := claims (s := S (keyDev 0x30)) (op := 0x0209) (r := askKey [] 8) (n := 8) (by decide +kernel) (by decide +kernel); exact ⟨askKey [] 8, S (keyDev 0x30), live 0x30, _, by and_intros <;> first | decide +kernel | exact hc | exact .inl rfl | rfl⟩,
   ⟨askKey [], S (keyDev 0x30), live 0x30, by and_intros <;> first | decide +kernel | exact .inl rfl | rfl⟩,
   ⟨askKey [0x10, 0, 0, 0], S (keyDev 0x30), live 0x30, 0x10, by and_intros <;> first | decide +kernel | exact .inl rfl | rfl⟩,
   ⟨askKey [0x30, 1, 0, 0], S (quorumMet (keyDev 0x30) 0x0206 (askKey [0x30, 1, 0, 0]) 0), live 0x30, 0x130, _, by and_intros <;> first | decide +kernel | exact .inl rfl | exact gate_met _ _ _ _ rfl | rfl⟩,
   by obtain ⟨y, g, k, q, hc⟩ := claims (s := S (keyDev 0x30)) (op := 0x0205) (r := askKey [] 96) (n := (64 + (live 0x30 : LiveKey).bytes.length)) (by decide +kernel) (by decide +kernel); exact ⟨askKey [] 96, S (keyDev 0x30), live 0x30, _, _, by and_intros <;> first | decide +kernel | exact hc | exact .inl rfl | rfl⟩,
   by obtain ⟨y, g, k, q, hc⟩ := claimsOf (d := passed (keyDev 0x100) 0x0207 (askKey [0, 0, 0, 0] 72) 0) (c := asCmd (S (quorumMet (keyDev 0x100) 0x0207 (askKey [0, 0, 0, 0] 72) 0)) 0x0207 (askKey [0, 0, 0, 0] 72)) (n := 72) (by decide +kernel) (by decide +kernel); exact ⟨askKey [0, 0, 0, 0] 72, S (quorumMet (keyDev 0x100) 0x0207 (askKey [0, 0, 0, 0] 72) 0), live 0x100, 0, passed (keyDev 0x100) 0x0207 (askKey [0, 0, 0, 0] 72) 0, _, by and_intros <;> first | decide +kernel | exact .inl rfl | exact gate_met _ _ _ _ rfl | exact hc | rfl⟩,
   by obtain ⟨y, g, k, q, hc⟩ := claims (s := S (keyDev 0x200)) (op := 0x0208) (r := askKey [] 4) (n := 4) (by decide +kernel) (by decide +kernel); exact ⟨askKey [] 4, S (keyDev 0x200), live 0x200, _, _, by and_intros <;> first | decide +kernel | exact hc | exact .inl rfl | rfl⟩,
   by obtain ⟨y, g, k, q, hc⟩ := claims (s := S { dev with key.slots := [(0, { aKey 8 with type := 0x21 })] }) (op := 0x020A) (r := askKey [0, 0, 0, 0] 4096) (n := (pubSize ({ live 8 with type := 0x21 } : LiveKey).type ({ live 8 with type := 0x21 } : LiveKey).bytes.length 0)) (by decide +kernel) (by decide +kernel); exact ⟨askKey [0, 0, 0, 0] 4096, S { dev with key.slots := [(0, { aKey 8 with type := 0x21 })] }, { live 8 with type := 0x21 }, _, by and_intros <;> first | decide +kernel | exact hc | exact .inl rfl | rfl⟩,
   by obtain ⟨y, g, k, q, hc⟩ := claims (s := S (keyDev 0x30)) (op := 0x0205) (r := { askKey [] 96 with keyMask := true }) (n := (64 + (live 0x30 : LiveKey).bytes.length)) (by decide +kernel) (by decide +kernel); exact ⟨{ askKey [] 96 with keyMask := true }, S (keyDev 0x30), live 0x30, _, by and_intros <;> first | decide +kernel | exact hc | exact .inl rfl | rfl⟩,
   by obtain ⟨y, g, k, q, hc⟩ := claims (s := S (keyDev 0x200)) (op := 0x0208) (r := { askKey [] 4 with keyMask := true }) (n := 4) (by decide +kernel) (by decide +kernel); exact ⟨{ askKey [] 4 with keyMask := true }, S (keyDev 0x200), live 0x200, _, by and_intros <;> first | decide +kernel | exact hc | exact .inl rfl | rfl⟩⟩

/-- States and operands that meet the hypotheses of `Obligations.KeyCommandsFillASlot`, one for each of its clauses. -/
theorem meets_KeyCommandsFillASlot :
  (∃ r : Request, ∃ s : State, ∃ d : Dev, ∃ i : Nat, ∃ t : Byte, ∃ u : Half, ∃ size : Half, (u &&& 0xF000) = 0 ∧ usageClash t u = false ∧ opensSlot s 0x0201 r ∧ r.key = 0 ∧ r.params = [t, 0] ++ b2 u ++ b2 size ++ [0, 0] ∧ (isSym t = true ∨ t = 0x40) ∧ genSizeOk t size.toNat = true ∧ 8 ≤ r.dataCap ∧ claimed s 0x0201 r 8 d ∧ pickSlot (draw d (genLen t size.toNat)).2 = some i) ∧
  (∃ r : Request, ∃ s : State, ∃ d : Dev, ∃ i : Nat, ∃ t : Byte, ∃ u : Half, ∃ k : Bytes, ∃ q : Dev, (u &&& 0xF000) = 0 ∧ usageClash t u = false ∧ r.key = 0 ∧ r.params = [0, t] ++ b2 u ++ leBytes 2 k.length ++ [0, 0] ++ zeros 4 ++ leBytes 4 k.length ++ k ∧ k.length ≤ 1088 ∧ storedLenOk t k.length = true ∧ formValid t k = true ∧ opensSlot s 0x0202 r ∧ 4 ≤ r.dataCap ∧ quorumGate (took s 0x0202 r) (asCmd s 0x0202 r) r.ownerId.toNat = (q, none) ∧ claimResult q (asCmd s 0x0202 r) 4 = some d ∧ pickSlot d = some i) ∧
  (∃ r : Request, ∃ s : State, ∃ d : Dev, ∃ i : Nat, ∃ t : Byte, ∃ u : Half, ∃ w : LiveKey, ∃ h : Word, ∃ len : Half, ∃ x : Bytes, (u &&& 0xF000) = 0 ∧ usageClash t u = false ∧ opensKey s { r with key := h } w ∧ r.keyMask = false ∧ r.key = 0 ∧ r.params = [1, t] ++ b2 u ++ b2 len ++ [0, 0] ++ b4 h ++ leBytes 4 x.length ++ x ∧ x.length < 2 ^ 32 ∧ len.toNat ≤ 1088 ∧ storedLenOk t len.toNat = true ∧ 16 ≤ x.length ∧ x.length % 8 = 0 ∧ isAes w.type = true ∧ w.usage.getLsbD uUnwrap = true ∧ w.usage.getLsbD uQuorum = false ∧ opensSlot s 0x0202 r ∧ 4 ≤ r.dataCap ∧ claimed s 0x0202 r 4 d ∧ pickSlot (touchKey d w.ref) = some i) ∧
  (∃ r : Request, ∃ s : State, ∃ d : Dev, ∃ i : Nat, ∃ t : Byte, ∃ u : Half, ∃ src : Byte, ∃ len : Half, ∃ x : Bytes, (u &&& 0xF000) = 0 ∧ usageClash t u = false ∧ opensSlot s 0x0202 r ∧ r.key = 0 ∧ r.params = [2, t] ++ b2 u ++ b2 len ++ [src, 0] ++ zeros 4 ++ leBytes 4 (16 + x.length) ++ packHeader t u len.toNat src (r.ownerId.setWidth 8) ++ x ∧ x.length < 2 ^ 31 ∧ len.toNat ≤ 1088 ∧ storedLenOk t len.toNat = true ∧ 16 ≤ x.length ∧ x.length % 8 = 0 ∧ 4 ≤ r.dataCap ∧ claimed s 0x0202 r 4 d ∧ pickSlot d = some i) ∧
  (∃ r : Request, ∃ s : State, ∃ d : Dev, ∃ i : Nat, ∃ t : Byte, ∃ u : Half, ∃ w : Owner, ∃ h : Bytes, ∃ iv : Bytes, ∃ hint : Bytes, ∃ serial : Bytes, ∃ ct : Bytes, ∃ tag : Bytes, (u &&& 0xF000) = 0 ∧ usageClash t u = false ∧ opensSlot s 0x0203 r ∧ ownerOf s.toDev r.ownerId.toNat = some w ∧ r.key = 0 ∧ h = b2 0xB401 ++ [t, 0] ++ b2 u ++ leBytes 2 ct.length ++ [r.ownerId.setWidth 8, w.mode, s.lc.state, 0] ++ iv ++ hint ++ serial ++ zeros 8 ∧ iv.length = 12 ∧ hint.length = 8 ∧ serial.length = 8 ∧ tag.length = 16 ∧ r.params = h ++ ct ++ tag ∧ r.ownerId.toNat < 256 ∧ ct.length ≤ 1088 ∧ storedLenOk t ct.length = true ∧ (w.mode = 1 → hint = s.key.fwMeas.take 8) ∧ 4 ≤ r.dataCap ∧ claimed s 0x0203 r 4 d ∧ pickSlot d = some i) :=
  ⟨by obtain ⟨y, g, k, q, hc⟩ := claims (s := S { dev with key.slots := [] }) (op := 0x0201) (r := ask [3, 0, 3, 0, 0, 0, 0, 0] 8) (n := 8) (by decide +kernel) (by decide +kernel); exact ⟨ask [3, 0, 3, 0, 0, 0, 0, 0] 8, S { dev with key.slots := [] }, _, _, 3, 3, 0, by and_intros <;> first | decide +kernel | exact hc | exact .inl rfl | exact slotFree (by decide +kernel) (by decide +kernel) | rfl⟩,
   by obtain ⟨y, g, k, q, hc⟩ := claimsOf (d := passed ({ dev with key.slots := [] }) 0x0202 (ask ([0, 3, 3, 0, 32, 0, 0, 0, 0, 0, 0, 0, 32, 0, 0, 0] ++ zeros 32) 4) 0) (c := asCmd (S (quorumMet ({ dev with key.slots := [] }) 0x0202 (ask ([0, 3, 3, 0, 32, 0, 0, 0, 0, 0, 0, 0, 32, 0, 0, 0] ++ zeros 32) 4) 0)) 0x0202 (ask ([0, 3, 3, 0, 32, 0, 0, 0, 0, 0, 0, 0, 32, 0, 0, 0] ++ zeros 32) 4)) (n := 4) (by decide +kernel) (by decide +kernel); exact ⟨ask ([0, 3, 3, 0, 32, 0, 0, 0, 0, 0, 0, 0, 32, 0, 0, 0] ++ zeros 32) 4, S (quorumMet ({ dev with key.slots := [] }) 0x0202 (ask ([0, 3, 3, 0, 32, 0, 0, 0, 0, 0, 0, 0, 32, 0, 0, 0] ++ zeros 32) 4) 0), _, _, 3, 3, zeros 32, passed ({ dev with key.slots := [] }) 0x0202 (ask ([0, 3, 3, 0, 32, 0, 0, 0, 0, 0, 0, 0, 32, 0, 0, 0] ++ zeros 32) 4) 0, by and_intros <;> first | decide +kernel | exact .inl rfl | exact slotFree (by decide +kernel) (by decide +kernel) | exact gate_met _ _ _ _ rfl | exact hc | rfl⟩,
   by obtain ⟨y, g, k, q, hc⟩ := claims (s := S (keyDev 0x20)) (op := 0x0202) (r := ask ([1, 3, 3, 0, 32, 0, 0, 0, 0, 0x10, 0, 0, 40, 0, 0, 0] ++ zeros 40) 4) (n := 4) (by decide +kernel) (by decide +kernel); obtain ⟨i, hi⟩ := someSlot (d := touchKey { took (S (keyDev 0x20)) 0x0202 (ask ([1, 3, 3, 0, 32, 0, 0, 0, 0, 0x10, 0, 0, 40, 0, 0, 0] ++ zeros 40) 4) with yrd := y, ldg := g, rng := k, reqs := q } (.slot 0)) (of_decide_eq_true rfl); exact ⟨ask ([1, 3, 3, 0, 32, 0, 0, 0, 0, 0x10, 0, 0, 40, 0, 0, 0] ++ zeros 40) 4, S (keyDev 0x20), _, i, 3, 3, live 0x20, 0x1000, 32, zeros 40, by and_intros <;> first | decide +kernel | exact .inl rfl | exact slotFree (by decide +kernel) (by decide +kernel) | exact .inl rfl | exact hc | exact hi | rfl⟩,
   by obtain ⟨y, g, k, q, hc⟩ := claims (s := S { dev with key.slots := [] }) (op := 0x0202) (r := ask ([2, 3, 3, 0, 32, 0, 0, 0, 0, 0, 0, 0, 72, 0, 0, 0] ++ packHeader 3 3 32 0 0 ++ zeros 56) 4) (n := 4) (by decide +kernel) (by decide +kernel); exact ⟨ask ([2, 3, 3, 0, 32, 0, 0, 0, 0, 0, 0, 0, 72, 0, 0, 0] ++ packHeader 3 3 32 0 0 ++ zeros 56) 4, S { dev with key.slots := [] }, _, _, 3, 3, 0, 32, zeros 56, by and_intros <;> first | decide +kernel | exact hc | exact .inl rfl | exact slotFree (by decide +kernel) (by decide +kernel) | rfl⟩,
   by obtain ⟨y, g, k, q, hc⟩ := claims (s := S { dev with key.slots := [] }) (op := 0x0203) (r := ask ((b2 0xB401 ++ [3, 0] ++ b2 3 ++ leBytes 2 32 ++ [0, 0, 2, 0] ++ zeros 12 ++ zeros 8 ++ zeros 8 ++ zeros 8) ++ zeros 32 ++ zeros 16) 4) (n := 4) (by decide +kernel) (by decide +kernel); exact ⟨ask ((b2 0xB401 ++ [3, 0] ++ b2 3 ++ leBytes 2 32 ++ [0, 0, 2, 0] ++ zeros 12 ++ zeros 8 ++ zeros 8 ++ zeros 8) ++ zeros 32 ++ zeros 16) 4, S { dev with key.slots := [] }, _, _, 3, 3, anOwner, _, zeros 12, zeros 8, zeros 8, zeros 32, zeros 16, by and_intros <;> first | decide +kernel | exact hc | exact .inl rfl | exact slotFree (by decide +kernel) (by decide +kernel) | rfl⟩⟩

/-- States and operands that meet the hypotheses of `Obligations.PublicKeyCommandsWaitForAnEngine`, one for each of its clauses. -/
theorem meets_PublicKeyCommandsWaitForAnEngine :
  (∃ r : Request, ∃ s : State, ∃ op : Nat, ∃ i : Instr, ∃ st, (op, i) ∈ [(0x0201, Instr.keyGenerate r), (0x020A, .keyPublic r), (0x0301, .pkSign r), (0x0302, .pkVerify r), (0x0303, .pkEncaps r), (0x0304, .pkDecaps r), (0x0305, .pkAgree r), (0x0306, .pkMacRun r)] ∧ s.glb.power = .run ∧ (op = 0x0201 → isSym (byteAt r.params 0) = false ∧ byteAt r.params 0 ≠ 0x40) ∧ (op = 0x020A → keyType (took s op r) (asCmd s op r) r.key = 0x40) ∧ firstFail (pkPlan (took s op r) (asCmd s op r)).pre = some st) ∧
  (∃ r : Request, ∃ s : State, ∃ op : Nat, ∃ i : Instr, (op, i) ∈ [(0x0201, Instr.keyGenerate r), (0x020A, .keyPublic r), (0x0301, .pkSign r), (0x0302, .pkVerify r), (0x0303, .pkEncaps r), (0x0304, .pkDecaps r), (0x0305, .pkAgree r), (0x0306, .pkMacRun r)] ∧ s.glb.power = .run ∧ (op = 0x0201 → isSym (byteAt r.params 0) = false ∧ byteAt r.params 0 ≠ 0x40) ∧ (op = 0x020A → keyType (took s op r) (asCmd s op r) r.key = 0x40) ∧ firstFail (pkPlan (took s op r) (asCmd s op r)).pre = none ∧ canServe s.toDev (op == 0x0306) false = true ∧ (freeEngine s.toDev (op == 0x0306) false = false ∨ ∃ d o, pkTry (took s op r) (asCmd s op r) (pkPlan (took s op r) (asCmd s op r)) true = (d, .inr o))) ∧
  (∃ r : Request, ∃ s : State, ∃ op : Nat, ∃ i : Instr, ∃ d, ∃ st, (op, i) ∈ [(0x0201, Instr.keyGenerate r), (0x020A, .keyPublic r), (0x0301, .pkSign r), (0x0302, .pkVerify r), (0x0303, .pkEncaps r), (0x0304, .pkDecaps r), (0x0305, .pkAgree r), (0x0306, .pkMacRun r)] ∧ s.glb.power = .run ∧ (op = 0x0201 → isSym (byteAt r.params 0) = false ∧ byteAt r.params 0 ≠ 0x40) ∧ (op = 0x020A → keyType (took s op r) (asCmd s op r) r.key = 0x40) ∧ firstFail (pkPlan (took s op r) (asCmd s op r)).pre = none ∧ freeEngine s.toDev (op == 0x0306) false = true ∧ pkTry (took s op r) (asCmd s op r) (pkPlan (took s op r) (asCmd s op r)) true = (d, .inl st) ∧ st ≠ ST.noCells) ∧
  (∃ r : Request, ∃ s : State, ∃ op : Nat, ∃ i : Instr, ∃ d, (op, i) ∈ [(0x0201, Instr.keyGenerate r), (0x020A, .keyPublic r), (0x0301, .pkSign r), (0x0302, .pkVerify r), (0x0303, .pkEncaps r), (0x0304, .pkDecaps r), (0x0305, .pkAgree r), (0x0306, .pkMacRun r)] ∧ s.glb.power = .run ∧ (op = 0x0201 → isSym (byteAt r.params 0) = false ∧ byteAt r.params 0 ≠ 0x40) ∧ (op = 0x020A → keyType (took s op r) (asCmd s op r) r.key = 0x40) ∧ firstFail (pkPlan (took s op r) (asCmd s op r)).pre = none ∧ canServe s.toDev (op == 0x0306) false = false ∧ pkTry (took s op r) (asCmd s op r) (pkPlan (took s op r) (asCmd s op r)) false = (d, .inl ST.busy)) :=
  ⟨⟨askKey [], S (keyDev 4), 0x0301, .pkSign (askKey []), _, by and_intros <;> first | decide +kernel | rfl⟩,
   ⟨ask ([0, 0, 0, 0x23, 0, 0, 0, 0, 64, 0, 0, 0, 32, 0, 0, 0] ++ zeros 96), S dev, 0x0302, .pkVerify (ask ([0, 0, 0, 0x23, 0, 0, 0, 0, 64, 0, 0, 0, 32, 0, 0, 0] ++ zeros 96)), by and_intros <;> first | decide +kernel | exact .inr ⟨_, _, rfl⟩ | rfl | exact .inl rfl⟩,
   ⟨askKey [0, 0, 0, 0, 0, 0, 0, 0], S (keyDev 4), 0x0301, .pkSign (askKey [0, 0, 0, 0, 0, 0, 0, 0]), _, _, by and_intros <;> first | decide +kernel | rfl⟩,
   ⟨ask ([0, 0, 0, 0x23, 0, 0, 0, 0, 64, 0, 0, 0, 32, 0, 0, 0] ++ zeros 96), S { dev with pke := [(0, { clk := 3 }), (1, { clk := 3 }), (2, { clk := 3 }), (3, { clk := 3 })] }, 0x0302, .pkVerify (ask ([0, 0, 0, 0x23, 0, 0, 0, 0, 64, 0, 0, 0, 32, 0, 0, 0] ++ zeros 96)), _, by and_intros <;> first | decide +kernel | rfl⟩⟩

/-- States and operands that meet the hypotheses of `Obligations.SymmetricCommandsStartALane`, one for each of its clauses. -/
theorem meets_SymmetricCommandsStartALane :
  (∃ r : Request, ∃ s : State, ∃ op : Nat, ∃ i : Instr, (op, i) ∈ [(0x0401, Instr.symCipher r), (0x0402, .symMac r), (0x0403, .hash r), (0x0404, .symKdf r), (0x0405, .symKw r), (0x0406, .symRng r)] ∧ s.glb.power = .run ∧ mustWait s.toDev (asCmd s op r) = true) ∧
  (∃ r : Request, ∃ s : State, ∃ op : Nat, ∃ i : Instr, ∃ st, (op, i) ∈ [(0x0401, Instr.symCipher r), (0x0402, .symMac r), (0x0403, .hash r), (0x0404, .symKdf r), (0x0405, .symKw r), (0x0406, .symRng r)] ∧ s.glb.power = .run ∧ mustWait s.toDev (asCmd s op r) = false ∧ firstFail (symPlan (took s op r) (asCmd s op r)).checks = some st) ∧
  (∃ r : Request, ∃ s : State, ∃ op : Nat, ∃ i : Instr, ∃ d, ∃ l, (op, i) ∈ [(0x0401, Instr.symCipher r), (0x0402, .symMac r), (0x0403, .hash r), (0x0404, .symKdf r), (0x0405, .symKw r), (0x0406, .symRng r)] ∧ s.glb.power = .run ∧ mustWait s.toDev (asCmd s op r) = false ∧ firstFail (symPlan (took s op r) (asCmd s op r)).checks = none ∧ (symPlan (took s op r) (asCmd s op r)).quorum = none ∧ firstFail (symPlan (took s op r) (asCmd s op r)).resources = none ∧ claimed s op r (symPlan (took s op r) (asCmd s op r)).res d ∧ maskBad (asCmd s op r) = false ∧ laneFor d (hashLaned (asCmd s op r)) (issuerIdx r.issuer) = some l) ∧
  (∃ r : Request, ∃ s : State, ∃ op : Nat, ∃ i : Instr, ∃ d, (op, i) ∈ [(0x0401, Instr.symCipher r), (0x0402, .symMac r), (0x0403, .hash r), (0x0404, .symKdf r), (0x0405, .symKw r), (0x0406, .symRng r)] ∧ s.glb.power = .run ∧ mustWait s.toDev (asCmd s op r) = false ∧ firstFail (symPlan (took s op r) (asCmd s op r)).checks = none ∧ (symPlan (took s op r) (asCmd s op r)).quorum = none ∧ firstFail (symPlan (took s op r) (asCmd s op r)).resources = none ∧ claimed s op r (symPlan (took s op r) (asCmd s op r)).res d ∧ maskBad (asCmd s op r) = true) :=
  ⟨⟨ask [1, 0, 0, 0, 0, 0, 0, 0] 32, S { dev with sym.laneOos := 0xFFF }, 0x0403, .hash (ask [1, 0, 0, 0, 0, 0, 0, 0] 32), by and_intros <;> first | decide +kernel | exact noLane rfl | rfl⟩,
   ⟨ask [], S dev, 0x0403, .hash (ask []), _, by and_intros <;> first | decide +kernel | exact someLane rfl | rfl⟩,
   by obtain ⟨y, g, k, q, hc⟩ := claims (s := S dev) (op := 0x0403) (r := ask [1, 0, 0, 0, 0, 0, 0, 0] 32) (n := (symPlan (took (S dev) 0x0403 (ask [1, 0, 0, 0, 0, 0, 0, 0] 32)) (asCmd (S dev) 0x0403 (ask [1, 0, 0, 0, 0, 0, 0, 0] 32))).res) (by decide +kernel) (by decide +kernel); obtain ⟨l, hl⟩ := lanePicked (d := { took (S dev) 0x0403 (ask [1, 0, 0, 0, 0, 0, 0, 0] 32) with yrd := y, ldg := g, rng := k, reqs := q }) (hashLaned (asCmd (S dev) 0x0403 (ask [1, 0, 0, 0, 0, 0, 0, 0] 32))) 64 (show (laneUsable dev 0 && laneUsable dev 8) = true by decide +kernel); exact ⟨ask [1, 0, 0, 0, 0, 0, 0, 0] 32, S dev, 0x0403, .hash (ask [1, 0, 0, 0, 0, 0, 0, 0] 32), _, l, by and_intros <;> first | exact hc | exact hl | exact someLane rfl | decide +kernel | rfl | exact Or.inl rfl⟩,
   by obtain ⟨y, g, k, q, hc⟩ := claims (s := S (keyDev 4)) (op := 0x0402) (r := { askKey [0, 0, 16, 0, 0, 0, 0, 0] 16 with keyMask := true }) (n := (symPlan (took (S (keyDev 4) : State) (0x0402 : Nat) ({ askKey [0, 0, 16, 0, 0, 0, 0, 0] 16 with keyMask := true } : Request)) (asCmd (S (keyDev 4) : State) (0x0402 : Nat) ({ askKey [0, 0, 16, 0, 0, 0, 0, 0] 16 with keyMask := true } : Request))).res) (by decide +kernel) (by decide +kernel); exact ⟨{ askKey [0, 0, 16, 0, 0, 0, 0, 0] 16 with keyMask := true }, S (keyDev 4), 0x0402, .symMac ({ askKey [0, 0, 16, 0, 0, 0, 0, 0] 16 with keyMask := true }), _, by and_intros <;> first | decide +kernel | exact hc | exact someLane rfl | rfl⟩⟩

/-- States and operands that meet the hypotheses of `Obligations.RandomAndHash`, one for each of its clauses. -/
theorem meets_RandomAndHash :
  (∃ r : Request, ∃ s : State, ∃ d : Dev, ∃ n, ∃ l, (r.issuer = .pf ∨ (∃ n, r.issuer = .stall n) ∨ (∃ o, r.issuer = .krovlo o)) ∧ s.glb.power = .run ∧ r.key = 0 ∧ r.ownerId = 0 ∧ s.lc.state ≠ 0xEE ∧ 1 ≤ n ∧ n ≤ 4096 ∧ r.params = leBytes 4 n ∧ n ≤ r.dataCap ∧ drbgReady s.toDev = true ∧ mustWait s.toDev (asCmd s 0x0406 r) = false ∧ claimed s 0x0406 r n d ∧ laneFor d false (issuerIdx r.issuer) = some l) ∧
  (∃ r : Request, ∃ s : State, ∃ n, (r.issuer = .pf ∨ (∃ n, r.issuer = .stall n) ∨ (∃ o, r.issuer = .krovlo o)) ∧ s.glb.power = .run ∧ r.key = 0 ∧ r.ownerId = 0 ∧ s.lc.state ≠ 0xEE ∧ 1 ≤ n ∧ n ≤ 4096 ∧ r.params = leBytes 4 n ∧ n ≤ r.dataCap ∧ drbgReady s.toDev = false ∧ mustWait s.toDev (asCmd s 0x0406 r) = false) ∧
  (∃ r : Request, ∃ s : State, ∃ d : Dev, ∃ h : Byte, ∃ m : Bytes, ∃ l : Nat, (r.issuer = .pf ∨ (∃ n, r.issuer = .stall n) ∨ (∃ o, r.issuer = .krovlo o)) ∧ s.glb.power = .run ∧ r.key = 0 ∧ r.ownerId = 0 ∧ s.lc.state ≠ 0xEE ∧ 1 ≤ h.toNat ∧ h.toNat ≤ 7 ∧ m.length < 2 ^ 32 ∧ r.params = [h, 0, 0, 0] ++ leBytes 4 m.length ++ m ∧ Config.digestLen h.toNat ≤ r.dataCap ∧ mustWait s.toDev (asCmd s 0x0403 r) = false ∧ claimed s 0x0403 r (Config.digestLen h.toNat) d ∧ laneFor d true (issuerIdx r.issuer) = some l) :=
  ⟨by obtain ⟨y, g, k, q, hc⟩ := claims (s := S dev) (op := 0x0406) (r := ask [0, 16, 0, 0] 4096) (n := 4096) (by decide +kernel) (by decide +kernel); obtain ⟨l, hl⟩ := lanePicked (d := { took (S dev) 0x0406 (ask [0, 16, 0, 0] 4096) with yrd := y, ldg := g, rng := k, reqs := q }) false 64 (show (laneUsable dev 0 && laneUsable dev 8) = true by decide +kernel); exact ⟨ask [0, 16, 0, 0] 4096, S dev, _, 4096, l, by and_intros <;> first | exact hc | exact hl | exact someLane rfl | decide +kernel | rfl | exact Or.inl rfl⟩,
   ⟨ask [1, 0, 0, 0] 1, S { dev with sym.rngFailed := true }, 1, by and_intros <;> first | decide +kernel | exact someLane rfl | exact .inl rfl | rfl | exact .inl rfl⟩,
   by obtain ⟨y, g, k, q, hc⟩ := claims (s := S dev) (op := 0x0403) (r := ask [7, 0, 0, 0, 0, 0, 0, 0] 64) (n := (Config.digestLen 7)) (by decide +kernel) (by decide +kernel); obtain ⟨l, hl⟩ := lanePicked (d := { took (S dev) 0x0403 (ask [7, 0, 0, 0, 0, 0, 0, 0] 64) with yrd := y, ldg := g, rng := k, reqs := q }) true 64 (show (laneUsable dev 0 && laneUsable dev 8) = true by decide +kernel); exact ⟨ask [7, 0, 0, 0, 0, 0, 0, 0] 64, S dev, _, 7, [], l, by and_intros <;> first | exact hc | exact hl | exact someLane rfl | decide +kernel | rfl | exact Or.inl rfl⟩⟩

/-- States and operands that meet the hypotheses of `Obligations.OwnerCommandsAct`, one for each of its clauses. -/
theorem meets_OwnerCommandsAct :
  (∃ r : Request, ∃ s : State, ∃ d : Dev, ∃ mode : Byte, ∃ m : Byte, ∃ n : Byte, ∃ q : Byte, ∃ cap : Half, s.glb.power = .run ∧ r.issuer = .pf ∧ r.key = 0 ∧ s.lc.state ≠ 0xEE ∧ s.key.tableBad = false ∧ r.params = [mode, m, n, q] ++ b2 cap ++ [0, 0] ∧ mode.toNat ≤ 1 ∧ 1 ≤ m.toNat ∧ m.toNat ≤ 5 ∧ m.toNat ≤ n.toNat ∧ n.toNat ≤ 8 ∧ (s.lc.state = 3 → m ≠ 1) ∧ ownerOf s.toDev r.ownerId.toNat = none ∧ drbgReady s.toDev = true ∧ quotaSum s.toDev r.ownerId.toNat + q.toNat ≤ 64 ∧ ((r.ownerId = 0 ∧ (s.lc.state = 1 ∨ s.lc.state = 2) ∧ d = took s 0x0501 r) ∨ (r.ownerId ≠ 0 ∧ quorumGate (took s 0x0501 r) (asCmd s 0x0501 r) 0 = (d, none)))) ∧
  (∃ r : Request, ∃ s : State, ∃ d : Dev, ∃ w : Owner, s.glb.power = .run ∧ r.issuer = .pf ∧ r.key = 0 ∧ s.lc.state ≠ 0xEE ∧ s.key.tableBad = false ∧ r.params = [0, 0, 0, 0] ∧ r.ownerId ≠ 0 ∧ ownerOf s.toDev r.ownerId.toNat = some w ∧ quorumGate (took s 0x0502 r) (asCmd s 0x0502 r) r.ownerId.toNat = (d, none)) ∧
  (∃ r : Request, ∃ s : State, ∃ d : Dev, ∃ w : Owner, s.glb.power = .run ∧ r.issuer = .pf ∧ r.key = 0 ∧ s.lc.state ≠ 0xEE ∧ s.key.tableBad = false ∧ r.params = [1, 0, 0, 0] ∧ r.ownerId ≠ 0 ∧ ownerOf s.toDev r.ownerId.toNat = some w ∧ s.evr.failed = false ∧ s.evr.critFull = false ∧ quorumGate (took s 0x0502 r) (asCmd s 0x0502 r) 0 = (d, none)) ∧
  (∃ r : Request, ∃ s : State, ∃ d : Dev, ∃ w : Owner, ∃ n : Fin 64, s.glb.power = .run ∧ r.issuer = .pf ∧ r.key = 0 ∧ s.lc.state ≠ 0xEE ∧ s.key.tableBad = false ∧ r.params = [BitVec.ofNat 8 n.val, 0, 0, 0] ∧ r.ownerId ≠ 0 ∧ ownerOf s.toDev r.ownerId.toNat = some w ∧ (w.stalls.getLsbD n.val = true ∨ boundCount s.toDev n.val < 8) ∧ quorumGate (took s 0x0503 r) (asCmd s 0x0503 r) r.ownerId.toNat = (d, none)) ∧
  (∃ r : Request, ∃ s : State, ∃ d : Dev, ∃ w : Owner, ∃ n : Fin 64, s.glb.power = .run ∧ r.issuer = .pf ∧ r.key = 0 ∧ s.lc.state ≠ 0xEE ∧ s.key.tableBad = false ∧ r.params = [BitVec.ofNat 8 n.val, 0, 0, 0] ∧ r.ownerId ≠ 0 ∧ ownerOf s.toDev r.ownerId.toNat = some w ∧ quorumGate (took s 0x0504 r) (asCmd s 0x0504 r) r.ownerId.toNat = (d, none)) ∧
  (∃ r : Request, ∃ s : State, ∃ d : Dev, ∃ w : Owner, ∃ m : Byte, ∃ n : Byte, ∃ q : Byte, ∃ re : Byte, ∃ win : Half, ∃ cap : Half, s.glb.power = .run ∧ r.issuer = .pf ∧ r.key = 0 ∧ s.lc.state ≠ 0xEE ∧ s.key.tableBad = false ∧ r.params = [m, n, q, re] ++ b2 win ++ b2 cap ∧ re.toNat ≤ 1 ∧ 1 ≤ m.toNat ∧ m.toNat ≤ 5 ∧ m.toNat ≤ n.toNat ∧ n.toNat ≤ 8 ∧ 10 ≤ win.toNat ∧ win.toNat ≤ 600 ∧ (re = 0 → m.toNat = w.m ∧ n.toNat = w.n) ∧ (s.lc.state = 3 → m ≠ 1) ∧ ownerOf s.toDev r.ownerId.toNat = some w ∧ quorumGate (took s 0x0505 r) (asCmd s 0x0505 r) r.ownerId.toNat = (d, none) ∧ (re = 1 → drbgReady s.toDev = true) ∧ quotaSum s.toDev r.ownerId.toNat + q.toNat ≤ 64) ∧
  (∃ r : Request, ∃ s : State, s.glb.power = .run ∧ r.issuer = .pf ∧ r.key = 0 ∧ s.lc.state ≠ 0xEE ∧ s.key.tableBad = false ∧ r.ownerId = 0 ∧ r.params = []) :=
  ⟨⟨{ issuer := .pf, ownerId := 255, params := [1, 2, 8, 60, 0, 16, 0, 0] }, S (quorumMet (dev) 0x0501 ({ issuer := .pf, ownerId := 255, params := [1, 2, 8, 60, 0, 16, 0, 0] }) 0), passed (dev) 0x0501 ({ issuer := .pf, ownerId := 255, params := [1, 2, 8, 60, 0, 16, 0, 0] }) 0, 1, 2, 8, 60, 4096, by and_intros <;> first | decide +kernel | exact .inr ⟨by decide +kernel, gate_met _ _ _ _ rfl⟩ | rfl⟩,
   ⟨{ issuer := .pf, ownerId := 1, params := [0, 0, 0, 0] }, S (quorumMet ({ dev with key.owners := [(0, anOwner), (1, { anOwner with stalls := 1 })] }) 0x0502 ({ issuer := .pf, ownerId := 1, params := [0, 0, 0, 0] }) 1), passed ({ dev with key.owners := [(0, anOwner), (1, { anOwner with stalls := 1 })] }) 0x0502 ({ issuer := .pf, ownerId := 1, params := [0, 0, 0, 0] }) 1, { anOwner with stalls := 1 }, by and_intros <;> first | decide +kernel | exact gate_met _ _ _ _ rfl | rfl⟩,
   ⟨{ issuer := .pf, ownerId := 1, params := [1, 0, 0, 0] }, S (quorumMet ({ dev with key.owners := [(0, anOwner), (1, { anOwner with stalls := 1 })] }) 0x0502 ({ issuer := .pf, ownerId := 1, params := [1, 0, 0, 0] }) 0), passed ({ dev with key.owners := [(0, anOwner), (1, { anOwner with stalls := 1 })] }) 0x0502 ({ issuer := .pf, ownerId := 1, params := [1, 0, 0, 0] }) 0, { anOwner with stalls := 1 }, by and_intros <;> first | decide +kernel | exact gate_met _ _ _ _ rfl | rfl⟩,
   ⟨{ issuer := .pf, ownerId := 1, params := [63, 0, 0, 0] }, S (quorumMet ({ dev with key.owners := [(0, anOwner), (1, { anOwner with stalls := 1 })] }) 0x0503 ({ issuer := .pf, ownerId := 1, params := [63, 0, 0, 0] }) 1), passed ({ dev with key.owners := [(0, anOwner), (1, { anOwner with stalls := 1 })] }) 0x0503 ({ issuer := .pf, ownerId := 1, params := [63, 0, 0, 0] }) 1, { anOwner with stalls := 1 }, 63, by and_intros <;> first | decide +kernel | exact gate_met _ _ _ _ rfl | rfl⟩,
   ⟨{ issuer := .pf, ownerId := 1, params := [0, 0, 0, 0] }, S (quorumMet ({ dev with key.owners := [(0, anOwner), (1, { anOwner with stalls := 1 })] }) 0x0504 ({ issuer := .pf, ownerId := 1, params := [0, 0, 0, 0] }) 1), passed ({ dev with key.owners := [(0, anOwner), (1, { anOwner with stalls := 1 })] }) 0x0504 ({ issuer := .pf, ownerId := 1, params := [0, 0, 0, 0] }) 1, { anOwner with stalls := 1 }, 0, by and_intros <;> first | decide +kernel | exact gate_met _ _ _ _ rfl | rfl⟩,
   ⟨{ issuer := .pf, ownerId := 1, params := [2, 3, 60, 0, 88, 2, 0, 16] }, S (quorumMet ({ dev with key.owners := [(0, anOwner), (1, { anOwner with stalls := 1 })] }) 0x0505 ({ issuer := .pf, ownerId := 1, params := [2, 3, 60, 0, 88, 2, 0, 16] }) 1), passed ({ dev with key.owners := [(0, anOwner), (1, { anOwner with stalls := 1 })] }) 0x0505 ({ issuer := .pf, ownerId := 1, params := [2, 3, 60, 0, 88, 2, 0, 16] }) 1, { anOwner with stalls := 1 }, 2, 3, 60, 0, 600, 4096, by and_intros <;> first | decide +kernel | exact gate_met _ _ _ _ rfl | rfl⟩,
   ⟨{ issuer := .pf }, S dev, by and_intros <;> first | decide +kernel | rfl⟩⟩

/-- States and operands that meet the hypotheses of `Obligations.QuorumGateOpensAndConsumes`, one for each of its clauses. -/
theorem meets_QuorumGateOpensAndConsumes :
  (∃ s : State, ∃ o : Nat, ∃ w : Owner, ownerOf s.toDev o = some w ∧ w.enrol = none ∧ s.crd.session = none) ∧
  (∃ s : State, ∃ r : Request, ∃ op : Nat, ∃ o : Nat, ∃ w : Owner, ∃ q, ownerOf s.toDev o = some w ∧ w.enrol = none ∧ s.crd.session = some q ∧ (q.owner ≠ o ∨ q.digest ≠ quorumDigest (asCmd s op r) ∨ q.consumedBy.isSome)) ∧
  (∃ s : State, ∃ r : Request, ∃ op : Nat, ∃ o : Nat, ∃ w : Owner, ∃ q, ownerOf s.toDev o = some w ∧ w.enrol = none ∧ s.crd.session = some q ∧ q.owner = o ∧ q.digest = quorumDigest (asCmd s op r) ∧ q.consumedBy = none ∧ q.met = false) ∧
  (∃ s : State, ∃ r : Request, ∃ op : Nat, ∃ o : Nat, ∃ w : Owner, ∃ q, ownerOf s.toDev o = some w ∧ w.enrol = none ∧ s.crd.session = some q ∧ q.owner = o ∧ q.digest = quorumDigest (asCmd s op r) ∧ q.consumedBy = none ∧ q.met = true) :=
  ⟨⟨S dev, 0, anOwner, by and_intros <;> first | decide +kernel | rfl⟩,
   ⟨S { dev with crd.session := some { metFor 0x0507 (ask []) 0 with consumedBy := some 0 } }, ask [], 0x0507, 0, anOwner, { metFor 0x0507 (ask []) 0 with consumedBy := some 0 }, by and_intros <;> first | decide +kernel | exact .inr (.inr rfl) | rfl⟩,
   ⟨S { dev with crd.session := some { metFor 0x0507 (ask []) 0 with met := false } }, ask [], 0x0507, 0, anOwner, { metFor 0x0507 (ask []) 0 with met := false }, by and_intros <;> first | decide +kernel | rfl⟩,
   ⟨S (quorumMet (dev) 0x0507 (ask []) 0), ask [], 0x0507, 0, anOwner, metFor 0x0507 (ask []) 0, by and_intros <;> first | decide +kernel | rfl⟩⟩

/-- States and operands that meet the hypotheses of `Obligations.LogbookCommandsAnswer`, one for each of its clauses. -/
theorem meets_LogbookCommandsAnswer :
  (∃ r : Request, ∃ s : State, ∃ d : Dev, ∃ t : Half, ∃ x : Bytes, s.glb.power = .run ∧ r.key = 0 ∧ r.ownerId = 0 ∧ s.evr.isOpen = true ∧ (r.issuer = .pf ∨ (∃ n, r.issuer = .stall n)) ∧ s.lc.state ≠ 0xEE ∧ t.toNat ≤ 0x0FFF ∧ 1 ≤ x.length ∧ x.length ≤ 960 ∧ r.params = b2 t ++ [0, 0] ++ leBytes 4 x.length ++ x ∧ 8 ≤ r.dataCap ∧ claimed s 0x0604 r 8 d) ∧
  (∃ r : Request, ∃ s : State, ∃ d : Dev, ∃ cur : Quad, s.glb.power = .run ∧ r.key = 0 ∧ r.ownerId = 0 ∧ s.evr.isOpen = true ∧ fromPM r ∧ r.params = b8 cur ∧ 272 ≤ r.dataCap ∧ claimed s 0x0605 r 272 d) ∧
  (∃ r : Request, ∃ s : State, ∃ d : Dev, s.glb.power = .run ∧ r.key = 0 ∧ r.ownerId = 0 ∧ s.evr.isOpen = true ∧ fromPM r ∧ r.params = [] ∧ 32 ≤ r.dataCap ∧ claimed s 0x0606 r 32 d) :=
  ⟨by obtain ⟨y, g, k, q, hc⟩ := claims (s := S dev) (op := 0x0604) (r := ask ([0xFF, 0x0F, 0, 0, 0xC0, 3, 0, 0] ++ zeros 960) 8) (n := 8) (by decide +kernel) (by decide +kernel); exact ⟨ask ([0xFF, 0x0F, 0, 0, 0xC0, 3, 0, 0] ++ zeros 960) 8, S dev, _, 0x0FFF, zeros 960, by and_intros <;> first | decide +kernel | exact hc | rfl | exact .inl rfl⟩,
   by obtain ⟨y, g, k, q, hc⟩ := claims (s := S dev) (op := 0x0605) (r := ask (zeros 8) 272) (n := 272) (by decide +kernel) (by decide +kernel); exact ⟨ask (zeros 8) 272, S dev, _, 0, by and_intros <;> first | decide +kernel | exact hc | rfl | exact .inl rfl⟩,
   by obtain ⟨y, g, k, q, hc⟩ := claims (s := S dev) (op := 0x0606) (r := ask [] 32) (n := 32) (by decide +kernel) (by decide +kernel); exact ⟨ask [] 32, S dev, _, by and_intros <;> first | decide +kernel | exact hc | rfl | exact .inl rfl⟩⟩

/-- States and operands that meet the hypotheses of `Obligations.LifeCycleTransitionsRun`, one for each of its clauses. -/
theorem meets_LifeCycleTransitionsRun :
  (∃ r : Request, ∃ s : State, ∃ t : Byte, ∃ k : Nat, s.glb.power = .run ∧ r.issuer = .pf ∧ r.key = 0 ∧ r.ownerId = 0 ∧ r.params = [t, 0, 0, 0] ∧ s.lc.job = none ∧ s.evr.failed = false ∧ s.evr.critFull = false ∧ legalMove s.lc.state t = true ∧ needsCustodians s.lc.state t = false ∧ anyStall s.toDev = false ∧ s.glb.rsvOk = true ∧ blankSlot s.toDev = some k ∧ s.dbg.rights.getLsbD 3 = false ∧ s.dbg.rights.getLsbD 4 = false) ∧
  (∃ r : Request, ∃ s : State, ∃ t : Byte, ∃ k : Nat, ∃ w : Owner, ∃ d : Dev, s.glb.power = .run ∧ r.issuer = .pf ∧ r.key = 0 ∧ r.ownerId = 0 ∧ r.params = [t, 0, 0, 0] ∧ s.lc.job = none ∧ s.evr.failed = false ∧ s.evr.critFull = false ∧ legalMove s.lc.state t = true ∧ needsCustodians s.lc.state t = true ∧ anyStall s.toDev = false ∧ s.glb.rsvOk = true ∧ blankSlot s.toDev = some k ∧ s.dbg.rights.getLsbD 3 = false ∧ s.dbg.rights.getLsbD 4 = false ∧ ownerOf s.toDev 0 = some w ∧ (s.lc.state = 2 → 2 ≤ w.m) ∧ quorumGate (took s 0x0802 r) (asCmd s 0x0802 r) 0 = (d, none)) ∧
  (∃ r : Request, ∃ s : State, ∃ t : Byte, s.glb.power = .run ∧ r.issuer = .pf ∧ r.key = 0 ∧ r.ownerId = 0 ∧ r.params = [t, 0, 0, 0] ∧ s.lc.job = none ∧ s.evr.failed = false ∧ s.evr.critFull = false ∧ s.lc.resumable = true ∧ t = s.lc.target) ∧
  (∃ r : Request, ∃ s : State, ∃ t : Byte, s.glb.power = .run ∧ r.issuer = .pf ∧ r.key = 0 ∧ r.ownerId = 0 ∧ r.params = [t, 0, 0, 0] ∧ s.lc.job = none ∧ s.evr.failed = false ∧ s.evr.critFull = false ∧ s.lc.resumable = false) ∧
  (∃ s : State, ∃ j : LcJob, ∃ w : OtpWrite, ∃ rest : List OtpWrite, ∃ x, ∃ l, s.lc.job = some j ∧ j.started = true ∧ j.writes = w :: rest ∧ nextWrites (program s.toDev w) rest = x :: l) ∧
  (∃ s : State, ∃ j : LcJob, ∃ w : OtpWrite, ∃ rest : List OtpWrite, s.lc.job = some j ∧ j.started = true ∧ j.writes = w :: rest ∧ nextWrites (program s.toDev w) rest = []) ∧
  (∃ s : State, ∃ j : LcJob, ∃ w : OtpWrite, ∃ rest : List OtpWrite, s.lc.job = some j ∧ j.started = true ∧ j.writes = w :: rest ∧ j.retries < 3) ∧
  (∃ s : State, ∃ j : LcJob, ∃ w : OtpWrite, ∃ rest : List OtpWrite, s.lc.job = some j ∧ j.started = true ∧ j.writes = w :: rest ∧ 3 ≤ j.retries) :=
  ⟨⟨ask [4, 0, 0, 0], S dev, 4, 0, by and_intros <;> first | decide +kernel | rfl⟩,
   ⟨ask [3, 0, 0, 0], S (quorumMet (dev) 0x0802 (ask [3, 0, 0, 0]) 0), 3, 0, anOwner, passed (dev) 0x0802 (ask [3, 0, 0, 0]) 0, by and_intros <;> first | decide +kernel | exact gate_met _ _ _ _ rfl | rfl⟩,
   ⟨ask [4, 0, 0, 0], S { dev with lc.resumable := true, lc.target := 4 }, 4, by and_intros <;> first | decide +kernel | rfl⟩,
   ⟨ask [4, 0, 0, 0], S dev, 4, by and_intros <;> first | decide +kernel | rfl⟩,
   ⟨S { dev with lc.job := some { rid := 0, target := 3, writes := .half 1 :: [.half 2], started := true, retries := 0 } }, { rid := 0, target := 3, writes := .half 1 :: [.half 2], started := true, retries := 0 }, .half 1, [.half 2], .half 2, [], by and_intros <;> first | decide +kernel | rfl⟩,
   ⟨S { dev with lc.job := some { rid := 0, target := 3, writes := [.half 1], started := true, retries := 0 } }, { rid := 0, target := 3, writes := [.half 1], started := true, retries := 0 }, .half 1, [], by and_intros <;> first | decide +kernel | rfl⟩,
   ⟨S { dev with lc.job := some { rid := 0, target := 3, writes := [.half 1], started := true, retries := 2 } }, { rid := 0, target := 3, writes := [.half 1], started := true, retries := 2 }, .half 1, [], by and_intros <;> first | decide +kernel | rfl⟩,
   ⟨S { dev with lc.job := some { rid := 0, target := 3, writes := [.half 1], started := true, retries := 3 } }, { rid := 0, target := 3, writes := [.half 1], started := true, retries := 3 }, .half 1, [], by and_intros <;> first | decide +kernel | rfl⟩⟩

/-- States and operands that meet the hypotheses of `Obligations.DebugCommandsAct`, one for each of its clauses. -/
theorem meets_DebugCommandsAct :
  (∃ r : Request, ∃ s : State, ∃ d : Dev, s.glb.power = .run ∧ r.issuer = .pf ∧ r.key = 0 ∧ r.ownerId = 0 ∧ s.lc.state ≠ 0xEE ∧ s.lc.job = none ∧ r.params = [] ∧ 64 ≤ r.dataCap ∧ drbgReady s.toDev = true ∧ claimed s 0x0804 r 64 d) ∧
  (∃ r : Request, ∃ s : State, s.glb.power = .run ∧ r.issuer = .pf ∧ r.key = 0 ∧ r.ownerId = 0 ∧ s.lc.state ≠ 0xEE ∧ s.lc.job = none ∧ r.params.length = 160 ∧ s.dbg.checking = false ∧ canServe s.toDev false true = true ∧ s.evr.failed = false ∧ s.evr.critFull = false ∧ firstFail (certBefore s.toDev r.params) = none) :=
  ⟨by obtain ⟨y, g, k, q, hc⟩ := claims (s := S dev) (op := 0x0804) (r := ask [] 64) (n := 64) (by decide +kernel) (by decide +kernel); exact ⟨ask [] 64, S dev, _, by and_intros <;> first | decide +kernel | exact hc | rfl⟩,
   ⟨ask aCert, S dev, by and_intros <;> first | decide +kernel | exact aCert_length | exact aCert_before | rfl⟩⟩

/-- States and operands that meet the hypotheses of `Obligations.BootWitnessCommandsAct`, one for each of its clauses. -/
theorem meets_BootWitnessCommandsAct :
  (∃ r : Request, ∃ s : State, ∃ m : Bytes, ∃ k : LiveKey, s.glb.power = .run ∧ s.lc.state ≠ 0xEE ∧ r.issuer = .pf ∧ m.length < 2 ^ 32 ∧ r.params = leBytes 4 m.length ++ m ∧ r.ownerId = 0 ∧ (ownerOf s.toDev 0).isSome ∧ hOwner r.key = 0 ∧ findKey s.toDev r.key = some k ∧ k.owner = 0 ∧ k.type = 0x21 ∧ k.usage.getLsbD uVerify = true ∧ k.usage.getLsbD uQuorum = false ∧ s.key.tableBad = false ∧ r.keyMask = false ∧ drbgReady s.toDev = true) ∧
  (∃ r : Request, ∃ s : State, ∃ d : Dev, ∃ co : Byte, s.glb.power = .run ∧ s.lc.state ≠ 0xEE ∧ fromPM r ∧ r.key = 0 ∧ r.ownerId = 0 ∧ r.params = [co, 0, 0, 0] ∧ co.toNat ≤ 1 ∧ stateR s.toDev = true ∧ absent s.toDev = false ∧ s.bwt.journal.opened = true ∧ s.evr.failed = false ∧ s.evr.critFull = false ∧ canServe s.toDev false true = true ∧ 48 ≤ r.dataCap ∧ claimed s 0x0602 r 48 d) ∧
  (∃ r : Request, ∃ s : State, ∃ d : Dev, ∃ which : Byte, s.glb.power = .run ∧ s.lc.state ≠ 0xEE ∧ fromPVM r ∧ r.key = 0 ∧ r.ownerId = 0 ∧ r.params = [which, 0, 0, 0] ∧ which.toNat ≤ 1 ∧ 16384 ≤ r.dataCap ∧ claimed s 0x0603 r ((if which = 0 then s.bwt.current else s.bwt.previous).getD []).length d) :=
  ⟨⟨askKey [0, 0, 0, 0], S { dev with key.slots := [(0, { aKey 8 with type := 0x21 })] }, [], { live 8 with type := 0x21 }, by and_intros <;> first | decide +kernel | rfl⟩,
   by obtain ⟨y, g, k, q, hc⟩ := claims (s := S { dev with glb.straps.bwMode := 1, bwt.journal.opened := true }) (op := 0x0602) (r := { issuer := .mgt, params := [1, 0, 0, 0], dataCap := 48 }) (n := 48) (by decide +kernel) (by decide +kernel); exact ⟨{ issuer := .mgt, params := [1, 0, 0, 0], dataCap := 48 }, S { dev with glb.straps.bwMode := 1, bwt.journal.opened := true }, _, 1, by and_intros <;> first | decide +kernel | exact hc | exact .inr rfl | exact hc | rfl | exact .inl rfl⟩,
   by obtain ⟨y, g, k, q, hc⟩ := claims (s := S dev) (op := 0x0603) (r := ask [1, 0, 0, 0] 16384) (n := ((if (1 : Byte) = 0 then (S dev : State).bwt.current else (S dev : State).bwt.previous).getD []).length) (by decide +kernel) (by decide +kernel); exact ⟨ask [1, 0, 0, 0] 16384, S dev, _, 1, by and_intros <;> first | decide +kernel | exact hc | rfl | exact .inl rfl⟩⟩

/-- States and operands that meet the hypotheses of `Obligations.KrovloCommandsAct`, one for each of its clauses. -/
theorem meets_KrovloCommandsAct :
  (∃ r : Request, ∃ s : State, ∃ k : LiveKey, ∃ w : Owner, ∃ d : Dev, ∃ e : Dev, s.glb.power = .run ∧ firstFail (replChecks s.toDev) = none ∧ opensKey s r k ∧ r.keyMask = false ∧ r.params = [] ∧ 2 ≤ r.dataCap ∧ hAon r.key = false ∧ k.usage.getLsbD uReplicate = true ∧ k.usage.getLsbD uQuorum = false ∧ drbgReady s.toDev = true ∧ ownerOf s.toDev r.ownerId.toNat = some w ∧ claimed s 0x0702 r 2 d ∧ sendReplicas (markReplicated (touchKey d k.ref) k.ref) s.nextRid k r.key w.mode (replPeers d) = some e) ∧
  (∃ r : Request, ∃ s : State, ∃ a : Fin 16, ∃ id : Bytes, s.glb.power = .run ∧ firstFail (replChecks s.toDev) = none ∧ r.issuer = .pf ∧ r.key = 0 ∧ r.ownerId = 0 ∧ s.lc.state ≠ 0xEE ∧ s.lc.state ≠ 3 ∧ r.params = [BitVec.ofNat 8 a.val, 0, 0, 0] ∧ (if s.chn.addrValid ∧ a.val = s.chn.addr then some Config.deviceId else (tget s.chn.view a.val).map (·.body.devId)) = some id) ∧
  (∃ r : Request, ∃ s : State, ∃ e : Quad, s.glb.power = .run ∧ firstFail (replChecks s.toDev) = none ∧ r.issuer = .pf ∧ r.key = 0 ∧ r.ownerId = 0 ∧ s.lc.state ≠ 0xEE ∧ s.lc.state ≠ 3 ∧ r.params = b8 e ∧ s.chn.epoch.toNat < e.toNat) :=
  ⟨by obtain ⟨y, g, k, q, hc⟩ := claims (s := S { keyDev 0x400 with chn := { role := .member, addrValid := true, units := 1 } }) (op := 0x0702) (r := askKey [] 2) (n := 2) (by decide +kernel) (by decide +kernel); exact ⟨askKey [] 2, S { keyDev 0x400 with chn := { role := .member, addrValid := true, units := 1 } }, live 0x400, anOwner, _, _, by and_intros <;> first | decide +kernel | exact hc | rfl⟩,
   ⟨ask [0, 0, 0, 0], S { dev with chn := { role := .member, addrValid := true, units := 1 } }, 0, _, by and_intros <;> first | decide +kernel | rfl⟩,
   ⟨ask [1, 0, 0, 0, 0, 0, 0, 0], S { dev with chn := { role := .member, addrValid := true, units := 1 } }, 1, by and_intros <;> first | decide +kernel | rfl⟩⟩

/-- States and operands that meet the hypotheses of `Obligations.ServiceCommandsAct`, one for each of its clauses. -/
theorem meets_ServiceCommandsAct :
  (∃ r : Request, ∃ s : State, ∃ e : Fin 4, ∃ ch : Bool, s.glb.power = .run ∧ r.issuer = .pf ∧ r.key = 0 ∧ r.ownerId = 0 ∧ s.lc.state ≠ 0xEE ∧ r.params = [BitVec.ofNat 8 e.val, if ch then 1 else 0, 0, 0] ∧ engSecure s.toDev e.val = false ∧ (eng s.toDev e.val).op = none ∧ (eng s.toDev e.val).aborting = false) ∧
  (∃ r : Request, ∃ s : State, ∃ e : Fin 4, ∃ ch : Byte, s.glb.power = .run ∧ r.issuer = .pf ∧ r.key = 0 ∧ r.ownerId = 0 ∧ s.lc.state ≠ 0xEE ∧ r.params = [BitVec.ofNat 8 e.val, ch, 0, 0] ∧ ch.toNat ≤ 1 ∧ engSecure s.toDev e.val = true) ∧
  (∃ r : Request, ∃ s : State, ∃ x : Bytes, ∃ total : Nat, s.glb.power = .run ∧ r.issuer = .pf ∧ r.key = 0 ∧ r.ownerId = 0 ∧ s.lc.state ≠ 0xEE ∧ s.ps.stageOk = false ∧ s.ps.stage = none ∧ total ≤ 2097152 ∧ x.length < total ∧ r.params = leBytes 4 0 ++ leBytes 4 total ++ leBytes 4 x.length ++ x) ∧
  (∃ r : Request, ∃ s : State, ∃ a : Bytes, ∃ x : Bytes, ∃ total : Nat, ∃ d : Dev, s.glb.power = .run ∧ r.issuer = .pf ∧ r.key = 0 ∧ r.ownerId = 0 ∧ s.lc.state ≠ 0xEE ∧ s.ps.stageOk = false ∧ s.ps.stage = some (a, total) ∧ total ≤ 2097152 ∧ a.length + x.length = total ∧ r.params = leBytes 4 a.length ++ leBytes 4 total ++ leBytes 4 x.length ++ x ∧ 48 ≤ r.dataCap ∧ claimed s 0x0F03 r 48 d) ∧
  (∃ r : Request, ∃ s : State, ∃ x, ∃ n, s.glb.power = .run ∧ r.issuer = .pf ∧ r.key = 0 ∧ r.ownerId = 0 ∧ s.lc.state ≠ 0xEE ∧ s.ps.stageOk = true ∧ s.ps.stage = some (x, n) ∧ r.params = Config.sha384 x ∧ s.lc.state ≠ 3) ∧
  (∃ r : Request, ∃ s : State, ∃ e : Fin 4, ∃ d : Dev, s.glb.power = .run ∧ r.issuer = .pf ∧ r.key = 0 ∧ r.ownerId = 0 ∧ s.lc.state ≠ 0xEE ∧ r.params = [BitVec.ofNat 8 e.val, 0, 0, 0] ∧ (eng s.toDev e.val).clk ≠ 3 ∧ inTransit s.toDev (18 + e.val) = false ∧ engSecure s.toDev e.val = false ∧ 4 ≤ r.dataCap ∧ claimed s 0x0F05 r 4 d) ∧
  (∃ r : Request, ∃ s : State, ∃ d, s.glb.power = .run ∧ r.issuer = .pf ∧ r.key = 0 ∧ r.ownerId = 0 ∧ s.lc.state ≠ 0xEE ∧ r.params = [4, 0, 0, 0] ∧ 4 ≤ r.dataCap ∧ claimed s 0x0F05 r 4 d) ∧
  (∃ r : Request, ∃ s : State, ∃ d, s.glb.power = .run ∧ r.issuer = .pf ∧ r.key = 0 ∧ r.ownerId = 0 ∧ s.lc.state ≠ 0xEE ∧ r.params = [5, 0, 0, 0] ∧ s.sym.rngPerm = false ∧ 4 ≤ r.dataCap ∧ claimed s 0x0F05 r 4 d) :=
  ⟨⟨ask [3, 1, 0, 0], S { dev with sec.own := 0 }, 3, true, by and_intros <;> first | decide +kernel | rfl⟩,
   ⟨ask [0, 1, 0, 0], S { dev with sec.own := 0x7FFFFF }, 0, 1, by and_intros <;> first | decide +kernel | rfl⟩,
   ⟨ask [0, 0, 0, 0, 0, 0, 32, 0, 0, 0, 0, 0], S dev, [], 2097152, by and_intros <;> first | decide +kernel | rfl⟩,
   by obtain ⟨y, g, k, q, hc⟩ := claims (s := S { dev with ps.stage := some ([1], 2) }) (op := 0x0F03) (r := ask [1, 0, 0, 0, 2, 0, 0, 0, 1, 0, 0, 0, 2] 48) (n := 48) (by decide +kernel) (by decide +kernel); exact ⟨ask [1, 0, 0, 0, 2, 0, 0, 0, 1, 0, 0, 0, 2] 48, S { dev with ps.stage := some ([1], 2) }, [1], [2], 2, _, by and_intros <;> first | decide +kernel | exact hc | rfl⟩,
   ⟨ask (Config.sha384 []), S { dev with ps.stageOk := true, ps.stage := some ([], 0) }, [], 0, by and_intros <;> first | decide +kernel | rfl⟩,
   by obtain ⟨y, g, k, q, hc⟩ := claims (s := S dev) (op := 0x0F05) (r := ask [0, 0, 0, 0] 4) (n := 4) (by decide +kernel) (by decide +kernel); exact ⟨ask [0, 0, 0, 0] 4, S dev, 0, _, by and_intros <;> first | decide +kernel | exact hc | rfl⟩,
   by obtain ⟨y, g, k, q, hc⟩ := claims (s := S dev) (op := 0x0F05) (r := ask [4, 0, 0, 0] 4) (n := 4) (by decide +kernel) (by decide +kernel); exact ⟨ask [4, 0, 0, 0] 4, S dev, _, by and_intros <;> first | decide +kernel | exact hc | rfl⟩,
   by obtain ⟨y, g, k, q, hc⟩ := claims (s := S dev) (op := 0x0F05) (r := ask [5, 0, 0, 0] 4) (n := 4) (by decide +kernel) (by decide +kernel); exact ⟨ask [5, 0, 0, 0] 4, S dev, _, by and_intros <;> first | decide +kernel | exact hc | rfl⟩⟩

/-- States and operands that meet the hypotheses of `Obligations.TapInstructionsAct`, one for each of its clauses. -/
theorem meets_TapInstructionsAct :
  (∃ s : State, powered s.toDev = true ∧ s.dbg.extest = false ∧ s.glb.vioGen = true) ∧
  (∃ s : State, powered s.toDev = true ∧ s.dbg.extest = false) ∧
  (∃ s : State, powered s.toDev = true ∧ s.dbg.extest = false) ∧
  (∃ s : State, powered s.toDev = true ∧ s.dbg.extest = false ∧ s.glb.power ≠ .standby ∧ boundaryOpen s.toDev = true) ∧
  (∃ s : State, powered s.toDev = true ∧ s.dbg.extest = false ∧ s.glb.power ≠ .standby ∧ boundaryOpen s.toDev = false) ∧
  (∃ s : State, powered s.toDev = true ∧ s.dbg.extest = false ∧ s.glb.power ≠ .standby ∧ s.lc.state ≠ 0xEE ∧ s.lc.job = none ∧ drbgReady s.toDev = true) ∧
  (∃ s : State, ∃ c : Bytes, powered s.toDev = true ∧ s.dbg.extest = false ∧ c.length = 160 ∧ s.glb.power ≠ .standby ∧ s.lc.job = none ∧ s.dbg.checking = false ∧ canServe s.toDev false true = true ∧ s.evr.failed = false ∧ s.evr.critFull = false ∧ firstFail (certBefore s.toDev c) = none) ∧
  (∃ s : State, powered s.toDev = true ∧ s.dbg.extest = false ∧ s.glb.power ≠ .standby ∧ s.lc.state ≠ 0xEE ∧ s.dbg.token.isSome = true) ∧
  (∃ s : State, powered s.toDev = true ∧ s.dbg.extest = false ∧ s.glb.power ≠ .standby ∧ s.lc.state ≠ 0xEE ∧ s.dbg.token = none ∧ 8 ≤ s.dbg.tokenFails.toNat) ∧
  (∃ s : State, powered s.toDev = true ∧ s.dbg.extest = false ∧ s.glb.power ≠ .standby ∧ s.lc.state ≠ 0xEE ∧ s.dbg.token = none ∧ s.dbg.tokenFails.toNat < 8 ∧ s.dbg.grant ≠ 0) ∧
  (∃ s : State, ∃ t : Bytes, powered s.toDev = true ∧ s.dbg.extest = false ∧ t.length = 16 ∧ s.glb.power ≠ .standby ∧ s.lc.state ≠ 0xEE ∧ s.dbg.tokenFails.toNat < 8 ∧ s.dbg.grant = 0 ∧ s.dbg.token = none ∧ s.evr.failed = false ∧ s.evr.critFull = false) ∧
  (∃ s : State, powered s.toDev = true ∧ s.dbg.extest = false ∧ s.glb.vioGen = false) ∧
  (∃ s : State, ∃ d : Dev, s.dbg.extest = true ∧ d = { s.toDev with dbg := { s.dbg with extest := false, tapInstr := .idcode } }) ∧
  (∃ s : State, ∃ d : Dev, s.dbg.extest = true ∧ d = { s.toDev with dbg := { s.dbg with extest := false, tapInstr := .idcode } } ∧ powered s.toDev = true) ∧
  (∃ s : State, ∃ d : Dev, s.dbg.extest = true ∧ d = { s.toDev with dbg := { s.dbg with extest := false, tapInstr := .idcode } } ∧ s.glb.power ≠ .standby) :=
  ⟨⟨S { dev with glb.vioGen := true }, by and_intros <;> first | decide +kernel | rfl⟩,
   ⟨S { dev with glb.vioGen := true }, by and_intros <;> first | decide +kernel | rfl⟩,
   ⟨S { dev with glb.vioGen := true }, by and_intros <;> first | decide +kernel | rfl⟩,
   ⟨S { dev with glb.vioGen := true }, by and_intros <;> first | decide +kernel | rfl⟩,
   ⟨S { dev with glb.vioGen := true, lc.state := 3 }, by and_intros <;> first | decide +kernel | rfl⟩,
   ⟨S { dev with glb.vioGen := true }, by and_intros <;> first | decide +kernel | rfl⟩,
   ⟨S { dev with glb.vioGen := true }, aCert, by and_intros <;> first | decide +kernel | exact aCert_length | exact aCert_before | rfl⟩,
   ⟨S { dev with glb.vioGen := true, dbg.token := some { token := [], index := 0, state := 0 } }, by and_intros <;> first | decide +kernel | rfl⟩,
   ⟨S { dev with glb.vioGen := true, dbg.tokenFails := 8 }, by and_intros <;> first | decide +kernel | rfl⟩,
   ⟨S { dev with glb.vioGen := true, dbg.tokenFails := 7, dbg.grant := 1 }, by and_intros <;> first | decide +kernel | rfl⟩,
   ⟨S { dev with glb.vioGen := true, dbg.tokenFails := 7 }, zeros 16, by and_intros <;> first | decide +kernel | rfl⟩,
   ⟨S dev, by and_intros <;> first | decide +kernel | rfl⟩,
   ⟨S { dev with dbg.extest := true }, _, by and_intros <;> first | decide +kernel | rfl⟩,
   ⟨S { dev with dbg.extest := true }, _, by and_intros <;> first | decide +kernel | rfl⟩,
   ⟨S { dev with dbg.extest := true }, _, by and_intros <;> first | decide +kernel | rfl⟩⟩

/-- States and operands that meet the hypotheses of `Obligations.DebugAccessesFollowTheMatrix`, one for each of its clauses. -/
theorem meets_DebugAccessesFollowTheMatrix :
  (∃ s : State, powered s.toDev = true ∧ s.glb.power = .standby) ∧
  (∃ s : State, ∃ a : DebugAcc, powered s.toDev = true ∧ s.glb.power ≠ .standby ∧ (s.dbg.rights.getLsbD (needsRight a) = false ∨ memOpen s.toDev a = false ∨ (a.viaPf = true ∧ (a.secure = true ∨ a.what = .sramSecure)))) ∧
  (∃ s : State, ∃ a : DebugAcc, powered s.toDev = true ∧ s.glb.power = .run ∧ (a.viaPf = true → a.secure = false ∧ a.what ≠ .sramSecure) ∧ s.dbg.rights.getLsbD (needsRight a) = true ∧ memOpen s.toDev a = true ∧ (a.what = .sramSecure → a.kind = .read → s.dbg.rights.getLsbD 2 = true) ∧ a.kind = .read ∧ a.what = .keyStore) ∧
  (∃ s : State, ∃ a : DebugAcc, powered s.toDev = true ∧ s.glb.power = .run ∧ (a.viaPf = true → a.secure = false ∧ a.what ≠ .sramSecure) ∧ s.dbg.rights.getLsbD (needsRight a) = true ∧ memOpen s.toDev a = true ∧ (a.what = .sramSecure → a.kind = .read → s.dbg.rights.getLsbD 2 = true) ∧ a.kind = .read ∧ (a.what = .sramNormal ∨ a.what = .sramSecure)) ∧
  (∃ s : State, ∃ a : DebugAcc, powered s.toDev = true ∧ s.glb.power = .run ∧ (a.viaPf = true → a.secure = false ∧ a.what ≠ .sramSecure) ∧ s.dbg.rights.getLsbD (needsRight a) = true ∧ memOpen s.toDev a = true ∧ (a.what = .sramSecure → a.kind = .read → s.dbg.rights.getLsbD 2 = true) ∧ a.kind = .read ∧ a.what = .pkeMem ∧ s.lc.state = 1 ∧ s.key.root = 1) ∧
  (∃ s : State, ∃ a : DebugAcc, ∃ p, ∃ o, powered s.toDev = true ∧ s.glb.power = .run ∧ (a.viaPf = true → a.secure = false ∧ a.what ≠ .sramSecure) ∧ s.dbg.rights.getLsbD (needsRight a) = true ∧ memOpen s.toDev a = true ∧ (a.what = .sramSecure → a.kind = .read → s.dbg.rights.getLsbD 2 = true) ∧ a.kind = .read ∧ a.what = .regs ∧ locatePf s.toDev a.addr = .reg p o) ∧
  (∃ s : State, ∃ a : DebugAcc, ∃ p, ∃ o, powered s.toDev = true ∧ s.glb.power = .run ∧ (a.viaPf = true → a.secure = false ∧ a.what ≠ .sramSecure) ∧ s.dbg.rights.getLsbD (needsRight a) = true ∧ memOpen s.toDev a = true ∧ (a.what = .sramSecure → a.kind = .read → s.dbg.rights.getLsbD 2 = true) ∧ a.kind = .write ∧ a.what = .regs ∧ locatePf s.toDev a.addr = .reg p o) ∧
  (∃ s : State, ∃ a : DebugAcc, powered s.toDev = true ∧ s.glb.power = .run ∧ (a.viaPf = true → a.secure = false ∧ a.what ≠ .sramSecure) ∧ s.dbg.rights.getLsbD (needsRight a) = true ∧ memOpen s.toDev a = true ∧ (a.what = .sramSecure → a.kind = .read → s.dbg.rights.getLsbD 2 = true) ∧ a.kind = .read ∧ a.what = .yard) ∧
  (∃ s : State, ∃ a : DebugAcc, powered s.toDev = true ∧ s.glb.power = .run ∧ (a.viaPf = true → a.secure = false ∧ a.what ≠ .sramSecure) ∧ s.dbg.rights.getLsbD (needsRight a) = true ∧ memOpen s.toDev a = true ∧ (a.what = .sramSecure → a.kind = .read → s.dbg.rights.getLsbD 2 = true) ∧ a.kind = .write ∧ a.what ≠ .regs) ∧
  (∃ s : State, ∃ a : DebugAcc, powered s.toDev = true ∧ s.glb.power = .run ∧ (a.viaPf = true → a.secure = false ∧ a.what ≠ .sramSecure) ∧ s.dbg.rights.getLsbD (needsRight a) = true ∧ memOpen s.toDev a = true ∧ (a.what = .sramSecure → a.kind = .read → s.dbg.rights.getLsbD 2 = true) ∧ a.kind = .halt) ∧
  (∃ s : State, ∃ a : DebugAcc, powered s.toDev = true ∧ s.glb.power = .run ∧ (a.viaPf = true → a.secure = false ∧ a.what ≠ .sramSecure) ∧ s.dbg.rights.getLsbD (needsRight a) = true ∧ memOpen s.toDev a = true ∧ (a.what = .sramSecure → a.kind = .read → s.dbg.rights.getLsbD 2 = true) ∧ a.kind = .release) ∧
  (∃ s : State, ∃ i : Fin 9, powered s.toDev = true ∧ s.glb.power ≠ .standby ∧ s.lc.state ≠ 0x10 ∧ s.lc.state ≠ 0x17 ∧ s.dbg.rights.getLsbD 4 = true ∧ (i.val ≤ 4 ∨ i.val = 8) ∧ s.dbg.scanned = false) ∧
  (∃ s : State, powered s.toDev = true ∧ s.glb.power ≠ .standby ∧ s.lc.state ≠ 0x10 ∧ s.lc.state ≠ 0x17 ∧ s.dbg.rights.getLsbD 4 = false) :=
  ⟨⟨S { dev with glb.power := .standby }, by and_intros <;> first | decide +kernel | exact fun h => absurd h (by decide) | exact fun h1 h2 => absurd h2 (by decide) | exact fun _ _ => rfl | exact .inl rfl | exact .inr rfl | rfl⟩,
   ⟨S dev, { kind := .read }, by and_intros <;> first | decide +kernel | exact fun h => absurd h (by decide) | exact fun h1 h2 => absurd h2 (by decide) | exact fun _ _ => rfl | exact .inl rfl | exact .inr rfl | rfl⟩,
   ⟨S { dev with dbg.rights := 0x1F, dbg.grant := 3 }, { kind := .read, what := .keyStore }, by and_intros <;> first | decide +kernel | exact fun h => absurd h (by decide) | exact fun h1 h2 => absurd h2 (by decide) | exact fun _ _ => rfl | exact .inl rfl | exact .inr rfl | rfl⟩,
   ⟨S { dev with dbg.rights := 0x1F, dbg.grant := 3 }, { kind := .read, what := .sramSecure, secure := true, addr := 0x207FFFFF }, by and_intros <;> first | decide +kernel | exact fun h => absurd h (by decide) | exact fun h1 h2 => absurd h2 (by decide) | exact fun _ _ => rfl | exact .inl rfl | exact .inr rfl | rfl⟩,
   ⟨S { dev with dbg.rights := 0x1F, dbg.grant := 3, lc.state := 1, key.root := 1 }, { kind := .read, what := .pkeMem, addr := 0x34000000 }, by and_intros <;> first | decide +kernel | exact fun h => absurd h (by decide) | exact fun h1 h2 => absurd h2 (by decide) | exact fun _ _ => rfl | exact .inl rfl | exact .inr rfl | rfl⟩,
   ⟨S { dev with dbg.rights := 0x1F, dbg.grant := 3 }, { kind := .read, what := .regs, addr := 0x18 }, _, _, by and_intros <;> first | decide +kernel | exact fun h => absurd h (by decide) | exact fun h1 h2 => absurd h2 (by decide) | exact fun _ _ => rfl | exact .inl rfl | exact .inr rfl | rfl⟩,
   ⟨S { dev with dbg.rights := 0x1F, dbg.grant := 3 }, { kind := .write, what := .regs, addr := 0x18 }, _, _, by and_intros <;> first | decide +kernel | exact fun h => absurd h (by decide) | exact fun h1 h2 => absurd h2 (by decide) | exact fun _ _ => rfl | exact .inl rfl | exact .inr rfl | rfl⟩,
   ⟨S { dev with dbg.rights := 0x1F, dbg.grant := 3 }, { kind := .read, what := .yard, addr := 0x30000000 }, by and_intros <;> first | decide +kernel | exact fun h => absurd h (by decide) | exact fun h1 h2 => absurd h2 (by decide) | exact fun _ _ => rfl | exact .inl rfl | exact .inr rfl | rfl⟩,
   ⟨S { dev with dbg.rights := 0x1F, dbg.grant := 3 }, { kind := .write, what := .sramSecure, secure := true, addr := 0x20000000 }, by and_intros <;> first | decide +kernel | exact fun h => absurd h (by decide) | exact fun h1 h2 => absurd h2 (by decide) | exact fun _ _ => rfl | exact .inl rfl | exact .inr rfl | rfl⟩,
   ⟨S { dev with dbg.rights := 0x1F, dbg.grant := 3 }, { kind := .halt, what := .sramSecure }, by and_intros <;> first | decide +kernel | exact fun h => absurd h (by decide) | exact fun h1 h2 => absurd h2 (by decide) | exact fun _ _ => rfl | exact .inl rfl | exact .inr rfl | rfl⟩,
   ⟨S { dev with dbg.rights := 0x1F, dbg.grant := 3 }, { kind := .release, what := .regs }, by and_intros <;> first | decide +kernel | exact fun h => absurd h (by decide) | exact fun h1 h2 => absurd h2 (by decide) | exact fun _ _ => rfl | exact .inl rfl | exact .inr rfl | rfl⟩,
   ⟨S { dev with dbg.rights := 0x1F, dbg.grant := 3 }, 8, by and_intros <;> first | decide +kernel | exact fun h => absurd h (by decide) | exact fun h1 h2 => absurd h2 (by decide) | exact fun _ _ => rfl | exact .inl rfl | exact .inr rfl | rfl⟩,
   ⟨S dev, by and_intros <;> first | decide +kernel | exact fun h => absurd h (by decide) | exact fun h1 h2 => absurd h2 (by decide) | exact fun _ _ => rfl | exact .inl rfl | exact .inr rfl | rfl⟩⟩

/-- States and operands that meet the hypotheses of `Obligations.TokenChecksEndInOrder`, one for each of its clauses. -/
theorem meets_TokenChecksEndInOrder :
  (∃ s : State, ∃ t : TokenCheck, ∃ st, s.dbg.token = some t ∧ t.passed = false ∧ tokenBarred s.toDev t = some st) ∧
  (∃ s : State, ∃ t : TokenCheck, ∃ st, s.dbg.token = some t ∧ t.passed = false ∧ tokenBarred s.toDev t = none ∧ firstFail (tokenChecks s.toDev t) = some st) ∧
  (∀ x : Bytes, (Config.sha384 (x ++ Config.deviceId ++ [0, 31])).take 16 = Config.tokenHash 0 31 → ∃ s : State, ∃ t : TokenCheck, s.dbg.token = some t ∧ t.passed = false ∧ tokenBarred s.toDev t = none ∧ firstFail (tokenChecks s.toDev t) = none ∧ s.evr.isOpen = true) ∧
  (∀ x : Bytes, (Config.sha384 (x ++ Config.deviceId ++ [0, 31])).take 16 = Config.tokenHash 0 31 → ∃ s : State, ∃ t : TokenCheck, s.dbg.token = some t ∧ t.passed = false ∧ tokenBarred s.toDev t = none ∧ firstFail (tokenChecks s.toDev t) = none ∧ s.evr.isOpen = false) :=
  ⟨⟨S { dev with lc := { state := 0xEE, base := 3 }, dbg.token := some { token := [], index := 31, state := 0 } }, { token := [], index := 31, state := 0 }, _, by and_intros <;> first | decide +kernel | rfl⟩,
   ⟨S { dev with lc := { state := 3, base := 3 }, dbg.token := some { token := [], index := 31, state := 0 } }, { token := [], index := 31, state := 0 }, _, by and_intros <;> first | decide +kernel | rfl⟩,
   fun x hx => ⟨S (tokenDev x), { token := x, index := 31, state := 0 }, by and_intros <;> first | rfl | exact tokenPasses x hx⟩,
   fun x hx => ⟨S { tokenDev x with evr.isOpen := false }, { token := x, index := 31, state := 0 }, by and_intros <;> first | rfl | exact tokenPasses x hx⟩⟩

/-- States and operands that meet the hypotheses of `Obligations.PowerStatesAndSupplies`, one for each of its clauses. -/
theorem meets_PowerStatesAndSupplies :
  (∃ s : State, s.glb.power = .run ∧ s.glb.boot = .done) ∧
  (∃ s : State, ∃ r, s.glb.req = some r ∧ s.glb.power = .run ∧ working s.toDev = false ∧ r.standby = false) ∧
  (∃ s : State, ∃ r, s.glb.req = some r ∧ s.glb.power = .run ∧ working s.toDev = false ∧ r.standby = true ∧ allStalls.all (quiescent s.toDev) = true ∧ ringMember s.toDev = false ∧ bootSealed s.toDev = true ∧ lowLink s.toDev = true) ∧
  (∃ s : State, ∃ r, ∃ c, s.glb.req = some r ∧ r.time + 400000 ≤ s.now ∧ c = (if working s.toDev then 1 else if r.standby && !allStalls.all (quiescent s.toDev) then 2 else if r.standby && ringMember s.toDev then 3 else if r.standby && !bootSealed s.toDev then 4 else if r.standby && !lowLink s.toDev then 5 else (0 : BitVec 4)) ∧ c ≠ 0) ∧
  (∃ s : State, ∃ c : WakeCause, s.glb.power = .doze ∧ s.hif.d3hot = false ∧ c ≠ .linkLeft) ∧
  (∃ s : State, ∃ c : WakeCause, s.glb.power = .doze ∧ s.hif.d3hot = true ∧ s.hif.pmeEn = false ∧ s.glb.waking = false ∧ c ≠ .linkLeft) ∧
  (∃ s : State, ∃ c : WakeCause, s.glb.power = .standby ∧ s.hif.d3hot = true ∧ s.hif.pmeEn = true ∧ s.hif.link = .l2 ∧ s.glb.waking = false ∧ c ≠ .linkLeft ∧ c ≠ .barAccess ∧ c ≠ .krovloFrame ∧ c ≠ .timer) ∧
  (∃ s : State, ∃ c : WakeCause, s.glb.waking = true ∧ c ≠ .linkLeft) ∧
  (∃ s : State, s.glb.power = .doze ∧ s.glb.waking = true ∧ s.glb.heldAccess = []) ∧
  (∃ s : State, s.glb.power = .standby ∧ s.glb.waking = true ∧ s.glb.heldAccess = [] ∧ s.sym.rngFailed = false ∧ s.evr.failed = false) ∧
  (∃ s : State, s.glb.vmainGood = true ∧ s.glb.vbatOk = true) ∧
  (∃ s : State, s.glb.vmainGood = true ∧ s.glb.vbatOk = false) ∧
  (∃ s : State, s.glb.power = .vault) ∧
  (∃ s : State, (s.glb.power = .run ∨ s.glb.power = .doze ∨ s.glb.power = .standby)) ∧
  (∃ s : State, (s.glb.power = .run ∨ s.glb.power = .doze) ∧ s.glb.rsvOk = true) ∧
  (∃ s : State, powered s.toDev = true) ∧
  (∃ s : State, powered s.toDev = true ∧ s.key.rootWait = true ∧ s.glb.rsvOk = true ∧ s.key.grantLock = false ∧ s.tmp.hold = false ∧ s.lc.state = 3 ∧ rootStatus s.toDev 2 = 0) ∧
  (∃ s : State, s.glb.vmainGood = true) ∧
  (∃ s : State, ∃ x : Sig, bankOf s.toDev (pinBank x) = .inReset) ∧
  (∃ s : State, ∃ x : Sig, bankOf s.toDev (pinBank x) = .hiZ) ∧
  (∃ s : State, swdtOver s.toDev = true ∧ running s.toDev = true ∧ outranked s.toDev causeWdt = false) :=
  ⟨⟨S dev, by and_intros <;> first | decide +kernel | exact .inl rfl | exact .inr rfl | rfl⟩,
   ⟨S { dev with glb.req := some { standby := false, time := 0 } }, _, by and_intros <;> first | decide +kernel | exact .inl rfl | exact .inr rfl | rfl⟩,
   ⟨S { dev with glb.req := some { standby := true, time := 0 }, hif.link := .l2, hif.d3hot := true }, _, by and_intros <;> first | decide +kernel | exact .inl rfl | exact .inr rfl | rfl⟩,
   ⟨S { dev with glb.req := some { standby := true, time := 0 } }, _, 5, by and_intros <;> first | decide +kernel | exact .inl rfl | exact .inr rfl | rfl⟩,
   ⟨S { dev with glb.power := .doze }, .timer, by and_intros <;> first | decide +kernel | exact .inl rfl | exact .inr rfl | rfl⟩,
   ⟨S { dev with glb.power := .doze, hif.d3hot := true }, .timer, by and_intros <;> first | decide +kernel | exact .inl rfl | exact .inr rfl | rfl⟩,
   ⟨S { dev with glb.power := .standby, hif.d3hot := true, hif.pmeEn := true, hif.link := .l2 }, .cardDetect, by and_intros <;> first | decide +kernel | exact .inl rfl | exact .inr rfl | rfl⟩,
   ⟨S { dev with glb.power := .standby, glb.waking := true }, .tamper, by and_intros <;> first | decide +kernel | exact .inl rfl | exact .inr rfl | rfl⟩,
   ⟨S { dev with glb.power := .doze, glb.waking := true }, by and_intros <;> first | decide +kernel | exact .inl rfl | exact .inr rfl | rfl⟩,
   ⟨S { dev with glb.power := .standby, glb.waking := true }, by and_intros <;> first | decide +kernel | exact .inl rfl | exact .inr rfl | rfl⟩,
   ⟨S dev, by and_intros <;> first | decide +kernel | exact .inl rfl | exact .inr rfl | rfl⟩,
   ⟨S { dev with glb.vbatOk := false }, by and_intros <;> first | decide +kernel | exact .inl rfl | exact .inr rfl | rfl⟩,
   ⟨S { dev with glb.power := .vault }, by first | decide +kernel | exact .inl rfl | exact .inr rfl | rfl⟩,
   ⟨S dev, by first | decide +kernel | exact .inl rfl | exact .inr rfl | rfl⟩,
   ⟨S dev, by and_intros <;> first | decide +kernel | exact .inl rfl | exact .inr rfl | rfl⟩,
   ⟨S dev, by first | decide +kernel | exact .inl rfl | exact .inr rfl | rfl⟩,
   ⟨S { dev with lc.state := 3, key.rootWait := true }, by and_intros <;> first | decide +kernel | exact .inl rfl | exact .inr rfl | rfl⟩,
   ⟨S dev, by first | decide +kernel | exact .inl rfl | exact .inr rfl | rfl⟩,
   ⟨S { dev with glb.bankBf := .inReset }, .bwfRstN, by first | decide +kernel | exact .inl rfl | exact .inr rfl | rfl⟩,
   ⟨S { dev with glb.bankMgt := .hiZ }, .mgtAlertN, by first | decide +kernel | exact .inl rfl | exact .inr rfl | rfl⟩,
   ⟨S { dev with sec.swdtCount := 0 }, by and_intros <;> first | decide +kernel | exact .inl rfl | exact .inr rfl | rfl⟩⟩

/-- States and operands that meet the hypotheses of `Obligations.CrossingsAndClocks`, one for each of its clauses. -/
theorem meets_CrossingsAndClocks :
  (∃ s : State, ∃ i, ∃ d, running s.toDev = true ∧ d = timedOut s i ∧ timeoutsOf d i < 3) ∧
  (∃ s : State, ∃ i, ∃ d, running s.toDev = true ∧ d = timedOut s i ∧ 3 ≤ timeoutsOf d i) ∧
  (∃ s : State, twf s.glb.xwdStalled = true) ∧
  (∃ s : State, ∃ i, ∃ c, running s.toDev = true ∧ c = tgetD s.glb.xwdCnt (islandCode i - 1) {}) ∧
  (∃ s : State, ∃ e : Fin 4, (eng s.toDev e.val).op = none ∧ (eng s.toDev e.val).aborting = false ∧ (eng s.toDev e.val).clk ≠ wantedClk s.toDev e.val) ∧
  (∃ s : State, ∃ e : Fin 4, ∃ p : Pke, tget s.pke e.val = some p) ∧
  (∃ s : State, s.glb.power = .run ∧ s.glb.boot = .done ∧ s.glb.perstN = true ∧ s.hif.downDue = false) ∧
  (∃ s : State, ∃ w : Fin 5, ∃ sp : Fin 6, (w = 1 ∨ w = 2 ∨ w = 4) ∧ sp ≠ 0 ∧ (w.val < 4 ∨ sp.val < 5) ∧ s.glb.power = .run ∧ s.glb.boot = .done ∧ s.glb.perstN = true ∧ s.hif.downDue = false ∧ s.hif.up = false) :=
  ⟨⟨S { dev with glb.xwdTimes := [(1, 999999999)] }, .pke0, _, by and_intros <;> first | decide +kernel | exact .inl rfl | rfl⟩,
   ⟨S { dev with glb.xwdTimes := [(1, 1000000000), (1, 999999999)] }, .pke0, _, by and_intros <;> first | decide +kernel | exact .inl rfl | rfl⟩,
   ⟨S dev, by first | decide +kernel | exact .inl rfl | rfl⟩,
   ⟨S dev, .pke0, _, by and_intros <;> first | decide +kernel | exact .inl rfl | rfl⟩,
   ⟨S { dev with glb.clkCtl := 0xC0 }, 3, by and_intros <;> first | decide +kernel | exact .inl rfl | rfl⟩,
   ⟨S { dev with pke := [(3, { relock := true })] }, 3, _, by first | decide +kernel | exact .inl rfl | rfl⟩,
   ⟨S dev, by and_intros <;> first | decide +kernel | exact .inl rfl | rfl⟩,
   ⟨S { dev with hif.up := false }, 4, 4, by and_intros <;> first | decide +kernel | exact .inr (.inr rfl) | exact .inr (by decide +kernel) | rfl⟩⟩

/-- States and operands that meet the hypotheses of `Obligations.ColdStartsRunTheSteps`, one for each of its clauses. -/
theorem meets_ColdStartsRunTheSteps :
  (∃ s : State, ∃ env : StartEnv, ∃ cause : Byte, cause = (if s.glb.power = .off then (if env.lidBad = 0 ∧ env.mesh = [] ∧ env.monBad = 0 then 0x01 else 0x03) else if s.tmp.resetDue then 0x23 else 0x21) ∧ s.glb.vmainGood = false) ∧
  (∃ s : State, ∃ env : StartEnv, s.glb.boot = .waitStraps ∧ env.vioGenOk = true ∧ env.directoryOk = true ∧ s.ps.fwPending = false) ∧
  (∃ s : State, s.tmp.resetDue = true ∧ s.glb.vmainGood = true) :=
  ⟨⟨S { dev with glb.vmainGood := false, glb.power := .off }, {}, _, by and_intros <;> first | decide +kernel | rfl⟩,
   ⟨S { dev with glb.boot := .waitStraps }, {}, by and_intros <;> first | decide +kernel | rfl⟩,
   ⟨S { dev with tmp.resetDue := true }, by and_intros <;> first | decide +kernel | rfl⟩⟩

/-- States and operands that meet the hypotheses of `Obligations.WarmResetsKeepTheDevice`, one for each of its clauses. -/
theorem meets_WarmResetsKeepTheDevice :
  (∃ s : State, powered s.toDev = true ∧ s.glb.boot = .done) ∧
  (∃ s : State, powered s.toDev = true ∧ (s.glb.boot = .done ∨ (s.glb.boot = .warm ∧ s.glb.raised.getLsbD 2 = false)) ∧ s.sec.swdtCount = 0 ∧ s.glb.power = .run ∧ (∀ x ∈ s.dbg.halted, x.2 = false)) ∧
  (∃ s : State, ∃ f, powered s.toDev = true ∧ (s.glb.boot = .done ∨ (s.glb.boot = .warm ∧ s.glb.raised.getLsbD 2 = false)) ∧ s.glb.fatal = some f ∧ (f.waiting = 0 ∨ f.since + 800000 ≤ s.now)) ∧
  (∃ s : State, powered s.toDev = true ∧ s.glb.boot = .warm) ∧
  (∃ s : State, powered s.toDev = true ∧ s.glb.boot = .warm ∧ s.glb.raised.getLsbD 2 = true ∧ s.sec.swdtCount = 0 ∧ s.glb.power = .run ∧ (∀ x ∈ s.dbg.halted, x.2 = false)) ∧
  (∃ s : State, powered s.toDev = true ∧ (s.sec.swdtCount ≠ 0 ∨ s.glb.power ≠ .run ∨ (∃ x ∈ s.dbg.halted, x.2 = true))) ∧
  (∃ s : State, ∃ g : Glb, powered s.toDev = true ∧ g = { s.glb with hotWait := false, raised := 0, bankPs := .released, bankCrd := .released, bankMgt := if s.mgt.bankOff then .hiZ else .released, bankBf := if absent s.toDev || !s.glb.straps.vioBfOk then .inReset else .released } ∧ s.glb.boot = .warm) ∧
  (∃ s : State, ∃ g : Glb, powered s.toDev = true ∧ g = { s.glb with hotWait := false, raised := 0, bankPs := .released, bankCrd := .released, bankMgt := if s.mgt.bankOff then .hiZ else .released, bankBf := if absent s.toDev || !s.glb.straps.vioBfOk then .inReset else .released } ∧ s.glb.boot = .halted true) ∧
  (∃ s : State, powered s.toDev = true ∧ s.glb.fatal = none) :=
  ⟨⟨S dev, by and_intros <;> first | decide +kernel | exact .inl rfl | exact .inr rfl | rfl⟩,
   ⟨S { dev with sec.swdtCount := 0 }, by and_intros <;> first | decide +kernel | exact .inl rfl | exact .inr rfl | rfl⟩,
   ⟨S { dev with glb.fatal := some { since := 0, waiting := 0 } }, _, by and_intros <;> first | decide +kernel | exact .inl rfl | exact .inr rfl | rfl⟩,
   ⟨S { dev with glb.boot := .warm }, by and_intros <;> first | decide +kernel | exact .inl rfl | exact .inr rfl | rfl⟩,
   ⟨S { dev with glb.boot := .warm, glb.raised := 4, sec.swdtCount := 0 }, by and_intros <;> first | decide +kernel | exact .inl rfl | exact .inr rfl | rfl⟩,
   ⟨S { dev with sec.swdtCount := 1 }, by and_intros <;> first | decide +kernel | exact .inl rfl | exact .inr rfl | rfl | exact .inl rfl⟩,
   ⟨S { dev with glb.boot := .warm }, _, by and_intros <;> first | decide +kernel | exact .inl rfl | exact .inr rfl | rfl⟩,
   ⟨S { dev with glb.boot := .halted true }, _, by and_intros <;> first | decide +kernel | exact .inl rfl | exact .inr rfl | rfl⟩,
   ⟨S dev, by and_intros <;> first | decide +kernel | exact .inl rfl | exact .inr rfl | rfl⟩⟩

/-- States and operands that meet the hypotheses of `Obligations.TamperEventsZeroize`, one for each of its clauses. -/
theorem meets_TamperEventsZeroize :
  (∃ s : State, ∃ n : Fin 8, powered s.toDev = true ∧ twf s.sym.lanes = true ∧ meshOf s.toDev n.val = 0) ∧
  (∃ s : State, ∃ n : Fin 8, powered s.toDev = true ∧ twf s.sym.lanes = true ∧ meshOf s.toDev n.val ≠ 0) ∧
  (∃ s : State, ∃ n : Fin 4, powered s.toDev = true ∧ twf s.sym.lanes = true ∧ s.tmp.lid.getLsbD n.val = false) ∧
  (∃ s : State, ∃ m : Monitor, ∃ fall, powered s.toDev = true ∧ twf s.sym.lanes = true ∧ monActive s.toDev m = true ∧ monAlarmed s.toDev m = false ∧ (fall = false ∨ m ≠ .coreVoltage)) ∧
  (∃ s : State, powered s.toDev = true ∧ twf s.sym.lanes = true ∧ s.tmp.coreArmed = true) ∧
  (∃ s : State, ∃ n : Fin 8, s.glb.power = .vault ∧ meshOf s.toDev n.val = 0) ∧
  (∃ s : State, ∃ n : Fin 8, s.glb.power = .vault ∧ meshOf s.toDev n.val ≠ 0) ∧
  (∃ s : State, ∃ n : Fin 4, s.glb.power = .vault ∧ s.tmp.lid.getLsbD n.val = false) ∧
  (∃ s : State, ∃ m : Monitor, s.glb.power = .vault ∧ (m = .temperature ∨ m = .vbatOver ∨ m = .osc32) ∧ monAlarmed s.toDev m = false) ∧
  (∃ s : State, ∃ m : Monitor, s.glb.power = .vault ∧ m ≠ .temperature ∧ m ≠ .vbatOver ∧ m ≠ .osc32) ∧
  (∃ s : State, ∃ m : Monitor, s.glb.power ≠ .off ∧ m ∈ [Monitor.light, .temperature, .coreVoltage, .vmainOver, .vbatOver, .fabricClock, .xtal, .osc32]) ∧
  (∃ s : State, ∃ t0, powered s.toDev = true ∧ s.glb.rsvOk = true ∧ s.key.grantLock = false ∧ s.tmp.hold = true ∧ anyAlarm s.toDev = false ∧ s.tmp.clearSince = some t0 ∧ t0 + secondCycles ≤ s.now) ∧
  (∃ s : State, ∃ t0, powered s.toDev = true ∧ s.tmp.clearSince = some t0 ∧ s.now < t0 + secondCycles) ∧
  (∃ s : State, (s.glb.rsvOk = false ∨ s.key.grantLock = true)) :=
  ⟨⟨S dev, 7, by and_intros <;> first | decide +kernel | exact .inl rfl | exact .inr (.inr rfl) | rfl⟩,
   ⟨S { dev with tmp.mesh := [(7, 1)] }, 7, by and_intros <;> first | decide +kernel | exact .inl rfl | exact .inr (.inr rfl) | rfl⟩,
   ⟨S dev, 3, by and_intros <;> first | decide +kernel | exact .inl rfl | exact .inr (.inr rfl) | rfl⟩,
   ⟨S dev, .light, true, by and_intros <;> first | decide +kernel | exact .inl rfl | exact .inr (.inr rfl) | rfl⟩,
   ⟨S { dev with tmp.coreArmed := true }, by and_intros <;> first | decide +kernel | exact .inl rfl | exact .inr (.inr rfl) | rfl⟩,
   ⟨S { dev with glb.power := .vault }, 7, by and_intros <;> first | decide +kernel | exact .inl rfl | exact .inr (.inr rfl) | rfl⟩,
   ⟨S { dev with tmp.mesh := [(0, 1)], glb.power := .vault }, 0, by and_intros <;> first | decide +kernel | exact .inl rfl | exact .inr (.inr rfl) | rfl⟩,
   ⟨S { dev with glb.power := .vault }, 3, by and_intros <;> first | decide +kernel | exact .inl rfl | exact .inr (.inr rfl) | rfl⟩,
   ⟨S { dev with glb.power := .vault }, .osc32, by and_intros <;> first | decide +kernel | exact .inl rfl | exact .inr (.inr rfl) | rfl⟩,
   ⟨S { dev with glb.power := .vault }, .light, by and_intros <;> first | decide +kernel | exact .inl rfl | exact .inr (.inr rfl) | rfl⟩,
   ⟨S dev, .osc32, by and_intros <;> first | decide +kernel | exact .inl rfl | exact .inr (.inr rfl) | rfl⟩,
   ⟨S { dev with tmp.hold := true, tmp.clearSince := some 600000000 }, 600000000, by and_intros <;> first | decide +kernel | exact .inl rfl | exact .inr (.inr rfl) | rfl⟩,
   ⟨S { dev with tmp.hold := true, tmp.clearSince := some 600000001 }, 600000001, by and_intros <;> first | decide +kernel | exact .inl rfl | exact .inr (.inr rfl) | rfl⟩,
   ⟨S { dev with key.grantLock := true, tmp.hold := true, tmp.clearSince := some 600000000 }, by first | decide +kernel | exact .inl rfl | exact .inr (.inr rfl) | rfl⟩⟩

/-- States and operands that meet the hypotheses of `Obligations.WorldCommandsAct`, one for each of its clauses. -/
theorem meets_WorldCommandsAct :
  (∃ s : State, ∃ m : Master, masterSecure s.toDev m = true) ∧
  (∃ s : State, ∃ m : Master, ∃ k, masterSecure s.toDev m = true ∧ k ≠ 0xC35A) ∧
  (∃ s : State, ∃ m : Master, masterSecure s.toDev m = true ∧ s.sec.swdtWarned = false ∧ s.dbg.halted.any (·.2) = false ∧ s.glb.power = .run ∧ s.sec.swdtCount ≤ s.sec.swdtLoad.toNat / 8) ∧
  (∃ s : State, ∃ m : Master, masterSecure s.toDev m = true ∧ (s.sec.swdtWarned = true ∨ s.dbg.halted.any (·.2) = true ∨ s.glb.power ≠ .run ∨ s.sec.swdtLoad.toNat / 8 < s.sec.swdtCount)) ∧
  (∃ s : State, ∃ m : Master, masterSecure s.toDev m = true ∧ s.sec.hoGo = true) ∧
  (∃ s : State, ∃ m : Master, ∃ p : Fin 32, masterSecure s.toDev m = true ∧ s.sec.hoGo = false ∧ 23 ≤ p.val) ∧
  (∃ s : State, ∃ m : Master, ∃ p : Fin 32, ∃ b : Bool, masterSecure s.toDev m = true ∧ s.sec.hoGo = false ∧ p.val < 23 ∧ s.sec.own.getLsbD p.val = b) ∧
  (∃ s : State, ∃ m : Master, ∃ p : Fin 32, ∃ b : Bool, masterSecure s.toDev m = true ∧ s.sec.hoGo = false ∧ p.val < 16 ∧ s.sec.own.getLsbD p.val = !b) ∧
  (∃ s : State, ∃ m : Master, ∃ p : Fin 23, ∃ own : BitVec 23, masterSecure s.toDev m = true ∧ s.sec.hoGo = true ∧ s.sec.hoPeriph = BitVec.ofNat 5 p.val ∧ (p.val < 18 ∨ p.val = 22) ∧ own = (if s.sec.hoTo then s.sec.own ||| BitVec.ofNat 23 (2 ^ p.val) else s.sec.own &&& ~~~BitVec.ofNat 23 (2 ^ p.val))) ∧
  (∃ s : State, ∃ m : Master, masterSecure s.toDev m = true ∧ s.sec.barrier = false) ∧
  (∃ s : State, ∃ m : Master, ∃ v, ∃ l, ∃ o, masterSecure s.toDev m = true ∧ s.sec.viol = v :: l ∧ l ≠ [] ∧ o = (if v.pauses then s.glb.errD.openCauses.erase (8, 0) else s.glb.errD.openCauses)) ∧
  (∃ s : State, ∃ m : Master, ∃ v, ∃ o, masterSecure s.toDev m = true ∧ s.sec.viol = [v] ∧ o = s.glb.errD.openCauses.filter (· != (8, 0))) ∧
  (∃ s : State, ∃ m : Master, ∃ t, ∃ l, ∃ q, masterSecure s.toDev m = true ∧ s.cls.traps = t :: l ∧ t.squashed = false ∧ tget s.reqs t.rid = some q ∧ q.fragOpen = false) ∧
  (∃ s : State, ∃ m : Master, ∃ t, ∃ l, masterSecure s.toDev m = true ∧ s.cls.traps = t :: l ∧ t.squashed = true) ∧
  (∃ s : State, ∃ m : Master, ∃ n, masterSecure s.toDev m = true ∧ masterSecure s.toDev n = false) ∧
  (∃ s : State, ∃ m : Master, ∃ n, masterSecure s.toDev m = true ∧ masterSecure s.toDev n = false) :=
  ⟨⟨S dev, .cp 3 true, by first | decide +kernel | exact .inl rfl | exact .inr rfl | exact .inr (.inr (.inr (by decide +kernel))) | exact .inr (by decide +kernel) | exact List.cons_ne_nil _ _ | rfl⟩,
   ⟨S dev, .cp 3 true, 0, by and_intros <;> first | decide +kernel | exact .inl rfl | exact .inr rfl | exact .inr (.inr (.inr (by decide +kernel))) | exact .inr (by decide +kernel) | exact List.cons_ne_nil _ _ | rfl⟩,
   ⟨S { dev with sec.swdtCount := 0x1000, sec.swdtLoad := 0x8000 }, .cp 3 true, by and_intros <;> first | decide +kernel | exact .inl rfl | exact .inr rfl | exact .inr (.inr (.inr (by decide +kernel))) | exact .inr (by decide +kernel) | exact List.cons_ne_nil _ _ | rfl⟩,
   ⟨S { dev with sec.swdtCount := 0x1001, sec.swdtLoad := 0x8000 }, .cp 3 true, by and_intros <;> first | decide +kernel | exact .inl rfl | exact .inr rfl | exact .inr (.inr (.inr (by decide +kernel))) | exact .inr (by decide +kernel) | exact List.cons_ne_nil _ _ | rfl⟩,
   ⟨S { dev with sec.hoGo := true }, .cp 3 true, by and_intros <;> first | decide +kernel | exact .inl rfl | exact .inr rfl | exact .inr (.inr (.inr (by decide +kernel))) | exact .inr (by decide +kernel) | exact List.cons_ne_nil _ _ | rfl⟩,
   ⟨S dev, .cp 3 true, 23, by and_intros <;> first | decide +kernel | exact .inl rfl | exact .inr rfl | exact .inr (.inr (.inr (by decide +kernel))) | exact .inr (by decide +kernel) | exact List.cons_ne_nil _ _ | rfl⟩,
   ⟨S dev, .cp 3 true, 22, false, by and_intros <;> first | decide +kernel | exact .inl rfl | exact .inr rfl | exact .inr (.inr (.inr (by decide +kernel))) | exact .inr (by decide +kernel) | exact List.cons_ne_nil _ _ | rfl⟩,
   ⟨S { dev with sec.own := 0x7FFFFF }, .cp 3 true, 15, false, by and_intros <;> first | decide +kernel | exact .inl rfl | exact .inr rfl | exact .inr (.inr (.inr (by decide +kernel))) | exact .inr (by decide +kernel) | exact List.cons_ne_nil _ _ | rfl⟩,
   ⟨S { dev with sec.hoGo := true, sec.hoPeriph := 22 }, .cp 3 true, 22, _, by and_intros <;> first | decide +kernel | exact .inl rfl | exact .inr rfl | exact .inr (.inr (.inr (by decide +kernel))) | exact .inr (by decide +kernel) | exact List.cons_ne_nil _ _ | rfl⟩,
   ⟨S dev, .cp 3 true, by and_intros <;> first | decide +kernel | exact .inl rfl | exact .inr rfl | exact .inr (.inr (.inr (by decide +kernel))) | exact .inr (by decide +kernel) | exact List.cons_ne_nil _ _ | rfl⟩,
   ⟨S { dev with sec.viol := [{ master := 0, region := 15, slave := 0, kind := 0, caught := true, addr := 0 }, { master := 0, region := 14, slave := 0, kind := 0, caught := true, addr := 0 }] }, .cp 3 true, _, _, _, by and_intros <;> first | decide +kernel | exact .inl rfl | exact .inr rfl | exact .inr (.inr (.inr (by decide +kernel))) | exact .inr (by decide +kernel) | exact List.cons_ne_nil _ _ | rfl⟩,
   ⟨S { dev with sec.viol := [{ master := 0x10, region := 0, slave := 0, kind := 0, caught := true, addr := 0 }] }, .cp 3 true, _, _, by and_intros <;> first | decide +kernel | exact .inl rfl | exact .inr rfl | exact .inr (.inr (.inr (by decide +kernel))) | exact .inr (by decide +kernel) | exact List.cons_ne_nil _ _ | rfl⟩,
   ⟨S { dev with cls.traps := [{ rid := 0, squashed := false, pass2 := false, entry := 0, issuer := 0, epoch := 0, cell := 0 }], reqs := [(0, { issuer := .pf, stage := .trapped })] }, .cp 3 true, _, _, _, by and_intros <;> first | decide +kernel | exact .inl rfl | exact .inr rfl | exact .inr (.inr (.inr (by decide +kernel))) | exact .inr (by decide +kernel) | exact List.cons_ne_nil _ _ | rfl⟩,
   ⟨S { dev with cls.traps := [{ rid := 0, squashed := true, pass2 := false, entry := 0, issuer := 0, epoch := 0, cell := 0 }] }, .cp 3 true, _, _, by and_intros <;> first | decide +kernel | exact .inl rfl | exact .inr rfl | exact .inr (.inr (.inr (by decide +kernel))) | exact .inr (by decide +kernel) | exact List.cons_ne_nil _ _ | rfl⟩,
   ⟨S dev, .cp 3 true, .cp 3 false, by and_intros <;> first | decide +kernel | exact .inl rfl | exact .inr rfl | exact .inr (.inr (.inr (by decide +kernel))) | exact .inr (by decide +kernel) | exact List.cons_ne_nil _ _ | rfl⟩,
   ⟨S dev, .cp 3 true, .cp 3 false, by and_intros <;> first | decide +kernel | exact .inl rfl | exact .inr rfl | exact .inr (.inr (.inr (by decide +kernel))) | exact .inr (by decide +kernel) | exact List.cons_ne_nil _ _ | rfl⟩⟩

/-- States and operands that meet the hypotheses of `Obligations.HostAccessesReachRegistersAndBoards`, one for each of its clauses. -/
theorem meets_HostAccessesReachRegistersAndBoards :
  (∃ s : State, ∃ f : Func, ∃ a : Nat, ∃ n : Nat, ∃ v : Bytes, ∃ p, ∃ o, hostReady s f ∧ v.length = n ∧ locate s.toDev f a = .reg p o ∧ regShape a n = true ∧ (wordOffs o n).any (moving s.toDev p) = false ∧ (wordOffs o n).any (hostDenied s.toDev p) = false) ∧
  (∃ s : State, ∃ f : Func, ∃ a : Nat, ∃ n : Nat, ∃ v : Bytes, ∃ p, ∃ o, hostReady s f ∧ v.length = n ∧ locate s.toDev f a = .reg p o ∧ regShape a n = true ∧ (wordOffs o n).any (moving s.toDev p) = false ∧ (wordOffs o n).any (hostDenied s.toDev p) = true) ∧
  (∃ s : State, ∃ f : Func, ∃ a : Nat, ∃ n : Nat, ∃ v : Bytes, ∃ p, ∃ o, hostReady s f ∧ v.length = n ∧ locate s.toDev f a = .reg p o ∧ regShape a n = true ∧ (wordOffs o n).any (moving s.toDev p) = false) ∧
  (∃ s : State, ∃ f : Func, ∃ a : Nat, ∃ n : Nat, ∃ v : Bytes, ∃ p, ∃ o, hostReady s f ∧ v.length = n ∧ locate s.toDev f a = .reg p o ∧ regShape a n = true ∧ (wordOffs o n).any (moving s.toDev p) = true) ∧
  (∃ s : State, ∃ f : Func, ∃ a : Nat, ∃ n : Nat, ∃ v : Bytes, ∃ p, ∃ o, hostReady s f ∧ v.length = n ∧ locate s.toDev f a = .reg p o ∧ regShape a n = false) ∧
  (∃ s : State, ∃ f : Func, ∃ a : Nat, ∃ n : Nat, ∃ v : Bytes, hostReady s f ∧ v.length = n ∧ locate s.toDev f a = .nothing ∧ regShape a n = true) ∧
  (∃ s : State, ∃ f : Func, ∃ a : Nat, ∃ n : Nat, ∃ v : Bytes, hostReady s f ∧ v.length = n ∧ f = .pf ∧ a = 0x24 ∧ n = 1) ∧
  (∃ s : State, ∃ f : Func, ∃ a : Nat, ∃ n : Nat, ∃ v : Bytes, hostReady s f ∧ v.length = n ∧ f = .pf ∧ a = 0x18 ∧ n = 1) ∧
  (∃ s : State, ∃ f : Func, ∃ a : Nat, ∃ n : Nat, ∃ v : Bytes, hostReady s f ∧ v.length = n ∧ f = .pf ∧ a = 0x80 ∧ n = 4) ∧
  (∃ s : State, ∃ f : Func, ∃ a : Nat, ∃ v : Bytes, ∃ k : Fin 64, ∃ o : Nat, hostReady s f ∧ memWf s.stl.boards = true ∧ locate s.toDev f a = .board k o ∧ memShape o v.length 4096 = true ∧ (f = .pf ∨ enabled (stall s.toDev k.val) = true)) ∧
  (∃ s : State, ∃ f : Func, ∃ a : Nat, ∃ v : Bytes, ∃ k : Fin 64, ∃ o : Nat, hostReady s f ∧ memWf s.stl.boards = true ∧ locate s.toDev f a = .board k o ∧ memShape o v.length 4096 = true ∧ f ≠ .pf ∧ enabled (stall s.toDev k.val) = false) :=
  ⟨⟨S { dev with hif.cfg := [(64, { memEnable := true })] }, .pf, 0x18, 8, zeros 8, _, _, by and_intros <;> first | decide +kernel | exact .inl rfl | exact .inr rfl | rfl⟩,
   ⟨S { dev with hif.cfg := [(64, { memEnable := true })] }, .pf, 0x10000, 4, zeros 4, _, _, by and_intros <;> first | decide +kernel | exact .inl rfl | exact .inr rfl | rfl⟩,
   ⟨S { dev with hif.cfg := [(64, { memEnable := true })] }, .pf, 0x10000, 4, zeros 4, _, _, by and_intros <;> first | decide +kernel | exact .inl rfl | exact .inr rfl | rfl⟩,
   ⟨S { dev with hif.cfg := [(64, { memEnable := true })], sec.hoGo := true, sec.hoPeriph := 21 }, .pf, 0x43000, 4, zeros 4, _, _, by and_intros <;> first | decide +kernel | exact .inl rfl | exact .inr rfl | rfl⟩,
   ⟨S { dev with hif.cfg := [(64, { memEnable := true })] }, .pf, 0x19, 2, zeros 2, _, _, by and_intros <;> first | decide +kernel | exact .inl rfl | exact .inr rfl | rfl⟩,
   ⟨S { dev with hif.cfg := [(64, { memEnable := true })] }, .pf, 0x100000, 4, zeros 4, by and_intros <;> first | decide +kernel | exact .inl rfl | exact .inr rfl | rfl⟩,
   ⟨S { dev with hif.cfg := [(64, { memEnable := true })] }, .pf, 0x24, 1, [0xFF], by and_intros <;> first | decide +kernel | exact .inl rfl | exact .inr rfl | rfl⟩,
   ⟨S { dev with hif.cfg := [(64, { memEnable := true })] }, .pf, 0x18, 1, [0], by and_intros <;> first | decide +kernel | exact .inl rfl | exact .inr rfl | rfl⟩,
   ⟨S { dev with hif.cfg := [(64, { memEnable := true })] }, .pf, 0x80, 4, zeros 4, by and_intros <;> first | decide +kernel | exact .inl rfl | exact .inr rfl | rfl⟩,
   ⟨S { dev with hif.cfg := [(64, { memEnable := true })] }, .pf, 0x33FFFC, zeros 4, 63, 4092, by and_intros <;> first | decide +kernel | exact .inl rfl | exact .inr rfl | rfl⟩,
   ⟨S { dev with hif := { up := true, link := .l0, vfEnable := true, vfCount := 64, vfMse := true } }, .vf 0, 0x1FFC, zeros 4, 0, 4092, by and_intros <;> first | decide +kernel | exact .inl rfl | exact .inr rfl | rfl⟩⟩

/-- States and operands that meet the hypotheses of `Obligations.InnerAccessesAreChecked`, one for each of its clauses. -/
theorem meets_InnerAccessesAreChecked :
  (∃ s : State, ∃ m : Master, ∃ a : Nat, ∃ v : Bytes, ∃ x, isHost m = false ∧ s.glb.power = .run ∧ v ≠ [] ∧ writeKind m = Kind.write ∧ denial s.toDev m (inner s.toDev a) a v.length Kind.write = some x) ∧
  (∃ s : State, ∃ m : Master, ∃ a : Nat, ∃ v : Bytes, ∃ x, isHost m = false ∧ s.glb.power = .run ∧ v ≠ [] ∧ writeKind m = Kind.atomic ∧ denial s.toDev m (inner s.toDev a) a v.length Kind.atomic = some x) ∧
  (∃ s : State, ∃ m : Master, ∃ a : Nat, ∃ v : Bytes, ∃ x, ∃ k, isHost m = false ∧ s.glb.power = .run ∧ v ≠ [] ∧ readKind m = k ∧ k ≠ Kind.fetch ∧ denial s.toDev m (inner s.toDev a) a v.length k = some x) ∧
  (∃ s : State, ∃ m : Master, ∃ a : Nat, ∃ v : Bytes, ∃ x, isHost m = false ∧ s.glb.power = .run ∧ v ≠ [] ∧ readKind m = Kind.fetch ∧ denial s.toDev m (inner s.toDev a) a v.length Kind.fetch = some x) ∧
  (∃ s : State, ∃ m : Master, ∃ a : Nat, ∃ v : Bytes, isHost m = false ∧ s.glb.power = .run ∧ v ≠ [] ∧ writeKind m = Kind.write ∧ denial s.toDev m (inner s.toDev a) a v.length Kind.write = none ∧ inner s.toDev a = .sram) ∧
  (∃ s : State, ∃ m : Master, ∃ a : Nat, ∃ v : Bytes, isHost m = false ∧ s.glb.power = .run ∧ v ≠ [] ∧ writeKind m = Kind.atomic ∧ denial s.toDev m (inner s.toDev a) a v.length Kind.atomic = none ∧ inner s.toDev a = .sram) ∧
  (∃ s : State, ∃ m : Master, ∃ a : Nat, ∃ v : Bytes, isHost m = false ∧ s.glb.power = .run ∧ v ≠ [] ∧ denial s.toDev m (inner s.toDev a) a v.length (readKind m) = none ∧ inner s.toDev a = .sram) ∧
  (∃ s : State, ∃ m : Master, ∃ a : Nat, ∃ v : Bytes, ∃ u : AccUse, isHost m = false ∧ s.glb.power = .run ∧ v ≠ [] ∧ 0x20000000 ≤ a ∧ a < 0x20800000 ∧ m = .cp 0 true u ∧ u.kind ≠ .atomic) ∧
  (∃ s : State, ∃ m : Master, ∃ a : Nat, ∃ v : Bytes, ∃ u : AccUse, isHost m = false ∧ s.glb.power = .run ∧ v ≠ [] ∧ 0x20000000 ≤ a ∧ a < 0x20800000 ∧ m = .cp 0 true u ∧ u.kind = .data) ∧
  (∃ s : State, ∃ m : Master, ∃ a : Nat, ∃ v : Bytes, ∃ u : AccUse, isHost m = false ∧ s.glb.power = .run ∧ v ≠ [] ∧ 0x20000000 ≤ a ∧ a < 0x20800000 ∧ m = .cp 0 true u ∧ u.kind = .fetch ∧ settled s.toDev = true ∧ sramSecure s.toDev a = true) ∧
  (∃ s : State, ∃ m : Master, ∃ a : Nat, ∃ v : Bytes, ∃ u : AccUse, isHost m = false ∧ s.glb.power = .run ∧ v ≠ [] ∧ 0x20000000 ≤ a ∧ a < 0x20800000 ∧ m = .cp 0 true u ∧ u.kind = .fetch ∧ settled s.toDev = true ∧ sramSecure s.toDev a = false) ∧
  (∃ s : State, ∃ m : Master, ∃ a : Nat, ∃ v : Bytes, isHost m = false ∧ s.glb.power = .run ∧ v ≠ [] ∧ settled s.toDev = true ∧ 0x20000000 ≤ a ∧ a < 0x20800000 ∧ writeKind m = Kind.write ∧ masterSecure s.toDev m = false ∧ sramSecure s.toDev a = true ∧ deciding s.sec.mpu (16 * masterNum m) 16 a = none) ∧
  (∃ s : State, ∃ m : Master, ∃ a : Nat, ∃ v : Bytes, ∃ r, isHost m = false ∧ s.glb.power = .run ∧ v ≠ [] ∧ settled s.toDev = true ∧ 0x20000000 ≤ a ∧ a < 0x20800000 ∧ writeKind m = Kind.write ∧ masterSecure s.toDev m = false ∧ sramSecure s.toDev a = true ∧ deciding s.sec.mpu (16 * masterNum m) 16 a = some r ∧ allowed r.2 false Kind.write = true) :=
  ⟨⟨S dev, .cp 1 false, 0x207FFFFF, [1], _, by and_intros <;> first | decide +kernel | rfl⟩,
   ⟨S dev, .cp 1 false { kind := .atomic }, 0x207FFFFF, [1], _, by and_intros <;> first | decide +kernel | rfl⟩,
   ⟨S dev, .cp 1 false, 0x207FFFFF, [1], _, _, by and_intros <;> first | decide +kernel | rfl⟩,
   ⟨S dev, .cp 1 false { kind := .fetch }, 0x207FFFFF, [1], _, by and_intros <;> first | decide +kernel | rfl⟩,
   ⟨S dev, .cp 0 true, 0x20000000, [1], by and_intros <;> first | decide +kernel | rfl⟩,
   ⟨S { dev with sec.mpu := [(16 * masterNum (.cp 0 true), { base := 0, limit := 0xFFFFF, en := true, perm := 0xFF })], sec.fw := [(0, { base := 0, limit := 0xFFFFF, en := true, perm := 0xFF, mask := 0xFFFFFFFF })] }, .cp 0 true { kind := .atomic }, 0x207FFFFF, [1], by and_intros <;> first | decide +kernel | rfl⟩,
   ⟨S dev, .cp 0 true, 0x207FFFFF, [1], by and_intros <;> first | decide +kernel | rfl⟩,
   ⟨S dev, .cp 0 true, 0x207FFFFF, [1], {}, by and_intros <;> first | decide +kernel | rfl⟩,
   ⟨S dev, .cp 0 true, 0x207FFFFF, [1], {}, by and_intros <;> first | decide +kernel | rfl⟩,
   ⟨S dev, .cp 0 true { kind := .fetch }, 0x207FFFFF, [1], { kind := .fetch }, by and_intros <;> first | decide +kernel | rfl⟩,
   ⟨S { dev with sec.wmSram := 0 }, .cp 0 true { kind := .fetch }, 0x20000000, [1], { kind := .fetch }, by and_intros <;> first | decide +kernel | rfl⟩,
   ⟨S dev, .cp 1 false, 0x207FFFFF, [1], by and_intros <;> first | decide +kernel | rfl⟩,
   ⟨S { dev with sec.mpu := [(16 * masterNum (.cp 1 false), { base := 0, limit := 0xFFFFF, en := true, perm := 0x0F })] }, .cp 1 false, 0x207FFFFF, [1], _, by and_intros <;> first | decide +kernel | rfl⟩⟩

/-- States and operands that meet the hypotheses of `Obligations.LedgerCheckAndPause`, one for each of its clauses. -/
theorem meets_LedgerCheckAndPause :
  (∃ s : State, ∃ t0, (s.glb.power = .run ∨ s.glb.power = .doze) ∧ s.ldg.initAt = some t0 ∧ t0 + 1024 ≤ s.now ∧ Safety.ledgerOk s.toDev) ∧
  (∃ s : State, ∃ t0, ∃ l, (s.glb.power = .run ∨ s.glb.power = .doze) ∧ s.ldg.initAt = some t0 ∧ t0 + 1024 ≤ s.now ∧ failedPools s.toDev = l ∧ l ≠ []) ∧
  (∃ s : State, (s.ldg.initAt = none ∨ (∃ t0, s.ldg.initAt = some t0 ∧ s.now < t0 + 1024) ∨ (s.glb.power ≠ .run ∧ s.glb.power ≠ .doze))) ∧
  (∃ s : State, s.glb.errD.paused = true ∧ s.glb.errD.since + secondCycles / 10 ≤ s.now) ∧
  (∃ s : State, (s.glb.errD.paused = false ∨ s.now < s.glb.errD.since + secondCycles / 10)) :=
  ⟨⟨S { dev with ldg.initAt := some 999998976 }, 999998976, by and_intros <;> first | decide +kernel | exact .inl rfl | exact .inr rfl | exact fun _ => poolOk_empty | rfl⟩,
   ⟨S { dev with ldg := { pools := [(5, { issued := 1 })], initAt := some 999998976 } }, 999998976, [5], by and_intros <;> first | decide +kernel | exact .inl rfl | exact .inr rfl | rfl⟩,
   ⟨S { dev with ldg.initAt := some 999998977 }, by first | decide +kernel | exact .inr (.inl ⟨_, rfl, by decide +kernel⟩) | rfl | exact .inl rfl⟩,
   ⟨S { dev with glb.errD := { paused := true, since := 960000000 } }, by and_intros <;> first | decide +kernel | exact .inl rfl | exact .inr rfl | rfl⟩,
   ⟨S { dev with glb.errD := { paused := true, since := 960000001 } }, by first | decide +kernel | exact .inr (by decide +kernel) | rfl⟩⟩

/-- States and operands that meet the hypotheses of `Obligations.PcieFunctionsAndResets`, one for each of its clauses. -/
theorem meets_PcieFunctionsAndResets :
  (∃ s : State, s.hif.vfEnable = false ∧ s.hif.vfRemoving = false ∧ (s.hif.ariHier = true ∨ s.hif.numVfs.toNat ≤ 7)) ∧
  (∃ s : State, s.hif.vfEnable = true) ∧
  (∃ s : State, s.hif.vfEnable = false ∧ s.hif.vfRemoving = true) ∧
  (∃ s : State, ∃ n : Fin 64, vfExists s.toDev n.val = true ∧ enabled (stall s.toDev n.val) = true ∧ (stall s.toDev n.val).job = none) ∧
  (∃ s : State, ∃ n : Fin 64, vfExists s.toDev n.val = true ∧ enabled (stall s.toDev n.val) = false) ∧
  (∃ s : State, ∃ f : Func, ∃ v : Fin 16, ∃ c, c = cfgOf s.toDev f ∧ c.pba.getLsbD v.val = true ∧ c.msixEnable = true ∧ c.busMaster = true ∧ c.funcMask = false ∧ s.hif.d3hot = false) ∧
  (∃ s : State, ∃ f : Func, ∃ v : Fin 16, ∃ c, c = cfgOf s.toDev f ∧ c.pba.getLsbD v.val = false) ∧
  (∃ s : State, s.hif.up = true) ∧
  (∃ s : State, s.hif.d3hot = true) ∧
  (∃ s : State, s.hif.d3hot = false) ∧
  (∃ s : State, ∃ f : Func, s.hif.up = true ∧ crossStalled s.toDev .pcie = false ∧ s.glb.power = .run ∧ (s.glb.boot ≠ .done ∨ s.glb.hotWait = true ∨ funcBusy s.toDev f = true)) ∧
  (∃ s : State, ∃ n : Fin 64, s.glb.power = .run ∧ s.hif.up = true ∧ crossStalled s.toDev .pcie = false ∧ s.glb.boot = .done ∧ s.glb.hotWait = false ∧ funcBusy s.toDev (.vf n) = false ∧ s.hif.vfCount ≤ n.val) ∧
  (∃ s : State, s.glb.power = .run ∧ s.hif.up = true ∧ crossStalled s.toDev .pcie = false ∧ s.glb.boot = .done ∧ s.glb.hotWait = false ∧ s.hif.pfFlrBusy = false) ∧
  (∃ s : State, s.glb.power = .run ∧ s.hif.up = true ∧ crossStalled s.toDev .pcie = false ∧ s.glb.boot = .done ∧ s.glb.hotWait = false ∧ s.hif.pfFlrBusy = false) ∧
  (∃ s : State, s.glb.power = .doze ∧ s.hif.up = true ∧ crossStalled s.toDev .pcie = false ∧ s.hif.d3hot = false) ∧
  (∃ s : State, ∃ c : HotCause, hotArises s.toDev c = true ∧ powered s.toDev = true ∧ s.glb.boot = .done) ∧
  (∃ s : State, (s.hif.up = false ∨ crossStalled s.toDev .pcie = true)) ∧
  (∃ s : State, ∃ c : HotCause, hotArises s.toDev c = true ∧ powered s.toDev = true ∧ s.glb.boot ≠ .done) ∧
  (∃ s : State, ∃ c : HotCause, hotArises s.toDev c = false) :=
  ⟨⟨S { dev with hif.numVfs := 7 }, by and_intros <;> first | decide +kernel | exact .inl rfl | exact .inr rfl | rfl⟩,
   ⟨S { dev with hif.vfEnable := true }, by first | decide +kernel | exact .inl rfl | exact .inr rfl | rfl⟩,
   ⟨S { dev with hif.vfRemoving := true }, by and_intros <;> first | decide +kernel | exact .inl rfl | exact .inr rfl | rfl⟩,
   ⟨S { dev with hif := { up := true, link := .l0, vfEnable := true, vfCount := 64, vfMse := true }, stl.stalls := [(63, { st := .faulted })] }, 63, by and_intros <;> first | decide +kernel | exact .inl rfl | exact .inr rfl | rfl⟩,
   ⟨S { dev with hif := { up := true, link := .l0, vfEnable := true, vfCount := 64, vfMse := true }, stl.stalls := [(63, { st := .disabled })] }, 63, by and_intros <;> first | decide +kernel | exact .inl rfl | exact .inr rfl | rfl⟩,
   ⟨S { dev with hif.cfg := [(64, { pba := 0x8000, msixEnable := true, busMaster := true })] }, .pf, 15, _, by and_intros <;> first | decide +kernel | exact .inl rfl | exact .inr rfl | rfl⟩,
   ⟨S dev, .pf, 15, _, by and_intros <;> first | decide +kernel | exact .inl rfl | exact .inr rfl | rfl⟩,
   ⟨S dev, by first | decide +kernel | exact .inl rfl | exact .inr rfl | rfl⟩,
   ⟨S { dev with hif.d3hot := true }, by first | decide +kernel | exact .inl rfl | exact .inr rfl | rfl⟩,
   ⟨S dev, by first | decide +kernel | exact .inl rfl | exact .inr rfl | rfl⟩,
   ⟨S { dev with glb.hotWait := true }, .pf, by and_intros <;> first | decide +kernel | exact .inr (.inl rfl) | rfl⟩,
   ⟨S { dev with hif.vfCount := 63 }, 63, by and_intros <;> first | decide +kernel | exact .inl rfl | exact .inr rfl | rfl⟩,
   ⟨S dev, by and_intros <;> first | decide +kernel | exact .inl rfl | exact .inr rfl | rfl⟩,
   ⟨S dev, by and_intros <;> first | decide +kernel | exact .inl rfl | exact .inr rfl | rfl⟩,
   ⟨S { dev with glb.power := .doze }, by and_intros <;> first | decide +kernel | exact .inl rfl | exact .inr rfl | rfl⟩,
   ⟨S dev, .perst, by and_intros <;> first | decide +kernel | exact .inl rfl | exact .inr rfl | rfl⟩,
   ⟨S { dev with hif.up := false }, by first | decide +kernel | exact .inl rfl | exact .inr rfl | rfl⟩,
   ⟨S { dev with glb.boot := .warm }, .dlDown, by and_intros <;> first | decide +kernel | exact .inl rfl | exact .inr rfl | rfl⟩,
   ⟨S { dev with glb.perstN := false }, .perst, by first | decide +kernel | exact .inl rfl | exact .inr rfl | rfl⟩⟩

/-- States and operands that meet the hypotheses of `Obligations.PcieErrorsAndReads`, one for each of its clauses. -/
theorem meets_PcieErrorsAndReads :
  (∃ s : State, s.hif.up = true) ∧
  (∃ s : State, s.hif.up = true ∧ twf s.hif.tags = true) ∧
  (∃ s : State, s.hif.up = false) ∧
  (∃ s : State, ∃ t, ∃ e, crossStalled s.toDev .pcie = false ∧ tget s.hif.tags t = some e ∧ e.fenced = true) ∧
  (∃ s : State, ∃ t, ∃ f : Func, ∃ rid : Nat, ∃ q, ∃ b : Bytes, crossStalled s.toDev .pcie = false ∧ tget s.hif.tags t = some { func := f, use := .params rid } ∧ tget s.reqs rid = some q ∧ q.stage = .awaitData ∧ b.length = ohLen q.bytes - 32) ∧
  (∃ s : State, ∃ t, ∃ f, ∃ rid, ∃ q, crossStalled s.toDev .pcie = false ∧ tget s.hif.tags t = some { func := f, use := .params rid } ∧ tget s.reqs rid = some q) ∧
  (∃ s : State, ∃ t, (tget s.hif.tags t = none ∨ crossStalled s.toDev .pcie = true)) :=
  ⟨⟨S dev, by first | decide +kernel | exact .inl rfl | exact .inr rfl | rfl⟩,
   ⟨S dev, by and_intros <;> first | decide +kernel | exact .inl rfl | exact .inr rfl | rfl⟩,
   ⟨S { dev with hif.up := false }, by first | decide +kernel | exact .inl rfl | exact .inr rfl | rfl⟩,
   ⟨S { dev with hif.tags := [(255, { func := .pf, use := .params 0, fenced := true })], reqs := [(0, { issuer := .pf, stage := .awaitData, bytes := zeros 64 })] }, 255, _, by and_intros <;> first | decide +kernel | exact .inl rfl | exact .inr rfl | rfl⟩,
   ⟨S { dev with hif.tags := [(255, { func := .pf, use := .params 0, fenced := false })], reqs := [(0, { issuer := .pf, stage := .awaitData, bytes := zeros 8 ++ [40] ++ zeros 55 })] }, 255, .pf, 0, _, zeros 8, by and_intros <;> first | decide +kernel | exact .inl rfl | exact .inr rfl | rfl⟩,
   ⟨S { dev with hif.tags := [(255, { func := .pf, use := .params 0, fenced := false })], reqs := [(0, { issuer := .pf, stage := .awaitData, bytes := zeros 64 })] }, 255, .pf, 0, _, by and_intros <;> first | decide +kernel | exact .inl rfl | exact .inr rfl | rfl⟩,
   ⟨S dev, 255, by first | decide +kernel | exact .inl rfl | exact .inr rfl | rfl⟩⟩

/-- States and operands that meet the hypotheses of `Obligations.StallOperationsAct`, one for each of its clauses. -/
theorem meets_StallOperationsAct :
  (∃ s : State, ∃ n : Fin 64, ∃ x : Stall, x = stall s.toDev n.val ∧ memWf s.stl.boards = true ∧ twf s.reqs = true ∧ x.st = .disabled ∧ vfExists s.toDev n.val = true ∧ n.val < partN s.toDev ∧ (enabledCount s.toDev + 1) * slotShare s.toDev + slotsOf s.toDev .pf ≤ 4096) ∧
  (∃ s : State, ∃ n : Fin 64, ∃ x : Stall, x = stall s.toDev n.val ∧ memWf s.stl.boards = true ∧ twf s.reqs = true ∧ x.st = .active) ∧
  (∃ s : State, ∃ n : Fin 64, ∃ x : Stall, x = stall s.toDev n.val ∧ memWf s.stl.boards = true ∧ twf s.reqs = true ∧ x.st = .paused) ∧
  (∃ s : State, ∃ n : Fin 64, ∃ x : Stall, x = stall s.toDev n.val ∧ memWf s.stl.boards = true ∧ twf s.reqs = true ∧ (x.st = .ready ∨ x.st = .active ∨ x.st = .paused ∨ x.st = .faulted) ∧ x.job = none) ∧
  (∃ s : State, ∃ n : Fin 64, ∃ x : Stall, x = stall s.toDev n.val ∧ memWf s.stl.boards = true ∧ twf s.reqs = true ∧ x.st ≠ .disabled) ∧
  (∃ s : State, ∃ n : Fin 64, ∃ x : Stall, x = stall s.toDev n.val ∧ memWf s.stl.boards = true ∧ twf s.reqs = true ∧ x.st ≠ .active) ∧
  (∃ s : State, ∃ n : Fin 64, ∃ x : Stall, x = stall s.toDev n.val ∧ memWf s.stl.boards = true ∧ twf s.reqs = true ∧ x.st ≠ .paused) ∧
  (∃ s : State, ∃ n : Fin 64, ∃ x : Stall, x = stall s.toDev n.val ∧ memWf s.stl.boards = true ∧ twf s.reqs = true ∧ x.st = .disabled ∧ x.job = none) :=
  ⟨⟨S { dev with hif.vfEnable := true, hif.vfCount := 64 }, 63, _, by and_intros <;> first | decide +kernel | exact .inl rfl | exact .inr rfl | exact .inr (.inr (.inr rfl)) | rfl⟩,
   ⟨S { dev with hif.vfEnable := true, hif.vfCount := 64, stl.stalls := [(63, { st := .active })] }, 63, _, by and_intros <;> first | decide +kernel | exact .inl rfl | exact .inr rfl | exact .inr (.inr (.inr rfl)) | rfl⟩,
   ⟨S { dev with hif.vfEnable := true, hif.vfCount := 64, stl.stalls := [(63, { st := .paused })] }, 63, _, by and_intros <;> first | decide +kernel | exact .inl rfl | exact .inr rfl | exact .inr (.inr (.inr rfl)) | rfl⟩,
   ⟨S { dev with hif.vfEnable := true, hif.vfCount := 64, stl.stalls := [(63, { st := .faulted })] }, 63, _, by and_intros <;> first | decide +kernel | exact .inl rfl | exact .inr rfl | exact .inr (.inr (.inr rfl)) | rfl⟩,
   ⟨S { dev with hif.vfEnable := true, hif.vfCount := 64, stl.stalls := [(63, { st := .removing })] }, 63, _, by and_intros <;> first | decide +kernel | exact .inl rfl | exact .inr rfl | exact .inr (.inr (.inr rfl)) | rfl⟩,
   ⟨S dev, 63, _, by and_intros <;> first | decide +kernel | exact .inl rfl | exact .inr rfl | exact .inr (.inr (.inr rfl)) | rfl⟩,
   ⟨S dev, 63, _, by and_intros <;> first | decide +kernel | exact .inl rfl | exact .inr rfl | exact .inr (.inr (.inr rfl)) | rfl⟩,
   ⟨S dev, 63, _, by and_intros <;> first | decide +kernel | exact .inl rfl | exact .inr rfl | exact .inr (.inr (.inr rfl)) | rfl⟩⟩

/-- States and operands that meet the hypotheses of `Obligations.StallResetsEndAndPartitionsChange`, one for each of its clauses. -/
theorem meets_StallResetsEndAndPartitionsChange :
  (∃ s : State, ∃ n : Fin 64, ∃ x : Stall, ∃ j, x = stall s.toDev n.val ∧ memWf s.stl.boards = true ∧ twf s.reqs = true ∧ x.job = some j ∧ j.mode = .drain ∧ j.drained = false ∧ j.since + 800000 ≤ s.now) ∧
  (∃ s : State, ∃ n : Fin 64, ∃ x : Stall, ∃ j, x = stall s.toDev n.val ∧ memWf s.stl.boards = true ∧ twf s.reqs = true ∧ x.job = some j ∧ (j.mode = .squash ∨ j.drained = true ∨ s.now < j.since + 800000)) ∧
  (∃ s : State, ∃ n : Fin 64, ∃ x : Stall, ∃ j, x = stall s.toDev n.val ∧ memWf s.stl.boards = true ∧ twf s.reqs = true ∧ x.job = some j ∧ (j.mode = .squash ∨ j.drained = true)) ∧
  (∃ s : State, ∃ n : Fin 64, ∃ x : Stall, x = stall s.toDev n.val ∧ memWf s.stl.boards = true ∧ twf s.reqs = true ∧ x.job = none ∧ s.hif.pfFlrBusy = false ∧ s.hif.vfRemoving = false) ∧
  (∃ s : State, ∃ n : Fin 64, ∃ x : Stall, x = stall s.toDev n.val ∧ memWf s.stl.boards = true ∧ twf s.reqs = true ∧ x.job ≠ none) ∧
  (∃ s : State, ∃ n : Fin 64, ∃ x : Stall, ∃ k : Fin 8, ∃ st, x = stall s.toDev n.val ∧ memWf s.stl.boards = true ∧ twf s.reqs = true ∧ firstFail (partChecks s.toDev (min k.val 6)) = some st) ∧
  (∃ s : State, ∃ n : Fin 64, ∃ x : Stall, ∃ k : Fin 8, x = stall s.toDev n.val ∧ memWf s.stl.boards = true ∧ twf s.reqs = true ∧ firstFail (partChecks s.toDev (min k.val 6)) = none) :=
  ⟨⟨S { dev with hif.vfEnable := true, hif.vfCount := 64, stl.stalls := [(63, { st := .resetting, job := some { mode := .drain, cause := 1, removal := true, drained := false, since := 999200000 } })] }, 63, _, _, by and_intros <;> first | decide +kernel | exact .inl rfl | exact .inr rfl | exact .inr (.inl rfl) | exact .inr (.inr (by decide +kernel)) | exact fun h => nomatch h | rfl⟩,
   ⟨S { dev with hif.vfEnable := true, hif.vfCount := 64, stl.stalls := [(63, { st := .resetting, job := some { mode := .drain, cause := 1, removal := true, drained := false, since := 999200001 } })] }, 63, _, _, by and_intros <;> first | decide +kernel | exact .inl rfl | exact .inr rfl | exact .inr (.inl rfl) | exact .inr (.inr (by decide +kernel)) | exact fun h => nomatch h | rfl⟩,
   ⟨S { dev with hif.vfEnable := true, hif.vfCount := 64, stl.stalls := [(63, { st := .resetting, job := some { mode := .drain, cause := 1, removal := true, drained := true, since := 0 } })] }, 63, _, _, by and_intros <;> first | decide +kernel | exact .inl rfl | exact .inr rfl | exact .inr (.inl rfl) | exact .inr (.inr (by decide +kernel)) | exact fun h => nomatch h | rfl⟩,
   ⟨S dev, 63, _, by and_intros <;> first | decide +kernel | exact .inl rfl | exact .inr rfl | exact .inr (.inl rfl) | exact .inr (.inr (by decide +kernel)) | exact fun h => nomatch h | rfl⟩,
   ⟨S { dev with hif.vfEnable := true, hif.vfCount := 64, stl.stalls := [(63, { st := .resetting, job := some { mode := .squash, cause := 1, removal := true, drained := false, since := 0 } })] }, 63, _, by and_intros <;> first | decide +kernel | exact .inl rfl | exact .inr rfl | exact .inr (.inl rfl) | exact .inr (.inr (by decide +kernel)) | exact fun h => nomatch h | rfl⟩,
   ⟨S { dev with hif.vfEnable := true, hif.vfCount := 64, stl.stalls := [(63, { st := .active })] }, 63, _, 0, _, by and_intros <;> first | decide +kernel | exact .inl rfl | exact .inr rfl | exact .inr (.inl rfl) | exact .inr (.inr (by decide +kernel)) | exact fun h => nomatch h | rfl⟩,
   ⟨S dev, 63, _, 7, by and_intros <;> first | decide +kernel | exact .inl rfl | exact .inr rfl | exact .inr (.inl rfl) | exact .inr (.inr (by decide +kernel)) | exact fun h => nomatch h | rfl⟩⟩

/-- States and operands that meet the hypotheses of `Obligations.RingsAndDoorbells`, one for each of its clauses. -/
theorem meets_RingsAndDoorbells :
  (∃ s : State, ∃ n : Fin 64, ∃ x : Stall, x = stall s.toDev n.val) ∧
  (∃ s : State, ∃ n : Fin 64, ∃ side : Side, ∃ x : Stall, ∃ r : Ring, ∃ k : Fin 16, x = stall s.toDev n.val ∧ r = x.ring ∧ (∀ o, side = .pf ∨ ¬ pfStands s n o) ∧ 4 ≤ k.val ∧ k.val ≤ 12 ∧ 2 ^ k.val ≤ depthShare s.toDev ∧ r.sqBase ≠ 0 ∧ r.cqBase ≠ 0 ∧ x.st = .ready) ∧
  (∃ s : State, ∃ n : Fin 64, ∃ side : Side, ∃ x : Stall, ∃ r : Ring, ∃ k : Fin 16, x = stall s.toDev n.val ∧ r = x.ring ∧ (∀ o, side = .pf ∨ ¬ pfStands s n o) ∧ 4 ≤ k.val ∧ k.val ≤ 12 ∧ s.stl.pfRing.en = false ∧ s.stl.pfRing.sqBase ≠ 0 ∧ s.stl.pfRing.cqBase ≠ 0) ∧
  (∃ s : State, ∃ n : Fin 64, ∃ side : Side, ∃ x : Stall, ∃ r : Ring, ∃ k : Fin 16, ∃ st, x = stall s.toDev n.val ∧ r = x.ring ∧ (∀ o, side = .pf ∨ ¬ pfStands s n o) ∧ (st = (if x.st ≠ .ready then ST.stallState else if k.val < 4 ∨ 12 < k.val ∨ r.sqBase = 0 ∨ r.cqBase = 0 then ST.format else if depthShare s.toDev < 2 ^ k.val then ST.slotQuota else ST.ok)) ∧ st ≠ ST.ok) ∧
  (∃ s : State, ∃ n : Fin 64, ∃ side : Side, ∃ x : Stall, ∃ r : Ring, x = stall s.toDev n.val ∧ r = x.ring ∧ (∀ o, side = .pf ∨ ¬ pfStands s n o) ∧ r.en = false) ∧
  (∃ s : State, ∃ n : Fin 64, ∃ side : Side, ∃ x : Stall, ∃ r : Ring, x = stall s.toDev n.val ∧ r = x.ring ∧ (∀ o, side = .pf ∨ ¬ pfStands s n o) ∧ r.en = true) ∧
  (∃ s : State, ∃ n : Fin 64, ∃ side : Side, ∃ x : Stall, ∃ r : Ring, ∃ v : Word, x = stall s.toDev n.val ∧ r = x.ring ∧ (∀ o, side = .pf ∨ ¬ pfStands s n o) ∧ r.en = true ∧ (x.st = .active ∨ x.st = .paused) ∧ fld v 0 12 < 2 ^ r.depthLog2 ∧ ringDist r r.sqHead r.sqTail ≤ ringDist r r.sqHead (fld v 0 12) ∧ fld v 0 12 ≠ r.sqTail) ∧
  (∃ s : State, ∃ n : Fin 64, ∃ side : Side, ∃ x : Stall, ∃ r : Ring, ∃ v : Word, x = stall s.toDev n.val ∧ r = x.ring ∧ (∀ o, side = .pf ∨ ¬ pfStands s n o) ∧ r.en = true ∧ (x.st = .active ∨ x.st = .paused) ∧ (2 ^ r.depthLog2 ≤ fld v 0 12 ∨ ringDist r r.sqHead (fld v 0 12) < ringDist r r.sqHead r.sqTail)) ∧
  (∃ s : State, ∃ n : Fin 64, ∃ side : Side, ∃ x : Stall, ∃ r : Ring, x = stall s.toDev n.val ∧ r = x.ring ∧ (∀ o, side = .pf ∨ ¬ pfStands s n o) ∧ r.en = true ∧ (x.st = .faulted ∨ x.st = .resetting ∨ x.st = .removing ∨ x.st = .ready)) ∧
  (∃ s : State, ∃ n : Fin 64, ∃ side : Side, ∃ x : Stall, ∃ r : Ring, ∃ v : Word, x = stall s.toDev n.val ∧ r = x.ring ∧ (∀ o, side = .pf ∨ ¬ pfStands s n o) ∧ r.en = true ∧ fld v 0 12 < 2 ^ r.depthLog2 ∧ ringDist r r.cqHead (fld v 0 12) ≤ ringDist r r.cqHead r.cqTail) ∧
  (∃ s : State, ∃ n : Fin 64, ∃ side : Side, ∃ x : Stall, ∃ r : Ring, ∃ v : Word, x = stall s.toDev n.val ∧ r = x.ring ∧ (∀ o, side = .pf ∨ ¬ pfStands s n o) ∧ r.en = true ∧ (2 ^ r.depthLog2 ≤ fld v 0 12 ∨ ringDist r r.cqHead r.cqTail < ringDist r r.cqHead (fld v 0 12))) ∧
  (∃ s : State, ∃ n : Fin 64, pfStands s n 0x10) ∧
  (∃ s : State, ∃ n : Fin 64, pfStands s n 0x14) ∧
  (∃ s : State, ∃ n : Fin 64, pfStands s n 0x1C) :=
  ⟨⟨S dev, 63, _, by first | decide +kernel | exact fun _ => .inl rfl | exact .inl rfl | exact .inr rfl | exact ⟨rfl, by decide +kernel⟩ | rfl⟩,
   ⟨S { dev with hif.vfEnable := true, hif.vfCount := 64, stl.stalls := [(63, { st := .ready, ring := { sqBase := 64, cqBase := 64, en := false } })] }, 63, .pf, _, _, 4, by and_intros <;> first | decide +kernel | exact fun _ => .inl rfl | exact .inl rfl | exact .inr rfl | exact ⟨rfl, by decide +kernel⟩ | rfl⟩,
   ⟨S { { dev with hif.vfEnable := true, hif.vfCount := 64, stl.stalls := [(63, { st := .ready, ring := { sqBase := 64, cqBase := 64, en := false } })] } with stl.pfRing := { sqBase := 64, cqBase := 64 } }, 63, .pf, _, _, 4, by and_intros <;> first | decide +kernel | exact fun _ => .inl rfl | exact .inl rfl | exact .inr rfl | exact ⟨rfl, by decide +kernel⟩ | rfl⟩,
   ⟨S { dev with hif.vfEnable := true, hif.vfCount := 64, stl.stalls := [(63, { st := .ready, ring := { sqBase := 64, cqBase := 64, en := false } })] }, 63, .pf, _, _, 13, _, by and_intros <;> first | decide +kernel | exact fun _ => .inl rfl | exact .inl rfl | exact .inr rfl | exact ⟨rfl, by decide +kernel⟩ | rfl⟩,
   ⟨S dev, 63, .pf, _, _, by and_intros <;> first | decide +kernel | exact fun _ => .inl rfl | exact .inl rfl | exact .inr rfl | exact ⟨rfl, by decide +kernel⟩ | rfl⟩,
   ⟨S { dev with hif.vfEnable := true, hif.vfCount := 64, stl.stalls := [(63, { st := .active, ring := { sqBase := 64, cqBase := 64, en := true } })] }, 63, .pf, _, _, by and_intros <;> first | decide +kernel | exact fun _ => .inl rfl | exact .inl rfl | exact .inr rfl | exact ⟨rfl, by decide +kernel⟩ | rfl⟩,
   ⟨S { dev with hif.vfEnable := true, hif.vfCount := 64, stl.stalls := [(63, { st := .active, ring := { sqBase := 64, cqBase := 64, en := true, depthLog2 := 4 } })] }, 63, .pf, _, _, 15, by and_intros <;> first | decide +kernel | exact fun _ => .inl rfl | exact .inl rfl | exact .inr rfl | exact ⟨rfl, by decide +kernel⟩ | rfl⟩,
   ⟨S { dev with hif.vfEnable := true, hif.vfCount := 64, stl.stalls := [(63, { st := .active, ring := { sqBase := 64, cqBase := 64, en := true, depthLog2 := 4 } })] }, 63, .pf, _, _, 16, by and_intros <;> first | decide +kernel | exact fun _ => .inl rfl | exact .inl rfl | exact .inr rfl | exact ⟨rfl, by decide +kernel⟩ | rfl⟩,
   ⟨S { dev with hif.vfEnable := true, hif.vfCount := 64, stl.stalls := [(63, { st := .removing, ring := { sqBase := 64, cqBase := 64, en := true, depthLog2 := 4 } })] }, 63, .pf, _, _, by and_intros <;> first | decide +kernel | exact fun _ => .inl rfl | exact .inr (.inr (.inl rfl)) | rfl⟩,
   ⟨S { dev with hif.vfEnable := true, hif.vfCount := 64, stl.stalls := [(63, { st := .active, ring := { sqBase := 64, cqBase := 64, en := true, depthLog2 := 4, cqTail := 15 } })] }, 63, .pf, _, _, 15, by and_intros <;> first | decide +kernel | exact fun _ => .inl rfl | exact .inl rfl | exact .inr rfl | exact ⟨rfl, by decide +kernel⟩ | rfl⟩,
   ⟨S { dev with hif.vfEnable := true, hif.vfCount := 64, stl.stalls := [(63, { st := .active, ring := { sqBase := 64, cqBase := 64, en := true, depthLog2 := 4, cqTail := 14 } })] }, 63, .pf, _, _, 15, by and_intros <;> first | decide +kernel | exact fun _ => .inl rfl | exact .inl rfl | exact .inr rfl | exact ⟨rfl, by decide +kernel⟩ | rfl⟩,
   ⟨S { dev with stl.pfAt := 1000000000, stl.pfWrote := [(0x2FC0 + 0x10, 0xFFFFFFFF)] }, 63, by first | decide +kernel | exact fun _ => .inl rfl | exact .inl rfl | exact .inr rfl | exact ⟨rfl, by decide +kernel⟩ | rfl⟩,
   ⟨S { dev with stl.pfAt := 1000000000, stl.pfWrote := [(0x2FC0 + 0x14, 0xFFFFFFFF)] }, 63, by first | decide +kernel | exact fun _ => .inl rfl | exact .inl rfl | exact .inr rfl | exact ⟨rfl, by decide +kernel⟩ | rfl⟩,
   ⟨S { dev with stl.pfAt := 1000000000, stl.pfWrote := [(0x2FC0 + 0x1C, 0xFFFFFFFF)] }, 63, by first | decide +kernel | exact fun _ => .inl rfl | exact .inl rfl | exact .inr rfl | exact ⟨rfl, by decide +kernel⟩ | rfl⟩⟩

/-- States and operands that meet the hypotheses of `Obligations.WeirsFillAndMeter`, one for each of its clauses. -/
theorem meets_WeirsFillAndMeter :
  ∃ s : State, twf s.stl.stalls = true := ⟨S dev, by first | decide +kernel | rfl⟩

/-- States and operands that meet the hypotheses of `Obligations.EntriesAreFetchedAndChecked`, one for each of its clauses. -/
theorem meets_EntriesAreFetchedAndChecked :
  (∃ s : State, ∃ r : RingId, ∃ x : Ring, ∃ len, ∃ d, ∃ e, ∃ l, x = ringOf s.toDev r ∧ mayFetch s.toDev r = true ∧ 16 + len ≤ 64 * cellLimit s.toDev (ringIssuer r) ∧ claimCells s.toDev (ringIssuer r) (cellsFor (16 + len)) = some (d, l) ∧ dmaIssue { d with nextRid := d.nextRid + 1 } (ringFunc r) (.entry d.nextRid) (x.sqBase.toNat + 64 * x.fetch) 64 = some e) ∧
  (∃ s : State, ∃ r : RingId, ∃ x : Ring, x = ringOf s.toDev r ∧ mayFetch s.toDev r = false) ∧
  (∃ s : State, ∃ r : RingId, ∃ x : Ring, ∃ rid, ∃ q, ∃ t, ∃ b : Bytes, ∃ g, ∃ q1, ∃ e1, ∃ st, ∃ y, x = ringOf s.toDev r ∧ b.length = 64 ∧ crossStalled s.toDev .pcie = false ∧ fetchingOf s.toDev (ringIssuer r) = [(rid, q)] ∧ q.bytes = [] ∧ q.issuer = ringIssuer r ∧ q.stage = .fetching ∧ tget s.reqs rid = some q ∧ twf s.reqs = true ∧ g = { func := ringFunc r, use := .entry rid } ∧ (s.hif.tags.find? (fun t => t.2.use == .entry rid && !t.2.fenced) = some (t, g)) ∧ tget s.hif.tags t = some g ∧ ohFence b = false ∧ q1 = { q with bytes := b, rawTag := quad b 24, fence := false, dataAddr := seAddr b, dataCap := seCap b, seq := ohSeq b, stage := .awaitData } ∧ e1 = setReq (dmaRetire s.toDev t g) rid q1 ∧ firstDetail (entrySteps14 b) = some (st, y)) ∧
  (∃ s : State, ∃ r : RingId, ∃ x : Ring, ∃ rid, ∃ q, ∃ t, ∃ b : Bytes, ∃ g, ∃ q1, ∃ e1, ∃ st, ∃ y, x = ringOf s.toDev r ∧ b.length = 64 ∧ crossStalled s.toDev .pcie = false ∧ fetchingOf s.toDev (ringIssuer r) = [(rid, q)] ∧ q.bytes = [] ∧ q.issuer = ringIssuer r ∧ q.stage = .fetching ∧ tget s.reqs rid = some q ∧ twf s.reqs = true ∧ g = { func := ringFunc r, use := .entry rid } ∧ (s.hif.tags.find? (fun t => t.2.use == .entry rid && !t.2.fenced) = some (t, g)) ∧ tget s.hif.tags t = some g ∧ ohFence b = false ∧ q1 = { q with bytes := b, rawTag := quad b 24, fence := false, dataAddr := seAddr b, dataCap := seCap b, seq := ohSeq b, stage := .awaitData } ∧ e1 = setReq (dmaRetire s.toDev t g) rid q1 ∧ firstDetail (entrySteps14 b) = none ∧ firstDetail (entrySteps5 s.toDev q.issuer b) = some (st, y)) ∧
  (∃ s : State, ∃ r : RingId, ∃ x : Ring, ∃ rid, ∃ q, ∃ t, ∃ b : Bytes, ∃ g, ∃ q1, ∃ e1, ∃ c, ∃ q2, x = ringOf s.toDev r ∧ b.length = 64 ∧ crossStalled s.toDev .pcie = false ∧ fetchingOf s.toDev (ringIssuer r) = [(rid, q)] ∧ q.bytes = [] ∧ q.issuer = ringIssuer r ∧ q.stage = .fetching ∧ tget s.reqs rid = some q ∧ twf s.reqs = true ∧ g = { func := ringFunc r, use := .entry rid } ∧ (s.hif.tags.find? (fun t => t.2.use == .entry rid && !t.2.fenced) = some (t, g)) ∧ tget s.hif.tags t = some g ∧ ohFence b = false ∧ q1 = { q with bytes := b, rawTag := quad b 24, fence := false, dataAddr := seAddr b, dataCap := seCap b, seq := ohSeq b, stage := .awaitData } ∧ e1 = setReq (dmaRetire s.toDev t g) rid q1 ∧ firstDetail (entrySteps14 b) = none ∧ firstDetail (entrySteps5 s.toDev q.issuer b) = none ∧ q.cells.length = cellsFor (16 + ohLen b) ∧ c = (b.take 48).set 6 (ownAddr s.toDev) ∧ q2 = { q1 with bytes := c, cells := chain (cellIdx q.cells) c } ∧ ohLen b ≤ 32) ∧
  (∃ s : State, ∃ r : RingId, ∃ x : Ring, ∃ rid, ∃ q, ∃ t, ∃ b : Bytes, ∃ g, ∃ q1, ∃ e1, ∃ c, ∃ q2, x = ringOf s.toDev r ∧ b.length = 64 ∧ crossStalled s.toDev .pcie = false ∧ fetchingOf s.toDev (ringIssuer r) = [(rid, q)] ∧ q.bytes = [] ∧ q.issuer = ringIssuer r ∧ q.stage = .fetching ∧ tget s.reqs rid = some q ∧ twf s.reqs = true ∧ g = { func := ringFunc r, use := .entry rid } ∧ (s.hif.tags.find? (fun t => t.2.use == .entry rid && !t.2.fenced) = some (t, g)) ∧ tget s.hif.tags t = some g ∧ ohFence b = false ∧ q1 = { q with bytes := b, rawTag := quad b 24, fence := false, dataAddr := seAddr b, dataCap := seCap b, seq := ohSeq b, stage := .awaitData } ∧ e1 = setReq (dmaRetire s.toDev t g) rid q1 ∧ firstDetail (entrySteps14 b) = none ∧ firstDetail (entrySteps5 s.toDev q.issuer b) = none ∧ q.cells.length = cellsFor (16 + ohLen b) ∧ c = (b.take 48).set 6 (ownAddr s.toDev) ∧ q2 = { q1 with bytes := c, cells := chain (cellIdx q.cells) c } ∧ 32 < ohLen b) :=
  ⟨by obtain ⟨y, g, k, l, hc⟩ := claimsCells { dev with stl.pfRing := { sqBase := 64, cqBase := 64, en := true, depthLog2 := 4, sqTail := 1 }, hif.cfg := [(64, { busMaster := true })] } .pf (cellsFor (16 + 16368)) (by decide +kernel); obtain ⟨e, he⟩ := dmaIssue_isSome (d := { { { dev with stl.pfRing := { sqBase := 64, cqBase := 64, en := true, depthLog2 := 4, sqTail := 1 }, hif.cfg := [(64, { busMaster := true })] } with yrd := y, ldg := g, rng := k } with nextRid := 1 }) .pf (.entry 0) (64 + 64 * 0) 64 (of_decide_eq_true rfl); exact ⟨S { dev with stl.pfRing := { sqBase := 64, cqBase := 64, en := true, depthLog2 := 4, sqTail := 1 }, hif.cfg := [(64, { busMaster := true })] }, .pf, _, 16368, _, e, l, by and_intros <;> first | decide +kernel | exact hc | exact he | rfl⟩,
   ⟨S dev, .pf, _, by and_intros <;> first | decide +kernel | rfl⟩,
   ⟨S { dev with stl.pfRing := { sqBase := 64, cqBase := 64, en := true, depthLog2 := 4, sqTail := 1 }, hif.cfg := [(64, { busMaster := true })], hif.tags := [(255, { func := .pf, use := .entry 0 })], reqs := [(0, { issuer := .pf, stage := .fetching, cells := [] })] }, .pf, _, 0, _, _, zeros 64, _, _, _, _, _, by and_intros <;> first | decide +kernel | rfl⟩,
   ⟨S { dev with stl.pfRing := { sqBase := 64, cqBase := 64, en := true, depthLog2 := 4, sqTail := 1 }, hif.cfg := [(64, { busMaster := true })], hif.tags := [(255, { func := .pf, use := .entry 0 })], reqs := [(0, { issuer := .pf, stage := .fetching, cells := [] })] }, .pf, _, 0, _, _, ((aPacket 0).set 4 0 ++ zeros 8 ++ leBytes 4 48 ++ zeros 4), _, _, _, _, _, by and_intros <;> first | decide +kernel | rfl⟩,
   ⟨S { dev with stl.pfRing := { sqBase := 64, cqBase := 64, en := true, depthLog2 := 4, sqTail := 1 }, hif.cfg := [(64, { busMaster := true })], hif.tags := [(255, { func := .pf, use := .entry 0 })], reqs := [(0, { issuer := .pf, stage := .fetching, cells := [{ idx := 5, lo := [] }] })] }, .pf, _, 0, _, _, (aPacket 0 ++ zeros 8 ++ leBytes 4 48 ++ zeros 4), _, _, _, _, _, by and_intros <;> first | decide +kernel | rfl⟩,
   ⟨S { dev with stl.pfRing := { sqBase := 64, cqBase := 64, en := true, depthLog2 := 4, sqTail := 1 }, hif.cfg := [(64, { busMaster := true })], hif.tags := [(255, { func := .pf, use := .entry 0 })], reqs := [(0, { issuer := .pf, stage := .fetching, cells := [{ idx := 5, lo := [] }] })] }, .pf, _, 0, _, _, (aLong 8 ++ leBytes 8 64 ++ leBytes 4 56 ++ leBytes 4 8), _, _, _, _, _, by and_intros <;> first | decide +kernel | rfl⟩⟩

/-- States and operands that meet the hypotheses of `Obligations.CommandsAreDispatchedAndComplete`, one for each of its clauses. -/
theorem meets_CommandsAreDispatchedAndComplete :
  (∃ s : State, ∃ rid : Nat, ∃ q : Req, ∃ k : Fin 512, ∃ l, ∃ r, (queueOf s.toDev k.val).reqs = rid :: l ∧ tget s.reqs rid = some q ∧ mayDispatch s.toDev q.issuer = true ∧ mustWait s.toDev (cmdOf rid q) = false ∧ laneYields s.toDev (cmdOf rid q) = false ∧ wrrAllows s.toDev (issuerIdx q.issuer) = some r) ∧
  (∃ s : State, ∃ rid : Nat, ∃ q : Req, ∃ k : Fin 512, ∃ l, ∃ r, ∃ c, (queueOf s.toDev k.val).reqs = rid :: l ∧ tget s.reqs rid = some q ∧ mayDispatch s.toDev q.issuer = true ∧ c = cmdOf rid q ∧ mustWait s.toDev c = false ∧ laneYields s.toDev c = false ∧ wrrAllows s.toDev (issuerIdx q.issuer) = some r) ∧
  (∃ s : State, ∃ rid : Nat, ∃ q : Req, ∃ k : Fin 512, ∃ l, (queueOf s.toDev k.val).reqs = rid :: l ∧ tget s.reqs rid = some q ∧ (mustWait s.toDev (cmdOf rid q) = true ∨ laneYields s.toDev (cmdOf rid q) = true)) ∧
  (∃ s : State, ∃ rid : Nat, ∃ q : Req, ∃ k : Fin 512, ∃ l, (queueOf s.toDev k.val).reqs = rid :: l ∧ tget s.reqs rid = some q ∧ mayDispatch s.toDev q.issuer = false) ∧
  (∃ s : State, ∃ rid : Nat, ∃ q : Req, ∃ n : Fin 64, ∃ c : Comp, ∃ x, ∃ y, ∃ b, q.issuer = .stall n ∧ tget s.reqs rid = some q ∧ tget s.comps rid = some c ∧ x = (stall s.toDev n.val).ring ∧ mayComplete s.toDev (.stall n) = true ∧ c.result = [] ∧ y = completeAt x q.sqIndex ∧ b = compEntry c.tag c.status y.sqHead q.sqIndex x.phase 0 c.detail) ∧
  (∃ s : State, ∃ rid : Nat, ∃ q : Req, ∃ n : Fin 64, ∃ c : Comp, q.issuer = .stall n ∧ tget s.reqs rid = some q ∧ tget s.comps rid = some c ∧ mayComplete s.toDev (.stall n) = true ∧ c.result = []) ∧
  (∃ s : State, ∃ rid : Nat, ∃ q : Req, ∃ r, r = ringOfIssuer q.issuer ∧ tget s.reqs rid = some q ∧ mayComplete s.toDev r = false) :=
  ⟨⟨S { dev with yrd.queues := [(0, { reqs := [0] })], reqs := [(0, { issuer := .stall 0, stage := .queued 0 })], stl.stalls := [(0, { st := .paused })] }, 0, _, 0, _, _, by and_intros <;> first | decide +kernel | rfl⟩,
   ⟨S { dev with yrd.queues := [(0, { reqs := [0] })], reqs := [(0, { issuer := .stall 0, stage := .queued 0 })], stl.stalls := [(0, { st := .paused })] }, 0, _, 0, _, _, _, by and_intros <;> first | decide +kernel | rfl⟩,
   ⟨S { dev with sym.laneOos := 0xFFF, yrd.queues := [(511, { reqs := [0] })], reqs := [(0, { issuer := .stall 0, stage := .queued 511, bytes := zeros 16 ++ [3, 4] ++ zeros 30 })], stl.stalls := [(0, { st := .active })] }, 0, _, 511, _, by and_intros <;> first | decide +kernel | exact .inl (noLane rfl) | rfl⟩,
   ⟨S { dev with yrd.queues := [(0, { reqs := [0] })], reqs := [(0, { issuer := .stall 0, stage := .queued 0 })], stl.stalls := [(0, { st := .faulted })] }, 0, _, 0, _, by and_intros <;> first | decide +kernel | rfl⟩,
   ⟨S { dev with reqs := [(0, { issuer := .stall 0, stage := .dispatched })], comps := [(0, { status := 0, tag := 0 })], hif.cfg := [(0, { busMaster := true })], stl.stalls := [(0, { st := .active, ring := { en := true, depthLog2 := 4, cqHead := 0 } })] }, 0, { issuer := .stall 0, stage := .dispatched }, 0, _, _, _, _, by and_intros <;> first | decide +kernel | rfl⟩,
   ⟨S { dev with reqs := [(0, { issuer := .stall 0, stage := .dispatched })], comps := [(0, { status := 0, tag := 0 })], hif.cfg := [(0, { busMaster := true })], stl.stalls := [(0, { st := .active, ring := { en := true, depthLog2 := 4, cqHead := 0 } })] }, 0, { issuer := .stall 0, stage := .dispatched }, 0, _, by and_intros <;> first | decide +kernel | rfl⟩,
   ⟨S { dev with reqs := [(0, { issuer := .stall 0, stage := .dispatched })], comps := [(0, { status := 0, tag := 0 })], hif.cfg := [(0, { busMaster := true })], stl.stalls := [(0, { st := .active, ring := { en := true, depthLog2 := 4, cqHead := 1 } })] }, 0, _, _, by and_intros <;> first | decide +kernel | rfl⟩⟩

/-- States and operands that meet the hypotheses of `Obligations.RequestsAreClassified`, one for each of its clauses. -/
theorem meets_RequestsAreClassified :
  (∃ s : State, ∃ rid : Nat, ∃ q : Req, ∃ e : Nat, ∃ a : Word, ∃ c, ∃ q', tget s.reqs rid = some q ∧ paused s.toDev = false ∧ fabricOn s.toDev = true ∧ s.cls.halted = false ∧ q.stage = .held ∧ (q.issuer = .pf ∨ ∃ n, q.issuer = .stall n) ∧ q.fromFragment = false ∧ q.fragOpen = false ∧ clsMatch s.cls.active (clsKey s.cls.active.extA q.bytes q.issuer false false) = (e, a) ∧ aMeter a = false ∧ q' = { q with epoch := s.cls.epoch, pols := if aPolicy a = 0 then q.pols else q.pols ++ [tgetD s.cls.active.pol (aPolicy a) 0xFFFF] } ∧ c = (if e = 0x800 then { s.cls with cntDefault := satInc s.cls.cntDefault } else if aCount a then { s.cls with hits := tset s.cls.hits e (satInc (tgetD s.cls.hits e 0)) } else s.cls) ∧ aTerm a = 0) ∧
  (∃ s : State, ∃ rid : Nat, ∃ q : Req, ∃ e : Nat, ∃ a : Word, ∃ c, ∃ q', tget s.reqs rid = some q ∧ paused s.toDev = false ∧ fabricOn s.toDev = true ∧ s.cls.halted = false ∧ q.stage = .held ∧ (q.issuer = .pf ∨ ∃ n, q.issuer = .stall n) ∧ q.fromFragment = false ∧ q.fragOpen = false ∧ clsMatch s.cls.active (clsKey s.cls.active.extA q.bytes q.issuer false false) = (e, a) ∧ aMeter a = false ∧ q' = { q with epoch := s.cls.epoch, pols := if aPolicy a = 0 then q.pols else q.pols ++ [tgetD s.cls.active.pol (aPolicy a) 0xFFFF] } ∧ c = (if e = 0x800 then { s.cls with cntDefault := satInc s.cls.cntDefault } else if aCount a then { s.cls with hits := tset s.cls.hits e (satInc (tgetD s.cls.hits e 0)) } else s.cls) ∧ aTerm a = 1) ∧
  (∃ s : State, ∃ rid : Nat, ∃ q : Req, ∃ e : Nat, ∃ a : Word, ∃ c, ∃ q', tget s.reqs rid = some q ∧ paused s.toDev = false ∧ fabricOn s.toDev = true ∧ s.cls.halted = false ∧ q.stage = .held ∧ (q.issuer = .pf ∨ ∃ n, q.issuer = .stall n) ∧ q.fromFragment = false ∧ q.fragOpen = false ∧ clsMatch s.cls.active (clsKey s.cls.active.extA q.bytes q.issuer false false) = (e, a) ∧ aMeter a = false ∧ q' = { q with epoch := s.cls.epoch, pols := if aPolicy a = 0 then q.pols else q.pols ++ [tgetD s.cls.active.pol (aPolicy a) 0xFFFF] } ∧ c = (if e = 0x800 then { s.cls with cntDefault := satInc s.cls.cntDefault } else if aCount a then { s.cls with hits := tset s.cls.hits e (satInc (tgetD s.cls.hits e 0)) } else s.cls) ∧ aTerm a = 2 ∧ s.cls.traps.length < 16) ∧
  (∃ s : State, ∃ rid : Nat, ∃ q : Req, ∃ e : Nat, ∃ a : Word, ∃ c, ∃ q', tget s.reqs rid = some q ∧ paused s.toDev = false ∧ fabricOn s.toDev = true ∧ s.cls.halted = false ∧ q.stage = .held ∧ (q.issuer = .pf ∨ ∃ n, q.issuer = .stall n) ∧ q.fromFragment = false ∧ q.fragOpen = false ∧ clsMatch s.cls.active (clsKey s.cls.active.extA q.bytes q.issuer false false) = (e, a) ∧ aMeter a = false ∧ q' = { q with epoch := s.cls.epoch, pols := if aPolicy a = 0 then q.pols else q.pols ++ [tgetD s.cls.active.pol (aPolicy a) 0xFFFF] } ∧ c = (if e = 0x800 then { s.cls with cntDefault := satInc s.cls.cntDefault } else if aCount a then { s.cls with hits := tset s.cls.hits e (satInc (tgetD s.cls.hits e 0)) } else s.cls) ∧ aTerm a = 3 ∧ ohEnvelope q.bytes = true) ∧
  (∃ s : State, ∃ rid : Nat, ∃ q : Req, ∃ e : Nat, ∃ a : Word, ∃ c, ∃ q', tget s.reqs rid = some q ∧ paused s.toDev = false ∧ fabricOn s.toDev = true ∧ s.cls.halted = false ∧ q.stage = .held ∧ (q.issuer = .pf ∨ ∃ n, q.issuer = .stall n) ∧ q.fromFragment = false ∧ q.fragOpen = false ∧ clsMatch s.cls.active (clsKey s.cls.active.extA q.bytes q.issuer false false) = (e, a) ∧ aMeter a = false ∧ q' = { q with epoch := s.cls.epoch, pols := if aPolicy a = 0 then q.pols else q.pols ++ [tgetD s.cls.active.pol (aPolicy a) 0xFFFF] } ∧ c = (if e = 0x800 then { s.cls with cntDefault := satInc s.cls.cntDefault } else if aCount a then { s.cls with hits := tset s.cls.hits e (satInc (tgetD s.cls.hits e 0)) } else s.cls) ∧ aTerm a = 3 ∧ ohEnvelope q.bytes = false) ∧
  (∃ s : State, ∃ rid : Nat, ∃ q : Req, tget s.reqs rid = some q ∧ paused s.toDev = false ∧ fabricOn s.toDev = true ∧ s.cls.halted = false ∧ q.stage = .held) ∧
  (∃ s : State, ∃ rid : Nat, ∃ q : Req, tget s.reqs rid = some q ∧ paused s.toDev = false ∧ fabricOn s.toDev = true ∧ s.cls.halted = false ∧ q.stage ≠ .held) :=
  ⟨⟨S { dev with cls.active := { dflt := 0x80000000 }, reqs := [(0, { issuer := .pf, stage := .held, bytes := aPacket 0 })] }, 0, _, _, _, _, _, by and_intros <;> first | decide +kernel | exact .inl rfl | rfl | exact .inl rfl⟩,
   ⟨S { dev with cls.active := { dflt := 0x90000000 }, reqs := [(0, { issuer := .pf, stage := .held, bytes := aPacket 0 })] }, 0, _, _, _, _, _, by and_intros <;> first | decide +kernel | exact .inl rfl | rfl | exact .inl rfl⟩,
   ⟨S { dev with cls.active := { dflt := 0xA0000000 }, reqs := [(0, { issuer := .pf, stage := .held, bytes := aPacket 0 })] }, 0, _, _, _, _, _, by and_intros <;> first | decide +kernel | exact .inl rfl | rfl | exact .inl rfl⟩,
   ⟨S { dev with cls.active := { dflt := 0xB0000000 }, reqs := [(0, { issuer := .pf, stage := .held, bytes := aPacket 4 })] }, 0, _, _, _, _, _, by and_intros <;> first | decide +kernel | exact .inl rfl | rfl | exact .inl rfl⟩,
   ⟨S { dev with cls.active := { dflt := 0xB0000000 }, reqs := [(0, { issuer := .pf, stage := .held, bytes := aPacket 0 })] }, 0, _, _, _, _, _, by and_intros <;> first | decide +kernel | exact .inl rfl | rfl | exact .inl rfl⟩,
   ⟨S { dev with cls.active := { dflt := 0x80000000 }, reqs := [(0, { issuer := .pf, stage := .held, bytes := aPacket 0 })] }, 0, _, by and_intros <;> first | decide +kernel | exact .inl rfl | rfl⟩,
   ⟨S { dev with reqs := [(0, { issuer := .pf, stage := .eddy })] }, 0, _, by and_intros <;> first | decide +kernel | exact .inl rfl | rfl⟩⟩

/-- States and operands that meet the hypotheses of `Obligations.TheEddyOpensEnvelopes`, one for each of its clauses. -/
theorem meets_TheEddyOpensEnvelopes :
  (∃ s : State, ∃ rid : Nat, ∃ q : Req, ∃ k : LiveKey, ∃ d : Dev, ∃ l : List Nat, ∃ b : Bytes, tget s.reqs rid = some q ∧ q.stage = .eddy ∧ s.glb.power = .run ∧ crossStalled s.toDev .sym = false ∧ pickLane s.toDev false ≠ none ∧ (s.cls.halted = false ∨ q.epoch ≠ s.cls.epoch) ∧ s.key.tableBad = false ∧ (q.issuer = .pf ∨ (∃ n, q.issuer = .stall n)) ∧ b = q.bytes ∧ (ownerOf s.toDev (ohOwner b).toNat).isSome ∧ bound s.toDev q.issuer (ohOwner b).toNat = true ∧ hOwner (ehKey b) = (ohOwner b).toNat ∧ findKey s.toDev (ehKey b) = some k ∧ k.owner = ohOwner b ∧ k.type = 3 ∧ k.usage.getLsbD uDecrypt = true ∧ k.usage.getLsbD uQuorum = false ∧ claimCells s.toDev q.issuer (cellsFor (ehInnerLen b)) = some (d, l)) ∧
  (∃ s : State, ∃ rid : Nat, ∃ q : Req, ∃ k : LiveKey, ∃ d : Dev, ∃ l : List Nat, ∃ b : Bytes, tget s.reqs rid = some q ∧ q.stage = .eddy ∧ s.glb.power = .run ∧ crossStalled s.toDev .sym = false ∧ pickLane s.toDev false ≠ none ∧ (s.cls.halted = false ∨ q.epoch ≠ s.cls.epoch) ∧ s.key.tableBad = false ∧ (q.issuer = .pf ∨ (∃ n, q.issuer = .stall n)) ∧ b = q.bytes ∧ (ownerOf s.toDev (ohOwner b).toNat).isSome ∧ bound s.toDev q.issuer (ohOwner b).toNat = true ∧ hOwner (ehKey b) = (ohOwner b).toNat ∧ findKey s.toDev (ehKey b) = some k ∧ k.owner = ohOwner b ∧ k.type = 3 ∧ k.usage.getLsbD uDecrypt = true ∧ k.usage.getLsbD uQuorum = false ∧ claimCells s.toDev q.issuer (cellsFor (ehInnerLen b)) = some (d, l)) :=
  ⟨by obtain ⟨y, g, k, l, hc⟩ := claimsCells { keyDev 2 with reqs := [(0, { issuer := .pf, stage := .eddy, bytes := (zeros 20 ++ leBytes 4 64 ++ b4 0x1000 ++ zeros 116) })] } .pf 1 (by decide +kernel); obtain ⟨j, hj⟩ := Option.isSome_iff_exists.mp (pickLane_isSome (d := { keyDev 2 with reqs := [(0, { issuer := .pf, stage := .eddy, bytes := (zeros 20 ++ leBytes 4 64 ++ b4 0x1000 ++ zeros 116) })] }) false (by decide +kernel)); exact ⟨S { keyDev 2 with reqs := [(0, { issuer := .pf, stage := .eddy, bytes := (zeros 20 ++ leBytes 4 64 ++ b4 0x1000 ++ zeros 116) })] }, 0, _, live 2, _, l, _, by and_intros <;> first | decide +kernel | exact hc | exact fun hn => nomatch hj.symm.trans hn | rfl | exact .inl rfl⟩,
   by obtain ⟨y, g, k, l, hc⟩ := claimsCells { keyDev 2 with reqs := [(0, { issuer := .pf, stage := .eddy, bytes := (zeros 20 ++ leBytes 4 64 ++ b4 0x1000 ++ zeros 116) })] } .pf 1 (by decide +kernel); obtain ⟨j, hj⟩ := Option.isSome_iff_exists.mp (pickLane_isSome (d := { keyDev 2 with reqs := [(0, { issuer := .pf, stage := .eddy, bytes := (zeros 20 ++ leBytes 4 64 ++ b4 0x1000 ++ zeros 116) })] }) false (by decide +kernel)); exact ⟨S { keyDev 2 with reqs := [(0, { issuer := .pf, stage := .eddy, bytes := (zeros 20 ++ leBytes 4 64 ++ b4 0x1000 ++ zeros 116) })] }, 0, _, live 2, _, l, _, by and_intros <;> first | decide +kernel | exact hc | exact fun hn => nomatch hj.symm.trans hn | exact .inl rfl | rfl | exact .inl rfl⟩⟩

/-- States and operands that meet the hypotheses of `Obligations.FragmentsMakeARequest`, one for each of its clauses. -/
theorem meets_FragmentsMakeARequest :
  (∃ s : State, ∃ src : FragSrc, ∃ b : Bytes, ∃ b1 : Bytes, ∃ b2 : Bytes, ∃ d : Dev, ∃ l : List Nat, ∃ q : Req, (b1 = (match src with | .mgt => b.set 6 (ownAddr s.toDev) | .krovlo _ => b)) ∧ b2 = b1.take (16 + ohLen b) ∧ q = { issuer := srcIssuer src, stage := .held, bytes := b1, rawTag := quad b1 24, dataCap := srcCap src, seq := ohSeq b1 } ∧ tget s.cls.runs (runIdx src) = none ∧ ohFragFirst b = false ∧ ohFragMore b = false ∧ claimCells { s.toDev with nextRid := s.nextRid + 1 } (srcIssuer src) (cellsFor b2.length) = some (d, l)) ∧
  (∃ s : State, ∃ src : FragSrc, ∃ b : Bytes, ∃ b1 : Bytes, ∃ b2 : Bytes, ∃ q : Req, (b1 = (match src with | .mgt => b.set 6 (ownAddr s.toDev) | .krovlo _ => b)) ∧ b2 = b1.take (16 + ohLen b) ∧ q = { issuer := srcIssuer src, stage := .held, bytes := b1, rawTag := quad b1 24, dataCap := srcCap src, seq := ohSeq b1 } ∧ tget s.cls.runs (runIdx src) = none ∧ ohFragFirst b = false ∧ ohFragMore b = false ∧ claimCells { s.toDev with nextRid := s.nextRid + 1 } (srcIssuer src) (cellsFor b2.length) = none) ∧
  (∃ s : State, ∃ src : FragSrc, ∃ b : Bytes, ∃ b1 : Bytes, ∃ b2 : Bytes, ∃ q : Req, (b1 = (match src with | .mgt => b.set 6 (ownAddr s.toDev) | .krovlo _ => b)) ∧ b2 = b1.take (16 + ohLen b) ∧ q = { issuer := srcIssuer src, stage := .held, bytes := b1, rawTag := quad b1 24, dataCap := srcCap src, seq := ohSeq b1 } ∧ tget s.cls.runs (runIdx src) = none ∧ ohFragFirst b = false ∧ ohFragMore b = true ∧ firstDetail (fragSteps (srcIssuer src) b) = none) ∧
  (∃ s : State, ∃ src : FragSrc, ∃ b : Bytes, ∃ b1 : Bytes, ∃ b2 : Bytes, ∃ q : Req, (b1 = (match src with | .mgt => b.set 6 (ownAddr s.toDev) | .krovlo _ => b)) ∧ b2 = b1.take (16 + ohLen b) ∧ q = { issuer := srcIssuer src, stage := .held, bytes := b1, rawTag := quad b1 24, dataCap := srcCap src, seq := ohSeq b1 } ∧ tget s.cls.runs (runIdx src) = none ∧ ohFragFirst b = true ∧ ohFragMore b = false ∧ firstDetail (transportSteps s.toDev (srcIssuer src) b true) = none) ∧
  (∃ s : State, ∃ src : FragSrc, ∃ b : Bytes, ∃ b1 : Bytes, ∃ b2 : Bytes, ∃ q : Req, ∃ st, ∃ x, ∃ c, (b1 = (match src with | .mgt => b.set 6 (ownAddr s.toDev) | .krovlo _ => b)) ∧ b2 = b1.take (16 + ohLen b) ∧ q = { issuer := srcIssuer src, stage := .held, bytes := b1, rawTag := quad b1 24, dataCap := srcCap src, seq := ohSeq b1 } ∧ tget s.cls.runs (runIdx src) = none ∧ c = { s.cls with cntLen := if s.cls.cntLen = 0xFFFFFFFF then s.cls.cntLen else s.cls.cntLen + 1 } ∧ ((ohFragFirst b = true ∧ firstDetail (transportSteps s.toDev (srcIssuer src) b true) = some (st, x)) ∨ (ohFragFirst b = false ∧ ohFragMore b = true ∧ firstDetail (fragSteps (srcIssuer src) b) = some (st, x)))) ∧
  (∃ s : State, ∃ src : FragSrc, ∃ b : Bytes, ∃ b1 : Bytes, ∃ b2 : Bytes, ∃ d : Dev, ∃ l : List Nat, ∃ q : Req, (b1 = (match src with | .mgt => b.set 6 (ownAddr s.toDev) | .krovlo _ => b)) ∧ b2 = b1.take (16 + ohLen b) ∧ q = { issuer := srcIssuer src, stage := .held, bytes := b1, rawTag := quad b1 24, dataCap := srcCap src, seq := ohSeq b1 } ∧ tget s.cls.runs (runIdx src) = none ∧ ohFragFirst b = true ∧ ohFragMore b = true ∧ firstDetail (transportSteps s.toDev (srcIssuer src) b true) = none ∧ claimCells { s.toDev with nextRid := s.nextRid + 1 } (srcIssuer src) (cellsFor b2.length) = some (d, l)) ∧
  (∃ s : State, ∃ src : FragSrc, ∃ b : Bytes, ∃ b1 : Bytes, ∃ b2 : Bytes, ∃ q : Req, ∃ r, (b1 = (match src with | .mgt => b.set 6 (ownAddr s.toDev) | .krovlo _ => b)) ∧ b2 = b1.take (16 + ohLen b) ∧ q = { issuer := srcIssuer src, stage := .held, bytes := b1, rawTag := quad b1 24, dataCap := srcCap src, seq := ohSeq b1 } ∧ tget s.cls.runs (runIdx src) = some r ∧ r.since + 4000000 ≤ s.now) ∧
  (∃ s : State, ∃ src : FragSrc, ∃ b : Bytes, ∃ b1 : Bytes, ∃ b2 : Bytes, ∃ q : Req, ∃ r, (b1 = (match src with | .mgt => b.set 6 (ownAddr s.toDev) | .krovlo _ => b)) ∧ b2 = b1.take (16 + ohLen b) ∧ q = { issuer := srcIssuer src, stage := .held, bytes := b1, rawTag := quad b1 24, dataCap := srcCap src, seq := ohSeq b1 } ∧ tget s.cls.runs (runIdx src) = some r ∧ s.now < r.since + 4000000) ∧
  (∃ s : State, ∃ src : FragSrc, ∃ b : Bytes, ∃ b1 : Bytes, ∃ b2 : Bytes, ∃ q : Req, (b1 = (match src with | .mgt => b.set 6 (ownAddr s.toDev) | .krovlo _ => b)) ∧ b2 = b1.take (16 + ohLen b) ∧ q = { issuer := srcIssuer src, stage := .held, bytes := b1, rawTag := quad b1 24, dataCap := srcCap src, seq := ohSeq b1 } ∧ tget s.cls.runs (runIdx src) = none) :=
  ⟨by obtain ⟨y, g, k, l, hc⟩ := claimsCells { dev with nextRid := 1 } (.krovlo 15) 1 (by decide +kernel); exact ⟨S dev, .krovlo 15, aPacket 0, _, _, _, l, _, by and_intros <;> first | decide +kernel | exact hc | rfl⟩,
   ⟨S { dev with ldg.pools := [(1, { issued := 3072, held := [(H.krovlo, 3072)] })] }, .krovlo 15, aPacket 0, _, _, _, by and_intros <;> first | decide +kernel | rfl⟩,
   ⟨S dev, .krovlo 15, aPacket 2, _, _, _, by and_intros <;> first | decide +kernel | rfl⟩,
   ⟨S dev, .krovlo 15, aPacket 1, _, _, _, by and_intros <;> first | decide +kernel | rfl⟩,
   ⟨S dev, .krovlo 15, (aPacket 1).set 0 0, _, _, _, _, _, _, by and_intros <;> first | decide +kernel | exact .inl ⟨rfl, rfl⟩ | rfl⟩,
   by obtain ⟨y, g, k, l, hc⟩ := claimsCells { dev with nextRid := 1 } (.krovlo 15) 1 (by decide +kernel); exact ⟨S dev, .krovlo 15, aPacket 3, _, _, _, l, _, by and_intros <;> first | decide +kernel | exact hc | rfl⟩,
   ⟨S { dev with cls.runs := [(15, { seq := 0, since := 996000000, rid := 0 })] }, .krovlo 15, aPacket 0, _, _, _, _, by and_intros <;> first | decide +kernel | rfl⟩,
   ⟨S { dev with cls.runs := [(15, { seq := 0, since := 996000001, rid := 0 })] }, .krovlo 15, aPacket 0, _, _, _, _, by and_intros <;> first | decide +kernel | rfl⟩,
   ⟨S dev, .krovlo 15, aPacket 0, _, _, _, by and_intros <;> first | decide +kernel | rfl⟩⟩

/-- States and operands that meet the hypotheses of `Obligations.TheEpochSwitches`, one for each of its clauses. -/
theorem meets_TheEpochSwitches :
  (∃ s : State, s.cls.sw = .idle ∧ bankOk s.cls.shadow = true) ∧
  (∃ s : State, s.cls.sw = .idle ∧ bankOk s.cls.shadow = false) ∧
  (∃ s : State, s.cls.sw ≠ .idle) ∧
  (∃ s : State, s.cls.sw = .validated) ∧
  (∃ s : State, s.cls.sw = .draining ∧ (s.reqs.any (fun e => oldEpoch s.toDev e.2) = false)) ∧
  (∃ s : State, s.cls.sw = .draining ∧ (s.reqs.any (fun e => oldEpoch s.toDev e.2) = true)) ∧
  (∃ s : State, s.cls.sw = .copying) :=
  ⟨⟨S dev, by and_intros <;> first | decide +kernel | rfl⟩,
   ⟨S { dev with cls.shadow.dflt := 0xC0000000 }, by and_intros <;> first | decide +kernel | rfl⟩,
   ⟨S { dev with cls.sw := .draining }, by first | decide +kernel | rfl⟩,
   ⟨S { dev with cls.sw := .validated }, by first | decide +kernel | rfl⟩,
   ⟨S { dev with cls.sw := .draining }, by and_intros <;> first | decide +kernel | rfl⟩,
   ⟨S { dev with cls.sw := .draining, cls.epoch := 1, reqs := [(0, { issuer := .pf, stage := .eddy })] }, by and_intros <;> first | decide +kernel | rfl⟩,
   ⟨S { dev with cls.sw := .copying }, by first | decide +kernel | rfl⟩⟩

/-- States and operands that meet the hypotheses of `Obligations.YardQueuesAct`, one for each of its clauses. -/
theorem meets_YardQueuesAct :
  (∃ s : State, ∃ n : Fin 512, ∃ q : YQueue, ∃ b, ∃ fin, q = queueOf s.toDev n.val ∧ wordAt q = some (b, fin)) ∧
  (∃ s : State, ∃ n : Fin 512, ∃ q : YQueue, q = queueOf s.toDev n.val ∧ 2 * q.cells.length ≤ q.rdPos) ∧
  (∃ s : State, ∃ n : Fin 512, ∃ q : YQueue, q = queueOf s.toDev n.val) ∧
  (∃ s : State, ∃ n : Fin 512, ∃ q : YQueue, ∃ b : Bytes, ∃ d, ∃ l, q = queueOf s.toDev n.val ∧ b ≠ [] ∧ (n.val < 256 → enabled (stall s.toDev (n.val / 4)) = true) ∧ claimCells s.toDev (queueIssuer n.val) (cellsFor b.length) = some (d, l)) ∧
  (∃ s : State, ∃ n : Fin 512, ∃ q : YQueue, ∃ rid, ∃ r, q = queueOf s.toDev n.val ∧ tget s.reqs rid = some r ∧ isOpenPacket r = true) ∧
  (∃ s : State, ∃ n : Fin 512, ∃ q : YQueue, ∃ rid, ∃ r, q = queueOf s.toDev n.val ∧ tget s.reqs rid = some r ∧ isOpenPacket r = false) ∧
  (∃ s : State, ∃ n : Fin 512, ∃ q : YQueue, q = queueOf s.toDev n.val) ∧
  (∃ s : State, ∃ n : Fin 512, ∃ q : YQueue, ∃ t0, q = queueOf s.toDev n.val ∧ q.timeout ≠ 0 ∧ q.rdPos < 2 * q.cells.length ∧ q.strandQuiet = false ∧ q.strandFrom = some t0 ∧ t0 + 65536 * q.timeout ≤ s.now) ∧
  (∃ s : State, ∃ n : Fin 512, ∃ q : YQueue, q = queueOf s.toDev n.val ∧ (q.timeout = 0 ∨ 2 * q.cells.length ≤ q.rdPos ∨ q.strandQuiet = true ∨ q.strandFrom = none ∨ (∃ t0, q.strandFrom = some t0 ∧ s.now < t0 + 65536 * q.timeout))) ∧
  (∃ s : State, ∃ n : Fin 512, ∃ q : YQueue, ∃ before, ∃ level, ∃ due, q = queueOf s.toDev n.val ∧ level = (q.thresh ≠ 0 ∧ before < q.thresh ∧ q.thresh ≤ q.cells.length) ∧ due = (q.strandDue = true ∧ q.rdPos < 2 * q.cells.length)) :=
  ⟨⟨S { dev with yrd.queues := [(511, { cells := [{ idx := 0, lo := [1], last := true }] })] }, 511, _, _, _, by and_intros <;> first | decide +kernel | rfl⟩,
   ⟨S dev, 511, _, by and_intros <;> first | decide +kernel | rfl⟩,
   ⟨S dev, 511, _, by first | decide +kernel | rfl⟩,
   by obtain ⟨y, g, k, l, hc⟩ := claimsCells dev .pf 1 (by decide +kernel); exact ⟨S dev, 511, _, [1], _, l, by and_intros <;> first | decide +kernel | exact hc | exact fun h => absurd h (by decide) | rfl⟩,
   ⟨S { dev with reqs := [(0, { issuer := .pf, stage := .awaitData })] }, 511, _, 0, _, by and_intros <;> first | decide +kernel | rfl⟩,
   ⟨S { dev with reqs := [(0, { issuer := .pf, stage := .held })] }, 511, _, 0, _, by and_intros <;> first | decide +kernel | rfl⟩,
   ⟨S dev, 511, _, by first | decide +kernel | rfl⟩,
   ⟨S { dev with yrd.queues := [(511, { cells := [{ idx := 0, lo := [1], last := true }], timeout := 1, strandFrom := some 999934464 })] }, 511, _, 999934464, by and_intros <;> first | decide +kernel | rfl⟩,
   ⟨S { dev with yrd.queues := [(511, { cells := [{ idx := 0, lo := [1], last := true }], timeout := 1, strandFrom := some 999934465 })] }, 511, _, by and_intros <;> first | decide +kernel | exact .inr (.inr (.inr (.inr ⟨_, rfl, by decide +kernel⟩))) | rfl | exact .inl rfl⟩,
   ⟨S dev, 511, _, 0, _, _, by and_intros <;> first | decide +kernel | rfl⟩⟩

/-- States and operands that meet the hypotheses of `Obligations.EnginesRunOperations`, one for each of its clauses. -/
theorem meets_EnginesRunOperations :
  (∃ s : State, ∃ e : Fin 4, ∃ p : Pke, ∃ o, ∃ r, ∃ d, ∃ d', ∃ o', p = eng s.toDev e.val ∧ crossStalled s.toDev (pkeIsland e) = false ∧ engIdle s.toDev e.val = true ∧ s.glb.power = .run ∧ s.dbg.extest = false ∧ nextOp s.toDev e.val = some (.secure o, r) ∧ d = { s.toDev with pkeWait := s.pkeWait.erase (.secure o) } ∧ ((d', o') = (match o.kind with | .sealSign => ((draw d 64).2, { o with rnd := (draw d 64).1 }) | .cosign _ _ _ => ((draw d 64).2, { o with rnd := (draw d 64).1 }) | .cardKey _ _ => ((draw (reseed d) 48).2, { o with rnd := (draw (reseed d) 48).1 }) | _ => (d, o)))) ∧
  (∃ s : State, ∃ e : Fin 4, ∃ p : Pke, ∃ c, ∃ r, ∃ d, p = eng s.toDev e.val ∧ crossStalled s.toDev (pkeIsland e) = false ∧ engIdle s.toDev e.val = true ∧ s.glb.power = .run ∧ s.dbg.extest = false ∧ nextOp s.toDev e.val = some (.cmd c, r) ∧ d = setEng { s.toDev with pkeWait := s.pkeWait.erase (.cmd c) } e.val { p with round := r }) ∧
  (∃ s : State, ∃ e : Fin 4, ∃ p : Pke, p = eng s.toDev e.val ∧ (s.glb.power ≠ .run ∨ s.dbg.extest = true ∨ engIdle s.toDev e.val = false ∨ nextOp s.toDev e.val = none ∨ crossStalled s.toDev (pkeIsland e) = true)) ∧
  (∃ s : State, ∃ e : Fin 4, ∃ p : Pke, ∃ o, ∃ micros, ∃ d, ∃ rid, ∃ t, ∃ h, ∃ q, ∃ isd, ∃ m, p = eng s.toDev e.val ∧ crossStalled s.toDev (pkeIsland e) = false ∧ (p.op = some o ∨ (p.op = none ∧ p.aborting = true ∧ p.stoppedAt = s.now ∧ p.stopped = some o)) ∧ o.rid = some rid ∧ o.usesSlot = none ∧ d = engIrq (chargeRun (ldgDrain (setEng s.toDev e.val { p with op := none, stopped := none, mem := [], acc := 0, irqDone := true, cntOps := satInc p.cntOps }) 2 (H.engine e.val)) e.val o.issuer micros) e.val ∧ o.kind = .sign t h q isd m) ∧
  (∃ s : State, ∃ e : Fin 4, ∃ p : Pke, ∃ o, ∃ micros, ∃ d, ∃ rid, ∃ t, ∃ h, ∃ q, ∃ isd, ∃ m, ∃ sig, ∃ pub, p = eng s.toDev e.val ∧ crossStalled s.toDev (pkeIsland e) = false ∧ (p.op = some o ∨ (p.op = none ∧ p.aborting = true ∧ p.stoppedAt = s.now ∧ p.stopped = some o)) ∧ o.rid = some rid ∧ o.usesSlot = none ∧ d = engIrq (chargeRun (ldgDrain (setEng s.toDev e.val { p with op := none, stopped := none, mem := [], acc := 0, irqDone := true, cntOps := satInc p.cntOps }) 2 (H.engine e.val)) e.val o.issuer micros) e.val ∧ o.kind = .verify t h q isd m sig pub ∧ pub ≠ []) ∧
  (∃ s : State, ∃ e : Fin 4, ∃ p : Pke, ∃ o, ∃ micros, ∃ d, ∃ rid, ∃ prog, ∃ n, p = eng s.toDev e.val ∧ crossStalled s.toDev (pkeIsland e) = false ∧ (p.op = some o ∨ (p.op = none ∧ p.aborting = true ∧ p.stoppedAt = s.now ∧ p.stopped = some o)) ∧ o.rid = some rid ∧ o.usesSlot = none ∧ d = engIrq (chargeRun (ldgDrain (setEng s.toDev e.val { p with op := none, stopped := none, mem := [], acc := 0, irqDone := true, cntOps := satInc p.cntOps }) 2 (H.engine e.val)) e.val o.issuer micros) e.val ∧ o.kind = .mac prog n) ∧
  (∃ s : State, ∃ e : Fin 4, ∃ p : Pke, ∃ o, ∃ micros, ∃ d, ∃ rid, ∃ prog, ∃ n, p = eng s.toDev e.val ∧ crossStalled s.toDev (pkeIsland e) = false ∧ (p.op = some o ∨ (p.op = none ∧ p.aborting = true ∧ p.stoppedAt = s.now ∧ p.stopped = some o)) ∧ o.rid = some rid ∧ o.usesSlot = none ∧ d = engIrq (chargeRun (ldgDrain (setEng s.toDev e.val { p with op := none, stopped := none, mem := [], acc := 0, irqDone := true, cntOps := satInc p.cntOps }) 2 (H.engine e.val)) e.val o.issuer micros) e.val ∧ reservedOf o.kind = none ∧ isSecureKind o.kind = false ∧ o.kind = .mac prog n) ∧
  (∃ s : State, ∃ e : Fin 4, ∃ p : Pke, ∃ o, ∃ micros, ∃ d, ∃ rid, p = eng s.toDev e.val ∧ crossStalled s.toDev (pkeIsland e) = false ∧ (p.op = some o ∨ (p.op = none ∧ p.aborting = true ∧ p.stoppedAt = s.now ∧ p.stopped = some o)) ∧ o.rid = some rid ∧ o.usesSlot = none ∧ d = engIrq (chargeRun (ldgDrain (setEng s.toDev e.val { p with op := none, stopped := none, mem := [], acc := 0, irqDone := true, cntOps := satInc p.cntOps }) 2 (H.engine e.val)) e.val o.issuer micros) e.val ∧ reservedOf o.kind = none ∧ isSecureKind o.kind = false) ∧
  (∃ s : State, ∃ e : Fin 4, ∃ p : Pke, ∃ o, ∃ micros, ∃ d, ∃ rid, ∃ d', p = eng s.toDev e.val ∧ crossStalled s.toDev (pkeIsland e) = false ∧ (p.op = some o ∨ (p.op = none ∧ p.aborting = true ∧ p.stoppedAt = s.now ∧ p.stopped = some o)) ∧ o.rid = some rid ∧ o.usesSlot = none ∧ d = engIrq (chargeRun (ldgDrain (setEng s.toDev e.val { p with op := none, stopped := none, mem := [], acc := 0, irqDone := true, cntOps := satInc p.cntOps }) 2 (H.engine e.val)) e.val o.issuer micros) e.val ∧ reservedOf o.kind = none ∧ isSecureKind o.kind = false ∧ d' = readbackFault d e.val) ∧
  (∃ s : State, ∃ e : Fin 4, ∃ p : Pke, p = eng s.toDev e.val ∧ p.op = none ∧ ((p.aborting = false ∨ p.stoppedAt ≠ s.now) ∨ crossStalled s.toDev (pkeIsland e) = true)) :=
  ⟨⟨S { dev with pkeWait := [.secure { rid := none, issuer := .secure, kind := .cardExchange false 0, alg := 0x21 }] }, 0, _, _, _, _, _, _, by and_intros <;> first | decide +kernel | rfl⟩,
   ⟨S { dev with pkeWait := [.cmd { rid := 0, issuer := .pf, opcode := 0x0302, params := [0, 0, 0, 0x23, 0, 0, 0, 0, 64, 0, 0, 0, 32, 0, 0, 0] ++ zeros 96 }] }, 0, _, _, _, _, by and_intros <;> first | decide +kernel | rfl | rfl⟩,
   ⟨S dev, 0, _, by and_intros <;> first | decide +kernel | exact .inr (.inr (.inr (.inl rfl))) | rfl⟩,
   ⟨S { dev with pke := [(3, { op := some { rid := some 0, issuer := .pf, kind := .sign 0x20 2 0 false [], alg := 0x20 } })] }, 3, _, _, 0, _, 0, _, _, _, _, _, by and_intros <;> first | decide +kernel | exact .inl rfl | rfl⟩,
   ⟨S { dev with pke := [(3, { op := some { rid := some 0, issuer := .pf, kind := .verify 0x20 2 0 false [] [] [1], alg := 0x20 } })] }, 3, _, _, 0, _, 0, _, _, _, _, _, _, _, by and_intros <;> first | decide +kernel | exact .inl rfl | rfl⟩,
   ⟨S { dev with pke := [(3, { op := some { rid := some 0, issuer := .pf, kind := .mac [] 0, alg := 0x20 } })] }, 3, _, _, 0, _, 0, _, _, by and_intros <;> first | decide +kernel | exact .inl rfl | rfl⟩,
   ⟨S { dev with pke := [(3, { op := some { rid := some 0, issuer := .pf, kind := .mac [] 0, alg := 0x20 } })] }, 3, _, _, 0, _, 0, _, _, by and_intros <;> first | decide +kernel | exact .inl rfl | rfl⟩,
   ⟨S { dev with pke := [(3, { op := some { rid := some 0, issuer := .pf, kind := .mac [] 0, alg := 0x20 } })] }, 3, _, _, 0, _, 0, by and_intros <;> first | decide +kernel | exact .inl rfl | rfl⟩,
   ⟨S { dev with pke := [(3, { op := some { rid := some 0, issuer := .pf, kind := .mac [] 0, alg := 0x20 } })] }, 3, _, _, 0, _, 0, _, by and_intros <;> first | decide +kernel | exact .inl rfl | rfl⟩,
   ⟨S dev, 0, _, by and_intros <;> first | decide +kernel | exact .inl (.inl rfl) | rfl⟩⟩

/-- States and operands that meet the hypotheses of `Obligations.EngineWindowsAndAborts`, one for each of its clauses. -/
theorem meets_EngineWindowsAndAborts :
  (∃ s : State, ∃ e : Fin 4, ∃ p : Pke, p = eng s.toDev e.val ∧ s.now < s.pkeWindow + 64 * msCycles) ∧
  (∃ s : State, ∃ e : Fin 4, ∃ p : Pke, p = eng s.toDev e.val ∧ s.pkeWindow + 64 * msCycles ≤ s.now) ∧
  (∃ s : State, ∃ e : Fin 4, ∃ p : Pke, ∃ m : Master, ∃ o, p = eng s.toDev e.val ∧ masterSecure s.toDev m = true ∧ inTransit s.toDev (18 + e.val) = false ∧ p.op = some o) ∧
  (∃ s : State, ∃ e : Fin 4, ∃ p : Pke, ∃ m : Master, p = eng s.toDev e.val ∧ masterSecure s.toDev m = true ∧ inTransit s.toDev (18 + e.val) = false ∧ p.op = none) ∧
  (∃ s : State, ∃ e : Fin 4, ∃ p : Pke, ∃ m : Master, p = eng s.toDev e.val ∧ masterSecure s.toDev m = false ∧ inTransit s.toDev (18 + e.val) = false) ∧
  (∃ s : State, ∃ e : Fin 4, ∃ p : Pke, p = eng s.toDev e.val ∧ inTransit s.toDev (18 + e.val) = true) ∧
  (∃ s : State, ∃ e : Fin 4, ∃ p : Pke, ∃ o, ∃ rid, ∃ d, p = eng s.toDev e.val ∧ crossStalled s.toDev (pkeIsland e) = false ∧ p.aborting = true ∧ p.stopped = some o ∧ o.rid = some rid ∧ reservedOf o.kind = none ∧ o.usesSlot = none ∧ isSecureKind o.kind = false ∧ d = finish (engIrq (ldgDrain (setEng s.toDev e.val { p with aborting := false, stopped := none, irqAborted := true, cntAborts := satInc p.cntAborts }) 2 (H.engine e.val)) e.val) rid ST.aborted) ∧
  (∃ s : State, ∃ e : Fin 4, ∃ p : Pke, ∃ d, p = eng s.toDev e.val ∧ crossStalled s.toDev (pkeIsland e) = false ∧ p.aborting = true ∧ p.stopped = none ∧ d = engIrq (ldgDrain (setEng s.toDev e.val { p with aborting := false, irqAborted := true }) 2 (H.engine e.val)) e.val) ∧
  (∃ s : State, ∃ e : Fin 4, ∃ p : Pke, p = eng s.toDev e.val ∧ (p.aborting = false ∨ crossStalled s.toDev (pkeIsland e) = true)) :=
  ⟨⟨S { dev with now := 0 }, 3, _, by and_intros <;> first | decide +kernel | exact .inl rfl | rfl⟩,
   ⟨S { dev with now := 25600000, pkeWindow := 0 }, 3, _, by and_intros <;> first | decide +kernel | exact .inl rfl | rfl⟩,
   ⟨S { dev with pke := [(3, { op := some { rid := some 0, issuer := .pf, kind := .mac [] 0, alg := 0x20 } })] }, 3, _, .cp 3 true, _, by and_intros <;> first | decide +kernel | exact .inl rfl | rfl⟩,
   ⟨S dev, 3, _, .cp 3 true, by and_intros <;> first | decide +kernel | exact .inl rfl | rfl⟩,
   ⟨S dev, 3, _, .cp 3 false, by and_intros <;> first | decide +kernel | exact .inl rfl | rfl⟩,
   ⟨S { dev with sec.hoGo := true, sec.hoPeriph := 21 }, 3, _, by and_intros <;> first | decide +kernel | exact .inl rfl | rfl⟩,
   ⟨S { dev with pke := [(3, { aborting := true, stopped := some { rid := some 0, issuer := .pf, kind := .mac [] 0, alg := 0x20 } })] }, 3, _, _, _, _, by and_intros <;> first | decide +kernel | exact .inl rfl | rfl⟩,
   ⟨S { dev with pke := [(3, { aborting := true })] }, 3, _, _, by and_intros <;> first | decide +kernel | exact .inl rfl | rfl⟩,
   ⟨S dev, 3, _, by and_intros <;> first | decide +kernel | exact .inl rfl | rfl⟩⟩

/-- States and operands that meet the hypotheses of `Obligations.LanesAndRandomNumbers`, one for each of its clauses. -/
theorem meets_LanesAndRandomNumbers :
  (∃ s : State, ∃ l : Fin 12, ∃ j, ∃ d, ∃ h, ∃ n, ∃ msg, crossStalled s.toDev .sym = false ∧ tget s.sym.lanes l.val = some j ∧ d = chargeLane { s.toDev with sym := { s.sym with lanes := tdel s.sym.lanes l.val } } l.val j.payer (s.now - j.since) ∧ j.kind = .hash h n msg) ∧
  (∃ s : State, ∃ l : Fin 12, ∃ j, ∃ d, ∃ alg, ∃ n, ∃ msg, crossStalled s.toDev .sym = false ∧ tget s.sym.lanes l.val = some j ∧ d = chargeLane { s.toDev with sym := { s.sym with lanes := tdel s.sym.lanes l.val } } l.val j.payer (s.now - j.since) ∧ j.kind = .macGen alg n msg) ∧
  (∃ s : State, ∃ l : Fin 12, ∃ j, ∃ d, ∃ alg, ∃ n, ∃ msg, ∃ mac, crossStalled s.toDev .sym = false ∧ tget s.sym.lanes l.val = some j ∧ d = chargeLane { s.toDev with sym := { s.sym with lanes := tdel s.sym.lanes l.val } } l.val j.payer (s.now - j.since) ∧ j.kind = .macVerify alg n msg mac) ∧
  (∃ s : State, ∃ l : Fin 12, ∃ j, ∃ d, ∃ iv, ∃ aad, ∃ data, ∃ tag, crossStalled s.toDev .sym = false ∧ tget s.sym.lanes l.val = some j ∧ d = chargeLane { s.toDev with sym := { s.sym with lanes := tdel s.sym.lanes l.val } } l.val j.payer (s.now - j.since) ∧ j.kind = .cipher 3 1 [] iv aad data tag) ∧
  (∃ s : State, ∃ l : Fin 12, ∃ j, ∃ d, ∃ mode, ∃ dir, ∃ k2, ∃ iv, ∃ aad, ∃ data, ∃ tag, crossStalled s.toDev .sym = false ∧ tget s.sym.lanes l.val = some j ∧ d = chargeLane { s.toDev with sym := { s.sym with lanes := tdel s.sym.lanes l.val } } l.val j.payer (s.now - j.since) ∧ j.kind = .cipher mode dir k2 iv aad data tag ∧ mode ≠ 3) ∧
  (∃ s : State, ∃ l : Fin 12, ∃ j, ∃ d, ∃ n, crossStalled s.toDev .sym = false ∧ tget s.sym.lanes l.val = some j ∧ d = chargeLane { s.toDev with sym := { s.sym with lanes := tdel s.sym.lanes l.val } } l.val j.payer (s.now - j.since) ∧ j.kind = .rng n) ∧
  (∃ s : State, ∃ l : Fin 12, ((tget s.sym.lanes l.val = none ∧ s.sym.wait = []) ∨ crossStalled s.toDev .sym = true)) ∧
  (∃ s : State, ∃ c : RngCause, ∃ n, ∃ y, ∃ d, crossStalled s.toDev .sym = false ∧ s.sym.rngInst = true ∧ n = min 15 (s.sym.rngFails.toNat + 1) ∧ (y = { s.sym with rngFailed := true, rngInst := false, rngFails := BitVec.ofNat 4 n, rngCause := (match c with | .repetition => 1 | .adaptive => 2 | .startup => 3 | .kat => 4), rngPerm := s.sym.rngPerm || decide (3 ≤ n) }) ∧ d = errD { s.toDev with sym := y } 6 0 ST.rngFail) ∧
  (∃ s : State, (s.sym.rngInst = false ∨ crossStalled s.toDev .sym = true)) ∧
  (∃ s : State, crossStalled s.toDev .sym = false ∧ drbgReady s.toDev = true) ∧
  (∃ s : State, (drbgReady s.toDev = false ∨ crossStalled s.toDev .sym = true)) :=
  ⟨⟨S { dev with sym.lanes := [(11, { rid := 0, kind := .hash 7 64 [] })] }, 11, _, _, _, _, _, by and_intros <;> first | decide +kernel | exact .inl ⟨rfl, rfl⟩ | exact .inl rfl | rfl⟩,
   ⟨S { dev with sym.lanes := [(11, { rid := 0, kind := .macGen 3 16 [] })] }, 11, _, _, _, _, _, by and_intros <;> first | decide +kernel | exact .inl ⟨rfl, rfl⟩ | exact .inl rfl | rfl⟩,
   ⟨S { dev with sym.lanes := [(11, { rid := 0, kind := .macVerify 3 16 [] [] })] }, 11, _, _, _, _, _, _, by and_intros <;> first | decide +kernel | exact .inl ⟨rfl, rfl⟩ | exact .inl rfl | rfl⟩,
   ⟨S { dev with sym.lanes := [(11, { rid := 0, kind := .cipher 3 1 [] [] [] [] [] })] }, 11, _, _, _, _, _, _, by and_intros <;> first | decide +kernel | exact .inl ⟨rfl, rfl⟩ | exact .inl rfl | rfl⟩,
   ⟨S { dev with sym.lanes := [(11, { rid := 0, kind := .cipher 4 0 [] [] [] [] [] })] }, 11, _, _, _, _, _, _, _, _, _, by and_intros <;> first | decide +kernel | exact .inl ⟨rfl, rfl⟩ | exact .inl rfl | rfl⟩,
   ⟨S { dev with sym.lanes := [(11, { rid := 0, kind := .rng 5 })] }, 11, _, _, _, by and_intros <;> first | decide +kernel | exact .inl ⟨rfl, rfl⟩ | exact .inl rfl | rfl⟩,
   ⟨S dev, 11, by first | decide +kernel | exact .inl ⟨rfl, rfl⟩ | exact .inl rfl | rfl⟩,
   ⟨S { dev with sym.rngFails := 2, sym.rngInst := true }, .kat, _, _, _, by and_intros <;> first | decide +kernel | exact .inl ⟨rfl, rfl⟩ | exact .inl rfl | rfl⟩,
   ⟨S { dev with sym.rngInst := false }, by first | decide +kernel | exact .inl ⟨rfl, rfl⟩ | exact .inl rfl | rfl⟩,
   ⟨S dev, by and_intros <;> first | decide +kernel | exact .inl ⟨rfl, rfl⟩ | exact .inl rfl | rfl⟩,
   ⟨S { dev with sym.rngFailed := true }, by first | decide +kernel | exact .inl ⟨rfl, rfl⟩ | exact .inl rfl | rfl⟩⟩

/-- States and operands that meet the hypotheses of `Obligations.CardSlotsFollowThePhases`, one for each of its clauses. -/
theorem meets_CardSlotsFollowThePhases :
  (∃ s : State, ∃ x : Slot, ∃ c : CardSlot, c = slotOf s.toDev x ∧ c.phase = .empty) ∧
  (∃ s : State, ∃ x : Slot, ∃ c : CardSlot, c = slotOf s.toDev x ∧ c.phase = .debounce ∧ s.glb.bankCrd = .released ∧ s.glb.power = .run) ∧
  (∃ s : State, ∃ x : Slot, ∃ c : CardSlot, c = slotOf s.toDev x) ∧
  (∃ s : State, ∃ x : Slot, ∃ c : CardSlot, ∃ r : CmdAnswer, ∃ d, ∃ k, ∃ w : Word, c = slotOf s.toDev x ∧ c.phase = .identification ∧ s.glb.power = .run ∧ k = { c with polls := c.polls + 1, busFails := 0 } ∧ d = cardCmd (setSlot s.toDev x k) x .cmd1 ∧ r.response = some w ∧ w.getLsbD 31 = true ∧ w.getLsbD 21 = true ∧ w.getLsbD 20 = true) ∧
  (∃ s : State, ∃ x : Slot, ∃ c : CardSlot, ∃ r : CmdAnswer, ∃ d, ∃ k, ∃ w : Word, c = slotOf s.toDev x ∧ c.phase = .identification ∧ s.glb.power = .run ∧ k = { c with polls := c.polls + 1, busFails := 0 } ∧ d = cardCmd (setSlot s.toDev x k) x .cmd1 ∧ r.response = some w ∧ w.getLsbD 31 = true ∧ (w.getLsbD 21 = false ∨ w.getLsbD 20 = false)) ∧
  (∃ s : State, ∃ x : Slot, ∃ c : CardSlot, ∃ r : CmdAnswer, ∃ d, ∃ k, c = slotOf s.toDev x ∧ c.phase = .identification ∧ s.glb.power = .run ∧ k = { c with polls := c.polls + 1, busFails := 0 } ∧ d = cardCmd (setSlot s.toDev x k) x .cmd1 ∧ (r.response = none ∨ (∃ w : Word, r.response = some w ∧ w.getLsbD 31 = false)) ∧ c.polls < 99) ∧
  (∃ s : State, ∃ x : Slot, ∃ c : CardSlot, ∃ r : CmdAnswer, ∃ d, ∃ k, c = slotOf s.toDev x ∧ c.phase = .identification ∧ s.glb.power = .run ∧ k = { c with polls := c.polls + 1, busFails := 0 } ∧ d = cardCmd (setSlot s.toDev x k) x .cmd1 ∧ (r.response = none ∨ (∃ w : Word, r.response = some w ∧ w.getLsbD 31 = false)) ∧ 99 ≤ c.polls) ∧
  (∃ s : State, ∃ x : Slot, ∃ c : CardSlot, ∃ b : BusFail, ∃ n, c = slotOf s.toDev x ∧ b.slot = x ∧ c.supply = true ∧ n = (if b.again then c.busFails + 1 else 1) ∧ n < 4) ∧
  (∃ s : State, ∃ x : Slot, ∃ c : CardSlot, ∃ b : BusFail, ∃ n, c = slotOf s.toDev x ∧ b.slot = x ∧ c.supply = true ∧ n = (if b.again then c.busFails + 1 else 1) ∧ 4 ≤ n) ∧
  (∃ s : State, ∃ x : Slot, ∃ c : CardSlot, c = slotOf s.toDev x ∧ c.supply = true) ∧
  (∃ s : State, ∃ x : Slot, ∃ c : CardSlot, c = slotOf s.toDev x ∧ c.foldBack = true) ∧
  (∃ s : State, ∃ x : Slot, ∃ c : CardSlot, c = slotOf s.toDev x ∧ c.phase ≠ .empty) ∧
  (∃ s : State, ∃ x : Slot, ∃ c : CardSlot, c = slotOf s.toDev x ∧ (c.phase ≠ .debounce ∨ s.glb.bankCrd ≠ .released ∨ s.glb.power ≠ .run)) ∧
  (∃ s : State, ∃ x : Slot, ∃ c : CardSlot, c = slotOf s.toDev x ∧ (c.phase ≠ .identification ∨ s.glb.power ≠ .run)) :=
  ⟨⟨S dev, .b, _, by and_intros <;> first | decide +kernel | exact .inl rfl | exact .inr rfl | exact .inr ⟨_, rfl, rfl⟩ | rfl⟩,
   ⟨S { dev with crd.b := { phase := .debounce } }, .b, _, by and_intros <;> first | decide +kernel | exact .inl rfl | exact .inr rfl | exact .inr ⟨_, rfl, rfl⟩ | rfl⟩,
   ⟨S dev, .b, _, by first | decide +kernel | exact .inl rfl | exact .inr rfl | exact .inr ⟨_, rfl, rfl⟩ | rfl⟩,
   ⟨S { dev with crd.b := { phase := .identification } }, .b, _, { response := some 0x80300000 }, _, _, 0x80300000, by and_intros <;> first | decide +kernel | exact .inl rfl | exact .inr rfl | exact .inr ⟨_, rfl, rfl⟩ | rfl⟩,
   ⟨S { dev with crd.b := { phase := .identification } }, .b, _, { response := some 0x80200000 }, _, _, 0x80200000, by and_intros <;> first | decide +kernel | exact .inl rfl | exact .inr rfl | exact .inr ⟨_, rfl, rfl⟩ | rfl⟩,
   ⟨S { dev with crd.b := { phase := .identification, polls := 98 } }, .b, _, { response := none }, _, _, by and_intros <;> first | decide +kernel | exact .inl rfl | exact .inr rfl | exact .inr ⟨_, rfl, rfl⟩ | rfl | exact .inl rfl⟩,
   ⟨S { dev with crd.b := { phase := .identification, polls := 99 } }, .b, _, { response := none }, _, _, by and_intros <;> first | decide +kernel | exact .inl rfl | exact .inr rfl | exact .inr ⟨_, rfl, rfl⟩ | rfl | exact .inl rfl⟩,
   ⟨S { dev with crd.b := { supply := true, busFails := 2 } }, .b, _, { slot := .b, cmd := .cmd13, again := true }, _, by and_intros <;> first | decide +kernel | exact .inl rfl | exact .inr rfl | exact .inr ⟨_, rfl, rfl⟩ | rfl⟩,
   ⟨S { dev with crd.b := { supply := true, busFails := 3 } }, .b, _, { slot := .b, cmd := .cmd13, again := true }, _, by and_intros <;> first | decide +kernel | exact .inl rfl | exact .inr rfl | exact .inr ⟨_, rfl, rfl⟩ | rfl⟩,
   ⟨S { dev with crd.b := { supply := true } }, .b, _, by and_intros <;> first | decide +kernel | exact .inl rfl | exact .inr rfl | exact .inr ⟨_, rfl, rfl⟩ | rfl⟩,
   ⟨S { dev with crd.b := { foldBack := true } }, .b, _, by and_intros <;> first | decide +kernel | exact .inl rfl | exact .inr rfl | exact .inr ⟨_, rfl, rfl⟩ | rfl⟩,
   ⟨S { dev with crd.b := { phase := .disabled } }, .b, _, by and_intros <;> first | decide +kernel | exact .inl rfl | exact .inr rfl | exact .inr ⟨_, rfl, rfl⟩ | rfl⟩,
   ⟨S dev, .b, _, by and_intros <;> first | decide +kernel | exact .inl rfl | exact .inr rfl | exact .inr ⟨_, rfl, rfl⟩ | rfl⟩,
   ⟨S dev, .b, _, by and_intros <;> first | decide +kernel | exact .inl rfl | exact .inr rfl | exact .inr ⟨_, rfl, rfl⟩ | rfl⟩⟩

/-- States and operands that meet the hypotheses of `Obligations.TacksAreIssuedAndCounted`, one for each of its clauses. -/
theorem meets_TacksAreIssuedAndCounted :
  (∃ s : State, ∃ x : Slot, ∃ c : CardSlot, ∃ desc : CardDesc, ∃ d : Dev, ∃ o, ∃ w, ∃ n, c = slotOf s.toDev x ∧ c.phase = .transfer ∧ c.exch = none ∧ s.glb.power = .run ∧ enrolling s.toDev = some (o, w, n) ∧ drbgReady s.toDev = true ∧ (∀ y e, (slotOf s.toDev y).exch = some e → e.issue = false) ∧ d = setSlot (cardCmd s.toDev x (.cmd17 0)) x { c with index := desc.index.setWidth 4, owner := desc.owner } ∧ desc.format = 0xC101 ∧ desc.tackState = 0) ∧
  (∃ s : State, ∃ x : Slot, ∃ c : CardSlot, ∃ desc : CardDesc, ∃ d : Dev, ∃ o, ∃ w, ∃ n, c = slotOf s.toDev x ∧ c.phase = .transfer ∧ c.exch = none ∧ s.glb.power = .run ∧ enrolling s.toDev = some (o, w, n) ∧ drbgReady s.toDev = true ∧ (∀ y e, (slotOf s.toDev y).exch = some e → e.issue = false) ∧ d = setSlot (cardCmd s.toDev x (.cmd17 0)) x { c with index := desc.index.setWidth 4, owner := desc.owner } ∧ (desc.format ≠ 0xC101 ∨ desc.tackState ≠ 0)) ∧
  (∃ s : State, ∃ x : Slot, ∃ c : CardSlot, ∃ desc : CardDesc, ∃ d : Dev, ∃ z, ∃ w, ∃ sh, c = slotOf s.toDev x ∧ c.phase = .transfer ∧ c.exch = none ∧ s.glb.power = .run ∧ s.crd.session = some z ∧ drbgReady s.toDev = true ∧ d = setSlot (cardCmd s.toDev x (.cmd17 0)) x { c with index := desc.index.setWidth 4, owner := desc.owner } ∧ desc.format = 0xC101 ∧ desc.tackState = 1 ∧ desc.owner.toNat = z.owner ∧ ownerOf s.toDev z.owner = some w ∧ tget w.shares desc.index.toNat = some sh ∧ sh.serial = desc.serial ∧ sh.pub = desc.pub) ∧
  (∃ s : State, ∃ x : Slot, ∃ c : CardSlot, ∃ desc : CardDesc, ∃ d : Dev, ∃ z, c = slotOf s.toDev x ∧ c.phase = .transfer ∧ c.exch = none ∧ s.glb.power = .run ∧ s.crd.session = some z ∧ drbgReady s.toDev = true ∧ d = setSlot (cardCmd s.toDev x (.cmd17 0)) x { c with index := desc.index.setWidth 4, owner := desc.owner } ∧ desc.format = 0xC101 ∧ desc.tackState = 1 ∧ desc.owner.toNat ≠ z.owner) ∧
  (∃ s : State, ∃ x : Slot, ∃ c : CardSlot, ∃ desc : CardDesc, ∃ d : Dev, ∃ z, ∃ w, ∃ sh, c = slotOf s.toDev x ∧ c.phase = .transfer ∧ c.exch = none ∧ s.glb.power = .run ∧ s.crd.session = some z ∧ drbgReady s.toDev = true ∧ d = setSlot (cardCmd s.toDev x (.cmd17 0)) x { c with index := desc.index.setWidth 4, owner := desc.owner } ∧ desc.format = 0xC101 ∧ desc.tackState = 1 ∧ desc.owner.toNat = z.owner ∧ ownerOf s.toDev z.owner = some w ∧ (tget w.shares desc.index.toNat = none ∨ (tget w.shares desc.index.toNat = some sh ∧ (sh.serial ≠ desc.serial ∨ sh.pub ≠ desc.pub)))) ∧
  (∃ s : State, ∃ x : Slot, ∃ c : CardSlot, ∃ desc : CardDesc, ∃ d : Dev, ∃ z, c = slotOf s.toDev x ∧ c.phase = .transfer ∧ c.exch = none ∧ s.glb.power = .run ∧ s.crd.session = some z ∧ drbgReady s.toDev = true ∧ d = setSlot (cardCmd s.toDev x (.cmd17 0)) x { c with index := desc.index.setWidth 4, owner := desc.owner } ∧ (desc.format ≠ 0xC101 ∨ desc.tackState ≠ 1)) ∧
  (∃ s : State, ∃ x : Slot, ∃ c : CardSlot, ∃ e, c = slotOf s.toDev x ∧ c.exch = some e ∧ e.reply = none ∧ c.phase = .exchange ∧ s.glb.power = .run) ∧
  (∃ s : State, ∃ x : Slot, ∃ c : CardSlot, c = slotOf s.toDev x ∧ (c.exch = none ∨ s.glb.power ≠ .run)) ∧
  (∃ s : State, ∃ x : Slot, ∃ c : CardSlot, ∃ z, ∃ w, c = slotOf s.toDev x ∧ s.crd.session = some z ∧ ownerOf s.toDev z.owner = some w ∧ z.since + w.window * secondCycles ≤ s.now) ∧
  (∃ s : State, ∃ x : Slot, ∃ c : CardSlot, ∃ z, ∃ w, c = slotOf s.toDev x ∧ s.crd.session = some z ∧ ownerOf s.toDev z.owner = some w ∧ s.now < z.since + w.window * secondCycles) ∧
  (∃ s : State, ∃ x : Slot, ∃ c : CardSlot, c = slotOf s.toDev x ∧ s.crd.session = none) ∧
  (∃ s : State, ∃ x : Slot, ∃ c : CardSlot, ∃ d : Dev, ∃ o : Fin 256, ∃ w, ∃ n, c = slotOf s.toDev x ∧ ownerOf s.toDev o.val = some w ∧ w.enrol = some n ∧ d = logRec (dropIssue s.toDev o.val) (recEvent "CRD" 0x0204 [BitVec.ofNat 8 o.val, BitVec.ofNat 8 n.next]) ∧ n.since + w.window * secondCycles ≤ s.now ∧ n.creation = true) ∧
  (∃ s : State, ∃ x : Slot, ∃ c : CardSlot, ∃ d : Dev, ∃ o : Fin 256, ∃ w, ∃ n, c = slotOf s.toDev x ∧ ownerOf s.toDev o.val = some w ∧ w.enrol = some n ∧ d = logRec (dropIssue s.toDev o.val) (recEvent "CRD" 0x0204 [BitVec.ofNat 8 o.val, BitVec.ofNat 8 n.next]) ∧ n.since + w.window * secondCycles ≤ s.now ∧ n.creation = false) ∧
  (∃ s : State, ∃ x : Slot, ∃ c : CardSlot, ∃ d : Dev, ∃ o : Fin 256, ∃ w, ∃ n, c = slotOf s.toDev x ∧ ownerOf s.toDev o.val = some w ∧ w.enrol = some n ∧ d = logRec (dropIssue s.toDev o.val) (recEvent "CRD" 0x0204 [BitVec.ofNat 8 o.val, BitVec.ofNat 8 n.next]) ∧ s.now < n.since + w.window * secondCycles) ∧
  (∃ s : Dev, ∃ e : Exchange, ∃ z : Session, s.crd.session = some z ∧ z.owner = e.owner ∧ slice e.request 152 48 = z.digest ∧ 1 ≤ e.index ∧ e.index ≤ 8 ∧ z.indices.getLsbD (e.index - 1) = false) ∧
  (∃ s : Dev, ∃ x : Slot, ∃ e : Exchange, ∃ z : Session, s.crd.session = some z ∧ z.owner = e.owner ∧ slice e.request 152 48 = z.digest ∧ 1 ≤ e.index ∧ e.index ≤ 8 ∧ z.indices.getLsbD (e.index - 1) = true ∧ (x = .b ∨ z.countedB = none)) :=
  ⟨⟨S { dev with crd.b := { phase := .transfer }, key.owners := [(0, { anOwner with window := 2, enrol := some { secret := [1], m := 2, n := 3, next := 1, creation := true, oldShares := [], since := 0 } })] }, .b, _, { tackState := 0, index := 1, owner := 0, serial := [], pub := [] }, _, 0, _, _, by and_intros <;> first | decide +kernel | exact fun y e h => by cases y <;> cases h | exact .inl rfl | exact .inr (by decide +kernel) | exact .inl (by decide +kernel) | rfl⟩,
   ⟨S { dev with crd.b := { phase := .transfer }, key.owners := [(0, { anOwner with window := 2, enrol := some { secret := [1], m := 2, n := 3, next := 1, creation := true, oldShares := [], since := 0 } })] }, .b, _, { tackState := 1, index := 1, owner := 0, serial := [], pub := [] }, _, 0, _, _, by and_intros <;> first | decide +kernel | exact fun y e h => by cases y <;> cases h | exact .inl rfl | exact .inr (by decide +kernel) | exact .inl (by decide +kernel) | rfl⟩,
   ⟨S { dev with crd.b := { phase := .transfer }, crd.session := some { owner := 0, mEff := 2, digest := zeros 48, indices := 0, since := 0 }, key.owners := [(0, { anOwner with shares := [(1, { serial := [], pub := [], check := [] })] })] }, .b, _, { tackState := 1, index := 1, owner := 0, serial := [], pub := [] }, _, _, _, _, by and_intros <;> first | rfl | decide +kernel⟩,
   ⟨S { dev with crd.b := { phase := .transfer }, crd.session := some { owner := 1, mEff := 2, digest := zeros 48, indices := 0, since := 0 }, key.owners := [(0, { anOwner with shares := [(1, { serial := [], pub := [], check := [] })] })] }, .b, _, { tackState := 1, index := 1, owner := 0, serial := [], pub := [] }, _, _, by and_intros <;> first | decide +kernel | exact fun y e h => by cases y <;> cases h | exact .inl rfl | exact .inr (by decide +kernel) | exact .inl (by decide +kernel) | rfl⟩,
   ⟨S { dev with crd.b := { phase := .transfer }, crd.session := some { owner := 0, mEff := 2, digest := zeros 48, indices := 0, since := 0 }, key.owners := [(0, { anOwner with shares := [(1, { serial := [], pub := [], check := [] })] })] }, .b, _, { tackState := 1, index := 2, owner := 0, serial := [], pub := [] }, _, _, _, { serial := [], pub := [], check := [] }, by and_intros <;> first | decide +kernel | exact fun y e h => by cases y <;> cases h | exact .inl rfl | exact .inr (by decide +kernel) | exact .inl (by decide +kernel) | rfl⟩,
   ⟨S { dev with crd.b := { phase := .transfer }, crd.session := some { owner := 0, mEff := 2, digest := zeros 48, indices := 0, since := 0 }, key.owners := [(0, { anOwner with shares := [(1, { serial := [], pub := [], check := [] })] })] }, .b, _, { tackState := 0, index := 1, owner := 0, serial := [], pub := [] }, _, _, by and_intros <;> first | decide +kernel | exact fun y e h => by cases y <;> cases h | exact .inl rfl | exact .inr (by decide +kernel) | exact .inl (by decide +kernel) | rfl⟩,
   ⟨S { dev with crd.b := { phase := .exchange, exch := some { issue := true, owner := 0, index := 8, desc := { tackState := 0, index := 1, owner := 0, serial := [], pub := [] }, nonce := [], eph := [], request := zeros 200, share := [] } } }, .b, _, _, by and_intros <;> first | decide +kernel | exact fun y e h => by cases y <;> cases h | exact .inl rfl | exact .inr (by decide +kernel) | exact .inl (by decide +kernel) | rfl⟩,
   ⟨S dev, .b, _, by and_intros <;> first | decide +kernel | exact fun y e h => by cases y <;> cases h | exact .inl rfl | exact .inr (by decide +kernel) | exact .inl (by decide +kernel) | rfl⟩,
   ⟨S { dev with crd.session := some { owner := 0, mEff := 2, digest := zeros 48, indices := 0, since := 200000000 }, key.owners := [(0, { anOwner with window := 2 })] }, .b, _, _, _, by and_intros <;> first | decide +kernel | exact fun y e h => by cases y <;> cases h | exact .inl rfl | exact .inr (by decide +kernel) | exact .inl (by decide +kernel) | rfl⟩,
   ⟨S { dev with crd.session := some { owner := 0, mEff := 2, digest := zeros 48, indices := 0, since := 200000001 }, key.owners := [(0, { anOwner with window := 2 })] }, .b, _, _, _, by and_intros <;> first | decide +kernel | exact fun y e h => by cases y <;> cases h | exact .inl rfl | exact .inr (by decide +kernel) | exact .inl (by decide +kernel) | rfl⟩,
   ⟨S dev, .b, _, by and_intros <;> first | decide +kernel | exact fun y e h => by cases y <;> cases h | exact .inl rfl | exact .inr (by decide +kernel) | exact .inl (by decide +kernel) | rfl⟩,
   ⟨S { dev with key.owners := [(255, { anOwner with window := 2, enrol := some { secret := [1], m := 2, n := 3, next := 1, creation := true, oldShares := [], since := 200000000 } })] }, .b, _, _, 255, _, _, by and_intros <;> first | decide +kernel | exact fun y e h => by cases y <;> cases h | exact .inl rfl | exact .inr (by decide +kernel) | exact .inl (by decide +kernel) | rfl⟩,
   ⟨S { dev with key.owners := [(255, { anOwner with window := 2, enrol := some { secret := [1], m := 2, n := 3, next := 1, creation := false, oldShares := [], since := 200000000 } })] }, .b, _, _, 255, _, _, by and_intros <;> first | decide +kernel | exact fun y e h => by cases y <;> cases h | exact .inl rfl | exact .inr (by decide +kernel) | exact .inl (by decide +kernel) | rfl⟩,
   ⟨S { dev with key.owners := [(255, { anOwner with window := 2, enrol := some { secret := [1], m := 2, n := 3, next := 1, creation := true, oldShares := [], since := 200000001 } })] }, .b, _, _, 255, _, _, by and_intros <;> first | decide +kernel | exact fun y e h => by cases y <;> cases h | exact .inl rfl | exact .inr (by decide +kernel) | exact .inl (by decide +kernel) | rfl⟩,
   ⟨{ dev with crd.session := some { owner := 0, mEff := 2, digest := zeros 48, indices := 0, since := 0 } }, { issue := true, owner := 0, index := 8, desc := { tackState := 0, index := 1, owner := 0, serial := [], pub := [] }, nonce := [], eph := [], request := zeros 200, share := [] }, _, by and_intros <;> first | decide +kernel | exact fun y e h => by cases y <;> cases h | exact .inl rfl | exact .inr (by decide +kernel) | exact .inl (by decide +kernel) | rfl⟩,
   ⟨{ dev with crd.session := some { owner := 0, mEff := 2, digest := zeros 48, indices := 0x80, since := 0 } }, .b, { issue := true, owner := 0, index := 8, desc := { tackState := 0, index := 1, owner := 0, serial := [], pub := [] }, nonce := [], eph := [], request := zeros 200, share := [] }, _, by and_intros <;> first | decide +kernel | exact fun y e h => by cases y <;> cases h | exact .inl rfl | exact .inr (by decide +kernel) | exact .inl (by decide +kernel) | rfl⟩⟩

/-- States and operands that meet the hypotheses of `Obligations.FlashCommandsAreFiltered`, one for each of its clauses. -/
theorem meets_FlashCommandsAreFiltered :
  (∃ s : State, ∃ op : Byte, ∃ e : Dev, e = csFall s.toDev ∧ bwhLive s.toDev = true ∧ (op ∈ readOps ∨ op ∈ writeOps)) ∧
  (∃ s : State, ∃ e : Dev, e = csFall s.toDev ∧ bwhLive s.toDev = true) ∧
  (∃ s : State, ∃ op : Byte, ∃ e : Dev, e = csFall s.toDev ∧ bwhLive s.toDev = true ∧ op ∈ passOps) ∧
  (∃ s : State, ∃ op : Byte, ∃ e : Dev, ∃ o, e = csFall s.toDev ∧ bwhLive s.toDev = true ∧ (o = op ∧ op ∉ readOps ++ writeOps ++ passOps ++ wholeOps ∧ op ∉ [0x9F, 0x5A, 0x05, 0x35])) ∧
  (∃ s : State, ∃ op : Byte, ∃ addr : Nat, ∃ len : Nat, ∃ e : Dev, ∃ i, e = csFall s.toDev ∧ bwhLive s.toDev = true ∧ ((op ∈ writeOps ∧ i = Instr.hostFlashWrite op addr len ∧ ((manRegions s.toDev).any fun x => x.1.wblock && touches x.1 (flashAddr s.toDev op addr) len) = true) ∨ (op ∈ wholeOps ∧ i = Instr.hostFlashCommand op ∧ ((manRegions s.toDev).any fun x => x.1.wblock) = true))) ∧
  (∃ s : State, ∃ op : Byte, ∃ addr : Nat, ∃ len : Nat, ∃ e : Dev, ∃ i, ∃ hit : ManRegion → Bool, e = csFall s.toDev ∧ bwhLive s.toDev = true ∧ ((op ∈ writeOps ∧ i = Instr.hostFlashWrite op addr len ∧ ((manRegions s.toDev).any fun x => x.1.wblock && touches x.1 (flashAddr s.toDev op addr) len) = false ∧ hit = fun x => touches x (flashAddr s.toDev op addr) len) ∨ (op ∈ wholeOps ∧ i = Instr.hostFlashCommand op ∧ ((manRegions s.toDev).any fun x => x.1.wblock) = false ∧ hit = fun _ => true))) ∧
  (∃ s : State, ∃ e : Dev, ∃ x, e = csFall s.toDev ∧ bwhLive s.toDev = true ∧ x ∈ advertised s.toDev) ∧
  (∃ s : State, ∃ e : Dev, e = csFall s.toDev ∧ bwhLive e = false) ∧
  (∃ s : State, ∃ op : Byte, ∃ e : Dev, e = csFall s.toDev ∧ bwhLive e = false ∧ op ∉ [0x9F, 0x5A, 0x05, 0x35]) ∧
  (∃ s : State, ∃ op : Byte, ∃ e : Dev, e = csFall s.toDev ∧ bwhLive e = false ∧ op ∈ [0x9F, 0x5A, 0x05, 0x35] ∧ bwhPulled e = false) ∧
  (∃ s : State, ∃ op : Byte, ∃ e : Dev, e = csFall s.toDev ∧ bwhLive e = false ∧ (op = 0x9F ∨ op = 0x05 ∨ op = 0x35) ∧ bwhPulled e = true) ∧
  (∃ s : State, ∃ e : Dev, e = csFall s.toDev) :=
  ⟨⟨S { dev with glb.bankBf := .released, glb.straps := { bwMode := 1, vioBfOk := true } }, 0x0B, _, by and_intros <;> first | decide +kernel | exact .inl (by decide +kernel) | exact .inl rfl | exact .inr (by decide +kernel) | exact ⟨rfl, by decide +kernel, by decide +kernel⟩ | rfl⟩,
   ⟨S { dev with glb.bankBf := .released, glb.straps := { bwMode := 1, vioBfOk := true } }, _, by and_intros <;> first | decide +kernel | exact .inl (by decide +kernel) | exact .inl rfl | exact .inr (by decide +kernel) | exact ⟨rfl, by decide +kernel, by decide +kernel⟩ | rfl⟩,
   ⟨S { dev with glb.bankBf := .released, glb.straps := { bwMode := 1, vioBfOk := true } }, 0xB7, _, by and_intros <;> first | decide +kernel | exact .inl (by decide +kernel) | exact .inl rfl | exact .inr (by decide +kernel) | exact ⟨rfl, by decide +kernel, by decide +kernel⟩ | rfl⟩,
   ⟨S { dev with glb.bankBf := .released, glb.straps := { bwMode := 1, vioBfOk := true } }, 0x9E, _, _, by and_intros <;> first | decide +kernel | exact .inl (by decide +kernel) | exact .inl rfl | exact .inr (by decide +kernel) | exact ⟨rfl, by decide +kernel, by decide +kernel⟩ | rfl⟩,
   ⟨S { dev with glb.bankBf := .released, glb.straps := { bwMode := 1, vioBfOk := true }, bwt.man := some { cosign := false, version := 0, sealTimeout := 0, holdCyc := 0, flashId := [], regions := [{ base := 0, limit := 4095, gate := false, wblock := true, digest := [] }], digest := [] } }, 0x02, 0, 256, _, _, by and_intros <;> first | decide +kernel | exact .inl ⟨by decide +kernel, rfl, by decide +kernel⟩ | rfl⟩,
   ⟨S { dev with glb.bankBf := .released, glb.straps := { bwMode := 1, vioBfOk := true }, bwt.man := some { cosign := false, version := 0, sealTimeout := 0, holdCyc := 0, flashId := [], regions := [{ base := 0, limit := 4095, gate := false, wblock := false, digest := [] }], digest := [] } }, 0xC7, 0, 256, _, _, _, by and_intros <;> first | decide +kernel | exact .inr ⟨by decide +kernel, rfl, by decide +kernel, rfl⟩ | rfl⟩,
   ⟨S { dev with glb.bankBf := .released, glb.straps := { bwMode := 1, vioBfOk := true }, bwt.offers := [0x0B] }, _, 0x0B, by and_intros <;> first | decide +kernel | exact .inl (by decide +kernel) | exact .inl rfl | exact .inr (by decide +kernel) | exact ⟨rfl, by decide +kernel, by decide +kernel⟩ | rfl⟩,
   ⟨S dev, _, by and_intros <;> first | decide +kernel | exact .inl (by decide +kernel) | exact .inl rfl | exact .inr (by decide +kernel) | exact ⟨rfl, by decide +kernel, by decide +kernel⟩ | rfl⟩,
   ⟨S dev, 0x0B, _, by and_intros <;> first | decide +kernel | exact .inl (by decide +kernel) | exact .inl rfl | exact .inr (by decide +kernel) | exact ⟨rfl, by decide +kernel, by decide +kernel⟩ | rfl⟩,
   ⟨S { dev with glb.strapsValid := true }, 0x5A, _, by and_intros <;> first | decide +kernel | exact .inl (by decide +kernel) | exact .inl rfl | exact .inr (by decide +kernel) | exact ⟨rfl, by decide +kernel, by decide +kernel⟩ | rfl⟩,
   ⟨S { dev with glb.straps := { bwMode := 1 } }, 0x05, _, by and_intros <;> first | decide +kernel | exact .inl (by decide +kernel) | exact .inl rfl | exact .inr (by decide +kernel) | exact ⟨rfl, by decide +kernel, by decide +kernel⟩ | rfl⟩,
   ⟨S { dev with glb.bankBf := .released, glb.straps := { bwMode := 1, vioBfOk := true } }, _, by first | decide +kernel | exact .inl (by decide +kernel) | exact .inl rfl | exact .inr (by decide +kernel) | exact ⟨rfl, by decide +kernel, by decide +kernel⟩ | rfl⟩⟩

/-- States and operands that meet the hypotheses of `Obligations.ArrayReadsAreGatedAndWitnessed`, one for each of its clauses. -/
theorem meets_ArrayReadsAreGatedAndWitnessed :
  (∃ s : State, ∃ r : FlashRead, ∃ a : Nat, a = flashAddr s.toDev r.op r.addr ∧ bwhLive s.toDev = true ∧ asleep (csFall s.toDev) = false ∧ r.op ∈ readOps) ∧
  (∃ s : State, ∃ r : FlashRead, ∃ a : Nat, a = flashAddr s.toDev r.op r.addr ∧ bwhPulled (csFall s.toDev) = true) ∧
  (∃ s : State, ∃ r : FlashRead, ∃ a : Nat, a = flashAddr s.toDev r.op r.addr ∧ bwhLive s.toDev = true ∧ s.glb.power = .standby ∧ r.op ∈ readOps) ∧
  (∃ s : State, ∃ r : FlashRead, ∃ a : Nat, ∃ i : Fin 64, ∃ x : ManRegion, ∃ o : RegionSt, ∃ c : Bytes, a = flashAddr s.toDev r.op r.addr ∧ ((manRegions s.toDev).find? (fun y => decide (y.2 = i.val)) = some (x, i.val)) ∧ o = regionSt s.toDev i.val x.base ∧ x.gate = true ∧ o.verified = false ∧ o.denied = false ∧ o.reverify = false ∧ Config.sha384 c = x.digest) ∧
  (∃ s : State, ∃ r : FlashRead, ∃ a : Nat, ∃ i : Fin 64, ∃ x : ManRegion, ∃ o : RegionSt, ∃ c : Bytes, a = flashAddr s.toDev r.op r.addr ∧ ((manRegions s.toDev).find? (fun y => decide (y.2 = i.val)) = some (x, i.val)) ∧ o = regionSt s.toDev i.val x.base ∧ x.gate = true ∧ o.verified = false ∧ o.denied = false ∧ o.reverify = false ∧ Config.sha384 c ≠ x.digest) ∧
  (∃ s : State, ∃ r : FlashRead, ∃ a : Nat, ∃ i : Fin 64, ∃ x : ManRegion, ∃ o : RegionSt, a = flashAddr s.toDev r.op r.addr ∧ ((manRegions s.toDev).find? (fun y => decide (y.2 = i.val)) = some (x, i.val)) ∧ o = regionSt s.toDev i.val x.base ∧ o.reverify = true ∧ s.bwt.sr1.getLsbD 0 = false) ∧
  (∃ s : State, ∃ r : FlashRead, ∃ a : Nat, ∃ i : Fin 64, ∃ x : ManRegion, ∃ o : RegionSt, a = flashAddr s.toDev r.op r.addr ∧ ((manRegions s.toDev).find? (fun y => decide (y.2 = i.val)) = some (x, i.val)) ∧ o = regionSt s.toDev i.val x.base ∧ (o.reverify = false ∨ s.bwt.sr1.getLsbD 0 = true)) :=
  ⟨⟨S { dev with glb.bankBf := .released, glb.straps := { bwMode := 1, vioBfOk := true } }, { addr := 0, bytes := [1] }, _, by and_intros <;> first | decide +kernel | rfl⟩,
   ⟨S { dev with glb.straps := { bwMode := 1 } }, { addr := 0, bytes := [1] }, _, by and_intros <;> first | decide +kernel | rfl⟩,
   ⟨S { dev with glb.power := .standby, glb.bankBf := .released, glb.straps := { bwMode := 1, vioBfOk := true } }, { addr := 0, bytes := [1] }, _, by and_intros <;> first | decide +kernel | rfl⟩,
   ⟨S { dev with glb.bankBf := .released, glb.straps := { bwMode := 1, vioBfOk := true }, bwt.man := some { cosign := false, version := 0, sealTimeout := 0, holdCyc := 0, flashId := [], regions := [{ base := 0, limit := 4095, gate := true, wblock := false, digest := Config.sha384 [] }], digest := [] } }, { addr := 0, bytes := [1] }, _, 0, { base := 0, limit := 4095, gate := true, wblock := false, digest := Config.sha384 [] }, _, [], by and_intros <;> first | rfl | decide +kernel⟩,
   ⟨S { dev with glb.bankBf := .released, glb.straps := { bwMode := 1, vioBfOk := true }, bwt.man := some { cosign := false, version := 0, sealTimeout := 0, holdCyc := 0, flashId := [], regions := [{ base := 0, limit := 4095, gate := true, wblock := false, digest := [] }], digest := [] } }, { addr := 0, bytes := [1] }, _, 0, { base := 0, limit := 4095, gate := true, wblock := false, digest := [] }, _, [], by and_intros <;> first | decide +kernel | exact fun h => nomatch (show 48 = 0 from (sha384_length []).symm.trans (congrArg List.length h)) | rfl⟩,
   ⟨S { dev with glb.bankBf := .released, glb.straps := { bwMode := 1, vioBfOk := true }, bwt.man := some { cosign := false, version := 0, sealTimeout := 0, holdCyc := 0, flashId := [], regions := [{ base := 0, limit := 4095, gate := true, wblock := false, digest := [] }], digest := [] }, bwt.regions := [(0, { next := 0, reverify := true })] }, { addr := 0, bytes := [1] }, _, 0, { base := 0, limit := 4095, gate := true, wblock := false, digest := [] }, _, by and_intros <;> first | decide +kernel | rfl⟩,
   ⟨S { dev with glb.bankBf := .released, glb.straps := { bwMode := 1, vioBfOk := true }, bwt.man := some { cosign := false, version := 0, sealTimeout := 0, holdCyc := 0, flashId := [], regions := [{ base := 0, limit := 4095, gate := true, wblock := false, digest := [] }], digest := [] } }, { addr := 0, bytes := [1] }, _, 0, { base := 0, limit := 4095, gate := true, wblock := false, digest := [] }, _, by and_intros <;> first | decide +kernel | exact .inl rfl | rfl⟩⟩

/-- States and operands that meet the hypotheses of `Obligations.SealsAndRecordsGoOn`, one for each of its clauses. -/
theorem meets_SealsAndRecordsGoOn :
  (∃ s : State, s.bwt.journal.opened = true ∧ (s.bwt.journal.openedAt + (match s.bwt.man with | some m => m.sealTimeout | none => 300) * secondCycles ≤ s.now)) ∧
  (∃ s : State, (s.bwt.journal.opened = false ∨ s.now < s.bwt.journal.openedAt + (match s.bwt.man with | some m => m.sealTimeout | none => 300) * secondCycles)) ∧
  (∃ s : State, ∃ x, s.bwt.sealing = some x ∧ x.windowOpen = true ∧ x.askedAt + 40000000 ≤ s.now) ∧
  (∃ s : State, (s.bwt.sealing = none ∨ (∃ x, s.bwt.sealing = some x ∧ (x.windowOpen = false ∨ s.now < x.askedAt + 40000000)))) ∧
  (∃ s : State, ∃ r, ∃ rest, ∃ d : Dev, s.evr.isOpen = true ∧ s.evr.writing = none ∧ s.evr.queue = r :: rest ∧ (s.evr.failed = false ∨ isAction r.after = false) ∧ d = { s.toDev with evr := { s.evr with queue := rest } } ∧ overShare d r = false ∧ bytesOf s.evr.log + 24 + r.payload.length ≤ logCap ∧ s.evr.failed = false) ∧
  (∃ s : State, ∃ r, ∃ rest, ∃ d : Dev, s.evr.isOpen = true ∧ s.evr.writing = none ∧ s.evr.queue = r :: rest ∧ (s.evr.failed = false ∨ isAction r.after = false) ∧ d = { s.toDev with evr := { s.evr with queue := rest } } ∧ overShare d r = true) ∧
  (∃ s : State, ∃ r, ∃ rest, ∃ d : Dev, s.evr.isOpen = true ∧ s.evr.writing = none ∧ s.evr.queue = r :: rest ∧ (s.evr.failed = false ∨ isAction r.after = false) ∧ d = { s.toDev with evr := { s.evr with queue := rest } } ∧ overShare d r = false ∧ takeRoom d (24 + r.payload.length) = none) ∧
  (∃ s : State, (s.evr.isOpen = false ∨ s.evr.queue = [] ∨ s.evr.writing.isSome = true)) ∧
  (∃ s : State, ∃ r, ∃ b, s.evr.isOpen = true ∧ s.evr.writing = some (r, b)) ∧
  (∃ s : State, ∃ r, ∃ b, s.evr.isOpen = true ∧ s.evr.writing = some (r, b) ∧ s.evr.failed = false ∧ s.evr.retries < 3) ∧
  (∃ s : State, ∃ r, ∃ b, s.evr.isOpen = true ∧ s.evr.writing = some (r, b) ∧ s.evr.failed = false ∧ 3 ≤ s.evr.retries) ∧
  (∃ s : State, fabricOn s.toDev = true ∧ s.evr.failed = false) ∧
  (∃ s : State, (fabricOn s.toDev = false ∨ s.evr.failed = true)) :=
  ⟨⟨S { dev with bwt.journal := { opened := true, openedAt := 600000000 }, bwt.man := some { cosign := false, version := 0, sealTimeout := 1, holdCyc := 0, flashId := [], regions := [], digest := [] } }, by and_intros <;> first | decide +kernel | exact .inl rfl | rfl⟩,
   ⟨S { dev with bwt.journal := { opened := true, openedAt := 600000001 }, bwt.man := some { cosign := false, version := 0, sealTimeout := 1, holdCyc := 0, flashId := [], regions := [], digest := [] } }, by first | decide +kernel | exact .inr (by decide +kernel) | rfl⟩,
   ⟨S { dev with bwt.sealing := some { rid := none, trigger := 0, body := [], digest := [], windowOpen := true, askedAt := 960000000 } }, _, by and_intros <;> first | decide +kernel | exact .inl rfl | rfl⟩,
   ⟨S { dev with bwt.sealing := some { rid := none, trigger := 0, body := [], digest := [], windowOpen := true, askedAt := 960000001 } }, by first | decide +kernel | exact .inr ⟨_, rfl, .inr (by decide +kernel)⟩ | rfl | exact .inl rfl⟩,
   ⟨S { dev with evr := { isOpen := true, queue := [{ rtype := 0x0001, attr := 0xFF, payload := [] }] } }, { rtype := 0x0001, attr := 0xFF, payload := [] }, [], _, by and_intros <;> first | rfl | decide +kernel | exact .inl rfl⟩,
   ⟨S { dev with evr := { isOpen := true, queue := [{ rtype := 0x0001, attr := 63, payload := [] }] } }, { rtype := 0x0001, attr := 63, payload := [] }, [], _, by and_intros <;> first | rfl | decide +kernel | exact .inl rfl⟩,
   ⟨S { dev with evr := { isOpen := true, queue := [{ rtype := 0x0001, attr := 0xFF, payload := [] }], log := [recOf 16777200] } }, { rtype := 0x0001, attr := 0xFF, payload := [] }, [], _, by and_intros <;> first | exact noRoom (k := 16777200) rfl rfl (by decide +kernel) | exact Or.inl rfl | rfl⟩,
   ⟨S { dev with evr := { isOpen := true } }, by first | decide +kernel | exact .inr (.inl rfl) | rfl⟩,
   ⟨S { dev with evr := { isOpen := true, writing := some ({ rtype := 0x0001, attr := 0xFF, payload := [] }, []) } }, _, _, by and_intros <;> first | decide +kernel | exact .inl rfl | rfl⟩,
   ⟨S { dev with evr := { isOpen := true, writing := some ({ rtype := 0x0001, attr := 0xFF, payload := [] }, []), retries := 2 } }, _, _, by and_intros <;> first | decide +kernel | exact .inl rfl | rfl⟩,
   ⟨S { dev with evr := { isOpen := true, retries := 3, writing := some ({ rtype := 0x0001, attr := 0xFF, payload := [] }, []) } }, _, _, by and_intros <;> first | decide +kernel | exact .inl rfl | rfl⟩,
   ⟨S dev, by and_intros <;> first | decide +kernel | exact .inl rfl | rfl⟩,
   ⟨S { dev with glb.power := .standby }, by first | decide +kernel | exact .inl rfl | rfl⟩⟩

/-- States and operands that meet the hypotheses of `Obligations.KrovloPortsTrainAndFall`, one for each of its clauses. -/
theorem meets_KrovloPortsTrainAndFall :
  (∃ s : State, ∃ p : Port, ∃ x : PortSt, x = portOf s.toDev p) ∧
  (∃ s : State, ∃ p : Port, ∃ lane : Fin 2, ∃ x : PortSt, x = portOf s.toDev p ∧ x.locked.getLsbD lane.val = false) ∧
  (∃ s : State, ∃ p : Port, ∃ lane : Fin 2, ∃ x : PortSt, x = portOf s.toDev p ∧ x.up = false ∧ x.locked.getLsbD lane.val = true) ∧
  (∃ s : State, ∃ p : Port, ∃ lane : Fin 2, ∃ x : PortSt, ∃ l, x = portOf s.toDev p ∧ x.up = true ∧ x.locked.getLsbD lane.val = true ∧ l = x.locked &&& ~~~BitVec.ofNat 2 (2 ^ lane.val)) ∧
  (∃ s : State, ∃ p : Port, ∃ x : PortSt, x = portOf s.toDev p ∧ (x.up = true ∨ x.locked = 0)) ∧
  (∃ s : State, ∃ p : Port, ∃ t : TrainInfo, ∃ x : PortSt, x = portOf s.toDev p ∧ x.up = false ∧ x.locked ≠ 0 ∧ t.peerPort = p) ∧
  (∃ s : State, ∃ p : Port, ∃ t : TrainInfo, ∃ x : PortSt, x = portOf s.toDev p ∧ x.up = false ∧ x.locked ≠ 0 ∧ t.peerPort ≠ p ∧ (t.ack = false ∨ x.locked ||| x.leftOut ≠ 3)) ∧
  (∃ s : State, ∃ p : Port, ∃ t : TrainInfo, ∃ x : PortSt, ∃ y : PortSt, x = portOf s.toDev p ∧ y = { x with acked := false, leftOut := 0, up := true, degraded := x.locked != 3, holding := false, miswire := false, cut := false, ackDue := true, resync := !x.retained.isEmpty } ∧ x.up = false ∧ x.locked ≠ 0 ∧ (isHead s.toDev = false ∨ s.chn.role = .member ∨ s.chn.role = .excluded) ∧ t.peerPort ≠ p ∧ t.ack = true ∧ x.locked ||| x.leftOut = 3) ∧
  (∃ s : State, ∃ p : Port, ∃ lane : Fin 2, ∃ x : PortSt, ∃ y : PortSt, x = portOf s.toDev p ∧ y = { x with acked := false, leftOut := 0, up := true, degraded := x.locked != 3, holding := false, miswire := false, cut := false, ackDue := true, resync := !x.retained.isEmpty } ∧ x.up = false ∧ x.locked ≠ 0 ∧ (isHead s.toDev = false ∨ s.chn.role = .member ∨ s.chn.role = .excluded) ∧ x.locked.getLsbD lane.val = false ∧ x.acked = true ∧ x.locked ||| (x.leftOut ||| BitVec.ofNat 2 (2 ^ lane.val)) = 3) ∧
  (∃ s : State, ∃ p : Port, ∃ lane : Fin 2, ∃ x : PortSt, x = portOf s.toDev p ∧ x.up = false ∧ x.locked.getLsbD lane.val = false ∧ (x.acked = false ∨ x.locked ||| (x.leftOut ||| BitVec.ofNat 2 (2 ^ lane.val)) ≠ 3)) ∧
  (∃ s : State, ∃ p : Port, ∃ lane : Fin 2, ∃ x : PortSt, x = portOf s.toDev p ∧ (x.up = true ∨ x.locked.getLsbD lane.val = true)) ∧
  (∃ s : State, ∃ p : Port, ∃ x : PortSt, x = portOf s.toDev p ∧ (x.up = true ∨ x.holding = false ∨ s.now < x.downAt + 400 * s.chn.linkHold)) ∧
  (∃ s : State, ∃ p : Port, ∃ x : PortSt, ∃ f, x = portOf s.toDev p ∧ x.up = false ∧ x.holding = true ∧ x.downAt + 400 * s.chn.linkHold ≤ s.now ∧ x.waiting = [] ∧ x.retained ++ x.queue = [f] ∧ f.rid = none ∧ (∀ b, f.frame.body ≠ .data b)) :=
  ⟨⟨S dev, .up, _, by first | decide +kernel | exact .inl rfl | exact .inr rfl | exact .inl (by decide +kernel) | exact .inr (by decide +kernel) | exact .inr (.inr (by decide +kernel)) | exact .inr (.inl rfl) | rfl⟩,
   ⟨S dev, .up, 1, _, by and_intros <;> first | decide +kernel | exact .inl rfl | exact .inr rfl | exact .inl (by decide +kernel) | exact .inr (by decide +kernel) | exact .inr (.inr (by decide +kernel)) | exact .inr (.inl rfl) | rfl⟩,
   ⟨S { dev with chn.up := { locked := 2 } }, .up, 1, _, by and_intros <;> first | decide +kernel | exact .inl rfl | exact .inr rfl | exact .inl (by decide +kernel) | exact .inr (by decide +kernel) | exact .inr (.inr (by decide +kernel)) | exact .inr (.inl rfl) | rfl⟩,
   ⟨S { dev with chn.up := { up := true, locked := 3 } }, .up, 1, _, _, by and_intros <;> first | decide +kernel | exact .inl rfl | exact .inr rfl | exact .inl (by decide +kernel) | exact .inr (by decide +kernel) | exact .inr (.inr (by decide +kernel)) | exact .inr (.inl rfl) | rfl⟩,
   ⟨S { dev with chn.up := { up := true } }, .up, _, by and_intros <;> first | decide +kernel | exact .inl rfl | exact .inr rfl | exact .inl (by decide +kernel) | exact .inr (by decide +kernel) | exact .inr (.inr (by decide +kernel)) | exact .inr (.inl rfl) | rfl⟩,
   ⟨S { dev with chn.up := { locked := 1 } }, .up, { peerPort := .up, ack := true }, _, by and_intros <;> first | decide +kernel | exact .inl rfl | exact .inr rfl | exact .inl (by decide +kernel) | exact .inr (by decide +kernel) | exact .inr (.inr (by decide +kernel)) | exact .inr (.inl rfl) | rfl⟩,
   ⟨S { dev with chn.up := { locked := 1 } }, .up, { peerPort := .dn, ack := true }, _, by and_intros <;> first | decide +kernel | exact .inl rfl | exact .inr rfl | exact .inl (by decide +kernel) | exact .inr (by decide +kernel) | exact .inr (.inr (by decide +kernel)) | exact .inr (.inl rfl) | rfl⟩,
   ⟨S { dev with chn.up := { locked := 1, leftOut := 2 } }, .up, { peerPort := .dn, ack := true }, _, _, by and_intros <;> first | decide +kernel | exact .inl rfl | exact .inr rfl | exact .inl (by decide +kernel) | exact .inr (by decide +kernel) | exact .inr (.inr (by decide +kernel)) | exact .inr (.inl rfl) | rfl⟩,
   ⟨S { dev with chn.up := { locked := 1, acked := true } }, .up, 1, _, _, by and_intros <;> first | decide +kernel | exact .inl rfl | exact .inr rfl | exact .inl (by decide +kernel) | exact .inr (by decide +kernel) | exact .inr (.inr (by decide +kernel)) | exact .inr (.inl rfl) | rfl⟩,
   ⟨S { dev with chn.up := { locked := 1 } }, .up, 1, _, by and_intros <;> first | decide +kernel | exact .inl rfl | exact .inr rfl | exact .inl (by decide +kernel) | exact .inr (by decide +kernel) | exact .inr (.inr (by decide +kernel)) | exact .inr (.inl rfl) | rfl⟩,
   ⟨S { dev with chn.up := { up := true } }, .up, 1, _, by and_intros <;> first | decide +kernel | exact .inl rfl | exact .inr rfl | exact .inl (by decide +kernel) | exact .inr (by decide +kernel) | exact .inr (.inr (by decide +kernel)) | exact .inr (.inl rfl) | rfl⟩,
   ⟨S { dev with chn := { linkHold := 1, up := { holding := true, downAt := 999999601 } } }, .up, _, by and_intros <;> first | decide +kernel | exact .inl rfl | exact .inr rfl | exact .inl (by decide +kernel) | exact .inr (by decide +kernel) | exact .inr (.inr (by decide +kernel)) | exact .inr (.inl rfl) | rfl⟩,
   ⟨S { dev with chn := { linkHold := 1, up := { holding := true, downAt := 999999600, queue := [{ frame := { hdr := {}, body := .ack 0 0 false } }] } } }, .up, _, { frame := { hdr := {}, body := .ack 0 0 false } }, by and_intros <;> first | decide +kernel | exact fun _ h => nomatch h | rfl⟩⟩

/-- States and operands that meet the hypotheses of `Obligations.KrovloFramesFlow`, one for each of its clauses. -/
theorem meets_KrovloFramesFlow :
  (∃ s : State, ∃ p : Port, ∃ x : PortSt, ∃ i, ∃ h, ∃ b, x = portOf s.toDev p ∧ frameOf i = some (p, h, b) ∧ hears s.toDev p = false) ∧
  (∃ s : State, ∃ p : Port, ∃ x : PortSt, ∃ i, ∃ h, ∃ b, x = portOf s.toDev p ∧ frameOf i = some (p, h, b) ∧ hears s.toDev p = true ∧ h.seq ≠ x.rxNext) ∧
  (∃ s : State, ∃ p : Port, ∃ x : PortSt, ∃ i, ∃ h, ∃ b, x = portOf s.toDev p ∧ frameOf i = some (p, h, b) ∧ hears s.toDev p = true ∧ h.dest ≠ 0xFF ∧ rxFree s.toDev p ≤ 4 ∧ (s.chn.addrValid = false ∨ h.dest.toNat ≠ s.chn.addr)) ∧
  (∃ s : State, ∃ p : Port, ∃ x : PortSt, ∃ i, ∃ h, ∃ b, x = portOf s.toDev p ∧ frameOf i = some (p, h, b) ∧ hears s.toDev p = true ∧ h.seq = x.rxNext ∧ h.dest ≠ 0xFF ∧ 4 < rxFree s.toDev p ∧ (s.chn.addrValid = false ∨ h.dest.toNat ≠ s.chn.addr) ∧ h.hops + 1 < 16) ∧
  (∃ s : State, ∃ p : Port, ∃ x : PortSt, ∃ i, ∃ h, ∃ b, x = portOf s.toDev p ∧ frameOf i = some (p, h, b) ∧ hears s.toDev p = true ∧ h.seq = x.rxNext ∧ h.dest ≠ 0xFF ∧ 4 < rxFree s.toDev p ∧ (s.chn.addrValid = false ∨ h.dest.toNat ≠ s.chn.addr) ∧ 16 ≤ h.hops + 1) ∧
  (∃ s : State, ∃ p : Port, ∃ x : PortSt, ∃ h : LinkHdr, x = portOf s.toDev p ∧ forUs s.toDev p h ∧ s.chn.role = .excluded) ∧
  (∃ s : State, ∃ p : Port, ∃ x : PortSt, ∃ h : LinkHdr, ∃ b : Bytes, ∃ o : Fin 16, ∃ d, x = portOf s.toDev p ∧ forUs s.toDev p h ∧ s.chn.role ≠ .excluded ∧ h.origin.toNat = o.val ∧ cellsFor b.length ≤ cellRoom s.toDev H.krovlo ∧ intake (heardHere s.toDev p h) (.krovlo o) (b.take 3 ++ [BitVec.ofNat 8 h.hops] ++ b.drop 4) = some d) ∧
  (∃ s : State, ∃ p : Port, ∃ x : PortSt, ∃ k : Word, ∃ r : List TxFrame, ∃ w : List TxFrame, x = portOf s.toDev p ∧ hears s.toDev p = true ∧ x.waiting = [] ∧ (r = x.retained.filter (fun t => !seqBefore t.frame.hdr.seq k)) ∧ (w = x.queue.filter (fun t => !(t.frame.hdr.retx && seqBefore t.frame.hdr.seq k)))) ∧
  (∃ s : State, ∃ p : Port, ∃ x : PortSt, x = portOf s.toDev p ∧ x.up = true) ∧
  (∃ s : State, ∃ p : Port, ∃ x : PortSt, x = portOf s.toDev p) ∧
  (∃ s : State, ∃ p : Port, ∃ x : PortSt, x = portOf s.toDev p ∧ x.up = false) ∧
  (∃ s : State, ∃ p : Port, ∃ x : PortSt, x = portOf s.toDev p ∧ hears s.toDev p = false) ∧
  (∃ f : Frame, ∃ b : Bytes, ∃ g : Nat → Bytes, b = frameBytes f ∧ (∀ k, g k = (b.drop (8 * k) ++ zeros 8).take 8)) :=
  ⟨⟨S dev, .up, _, .replAck .up {} 0, {}, _, by and_intros <;> first | decide +kernel | exact fun _ => rfl | exact .inr (by decide +kernel) | exact ⟨rfl, rfl, .inr ⟨by decide +kernel, rfl, rfl⟩⟩ | rfl⟩,
   ⟨S ring, .up, _, .replAck .up { seq := 1 } 0, { seq := 1 }, _, by and_intros <;> first | decide +kernel | exact fun _ => rfl | exact .inr (by decide +kernel) | exact ⟨rfl, rfl, .inr ⟨by decide +kernel, rfl, rfl⟩⟩ | rfl⟩,
   ⟨S { ring with chn.dn := { waiting := List.replicate 28 { frame := { hdr := { origin := 5 }, body := .ack 0 0 false } } } }, .up, _, .replAck .up { dest := 1 } 0, { dest := 1 }, _, by and_intros <;> first | decide +kernel | exact fun _ => rfl | exact .inr (by decide +kernel) | exact ⟨rfl, rfl, .inr ⟨by decide +kernel, rfl, rfl⟩⟩ | rfl⟩,
   ⟨S ring, .up, _, .replAck .up { dest := 1, hops := 14 } 0, { dest := 1, hops := 14 }, _, by and_intros <;> first | decide +kernel | exact fun _ => rfl | exact .inr (by decide +kernel) | exact ⟨rfl, rfl, .inr ⟨by decide +kernel, rfl, rfl⟩⟩ | rfl⟩,
   ⟨S ring, .up, _, .replAck .up { dest := 1, hops := 15 } 0, { dest := 1, hops := 15 }, _, by and_intros <;> first | decide +kernel | exact fun _ => rfl | exact .inr (by decide +kernel) | exact ⟨rfl, rfl, .inr ⟨by decide +kernel, rfl, rfl⟩⟩ | rfl⟩,
   ⟨S { ring with chn.role := .excluded, chn.addrValid := true, chn.up := { up := true } }, .up, _, { origin := 1, dest := 0 }, by and_intros <;> first | decide +kernel | exact fun _ => rfl | exact .inr (by decide +kernel) | exact ⟨rfl, rfl, .inr ⟨by decide +kernel, rfl, rfl⟩⟩ | rfl⟩,
   ⟨S ring, .up, _, { origin := 1, dest := 0 }, aPacket 2, 1, _, by and_intros <;> first | decide +kernel | exact fun _ => rfl | exact .inr (by decide +kernel) | exact ⟨rfl, rfl, .inr ⟨by decide +kernel, rfl, rfl⟩⟩ | rfl⟩,
   ⟨S ring, .up, _, 5, _, _, by and_intros <;> first | decide +kernel | exact fun _ => rfl | exact .inr (by decide +kernel) | exact ⟨rfl, rfl, .inr ⟨by decide +kernel, rfl, rfl⟩⟩ | rfl⟩,
   ⟨S ring, .up, _, by and_intros <;> first | decide +kernel | exact fun _ => rfl | exact .inr (by decide +kernel) | exact ⟨rfl, rfl, .inr ⟨by decide +kernel, rfl, rfl⟩⟩ | rfl⟩,
   ⟨S ring, .up, _, by first | decide +kernel | exact fun _ => rfl | exact .inr (by decide +kernel) | exact ⟨rfl, rfl, .inr ⟨by decide +kernel, rfl, rfl⟩⟩ | rfl⟩,
   ⟨S dev, .up, _, by and_intros <;> first | decide +kernel | exact fun _ => rfl | exact .inr (by decide +kernel) | exact ⟨rfl, rfl, .inr ⟨by decide +kernel, rfl, rfl⟩⟩ | rfl⟩,
   ⟨S dev, .up, _, by and_intros <;> first | decide +kernel | exact fun _ => rfl | exact .inr (by decide +kernel) | exact ⟨rfl, rfl, .inr ⟨by decide +kernel, rfl, rfl⟩⟩ | rfl⟩,
   ⟨{ hdr := {}, body := .ack 0 0 false }, _, fun k => ((frameBytes { hdr := {}, body := .ack 0 0 false }).drop (8 * k) ++ zeros 8).take 8, by and_intros <;> first | decide +kernel | exact fun _ => rfl | exact .inr (by decide +kernel) | exact ⟨rfl, rfl, .inr ⟨by decide +kernel, rfl, rfl⟩⟩ | rfl⟩⟩

/-- States and operands that meet the hypotheses of `Obligations.EnumerationGivesAddresses`, one for each of its clauses. -/
theorem meets_EnumerationGivesAddresses :
  (∃ s : State, ∃ p : Port, ∃ h : LinkHdr, ∃ H : Bytes, ∃ next : Nat, ∃ d : Dev, ∃ e : Dev, ∃ c : Chn, ∃ on' : Nat → Dev → Dev, hears s.toDev p = true ∧ h.seq = (portOf s.toDev p).rxNext ∧ d = heard s.toDev p ∧ c = d.chn ∧ isHead s.toDev = false ∧ (s.chn.headId = none ∨ s.chn.headId = some H) ∧ (∀ n e, on' n e = if (portOf e (opposite p)).up then enqueue { e with chn := { e.chn with split := 16 } } (opposite p) (headFrame e (.enumerate H n)) else enqueue { e with chn := { e.chn with split := n } } p (headFrame e (.enumBack H n))) ∧ s.chn.headId = some H ∧ s.chn.addrValid = true ∧ s.chn.role ≠ .solitary ∧ next ≤ s.chn.addr) ∧
  (∃ s : State, ∃ p : Port, ∃ h : LinkHdr, ∃ H : Bytes, ∃ next : Nat, ∃ d : Dev, ∃ e : Dev, ∃ c : Chn, ∃ on' : Nat → Dev → Dev, hears s.toDev p = true ∧ h.seq = (portOf s.toDev p).rxNext ∧ d = heard s.toDev p ∧ c = d.chn ∧ isHead s.toDev = false ∧ (s.chn.headId = none ∨ s.chn.headId = some H) ∧ (∀ n e, on' n e = if (portOf e (opposite p)).up then enqueue { e with chn := { e.chn with split := 16 } } (opposite p) (headFrame e (.enumerate H n)) else enqueue { e with chn := { e.chn with split := n } } p (headFrame e (.enumBack H n))) ∧ s.chn.addrValid = false ∧ s.chn.role ≠ .solitary ∧ next < 16 ∧ e = { d with chn := { c with addr := next, addrValid := true, headId := some H, role := .member, upstream := p == .dn } }) ∧
  (∃ s : State, ∃ p : Port, ∃ h : LinkHdr, ∃ H : Bytes, ∃ next : Nat, ∃ d : Dev, ∃ e : Dev, ∃ c : Chn, ∃ on' : Nat → Dev → Dev, hears s.toDev p = true ∧ h.seq = (portOf s.toDev p).rxNext ∧ d = heard s.toDev p ∧ c = d.chn ∧ isHead s.toDev = false ∧ (s.chn.headId = none ∨ s.chn.headId = some H) ∧ (∀ n e, on' n e = if (portOf e (opposite p)).up then enqueue { e with chn := { e.chn with split := 16 } } (opposite p) (headFrame e (.enumerate H n)) else enqueue { e with chn := { e.chn with split := n } } p (headFrame e (.enumBack H n))) ∧ s.chn.role = .solitary ∧ next < 16 ∧ e = { d with chn := { c with addr := next, addrValid := true, headId := some H, role := .member, upstream := p == .dn } }) ∧
  (∃ s : State, ∃ p : Port, ∃ h : LinkHdr, ∃ H : Bytes, ∃ next : Nat, ∃ d : Dev, ∃ e : Dev, ∃ c : Chn, ∃ on' : Nat → Dev → Dev, hears s.toDev p = true ∧ h.seq = (portOf s.toDev p).rxNext ∧ d = heard s.toDev p ∧ c = d.chn ∧ isHead s.toDev = false ∧ (s.chn.headId = none ∨ s.chn.headId = some H) ∧ (∀ n e, on' n e = if (portOf e (opposite p)).up then enqueue { e with chn := { e.chn with split := 16 } } (opposite p) (headFrame e (.enumerate H n)) else enqueue { e with chn := { e.chn with split := n } } p (headFrame e (.enumBack H n))) ∧ s.chn.addrValid = false ∧ 16 ≤ next ∧ e = { d with chn := { c with addr := 0, addrValid := false, headId := some H, role := .excluded, repl := false, upstream := p == .dn } }) ∧
  (∃ s : State, ∃ p : Port, ∃ h : LinkHdr, ∃ H : Bytes, ∃ d : Dev, ∃ c : Chn, ∃ y, hears s.toDev p = true ∧ h.seq = (portOf s.toDev p).rxNext ∧ d = heard s.toDev p ∧ c = d.chn ∧ isHead s.toDev = false ∧ s.chn.headId = some y ∧ s.chn.addrValid = true ∧ s.chn.role ≠ .solitary ∧ idLt y H = true) ∧
  (∃ s : State, ∃ p : Port, ∃ h : LinkHdr, ∃ H : Bytes, ∃ d : Dev, ∃ c : Chn, hears s.toDev p = true ∧ h.seq = (portOf s.toDev p).rxNext ∧ d = heard s.toDev p ∧ c = d.chn ∧ isHead s.toDev = true ∧ H ≠ Config.deviceId ∧ idLt H Config.deviceId = false) ∧
  (0 < leNat Config.deviceId → ∃ s : State, ∃ p : Port, ∃ h : LinkHdr, ∃ H : Bytes, ∃ d : Dev, ∃ c : Chn, hears s.toDev p = true ∧ h.seq = (portOf s.toDev p).rxNext ∧ d = heard s.toDev p ∧ c = d.chn ∧ isHead s.toDev = true ∧ H ≠ Config.deviceId ∧ idLt H Config.deviceId = true) ∧
  (∃ s : State, ∃ p : Port, ∃ h : LinkHdr, ∃ H : Bytes, ∃ d : Dev, ∃ c : Chn, hears s.toDev p = true ∧ h.seq = (portOf s.toDev p).rxNext ∧ d = heard s.toDev p ∧ c = d.chn ∧ isHead s.toDev = true ∧ H = Config.deviceId) ∧
  (∃ s : State, ∃ p : Port, ∃ h : LinkHdr, ∃ d : Dev, ∃ c : Chn, hears s.toDev p = true ∧ h.seq = (portOf s.toDev p).rxNext ∧ d = heard s.toDev p ∧ c = d.chn ∧ isHead s.toDev = false) ∧
  (∃ s : State, ∃ p : Port, ∃ h : LinkHdr, ∃ H : Bytes, ∃ d : Dev, ∃ c : Chn, hears s.toDev p = true ∧ h.seq = (portOf s.toDev p).rxNext ∧ d = heard s.toDev p ∧ c = d.chn ∧ isHead s.toDev = true ∧ H ≠ Config.deviceId) ∧
  (∃ s : State, ∃ p : Port, ∃ h : LinkHdr, ∃ H : Bytes, ∃ d : Dev, ∃ c : Chn, hears s.toDev p = true ∧ h.seq = (portOf s.toDev p).rxNext ∧ d = heard s.toDev p ∧ c = d.chn ∧ isHead s.toDev = true ∧ H = Config.deviceId ∧ (p = .up ∨ s.chn.up.up = false)) ∧
  (∃ s : State, ∃ p : Port, ∃ h : LinkHdr, ∃ H : Bytes, ∃ next : Nat, ∃ d : Dev, ∃ e : Dev, ∃ c : Chn, hears s.toDev p = true ∧ h.seq = (portOf s.toDev p).rxNext ∧ d = heard s.toDev p ∧ c = d.chn ∧ isHead s.toDev = true ∧ H = Config.deviceId ∧ p = .dn ∧ s.chn.up.up = true ∧ e = { d with chn := { c with split := next } }) ∧
  (∃ s : State, ∃ p : Port, ∃ h : LinkHdr, ∃ d : Dev, ∃ e : Dev, ∃ c : Chn, ∃ q, hears s.toDev p = true ∧ h.seq = (portOf s.toDev p).rxNext ∧ d = heard s.toDev p ∧ c = d.chn ∧ isHead s.toDev = true ∧ (s.chn.dn.up = true ∨ s.chn.up.up = true) ∧ q = (if s.chn.dn.up then Port.dn else Port.up) ∧ e = { s.toDev with chn := { s.chn with addr := 0, addrValid := true, headId := some Config.deviceId, enumRunning := s.chn.enumRunning && decide (s.chn.attempts < 8), attempts := s.chn.attempts + 1, upstream := false, split := if s.chn.dn.up then 16 else 1 } } ∧ (s.chn.role = .solitary ∨ (s.chn.enumRunning = true ∧ s.chn.attempts < 8))) ∧
  (∃ s : State, ∃ p : Port, ∃ h : LinkHdr, ∃ d : Dev, ∃ e : Dev, ∃ c : Chn, ∃ q, hears s.toDev p = true ∧ h.seq = (portOf s.toDev p).rxNext ∧ d = heard s.toDev p ∧ c = d.chn ∧ isHead s.toDev = true ∧ (s.chn.dn.up = true ∨ s.chn.up.up = true) ∧ q = (if s.chn.dn.up then Port.dn else Port.up) ∧ e = { s.toDev with chn := { s.chn with addr := 0, addrValid := true, headId := some Config.deviceId, enumRunning := true, attempts := 1, upstream := false, split := if s.chn.dn.up then 16 else 1 } } ∧ s.chn.enumRunning = false) ∧
  (∃ s : State, ∃ p : Port, ∃ h : LinkHdr, ∃ d : Dev, ∃ c : Chn, hears s.toDev p = true ∧ h.seq = (portOf s.toDev p).rxNext ∧ d = heard s.toDev p ∧ c = d.chn ∧ (isHead s.toDev = false ∨ (s.chn.up.up = false ∧ s.chn.dn.up = false) ∨ (s.chn.role ≠ .solitary ∧ (8 ≤ s.chn.attempts ∨ s.chn.enumRunning = false)))) ∧
  (∃ s : State, ∃ p : Port, ∃ h : LinkHdr, ∃ d : Dev, ∃ c : Chn, hears s.toDev p = true ∧ h.seq = (portOf s.toDev p).rxNext ∧ d = heard s.toDev p ∧ c = d.chn ∧ (isHead s.toDev = false ∨ s.chn.enumRunning = true)) :=
  ⟨⟨S { dev with chn := { up := { up := true }, role := .member, addrValid := true, addr := 1, headId := some [1] } }, .up, {}, [1], 1, _, dev, _, _, by and_intros <;> first | rfl | decide +kernel | exact fun _ _ => rfl | exact .inl rfl | exact .inr rfl | exact .inl (by decide +kernel) | exact .inr (by decide +kernel) | exact .inr ⟨by decide +kernel, by decide +kernel⟩ | exact not_idLt | exact deviceId_pos hp | exact deviceId_ne (by decide)⟩,
   ⟨S { dev with chn := { up := { up := true }, role := .enumerating } }, .up, {}, [1], 15, _, _, _, _, by and_intros <;> first | rfl | decide +kernel | exact fun _ _ => rfl | exact .inl rfl | exact .inr rfl | exact .inl (by decide +kernel) | exact .inr (by decide +kernel) | exact .inr ⟨by decide +kernel, by decide +kernel⟩ | exact not_idLt | exact deviceId_pos hp | exact deviceId_ne (by decide)⟩,
   ⟨S { dev with chn := { up := { up := true }, role := .solitary } }, .up, {}, [1], 15, _, _, _, _, by and_intros <;> first | rfl | decide +kernel | exact fun _ _ => rfl | exact .inl rfl | exact .inr rfl | exact .inl (by decide +kernel) | exact .inr (by decide +kernel) | exact .inr ⟨by decide +kernel, by decide +kernel⟩ | exact not_idLt | exact deviceId_pos hp | exact deviceId_ne (by decide)⟩,
   ⟨S { dev with chn := { up := { up := true }, role := .enumerating } }, .up, {}, [1], 16, _, _, _, _, by and_intros <;> first | rfl | decide +kernel | exact fun _ _ => rfl | exact .inl rfl | exact .inr rfl | exact .inl (by decide +kernel) | exact .inr (by decide +kernel) | exact .inr ⟨by decide +kernel, by decide +kernel⟩ | exact not_idLt | exact deviceId_pos hp | exact deviceId_ne (by decide)⟩,
   ⟨S { dev with chn := { up := { up := true }, role := .member, addrValid := true, headId := some [0] } }, .up, {}, [1], _, _, [0], by and_intros <;> first | rfl | decide +kernel | exact fun _ _ => rfl | exact .inl rfl | exact .inr rfl | exact .inl (by decide +kernel) | exact .inr (by decide +kernel) | exact .inr ⟨by decide +kernel, by decide +kernel⟩ | exact not_idLt | exact deviceId_pos hp | exact deviceId_ne (by decide)⟩,
   ⟨S { dev with chn := { up := { up := true }, isHead := true }, glb.straps := { chainHead := true } }, .up, {}, zeros 16 ++ [1], _, _, by and_intros <;> first | rfl | decide +kernel | exact fun _ _ => rfl | exact .inl rfl | exact .inr rfl | exact .inl (by decide +kernel) | exact .inr (by decide +kernel) | exact .inr ⟨by decide +kernel, by decide +kernel⟩ | exact not_idLt | exact deviceId_pos hp | exact deviceId_ne (by decide)⟩,
   fun hp => ⟨S { dev with chn := { up := { up := true }, isHead := true }, glb.straps := { chainHead := true } }, .up, {}, [0], _, _, by and_intros <;> first | rfl | decide +kernel | exact fun _ _ => rfl | exact .inl rfl | exact .inr rfl | exact .inl (by decide +kernel) | exact .inr (by decide +kernel) | exact .inr ⟨by decide +kernel, by decide +kernel⟩ | exact not_idLt | exact deviceId_pos hp | exact deviceId_ne (by decide)⟩,
   ⟨S { dev with chn := { up := { up := true }, isHead := true }, glb.straps := { chainHead := true } }, .up, {}, Config.deviceId, _, _, by and_intros <;> first | rfl | decide +kernel | exact fun _ _ => rfl | exact .inl rfl | exact .inr rfl | exact .inl (by decide +kernel) | exact .inr (by decide +kernel) | exact .inr ⟨by decide +kernel, by decide +kernel⟩ | exact not_idLt | exact deviceId_pos hp | exact deviceId_ne (by decide)⟩,
   ⟨S { dev with chn := { up := { up := true }, role := .member, addrValid := true, addr := 1, headId := some [1] } }, .up, {}, _, _, by and_intros <;> first | rfl | decide +kernel | exact fun _ _ => rfl | exact .inl rfl | exact .inr rfl | exact .inl (by decide +kernel) | exact .inr (by decide +kernel) | exact .inr ⟨by decide +kernel, by decide +kernel⟩ | exact not_idLt | exact deviceId_pos hp | exact deviceId_ne (by decide)⟩,
   ⟨S { dev with chn := { up := { up := true }, isHead := true }, glb.straps := { chainHead := true } }, .up, {}, [], _, _, by and_intros <;> first | rfl | decide +kernel | exact fun _ _ => rfl | exact .inl rfl | exact .inr rfl | exact .inl (by decide +kernel) | exact .inr (by decide +kernel) | exact .inr ⟨by decide +kernel, by decide +kernel⟩ | exact not_idLt | exact deviceId_pos hp | exact deviceId_ne (by decide)⟩,
   ⟨S { dev with chn := { up := { up := true }, isHead := true }, glb.straps := { chainHead := true } }, .up, {}, Config.deviceId, _, _, by and_intros <;> first | rfl | decide +kernel | exact fun _ _ => rfl | exact .inl rfl | exact .inr rfl | exact .inl (by decide +kernel) | exact .inr (by decide +kernel) | exact .inr ⟨by decide +kernel, by decide +kernel⟩ | exact not_idLt | exact deviceId_pos hp | exact deviceId_ne (by decide)⟩,
   ⟨S { dev with chn := { up := { up := true }, isHead := true, dn := { up := true } }, glb.straps := { chainHead := true } }, .dn, {}, Config.deviceId, 1, _, _, _, by and_intros <;> first | rfl | decide +kernel | exact fun _ _ => rfl | exact .inl rfl | exact .inr rfl | exact .inl (by decide +kernel) | exact .inr (by decide +kernel) | exact .inr ⟨by decide +kernel, by decide +kernel⟩ | exact not_idLt | exact deviceId_pos hp | exact deviceId_ne (by decide)⟩,
   ⟨S { dev with chn := { up := { up := true }, isHead := true, attempts := 7, enumRunning := true }, glb.straps := { chainHead := true } }, .up, {}, _, _, _, _, by and_intros <;> first | rfl | decide +kernel | exact fun _ _ => rfl | exact .inl rfl | exact .inr rfl | exact .inl (by decide +kernel) | exact .inr (by decide +kernel) | exact .inr ⟨by decide +kernel, by decide +kernel⟩ | exact not_idLt | exact deviceId_pos hp | exact deviceId_ne (by decide)⟩,
   ⟨S { dev with chn := { up := { up := true }, isHead := true, role := .member }, glb.straps := { chainHead := true } }, .up, {}, _, _, _, _, by and_intros <;> first | rfl | decide +kernel | exact fun _ _ => rfl | exact .inl rfl | exact .inr rfl | exact .inl (by decide +kernel) | exact .inr (by decide +kernel) | exact .inr ⟨by decide +kernel, by decide +kernel⟩ | exact not_idLt | exact deviceId_pos hp | exact deviceId_ne (by decide)⟩,
   ⟨S { dev with chn := { up := { up := true }, isHead := true, role := .member, attempts := 8, enumRunning := true }, glb.straps := { chainHead := true } }, .up, {}, _, _, by and_intros <;> first | rfl | decide +kernel | exact fun _ _ => rfl | exact .inl rfl | exact .inr rfl | exact .inl (by decide +kernel) | exact .inr (by decide +kernel) | exact .inr ⟨by decide +kernel, by decide +kernel⟩ | exact not_idLt | exact deviceId_pos hp | exact deviceId_ne (by decide)⟩,
   ⟨S { dev with chn := { up := { up := true }, isHead := true, enumRunning := true }, glb.straps := { chainHead := true } }, .up, {}, _, _, by and_intros <;> first | rfl | decide +kernel | exact fun _ _ => rfl | exact .inl rfl | exact .inr rfl | exact .inl (by decide +kernel) | exact .inr (by decide +kernel) | exact .inr ⟨by decide +kernel, by decide +kernel⟩ | exact not_idLt | exact deviceId_pos hp | exact deviceId_ne (by decide)⟩⟩

/-- States and operands that meet the hypotheses of `Obligations.UnitsAgreeOnALeader`, one for each of its clauses. -/
theorem meets_UnitsAgreeOnALeader :
  (∃ s : State, ∃ p : Port, ∃ h : LinkHdr, ∃ d : Dev, d = heardHere s.toDev p h ∧ allLocal s.toDev ∧ s.chn.cfgWaits = [] ∧ hears s.toDev p = true ∧ h.origin.toNat < 16 ∧ (s.chn.addrValid = false ∨ h.origin.toNat ≠ s.chn.addr)) ∧
  (∃ s : State, ∃ p : Port, ∃ h : LinkHdr, ∃ d : Dev, d = heardHere s.toDev p h ∧ allLocal s.toDev ∧ s.chn.cfgWaits = []) ∧
  (∃ s : State, ∃ p : Port, ∃ h : LinkHdr, ∃ d : Dev, ∃ i : Instr, d = heardHere s.toDev p h ∧ allLocal s.toDev ∧ s.chn.cfgWaits = [] ∧ ((i = .solitary ∧ (8 ≤ s.chn.unacked ∨ 8 ≤ s.chn.attempts ∨ s.chn.everUp = false)) ∨ (i = .noAddressTimeout ∧ isHead s.toDev = false ∧ s.chn.everUp = true ∧ s.chn.addrValid = false ∧ s.chn.role ≠ .excluded)) ∧ s.chn.role ≠ .solitary ∧ s.chn.replicates = []) ∧
  (∃ s : State, ∃ p : Port, ∃ h : LinkHdr, ∃ d : Dev, d = heardHere s.toDev p h ∧ allLocal s.toDev ∧ s.chn.cfgWaits = [] ∧ s.chn.unacked < 8 ∧ s.chn.attempts < 8 ∧ s.chn.everUp = true) ∧
  (∃ s : State, ∃ p : Port, ∃ h : LinkHdr, ∃ d : Dev, d = heardHere s.toDev p h ∧ allLocal s.toDev ∧ s.chn.cfgWaits = [] ∧ (s.chn.addrValid = true ∨ s.chn.role = .excluded ∨ isHead s.toDev = true ∨ s.chn.everUp = false)) ∧
  (∃ s : State, ∃ p : Port, ∃ h : LinkHdr, ∃ d : Dev, ∃ a : Fin 16, ∃ q, d = heardHere s.toDev p h ∧ allLocal s.toDev ∧ s.chn.cfgWaits = [] ∧ (tget s.chn.view a.val = none ∨ (tget s.chn.view a.val = some q ∧ s.now < q.seenAt + 3200000))) ∧
  (∃ s : State, ∃ p : Port, ∃ h : LinkHdr, ∃ d : Dev, ∃ a : Fin 16, ∃ q, d = heardHere s.toDev p h ∧ allLocal s.toDev ∧ s.chn.cfgWaits = [] ∧ tget s.chn.view a.val = some q ∧ q.seenAt + 3200000 ≤ s.now) ∧
  (∃ s : State, ∃ p : Port, ∃ h : LinkHdr, ∃ d : Dev, ∃ H, d = heardHere s.toDev p h ∧ allLocal s.toDev ∧ s.chn.cfgWaits = [] ∧ forUs s.toDev p h ∧ s.chn.headId = some H) ∧
  (∃ s : State, ∃ p : Port, ∃ h : LinkHdr, ∃ d : Dev, ∃ H, d = heardHere s.toDev p h ∧ allLocal s.toDev ∧ s.chn.cfgWaits = [] ∧ forUs s.toDev p h ∧ s.chn.headId ≠ some H) ∧
  (∃ s : State, ∃ p : Port, ∃ h : LinkHdr, ∃ d : Dev, ∃ e : Quad, ∃ l : List Bytes, d = heardHere s.toDev p h ∧ allLocal s.toDev ∧ s.chn.cfgWaits = [] ∧ forUs s.toDev p h ∧ l ≠ [] ∧ s.chn.epoch.toNat < e.toNat) ∧
  (∃ s : State, ∃ p : Port, ∃ h : LinkHdr, ∃ d : Dev, ∃ e : Quad, ∃ l : List Bytes, d = heardHere s.toDev p h ∧ allLocal s.toDev ∧ s.chn.cfgWaits = [] ∧ forUs s.toDev p h ∧ l ≠ [] ∧ e.toNat ≤ s.chn.epoch.toNat) ∧
  (∃ s : State, ∃ p : Port, ∃ h : LinkHdr, ∃ d : Dev, d = heardHere s.toDev p h ∧ allLocal s.toDev ∧ s.chn.cfgWaits = [] ∧ forUs s.toDev p h) ∧
  (∃ s : State, ∃ p : Port, ∃ h : LinkHdr, ∃ d : Dev, ∃ off, d = heardHere s.toDev p h ∧ allLocal s.toDev ∧ s.chn.cfgWaits = [] ∧ s.chn.slewing = some off) ∧
  (∃ s : State, ∃ p : Port, ∃ h : LinkHdr, ∃ d : Dev, d = heardHere s.toDev p h ∧ allLocal s.toDev ∧ s.chn.cfgWaits = [] ∧ s.chn.slewing = none) :=
  ⟨⟨S ring, .up, { origin := 1, dest := 0 }, _, by and_intros <;> first | decide +kernel | exact fun _ h => nomatch h | exact ⟨rfl, rfl, .inr ⟨by decide +kernel, rfl, rfl⟩⟩ | exact .inr (by decide +kernel) | exact .inl rfl | exact .inl (by decide +kernel) | rfl⟩,
   ⟨S ring, .up, { origin := 1, dest := 0 }, _, by and_intros <;> first | decide +kernel | exact fun _ h => nomatch h | exact ⟨rfl, rfl, .inr ⟨by decide +kernel, rfl, rfl⟩⟩ | exact .inr (by decide +kernel) | exact .inl rfl | exact .inl (by decide +kernel) | rfl⟩,
   ⟨S { ring with chn.unacked := 8 }, .up, { origin := 1, dest := 0 }, _, .solitary, by and_intros <;> first | decide +kernel | exact fun _ h => nomatch h | exact .inl ⟨rfl, .inl (by decide +kernel)⟩ | rfl⟩,
   ⟨S { ring with chn.unacked := 7, chn.attempts := 7, chn.everUp := true }, .up, { origin := 1, dest := 0 }, _, by and_intros <;> first | decide +kernel | exact fun _ h => nomatch h | exact ⟨rfl, rfl, .inr ⟨by decide +kernel, rfl, rfl⟩⟩ | exact .inr (by decide +kernel) | exact .inl rfl | exact .inl (by decide +kernel) | rfl⟩,
   ⟨S ring, .up, { origin := 1, dest := 0 }, _, by and_intros <;> first | decide +kernel | exact fun _ h => nomatch h | exact ⟨rfl, rfl, .inr ⟨by decide +kernel, rfl, rfl⟩⟩ | exact .inr (by decide +kernel) | exact .inl rfl | exact .inl (by decide +kernel) | rfl⟩,
   ⟨S ring, .up, { origin := 1, dest := 0 }, _, 2, { body := aBody, seenAt := 0 }, by and_intros <;> first | decide +kernel | exact fun _ h => nomatch h | exact ⟨rfl, rfl, .inr ⟨by decide +kernel, rfl, rfl⟩⟩ | exact .inr (by decide +kernel) | exact .inl rfl | exact .inl (by decide +kernel) | rfl⟩,
   ⟨S ring, .up, { origin := 1, dest := 0 }, _, 1, _, by and_intros <;> first | decide +kernel | exact fun _ h => nomatch h | exact ⟨rfl, rfl, .inr ⟨by decide +kernel, rfl, rfl⟩⟩ | exact .inr (by decide +kernel) | exact .inl rfl | exact .inl (by decide +kernel) | rfl⟩,
   ⟨S { ring with chn.headId := some [1] }, .up, { origin := 1, dest := 0 }, _, [1], by and_intros <;> first | decide +kernel | exact fun _ h => nomatch h | exact ⟨rfl, rfl, .inr ⟨by decide +kernel, rfl, rfl⟩⟩ | exact .inr (by decide +kernel) | exact .inl rfl | exact .inl (by decide +kernel) | rfl⟩,
   ⟨S ring, .up, { origin := 1, dest := 0 }, _, [1], by and_intros <;> first | decide +kernel | exact fun _ h => nomatch h | exact ⟨rfl, rfl, .inr ⟨by decide +kernel, rfl, rfl⟩⟩ | exact .inr (by decide +kernel) | exact .inl rfl | exact .inl (by decide +kernel) | rfl⟩,
   ⟨S ring, .up, { origin := 1, dest := 0 }, _, 8, [[1]], by and_intros <;> first | decide +kernel | exact fun _ h => nomatch h | exact ⟨rfl, rfl, .inr ⟨by decide +kernel, rfl, rfl⟩⟩ | exact .inr (by decide +kernel) | exact .inl rfl | exact .inl (by decide +kernel) | rfl⟩,
   ⟨S ring, .up, { origin := 1, dest := 0 }, _, 0, [[1]], by and_intros <;> first | decide +kernel | exact fun _ h => nomatch h | exact ⟨rfl, rfl, .inr ⟨by decide +kernel, rfl, rfl⟩⟩ | exact .inr (by decide +kernel) | exact .inl rfl | exact .inl (by decide +kernel) | rfl⟩,
   ⟨S ring, .up, { origin := 1, dest := 0 }, _, by and_intros <;> first | decide +kernel | exact fun _ h => nomatch h | exact ⟨rfl, rfl, .inr ⟨by decide +kernel, rfl, rfl⟩⟩ | exact .inr (by decide +kernel) | exact .inl rfl | exact .inl (by decide +kernel) | rfl⟩,
   ⟨S { ring with chn.slewing := some 5 }, .up, { origin := 1, dest := 0 }, _, 5, by and_intros <;> first | decide +kernel | exact fun _ h => nomatch h | exact ⟨rfl, rfl, .inr ⟨by decide +kernel, rfl, rfl⟩⟩ | exact .inr (by decide +kernel) | exact .inl rfl | exact .inl (by decide +kernel) | rfl⟩,
   ⟨S ring, .up, { origin := 1, dest := 0 }, _, by and_intros <;> first | decide +kernel | exact fun _ h => nomatch h | exact ⟨rfl, rfl, .inr ⟨by decide +kernel, rfl, rfl⟩⟩ | exact .inr (by decide +kernel) | exact .inl rfl | exact .inl (by decide +kernel) | rfl⟩⟩

/-- States and operands that meet the hypotheses of `Obligations.KrovloServicesAct`, one for each of its clauses. -/
theorem meets_KrovloServicesAct :
  (∃ s : State, ∃ p : Port, ∃ h : LinkHdr, ∃ d : Dev, ∃ b : ReplicaBody, ∃ x : Peer, ∃ w : Owner, ∃ i : Nat, d = heardHere s.toDev p h ∧ forUs s.toDev p h ∧ tget s.chn.view h.origin.toNat = some x ∧ ownerOf s.toDev b.owner.toNat = some w ∧ selfInRepl s.toDev = true ∧ peerInRepl s.toDev x.body = true ∧ w.mode = b.mode ∧ slotRoom s.toDev .pf b.owner.toNat = true ∧ drbgReady s.toDev = true ∧ (∀ r ∈ s.key.replicas, r.1 ≠ (x.body.devId, b.srcHandle)) ∧ pickSlot s.toDev = some i) ∧
  (∃ s : State, ∃ p : Port, ∃ h : LinkHdr, ∃ d : Dev, ∃ b : ReplicaBody, d = heardHere s.toDev p h ∧ forUs s.toDev p h ∧ (tget s.chn.view h.origin.toNat = none ∨ ownerOf s.toDev b.owner.toNat = none)) ∧
  (∃ s : State, ∃ p : Port, ∃ h : LinkHdr, ∃ d : Dev, d = heardHere s.toDev p h ∧ forUs s.toDev p h) ∧
  (∃ s : State, ∃ p : Port, ∃ h : LinkHdr, ∃ d : Dev, ∃ r, ∃ l, d = heardHere s.toDev p h ∧ forUs s.toDev p h ∧ s.chn.replicates = r :: l ∧ r.since + 40000000 ≤ s.now) ∧
  (∃ s : State, ∃ p : Port, ∃ h : LinkHdr, ∃ d : Dev, ∃ r, ∃ l, d = heardHere s.toDev p h ∧ forUs s.toDev p h ∧ s.chn.replicates = r :: l ∧ s.now < r.since + 40000000) ∧
  (∃ s : State, ∃ p : Port, ∃ h : LinkHdr, ∃ d : Dev, d = heardHere s.toDev p h ∧ forUs s.toDev p h ∧ s.chn.replicates = []) ∧
  (∃ s : State, ∃ p : Port, ∃ h : LinkHdr, ∃ d : Dev, ∃ x : Word, ∃ id : Bytes, d = heardHere s.toDev p h ∧ forUs s.toDev p h ∧ id = peerId s.toDev h.origin.toNat ∧ (∀ r ∈ s.key.replicas, r.1 ≠ (id, x))) ∧
  (∃ s : State, ∃ p : Port, ∃ h : LinkHdr, ∃ d : Dev, ∃ x : Word, ∃ id : Bytes, ∃ i, ∃ k, d = heardHere s.toDev p h ∧ forUs s.toDev p h ∧ id = peerId s.toDev h.origin.toNat ∧ (s.key.replicas.find? (fun r => r.1 == (id, x)) = some ((id, x), i)) ∧ tget s.key.slots i = some k ∧ k.uses = 0 ∧ k.reserved = false) ∧
  (∃ s : State, ∃ p : Port, ∃ h : LinkHdr, ∃ d : Dev, ∃ b : ResultBody, ∃ n : Nat, ∃ q : Req, ∃ r : Option ResultRun, ∃ have_ : Bytes, ∃ total : Nat, ∃ comp : Bytes, ∃ need : Nat, d = heardHere s.toDev p h ∧ forUs s.toDev p h ∧ remoteReq s.toDev b.reqSeq = some (n, q) ∧ r = tget s.chn.results b.reqSeq.toNat ∧ b.first = r.isNone ∧ (have_ = (match r with | some y => y.bytes | none => [])) ∧ b.offset = have_.length ∧ (total = (match r with | some y => y.total | none => b.total)) ∧ (comp = (match r with | some y => y.completion | none => b.completion)) ∧ b.more = true ∧ need = cellsFor (bodyLen (.result b)) ∧ cellRoom s.toDev H.krovlo < need) ∧
  (∃ s : State, ∃ p : Port, ∃ h : LinkHdr, ∃ d : Dev, ∃ b : ResultBody, ∃ n : Nat, ∃ q : Req, ∃ r : Option ResultRun, ∃ have_ : Bytes, ∃ total : Nat, ∃ comp : Bytes, ∃ need : Nat, ∃ e : Dev, ∃ cells : List Nat, d = heardHere s.toDev p h ∧ forUs s.toDev p h ∧ remoteReq s.toDev b.reqSeq = some (n, q) ∧ r = tget s.chn.results b.reqSeq.toNat ∧ b.first = r.isNone ∧ (have_ = (match r with | some y => y.bytes | none => [])) ∧ b.offset = have_.length ∧ (total = (match r with | some y => y.total | none => b.total)) ∧ (comp = (match r with | some y => y.completion | none => b.completion)) ∧ b.more = true ∧ need = cellsFor (bodyLen (.result b)) ∧ need ≤ cellRoom s.toDev H.krovlo ∧ claimCells d (.krovlo 0) need = some (e, cells)) ∧
  (∃ s : State, ∃ p : Port, ∃ h : LinkHdr, ∃ d : Dev, ∃ b : ResultBody, ∃ n : Nat, ∃ q : Req, ∃ r : Option ResultRun, ∃ have_ : Bytes, ∃ total : Nat, ∃ comp : Bytes, ∃ e : Dev, d = heardHere s.toDev p h ∧ forUs s.toDev p h ∧ remoteReq s.toDev b.reqSeq = some (n, q) ∧ r = tget s.chn.results b.reqSeq.toNat ∧ b.first = r.isNone ∧ (have_ = (match r with | some y => y.bytes | none => [])) ∧ b.offset = have_.length ∧ (total = (match r with | some y => y.total | none => b.total)) ∧ (comp = (match r with | some y => y.completion | none => b.completion)) ∧ b.more = false ∧ (e = (match r with | some y => freeCells { d with chn := { d.chn with results := tdel s.chn.results b.reqSeq.toNat } } H.krovlo y.cells | none => d)) ∧ (have_ ++ b.result).length = total ∧ q.pass2 = false ∧ total ≤ q.dataCap) ∧
  (∃ s : State, ∃ p : Port, ∃ h : LinkHdr, ∃ d : Dev, ∃ b : ResultBody, ∃ n : Nat, ∃ q : Req, ∃ r : Option ResultRun, ∃ have_ : Bytes, ∃ total : Nat, ∃ comp : Bytes, ∃ e : Dev, d = heardHere s.toDev p h ∧ forUs s.toDev p h ∧ remoteReq s.toDev b.reqSeq = some (n, q) ∧ r = tget s.chn.results b.reqSeq.toNat ∧ b.first = r.isNone ∧ (have_ = (match r with | some y => y.bytes | none => [])) ∧ b.offset = have_.length ∧ (total = (match r with | some y => y.total | none => b.total)) ∧ (comp = (match r with | some y => y.completion | none => b.completion)) ∧ b.more = false ∧ (e = (match r with | some y => freeCells { d with chn := { d.chn with results := tdel s.chn.results b.reqSeq.toNat } } H.krovlo y.cells | none => d)) ∧ (have_ ++ b.result).length = total ∧ q.pass2 = false ∧ q.dataCap < total) ∧
  (∃ s : State, ∃ p : Port, ∃ h : LinkHdr, ∃ d : Dev, ∃ b : ResultBody, ∃ n : Nat, ∃ q : Req, ∃ r : Option ResultRun, ∃ have_ : Bytes, ∃ total : Nat, ∃ comp : Bytes, ∃ e : Dev, d = heardHere s.toDev p h ∧ forUs s.toDev p h ∧ remoteReq s.toDev b.reqSeq = some (n, q) ∧ r = tget s.chn.results b.reqSeq.toNat ∧ b.first = r.isNone ∧ (have_ = (match r with | some y => y.bytes | none => [])) ∧ b.offset = have_.length ∧ (total = (match r with | some y => y.total | none => b.total)) ∧ (comp = (match r with | some y => y.completion | none => b.completion)) ∧ b.more = false ∧ (e = (match r with | some y => freeCells { d with chn := { d.chn with results := tdel s.chn.results b.reqSeq.toNat } } H.krovlo y.cells | none => d)) ∧ (have_ ++ b.result).length ≠ total) ∧
  (∃ s : State, ∃ p : Port, ∃ h : LinkHdr, ∃ d : Dev, ∃ seq : Word, ∃ n, ∃ q, ∃ y, d = heardHere s.toDev p h ∧ forUs s.toDev p h ∧ tget s.chn.results seq.toNat = some y ∧ remoteReq s.toDev seq = some (n, q) ∧ y.since + 4000000 ≤ s.now) ∧
  (∃ s : State, ∃ p : Port, ∃ h : LinkHdr, ∃ d : Dev, ∃ seq : Word, ∃ n, ∃ q, ∃ y, d = heardHere s.toDev p h ∧ forUs s.toDev p h ∧ tget s.chn.results seq.toNat = some y ∧ remoteReq s.toDev seq = some (n, q) ∧ s.now < y.since + 4000000) ∧
  (∃ s : State, ∃ p : Port, ∃ h : LinkHdr, ∃ d : Dev, ∃ seq : Word, d = heardHere s.toDev p h ∧ forUs s.toDev p h ∧ tget s.chn.results seq.toNat = none) ∧
  (∃ s : State, ∃ p : Port, ∃ h : LinkHdr, ∃ d : Dev, ∃ x : Peer, ∃ recent : List (Nat × Nat), d = heardHere s.toDev p h ∧ forUs s.toDev p h ∧ tget s.chn.view h.origin.toNat = some x ∧ (recent = s.chn.cosigTimes.filter (fun t => decide (s.now < t.2 + secondCycles))) ∧ selfInRepl s.toDev = true ∧ peerInRepl s.toDev x.body = true ∧ x.body.lcState = s.lc.state ∧ rootLoaded s.toDev = true ∧ ((recent.filter fun t => decide (t.1 = h.origin.toNat)).length < 16)) ∧
  (∃ s : State, ∃ p : Port, ∃ h : LinkHdr, ∃ d : Dev, ∃ x : Peer, ∃ recent : List (Nat × Nat), d = heardHere s.toDev p h ∧ forUs s.toDev p h ∧ tget s.chn.view h.origin.toNat = some x ∧ (recent = s.chn.cosigTimes.filter (fun t => decide (s.now < t.2 + secondCycles))) ∧ selfInRepl s.toDev = true ∧ peerInRepl s.toDev x.body = true ∧ x.body.lcState = s.lc.state ∧ rootLoaded s.toDev = true ∧ (16 ≤ (recent.filter fun t => decide (t.1 = h.origin.toNat)).length)) ∧
  (∃ s : State, ∃ p : Port, ∃ h : LinkHdr, ∃ d : Dev, ∃ id : Bytes, ∃ x : Peer, ∃ z : Seal, d = heardHere s.toDev p h ∧ forUs s.toDev p h ∧ s.bwt.sealing = some z ∧ tget s.chn.view h.origin.toNat = some x ∧ z.windowOpen = true ∧ x.body.devId = id ∧ z.cosigs.length < 15) ∧
  (∃ s : State, ∃ p : Port, ∃ h : LinkHdr, ∃ d : Dev, ∃ id : Bytes, ∃ x : Peer, ∃ z : Seal, d = heardHere s.toDev p h ∧ forUs s.toDev p h ∧ s.bwt.sealing = some z ∧ tget s.chn.view h.origin.toNat = some x ∧ (z.windowOpen = false ∨ x.body.devId ≠ id)) :=
  ⟨by obtain ⟨i, hi⟩ := someSlot (d := { ring with key.slots := [] }) (of_decide_eq_true rfl); exact ⟨S { ring with key.slots := [] }, .up, { origin := 1, dest := 0 }, _, { type := 3, usage := 3, length := 32, owner := 0, mode := 0, srcHandle := 0x1000, nonce := zeros 32, cipher := zeros 48 }, _, _, i, by and_intros <;> first | decide +kernel | exact ⟨rfl, rfl, .inr ⟨by decide +kernel, rfl, rfl⟩⟩ | exact aBody_repl (by decide +kernel) | exact self_repl (by decide +kernel) rfl | exact fun _ h => nomatch h | exact hi | exact .inl rfl | exact .inr (deviceId_ne (by decide)) | rfl⟩,
   ⟨S { ring with chn.view := [] }, .up, { origin := 1, dest := 0 }, _, { type := 3, usage := 3, length := 32, owner := 0, mode := 0, srcHandle := 0x1000, nonce := zeros 32, cipher := zeros 48 }, by and_intros <;> first | decide +kernel | exact ⟨rfl, rfl, .inr ⟨by decide +kernel, rfl, rfl⟩⟩ | exact aBody_repl (by decide +kernel) | exact self_repl (by decide +kernel) rfl | exact fun _ h => nomatch h | exact hi | exact .inl rfl | exact .inr (deviceId_ne (by decide)) | rfl⟩,
   ⟨S ring, .up, { origin := 1, dest := 0 }, _, by and_intros <;> first | decide +kernel | exact ⟨rfl, rfl, .inr ⟨by decide +kernel, rfl, rfl⟩⟩ | exact aBody_repl (by decide +kernel) | exact self_repl (by decide +kernel) rfl | exact fun _ h => nomatch h | exact hi | exact .inl rfl | exact .inr (deviceId_ne (by decide)) | rfl⟩,
   ⟨S { ring with chn.replicates := [{ rid := 0, handle := 0, since := 960000000 }] }, .up, { origin := 1, dest := 0 }, _, _, [], by and_intros <;> first | decide +kernel | exact ⟨rfl, rfl, .inr ⟨by decide +kernel, rfl, rfl⟩⟩ | exact aBody_repl (by decide +kernel) | exact self_repl (by decide +kernel) rfl | exact fun _ h => nomatch h | exact hi | exact .inl rfl | exact .inr (deviceId_ne (by decide)) | rfl⟩,
   ⟨S { ring with chn.replicates := [{ rid := 0, handle := 0, since := 960000001 }] }, .up, { origin := 1, dest := 0 }, _, _, [], by and_intros <;> first | decide +kernel | exact ⟨rfl, rfl, .inr ⟨by decide +kernel, rfl, rfl⟩⟩ | exact aBody_repl (by decide +kernel) | exact self_repl (by decide +kernel) rfl | exact fun _ h => nomatch h | exact hi | exact .inl rfl | exact .inr (deviceId_ne (by decide)) | rfl⟩,
   ⟨S ring, .up, { origin := 1, dest := 0 }, _, by and_intros <;> first | decide +kernel | exact ⟨rfl, rfl, .inr ⟨by decide +kernel, rfl, rfl⟩⟩ | exact aBody_repl (by decide +kernel) | exact self_repl (by decide +kernel) rfl | exact fun _ h => nomatch h | exact hi | exact .inl rfl | exact .inr (deviceId_ne (by decide)) | rfl⟩,
   ⟨S ring, .up, { origin := 1, dest := 0 }, _, 0x1000, _, by and_intros <;> first | decide +kernel | exact ⟨rfl, rfl, .inr ⟨by decide +kernel, rfl, rfl⟩⟩ | exact aBody_repl (by decide +kernel) | exact self_repl (by decide +kernel) rfl | exact fun _ h => nomatch h | exact hi | exact .inl rfl | exact .inr (deviceId_ne (by decide)) | rfl⟩,
   ⟨S { ring with key.replicas := [(([1], 0x1000), 0)] }, .up, { origin := 1, dest := 0 }, _, 0x1000, _, _, _, by and_intros <;> first | decide +kernel | exact ⟨rfl, rfl, .inr ⟨by decide +kernel, rfl, rfl⟩⟩ | exact aBody_repl (by decide +kernel) | exact self_repl (by decide +kernel) rfl | exact fun _ h => nomatch h | exact hi | exact .inl rfl | exact .inr (deviceId_ne (by decide)) | rfl⟩,
   ⟨S { ring with reqs := [(0, { issuer := .pf, stage := .remote 1, dataCap := 1 })], ldg.pools := [(1, { issued := 3072, held := [(H.krovlo, 3072)] })] }, .up, { origin := 1, dest := 0 }, _, { first := true, more := true, reqSeq := 0, offset := 0, total := 1, completion := [], result := [0] }, _, _, _, _, _, _, _, by and_intros <;> first | decide +kernel | exact ⟨rfl, rfl, .inr ⟨by decide +kernel, rfl, rfl⟩⟩ | exact aBody_repl (by decide +kernel) | exact self_repl (by decide +kernel) rfl | exact fun _ h => nomatch h | exact hi | exact .inl rfl | exact .inr (deviceId_ne (by decide)) | rfl⟩,
   by obtain ⟨y, g, k, l, hc⟩ := claimsCells (heardHere (S { ring with reqs := [(0, { issuer := .pf, stage := .remote 1, dataCap := 1 })] }).toDev .up { origin := 1, dest := 0 }) (.krovlo 0) 1 (by decide +kernel); exact ⟨S { ring with reqs := [(0, { issuer := .pf, stage := .remote 1, dataCap := 1 })] }, .up, { origin := 1, dest := 0 }, _, { first := true, more := true, reqSeq := 0, offset := 0, total := 1, completion := [], result := [0] }, _, _, _, _, _, _, _, _, l, by and_intros <;> first | decide +kernel | exact ⟨rfl, rfl, .inr ⟨by decide +kernel, rfl, rfl⟩⟩ | exact hc | rfl | rfl⟩,
   ⟨S { ring with reqs := [(0, { issuer := .pf, stage := .remote 1, dataCap := 1 })] }, .up, { origin := 1, dest := 0 }, _, { first := true, more := false, reqSeq := 0, offset := 0, total := 1, completion := [], result := [0] }, _, _, _, _, _, _, _, by and_intros <;> first | decide +kernel | exact ⟨rfl, rfl, .inr ⟨by decide +kernel, rfl, rfl⟩⟩ | exact aBody_repl (by decide +kernel) | exact self_repl (by decide +kernel) rfl | exact fun _ h => nomatch h | exact hi | exact .inl rfl | exact .inr (deviceId_ne (by decide)) | rfl⟩,
   ⟨S { ring with reqs := [(0, { issuer := .pf, stage := .remote 1, dataCap := 0 })] }, .up, { origin := 1, dest := 0 }, _, { first := true, more := false, reqSeq := 0, offset := 0, total := 1, completion := [], result := [0] }, _, _, _, _, _, _, _, by and_intros <;> first | decide +kernel | exact ⟨rfl, rfl, .inr ⟨by decide +kernel, rfl, rfl⟩⟩ | exact aBody_repl (by decide +kernel) | exact self_repl (by decide +kernel) rfl | exact fun _ h => nomatch h | exact hi | exact .inl rfl | exact .inr (deviceId_ne (by decide)) | rfl⟩,
   ⟨S { ring with reqs := [(0, { issuer := .pf, stage := .remote 1, dataCap := 0 })] }, .up, { origin := 1, dest := 0 }, _, { first := true, more := false, reqSeq := 0, offset := 0, total := 2, completion := [], result := [0] }, _, _, _, _, _, _, _, by and_intros <;> first | decide +kernel | exact ⟨rfl, rfl, .inr ⟨by decide +kernel, rfl, rfl⟩⟩ | exact aBody_repl (by decide +kernel) | exact self_repl (by decide +kernel) rfl | exact fun _ h => nomatch h | exact hi | exact .inl rfl | exact .inr (deviceId_ne (by decide)) | rfl⟩,
   ⟨S { ring with reqs := [(0, { issuer := .pf, stage := .remote 1, dataCap := 0 })], chn.results := [(0, { completion := [], bytes := [], total := 0, since := 996000000 })] }, .up, { origin := 1, dest := 0 }, _, 0, _, _, _, by and_intros <;> first | decide +kernel | exact ⟨rfl, rfl, .inr ⟨by decide +kernel, rfl, rfl⟩⟩ | exact aBody_repl (by decide +kernel) | exact self_repl (by decide +kernel) rfl | exact fun _ h => nomatch h | exact hi | exact .inl rfl | exact .inr (deviceId_ne (by decide)) | rfl⟩,
   ⟨S { ring with reqs := [(0, { issuer := .pf, stage := .remote 1, dataCap := 0 })], chn.results := [(0, { completion := [], bytes := [], total := 0, since := 996000001 })] }, .up, { origin := 1, dest := 0 }, _, 0, _, _, _, by and_intros <;> first | decide +kernel | exact ⟨rfl, rfl, .inr ⟨by decide +kernel, rfl, rfl⟩⟩ | exact aBody_repl (by decide +kernel) | exact self_repl (by decide +kernel) rfl | exact fun _ h => nomatch h | exact hi | exact .inl rfl | exact .inr (deviceId_ne (by decide)) | rfl⟩,
   ⟨S ring, .up, { origin := 1, dest := 0 }, _, 0, by and_intros <;> first | decide +kernel | exact ⟨rfl, rfl, .inr ⟨by decide +kernel, rfl, rfl⟩⟩ | exact aBody_repl (by decide +kernel) | exact self_repl (by decide +kernel) rfl | exact fun _ h => nomatch h | exact hi | exact .inl rfl | exact .inr (deviceId_ne (by decide)) | rfl⟩,
   ⟨S ring, .up, { origin := 1, dest := 0 }, _, _, _, by and_intros <;> first | decide +kernel | exact ⟨rfl, rfl, .inr ⟨by decide +kernel, rfl, rfl⟩⟩ | exact aBody_repl (by decide +kernel) | exact self_repl (by decide +kernel) rfl | exact fun _ h => nomatch h | exact hi | exact .inl rfl | exact .inr (deviceId_ne (by decide)) | rfl⟩,
   ⟨S { ring with chn.cosigTimes := List.replicate 16 (1, 1000000000) }, .up, { origin := 1, dest := 0 }, _, _, _, by and_intros <;> first | decide +kernel | exact ⟨rfl, rfl, .inr ⟨by decide +kernel, rfl, rfl⟩⟩ | exact aBody_repl (by decide +kernel) | exact self_repl (by decide +kernel) rfl | exact fun _ h => nomatch h | exact hi | exact .inl rfl | exact .inr (deviceId_ne (by decide)) | rfl⟩,
   ⟨S { ring with bwt.sealing := some { rid := none, trigger := 0, body := [], digest := [], windowOpen := true } }, .up, { origin := 1, dest := 0 }, _, [1], _, _, by and_intros <;> first | decide +kernel | exact ⟨rfl, rfl, .inr ⟨by decide +kernel, rfl, rfl⟩⟩ | exact aBody_repl (by decide +kernel) | exact self_repl (by decide +kernel) rfl | exact fun _ h => nomatch h | exact hi | exact .inl rfl | exact .inr (deviceId_ne (by decide)) | rfl⟩,
   ⟨S { ring with bwt.sealing := some { rid := none, trigger := 0, body := [], digest := [] } }, .up, { origin := 1, dest := 0 }, _, [1], _, _, by and_intros <;> first | decide +kernel | exact ⟨rfl, rfl, .inr ⟨by decide +kernel, rfl, rfl⟩⟩ | exact aBody_repl (by decide +kernel) | exact self_repl (by decide +kernel) rfl | exact fun _ h => nomatch h | exact hi | exact .inl rfl | exact .inr (deviceId_ne (by decide)) | rfl⟩⟩

/-- States and operands that meet the hypotheses of `Obligations.TimersCountAndCapture`, one for each of its clauses. -/
theorem meets_TimersCountAndCapture :
  (∃ s : State, ∃ t : Fin 16, ∃ x : Timer, x = tmrOf s.toDev t.val ∧ s.glb.power = .run ∧ inTransit s.toDev t.val = false ∧ x.running = false ∧ x.zeroAt ≠ some s.now) ∧
  (∃ s : State, ∃ t : Fin 16, ∃ x : Timer, x = tmrOf s.toDev t.val ∧ s.glb.power = .run ∧ inTransit s.toDev t.val = false ∧ (x.running = true ∨ x.zeroAt = some s.now)) ∧
  (∃ s : State, ∃ t : Fin 16, ∃ x : Timer, x = tmrOf s.toDev t.val ∧ s.glb.power = .run ∧ inTransit s.toDev t.val = false ∧ x.running = true) ∧
  (∃ s : State, ∃ t : Fin 16, ∃ x : Timer, x = tmrOf s.toDev t.val ∧ s.glb.power = .run ∧ inTransit s.toDev t.val = false ∧ x.running = false) ∧
  (∃ s : State, ∃ t : Fin 16, ∃ x : Timer, x = tmrOf s.toDev t.val ∧ s.glb.power = .run ∧ inTransit s.toDev t.val = false ∧ x.caps ≠ [] ∧ (∀ m, x.missed = some m → m.1 ≠ s.now)) ∧
  (∃ s : State, ∃ t : Fin 16, ∃ x : Timer, ∃ c, ∃ o, x = tmrOf s.toDev t.val ∧ s.glb.power = .run ∧ inTransit s.toDev t.val = false ∧ x.caps ≠ [] ∧ x.missed = some (s.now, c, o) ∧ (capNow s.now x).1 = false) ∧
  (∃ s : State, ∃ t : Fin 16, ∃ x : Timer, x = tmrOf s.toDev t.val ∧ s.glb.power = .run ∧ inTransit s.toDev t.val = false ∧ x.caps = []) ∧
  (∃ s : State, ∃ t : Fin 16, ∃ x : Timer, x = tmrOf s.toDev t.val ∧ s.glb.power ≠ .run) ∧
  (∃ s : State, ∃ t : Fin 16, ∃ x : Timer, x = tmrOf s.toDev t.val ∧ ((x.running = false ∧ x.stopAt ≠ some s.now) ∨ 1 < x.count.toNat)) ∧
  (∃ s : State, ∃ t : Fin 16, ∃ x : Timer, x = tmrOf s.toDev t.val ∧ (x.running = true ∨ x.stopAt = some s.now) ∧ x.count.toNat ≤ 1 ∧ (s.glb.power = .run ∨ s.glb.power = .doze ∨ (s.glb.power = .standby ∧ x.fMode = true ∧ x.src = 2))) ∧
  (∃ s : State, ∃ t : Fin 16, ∃ x : Timer, x = tmrOf s.toDev t.val ∧ s.glb.power = .standby ∧ (x.fMode = false ∨ x.src ≠ 2)) ∧
  (∃ s : State, ∃ t : Fin 16, ∃ x : Timer, ∃ e : PinEdge, ∃ d : Dev, ∃ y : Timer, ∃ c, x = tmrOf s.toDev t.val ∧ e.t = t ∧ fabricOn s.toDev = true ∧ d = pinEdge s.toDev (capNow s.now x).2.2.1.toNat e.rising ∧ y = tmrOf d t.val ∧ c = capNow d.now y ∧ (c.2.1 = false ∨ edgeOn c.2.2.2 e.rising = false)) ∧
  (∃ s : State, ∃ t : Fin 16, ∃ x : Timer, ∃ e : PinEdge, ∃ d : Dev, ∃ y : Timer, ∃ c, x = tmrOf s.toDev t.val ∧ e.t = t ∧ fabricOn s.toDev = true ∧ d = pinEdge s.toDev (capNow s.now x).2.2.1.toNat e.rising ∧ y = tmrOf d t.val ∧ c = capNow d.now y ∧ c.2.1 = true ∧ edgeOn c.2.2.2 e.rising = true ∧ y.caps.length < 4 ∧ c.1 = false) ∧
  (∃ s : State, ∃ t : Fin 16, ∃ x : Timer, ∃ e : PinEdge, ∃ d : Dev, ∃ y : Timer, ∃ c, x = tmrOf s.toDev t.val ∧ e.t = t ∧ fabricOn s.toDev = true ∧ d = pinEdge s.toDev (capNow s.now x).2.2.1.toNat e.rising ∧ y = tmrOf d t.val ∧ c = capNow d.now y ∧ c.2.1 = true ∧ edgeOn c.2.2.2 e.rising = true ∧ y.caps.length < 4 ∧ c.1 = true) ∧
  (∃ s : State, ∃ t : Fin 16, ∃ x : Timer, ∃ e : PinEdge, ∃ d : Dev, ∃ y : Timer, ∃ c, x = tmrOf s.toDev t.val ∧ e.t = t ∧ fabricOn s.toDev = true ∧ d = pinEdge s.toDev (capNow s.now x).2.2.1.toNat e.rising ∧ y = tmrOf d t.val ∧ c = capNow d.now y ∧ c.2.1 = true ∧ edgeOn c.2.2.2 e.rising = true ∧ 4 ≤ y.caps.length) ∧
  (∃ s : State, ∃ t : Fin 16, ∃ x : Timer, ∃ e : PinEdge, x = tmrOf s.toDev t.val ∧ e.t = t ∧ fabricOn s.toDev = false) ∧
  (∃ s : State, ∃ t : Fin 16, ∃ x : Timer, ∃ pin : Nat, ∃ r : Bool, ∃ n : Nat, ∃ p : Nat, x = tmrOf s.toDev t.val ∧ twf s.tmr = true ∧ fabricOn s.toDev = true ∧ x.running = true ∧ x.fMode = true ∧ x.src.toNat = 3 + pin ∧ edgeOn x.edge r = true ∧ tget s.pinEdges (2 * pin + r.toNat) ≠ some s.now ∧ n = (x.phase + 0x10000) / x.div.toNat ∧ p = (x.phase + 0x10000) % x.div.toNat) ∧
  (∃ s : State, ∃ t : Fin 16, ∃ x : Timer, ∃ n : Nat, ∃ p : Nat, x = tmrOf s.toDev t.val ∧ s.pending = [] ∧ twf s.tmr = true ∧ x.running = true ∧ (s.glb.power = .run ∨ s.glb.power = .doze) ∧ swdtOver s.toDev = false ∧ ((x.fMode = false ∧ n = (x.phase + 1) / 2 ^ x.k.toNat ∧ p = (x.phase + 1) % 2 ^ x.k.toNat) ∨ (x.fMode = true ∧ x.src = 0 ∧ n = (x.phase + 0x10000 * (if x.edge = 0 ∨ x.edge = 1 then 1 else 2)) / x.div.toNat ∧ p = (x.phase + 0x10000 * (if x.edge = 0 ∨ x.edge = 1 then 1 else 2)) % x.div.toNat))) :=
  ⟨⟨S dev, 15, _, by and_intros <;> first | decide +kernel | exact fun _ h => nomatch h | exact .inl rfl | exact .inr rfl | exact .inr (by decide +kernel) | exact .inl ⟨rfl, by decide +kernel⟩ | exact .inr (.inr ⟨rfl, rfl, rfl⟩) | exact .inl ⟨rfl, rfl, rfl⟩ | exact .inl (by decide +kernel) | rfl⟩,
   ⟨S { dev with tmr := [(15, { running := true })], glb.power := .run }, 15, _, by and_intros <;> first | decide +kernel | exact fun _ h => nomatch h | exact .inl rfl | exact .inr rfl | exact .inr (by decide +kernel) | exact .inl ⟨rfl, by decide +kernel⟩ | exact .inr (.inr ⟨rfl, rfl, rfl⟩) | exact .inl ⟨rfl, rfl, rfl⟩ | exact .inl (by decide +kernel) | rfl⟩,
   ⟨S { dev with tmr := [(15, { running := true })], glb.power := .run }, 15, _, by and_intros <;> first | decide +kernel | exact fun _ h => nomatch h | exact .inl rfl | exact .inr rfl | exact .inr (by decide +kernel) | exact .inl ⟨rfl, by decide +kernel⟩ | exact .inr (.inr ⟨rfl, rfl, rfl⟩) | exact .inl ⟨rfl, rfl, rfl⟩ | exact .inl (by decide +kernel) | rfl⟩,
   ⟨S dev, 15, _, by and_intros <;> first | decide +kernel | exact fun _ h => nomatch h | exact .inl rfl | exact .inr rfl | exact .inr (by decide +kernel) | exact .inl ⟨rfl, by decide +kernel⟩ | exact .inr (.inr ⟨rfl, rfl, rfl⟩) | exact .inl ⟨rfl, rfl, rfl⟩ | exact .inl (by decide +kernel) | rfl⟩,
   ⟨S { dev with tmr := [(15, { caps := [7] })], glb.power := .run }, 15, _, by and_intros <;> first | decide +kernel | exact fun _ h => nomatch h | exact .inl rfl | exact .inr rfl | exact .inr (by decide +kernel) | exact .inl ⟨rfl, by decide +kernel⟩ | exact .inr (.inr ⟨rfl, rfl, rfl⟩) | exact .inl ⟨rfl, rfl, rfl⟩ | exact .inl (by decide +kernel) | rfl⟩,
   ⟨S { dev with tmr := [(15, { caps := [7], missed := some (1000000000, 9, false) })], glb.power := .run }, 15, _, _, _, by and_intros <;> first | decide +kernel | exact fun _ h => nomatch h | exact .inl rfl | exact .inr rfl | exact .inr (by decide +kernel) | exact .inl ⟨rfl, by decide +kernel⟩ | exact .inr (.inr ⟨rfl, rfl, rfl⟩) | exact .inl ⟨rfl, rfl, rfl⟩ | exact .inl (by decide +kernel) | rfl⟩,
   ⟨S dev, 15, _, by and_intros <;> first | decide +kernel | exact fun _ h => nomatch h | exact .inl rfl | exact .inr rfl | exact .inr (by decide +kernel) | exact .inl ⟨rfl, by decide +kernel⟩ | exact .inr (.inr ⟨rfl, rfl, rfl⟩) | exact .inl ⟨rfl, rfl, rfl⟩ | exact .inl (by decide +kernel) | rfl⟩,
   ⟨S { dev with tmr := [(15, {  })], glb.power := .doze }, 15, _, by and_intros <;> first | decide +kernel | exact fun _ h => nomatch h | exact .inl rfl | exact .inr rfl | exact .inr (by decide +kernel) | exact .inl ⟨rfl, by decide +kernel⟩ | exact .inr (.inr ⟨rfl, rfl, rfl⟩) | exact .inl ⟨rfl, rfl, rfl⟩ | exact .inl (by decide +kernel) | rfl⟩,
   ⟨S { dev with tmr := [(15, { running := true, count := 2 })], glb.power := .run }, 15, _, by and_intros <;> first | decide +kernel | exact fun _ h => nomatch h | exact .inl rfl | exact .inr rfl | exact .inr (by decide +kernel) | exact .inl ⟨rfl, by decide +kernel⟩ | exact .inr (.inr ⟨rfl, rfl, rfl⟩) | exact .inl ⟨rfl, rfl, rfl⟩ | exact .inl (by decide +kernel) | rfl⟩,
   ⟨S { dev with tmr := [(15, { running := true, fMode := true, src := 2, count := 1 })], glb.power := .standby }, 15, _, by and_intros <;> first | decide +kernel | exact fun _ h => nomatch h | exact .inl rfl | exact .inr rfl | exact .inr (by decide +kernel) | exact .inl ⟨rfl, by decide +kernel⟩ | exact .inr (.inr ⟨rfl, rfl, rfl⟩) | exact .inl ⟨rfl, rfl, rfl⟩ | exact .inl (by decide +kernel) | rfl⟩,
   ⟨S { dev with tmr := [(15, { running := true })], glb.power := .standby }, 15, _, by and_intros <;> first | decide +kernel | exact fun _ h => nomatch h | exact .inl rfl | exact .inr rfl | exact .inr (by decide +kernel) | exact .inl ⟨rfl, by decide +kernel⟩ | exact .inr (.inr ⟨rfl, rfl, rfl⟩) | exact .inl ⟨rfl, rfl, rfl⟩ | exact .inl (by decide +kernel) | rfl⟩,
   ⟨S dev, 15, _, { t := 15, rising := true }, _, _, _, by and_intros <;> first | decide +kernel | exact fun _ h => nomatch h | exact .inl rfl | exact .inr rfl | exact .inr (by decide +kernel) | exact .inl ⟨rfl, by decide +kernel⟩ | exact .inr (.inr ⟨rfl, rfl, rfl⟩) | exact .inl ⟨rfl, rfl, rfl⟩ | exact .inl (by decide +kernel) | rfl⟩,
   ⟨S { dev with tmr := [(15, { capEn := true, caps := [1, 2, 3] })], glb.power := .run }, 15, _, { t := 15, rising := true }, _, _, _, by and_intros <;> first | decide +kernel | exact fun _ h => nomatch h | exact .inl rfl | exact .inr rfl | exact .inr (by decide +kernel) | exact .inl ⟨rfl, by decide +kernel⟩ | exact .inr (.inr ⟨rfl, rfl, rfl⟩) | exact .inl ⟨rfl, rfl, rfl⟩ | exact .inl (by decide +kernel) | rfl⟩,
   ⟨S { dev with tmr := [(15, { capEn := true, capIe := true })], glb.power := .run }, 15, _, { t := 15, rising := true }, _, _, _, by and_intros <;> first | decide +kernel | exact fun _ h => nomatch h | exact .inl rfl | exact .inr rfl | exact .inr (by decide +kernel) | exact .inl ⟨rfl, by decide +kernel⟩ | exact .inr (.inr ⟨rfl, rfl, rfl⟩) | exact .inl ⟨rfl, rfl, rfl⟩ | exact .inl (by decide +kernel) | rfl⟩,
   ⟨S { dev with tmr := [(15, { capEn := true, caps := [1, 2, 3, 4] })], glb.power := .doze }, 15, _, { t := 15, rising := true }, _, _, _, by and_intros <;> first | decide +kernel | exact fun _ h => nomatch h | exact .inl rfl | exact .inr rfl | exact .inr (by decide +kernel) | exact .inl ⟨rfl, by decide +kernel⟩ | exact .inr (.inr ⟨rfl, rfl, rfl⟩) | exact .inl ⟨rfl, rfl, rfl⟩ | exact .inl (by decide +kernel) | rfl⟩,
   ⟨S { dev with tmr := [(15, {  })], glb.power := .standby }, 15, _, { t := 15, rising := true }, by and_intros <;> first | decide +kernel | exact fun _ h => nomatch h | exact .inl rfl | exact .inr rfl | exact .inr (by decide +kernel) | exact .inl ⟨rfl, by decide +kernel⟩ | exact .inr (.inr ⟨rfl, rfl, rfl⟩) | exact .inl ⟨rfl, rfl, rfl⟩ | exact .inl (by decide +kernel) | rfl⟩,
   ⟨S { dev with tmr := [(15, { running := true, fMode := true, src := 3 })], glb.power := .run }, 15, _, 0, true, _, _, by and_intros <;> first | decide +kernel | exact fun _ h => nomatch h | exact .inl rfl | exact .inr rfl | exact .inr (by decide +kernel) | exact .inl ⟨rfl, by decide +kernel⟩ | exact .inr (.inr ⟨rfl, rfl, rfl⟩) | exact .inl ⟨rfl, rfl, rfl⟩ | exact .inl (by decide +kernel) | rfl⟩,
   ⟨S { dev with tmr := [(15, { running := true, fMode := true })], glb.power := .run }, 15, _, _, _, by and_intros <;> first | decide +kernel | exact .inl rfl | exact .inr ⟨rfl, rfl, rfl, rfl⟩ | rfl⟩⟩

/-- States and operands that meet the hypotheses of `Obligations.TheManagementBus`, one for each of its clauses. -/
theorem meets_TheManagementBus :
  (∃ s : State, ∃ i : Instr, ∃ x : MgtOp, mgtOp i = some x ∧ (s.glb.power = .vault ∨ s.glb.power = .off)) ∧
  (∃ s : State, ∃ i : Instr, ∃ x : MgtOp, mgtOp i = some x ∧ (s.glb.power = .run ∨ s.glb.power = .doze) ∧ s.mgt.bankOff = true) ∧
  (∃ s : State, ∃ i : Instr, ∃ x : MgtOp, mgtOp i = some x ∧ (s.glb.power = .run ∨ s.glb.power = .doze) ∧ s.mgt.bankOff = false ∧ (s.mgt.enabled = false ∨ inTransit s.toDev 22 = true)) ∧
  (∃ s : State, ∃ i : Instr, ∃ x : MgtOp, mgtOp i = some x ∧ s.glb.power = .standby ∧ s.mgt.enabled = true ∧ s.mgt.i3c = true) ∧
  (∃ s : State, ∃ i : Instr, ∃ x : MgtOp, mgtOp i = some x ∧ s.glb.power = .standby ∧ s.mgt.enabled = true ∧ s.mgt.i3c = false) ∧
  (∃ s : State, ∃ e : Dev, servedMgt s e ∧ s.mgt.i3c = true) ∧
  (∃ s : State, ∃ e : Dev, ∃ a : BitVec 7, ∃ i, servedMgt s e ∧ s.mgt.i3c = false ∧ i ∈ [Instr.entdaa a, Instr.setdasa a]) ∧
  (∃ s : State, ∃ e : Dev, servedMgt s e ∧ s.mgt.i3c = false) ∧
  (∃ s : State, ∃ e : Dev, ∃ a : BitVec 7, ∃ i, servedMgt s e ∧ s.mgt.i3c = false ∧ i ∈ [Instr.enec, .disec, .rstdaa, .setnewda a, .getpid, .getbcr, .getdcr, .getstatus]) ∧
  (∃ s : State, ∃ e : Dev, ∃ p : McPacket, ∃ k : AsmKey, servedMgt s e ∧ k = { src := p.src, tag := p.tag } ∧ p.i3c ≠ s.mgt.i3c) ∧
  (∃ s : State, ∃ e : Dev, ∃ p : McPacket, ∃ k : AsmKey, servedMgt s e ∧ k = { src := p.src, tag := p.tag } ∧ p.i3c = false ∧ s.mgt.i3c = false ∧ p.pecOk = false) ∧
  (∃ s : State, ∃ e : Dev, ∃ p : McPacket, ∃ k : AsmKey, servedMgt s e ∧ k = { src := p.src, tag := p.tag } ∧ p.i3c = s.mgt.i3c ∧ (p.i3c = true ∨ p.pecOk = true) ∧ (p.ic = true ∨ 64 < p.payload.length ∨ (p.dst ≠ 0 ∧ p.dst ≠ s.mgt.eid))) ∧
  (∃ s : State, ∃ e : Dev, ∃ p : McPacket, ∃ k : AsmKey, servedMgt s e ∧ k = { src := p.src, tag := p.tag } ∧ p.i3c = s.mgt.i3c ∧ (p.i3c = true ∨ p.pecOk = true) ∧ p.ic = false ∧ p.payload.length ≤ 64 ∧ (p.dst = 0 ∨ p.dst = s.mgt.eid) ∧ p.som = true ∧ p.eom = true ∧ (∀ a ∈ s.mgt.asm, a.key ≠ k) ∧ s.mgt.asm.length < 8) ∧
  (∃ s : State, ∃ e : Dev, ∃ p : McPacket, ∃ k : AsmKey, servedMgt s e ∧ k = { src := p.src, tag := p.tag } ∧ p.i3c = s.mgt.i3c ∧ (p.i3c = true ∨ p.pecOk = true) ∧ p.ic = false ∧ p.payload.length ≤ 64 ∧ (p.dst = 0 ∨ p.dst = s.mgt.eid) ∧ p.som = true ∧ p.eom = false ∧ (∀ a ∈ s.mgt.asm, a.key ≠ k) ∧ s.mgt.asm.length < 8) ∧
  (∃ s : State, ∃ e : Dev, ∃ p : McPacket, ∃ k : AsmKey, servedMgt s e ∧ k = { src := p.src, tag := p.tag } ∧ p.i3c = s.mgt.i3c ∧ (p.i3c = true ∨ p.pecOk = true) ∧ p.ic = false ∧ p.payload.length ≤ 64 ∧ (p.dst = 0 ∨ p.dst = s.mgt.eid) ∧ p.som = true ∧ (∀ a ∈ s.mgt.asm, a.key ≠ k) ∧ 8 ≤ s.mgt.asm.length) ∧
  (∃ s : State, ∃ e : Dev, ∃ p : McPacket, ∃ k : AsmKey, servedMgt s e ∧ k = { src := p.src, tag := p.tag } ∧ p.i3c = s.mgt.i3c ∧ (p.i3c = true ∨ p.pecOk = true) ∧ p.ic = false ∧ p.payload.length ≤ 64 ∧ (p.dst = 0 ∨ p.dst = s.mgt.eid) ∧ p.som = false ∧ (∀ a ∈ s.mgt.asm, a.key ≠ k)) ∧
  (∃ s : State, ∃ e : Dev, ∃ p : McPacket, ∃ k : AsmKey, ∃ l, ∃ m, ∃ y, servedMgt s e ∧ k = { src := p.src, tag := p.tag } ∧ p.i3c = s.mgt.i3c ∧ (p.i3c = true ∨ p.pecOk = true) ∧ p.ic = false ∧ p.payload.length ≤ 64 ∧ (p.dst = 0 ∨ p.dst = s.mgt.eid) ∧ p.som = false ∧ s.mgt.asm = l ++ y :: m ∧ y.key = k ∧ (∀ a ∈ l ++ m, a.key ≠ k) ∧ p.pktSeq.val ≠ y.nextSeq) ∧
  (∃ s : State, ∃ e : Dev, ∃ p : McPacket, ∃ k : AsmKey, ∃ l, ∃ m, ∃ y, servedMgt s e ∧ k = { src := p.src, tag := p.tag } ∧ p.i3c = s.mgt.i3c ∧ (p.i3c = true ∨ p.pecOk = true) ∧ p.ic = false ∧ p.payload.length ≤ 64 ∧ (p.dst = 0 ∨ p.dst = s.mgt.eid) ∧ p.som = false ∧ s.mgt.asm = l ++ y :: m ∧ y.key = k ∧ (∀ a ∈ l ++ m, a.key ≠ k) ∧ p.pktSeq.val = y.nextSeq ∧ p.eom = true) ∧
  (∃ s : State, ∃ e : Dev, ∃ p : McPacket, ∃ k : AsmKey, ∃ l, ∃ m, ∃ y, servedMgt s e ∧ k = { src := p.src, tag := p.tag } ∧ p.i3c = s.mgt.i3c ∧ (p.i3c = true ∨ p.pecOk = true) ∧ p.ic = false ∧ p.payload.length ≤ 64 ∧ (p.dst = 0 ∨ p.dst = s.mgt.eid) ∧ p.som = false ∧ s.mgt.asm = l ++ y :: m ∧ y.key = k ∧ (∀ a ∈ l ++ m, a.key ≠ k) ∧ p.pktSeq.val = y.nextSeq ∧ p.eom = false ∧ y.bytes.length + p.payload.length ≤ 4104) ∧
  (∃ s : State, ∃ k : AsmKey, ∃ l, ∃ m, ∃ y, s.mgt.asm = l ++ y :: m ∧ y.key = k ∧ (∀ a ∈ l ++ m, a.key ≠ k) ∧ y.since + secondCycles / 10 ≤ s.now) ∧
  (∃ s : State, ∃ k : AsmKey, ∃ l, ∃ m, ∃ y, s.mgt.asm = l ++ y :: m ∧ y.key = k ∧ (∀ a ∈ l ++ m, a.key ≠ k) ∧ s.now < y.since + secondCycles / 10) ∧
  (∃ s : State, ∃ k : AsmKey, (∀ a ∈ s.mgt.asm, a.key ≠ k)) :=
  ⟨⟨S { dev with mgt := { enabled := true, eid := 0 }, glb.power := .vault }, .getpid, _, by and_intros <;> first | decide +kernel | exact ⟨.inl rfl, rfl, rfl, rfl, rfl⟩ | exact fun _ h => nomatch h | exact List.Mem.head _ | exact .inl rfl | exact .inr rfl | exact .inr (.inr (by decide +kernel)) | exact .inl (by decide +kernel) | exact .inr (by decide +kernel) | rfl⟩,
   ⟨S { dev with mgt := { enabled := true, bankOff := true }, glb.power := .run }, .getpid, _, by and_intros <;> first | decide +kernel | exact ⟨.inl rfl, rfl, rfl, rfl, rfl⟩ | exact fun _ h => nomatch h | exact List.Mem.head _ | exact .inl rfl | exact .inr rfl | exact .inr (.inr (by decide +kernel)) | exact .inl (by decide +kernel) | exact .inr (by decide +kernel) | rfl⟩,
   ⟨S { dev with mgt.enabled := false }, .getpid, _, by and_intros <;> first | decide +kernel | exact ⟨.inl rfl, rfl, rfl, rfl, rfl⟩ | exact fun _ h => nomatch h | exact List.Mem.head _ | exact .inl rfl | exact .inr rfl | exact .inr (.inr (by decide +kernel)) | exact .inl (by decide +kernel) | exact .inr (by decide +kernel) | rfl⟩,
   ⟨S { dev with mgt := { enabled := true, i3c := true }, glb.power := .standby }, .getpid, _, by and_intros <;> first | decide +kernel | exact ⟨.inl rfl, rfl, rfl, rfl, rfl⟩ | exact fun _ h => nomatch h | exact List.Mem.head _ | exact .inl rfl | exact .inr rfl | exact .inr (.inr (by decide +kernel)) | exact .inl (by decide +kernel) | exact .inr (by decide +kernel) | rfl⟩,
   ⟨S { dev with mgt := { enabled := true, eid := 0 }, glb.power := .standby }, .getpid, _, by and_intros <;> first | decide +kernel | exact ⟨.inl rfl, rfl, rfl, rfl, rfl⟩ | exact fun _ h => nomatch h | exact List.Mem.head _ | exact .inl rfl | exact .inr rfl | exact .inr (.inr (by decide +kernel)) | exact .inl (by decide +kernel) | exact .inr (by decide +kernel) | rfl⟩,
   ⟨S { dev with mgt := { enabled := true, i3c := true }, glb.power := .run }, _, by and_intros <;> first | decide +kernel | exact ⟨.inl rfl, rfl, rfl, rfl, rfl⟩ | exact fun _ h => nomatch h | exact List.Mem.head _ | exact .inl rfl | exact .inr rfl | exact .inr (.inr (by decide +kernel)) | exact .inl (by decide +kernel) | exact .inr (by decide +kernel) | rfl⟩,
   ⟨S { dev with mgt := { enabled := true, bankOff := false }, glb.power := .run }, _, 0x7F, _, by and_intros <;> first | decide +kernel | exact ⟨.inl rfl, rfl, rfl, rfl, rfl⟩ | exact fun _ h => nomatch h | exact List.Mem.head _ | exact .inl rfl | exact .inr rfl | exact .inr (.inr (by decide +kernel)) | exact .inl (by decide +kernel) | exact .inr (by decide +kernel) | rfl⟩,
   ⟨S { dev with mgt := { enabled := true, bankOff := false }, glb.power := .run }, _, by and_intros <;> first | decide +kernel | exact ⟨.inl rfl, rfl, rfl, rfl, rfl⟩ | exact fun _ h => nomatch h | exact List.Mem.head _ | exact .inl rfl | exact .inr rfl | exact .inr (.inr (by decide +kernel)) | exact .inl (by decide +kernel) | exact .inr (by decide +kernel) | rfl⟩,
   ⟨S { dev with mgt := { enabled := true, bankOff := false }, glb.power := .run }, _, 0x7F, _, by and_intros <;> first | decide +kernel | exact ⟨.inl rfl, rfl, rfl, rfl, rfl⟩ | exact fun _ h => nomatch h | exact List.Mem.head _ | exact .inl rfl | exact .inr rfl | exact .inr (.inr (by decide +kernel)) | exact .inl (by decide +kernel) | exact .inr (by decide +kernel) | rfl⟩,
   ⟨S { dev with mgt := { enabled := true, bankOff := false }, glb.power := .run }, _, { som := true, eom := true, pktSeq := 0, tag := 0, src := 0, dst := 0, payload := [0], i3c := true }, _, by and_intros <;> first | decide +kernel | exact ⟨.inl rfl, rfl, rfl, rfl, rfl⟩ | exact fun _ h => nomatch h | exact List.Mem.head _ | exact .inl rfl | exact .inr rfl | exact .inr (.inr (by decide +kernel)) | exact .inl (by decide +kernel) | exact .inr (by decide +kernel) | rfl⟩,
   ⟨S { dev with mgt := { enabled := true, bankOff := false }, glb.power := .run }, _, { som := true, eom := true, pktSeq := 0, tag := 0, src := 0, dst := 0, payload := [0], pecOk := false }, _, by and_intros <;> first | decide +kernel | exact ⟨.inl rfl, rfl, rfl, rfl, rfl⟩ | exact fun _ h => nomatch h | exact List.Mem.head _ | exact .inl rfl | exact .inr rfl | exact .inr (.inr (by decide +kernel)) | exact .inl (by decide +kernel) | exact .inr (by decide +kernel) | rfl⟩,
   ⟨S { dev with mgt := { enabled := true, bankOff := false }, glb.power := .run }, _, { som := true, eom := true, pktSeq := 0, tag := 0, src := 0, dst := 5, payload := [0] }, _, by and_intros <;> first | decide +kernel | exact ⟨.inl rfl, rfl, rfl, rfl, rfl⟩ | exact fun _ h => nomatch h | exact List.Mem.head _ | exact .inl rfl | exact .inr rfl | exact .inr (.inr (by decide +kernel)) | exact .inl (by decide +kernel) | exact .inr (by decide +kernel) | rfl⟩,
   ⟨S { dev with mgt := { enabled := true, bankOff := false }, glb.power := .run }, _, { som := true, eom := true, pktSeq := 0, tag := 0, src := 0, dst := 0, payload := [0] }, _, by and_intros <;> first | decide +kernel | exact ⟨.inl rfl, rfl, rfl, rfl, rfl⟩ | exact fun _ h => nomatch h | exact List.Mem.head _ | exact .inl rfl | exact .inr rfl | exact .inr (.inr (by decide +kernel)) | exact .inl (by decide +kernel) | exact .inr (by decide +kernel) | rfl⟩,
   ⟨S { dev with mgt := { enabled := true, bankOff := false }, glb.power := .run }, _, { som := true, eom := false, pktSeq := 0, tag := 0, src := 0, dst := 0, payload := [0] }, _, by and_intros <;> first | decide +kernel | exact ⟨.inl rfl, rfl, rfl, rfl, rfl⟩ | exact fun _ h => nomatch h | exact List.Mem.head _ | exact .inl rfl | exact .inr rfl | exact .inr (.inr (by decide +kernel)) | exact .inl (by decide +kernel) | exact .inr (by decide +kernel) | rfl⟩,
   ⟨S { dev with mgt := { enabled := true, asm := List.replicate 8 { key := { src := 1, tag := 0 }, nextSeq := 0, bytes := [1], since := 0 } }, glb.power := .run }, _, { som := true, eom := false, pktSeq := 0, tag := 0, src := 0, dst := 0, payload := [0] }, _, by and_intros <;> first | decide +kernel | exact ⟨.inl rfl, rfl, rfl, rfl, rfl⟩ | exact fun _ h => nomatch h | exact List.Mem.head _ | exact .inl rfl | exact .inr rfl | exact .inr (.inr (by decide +kernel)) | exact .inl (by decide +kernel) | exact .inr (by decide +kernel) | rfl⟩,
   ⟨S { dev with mgt := { enabled := true, bankOff := false }, glb.power := .run }, _, { som := false, eom := true, pktSeq := 0, tag := 0, src := 0, dst := 0, payload := [0] }, _, by and_intros <;> first | decide +kernel | exact ⟨.inl rfl, rfl, rfl, rfl, rfl⟩ | exact fun _ h => nomatch h | exact List.Mem.head _ | exact .inl rfl | exact .inr rfl | exact .inr (.inr (by decide +kernel)) | exact .inl (by decide +kernel) | exact .inr (by decide +kernel) | rfl⟩,
   ⟨S { dev with mgt := { enabled := true, asm := [{ key := { src := 0, tag := 0 }, nextSeq := 1, bytes := [1], since := 0 }] }, glb.power := .run }, _, { som := false, eom := true, pktSeq := 0, tag := 0, src := 0, dst := 0, payload := [0] }, _, [], [], { key := { src := 0, tag := 0 }, nextSeq := 1, bytes := [1], since := 0 }, by and_intros <;> first | decide +kernel | exact ⟨.inl rfl, rfl, rfl, rfl, rfl⟩ | exact fun _ h => nomatch h | exact List.Mem.head _ | exact .inl rfl | exact .inr rfl | exact .inr (.inr (by decide +kernel)) | exact .inl (by decide +kernel) | exact .inr (by decide +kernel) | rfl⟩,
   ⟨S { dev with mgt := { enabled := true, asm := [{ key := { src := 0, tag := 0 }, nextSeq := 0, bytes := [1], since := 0 }] }, glb.power := .run }, _, { som := false, eom := true, pktSeq := 0, tag := 0, src := 0, dst := 0, payload := [0] }, _, [], [], { key := { src := 0, tag := 0 }, nextSeq := 0, bytes := [1], since := 0 }, by and_intros <;> first | decide +kernel | exact ⟨.inl rfl, rfl, rfl, rfl, rfl⟩ | exact fun _ h => nomatch h | exact List.Mem.head _ | exact .inl rfl | exact .inr rfl | exact .inr (.inr (by decide +kernel)) | exact .inl (by decide +kernel) | exact .inr (by decide +kernel) | rfl⟩,
   ⟨S { dev with mgt := { enabled := true, asm := [{ key := { src := 0, tag := 0 }, nextSeq := 0, bytes := [1], since := 0 }] }, glb.power := .run }, _, { som := false, eom := false, pktSeq := 0, tag := 0, src := 0, dst := 0, payload := [0] }, _, [], [], { key := { src := 0, tag := 0 }, nextSeq := 0, bytes := [1], since := 0 }, by and_intros <;> first | decide +kernel | exact ⟨.inl rfl, rfl, rfl, rfl, rfl⟩ | exact fun _ h => nomatch h | exact List.Mem.head _ | exact .inl rfl | exact .inr rfl | exact .inr (.inr (by decide +kernel)) | exact .inl (by decide +kernel) | exact .inr (by decide +kernel) | rfl⟩,
   ⟨S { dev with mgt := { enabled := true, asm := [{ key := { src := 0, tag := 0 }, nextSeq := 0, bytes := [1], since := 960000000 }] }, glb.power := .run }, { src := 0, tag := 0 }, [], [], { key := { src := 0, tag := 0 }, nextSeq := 0, bytes := [1], since := 960000000 }, by and_intros <;> first | decide +kernel | exact ⟨.inl rfl, rfl, rfl, rfl, rfl⟩ | exact fun _ h => nomatch h | exact List.Mem.head _ | exact .inl rfl | exact .inr rfl | exact .inr (.inr (by decide +kernel)) | exact .inl (by decide +kernel) | exact .inr (by decide +kernel) | rfl⟩,
   ⟨S { dev with mgt := { enabled := true, asm := [{ key := { src := 0, tag := 0 }, nextSeq := 0, bytes := [1], since := 960000001 }] }, glb.power := .run }, { src := 0, tag := 0 }, [], [], { key := { src := 0, tag := 0 }, nextSeq := 0, bytes := [1], since := 960000001 }, by and_intros <;> first | decide +kernel | exact ⟨.inl rfl, rfl, rfl, rfl, rfl⟩ | exact fun _ h => nomatch h | exact List.Mem.head _ | exact .inl rfl | exact .inr rfl | exact .inr (.inr (by decide +kernel)) | exact .inl (by decide +kernel) | exact .inr (by decide +kernel) | rfl⟩,
   ⟨S { dev with mgt := { enabled := true, bankOff := false }, glb.power := .run }, { src := 0, tag := 0 }, by first | decide +kernel | exact ⟨.inl rfl, rfl, rfl, rfl, rfl⟩ | exact fun _ h => nomatch h | exact List.Mem.head _ | exact .inl rfl | exact .inr rfl | exact .inr (.inr (by decide +kernel)) | exact .inl (by decide +kernel) | exact .inr (by decide +kernel) | rfl⟩⟩

/-- States and operands that meet the hypotheses of `Obligations.ManagementMessagesAreAnswered`, one for each of its clauses. -/
theorem meets_ManagementMessagesAreAnswered :
  (∃ s : State, ∃ e : Dev, servedMgt s e ∧ 1 ≤ cellRoom e H.mgt) ∧
  (∃ s : State, ∃ e : Dev, servedMgt s e ∧ 1 ≤ cellRoom e H.mgt) ∧
  (∃ s : State, ∃ e : Dev, ∃ i : Instr, ∃ b : Bytes, servedMgt s e ∧ mgtOp i = some (.message false b) ∧ s.mgt.eid = 0) ∧
  (∃ s : State, ∃ e : Dev, ∃ i : Instr, ∃ b : Bytes, servedMgt s e ∧ mgtOp i = some (.message false b) ∧ s.mgt.eid ≠ 0 ∧ 4104 < b.length) ∧
  (∃ s : State, ∃ e : Dev, ∃ i : Instr, ∃ b : Bytes, servedMgt s e ∧ mgtOp i = some (.message false b) ∧ s.mgt.eid ≠ 0 ∧ b.length ≤ 4104 ∧ cellRoom e H.mgt < cellsFor b.length) ∧
  (∃ s : State, ∃ e : Dev, servedMgt s e ∧ s.mgt.eid ≠ 0 ∧ 65 ≤ cellRoom e H.mgt) ∧
  (∃ s : State, ∃ e : Dev, servedMgt s e ∧ s.mgt.eid ≠ 0 ∧ 65 ≤ cellRoom e H.mgt ∧ s.mgt.spdmStage = 0) ∧
  (∃ s : State, ∃ e : Dev, servedMgt s e ∧ s.mgt.eid ≠ 0 ∧ 65 ≤ cellRoom e H.mgt ∧ 1 ≤ s.mgt.spdmStage) ∧
  (∃ s : State, ∃ e : Dev, servedMgt s e ∧ s.mgt.eid ≠ 0 ∧ 65 ≤ cellRoom e H.mgt ∧ s.mgt.spdmStage < 2) ∧
  (∃ s : State, ∃ e : Dev, servedMgt s e ∧ s.mgt.eid ≠ 0 ∧ 65 ≤ cellRoom e H.mgt ∧ 2 ≤ s.mgt.spdmStage) ∧
  (∃ s : State, ∃ e : Dev, servedMgt s e ∧ s.mgt.eid ≠ 0 ∧ 65 ≤ cellRoom e H.mgt ∧ s.mgt.spdmStage < 3) ∧
  (∃ s : State, ∃ e : Dev, ∃ x : Byte, servedMgt s e ∧ s.mgt.eid ≠ 0 ∧ 65 ≤ cellRoom e H.mgt ∧ 3 ≤ s.mgt.spdmStage ∧ x ≠ 0xFF) ∧
  (∃ s : State, ∃ e : Dev, servedMgt s e ∧ s.mgt.eid ≠ 0 ∧ 65 ≤ cellRoom e H.mgt ∧ 3 ≤ s.mgt.spdmStage ∧ (rootLoaded s.toDev = false ∨ s.lc.state = 0xEE)) ∧
  (∃ s : State, ∃ e : Dev, servedMgt s e ∧ s.mgt.eid ≠ 0 ∧ 65 ≤ cellRoom e H.mgt ∧ 3 ≤ s.mgt.spdmStage ∧ rootLoaded s.toDev = true ∧ s.lc.state ≠ 0xEE ∧ drbgReady s.toDev = true) ∧
  (∃ s : State, ∃ e : Dev, servedMgt s e ∧ s.mgt.eid ≠ 0 ∧ 65 ≤ cellRoom e H.mgt ∧ s.mgt.spdmStage < 3) ∧
  (∃ s : State, ∃ e : Dev, ∃ i : Byte, servedMgt s e ∧ s.mgt.eid ≠ 0 ∧ 65 ≤ cellRoom e H.mgt ∧ 3 ≤ s.mgt.spdmStage ∧ 4 < i.toNat ∧ i ≠ 0xFF) ∧
  (∃ s : State, ∃ e : Dev, ∃ i : Byte, servedMgt s e ∧ s.mgt.eid ≠ 0 ∧ 65 ≤ cellRoom e H.mgt ∧ 3 ≤ s.mgt.spdmStage ∧ (i.toNat ≤ 4 ∨ i = 0xFF) ∧ (rootLoaded s.toDev = false ∨ s.lc.state = 0xEE)) ∧
  (∃ s : State, ∃ e : Dev, ∃ i : Byte, ∃ g : Bool, ∃ sel : List Nat, servedMgt s e ∧ s.mgt.eid ≠ 0 ∧ 65 ≤ cellRoom e H.mgt ∧ 3 ≤ s.mgt.spdmStage ∧ (i.toNat ≤ 4 ∨ i = 0xFF) ∧ (g = false ∨ (rootLoaded s.toDev = true ∧ s.lc.state ≠ 0xEE ∧ drbgReady s.toDev = true)) ∧ sel = (if i = 0 then [] else if i = 0xFF then [1, 2, 3, 4] else [i.toNat])) ∧
  (∃ s : State, ∃ e : Dev, servedMgt s e ∧ s.mgt.eid ≠ 0 ∧ 65 ≤ cellRoom e H.mgt) ∧
  (∃ s : State, ∃ e : Dev, servedMgt s e ∧ s.mgt.eid ≠ 0 ∧ 65 ≤ cellRoom e H.mgt ∧ s.mgt.actEn = false) ∧
  (∃ s : State, ∃ e : Dev, ∃ n : Byte, ∃ o : Byte, servedMgt s e ∧ s.mgt.eid ≠ 0 ∧ 65 ≤ cellRoom e H.mgt ∧ s.mgt.actEn = true ∧ (64 ≤ n.toNat ∨ (o ≠ 2 ∧ o ≠ 3))) ∧
  (∃ s : State, ∃ e : Dev, ∃ n : Byte, ∃ o : Byte, ∃ g : Word, servedMgt s e ∧ s.mgt.eid ≠ 0 ∧ 65 ≤ cellRoom e H.mgt ∧ s.mgt.actEn = true ∧ n.toNat < 64 ∧ (o = 2 ∨ o = 3) ∧ g ≠ (stall s.toDev n.toNat).gen) ∧
  (∃ s : State, ∃ e : Dev, ∃ n : Byte, ∃ o : Byte, ∃ g : Word, ∃ r : Dev × Half, servedMgt s e ∧ s.mgt.eid ≠ 0 ∧ 65 ≤ cellRoom e H.mgt ∧ s.mgt.actEn = true ∧ n.toNat < 64 ∧ (o = 2 ∨ o = 3) ∧ g = (stall s.toDev n.toNat).gen ∧ r = stallOp e n.toNat o.toNat .squash) ∧
  (∃ s : State, ∃ e : Dev, servedMgt s e ∧ s.mgt.eid ≠ 0 ∧ 65 ≤ cellRoom e H.mgt) ∧
  (∃ s : State, ∃ e : Dev, ∃ q : Bytes, servedMgt s e ∧ s.mgt.eid ≠ 0 ∧ 65 ≤ cellRoom e H.mgt ∧ q.length ≤ 4096 ∧ s.lc.state = 0xEE ∧ chOpcode q ∉ [0x0801, 0x0605, 0x0606] ∧ ohFragMore q = false) ∧
  (∃ s : State, ∃ e : Dev, ∃ t : Byte, ∃ q : Bytes, ∃ d, servedMgt s e ∧ s.mgt.eid ≠ 0 ∧ 65 ≤ cellRoom e H.mgt ∧ q.length ≤ 4096 ∧ s.lc.state ≠ 0xEE ∧ intake e .mgt q t = some d) :=
  ⟨⟨S dev, _, by and_intros <;> first | decide +kernel | exact ⟨.inl rfl, rfl, rfl, rfl, rfl⟩ | exact .inl rfl | exact .inr rfl | exact .inr (.inr (by decide +kernel)) | exact .inl (by decide +kernel) | exact .inr (by decide +kernel) | rfl⟩,
   ⟨S { dev with mgt := { enabled := true, eid := 9, spdmStage := 3 } }, _, by and_intros <;> first | decide +kernel | exact ⟨.inl rfl, rfl, rfl, rfl, rfl⟩ | exact .inl rfl | exact .inr rfl | exact .inr (.inr (by decide +kernel)) | exact .inl (by decide +kernel) | exact .inr (by decide +kernel) | rfl⟩,
   ⟨S dev, _, .attestKey 0, [0x7E, 0x1D, 0x7C, 0x05, 0, 0, 0, 0], by and_intros <;> first | decide +kernel | exact ⟨.inl rfl, rfl, rfl, rfl, rfl⟩ | exact .inl rfl | exact .inr rfl | exact .inr (.inr (by decide +kernel)) | exact .inl (by decide +kernel) | exact .inr (by decide +kernel) | rfl⟩,
   ⟨S { dev with mgt := { enabled := true, eid := 9, spdmStage := 3 } }, _, .command 0 (zeros 4097), [0x7E, 0x1D, 0x7C, 0x01, 0, 0, 0, 0] ++ zeros 4097, by and_intros <;> first | decide +kernel | exact ⟨.inl rfl, rfl, rfl, rfl, rfl⟩ | exact .inl rfl | exact .inr rfl | exact .inr (.inr (by decide +kernel)) | exact .inl (by decide +kernel) | exact .inr (by decide +kernel) | rfl⟩,
   ⟨S { dev with mgt := { enabled := true, eid := 9 }, ldg.pools := [(1, { issued := 512, held := [(H.mgt, 512)] })] }, _, .attestKey 0, [0x7E, 0x1D, 0x7C, 0x05, 0, 0, 0, 0], by and_intros <;> first | decide +kernel | exact ⟨.inl rfl, rfl, rfl, rfl, rfl⟩ | exact .inl rfl | exact .inr rfl | exact .inr (.inr (by decide +kernel)) | exact .inl (by decide +kernel) | exact .inr (by decide +kernel) | rfl⟩,
   ⟨S { dev with mgt := { enabled := true, eid := 9, spdmStage := 3 } }, _, by and_intros <;> first | decide +kernel | exact ⟨.inl rfl, rfl, rfl, rfl, rfl⟩ | exact .inl rfl | exact .inr rfl | exact .inr (.inr (by decide +kernel)) | exact .inl (by decide +kernel) | exact .inr (by decide +kernel) | rfl⟩,
   ⟨S { dev with mgt := { enabled := true, eid := 9, spdmStage := 0 } }, _, by and_intros <;> first | decide +kernel | exact ⟨.inl rfl, rfl, rfl, rfl, rfl⟩ | exact .inl rfl | exact .inr rfl | exact .inr (.inr (by decide +kernel)) | exact .inl (by decide +kernel) | exact .inr (by decide +kernel) | rfl⟩,
   ⟨S { dev with mgt := { enabled := true, eid := 9, spdmStage := 3 } }, _, by and_intros <;> first | decide +kernel | exact ⟨.inl rfl, rfl, rfl, rfl, rfl⟩ | exact .inl rfl | exact .inr rfl | exact .inr (.inr (by decide +kernel)) | exact .inl (by decide +kernel) | exact .inr (by decide +kernel) | rfl⟩,
   ⟨S { dev with mgt := { enabled := true, eid := 9, spdmStage := 1 } }, _, by and_intros <;> first | decide +kernel | exact ⟨.inl rfl, rfl, rfl, rfl, rfl⟩ | exact .inl rfl | exact .inr rfl | exact .inr (.inr (by decide +kernel)) | exact .inl (by decide +kernel) | exact .inr (by decide +kernel) | rfl⟩,
   ⟨S { dev with mgt := { enabled := true, eid := 9, spdmStage := 2 } }, _, by and_intros <;> first | decide +kernel | exact ⟨.inl rfl, rfl, rfl, rfl, rfl⟩ | exact .inl rfl | exact .inr rfl | exact .inr (.inr (by decide +kernel)) | exact .inl (by decide +kernel) | exact .inr (by decide +kernel) | rfl⟩,
   ⟨S { dev with mgt := { enabled := true, eid := 9, spdmStage := 2 } }, _, by and_intros <;> first | decide +kernel | exact ⟨.inl rfl, rfl, rfl, rfl, rfl⟩ | exact .inl rfl | exact .inr rfl | exact .inr (.inr (by decide +kernel)) | exact .inl (by decide +kernel) | exact .inr (by decide +kernel) | rfl⟩,
   ⟨S { dev with mgt := { enabled := true, eid := 9, spdmStage := 3 } }, _, 0xFE, by and_intros <;> first | decide +kernel | exact ⟨.inl rfl, rfl, rfl, rfl, rfl⟩ | exact .inl rfl | exact .inr rfl | exact .inr (.inr (by decide +kernel)) | exact .inl (by decide +kernel) | exact .inr (by decide +kernel) | rfl⟩,
   ⟨S { dev with mgt := { enabled := true, eid := 9, spdmStage := 3 }, lc.state := 0xEE }, _, by and_intros <;> first | decide +kernel | exact ⟨.inl rfl, rfl, rfl, rfl, rfl⟩ | exact .inl rfl | exact .inr rfl | exact .inr (.inr (by decide +kernel)) | exact .inl (by decide +kernel) | exact .inr (by decide +kernel) | rfl⟩,
   ⟨S { dev with mgt := { enabled := true, eid := 9, spdmStage := 3 } }, _, by and_intros <;> first | decide +kernel | exact ⟨.inl rfl, rfl, rfl, rfl, rfl⟩ | exact .inl rfl | exact .inr rfl | exact .inr (.inr (by decide +kernel)) | exact .inl (by decide +kernel) | exact .inr (by decide +kernel) | rfl⟩,
   ⟨S { dev with mgt := { enabled := true, eid := 9, spdmStage := 2 } }, _, by and_intros <;> first | decide +kernel | exact ⟨.inl rfl, rfl, rfl, rfl, rfl⟩ | exact .inl rfl | exact .inr rfl | exact .inr (.inr (by decide +kernel)) | exact .inl (by decide +kernel) | exact .inr (by decide +kernel) | rfl⟩,
   ⟨S { dev with mgt := { enabled := true, eid := 9, spdmStage := 3 } }, _, 5, by and_intros <;> first | decide +kernel | exact ⟨.inl rfl, rfl, rfl, rfl, rfl⟩ | exact .inl rfl | exact .inr rfl | exact .inr (.inr (by decide +kernel)) | exact .inl (by decide +kernel) | exact .inr (by decide +kernel) | rfl⟩,
   ⟨S { dev with mgt := { enabled := true, eid := 9, spdmStage := 3 }, lc.state := 0xEE }, _, 0, by and_intros <;> first | decide +kernel | exact ⟨.inl rfl, rfl, rfl, rfl, rfl⟩ | exact .inl rfl | exact .inr rfl | exact .inr (.inr (by decide +kernel)) | exact .inl (by decide +kernel) | exact .inr (by decide +kernel) | rfl⟩,
   ⟨S { dev with mgt := { enabled := true, eid := 9, spdmStage := 3 } }, _, 0xFF, true, _, by and_intros <;> first | decide +kernel | exact ⟨.inl rfl, rfl, rfl, rfl, rfl⟩ | exact .inl rfl | exact .inr rfl | exact .inr (.inr (by decide +kernel)) | exact .inl (by decide +kernel) | exact .inr (by decide +kernel) | rfl⟩,
   ⟨S { dev with mgt := { enabled := true, eid := 9, spdmStage := 3 } }, _, by and_intros <;> first | decide +kernel | exact ⟨.inl rfl, rfl, rfl, rfl, rfl⟩ | exact .inl rfl | exact .inr rfl | exact .inr (.inr (by decide +kernel)) | exact .inl (by decide +kernel) | exact .inr (by decide +kernel) | rfl⟩,
   ⟨S { dev with mgt := { enabled := true, eid := 9, spdmStage := 3 } }, _, by and_intros <;> first | decide +kernel | exact ⟨.inl rfl, rfl, rfl, rfl, rfl⟩ | exact .inl rfl | exact .inr rfl | exact .inr (.inr (by decide +kernel)) | exact .inl (by decide +kernel) | exact .inr (by decide +kernel) | rfl⟩,
   ⟨S { dev with mgt := { enabled := true, eid := 9, actEn := true } }, _, 64, 2, by and_intros <;> first | decide +kernel | exact ⟨.inl rfl, rfl, rfl, rfl, rfl⟩ | exact .inl rfl | exact .inr rfl | exact .inr (.inr (by decide +kernel)) | exact .inl (by decide +kernel) | exact .inr (by decide +kernel) | rfl⟩,
   ⟨S { dev with mgt := { enabled := true, eid := 9, actEn := true } }, _, 63, 2, 1, by and_intros <;> first | decide +kernel | exact ⟨.inl rfl, rfl, rfl, rfl, rfl⟩ | exact .inl rfl | exact .inr rfl | exact .inr (.inr (by decide +kernel)) | exact .inl (by decide +kernel) | exact .inr (by decide +kernel) | rfl⟩,
   ⟨S { dev with mgt := { enabled := true, eid := 9, actEn := true } }, _, 63, 2, 0, _, by and_intros <;> first | decide +kernel | exact ⟨.inl rfl, rfl, rfl, rfl, rfl⟩ | exact .inl rfl | exact .inr rfl | exact .inr (.inr (by decide +kernel)) | exact .inl (by decide +kernel) | exact .inr (by decide +kernel) | rfl⟩,
   ⟨S { dev with mgt := { enabled := true, eid := 9, spdmStage := 3 } }, _, by and_intros <;> first | decide +kernel | exact ⟨.inl rfl, rfl, rfl, rfl, rfl⟩ | exact .inl rfl | exact .inr rfl | exact .inr (.inr (by decide +kernel)) | exact .inl (by decide +kernel) | exact .inr (by decide +kernel) | rfl⟩,
   ⟨S { dev with mgt := { enabled := true, eid := 9 }, lc.state := 0xEE }, _, aPacket 0, by and_intros <;> first | decide +kernel | exact ⟨.inl rfl, rfl, rfl, rfl, rfl⟩ | exact .inl rfl | exact .inr rfl | exact .inr (.inr (by decide +kernel)) | exact .inl (by decide +kernel) | exact .inr (by decide +kernel) | rfl⟩,
   ⟨S { dev with mgt := { enabled := true, eid := 9, spdmStage := 3 } }, _, 7, aPacket 2, _, by and_intros <;> first | decide +kernel | exact ⟨.inl rfl, rfl, rfl, rfl, rfl⟩ | exact .inl rfl | exact .inr rfl | exact .inr (.inr (by decide +kernel)) | exact .inl (by decide +kernel) | exact .inr (by decide +kernel) | rfl⟩⟩

end Sys2Proof.Tests
end

section
/-! The world commands of 06: the secure watchdog (R102), the hand-over (R97-R99), the policy barrier (R112), the violation queue (R109, R110; 23 R414) and the trap queue (14 R265). One equation for each branch of an operation on the device; the rows run these operations, and O28 is read off. -/

namespace Sys2Proof.Machine

open Sys2Proof.Safety

/-! ### The rows run the operations -/

theorem exec_swdtKick (m : Master) (k : Half) (s : State) : exec (.swdtKick m k) s = .next (on s (kick s.toDev m k)) := rfl
theorem exec_swdtWarning (s : State) : exec .swdtWarning s = .next (on s (swdtWarn s.toDev)) := rfl
theorem exec_handover (m : Master) (p : Fin 32) (b : Bool) (s : State) : exec (.handover m p b) s = .next (on s (startHandover s.toDev m p.val b)) := rfl
theorem exec_handoverComplete (s : State) : exec .handoverComplete s = .next (on s (finishHandover s.toDev)) := rfl
theorem exec_policyBarrier (m : Master) (s : State) : exec (.policyBarrier m) s = .next (on s (startBarrier s.toDev m)) := rfl
theorem exec_barrierComplete (s : State) : exec .barrierComplete s = .next (on s (endBarrier s.toDev)) := rfl
theorem exec_violationPop (m : Master) (s : State) :
    exec (.violationPop m) s = .next (on s (if masterSecure s.toDev m then popViolation s.toDev else regDenied s.toDev m (Base.sec + 0x40))) := rfl
theorem exec_trapPop (m : Master) (s : State) : exec (.trapPop m) s = .next (on s (trapPop s.toDev m)) := rfl

/-! ### Watchdog: R102 -/

theorem kick_key {d : Dev} {m : Master} (hm : masterSecure d m = true) : kick d m 0xC35A = swdtReload d := by
  simp [kick, hm]

/-- Log 65: a wrong key is a violation whichever world writes it. -/
theorem kick_wrongKey (d : Dev) (m : Master) {k : Half} (hk : k ≠ 0xC35A) : kick d m k = regDenied d m (Base.sec + 0x24) := by
  have hne : (masterSecure d m && k == 0xC35A) = false := by rw [beq_false_of_ne hk, Bool.and_false]
  rw [kick, hne, if_neg Bool.false_ne_true]

theorem kick_normal {d : Dev} {m : Master} (hm : masterSecure d m = false) (k : Half) : kick d m k = regDenied d m (Base.sec + 0x24) := by
  simp [kick, hm]

theorem swdtWarn_due {d : Dev} (hw : d.sec.swdtWarned = false) (hh : d.dbg.halted.any (·.2) = false) (hp : d.glb.power = .run)
    (hc : d.sec.swdtCount ≤ d.sec.swdtLoad.toNat / 8) :
    swdtWarn d = raiseSecure { d with sec := { d.sec with swdtWarned := true } } irqWatchdog := by
  simp [swdtWarn, swdtPaused, hw, hh, hp, Nat.not_lt.mpr hc]

theorem swdtWarn_idle {d : Dev}
    (h : d.sec.swdtWarned = true ∨ d.dbg.halted.any (·.2) = true ∨ d.glb.power ≠ .run ∨ d.sec.swdtLoad.toNat / 8 < d.sec.swdtCount) :
    swdtWarn d = d := by
  refine if_pos ?_
  rcases h with h | h | h | h <;> simp [swdtPaused, h]

/-! ### Hand-over: R97-R99 -/

/-- A write that starts nothing stores its fields and its result, and GO goes on reading 0. -/
theorem setHandover_notStarted {d : Dev} (hg : d.sec.hoGo = false) (p : Nat) (b : Bool) (res : Nat) :
    setHandover d p b false res = { d with sec := { d.sec with hoResult := BitVec.ofNat 4 res, hoTo := b, hoPeriph := BitVec.ofNat 5 p } } := by
  rw [setHandover, ← hg]

theorem startHandover_normal {d : Dev} {m : Master} (hm : masterSecure d m = false) (p : Nat) (b : Bool) :
    startHandover d m p b = regDenied d m (Base.sec + 0x14) := by
  simp [startHandover, hm]

section
variable {d : Dev} {m : Master} {p : Nat} {b : Bool}

theorem startHandover_running (hm : masterSecure d m = true) (hg : d.sec.hoGo = true) : startHandover d m p b = d := by
  simp [startHandover, hm, hg]

theorem startHandover_noPeripheral (hm : masterSecure d m = true) (hg : d.sec.hoGo = false) (hp : 22 < p) :
    startHandover d m p b = setHandover d p b false 3 := by
  simp [startHandover, hm, hg, hp]

theorem startHandover_ownWorld (hm : masterSecure d m = true) (hg : d.sec.hoGo = false) (hp : p < 23) (ho : d.sec.own.getLsbD p = b) :
    startHandover d m p b = setHandover d p b false 2 := by
  simp [startHandover, hm, hg, ownedBySecure, ho, show ¬ 22 < p by omega]

theorem startHandover_otherWorld (hm : masterSecure d m = true) (hg : d.sec.hoGo = false) (hp : p < 23) (ho : d.sec.own.getLsbD p = !b) :
    startHandover d m p b = stopPeriph (setHandover d p b true 0) p := by
  simp [startHandover, hm, hg, ownedBySecure, ho, show ¬ 22 < p by omega]

end

theorem stopPeriph_timer (d : Dev) {p : Nat} (hp : p < 16) : stopPeriph d p = { d with tmr := tset d.tmr p {} } := if_pos hp

/-- R97 steps 3 to 5 for a timer, a card slot or the management port, which leave no engine to reset. -/
theorem finishHandover_noEngine {d : Dev} {p : Nat} {own : BitVec 23} (hg : d.sec.hoGo = true) (hn : d.sec.hoPeriph.toNat = p) (hp : p < 18 ∨ 22 ≤ p)
    (ho : own = if d.sec.hoTo then d.sec.own ||| BitVec.ofNat 23 (2 ^ p) else d.sec.own &&& ~~~BitVec.ofNat 23 (2 ^ p)) :
    finishHandover d = sweepWaiting (logRec
      { d with sec := { d.sec with own, fresh := { d.sec.fresh with own := d.sec.own :: d.sec.fresh.own }, hoGo := false, hoResult := 1, irqSecure := clearIrq d.sec.irqSecure p, irqNormal := clearIrq d.sec.irqNormal p } }
      (recEvent "SEC" 0 (leBytes 4 own.toNat))) := by
  subst hn ho
  have hne : (decide (18 ≤ d.sec.hoPeriph.toNat) && decide (d.sec.hoPeriph.toNat < 22)) = false := by
    simp only [Bool.and_eq_false_iff, decide_eq_false_iff_not]; omega
  simp only [finishHandover, hg, hne, Bool.not_true, Bool.false_eq_true, if_false]

/-! ### Policy barrier: R112 -/

theorem startBarrier_idle {d : Dev} {m : Master} (hm : masterSecure d m = true) (hb : d.sec.barrier = false) :
    startBarrier d m = { d with sec := { d.sec with barrier := true, covered := d.sec.fresh, fresh := {} } } := by
  simp [startBarrier, hm, hb]

theorem startBarrier_normal {d : Dev} {m : Master} (hm : masterSecure d m = false) : startBarrier d m = regDenied d m (Base.sec + 0x38) := by
  simp [startBarrier, hm]

/-! ### Violation queue: R109, R110; 23 R414 -/

theorem openViolations_eq_count (d : Dev) : openViolations d = d.glb.errD.openCauses.count (8, 0) := List.count_eq_length_filter.symm

theorem filter_erase_self {α : Type} [BEq α] [LawfulBEq α] (a : α) (l : List α) : (l.erase a).filter (· != a) = l.filter (· != a) := by
  rw [← List.erase_filter, List.erase_of_not_mem (by simp)]

/-- As many closings as violations are open leave no violation among the open causes; the pause is judged anew only where one was open. -/
theorem closeViolations_open (n : Nat) (d : Dev) (hn : openViolations d = n) :
    closeViolations n d = { d with glb := { d.glb with errD := { d.glb.errD with
      openCauses := d.glb.errD.openCauses.filter (· != (8, 0)),
      paused := if d.glb.errD.openCauses.filter (· != (8, 0)) = d.glb.errD.openCauses then d.glb.errD.paused
        else !(d.glb.errD.openCauses.filter (· != (8, 0))).isEmpty } } } := by
  rw [openViolations_eq_count] at hn
  induction n generalizing d with
  | zero =>
    have hall : d.glb.errD.openCauses.filter (· != (8, 0)) = d.glb.errD.openCauses := by
      refine List.filter_eq_self.mpr fun c hc => bne_iff_ne.mpr ?_
      rintro rfl
      exact List.count_eq_zero.mp hn hc
    simp only [closeViolations, hall, if_true]
  | succ n ih =>
    have hmem : (8, 0) ∈ d.glb.errD.openCauses := List.count_pos_iff.mp (by omega)
    have hne : d.glb.errD.openCauses.filter (· != (8, 0)) ≠ d.glb.errD.openCauses := by
      intro h
      exact bne_iff_ne.mp (List.filter_eq_self.mp h _ hmem) rfl
    have hcount : (closeD d 8 0).glb.errD.openCauses.count (8, 0) = n := by
      simp only [closeD, List.count_erase_self]; omega
    rw [closeViolations, ih _ hcount]
    simp only [closeD, filter_erase_self, if_neg hne]
    congr 4
    split
    · next h => rw [h]
    · rfl

theorem popViolation_more {d : Dev} {v : Viol} {l : List Viol} {o : List (Nat × Nat)} (hv : d.sec.viol = v :: l) (hl : l ≠ [])
    (ho : o = if v.pauses then d.glb.errD.openCauses.erase (8, 0) else d.glb.errD.openCauses) :
    popViolation d = { d with sec := { d.sec with viol := l }, glb := { d.glb with errD := { d.glb.errD with
      openCauses := o, paused := if v.pauses then !o.isEmpty else d.glb.errD.paused } } } := by
  subst ho
  cases hp : v.pauses <;> simp [popViolation, hv, hl, hp, closeD]

/-- Log 28: the pop that empties the queue ends every pause of a violation, those whose report was lost included. -/
theorem popViolation_last {d : Dev} {v : Viol} {o : List (Nat × Nat)} (hv : d.sec.viol = [v]) (ho : o = d.glb.errD.openCauses.filter (· != (8, 0))) :
    popViolation d = { d with sec := { d.sec with viol := [] }, glb := { d.glb with errD := { d.glb.errD with
      openCauses := o, paused := if o = d.glb.errD.openCauses then d.glb.errD.paused else !o.isEmpty } } } := by
  subst ho
  simp only [popViolation, hv, List.isEmpty_nil, if_true]
  exact closeViolations_open _ _ rfl

/-! ### Trap queue: 14 R265 -/

theorem trapPop_normal {d : Dev} {m : Master} (hm : masterSecure d m = false) : trapPop d m = regDenied d m (Base.cls + 0x40) := by
  simp [trapPop, hm]

theorem trapPop_request {d : Dev} {m : Master} {t : Trap} {l : List Trap} {q : Req} (hm : masterSecure d m = true) (ht : d.cls.traps = t :: l)
    (hs : t.squashed = false) (hq : tget d.reqs t.rid = some q) (hf : q.fragOpen = false) :
    trapPop d m = finish { d with cls := { d.cls with traps := l } } t.rid q.trapStatus := by
  simp [trapPop, hm, popTrap, ht, hs, setCls, hq, hf]

theorem trapPop_squashed {d : Dev} {m : Master} {t : Trap} {l : List Trap} (hm : masterSecure d m = true) (ht : d.cls.traps = t :: l) (hs : t.squashed = true) :
    trapPop d m = { d with cls := { d.cls with traps := l } } := by
  simp [trapPop, hm, popTrap, ht, hs, setCls]

/-! ### O28 -/

/-- Settles O28: each row is its operation on the device, and each clause one branch of it. -/
theorem worldCommandsAct : Obligations.WorldCommandsAct := by
  intro s m hm
  refine ⟨?kick, ?wrongKey, ?warn, ?noWarning, ?running, ?noPeripheral, ?ownWorld, ?timer, ?handedOver, ?barrier, ?barrierEnds, ?pop, ?popLast, ?trap, ?squashedTrap, ?normal⟩
  case kick => rw [exec_swdtKick, kick_key hm, swdtReload]
  case wrongKey => intro k hk; rw [exec_swdtKick, kick_wrongKey _ _ hk, regDenied]
  case warn => intro hw hh hp hc; rw [exec_swdtWarning, swdtWarn_due hw hh hp hc]
  case noWarning => intro h; rw [exec_swdtWarning, swdtWarn_idle h]; rfl
  case running => intro p b hg; rw [exec_handover, startHandover_running hm hg]; rfl
  case noPeripheral => intro p b hg hp; rw [exec_handover, startHandover_noPeripheral hm hg hp, setHandover_notStarted hg]; rfl
  case ownWorld => intro p b hg hp ho; rw [exec_handover, startHandover_ownWorld hm hg hp ho, setHandover_notStarted hg]; rfl
  case timer =>
    intro p b hg hp ho
    rw [exec_handover, startHandover_otherWorld hm hg (by omega) ho, stopPeriph_timer _ hp]; rfl
  case handedOver =>
    intro p own hg hn hp ho
    have hn' : s.sec.hoPeriph.toNat = p.val := by rw [hn, BitVec.toNat_ofNat]; omega
    rw [exec_handoverComplete, finishHandover_noEngine hg hn' (by omega) ho]
  case barrier => intro hb; rw [exec_policyBarrier, startBarrier_idle hm hb]
  case barrierEnds => rw [exec_barrierComplete, endBarrier]
  case pop => intro v l o hv hl ho; rw [exec_violationPop, if_pos hm, popViolation_more hv hl ho]
  case popLast => intro v o hv ho; rw [exec_violationPop, if_pos hm, popViolation_last hv ho]
  case trap => intro t l q ht hs hq hf; rw [exec_trapPop, trapPop_request hm ht hs hq hf]
  case squashedTrap => intro t l ht hs; rw [exec_trapPop, trapPop_squashed hm ht hs]
  case normal =>
    intro n hn
    refine ⟨?_, fun p b => ?_, ?_, ?_, ?_⟩
    · rw [exec_swdtKick, kick_normal hn, regDenied]
    · rw [exec_handover, startHandover_normal hn, regDenied]
    · rw [exec_policyBarrier, startBarrier_normal hn, regDenied]
    · rw [exec_violationPop, if_neg (by simp [hn]), regDenied]
    · rw [exec_trapPop, trapPop_normal hn, regDenied]

end Sys2Proof.Machine
end

section
/-! The Yard queues of 15: the consumer's READ, MARK, REWIND and RELEASE (R276), packets and freed cells (R275, R277), the stranded timer (R279) and the judgement at the end of a fabric cycle (R278). One equation for each branch of an operation on the device; the rows run these operations, and O44 is read off. -/

namespace Sys2Proof.Machine

open Sys2Proof.Safety

/-! ### The rows run the operations -/

theorem exec_read (r : YardRead) (s : State) : exec (.read r) s = .next (on s (readMet s.toDev r.queue.val r.met)) := rfl
theorem exec_mark (n : Fin 512) (s : State) : exec (.mark n) s = .next (on s (markQueue s.toDev n.val)) := rfl
theorem exec_rewind (n : Fin 512) (s : State) : exec (.rewind n) s = .next (on s (rewindQueue s.toDev n.val)) := rfl
theorem exec_release (n : Fin 512) (s : State) : exec (.release n) s = .next (on s (releaseQueue s.toDev n.val)) := rfl
theorem exec_packetEnd (n : Fin 512) (b : Bytes) (s : State) : exec (.packetEnd n b) s = .next (on s (packetEnd s.toDev n.val b)) := rfl
theorem exec_packetAbandon (rid : Nat) (s : State) : exec (.packetAbandon rid) s = .next (on s (abandon s.toDev rid)) := rfl
theorem exec_cellReentry (c : Fin 32768) (s : State) :
    exec (.cellReentry c) s = .next (on s { s.toDev with yrd := { s.yrd with zeroing := s.yrd.zeroing.erase c.val } }) := rfl
theorem exec_stranded (n : Fin 512) (s : State) : exec (.stranded n) s = .next (on s (strand s.toDev n.val)) := rfl

/-! ### What noting a queue for its judgement and raising its event leave alone -/

@[simp] theorem touchQueue_queues (d : Dev) (n : Nat) : (touchQueue d n).yrd.queues = d.yrd.queues := by
  unfold touchQueue; split <;> rfl

@[simp] theorem queueOf_touchQueue (d : Dev) (n k : Nat) : queueOf (touchQueue d n) k = queueOf d k := by
  simp only [queueOf, touchQueue_queues]

/-- R280: the interrupt does not change the queue or its data. -/
@[simp] theorem queueEvent_yrd (d : Dev) (n : Nat) : (queueEvent d n).yrd = d.yrd := by
  unfold queueEvent
  split
  · obtain ⟨h, o, hs⟩ := signal_frame d (.vf (Fin.ofNat 64 (n / 4))) 2
    rw [hs]
  · simp

theorem unread_iff (q : YQueue) : unread q = true ↔ q.rdPos < 2 * q.cells.length := decide_eq_true_iff

/-! ### READ, MARK, REWIND and RELEASE: R276 -/

/-- R274: at the end of the committed data there is no word. -/
theorem wordAt_eq_none {q : YQueue} (h : 2 * q.cells.length ≤ q.rdPos) : wordAt q = none := by
  have hcell : q.cells[q.rdPos / 2]? = none := List.getElem?_eq_none (by omega)
  rw [wordAt, hcell, Option.map_none]

theorem readWord_empty {d : Dev} {n : Nat} (h : wordAt (queueOf d n) = none) : readWord d n = emit d .yardEmpty := by
  simp only [readWord, h]

theorem readWord_word {d : Dev} {n : Nat} {b : Bytes} {fin : Bool} {r : YQueue} (h : wordAt (queueOf d n) = some (b, fin))
    (hr : r = { queueOf d n with
      rdPos := if fin then 2 * ((queueOf d n).rdPos / 2) + 2 else (queueOf d n).rdPos + 1, strandQuiet := false, strandDue := false }) :
    readWord d n = emit (setQueue d n { r with strandFrom := if r.rdPos < 2 * r.cells.length then some d.now else none })
      (.word (Config.fit 32 b) b.length fin) := by
  subst hr
  simp only [readWord, h, unread_iff]

theorem rewindQueue_eq (d : Dev) (n : Nat) : rewindQueue d n = setQueue d n { queueOf d n with
    rdPos := (queueOf d n).mkPos,
    strandFrom := if (queueOf d n).mkPos < 2 * (queueOf d n).cells.length then some d.now else none } := by
  simp only [rewindQueue, unread_iff]

theorem releaseQueue_eq {d : Dev} {n k : Nat} {q : YQueue} (hq : q = queueOf d n) (hk : k = q.mkPos / 2) :
    releaseQueue d n = setQueue ((q.cells.take k).foldl (fun d c => freeCells d c.holder [c.idx]) (touchQueue d n)) n { q with
      cells := q.cells.drop k, rdPos := q.rdPos - 2 * k, mkPos := q.mkPos - 2 * k,
      strandFrom := if (q.cells.drop k).isEmpty then none else q.strandFrom } := by
  subst hk hq
  simp only [releaseQueue, releaseFirst, queueOf_touchQueue]

/-! ### Packets: R273, R275 -/

theorem packetEnd_claimed {d d' : Dev} {n : Nat} {b : Bytes} {l : List Nat} (hb : b ≠ []) (hn : n < 256 → enabled (stall d (n / 4)) = true)
    (hc : claimCells d (queueIssuer n) (cellsFor b.length) = some (d', l)) :
    packetEnd d n b = enqueueReq { d' with nextRid := d'.nextRid + 1 } d'.nextRid
      { issuer := queueIssuer n, stage := .held, bytes := b, cells := chain l b, rawTag := quad b 24, seq := ohSeq b, produced := true } n := by
  have htaken : (b.isEmpty || (decide (n < 256) && !enabled (stall d (n / 4)))) = false := by simpa [hb] using hn
  simp only [packetEnd, htaken, hc, Bool.false_eq_true, if_false]

theorem abandon_open {d : Dev} {rid : Nat} {r : Req} (hr : tget d.reqs rid = some r) (ho : isOpenPacket r = true) :
    abandon d rid = finish { d with cls := { d.cls with runs := d.cls.runs.filter fun x => decide (x.2.rid ≠ rid) } } rid ST.aborted := by
  simp only [abandon, hr, ho, if_true]

theorem abandon_ended {d : Dev} {rid : Nat} {r : Req} (hr : tget d.reqs rid = some r) (ho : isOpenPacket r = false) : abandon d rid = d := by
  simp only [abandon, hr, ho, Bool.false_eq_true, if_false]

/-! ### The stranded timer: R279 -/

theorem strandOver_iff (d : Dev) (q : YQueue) :
    strandOver d q = true ↔ q.timeout ≠ 0 ∧ q.rdPos < 2 * q.cells.length ∧ q.strandQuiet = false ∧
      ∃ t0, q.strandFrom = some t0 ∧ t0 + strandTick * q.timeout ≤ d.now := by
  cases hf : q.strandFrom <;> simp [strandOver, unread_iff, hf, and_assoc]

theorem strand_over {d : Dev} {n : Nat} (h : strandOver d (queueOf d n) = true) :
    strand d n = setQueue (touchQueue d n) n { queueOf d n with strandDue := true } := by
  simp only [strand, h, Bool.not_true, Bool.false_eq_true, if_false, queueOf_touchQueue]

theorem strand_notOver {d : Dev} {n : Nat} (h : ¬ strandOver d (queueOf d n) = true) : strand d n = d := by
  rw [strand, if_pos (by simpa using h)]

theorem not_strandOver {d : Dev} {q : YQueue}
    (h : q.timeout = 0 ∨ 2 * q.cells.length ≤ q.rdPos ∨ q.strandQuiet = true ∨ q.strandFrom = none ∨
      (∃ t0, q.strandFrom = some t0 ∧ d.now < t0 + strandTick * q.timeout)) : ¬ strandOver d q = true := by
  rw [strandOver_iff]
  rintro ⟨htimeout, hunread, hquiet, t0, hfrom, hdue⟩
  rcases h with h | h | h | h | ⟨t1, h, hearly⟩
  · exact htimeout h
  · omega
  · simp [hquiet] at h
  · simp [hfrom] at h
  · obtain rfl : t0 = t1 := by simpa [hfrom] using h
    omega

/-! ### The end of a fabric cycle: R278, R279 -/

theorem queueOf_judgeQueue {d : Dev} {n before : Nat} {q : YQueue} (hq : q = queueOf d n) :
    queueOf (judgeQueue d n before) n = { q with
      fresh := [], strandDue := false,
      levelHit := q.levelHit || (q.thresh != 0 && decide (before < q.thresh) && decide (q.thresh ≤ q.cells.length)),
      strandedBit := q.strandedBit || (q.strandDue && unread q),
      strandQuiet := q.strandQuiet || (q.strandDue && unread q) } := by
  subst hq
  have hevent (c : Prop) [Decidable c] (d : Dev) : queueOf (if c then queueEvent d n else d) n = queueOf d n := by
    split <;> simp only [queueOf, queueEvent_yrd]
  simp only [judgeQueue, hevent, queueOf_setQueue]

/-! ### O44 -/

/-- Settles O44: each row is its operation on the device, and each clause one branch of it. The model's choices it rests on: an abandoned packet's request ends with ST_ABORTED and a produced packet is a request of its queue's issuer (log 22), the code of an unreadable link is free (log 24), an unreadable cell loses its packet (log 89). -/
theorem yardQueuesAct : Obligations.YardQueuesAct := by
  intro s n q hq
  refine ⟨?read, ?empty, ?corrected, ?lost, ?link, ?mark, ?rewind, ?release, ?packetEnd, ?abandoned, ?ended, ?reentry, ?stranded, ?notStranded, ?judged⟩
  case read => intro b fin hw; subst hq; rw [exec_read, readMet, readWord_word hw rfl]; rfl
  case empty => intro h; rw [exec_read, readMet, readWord_empty (wordAt_eq_none (hq ▸ h))]
  case corrected => rw [exec_read, readMet]
  case lost => rw [exec_read, readMet]
  case link => rw [exec_read, readMet]
  case mark => subst hq; rw [exec_mark, markQueue, setQueue]
  case rewind => subst hq; rw [exec_rewind, rewindQueue_eq, setQueue]
  case release => rw [exec_release, releaseQueue_eq hq rfl, setQueue]
  case packetEnd => intro b d l hb hn hc; rw [exec_packetEnd, packetEnd_claimed hb hn hc]
  case abandoned => intro rid r hr ho; rw [exec_packetAbandon, abandon_open hr ho]
  case ended => intro rid r hr ho; rw [exec_packetAbandon, abandon_ended hr ho]; rfl
  case reentry => intro c; rw [exec_cellReentry]
  case stranded =>
    intro t0 htimeout hunread hquiet hfrom hdue
    have hover : strandOver s.toDev q = true := (strandOver_iff _ _).mpr ⟨htimeout, hunread, hquiet, t0, hfrom, hdue⟩
    subst hq
    rw [exec_stranded, strand_over hover, setQueue]
  case notStranded => intro h; rw [exec_stranded, strand_notOver (hq ▸ not_strandOver h)]; rfl
  case judged =>
    rintro before level due rfl rfl
    refine ⟨_, queueOf_judgeQueue hq, rfl, rfl, rfl, ?_, ?_, ?_⟩ <;> simp [unread_iff, and_assoc]

end Sys2Proof.Machine
end

section
/-! The Logbook commands of 13 R251: LOG_APPEND, LOG_READ and LOG_STATUS (19 R350, R355, R356). Fields are read back from the parameters a request lays out, each command is said once as what it does when its checks pass, and O14 is read off. -/

namespace Sys2Proof.Machine

open Sys2Proof.Safety

/-! ### Reading back the bytes of a request -/

@[simp] theorem length_leBytes (n x : Nat) : (leBytes n x).length = n := by
  induction n generalizing x with
  | zero => rfl
  | succ n ih => rw [leBytes, List.length_cons, ih]

section
variable {p a b l : Bytes} {off len : Nat}

/-- The `len` bytes at offset `off` of a laid-out request are the field that stands there. -/
theorem slice_field (hp : p = a ++ (b ++ l)) (ha : a.length = off) (hb : b.length = len) : slice p off len = b := by
  rw [hp, slice, List.drop_left' ha, List.take_left' hb]

theorem leAt_field {x : Nat} (hp : p = a ++ (leBytes len x ++ l)) (ha : a.length = off) (hx : x < 256 ^ len) : leAt p off len = x := by
  rw [leAt, slice_field hp ha (length_leBytes len x), take_leBytes, Nat.mod_eq_of_lt hx]

end

/-! ### Parameters: 13 R233 -/

/-- With the fixed part whole and its zero fields zero, the variable fields decide. -/
theorem parse_variable {c : Cmd} {fixed tail : Nat} {zero : List (Nat × Nat)} {vars : List (Nat × Bool)} (hlen : fixed ≤ c.params.length)
    (hzero : ∀ z ∈ zero, allZero (slice c.params z.1 z.2) = true) :
    parse c fixed zero vars tail = parseVars tail (c.params.length - fixed) vars := by
  have hnone : (zero.any fun z => !allZero (slice c.params z.1 z.2)) = false := List.any_eq_false.mpr fun z hz => by simp [hzero z hz]
  rw [parse, if_neg (Nat.not_lt.mpr hlen), hnone, if_neg Bool.false_ne_true]

theorem parse_fixedOnly {c : Cmd} {n : Nat} (h : c.params.length = n) : parse c n = none := by
  rw [parse_variable (Nat.le_of_eq h.symm) (by simp), h, Nat.sub_self]; rfl

/-- One variable field that fills what is left behind the fixed part, and holds no key material. -/
theorem parseVars_one (n : Nat) : parseVars 0 n [(n, false)] = none := by simp [parseVars]

/-! ### The checks of a Logbook command: 13 R236 -/

theorem listedPV {r : Request} (h : fromPV r) : listed whoPV r.issuer = true := by
  rcases h with h | ⟨n, h⟩ <;> simp [h, listed, whoPV]

/-- LOG_APPEND, LOG_READ and LOG_STATUS. -/
def logOpcodes : List Nat := [0x0604, 0x0605, 0x0606]

/-- 07 R135: a lost owner table bars no Logbook command. -/
theorem tableBarred_logbook {c : Cmd} (h : c.opcode ∈ logOpcodes) : tableBarred c = false := by
  simp only [logOpcodes, List.mem_cons, List.not_mem_nil, or_false] at h
  rcases h with h | h | h <;> simp [tableBarred, h]

/-- No Logbook command reads a key, so none meets a key whose mask is bad. -/
theorem maskBad_logbook {c : Cmd} (h : c.opcode ∈ logOpcodes) : maskBad c = false := by
  simp only [logOpcodes, List.mem_cons, List.not_mem_nil, or_false] at h
  rcases h with h | h | h <;> simp [maskBad, readsKey, h]

theorem logPreChecks_pass {s : State} {r : Request} {op : Nat} {who : Who} {stateOk : Bool} {parsed : Option Half} {values : Bool} {res : Nat}
    (hop : op ∈ logOpcodes) (hwho : listed who r.issuer = true) (hstate : stateOk = true) (hparse : parsed = none) (hvalues : values = true) (hres : res ≤ r.dataCap) :
    firstFail (preChecks (took s op r) (asCmd s op r) who stateOk parsed values res) = none :=
  preChecks_pass rfl hwho hstate (.inr (tableBarred_logbook hop)) hparse hvalues rfl hres

theorem notOpen_pass {d : Dev} (h : d.evr.isOpen = true) : firstFail (notOpen d) = none := by simp [notOpen, h]

/-! ### LOG_APPEND -/

section
variable {c : Cmd} {t : Half} {x : Bytes}

/-- 13 R251: TYPE, two zero bytes, the length of DATA, and DATA read back from the parameters. -/
theorem logAppend_params (hp : c.params = b2 t ++ [0, 0] ++ leBytes 4 x.length ++ x) (hx : x.length ≤ 960) :
    half c.params 0 = t ∧ pWord c 4 = x.length ∧ pVar c 8 x.length = x ∧ parse c 8 [(2, 2)] [(x.length, false)] = none := by
  have htype : half c.params 0 = t := by
    have hvalue : leAt c.params 0 2 = t.toNat := leAt_field (a := []) (by simpa [b2] using hp) rfl t.isLt
    rw [half, hvalue, BitVec.ofNat_toNat, BitVec.setWidth_eq]
  have hzero : slice c.params 2 2 = [0, 0] := slice_field (a := b2 t) (by simpa using hp) (length_leBytes 2 _) rfl
  have hlen : pWord c 4 = x.length := leAt_field (a := b2 t ++ [0, 0]) (by simpa using hp) (by simp [b2]) (by omega)
  have hdata : pVar c 8 x.length = x := slice_field (a := b2 t ++ [0, 0] ++ leBytes 4 x.length) (l := []) (by simpa using hp) (by simp [b2]) rfl
  have hcount : c.params.length = 8 + x.length := by simp [hp, b2]; omega
  have hparse : parse c 8 [(2, 2)] [(x.length, false)] = none := by
    rw [parse_variable (by omega) (by simp [hzero, allZero]), hcount, Nat.add_sub_cancel_left, parseVars_one]
  exact ⟨htype, hlen, hdata, hparse⟩

theorem runLogAppend_pass {d d' : Dev} {l : Nat} (hl : pWord c 4 = l)
    (hchecks : firstFail (preChecks d c whoPV (stateU d) (parse c 8 [(2, 2)] [(l, false)])
      (noKeyOwner c && decide ((half c.params 0).toNat ≤ 0x0FFF) && decide (1 ≤ l) && decide (l ≤ 960)) 8) = none)
    (hopen : d.evr.isOpen = true) (hcells : claimResult d c 8 = some d') :
    runLogAppend d c = logRec d' { rtype := half c.params 0, attr := BitVec.ofNat 8 (issuerCode c.issuer), payload := pVar c 8 l, after := .complete c.rid ST.ok true } := by
  subst hl
  simp only [runLogAppend, firstFail_append_none hchecks (notOpen_pass hopen), hcells]

end

/-! ### LOG_READ and LOG_STATUS -/

/-- 19 R355: a read of the PF also sets its window registers FIRST, NEXT and the window. -/
theorem runLogRead_pass {d d' : Dev} {c : Cmd} {w : Nat × Nat × Bytes} (hw : w = logWindow d'.evr (leAt c.params 0 8))
    (hchecks : firstFail (preChecks d c whoPM true (parse c 8) (noKeyOwner c) 272) = none) (hmask : maskBad c = false)
    (hopen : d.evr.isOpen = true) (hcells : claimResult d c 272 = some d') :
    runLogRead d c = finish (if c.issuer = .pf then { d' with evr := { d'.evr with first := w.1, next := w.2.1, window := Config.fit 256 w.2.2 } } else d') c.rid ST.ok
      (leBytes 8 w.1 ++ leBytes 8 w.2.1 ++ Config.fit 256 w.2.2) := by
  subst hw
  rw [runLogRead, runAtomic_pass hchecks hmask (notOpen_pass hopen) hcells]
  simp only [beq_iff_eq]

theorem runLogStatus_pass {d d' : Dev} {c : Cmd} (hchecks : firstFail (preChecks d c whoPM true (parse c 0) (noKeyOwner c) 32) = none)
    (hmask : maskBad c = false) (hopen : d.evr.isOpen = true) (hcells : claimResult d c 32 = some d') :
    runLogStatus d c = finish d' c.rid ST.ok (logStatus d') :=
  runAtomic_pass hchecks hmask (notOpen_pass hopen) hcells

/-! ### In RUN a row runs its command -/

section
variable {r : Request} {s : State} (hrun : s.glb.power = .run)
include hrun

theorem onDev_command_run (op : Nat) (run : Dev → Cmd → Dev) :
    onDev (fun d => command d op r run) s = .next (on s (run (took s op r) (asCmd s op r))) := by
  rw [exec_onDev, command_run hrun]; rfl

theorem exec_logAppend : exec (.logAppend r) s = .next (on s (runLogAppend (took s 0x0604 r) (asCmd s 0x0604 r))) := onDev_command_run hrun _ _
theorem exec_logRead : exec (.logRead r) s = .next (on s (runLogRead (took s 0x0605 r) (asCmd s 0x0605 r))) := onDev_command_run hrun _ _
theorem exec_logStatus : exec (.logStatus r) s = .next (on s (runLogStatus (took s 0x0606 r) (asCmd s 0x0606 r))) := onDev_command_run hrun _ _

end

/-! ### O14 -/

/-- Settles O14: a Logbook command of a listed issuer passes the checks of 13 R236, claims its cells and does what it says. A Logbook with no record present gives HEAD for OLDEST (log 38). -/
theorem logbookCommandsAnswer : Obligations.LogbookCommandsAnswer := by
  intro r s d hrun hkey howner hopen
  have hnames (op : Nat) : noKeyOwner (asCmd s op r) = true := by simp [noKeyOwner, asCmd, hkey, howner]
  refine ⟨?append, ?read, ?status⟩
  case append =>
    intro t x hissuer hlc ht hx1 hx hp hcap hcells
    obtain ⟨htype, hlen, hdata, hparse⟩ := logAppend_params (c := asCmd s 0x0604 r) hp hx
    have hop : 0x0604 ∈ logOpcodes := by decide
    have hstate : stateU (took s 0x0604 r) = true := by simpa [stateU, lcLocked, took] using hlc
    have hvalues : (noKeyOwner (asCmd s 0x0604 r) && decide ((half (asCmd s 0x0604 r).params 0).toNat ≤ 0x0FFF) && decide (1 ≤ x.length) && decide (x.length ≤ 960)) = true := by
      simp [hnames, htype, ht, hx1, hx]
    rw [exec_logAppend hrun, runLogAppend_pass hlen (logPreChecks_pass hop (listedPV hissuer) hstate hparse hvalues hcap) hopen hcells, htype, hdata]
    rfl
  case read =>
    intro cur hissuer hp hcap hcells
    have hop : 0x0605 ∈ logOpcodes := by decide
    have hcur : leAt (asCmd s 0x0605 r).params 0 8 = cur.toNat := leAt_field (a := []) (l := []) (by simpa [b8, asCmd] using hp) rfl cur.isLt
    have hparse : parse (asCmd s 0x0605 r) 8 = none := parse_fixedOnly ((congrArg List.length hp).trans (length_leBytes 8 _))
    rw [exec_logRead hrun, runLogRead_pass rfl (logPreChecks_pass hop (listedPM hissuer) rfl hparse (hnames _) hcap) (maskBad_logbook hop) hopen hcells, hcur]
    rfl
  case status =>
    intro hissuer hp hcap hcells
    have hop : 0x0606 ∈ logOpcodes := by decide
    have hparse : parse (asCmd s 0x0606 r) 0 = none := parse_fixedOnly (congrArg List.length hp)
    rw [exec_logStatus hrun, runLogStatus_pass (logPreChecks_pass hop (listedPM hissuer) rfl hparse (hnames _) hcap) (maskBad_logbook hop) hopen hcells]
    rfl

end Sys2Proof.Machine
end

section
/-! What every command keeps: the pools of the ledger (O3) and the byte stores (O4). -/

namespace Sys2Proof.Machine

open Sys2Proof.Safety

/-- `e` has balanced pools and canonical byte stores wherever `d` has them. -/
structure Keeps (d e : Dev) : Prop where
  ledger : ledgerOk d → ledgerOk e
  memory : memoryOk d → memoryOk e

variable {a d e : Dev}

theorem Keeps.refl (d : Dev) : Keeps d d := ⟨id, id⟩
theorem Keeps.trans (h : Keeps a d) (k : Keeps d e) : Keeps a e := ⟨k.ledger ∘ h.ledger, k.memory ∘ h.memory⟩

theorem Keeps.ite {c : Prop} [Decidable c] {x y : Dev} (hx : Keeps a x) (hy : Keeps a y) : Keeps a (if c then x else y) := by
  split
  · exact hx
  · exact hy

theorem Keeps.iteFst {β : Type} {c : Prop} [Decidable c] {x y : Dev × β} (hx : Keeps a x.1) (hy : Keeps a y.1) : Keeps a (if c then x else y).1 := by
  split
  · exact hx
  · exact hy

theorem Keeps.foldl {β : Type} {f : Dev → β → Dev} (hf : ∀ d x, Keeps a d → Keeps a (f d x)) {d : Dev} {l : List β} (h : Keeps a d) : Keeps a (l.foldl f d) := by
  induction l generalizing d with
  | nil => exact h
  | cons x l ih => exact ih (hf d x h)

/-- Whatever changes outside the ledger, SRAM, the stalls and the private store. -/
theorem Keeps.upd {now : Nat} {glb : Glb} {otp : Otp} {lc : Lc} {dbg : Dbg} {sec : Sec} {hif : Hif} {yrd : Yrd} {reqs : Tab Req} {comps : Tab Comp} {nextRid : Nat} {cls : Cls}
    {key : Key} {ps : Ps} {pke : Tab Pke} {pkeWait : List Waiting} {pkeWindow : Nat} {sym : Sym} {rng : Nat} {crd : Crd} {tmp : Tmp} {bwt : Bwt} {evr : Evr} {chn : Chn}
    {tmr : Tab Timer} {pinEdges : Tab Nat} {mgt : Mgt} {out : List Out} (h : Keeps a d) :
    Keeps a { d with now, glb, otp, lc, dbg, sec, hif, yrd, reqs, comps, nextRid, cls, key, ps, pke, pkeWait, pkeWindow, sym, rng, crd, tmp, bwt, evr, chn, tmr, pinEdges, mgt, out } :=
  ⟨fun hl => ledgerOk_congr rfl (h.ledger hl), fun hm => memoryOk_congr rfl rfl rfl (h.memory hm)⟩

/-- The same where the stalls change, but not the boards. -/
theorem Keeps.updStl {now : Nat} {glb : Glb} {otp : Otp} {lc : Lc} {dbg : Dbg} {sec : Sec} {hif : Hif} {yrd : Yrd} {reqs : Tab Req} {comps : Tab Comp} {nextRid : Nat} {cls : Cls}
    {key : Key} {ps : Ps} {pke : Tab Pke} {pkeWait : List Waiting} {pkeWindow : Nat} {sym : Sym} {rng : Nat} {crd : Crd} {tmp : Tmp} {bwt : Bwt} {evr : Evr} {chn : Chn}
    {tmr : Tab Timer} {pinEdges : Tab Nat} {mgt : Mgt} {out : List Out} {partCur partReq : Nat} {partStatus : Half} {mbPend : BitVec 64} {stalls : Tab Stall} {pfRing : Ring}
    {round : Tab Nat} {pfAt : Nat} {pfWrote : Tab Word} (h : Keeps a d) :
    Keeps a { d with now, glb, otp, lc, dbg, sec, hif, yrd, reqs, comps, nextRid, cls, key, ps, pke, pkeWait, pkeWindow, sym, rng, crd, tmp, bwt, evr, chn, tmr, pinEdges, mgt, out,
                     stl := ⟨partCur, partReq, partStatus, mbPend, stalls, pfRing, d.stl.boards, round, pfAt, pfWrote⟩ } :=
  ⟨fun hl => ledgerOk_congr rfl (h.ledger hl), fun hm => memoryOk_congr rfl rfl rfl (h.memory hm)⟩

/-- The same where the ledger's registers change, but not its pools. -/
theorem Keeps.updLdg {now : Nat} {glb : Glb} {otp : Otp} {lc : Lc} {dbg : Dbg} {sec : Sec} {hif : Hif} {yrd : Yrd} {reqs : Tab Req} {comps : Tab Comp} {nextRid : Nat} {cls : Cls}
    {key : Key} {ps : Ps} {pke : Tab Pke} {pkeWait : List Waiting} {pkeWindow : Nat} {sym : Sym} {rng : Nat} {crd : Crd} {tmp : Tmp} {bwt : Bwt} {evr : Evr} {chn : Chn}
    {tmr : Tab Timer} {pinEdges : Tab Nat} {mgt : Mgt} {out : List Out} {sample : Tab PoolSample} {sel : BitVec 3} {checks : Word} {lastInit : Byte} {initPcc : Word}
    {initAt : Option Nat} (h : Keeps a d) :
    Keeps a { d with now, glb, otp, lc, dbg, sec, hif, yrd, reqs, comps, nextRid, cls, key, ps, pke, pkeWait, pkeWindow, sym, rng, crd, tmp, bwt, evr, chn, tmr, pinEdges, mgt, out,
                     ldg := ⟨d.ldg.pools, sample, sel, checks, lastInit, initPcc, initAt⟩ } :=
  ⟨fun hl => ledgerOk_congr rfl (h.ledger hl), fun hm => memoryOk_congr rfl rfl rfl (h.memory hm)⟩

theorem Keeps.getD {o : Option Dev} (ho : ∀ e, o = some e → Keeps a e) (h : Keeps a d) : Keeps a (o.getD d) := by
  cases o with
  | none => exact h
  | some e => exact ho e rfl


/-! ### Ops -/

theorem Keeps.emit {o : Out} (h : Keeps a d) : Keeps a (emit d o) := .upd h
theorem Keeps.onPool {p : Nat} {f : Pool → Pool} (hf : ∀ x, poolOk x → poolOk (f x)) (h : Keeps a d) : Keeps a (onPool d p f) :=
  ⟨fun hl => ledgerOk_onPool hf (h.ledger hl), fun hm => memoryOk_congr rfl rfl rfl (h.memory hm)⟩
theorem Keeps.ldgIssue {p h' n : Nat} (h : Keeps a d) : Keeps a (ldgIssue d p h' n) := h.onPool fun x hx => poolOk_issue x h' n hx
theorem Keeps.ldgRetire {p h' n : Nat} (h : Keeps a d) : Keeps a (ldgRetire d p h' n) := h.onPool fun x hx => poolOk_retire x h' n hx
theorem Keeps.ldgMove {p h1 h2 n : Nat} (h : Keeps a d) : Keeps a (ldgMove d p h1 h2 n) := h.onPool fun x hx => poolOk_move x h1 h2 n hx
theorem Keeps.ldgDrain {p h' : Nat} (h : Keeps a d) : Keeps a (ldgDrain d p h') := .ldgRetire h
theorem Keeps.takeSample (h : Keeps a d) : Keeps a (takeSample d) := .updLdg h
theorem Keeps.setCfg {f : Func} {c : FuncCfg} (h : Keeps a d) : Keeps a (setCfg d f c) := .upd h
theorem Keeps.aerReport {f : Func} {a' : Aer} (h : Keeps a d) : Keeps a (aerReport d f a') := .emit <| .setCfg h
theorem Keeps.signal {f : Func} {v : Nat} (h : Keeps a d) : Keeps a (signal d f v) := .ite (.setCfg h) <| .emit h
theorem Keeps.unblock {f : Func} {v : Nat} (h : Keeps a d) : Keeps a (unblock d f v) := .ite (.emit <| .setCfg h) h
theorem Keeps.unblockAll {f : Func} (h : Keeps a d) : Keeps a (unblockAll d f) := .foldl (fun _ _ h => .unblock h) h
theorem Keeps.alert {b : Nat} (h : Keeps a d) : Keeps a (alert d b) := .ite (.emit <| .upd h) <| .upd h
theorem Keeps.raiseSecure {src : Nat} (h : Keeps a d) : Keeps a (raiseSecure d src) := .emit <| .upd h
theorem Keeps.raiseNormal {src : Nat} (h : Keeps a d) : Keeps a (raiseNormal d src) := .emit <| .upd h
theorem Keeps.logRec {r : Record} (h : Keeps a d) : Keeps a (logRec d r) := .ite (.upd h) <| .ite (.upd h) <| .ite (.upd h) <| .upd h
theorem Keeps.pme (h : Keeps a d) : Keeps a (pme d) := by
  unfold Machine.pme
  dsimp only
  refine .ite h ?_
  refine .ite (.upd h) ?_
  split
  · exact .emit <| .upd h
  · exact .upd <| .upd h
  · exact .upd h
theorem Keeps.wake {c : WakeCause} (h : Keeps a d) : Keeps a (wake d c) := by
  unfold Machine.wake
  dsimp only
  refine .ite h ?_
  refine .ite ?_ ?_
  · split
    · exact .upd h
    · exact h
  · refine .pme ?_
    refine .upd ?_
    split
    · exact .upd h
    · exact h
theorem Keeps.holdAccess {a' : HeldAccess} (h : Keeps a d) : Keeps a (holdAccess d a') := .upd <| .wake h
theorem Keeps.errC (h : Keeps a d) : Keeps a (errC d) := .signal <| .upd h
theorem Keeps.errD {block sub : Nat} {code : Half} {stallNo : Byte} {open_ aer : Bool} {rec : Option (Half × Word)} (h : Keeps a d) : Keeps a (errD d block sub code stallNo open_ aer rec) :=
  .logRec <| .ite (.aerReport <| .alert <| .signal <| .upd h) <| .alert <| .signal <| .upd h
theorem Keeps.closeD {block sub : Nat} (h : Keeps a d) : Keeps a (closeD d block sub) := .upd h
theorem Keeps.errF {code : Half} {src addr : Word} (h : Keeps a d) : Keeps a (errF d code src addr) := by
  unfold Machine.errF
  dsimp only
  refine .ite (.upd <| .logRec <| .ite (.aerReport h) h) ?_
  split
  · exact .upd <| .logRec <| .ite (.aerReport h) h
  · exact .upd <| .logRec <| .ite (.aerReport h) h
theorem Keeps.setStall {n : Nat} {s : Stall} (h : Keeps a d) : Keeps a (setStall d n s) := .updStl h
theorem Keeps.modStall {n : Nat} {f : Stall → Stall} (h : Keeps a d) : Keeps a (modStall d n f) := .setStall h
theorem Keeps.sram {m : Mem} (hm : memWf d.sram = true → memWf m = true) (h : Keeps a d) : Keeps a { d with sram := m } :=
  ⟨h.ledger, fun ha => ⟨(h.memory ha).1, hm (h.memory ha).2.1, (h.memory ha).2.2⟩⟩
theorem Keeps.boards {m : Mem} (hm : memWf d.stl.boards = true → memWf m = true) (h : Keeps a d) : Keeps a { d with stl :=
  { d.stl with boards := m } } :=
  ⟨h.ledger, fun ha => ⟨hm (h.memory ha).1, (h.memory ha).2⟩⟩
theorem Keeps.writeHeader {n : Nat} (h : Keeps a d) : Keeps a (writeHeader d n) := h.boards (memWf_memWriteBytes _ _ _)
theorem Keeps.toState {n : Nat} {st : StallSt} (h : Keeps a d) : Keeps a (toState d n st) := .ite h <| .alert <| .signal <| .writeHeader <| .modStall h
theorem Keeps.faultStall {n : Nat} (h : Keeps a d) : Keeps a (faultStall d n) := by
  unfold Machine.faultStall
  split
  · exact .toState h
  · exact .toState h
  · exact h
theorem Keeps.errT {n : Nat} {code : Half} (h : Keeps a d) : Keeps a (errT d n code) :=
  .ite (.faultStall <| .ite (.logRec <| .signal <| .signal <| .modStall h) <| .signal <| .signal <| .modStall h) <| .ite (.logRec <| .signal <|
  .signal <| .modStall h) <| .signal <| .signal <| .modStall h
theorem Keeps.errIssuer {i : Issuer} {code : Half} (h : Keeps a d) : Keeps a (errIssuer d i code) := by
  unfold Machine.errIssuer
  split
  · exact .errT h
  · exact .errC h
theorem Keeps.setRing {r : RingId} {x : Ring} (h : Keeps a d) : Keeps a (setRing d r x) := by
  unfold Machine.setRing
  dsimp only
  split
  · exact .modStall h
  · exact .updStl h
theorem Keeps.dmaIssue {f : Func} {use : DmaUse} {addr len : Nat} (he : dmaIssue d f use addr len = some e) (h : Keeps a d) : Keeps a e := by
  simp only [Machine.dmaIssue, Option.map_eq_some_iff] at he
  obtain ⟨t, -, rfl⟩ := he
  exact h.upd.ldgIssue.emit
theorem Keeps.dmaRetire {t : Nat} {e' : DmaTag} (h : Keeps a d) : Keeps a (dmaRetire d t e') := .ldgRetire <| .upd h
theorem Keeps.fenceOne {t : Nat} {e' : DmaTag} (h : Keeps a d) : Keeps a (fenceOne d t e') := .ite h <| .ldgMove <| .upd h
theorem Keeps.fenceWhere {p : DmaTag → Bool} (h : Keeps a d) : Keeps a (fenceWhere d p) := .foldl (fun _ _ h => .ite (.fenceOne h) h) h
theorem Keeps.dropFenced (h : Keeps a d) : Keeps a (dropFenced d) := .foldl (fun _ _ h => .ite (.dmaRetire h) h) h
theorem Keeps.across {i : Island} {f : Dev → Dev} (hf : ∀ d, Keeps a d → Keeps a (f d)) (h : Keeps a d) : Keeps a (across d i f) := .ite h <| hf _ h
theorem Keeps.wlogPage {fail : Bool} {n page : Nat} (h : Keeps a d) : Keeps a (wlogPage fail d n page) :=
  .ite (.errC <| .modStall h) <| .emit <| .ldgRetire <| .ldgIssue h
theorem Keeps.hostWrite {f : Func} {addr : Nat} {bytes : Bytes} {bitmapFail : Bool} (h : Keeps a d) : Keeps a (hostWrite d f addr bytes bitmapFail) := by
  unfold Machine.hostWrite
  dsimp only
  refine .ite h ?_
  split
  · exact .emit <| .ldgRetire <| .ldgIssue h
  · exact .ite (.foldl (fun _ _ h => .wlogPage h) <| .emit <| .ldgRetire <| .ldgIssue h) <| .emit <| .ldgRetire <| .ldgIssue h
theorem Keeps.claimCells {i : Issuer} {n : Nat} {e : Dev × List Nat} (he : claimCells d i n = some e) (h : Keeps a d) : Keeps a e.1 := by
  unfold Machine.claimCells at he
  split at he
  · cases he
  · simp only [Option.map_eq_some_iff] at he
    obtain ⟨r, -, rfl⟩ := he
    exact h.upd.ldgIssue
theorem Keeps.freeCells {h' : Nat} {l : List Nat} (h : Keeps a d) : Keeps a (freeCells d h' l) := .ldgRetire <| .upd h
theorem Keeps.setRecovery {n k : Nat} (h : Keeps a d) : Keeps a (setRecovery d n k) :=
  .ite (.ldgIssue <| .modStall <| .upd h) <| .ldgRetire <| .modStall <| .upd h
theorem Keeps.draw {n : Nat} (h : Keeps a d) : Keeps a (draw d n).2 := .upd h

/-! ### Link -/

theorem Keeps.sendTrain {p : Port} {ack : Bool} (h : Keeps a d) : Keeps a (sendTrain d p ack) := .emit h
theorem Keeps.setPort {p : Port} {x : PortSt} (h : Keeps a d) : Keeps a (setPort d p x) := by
  unfold Machine.setPort
  dsimp only
  split
  · exact .upd h
  · exact .upd h
theorem Keeps.sendOut {p : Port} {f : Frame} (h : Keeps a d) : Keeps a (sendOut d p f) := .emit h
theorem Keeps.holdPort {p : Port} (h : Keeps a d) : Keeps a (holdPort d p) := .ite h <| .setPort h
theorem Keeps.enqueue {p : Port} {f : Frame} {rid : Option Nat} (h : Keeps a d) : Keeps a (enqueue d p f rid) := by
  unfold Machine.enqueue
  dsimp only
  refine .ite ?_ ?_
  · refine .setPort ?_
    split
    next e0 e1 he => exact (.claimCells he (.holdPort h))
    · exact .holdPort h
  · refine .setPort ?_
    refine .ldgIssue ?_
    split
    next e0 e1 he => exact (.claimCells he (.holdPort h))
    · exact .holdPort h
theorem Keeps.drainWaiting {p : Port} (h : Keeps a d) : Keeps a (drainWaiting d p) := by
  unfold Machine.drainWaiting
  dsimp only
  split
  · exact h
  · exact .ite h <| .setPort <| .ldgIssue <| .setPort h
theorem Keeps.retireFrame {p : Port} {t : TxFrame} (h : Keeps a d) : Keeps a (retireFrame d p t) := .drainWaiting <| .ldgRetire <| .freeCells h
theorem Keeps.unicast {dest : Nat} {b : FBody} {rid : Option Nat} (he : unicast d dest b rid = some e) (h : Keeps a d) : Keeps a e := by
  unfold Machine.unicast at he
  dsimp only at he
  split at he
  · cases he
  · cases he; exact h.enqueue
theorem Keeps.broadcast {b : FBody} {rid : Option Nat} (he : broadcast d b rid = some e) (h : Keeps a d) : Keeps a e := by
  unfold Machine.broadcast at he
  dsimp only at he
  split at he
  · cases he
  · cases he; exact .foldl (fun _ _ h => h.enqueue) h
theorem Keeps.broadcastD {b : FBody} {rid : Option Nat} (h : Keeps a d) : Keeps a (broadcastD d b rid) := .getD (fun _ he => .broadcast he h) h

/-! ### Complete -/

theorem Keeps.sealResult {q : Req} {status : Half} {result : Bytes} (h : Keeps a d) : Keeps a (sealResult d q status result).2.2 := by
  unfold Machine.sealResult
  split
  · exact h
  · split
    · exact h
    · split
      · exact h
      · split
        · exact h
        · exact .upd h
theorem Keeps.setReq {rid : Nat} {q : Req} (h : Keeps a d) : Keeps a (setReq d rid q) := .upd h
theorem Keeps.delReq {rid : Nat} (h : Keeps a d) : Keeps a (delReq d rid) := .upd h
theorem Keeps.stageComp {rid : Nat} {q : Req} {c : Comp} (h : Keeps a d) : Keeps a (stageComp d rid q c) := by
  unfold Machine.stageComp
  dsimp only
  split
  · split
    next e0 e1 he => exact .upd <| .setReq <| (.claimCells he h)
    · exact .upd <| .setReq <| .setRecovery h
  · split
    next e0 e1 he => exact .upd <| .setReq <| (.claimCells he h)
    · exact .upd <| .setReq h
  · exact .upd <| .setReq h
theorem Keeps.closeConsumed {rid : Nat} (h : Keeps a d) : Keeps a (closeConsumed d rid) := by
  unfold Machine.closeConsumed
  dsimp only
  split
  · exact .ite (.upd h) h
  · exact h
theorem Keeps.of_pair {β : Type} {p : Dev × β} {b : β} (hp : p = (e, b)) (h : Keeps a p.1) : Keeps a e := by
  subst hp; exact h
theorem Keeps.finishOne {rid : Nat} {status : Half} {result : Bytes} {detail : Word} (h : Keeps a d) : Keeps a (finishOne d rid status result detail) := by
  unfold Machine.finishOne
  split
  · exact h
  · refine .ite h ?_
    extract_lets d1 q d2
    have h2 : Keeps a d2 := h.freeCells.closeConsumed
    split
    next st r d3 hs =>
    have h3 : Keeps a d3 := by
      have hr := h2.sealResult (q := q) (status := status) (result := result)
      rwa [hs] at hr
    extract_lets tag n
    split
    · exact h3.freeCells.delReq
    · exact .ite h3.freeCells.delReq h3.freeCells.delReq.emit
    · exact .foldl (fun _ _ h => .getD (fun _ he => h.unicast he) h) h3.freeCells.delReq
    · exact .ite h3.freeCells.delReq h3.setReq.stageComp
theorem Keeps.wakeNops {fuel : Nat} (h : Keeps a d) : Keeps a (wakeNops fuel d) := by
  induction fuel generalizing d with
  | zero => exact h
  | succ fuel ih =>
    unfold Machine.wakeNops
    split
    · exact h
    · exact ih h.finishOne
theorem Keeps.finish {rid : Nat} {status : Half} {result : Bytes} {detail : Word} (h : Keeps a d) : Keeps a (finish d rid status result detail) :=
  .wakeNops <| .finishOne h

/-! ### Operands -/

theorem Keeps.takeReq {op : Nat} {r : Request} (h : Keeps a d) : Keeps a (takeReq d op r).1 := .upd h
theorem Keeps.command {op : Nat} {r : Request} {run : Dev → Cmd → Dev} {failed : Nat} (hrun : ∀ d y1, Keeps a d → Keeps a (run d y1)) (h : Keeps a d) : Keeps a (command d op r run failed) := by
  unfold Machine.command
  dsimp only
  split
  · exact hrun _ _ (.takeReq h)
  · exact .holdAccess h
  · exact .holdAccess h
  · exact h
theorem Keeps.gateWith {rid : Nat} {g : Bytes} {o : Nat} (h : Keeps a d) : Keeps a (gateWith d rid g o).1 := by
  unfold Machine.gateWith
  dsimp only
  split
  · exact h
  · split
    · exact h
    · split
      · exact .upd h
      · exact .iteFst h (.iteFst h (.upd h))
theorem Keeps.quorumGate {c : Cmd} {o : Nat} (h : Keeps a d) : Keeps a (quorumGate d c o).1 := .gateWith h
theorem Keeps.quorumIf {need : Bool} {c : Cmd} {o : Nat} (h : Keeps a d) : Keeps a (quorumIf need d c o).1 := .iteFst (.quorumGate h) h
theorem Keeps.storeKey {i : Nat} {t : Byte} {u : Half} {o : Byte} {ch : Charge} {k : Bytes} (h : Keeps a d) : Keeps a (storeKey d i t u o ch k) :=
  .upd <| .upd h
theorem Keeps.loadKey {i : Issuer} {t : Byte} {u : Half} {o : Byte} {k : Bytes} {e : Word × Dev} (he : loadKey d i t u o k = some e) (h : Keeps a d) : Keeps a e.2 := by
  simp only [Machine.loadKey, Option.map_eq_some_iff] at he
  obtain ⟨s, -, rfl⟩ := he
  exact h.upd.storeKey
theorem Keeps.reserveSlot {i : Issuer} {t : Byte} {u : Half} {o : Byte} {e : Nat × Dev} (he : reserveSlot d i t u o = some e) (h : Keeps a d) : Keeps a e.2 := by
  simp only [Machine.reserveSlot, Option.map_eq_some_iff] at he
  obtain ⟨s, -, rfl⟩ := he
  exact h.upd
theorem Keeps.freeSlot {s : Nat} (h : Keeps a d) : Keeps a (freeSlot d s) := .upd h
theorem Keeps.fillSlot {s : Nat} {k : Bytes} (h : Keeps a d) : Keeps a (fillSlot d s k).2 := by
  unfold Machine.fillSlot
  dsimp only
  split
  · split
    · exact .freeSlot h
    · exact .storeKey h
  · exact h
theorem Keeps.unloadSlot {s : Nat} (h : Keeps a d) : Keeps a (unloadSlot d s) := by
  unfold Machine.unloadSlot
  dsimp only
  split
  · exact .ite (.freeSlot h) <| .upd h
  · exact h
theorem Keeps.unloadWhere {p : KSlot → Bool} (h : Keeps a d) : Keeps a (unloadWhere d p) := .foldl (fun _ _ h => .ite (.unloadSlot h) h) h
theorem Keeps.freshMask {n : Nat} {old : Bytes} (h : Keeps a d) : Keeps a (freshMask d n old).2 := by
  unfold Machine.freshMask
  split
  · exact .draw h
  · exact h
theorem Keeps.beginUse {r : KRef} (h : Keeps a d) : Keeps a (beginUse d r) := by
  unfold Machine.beginUse
  split
  · split
    · exact h.freshMask.upd
    · exact h
  · split
    · exact h.freshMask.upd
    · exact h
theorem Keeps.freeBank {b : Nat} (h : Keeps a d) : Keeps a (freeBank d b) := .upd h
theorem Keeps.unloadBank {b : Nat} (h : Keeps a d) : Keeps a (unloadBank d b) := by
  unfold Machine.unloadBank
  dsimp only
  split
  · exact .ite (.freeBank h) <| .upd h
  · exact h
theorem Keeps.endUse {s : Nat} (h : Keeps a d) : Keeps a (endUse d s) := by
  unfold Machine.endUse
  dsimp only
  refine .ite ?_ ?_
  · split
    · exact .ite (.freeBank h) <| .upd h
    · exact h
  · split
    · exact .ite (.freeSlot h) <| .upd h
    · exact h
theorem Keeps.touchKey {r : KRef} (h : Keeps a d) : Keeps a (touchKey d r) := .endUse <| .beginUse h
theorem Keeps.clearBank (h : Keeps a d) : Keeps a (clearBank d) := .foldl (fun _ _ h => .freeBank h) h
theorem Keeps.clearSlots (h : Keeps a d) : Keeps a (clearSlots d) := .upd <| .foldl (fun _ _ h => .freeSlot h) h
theorem Keeps.programZone {off : Nat} {x : Bytes} (h : Keeps a d) : Keeps a (programZone d off x) := .upd h
theorem Keeps.setOwner {o : Nat} {w : Owner} (h : Keeps a d) : Keeps a (setOwner d o w) := .upd h
theorem Keeps.saveTable (h : Keeps a d) : Keeps a (saveTable d) := .ite h <| .programZone <| .upd h
theorem Keeps.errFOpen {src : Word} (h : Keeps a d) : Keeps a (errFOpen d src) := .errF <| .upd h
theorem Keeps.maskFault (h : Keeps a d) : Keeps a (maskFault d) := .errFOpen h
theorem Keeps.claimResult {c : Cmd} {res : Nat} (he : claimResult d c res = some e) (h : Keeps a d) : Keeps a e := by
  unfold Machine.claimResult at he
  split at he
  · cases he; exact h
  · simp only [Option.map_eq_some_iff] at he
    obtain ⟨r, hr, rfl⟩ := he
    split
    · exact (h.claimCells hr).setReq
    · exact h.claimCells hr
theorem Keeps.authFailed (h : Keeps a d) : Keeps a (authFailed d) := .upd h
theorem Keeps.endNoCells {c : Cmd} (h : Keeps a d) : Keeps a (endNoCells d c) := by
  unfold Machine.endNoCells
  refine .finish ?_
  split
  · exact .errT h
  · exact h
/-- The quorum gate of a command that may need no quorum. -/
theorem Keeps.gateOr {q : Option Nat} {c : Cmd} (h : Keeps a d) : Keeps a (match q with | some o => Machine.quorumGate d c o | none => (d, none)).1 := by
  split
  · exact h.quorumGate
  · exact h
theorem Keeps.runAtomic {c : Cmd} {checks : List (Bool × Half)} {quorum : Option Nat} {resources : Dev → List (Bool × Half)} {res : Nat} {body : Dev → Dev × Half × Bytes} (hbody : ∀ d, Keeps a d → Keeps a (body d).1) (h : Keeps a d) : Keeps a (runAtomic d c checks quorum resources res body) := by
  unfold Machine.runAtomic
  split
  · exact h.finish
  · split
    next e st he => exact (Keeps.of_pair he h.gateOr).finish
    next e he =>
      have h1 : Keeps a e := .of_pair he h.gateOr
      split
      · exact h1.finish
      · split
        · exact h1.endNoCells
        next d1 hd => exact .ite (h1.claimResult hd).maskFault (hbody _ (h1.claimResult hd)).finish
theorem Keeps.runRead {c : Cmd} {checks : List (Bool × Half)} {res : Nat} {result : Dev → Bytes} (h : Keeps a d) : Keeps a (runRead d c checks res result) :=
  .runAtomic (fun _ h => h) h

/-! ### CmdInfo -/

theorem Keeps.runNop {c : Cmd} (h : Keeps a d) : Keeps a (runNop d c) := by
  unfold Machine.runNop
  split
  · exact .finish h
  · split
    · exact .finish h
    · exact .setReq h
    · exact h
theorem Keeps.runInfoDevice {c : Cmd} (h : Keeps a d) : Keeps a (runInfoDevice d c) := .runRead h
theorem Keeps.runInfoStall {c : Cmd} (h : Keeps a d) : Keeps a (runInfoStall d c) := .runRead h
theorem Keeps.runQuorumStatus {c : Cmd} (h : Keeps a d) : Keeps a (runQuorumStatus d c) := .runRead h
theorem Keeps.runLcGetState {c : Cmd} (h : Keeps a d) : Keeps a (runLcGetState d c) := .runRead h
theorem Keeps.runLedgerRead {c : Cmd} (h : Keeps a d) : Keeps a (runLedgerRead d c) := .runRead h
theorem Keeps.runChnStatus {c : Cmd} (h : Keeps a d) : Keeps a (runChnStatus d c) := .runRead h

/-! ### Keys -/

theorem Keeps.landKey {c : Cmd} {t : Byte} {u : Half} {k : Bytes} (h : Keeps a d) : Keeps a (landKey d c t u k).1 := by
  unfold Machine.landKey
  split
  next e0 e1 he => exact (.loadKey he h)
  · exact h
theorem Keeps.runKeyImport {c : Cmd} (h : Keeps a d) : Keeps a (runKeyImport d c) := by
  unfold Machine.runKeyImport
  dsimp only
  refine .runAtomic (fun _ h => ?_) h
  split
  · exact .iteFst (.landKey h) h
  · split
    · exact h
    · split
      · exact .authFailed <| .touchKey h
      · exact .iteFst (.touchKey h) (.iteFst (.landKey <| .touchKey h) (.touchKey h))
  · split
    · exact h
    · split
      · exact .authFailed h
      · exact .iteFst h (.iteFst (.landKey h) h)
theorem Keeps.runKeyLoad {c : Cmd} (h : Keeps a d) : Keeps a (runKeyLoad d c) := by
  unfold Machine.runKeyLoad
  dsimp only
  refine .runAtomic (fun _ h => ?_) h
  split
  · exact h
  next e0 e1 he =>
    split
    · exact .freeSlot <| (.reserveSlot he h)
    · exact .fillSlot <| (.reserveSlot he h)
theorem Keeps.runKeyWrap {c : Cmd} (h : Keeps a d) : Keeps a (runKeyWrap d c) := by
  unfold Machine.runKeyWrap
  dsimp only
  refine .runAtomic (fun _ h => ?_) h
  split
  · exact .upd <| .saveTable <| .upd <| .touchKey h
  · exact h
theorem Keeps.dropRef {r : KRef} {h' : Word} (h : Keeps a d) : Keeps a (dropRef d r h') := by
  unfold Machine.dropRef
  dsimp only
  split
  · exact .unloadBank h
  · exact .ite (.broadcastD <| .unloadSlot h) <| .unloadSlot h
theorem Keeps.runKeyUnload {c : Cmd} (h : Keeps a d) : Keeps a (runKeyUnload d c) := by
  unfold Machine.runKeyUnload
  refine .runAtomic (fun _ h => ?_) h
  split
  · exact .dropRef h
  · exact h
theorem Keeps.setUsage {r : KRef} {u : Half} (h : Keeps a d) : Keeps a (setUsage d r u) := by
  unfold Machine.setUsage
  dsimp only
  split
  · split
    · exact .upd h
    · exact h
  · split
    · exact .upd h
    · exact h
theorem Keeps.runKeySetUsage {c : Cmd} (h : Keeps a d) : Keeps a (runKeySetUsage d c) := by
  unfold Machine.runKeySetUsage
  dsimp only
  refine .runAtomic (fun _ h => ?_) h
  split
  · exact .setUsage h
  · exact h
theorem Keeps.runKeyExport {c : Cmd} (h : Keeps a d) : Keeps a (runKeyExport d c) := by
  unfold Machine.runKeyExport
  dsimp only
  refine .runAtomic (fun _ h => ?_) h
  split
  · exact .touchKey h
  · exact h
theorem Keeps.runKeyAonPut {c : Cmd} (h : Keeps a d) : Keeps a (runKeyAonPut d c) := by
  unfold Machine.runKeyAonPut
  dsimp only
  refine .runAtomic (fun _ h => ?_) h
  split
  · exact .upd <| .upd <| .touchKey h
  · exact h
theorem Keeps.runKeyInfo {c : Cmd} (h : Keeps a d) : Keeps a (runKeyInfo d c) := .runRead h

/-! ### PublicKey -/

theorem Keeps.withKey {c : Cmd} {h' : Word} {op : Byte → Bytes → PkeOp} (h : Keeps a d) : Keeps a (withKey d c h' op).1 := by
  unfold Machine.withKey
  split
  · exact h.beginUse
  · exact h
theorem Keeps.reservedOr {i : Issuer} {t : Byte} {u : Half} {o : Byte} (h : Keeps a d) :
    Keeps a (match Machine.reserveSlot d i t u o with | some (s, d) => (s, d) | none => (0, d)).2 := by
  split
  next s e he => exact h.reserveSlot he
  · exact h
theorem Keeps.pkBuild {d' : Dev} {c : Cmd} (h : Keeps a d) : Keeps a ((pkPlan d' c).build d).1 := by
  have generate : Keeps a ((planGenerate d' c).build d).1 := by
    unfold planGenerate
    dsimp only
    split
    next s e he => exact h.draw.reserveSlot he
    · exact h.draw (n := 64)
  have verify : Keeps a ((planVerify d' c).build d).1 := by
    unfold planVerify
    dsimp only
    split
    · exact h.withKey
    · exact h
  have encaps : Keeps a ((planEncaps d' c).build d).1 := by
    unfold planEncaps
    dsimp only
    split
    · exact (h.draw (n := 32)).reservedOr.withKey
    · exact (h.draw (n := 32)).reservedOr
  unfold Machine.pkPlan
  split
  · exact generate
  · split
    · exact h.withKey
    · split
      · exact (h.draw (n := 64)).withKey
      · split
        · exact verify
        · split
          · exact encaps
          · split
            · exact h.reservedOr.withKey
            · split
              · exact h.reservedOr.withKey
              · exact h
theorem Keeps.endWith {c : Cmd} {st : Half} (h : Keeps a d) : Keeps a (endWith d c st) := .ite (.endNoCells h) <| .finish h
theorem Keeps.pkTry {d' : Dev} {c : Cmd} {serve : Bool} (h : Keeps a d) : Keeps a (pkTry d c (pkPlan d' c) serve).1 := by
  unfold Machine.pkTry
  split
  · exact h
  · split
    next e st he => exact .of_pair he h.gateOr
    next e he =>
      have h1 : Keeps a e := .of_pair he h.gateOr
      split
      · exact h1
      · split
        · exact h1
        next d1 hd =>
          split
          · exact (h1.claimResult hd).pkBuild
          · exact h1.claimResult hd
theorem Keeps.runPk {c : Cmd} (h : Keeps a d) : Keeps a (runPk d c) := by
  unfold Machine.runPk
  dsimp only
  split
  · exact h.finish
  · refine .ite h.upd ?_
    split
    next e st he => exact (Keeps.of_pair he h.pkTry).endWith
    · exact h.upd
theorem Keeps.runKeyGenerate {c : Cmd} (h : Keeps a d) : Keeps a (runKeyGenerate d c) :=
  .ite (.runPk h) <| .runAtomic (fun _ h => .landKey <| .upd h) h
theorem Keeps.runKeyPublic {c : Cmd} (h : Keeps a d) : Keeps a (runKeyPublic d c) := by
  unfold Machine.runKeyPublic
  dsimp only
  refine .ite (.runPk h) ?_
  refine .runAtomic (fun _ h => ?_) h
  split
  · exact .touchKey h
  · exact h

/-! ### Symmetric -/

theorem Keeps.chargeLane {l n cycles : Nat} (h : Keeps a d) : Keeps a (chargeLane d l n cycles) := .ite h <| .upd h
theorem Keeps.setLanes {t : Tab LaneJob} (h : Keeps a d) : Keeps a (setLanes d t) := .upd h
theorem Keeps.laneKey {c : Cmd} {h' : Word} (h : Keeps a d) : Keeps a (laneKey d c h').1 := by
  unfold Machine.laneKey
  split
  · exact h.beginUse
  · exact h
theorem Keeps.symBuild {d' : Dev} {c : Cmd} (h : Keeps a d) : Keeps a ((symPlan d' c).build d).1 := by
  have cipher : Keeps a ((planCipher d' c).build d).1 := by
    unfold planCipher
    dsimp only
    split
    · exact h.laneKey.laneKey
    · exact h.laneKey
  unfold Machine.symPlan
  split
  · exact cipher
  · split
    · exact h.laneKey
    · split
      · exact h
      · split
        · exact h.laneKey.reservedOr
        · split
          · exact h.laneKey
          · exact h
theorem Keeps.runSym {c : Cmd} (h : Keeps a d) : Keeps a (runSym d c) := by
  unfold Machine.runSym
  dsimp only
  split
  · exact h.finish
  · split
    next e st he => exact (Keeps.of_pair he h.gateOr).finish
    next e he =>
      have h1 : Keeps a e := .of_pair he h.gateOr
      split
      · exact h1.finish
      · split
        · exact h1.endNoCells
        next d1 hd =>
          have h2 := h1.claimResult hd
          refine .ite h2.maskFault ?_
          split
          · exact h2.finish
          · exact h2.upd.symBuild.setLanes
theorem Keeps.symStart {c : Cmd} (h : Keeps a d) : Keeps a (symStart d c) := .ite (.upd h) <| .runSym h
theorem Keeps.dropReserved {s : Nat} (h : Keeps a d) : Keeps a (dropReserved d s) := by
  unfold Machine.dropReserved
  split
  · exact .ite (.freeSlot h) h
  · exact h
theorem Keeps.laneResult {j : LaneJob} (h : Keeps a d) : Keeps a (laneResult d j).1 := by
  unfold Machine.laneResult
  split
  next =>
    split
    · split
      · exact h
      · split
        · exact h
        · exact h.authFailed
    · exact h
  next => exact h
  next => exact h
  next => exact h
  next =>
    split
    · exact h.dropReserved
    · exact h.fillSlot
  next n _ =>
    split
    · exact h
    · exact h.draw (n := n)
  next =>
    split
    · exact h
    · split
      · exact h
      · exact h.authFailed
  next => exact h
theorem Keeps.laneDone {l : Nat} (h : Keeps a d) : Keeps a (laneDone d l) := by
  unfold Machine.laneDone
  split
  · exact h
  · exact (Keeps.foldl (fun _ _ h => h.endUse) h.setLanes.chargeLane.laneResult).finish
theorem Keeps.laneAbort {l : Nat} {st : Half} (h : Keeps a d) : Keeps a (laneAbort d l st) := by
  unfold Machine.laneAbort
  dsimp only
  split
  · exact h
  · refine .finish ?_
    refine .foldl (fun _ _ h => .endUse h) ?_
    split
    · exact .dropReserved <| .chargeLane <| .setLanes h
    · exact .chargeLane <| .setLanes h
theorem Keeps.rngFail {cause : RngCause} (h : Keeps a d) : Keeps a (rngFail d cause) := .logRec <| .errD <| .upd h
theorem Keeps.instantiate (h : Keeps a d) : Keeps a (instantiate d) := .upd h
theorem Keeps.reseed (h : Keeps a d) : Keeps a (reseed d) := .ite (.upd h) h

/-! ### OwnerCmd -/

theorem Keeps.runOwnerCreate {c : Cmd} (h : Keeps a d) : Keeps a (runOwnerCreate d c) := by
  unfold Machine.runOwnerCreate
  exact .runAtomic (fun _ h => h.reseed.draw.draw.setOwner.saveTable) h
theorem Keeps.deleteOwner {o : Nat} (h : Keeps a d) : Keeps a (deleteOwner d o) :=
  .saveTable <| .upd <| .foldl (fun _ _ h => .ite (.unloadBank h) h) <| .unloadWhere h
theorem Keeps.runOwnerDelete {c : Cmd} (h : Keeps a d) : Keeps a (runOwnerDelete d c) := by
  unfold Machine.runOwnerDelete
  refine .ite ?_ (h.runAtomic fun _ h => h.deleteOwner)
  split
  · exact h.finish
  · split
    next e st he => exact (Keeps.of_pair he h.quorumGate).finish
    next e he => exact (Keeps.of_pair he h.quorumGate).logRec
theorem Keeps.runOwnerBind {c : Cmd} (h : Keeps a d) : Keeps a (runOwnerBind d c) := by
  unfold Machine.runOwnerBind
  dsimp only
  refine .runAtomic (fun _ h => ?_) h
  split
  · exact .saveTable <| .setOwner h
  · exact h
theorem Keeps.runOwnerUnbind {c : Cmd} (h : Keeps a d) : Keeps a (runOwnerUnbind d c) := by
  unfold Machine.runOwnerUnbind
  dsimp only
  refine .runAtomic (fun _ h => ?_) h
  split
  · exact .saveTable <| .unloadWhere <| .setOwner h
  · exact h
theorem Keeps.runOwnerSetPolicy {c : Cmd} (h : Keeps a d) : Keeps a (runOwnerSetPolicy d c) := by
  unfold Machine.runOwnerSetPolicy
  dsimp only
  refine .runAtomic (fun _ h => ?_) h
  split
  · exact h
  · exact .iteFst (.saveTable <| .setOwner <| .upd h) (.saveTable <| .setOwner h)
theorem Keeps.closeSession {sub : Half} (h : Keeps a d) : Keeps a (closeSession d sub) := by
  unfold Machine.closeSession
  dsimp only
  split
  · exact h
  · exact .signal <| .logRec <| .upd h
theorem Keeps.runQuorumCancel {c : Cmd} (h : Keeps a d) : Keeps a (runQuorumCancel d c) := .runAtomic (fun _ h => .closeSession h) h
theorem Keeps.dropIssue {o : Nat} (h : Keeps a d) : Keeps a (dropIssue d o) := .upd h
theorem Keeps.lapseEnrolment {o : Nat} (h : Keeps a d) : Keeps a (lapseEnrolment d o) := by
  unfold Machine.lapseEnrolment
  dsimp only
  split
  · exact h
  · split
    · exact h
    · exact .ite (.deleteOwner <| .logRec <| .dropIssue h) <| .saveTable <| .setOwner <| .logRec <| .dropIssue h

/-! ### LogStore -/

theorem Keeps.appendRec {r : Record} {b : Bytes} (h : Keeps a d) : Keeps a (appendRec d r b) :=
  .ite (.modStall <| .ite (.alert <| .signal <| .upd h) <| .upd h) <| .ite (.alert <| .signal <| .upd h) <| .upd h
theorem Keeps.dropUse {l : List LogRec} (h : Keeps a d) : Keeps a (dropUse d l) := .foldl (fun _ _ h => .ite (.modStall h) h) h
theorem Keeps.programRec {place : Nat} {b : Bytes} (h : Keeps a d) : Keeps a (programRec d place b) := .ite h <| .programZone h
theorem Keeps.takeRoom {len : Nat} (he : takeRoom d len = some e) (h : Keeps a d) : Keeps a e := by
  simp only [Machine.takeRoom, Option.map_eq_some_iff] at he
  obtain ⟨p, -, rfl⟩ := he
  exact .ite h h.upd.dropUse.programRec.appendRec
theorem Keeps.forgetUse {n : Nat} (h : Keeps a d) : Keeps a (forgetUse d n) := by
  unfold Machine.forgetUse
  exact .modStall <| .upd h
theorem Keeps.runLogRead {c : Cmd} (h : Keeps a d) : Keeps a (runLogRead d c) := by
  unfold Machine.runLogRead
  exact .runAtomic (fun _ h => .ite (.upd h) h) h
theorem Keeps.runLogStatus {c : Cmd} (h : Keeps a d) : Keeps a (runLogStatus d c) := .runAtomic (fun _ h => h) h
theorem Keeps.runLogAppend {c : Cmd} (h : Keeps a d) : Keeps a (runLogAppend d c) := by
  unfold Machine.runLogAppend
  dsimp only
  split
  · exact .finish h
  · split
    · exact .endNoCells h
    next e0 he => exact .logRec <| (.claimResult he h)

/-! ### EngineCore -/

theorem Keeps.setEng {e' : Nat} {p : Pke} (h : Keeps a d) : Keeps a (setEng d e' p) := .upd h
theorem Keeps.clearEngine {e' : Nat} (h : Keeps a d) : Keeps a (clearEngine d e') := .setEng h
theorem Keeps.engIrq {e' : Nat} (h : Keeps a d) : Keeps a (engIrq d e') := .ite (.raiseSecure h) <| .raiseNormal h
theorem Keeps.readbackFault {e' : Nat} (h : Keeps a d) : Keeps a (readbackFault d e') := .errF h
theorem Keeps.tapReport {st : Half} {bytes : Bytes} (h : Keeps a d) : Keeps a (tapReport d st bytes) := .emit <| .upd h
theorem Keeps.dropExchange {b : Bool} {i : Nat} (h : Keeps a d) : Keeps a (dropExchange d b i) := .ite (.upd h) <| .upd h
theorem Keeps.cutSecure {o : PkeOp} (h : Keeps a d) : Keeps a (cutSecure d o) := by
  unfold Machine.cutSecure
  dsimp only
  split
  · exact .ite (.tapReport <| .upd h) <| .upd h
  · exact .dropExchange h
  · exact .dropExchange h
  · exact .upd h
  · exact h
theorem Keeps.dropOp {o : PkeOp} (h : Keeps a d) : Keeps a (dropOp d o) := by
  unfold Machine.dropOp
  dsimp only
  split
  · refine .finish ?_
    refine .cutSecure ?_
    split
    · refine .endUse ?_
      split
      · exact .dropReserved h
      · exact h
    · split
      · exact .dropReserved h
      · exact h
  · refine .cutSecure ?_
    split
    · refine .endUse ?_
      split
      · exact .dropReserved h
      · exact h
    · split
      · exact .dropReserved h
      · exact h
theorem Keeps.startAbort {e' : Nat} (h : Keeps a d) : Keeps a (startAbort d e') := by
  unfold Machine.startAbort
  dsimp only
  split
  · exact .setEng h
  · exact .setEng h
theorem Keeps.finishAbort {e' : Nat} {zeroed : Bool} (h : Keeps a d) : Keeps a (finishAbort d e' zeroed) := by
  unfold Machine.finishAbort
  dsimp only
  refine .ite h ?_
  refine .ite ?_ ?_
  · split
    · exact .dropOp <| .engIrq <| .ldgDrain <| .setEng h
    · exact .engIrq <| .ldgDrain <| .setEng h
  · refine .readbackFault ?_
    split
    · exact .dropOp <| .engIrq <| .ldgDrain <| .setEng h
    · exact .engIrq <| .ldgDrain <| .setEng h
theorem Keeps.stopEngine {e' : Nat} (h : Keeps a d) : Keeps a (stopEngine d e') := .ite (.clearEngine h) <| .finishAbort <| .startAbort h
theorem Keeps.stopEngines (h : Keeps a d) : Keeps a (stopEngines d) := .foldl (fun _ _ h => .stopEngine h) h
theorem Keeps.unloadRoot (h : Keeps a d) : Keeps a (unloadRoot d) := .upd h
theorem Keeps.loadRoot (h : Keeps a d) : Keeps a (loadRoot d) := .ite (.upd h) <| .ite (.upd h) <| .upd h
theorem Keeps.clearCarried (h : Keeps a d) : Keeps a (clearCarried d) := by
  unfold Machine.clearCarried
  dsimp only
  split
  · exact .ite (.upd h) h
  · exact h
theorem Keeps.openTable {sealOk : Bool} (h : Keeps a d) : Keeps a (openTable d sealOk) := by
  unfold Machine.openTable
  dsimp only
  split
  · exact .upd h
  · refine .ite (.upd h) ?_
    split
    · exact .upd h
    · exact .logRec <| .upd h

/-! ### LifeCycle -/

theorem Keeps.adoptDecode (h : Keeps a d) : Keeps a (adoptDecode d) := .upd h
theorem Keeps.setIntent {k : Nat} {v : Half} (h : Keeps a d) : Keeps a (setIntent d k v) := .upd h
theorem Keeps.setHalf {h' : Nat} {v : Half} (h : Keeps a d) : Keeps a (setHalf d h' v) := .upd h
theorem Keeps.setRootRec {k : Nat} {r : RootRec} (h : Keeps a d) : Keeps a (setRootRec d k r) := .upd h
theorem Keeps.program {w : OtpWrite} (h : Keeps a d) : Keeps a (program d w) := by
  unfold Machine.program
  dsimp only
  split
  · exact .setIntent h
  · exact .setHalf h
  · exact .setRootRec h
theorem Keeps.markWord {r i : Nat} {short : Bool} (h : Keeps a d) : Keeps a (markWord d r i short) := .setRootRec h
theorem Keeps.programPartly {w : OtpWrite} (h : Keeps a d) : Keeps a (programPartly d w) := by
  unfold Machine.programPartly
  dsimp only
  refine .upd ?_
  split
  · exact .setIntent h
  · exact .setHalf h
  · exact .markWord h
theorem Keeps.programCut {w : OtpWrite} (h : Keeps a d) : Keeps a (programCut d w) := by
  unfold Machine.programCut
  dsimp only
  refine .upd ?_
  split
  · exact .setIntent h
  · exact .setHalf h
  · exact .markWord h
theorem Keeps.cutTransition (h : Keeps a d) : Keeps a (cutTransition d) := by
  unfold Machine.cutTransition
  dsimp only
  split
  · exact h
  · refine .upd ?_
    split
    · exact .programCut h
    · exact h
theorem Keeps.beginTransition {rid : Nat} {target : Byte} {writes : List OtpWrite} (h : Keeps a d) : Keeps a (beginTransition d rid target writes) :=
  .logRec <| .upd h
theorem Keeps.runLcTransition {c : Cmd} (h : Keeps a d) : Keeps a (runLcTransition d c) := by
  unfold Machine.runLcTransition
  dsimp only
  split
  · exact h.finish
  · split
    next e st he => exact (Keeps.of_pair he h.quorumIf).finish
    next e he =>
      have h1 := Keeps.of_pair he h.quorumIf
      split
      · exact h1.finish
      · exact h1.beginTransition
theorem Keeps.runLcResume {c : Cmd} (h : Keeps a d) : Keeps a (runLcResume d c) := by
  unfold Machine.runLcResume
  dsimp only
  split
  · exact .finish h
  · exact .beginTransition h
theorem Keeps.endGrant (h : Keeps a d) : Keeps a (endGrant d) := .ite (.logRec <| .ldgDrain <| .upd h) <| .ldgDrain <| .upd h
theorem Keeps.carryOwners {target : Byte} (h : Keeps a d) : Keeps a (carryOwners d target) :=
  .ite (.ite (.openTable h) <| .upd <| .openTable h) <| .upd h
theorem Keeps.endTransition {j : LcJob} {failed : Bool} (h : Keeps a d) : Keeps a (endTransition d j failed) :=
  .ite (.logRec <| .upd <| .ite (.endGrant <| .unloadRoot <| .adoptDecode h) <| .adoptDecode h) <| .ite (.logRec <| .endGrant <| .unloadRoot <|
  .upd <| .adoptDecode h) <| .logRec <| .carryOwners <| .loadRoot <| .upd <| .endGrant <| .clearBank <| .clearSlots <| .adoptDecode h
theorem Keeps.advance {j : LcJob} (h : Keeps a d) : Keeps a (advance d j) := by
  unfold Machine.advance
  dsimp only
  split
  · exact .endTransition h
  · exact .upd h
theorem Keeps.lcStart (h : Keeps a d) : Keeps a (lcStart d) := by
  unfold Machine.lcStart
  dsimp only
  split
  · exact h
  · exact .advance <| .upd <| .ite (.programZone <| .upd h) h
theorem Keeps.lcDone {rid : Nat} (h : Keeps a d) : Keeps a (lcDone d rid) := .finish <| .upd h
theorem Keeps.otpWordDone {ok : Bool} (h : Keeps a d) : Keeps a (otpWordDone d ok) := by
  unfold Machine.otpWordDone
  dsimp only
  split
  · exact h
  · split
    · exact .ite (.advance <| .program h) <| .ite (.upd <| .programPartly h) <| .endTransition <| .programPartly h
    · exact h
theorem Keeps.endToken {st : Half} (h : Keeps a d) : Keeps a (endToken d st) := .tapReport <| .ldgDrain <| .upd h
theorem Keeps.presentToken {token : Bytes} {i n : Nat} (h : Keeps a d) : Keeps a (presentToken d token i n) := by
  unfold Machine.presentToken
  dsimp only
  refine .ite h ?_
  refine .ite (.tapReport h) ?_
  refine .ite (.tapReport h) ?_
  split
  · exact .endToken <| .ldgIssue h
  · exact .upd <| .ldgIssue h
theorem Keeps.failToken {st : Half} (h : Keeps a d) : Keeps a (failToken d st) := .endToken <| .upd h
theorem Keeps.enterTest (h : Keeps a d) : Keeps a (enterTest d) := by
  unfold Machine.enterTest
  dsimp only
  split
  · exact h
  · split
    · exact .endToken h
    · exact .endToken <| .upd <| .unloadRoot <| .stopEngines <| .clearBank <| .clearSlots <| .upd h
theorem Keeps.logThen {r : Record} {act : Dev → Dev} (hact : ∀ d, Keeps a d → Keeps a (act d)) (h : Keeps a d) : Keeps a (logThen d r act) :=
  .ite (.logRec h) <| hact _ (.logRec h)
theorem Keeps.tokenDone (h : Keeps a d) : Keeps a (tokenDone d) := by
  unfold Machine.tokenDone
  dsimp only
  split
  · exact h
  · refine .ite h ?_
    split
    · exact .endToken h
    · split
      · exact .failToken h
      · exact .logThen (fun _ h => .enterTest h) <| .upd h
theorem Keeps.cutToken (h : Keeps a d) : Keeps a (cutToken d) := by
  unfold Machine.cutToken
  dsimp only
  split
  · exact h
  · exact .upd h

/-! ### Debug -/

theorem Keeps.newChallenge (h : Keeps a d) : Keeps a (newChallenge d).2 := .upd <| .upd h
theorem Keeps.runDbgChallenge {c : Cmd} (h : Keeps a d) : Keeps a (runDbgChallenge d c) := .runAtomic (fun _ h => .newChallenge h) h
theorem Keeps.tapChallenge (h : Keeps a d) : Keeps a (tapChallenge d) := by
  unfold Machine.tapChallenge
  dsimp only
  refine .ite h ?_
  split
  · exact .tapReport h
  · exact .tapReport <| .newChallenge h
theorem Keeps.endResponse {rid : Option Nat} {st : Half} (h : Keeps a d) : Keeps a (endResponse d rid st) := by
  unfold Machine.endResponse
  dsimp only
  split
  · exact .finish <| .upd h
  · exact .tapReport <| .upd h
theorem Keeps.refuseResponse {rid : Option Nat} {st : Half} (h : Keeps a d) : Keeps a (refuseResponse d rid st) := by
  unfold Machine.refuseResponse
  split
  · exact .finish h
  · exact .tapReport h
theorem Keeps.respond {rid : Option Nat} {b : Bytes} (h : Keeps a d) : Keeps a (respond d rid b) := by
  unfold Machine.respond
  dsimp only
  split
  · exact .refuseResponse <| .upd h
  · refine .ite (.refuseResponse h) ?_
    split
    · exact .endResponse h
    · exact .upd h
theorem Keeps.runDbgResponse {c : Cmd} (h : Keeps a d) : Keeps a (runDbgResponse d c) := by
  unfold Machine.runDbgResponse
  split
  · exact .finish h
  · exact .respond h
theorem Keeps.tapResponse {b : Bytes} (h : Keeps a d) : Keeps a (tapResponse d b) := .ite h <| .ite (.tapReport h) <| .respond h
theorem Keeps.lockForGrant (h : Keeps a d) : Keeps a (lockForGrant d) := .unloadRoot <| .clearBank <| .clearSlots <| .upd h
theorem Keeps.makeGrant {rid : Option Nat} {b : Bytes} (h : Keeps a d) : Keeps a (makeGrant d rid b) := by
  unfold Machine.makeGrant
  dsimp only
  split
  · exact .endResponse h
  · exact .endResponse <| .ite (.logRec <| .upd <| .ldgIssue <| .upd <| .ite (.lockForGrant h) h) <| .ldgIssue <| .upd <| .ite (.lockForGrant h) h
theorem Keeps.certChecked {rid : Option Nat} {b : Bytes} (h : Keeps a d) : Keeps a (certChecked d rid b) := by
  unfold Machine.certChecked
  split
  · exact .endResponse h
  · split
    · exact .endResponse h
    · exact .logThen (fun _ h => .makeGrant h) h
theorem Keeps.scanEntry {island : Nat} (h : Keeps a d) : Keeps a (scanEntry d island) :=
  .ite h <| .ite (.tapReport h) <| .ite (.tapReport h) <| .ite (.tapReport h) <| .ite (.tapReport h) <| .ite (.tapReport h) <| .tapReport <|
  .upd <| .stopEngines <| .lockForGrant h
theorem Keeps.setInstr {i : TapInstr} (h : Keeps a d) : Keeps a (setInstr d i) := .upd h
theorem Keeps.tapBypass (h : Keeps a d) : Keeps a (tapBypass d) := .ite (.tapReport <| .setInstr h) h
theorem Keeps.tapIdcode (h : Keeps a d) : Keeps a (tapIdcode d) := .ite (.tapReport <| .setInstr h) h
theorem Keeps.tapSample (h : Keeps a d) : Keeps a (tapSample d) :=
  .ite h <| .ite (.tapReport h) <| .ite (.tapReport h) <| .tapReport <| .upd <| .setInstr h

/-! ### BootWitness -/

theorem Keeps.setRegion {i : Nat} {r : RegionSt} (h : Keeps a d) : Keeps a (setRegion d i r) := .upd h
theorem Keeps.setJournal {j : Journal} (h : Keeps a d) : Keeps a (setJournal d j) := .upd h
theorem Keeps.pulledUp {n : Nat} (h : Keeps a d) : Keeps a (pulledUp d n) := .ite (.emit h) h
theorem Keeps.csFall (h : Keeps a d) : Keeps a (csFall d) := .ite h <| .wake h
theorem Keeps.refuseFlash {op : Byte} (h : Keeps a d) : Keeps a (refuseFlash d op) :=
  .ite (.emit <| .upd h) <| .logRec <| .setJournal <| .emit <| .upd h
theorem Keeps.blockWrite {op : Byte} (h : Keeps a d) : Keeps a (blockWrite d op) := .refuseFlash <| .setJournal <| .upd h
theorem Keeps.passWrite {op : Byte} {hit : ManRegion → Bool} (h : Keeps a d) : Keeps a (passWrite d op hit) :=
  .emit <| .foldl (fun _ _ h => .ite (.setRegion h) h) <| .setJournal h
theorem Keeps.hostFlash {op : Byte} (h : Keeps a d) : Keeps a (hostFlash d op) :=
  .ite (.ite h <| .pulledUp h) <| .ite (.emit h) <| .ite (.emit h) <| .ite (.emit h) <| .ite (.emit h) <| .ite (.emit h) <| .ite (.emit <|
  .upd h) <| .ite (.ite (.blockWrite h) <| .passWrite h) <| .refuseFlash h
theorem Keeps.hostWriteFlash {op : Byte} {addr len : Nat} (h : Keeps a d) : Keeps a (hostWriteFlash d op addr len) :=
  .ite h <| .ite (.hostFlash h) <| .ite (.blockWrite h) <| .passWrite h
theorem Keeps.witnessPart {r : ManRegion} {i addr : Nat} {bytes : Bytes} (h : Keeps a d) : Keeps a (witnessPart d r i addr bytes) :=
  .ite (.setRegion h) <| .ite (.setRegion h) <| .setRegion h
theorem Keeps.openJournal (h : Keeps a d) : Keeps a (openJournal d) := .ite h <| .setJournal h
theorem Keeps.witness {addr : Nat} {bytes : Bytes} (h : Keeps a d) : Keeps a (witness d addr bytes) :=
  .foldl (fun _ _ h => .ite (.witnessPart h) h) <| .setJournal <| .openJournal h
theorem Keeps.markHeld {addr n : Nat} (h : Keeps a d) : Keeps a (markHeld d addr n) := .foldl (fun _ _ h => .ite (.setRegion h) h) h
theorem Keeps.arrayRead {addr : Nat} {flash : Bytes} (h : Keeps a d) : Keeps a (arrayRead d addr flash) :=
  .ite (.pulledUp h) <| .ite (.emit <| .ite h <| .upd h) <| .emit <| .witness <| .ite (.upd <| .markHeld h) <| .ite (.upd h) h
theorem Keeps.hostRead {r : FlashRead} (h : Keeps a d) : Keeps a (hostRead d r) := .ite (.hostFlash h) <| .arrayRead h
theorem Keeps.gateVerified {i : Nat} {content : Bytes} (h : Keeps a d) : Keeps a (gateVerified d i content) := by
  unfold Machine.gateVerified
  dsimp only
  split
  · exact h
  · exact .ite h <| .ite (.setRegion h) <| .logRec <| .alert <| .signal <| .setRegion h
theorem Keeps.gateReverify {i : Nat} (h : Keeps a d) : Keeps a (gateReverify d i) := by
  unfold Machine.gateReverify
  dsimp only
  split
  · exact h
  · exact .ite (.setRegion h) h
theorem Keeps.forceManifest {m : Option Manifest} (h : Keeps a d) : Keeps a (forceManifest d m) := .upd h
theorem Keeps.runBwLoadManifest {c : Cmd} (h : Keeps a d) : Keeps a (runBwLoadManifest d c) := by
  unfold Machine.runBwLoadManifest
  dsimp only
  refine .runAtomic (fun _ h => ?_) h
  split
  · exact h
  · exact .iteFst (.touchKey h) (.ite (.forceManifest <| .programZone <| .upd <| .touchKey h) <| .programZone <| .upd <| .touchKey h)
theorem Keeps.boundary (h : Keeps a d) : Keeps a (boundary d) := .forceManifest <| .upd h
theorem Keeps.startSeal {s : Seal} (h : Keeps a d) : Keeps a (startSeal d s) :=
  .ite (.ite (.broadcastD <| .upd h) <| .ite (.logRec <| .upd h) <| .upd h) <| .upd <| .ite (.broadcastD <| .upd h) <| .ite (.logRec <| .upd h) <|
  .upd h
theorem Keeps.storeSeal {s : Seal} (h : Keeps a d) : Keeps a (storeSeal d s) :=
  .foldl (fun _ _ h => .logRec h) <| .logRec <| .upd <| .ite (.upd h) <| .programZone h
theorem Keeps.advanceSeal {s : Seal} (h : Keeps a d) : Keeps a (advanceSeal d s) := .ite (.storeSeal <| .upd h) <| .upd h
theorem Keeps.sealNow {rid : Option Nat} {trigger : Byte} {cosign : Bool} (h : Keeps a d) : Keeps a (sealNow d rid trigger cosign) := by
  unfold Machine.sealNow
  dsimp only
  refine .ite (.upd <| .boundary h) ?_
  split
  · exact .ite (.storeSeal <| .startSeal <| .upd <| .boundary h) <| .startSeal <| .upd <| .boundary h
  · exact .startSeal <| .upd <| .boundary h
theorem Keeps.sealDone {rid : Option Nat} {st : Half} {digest : Bytes} (h : Keeps a d) : Keeps a (sealDone d rid st digest) := by
  unfold Machine.sealDone
  dsimp only
  split
  · split
    · exact .finish <| .alert <| .signal <| .upd h
    · exact .alert <| .signal <| .upd h
  · split
    · refine .ite ?_ ?_
      · refine .storeSeal ?_
        refine .startSeal ?_
        refine .upd ?_
        split
        · exact .finish <| .alert <| .signal <| .upd h
        · exact .alert <| .signal <| .upd h
      · refine .startSeal ?_
        refine .upd ?_
        split
        · exact .finish <| .alert <| .signal <| .upd h
        · exact .alert <| .signal <| .upd h
    · refine .startSeal ?_
      refine .upd ?_
      split
      · exact .finish <| .alert <| .signal <| .upd h
      · exact .alert <| .signal <| .upd h
theorem Keeps.sealSigned {rnd : Bytes} (h : Keeps a d) : Keeps a (sealSigned d rnd) := by
  unfold Machine.sealSigned
  split
  · exact h
  · exact .ite (.advanceSeal h) <| .advanceSeal h
theorem Keeps.runBwSeal {c : Cmd} (h : Keeps a d) : Keeps a (runBwSeal d c) := by
  unfold Machine.runBwSeal
  dsimp only
  split
  · exact .finish h
  · split
    · exact .endNoCells h
    next e0 he => exact .sealNow <| (.claimResult he h)
theorem Keeps.runBwGetJournal {c : Cmd} (h : Keeps a d) : Keeps a (runBwGetJournal d c) := by
  unfold Machine.runBwGetJournal
  exact .runAtomic (fun _ h => h) h
theorem Keeps.loseJournal (h : Keeps a d) : Keeps a (loseJournal d) :=
  .ite (.upd <| .logRec <| .upd <| .foldl (fun _ _ h => .logRec h) h) <| .upd <| .upd <| .foldl (fun _ _ h => .logRec h) h

/-! ### Krovlo -/

theorem Keeps.setChn {c : Chn} (h : Keeps a d) : Keeps a (setChn d c) := .upd h
theorem Keeps.recPort {sub : Half} {p : Port} (h : Keeps a d) : Keeps a (recPort d sub p) := .logRec h
theorem Keeps.recStatus {sub : Half} (h : Keeps a d) : Keeps a (recStatus d sub) := .logRec h
theorem Keeps.recChnConfig (h : Keeps a d) : Keeps a (recChnConfig d) := .logRec h
theorem Keeps.updateRepl (h : Keeps a d) : Keeps a (updateRepl d) := .setChn h
theorem Keeps.dropRemote {gone : Nat → Bool} {st : Half} (h : Keeps a d) : Keeps a (dropRemote d gone st) := by
  unfold Machine.dropRemote
  refine .foldl (fun _ _ h => ?_) h
  split
  · exact .ite (.finish h) h
  · exact h
theorem Keeps.settleConfigs (h : Keeps a d) : Keeps a (settleConfigs d) := .foldl (fun _ _ h => .ite (.finish h) h) <| .setChn h
theorem Keeps.clearWait {a' : Nat} (h : Keeps a d) : Keeps a (clearWait d a') := .settleConfigs <| .setChn h
theorem Keeps.becomeSolitary (h : Keeps a d) : Keeps a (becomeSolitary d) :=
  .ite h <| .recStatus <| .dropRemote <| .foldl (fun _ _ h => .finish h) <| .foldl (fun _ _ h => .finish h) <| .setChn h
theorem Keeps.sendEnum {p : Port} {b : FBody} (h : Keeps a d) : Keeps a (sendEnum d p b) := .ite (.enqueue h) h
theorem Keeps.startEnum (h : Keeps a d) : Keeps a (startEnum d) := .sendEnum <| .setChn h
theorem Keeps.endEnum {next : Nat} {closed : Bool} (h : Keeps a d) : Keeps a (endEnum d next closed) :=
  .updateRepl <| .broadcastD <| .ite (.recStatus <| .setChn <| .upd h) <| .setChn <| .upd h
theorem Keeps.takeAddress {h' : Bytes} {next : Nat} {upstream : Bool} (h : Keeps a d) : Keeps a (takeAddress d h' next upstream).1 :=
  .iteFst h (.iteFst (.ite (.recStatus <| .ite (.recChnConfig <| .setChn h) <| .setChn h) <| .ite (.recChnConfig <| .setChn h) <|
  .setChn h) (.setChn h))
theorem Keeps.onEnumerate {p : Port} {h' : Bytes} {next : Nat} (h : Keeps a d) : Keeps a (onEnumerate d p h' next) := by
  unfold Machine.onEnumerate
  dsimp only
  refine .ite (.ite (.endEnum h) <| .ite (.ite (.sendEnum <| .setChn <| .takeAddress <| .recChnConfig <| .setChn h) <|
    .sendEnum <| .setChn <| .takeAddress <| .recChnConfig <| .setChn h) h) ?_
  split
  · exact .ite h <| .ite (.sendEnum <| .setChn <| .takeAddress <| .ite (.recChnConfig h) h) <| .sendEnum <| .setChn <| .takeAddress <| .ite (.recChnConfig h) h
  · exact .ite (.sendEnum <| .setChn <| .takeAddress h) <| .sendEnum <| .setChn <| .takeAddress h
theorem Keeps.onEnumBack {p : Port} {h' : Bytes} {next : Nat} (h : Keeps a d) : Keeps a (onEnumBack d p h' next) := by
  unfold Machine.onEnumBack
  dsimp only
  refine .ite ?_ (.sendEnum <| .ite (.setChn h) h)
  refine .ite h ?_
  split
  · exact .ite (.sendEnum <| .setChn h) <| .endEnum <| .setChn h
  · exact .endEnum h
theorem Keeps.onRoster {h' : Bytes} {units : Nat} {closed : Bool} {delays : List Nat} (h : Keeps a d) : Keeps a (onRoster d h' units closed delays) :=
  .ite h <| .updateRepl <| .setChn h
theorem Keeps.portUp {p : Port} (h : Keeps a d) : Keeps a (portUp d p) :=
  .ite h <| .ite (.startEnum <| .ite (.recPort <| .setChn <| .setPort h) <| .setChn <| .setPort h) <| .ite (.recPort <| .setChn <| .setPort h) <|
  .setChn <| .setPort h
theorem Keeps.lockLane {p : Port} {lane : Nat} (h : Keeps a d) : Keeps a (lockLane d p lane) := .setPort h
theorem Keeps.loseLane {p : Port} {lane : Nat} (h : Keeps a d) : Keeps a (loseLane d p lane) :=
  .ite h <| .ite (.setPort h) <| .ite (.sendTrain <| .setPort h) <| .recPort <| .setPort h
theorem Keeps.tryUp {p : Port} (h : Keeps a d) : Keeps a (tryUp d p) := .ite (.portUp h) h
theorem Keeps.onTrain {p : Port} {t : TrainInfo} (h : Keeps a d) : Keeps a (onTrain d p t) :=
  .ite h <| .ite (.ite h <| .recPort <| .setPort h) <| .tryUp <| .sendTrain <| .setPort h
theorem Keeps.onLaneTimeout {p : Port} {lane : Nat} (h : Keeps a d) : Keeps a (onLaneTimeout d p lane) := .ite h <| .tryUp <| .setPort h
theorem Keeps.lostRequest {r : Nat} (h : Keeps a d) : Keeps a (lostRequest d r) := .finish <| .setChn h
theorem Keeps.returnFrame {p : Port} {t : TxFrame} {hasToken : Bool} (h : Keeps a d) : Keeps a (returnFrame d p t hasToken) := by
  unfold Machine.returnFrame
  dsimp only
  split
  · exact .lostRequest <| .setChn <| .ite (.ldgRetire <| .freeCells h) <| .freeCells h
  · split
    · exact .ite (.setChn <| .ite (.ldgRetire <| .freeCells h) <| .freeCells h) <| .enqueue <| .setChn <| .ite (.ldgRetire <| .freeCells h) <| .freeCells h
    · exact .setChn <| .ite (.ldgRetire <| .freeCells h) <| .freeCells h
theorem Keeps.returnFrames {p : Port} (h : Keeps a d) : Keeps a (returnFrames d p) :=
  .ite h <| .setChn <| .foldl (fun _ _ h => .returnFrame h) <| .foldl (fun _ _ h => .returnFrame h) <| .setPort h
theorem Keeps.sendFrames {p : Port} {mine : Frame → Bool} {left : Nat} (h : Keeps a d) : Keeps a (sendFrames d p mine left) :=
  .foldl (fun _ _ h => .sendOut h) <| .setPort h
theorem Keeps.sendPort {p : Port} {own : Bool} {mine : Frame → Bool} (h : Keeps a d) : Keeps a (sendPort d p own mine) :=
  .ite h <| .sendFrames <| .ite (.sendOut <| .ite (.sendOut <| .setPort h) h) <| .ite (.sendOut <| .setPort h) h
theorem Keeps.slotStart (h : Keeps a d) : Keeps a (slotStart d) :=
  .ite (.setChn <| .sendPort <| .sendPort <| .setChn h) <| .sendPort <| .sendPort <| .setChn h
theorem Keeps.resend {p : Port} (h : Keeps a d) : Keeps a (resend d p) := .setChn <| .setPort h
theorem Keeps.onAck {p : Port} {ackSeq : Word} {free : Nat} {nak : Bool} (h : Keeps a d) : Keeps a (onAck d p ackSeq free nak) :=
  .ite h <| .ite (.resend <| .setChn <| .foldl (fun _ _ h => .retireFrame h) <| .setPort h) <| .setChn <| .foldl (fun _ _ h => .retireFrame h) <|
  .setPort h
theorem Keeps.accept {p : Port} {h' : LinkHdr} (he : accept d p h' = some e) (h : Keeps a d) : Keeps a e := by
  unfold Machine.accept at he
  dsimp only at he
  split at he
  · cases he
  · split at he
    · cases he; exact h.setPort.setChn
    · cases he
theorem Keeps.reject {p : Port} {h' : LinkHdr} (h : Keeps a d) : Keeps a (reject d p h') := .ite h <| .setPort h
theorem Keeps.forward {p : Port} {h' : LinkHdr} {b : FBody} (h : Keeps a d) : Keeps a (forward d p h' b) := .ite h <| .ite (.setChn h) <| .enqueue h
theorem Keeps.woken {h' : LinkHdr} (h : Keeps a d) : Keeps a (woken d h') := .ite (.wake h) h
theorem Keeps.onFrame {p : Port} {h' : LinkHdr} {b : FBody} {f : Dev → Dev} (hf : ∀ d, Keeps a d → Keeps a (f d)) (h : Keeps a d) : Keeps a (onFrame d p h' b f) := by
  unfold Machine.onFrame
  dsimp only
  refine .ite (.reject h) ?_
  split
  · exact .reject h
  next e0 he => exact .ite (hf _ (.woken <| .forward <| (.accept he h))) <| .forward <| (.accept he h)
theorem Keeps.onHop {p : Port} {h' : LinkHdr} {f : Dev → Dev} (hf : ∀ d, Keeps a d → Keeps a (f d)) (h : Keeps a d) : Keeps a (onHop d p h' f) := by
  unfold Machine.onHop
  split
  · exact .reject h
  next e0 he => exact hf _ ((.accept he h))
theorem Keeps.trackTime {leaderTime : Quad} (h : Keeps a d) : Keeps a (trackTime d leaderTime) :=
  .ite (.ite h <| .setChn h) <| .ite (.ite h <| .logRec <| .setChn h) <| .logRec <| .setChn h
theorem Keeps.settle (h : Keeps a d) : Keeps a (settle d) := by
  unfold Machine.settle
  dsimp only
  refine .updateRepl ?_
  split
  · exact .ite (.setChn <| .ite (.logRec <| .setChn <| .setChn h) <| .setChn <| .setChn h) <| .ite (.logRec <| .setChn <| .setChn h) <| .setChn <| .setChn h
  · exact .ite (.recStatus <| .setChn <| .ite (.setChn <| .ite (.getD (fun _ he => .unicast he (.ite (.recStatus <| .setChn <| .ite (.logRec <| .setChn <| .setChn h) <| .setChn <| .setChn h) <| .ite (.logRec <| .setChn <| .setChn h) <| .setChn <| .setChn h)) (.ite (.recStatus <| .setChn <| .ite (.logRec <| .setChn <| .setChn h) <| .setChn <| .setChn h) <| .ite (.logRec <| .setChn <| .setChn h) <| .setChn <| .setChn h)) <| .ite (.recStatus <| .setChn <| .ite (.logRec <| .setChn <| .setChn h) <| .setChn <| .setChn h) <| .ite (.logRec <| .setChn <| .setChn h) <| .setChn <| .setChn h) <| .ite (.setChn <| .ite (.getD (fun _ he => .unicast he (.ite (.recStatus <| .setChn <| .ite (.logRec <| .setChn <| .setChn h) <| .setChn <| .setChn h) <| .ite (.logRec <| .setChn <| .setChn h) <| .setChn <| .setChn h)) (.ite (.recStatus <| .setChn <| .ite (.logRec <| .setChn <| .setChn h) <| .setChn <| .setChn h) <| .ite (.logRec <| .setChn <| .setChn h) <| .setChn <| .setChn h)) <| .ite (.recStatus <| .setChn <| .ite (.logRec <| .setChn <| .setChn h) <| .setChn <| .setChn h) <| .ite (.logRec <| .setChn <| .setChn h) <| .setChn <| .setChn h) <| .ite (.getD (fun _ he => .unicast he (.ite (.recStatus <| .setChn <| .ite (.logRec <| .setChn <| .setChn h) <| .setChn <| .setChn h) <| .ite (.logRec <| .setChn <| .setChn h) <| .setChn <| .setChn h)) (.ite (.recStatus <| .setChn <| .ite (.logRec <| .setChn <| .setChn h) <| .setChn <| .setChn h) <| .ite (.logRec <| .setChn <| .setChn h) <| .setChn <| .setChn h)) <| .ite (.recStatus <| .setChn <| .ite (.logRec <| .setChn <| .setChn h) <| .setChn <| .setChn h) <| .ite (.logRec <| .setChn <| .setChn h) <| .setChn <| .setChn h) <| .ite (.setChn <| .ite (.getD (fun _ he => .unicast he (.ite (.recStatus <| .setChn <| .ite (.logRec <| .setChn <| .setChn h) <| .setChn <| .setChn h) <| .ite (.logRec <| .setChn <| .setChn h) <| .setChn <| .setChn h)) (.ite (.recStatus <| .setChn <| .ite (.logRec <| .setChn <| .setChn h) <| .setChn <| .setChn h) <| .ite (.logRec <| .setChn <| .setChn h) <| .setChn <| .setChn h)) <| .ite (.recStatus <| .setChn <| .ite (.logRec <| .setChn <| .setChn h) <| .setChn <| .setChn h) <| .ite (.logRec <| .setChn <| .setChn h) <| .setChn <| .setChn h) <| .ite (.setChn <| .ite (.getD (fun _ he => .unicast he (.ite (.recStatus <| .setChn <| .ite (.logRec <| .setChn <| .setChn h) <| .setChn <| .setChn h) <| .ite (.logRec <| .setChn <| .setChn h) <| .setChn <| .setChn h)) (.ite (.recStatus <| .setChn <| .ite (.logRec <| .setChn <| .setChn h) <| .setChn <| .setChn h) <| .ite (.logRec <| .setChn <| .setChn h) <| .setChn <| .setChn h)) <| .ite (.recStatus <| .setChn <| .ite (.logRec <| .setChn <| .setChn h) <| .setChn <| .setChn h) <| .ite (.logRec <| .setChn <| .setChn h) <| .setChn <| .setChn h) <| .ite (.getD (fun _ he => .unicast he (.ite (.recStatus <| .setChn <| .ite (.logRec <| .setChn <| .setChn h) <| .setChn <| .setChn h) <| .ite (.logRec <| .setChn <| .setChn h) <| .setChn <| .setChn h)) (.ite (.recStatus <| .setChn <| .ite (.logRec <| .setChn <| .setChn h) <| .setChn <| .setChn h) <| .ite (.logRec <| .setChn <| .setChn h) <| .setChn <| .setChn h)) <| .ite (.recStatus <| .setChn <| .ite (.logRec <| .setChn <| .setChn h) <| .setChn <| .setChn h) <| .ite (.logRec <| .setChn <| .setChn h) <| .setChn <| .setChn h
theorem Keeps.statusAcks {a' : Nat} {b : StatusBody} (h : Keeps a d) : Keeps a (statusAcks d a' b) := .ite (.clearWait h) h
theorem Keeps.onStatus {p : Port} {h' : LinkHdr} {b : StatusBody} (h : Keeps a d) : Keeps a (onStatus d p h' b) :=
  .ite h <| .ite (.ite (.setChn h) <| .sendOut <| .setChn h) <| .ite (.trackTime <| .ite (.statusAcks <| .settle <| .setChn <| .ite (.setChn h) <|
  .sendOut <| .setChn h) <| .dropRemote <| .statusAcks <| .settle <| .setChn <| .ite (.setChn h) <| .sendOut <| .setChn h) <| .ite (.statusAcks <|
  .settle <| .setChn <| .ite (.setChn h) <| .sendOut <| .setChn h) <| .dropRemote <| .statusAcks <| .settle <| .setChn <| .ite (.setChn h) <|
  .sendOut <| .setChn h
theorem Keeps.heartbeat (h : Keeps a d) : Keeps a (heartbeat d) := .ite (.settle <| .setChn h) <| .setChn h
theorem Keeps.statusLost {a' : Nat} (h : Keeps a d) : Keeps a (statusLost d a') := .ite h <| .clearWait <| .settle <| .dropRemote <| .setChn h
theorem Keeps.slewEnd (h : Keeps a d) : Keeps a (slewEnd d) := by
  unfold Machine.slewEnd
  dsimp only
  split
  · exact h
  · exact .logRec <| .setChn h
theorem Keeps.onConfig {h' : LinkHdr} {epoch : Quad} {admitted : List Bytes} (h : Keeps a d) : Keeps a (onConfig d h' epoch admitted) :=
  .ite (.getD (fun _ he => .unicast he h) h) <| .ite h <| .updateRepl <| .setChn <| .recChnConfig <| .setChn h
theorem Keeps.newConfig {rid : Nat} {epoch : Quad} {admitted : List Bytes} (h : Keeps a d) : Keeps a (newConfig d rid epoch admitted) := by
  unfold Machine.newConfig
  dsimp only
  split
  · exact .finish <| .recChnConfig <| .setChn h
  next e0 he => exact .settleConfigs <| .updateRepl <| .setChn <| (.broadcast he (.recChnConfig <| .setChn h))
theorem Keeps.runChnAdmit {c : Cmd} (h : Keeps a d) : Keeps a (runChnAdmit d c) := by
  unfold Machine.runChnAdmit
  dsimp only
  split
  · exact h.finish
  · split
    next e st he => exact (Keeps.of_pair he h.quorumIf).finish
    next e he => exact (Keeps.of_pair he h.quorumIf).newConfig
theorem Keeps.runChnSetEpoch {c : Cmd} (h : Keeps a d) : Keeps a (runChnSetEpoch d c) := by
  unfold Machine.runChnSetEpoch
  dsimp only
  split
  · exact h.finish
  · split
    next e st he => exact (Keeps.of_pair he h.quorumIf).finish
    next e he => exact (Keeps.of_pair he h.quorumIf).newConfig
theorem Keeps.replicaFor {k : LiveKey} {h' : Word} {mode : Byte} {p : StatusBody} (h : Keeps a d) : Keeps a (replicaFor d k h' mode p).1 := .upd h
theorem Keeps.sendReplicas {rid : Nat} {k : LiveKey} {h' : Word} {mode : Byte} {l : List Nat} (he : sendReplicas d rid k h' mode l = some e) (h : Keeps a d) : Keeps a e := by
  induction l generalizing d with
  | nil => cases he; exact h
  | cons x l ih =>
    unfold Machine.sendReplicas at he
    split at he
    · exact ih he h
    · dsimp only at he
      split at he
      · cases he
      next d1 hu => exact ih he (h.replicaFor.unicast hu)
theorem Keeps.markReplicated {r : KRef} (h : Keeps a d) : Keeps a (markReplicated d r) := by
  unfold Machine.markReplicated
  dsimp only
  split
  · split
    · exact .upd h
    · exact h
  · exact h
theorem Keeps.runChnReplicate {c : Cmd} (h : Keeps a d) : Keeps a (runChnReplicate d c) := by
  unfold Machine.runChnReplicate
  dsimp only
  split
  · exact h.finish
  · split
    next e st he => exact (Keeps.of_pair he h.gateOr).finish
    next e he =>
      have h1 : Keeps a e := .of_pair he h.gateOr
      refine .ite h1.finish ?_
      split
      · exact h1.endNoCells
      next hd hk hw =>
        have h2 := h1.claimResult hd
        refine .ite h2.maskFault ?_
        split
        · exact h2.finish
        next d2 hs => exact (h2.touchKey.markReplicated.sendReplicas hs).setChn
      next hd _ => exact (h1.claimResult hd).finish
theorem Keeps.dropReplica {id : Bytes} {h' : Word} (h : Keeps a d) : Keeps a (dropReplica d id h') := by
  unfold Machine.dropReplica
  dsimp only
  split
  · exact .unloadSlot <| .upd h
  · exact h
theorem Keeps.onReplica {h' : LinkHdr} {b : ReplicaBody} (h : Keeps a d) : Keeps a (onReplica d h' b) := by
  unfold Machine.onReplica
  dsimp only
  split
  · refine .ite h ?_
    split
    · exact h
    · refine .ite h ?_
      split
      · exact h.dropReplica
      next x d1 hl =>
        have h1 : Keeps a d1 := h.dropReplica.loadKey hl
        exact .getD (fun _ he => h1.upd.unicast he) h1.upd
  · exact h
theorem Keeps.onReplAck {h' : LinkHdr} {src : Word} (h : Keeps a d) : Keeps a (onReplAck d h' src) := .setChn h
theorem Keeps.replicateEnd (h : Keeps a d) : Keeps a (replicateEnd d) := by
  unfold Machine.replicateEnd
  dsimp only
  split
  · exact h
  · exact .ite (.finish <| .setChn h) h
theorem Keeps.dropRun {seq : Word} (h : Keeps a d) : Keeps a (dropRun d seq) := by
  unfold Machine.dropRun
  dsimp only
  split
  · exact .freeCells <| .setChn h
  · exact h
theorem Keeps.holdPart {b : ResultBody} {r : ResultRun} (h : Keeps a d) : Keeps a (holdPart d b r) := by
  unfold Machine.holdPart
  dsimp only
  cases hc : Machine.claimCells d (.krovlo 0) (cellsFor (bodyLen (.result b))) with
  | none => exact h.setChn
  | some r => exact (h.claimCells hc).setChn
theorem Keeps.endRun {seq : Word} {st : Half} {res : Bytes} {detail : Word} (h : Keeps a d) : Keeps a (endRun d seq st res detail) := by
  unfold Machine.endRun
  dsimp only
  split
  · exact .ite (.finish <| .dropRun h) <| .finish <| .dropRun h
  · exact .dropRun h
theorem Keeps.onResult {b : ResultBody} (h : Keeps a d) : Keeps a (onResult d b) := by
  unfold Machine.onResult
  dsimp only
  split
  · exact h
  · exact .ite (.endRun h) <| .ite (.holdPart h) <| .ite (.endRun h) <| .endRun h
theorem Keeps.onCosignReq {p : Port} {h' : LinkHdr} {g : Bytes} (h : Keeps a d) : Keeps a (onCosignReq d p h' g) := by
  unfold Machine.onCosignReq
  dsimp only
  split
  · exact h
  · exact .ite h <| .upd <| .setChn h
theorem Keeps.cosigned {origin : Nat} {g rnd : Bytes} (h : Keeps a d) : Keeps a (cosigned d origin g rnd) := .getD (fun _ he => .unicast he h) h
theorem Keeps.onCosign {h' : LinkHdr} {id sig : Bytes} (h : Keeps a d) : Keeps a (onCosign d h' id sig) := by
  unfold Machine.onCosign
  dsimp only
  split
  · exact .ite (.upd h) h
  · exact h
theorem Keeps.noteLink {e' : Dev} (h : Keeps a e') : Keeps a (noteLink d e') := .ite (.ite h (.alert h)) <| .signal <| .ite h (.alert h)
theorem Keeps.retryEnum (h : Keeps a d) : Keeps a (retryEnum d) := .setChn <| .startEnum h
theorem Keeps.reenum (h : Keeps a d) : Keeps a (reenum d) := .ite (.startEnum <| .setChn h) h

/-! ### Cards -/

theorem Keeps.setSlot {x : Slot} {c : CardSlot} (h : Keeps a d) : Keeps a (setSlot d x c) := by
  unfold Machine.setSlot
  dsimp only
  split
  · exact .upd h
  · exact .upd h
theorem Keeps.recSlot {x : Slot} (h : Keeps a d) : Keeps a (recSlot d x) := .logRec h
theorem Keeps.cardCmd {x : Slot} {c : CardCmd} (h : Keeps a d) : Keeps a (cardCmd d x c) := .emit h
theorem Keeps.cardCmds {x : Slot} {l : List CardCmd} (h : Keeps a d) : Keeps a (cardCmds d x l) := .foldl (fun _ _ h => .cardCmd h) h
theorem Keeps.slotFault {x : Slot} {f : BitVec 4} {supply : Bool} {phase : Phase} (h : Keeps a d) : Keeps a (slotFault d x f supply phase) :=
  .signal <| .recSlot <| .setSlot h
theorem Keeps.slotEnds {x : Slot} {f : BitVec 4} (h : Keeps a d) : Keeps a (slotEnds d x f) := .slotFault <| .cardCmd h
theorem Keeps.cardInserted {x : Slot} (h : Keeps a d) : Keeps a (cardInserted d x) := .ite (.setSlot <| .wake h) h
theorem Keeps.slotPowered {x : Slot} (h : Keeps a d) : Keeps a (slotPowered d x) := .ite (.cardCmd <| .setSlot h) h
theorem Keeps.cardPulled {x : Slot} (h : Keeps a d) : Keeps a (cardPulled d x) := .setSlot <| .wake h
theorem Keeps.cmd1 {x : Slot} {r : CmdAnswer} (h : Keeps a d) : Keeps a (cmd1 d x r) := by
  unfold Machine.cmd1
  dsimp only
  refine .ite h ?_
  split
  · exact .ite (.ite (.setSlot <| .cardCmds <| .cardCmd <| .setSlot h) <| .slotFault <| .cardCmd <| .setSlot h) <| .ite (.slotFault <| .cardCmd <| .setSlot h) <| .cardCmd <| .setSlot h
  · exact .ite (.slotFault <| .cardCmd <| .setSlot h) <| .cardCmd <| .setSlot h
theorem Keeps.busError {b : BusFail} (h : Keeps a d) : Keeps a (busError d b) := .ite h <| .ite (.cardCmd <| .setSlot h) <| .slotFault <| .setSlot h
theorem Keeps.supplyLimit {x : Slot} (h : Keeps a d) : Keeps a (supplyLimit d x) := .ite (.setSlot h) h
theorem Keeps.slotShort {x : Slot} (h : Keeps a d) : Keeps a (slotShort d x) := .ite (.slotFault h) h
theorem Keeps.beginExchange {x : Slot} {issue : Bool} {owner index : Nat} {desc : CardDesc} {opDigest share : Bytes} (h : Keeps a d) : Keeps a (beginExchange d x issue owner index desc opDigest share) :=
  .upd <| .setSlot <| .upd h
theorem Keeps.cardKeyed {x : Slot} {i : Nat} {rnd : Bytes} (h : Keeps a d) : Keeps a (cardKeyed d x i rnd) := by
  unfold Machine.cardKeyed
  dsimp only
  split
  · exact h
  · exact .ite h <| .cardCmd <| .setSlot <| .upd h
theorem Keeps.readDesc {x : Slot} {c : CardDesc} (h : Keeps a d) : Keeps a (readDesc d x c) := .setSlot h
theorem Keeps.issueTack {x : Slot} {c : CardDesc} (h : Keeps a d) : Keeps a (issueTack d x c) := by
  unfold Machine.issueTack
  dsimp only
  refine .ite h ?_
  split
  · exact h
  · exact .ite h <| .ite (.slotEnds <| .readDesc <| .cardCmd h) <| .beginExchange <| .readDesc <| .cardCmd h
theorem Keeps.presentTack {x : Slot} {c : CardDesc} (h : Keeps a d) : Keeps a (presentTack d x c) := by
  unfold Machine.presentTack
  dsimp only
  refine .ite h ?_
  split
  · exact h
  · refine .ite h ?_
    refine .ite (.slotEnds <| .readDesc <| .cardCmd h) ?_
    refine .ite (.slotEnds <| .readDesc <| .cardCmd h) ?_
    split
    · exact .slotEnds <| .readDesc <| .cardCmd h
    · exact .ite (.slotEnds <| .readDesc <| .cardCmd h) <| .beginExchange <| .readDesc <| .cardCmd h
theorem Keeps.cardReplied {x : Slot} {r : CardReplyBlock} {after : CardDesc} (h : Keeps a d) : Keeps a (cardReplied d x r after) := by
  unfold Machine.cardReplied
  dsimp only
  split
  · exact h
  · exact .ite h <| .upd <| .setSlot <| .cardCmds h
theorem Keeps.exchangeDone {x : Slot} (h : Keeps a d) : Keeps a (exchangeDone d x) := .setSlot <| .cardCmd h
theorem Keeps.countTack {x : Slot} {e' : Exchange} (h : Keeps a d) : Keeps a (countTack d x e') := by
  unfold Machine.countTack
  dsimp only
  split
  · exact .exchangeDone h
  · exact .ite (.exchangeDone h) <| .ite (.ite (.slotFault <| .upd <| .exchangeDone h) <| .slotFault <| .exchangeDone h) <| .signal <| .upd <| .exchangeDone h
theorem Keeps.keepShare {x : Slot} {e' : Exchange} (h : Keeps a d) : Keeps a (keepShare d x e') := by
  unfold Machine.keepShare
  dsimp only
  split
  · exact .exchangeDone h
  · split
    · exact .exchangeDone h
    · exact .ite (.exchangeDone h) <| .saveTable <| .setOwner <| .exchangeDone h
theorem Keeps.cardChecked {x : Slot} {i : Nat} (h : Keeps a d) : Keeps a (cardChecked d x i) := by
  unfold Machine.cardChecked
  dsimp only
  split
  · exact h
  · split
    · exact h
    · refine .ite (.slotEnds h) ?_
      refine .ite (.ite (.keepShare <| .readDesc h) <| .slotEnds <| .readDesc h) ?_
      split
      · split
        · exact .ite (.countTack h) <| .slotEnds h
        · exact .slotEnds h
      · exact .slotEnds h
theorem Keeps.cardFailed {x : Slot} {i : Nat} (h : Keeps a d) : Keeps a (cardFailed d x i) := .ite (.slotEnds h) h

/-! ### Engines -/

theorem Keeps.pumpSym {fuel : Nat} (h : Keeps a d) : Keeps a (pumpSym fuel d) := by
  induction fuel generalizing d with
  | zero => exact h
  | succ fuel ih =>
    unfold Machine.pumpSym
    dsimp only
    split
    · exact h
    · split
      · exact h
      · exact ih h.upd.runSym
theorem Keeps.pumpLanes (h : Keeps a d) : Keeps a (pumpLanes d) := .pumpSym h
theorem Keeps.startOp {e' : Nat} {o : PkeOp} (h : Keeps a d) : Keeps a (startOp d e' o) := .ldgIssue <| .setEng h
theorem Keeps.operationStart {n : Nat} (h : Keeps a d) : Keeps a (operationStart d n) := by
  unfold Machine.operationStart
  refine .ite h ?_
  split
  · exact h
  · dsimp only
    split
    · split
      · exact .startOp <| .draw <| .setEng <| .upd h
      · exact .startOp <| .draw <| .setEng <| .upd h
      · exact .startOp <| .draw <| .reseed <| .setEng <| .upd h
      · exact .startOp <| .setEng <| .upd h
    · split
      next e st he => exact .endWith <| .of_pair he <| .pkTry <| .setEng <| .upd h
      next e o he => exact .ite (.maskFault <| .setEng <| .upd h) <| .startOp <| .of_pair he <| .pkTry <| .setEng <| .upd h
theorem Keeps.sweepWaiting (h : Keeps a d) : Keeps a (sweepWaiting d) := by
  unfold Machine.sweepWaiting
  dsimp only
  refine .foldl (fun _ _ h => ?_) (.upd h)
  split
  · exact .finish h
  · exact h
theorem Keeps.landSecret {slot : Nat} {k pre post : Bytes} (h : Keeps a d) : Keeps a (landSecret d slot k pre post).1 :=
  .iteFst (.dropReserved h) (.fillSlot h)
theorem Keeps.opResult {o : PkeOp} (h : Keeps a d) : Keeps a (opResult d o).1 := by
  unfold Machine.opResult
  dsimp only
  split
  next => exact h.landSecret
  next => exact h
  next =>
    split
    · exact h
    · exact h
  next => exact h
  next => exact .iteFst h.landSecret h.dropReserved
  next => exact h.landSecret
  next => exact .iteFst h.landSecret h.dropReserved
  next => exact h
  next => exact h
theorem Keeps.secureResult {o : PkeOp} (h : Keeps a d) : Keeps a (secureResult d o) := by
  unfold Machine.secureResult
  split
  · exact .sealSigned h
  · exact .certChecked h
  · exact .cardKeyed h
  · exact .cardChecked h
  · exact .cosigned h
  · exact h
theorem Keeps.secureFailed {o : PkeOp} (h : Keeps a d) : Keeps a (secureFailed d o) := by
  unfold Machine.secureFailed
  split
  · exact .upd h
  · exact .endResponse h
  · exact .cardFailed h
  · exact .cardFailed h
  · exact h
theorem Keeps.selfTested {e' failed : Nat} (h : Keeps a d) : Keeps a (selfTested d e' failed).1 := .iteFst (.setEng h) (.logRec <| .setEng h)
theorem Keeps.checkFailed {e' : Nat} (h : Keeps a d) : Keeps a (checkFailed d e') :=
  .ite (.sweepWaiting <| .errD <| .setEng <| .errC <| .setEng h) <| .errC <| .setEng h
theorem Keeps.chargeRun {e' : Nat} {i : Issuer} {micros : Nat} (h : Keeps a d) : Keeps a (chargeRun d e' i micros) := by
  unfold Machine.chargeRun
  dsimp only
  split
  · exact .setEng h
  · exact .setEng h
  · exact h
theorem Keeps.endOp {o : PkeOp} {st : Half} {r : Bytes} (h : Keeps a d) : Keeps a (endOp d o st r) := by
  unfold Machine.endOp
  split
  · exact .finish h
  · exact h
theorem Keeps.failOp {o : PkeOp} {st : Half} (h : Keeps a d) : Keeps a (failOp d o st) := by
  unfold Machine.failOp
  dsimp only
  refine .ite ?_ ?_
  · refine .secureFailed ?_
    split
    · exact .dropReserved h
    · exact h
  · refine .endOp ?_
    split
    · exact .dropReserved h
    · exact h
theorem Keeps.landOp {o : PkeOp} (h : Keeps a d) : Keeps a (landOp d o) := .ite (.secureResult h) <| .endOp <| .opResult h
theorem Keeps.limitOp {e' : Nat} {o : PkeOp} (h : Keeps a d) : Keeps a (limitOp d e' o) := .failOp <| .logRec h
theorem Keeps.operationDone {e' : Nat} {outcome : PkeOutcome} {micros : Nat} (h : Keeps a d) : Keeps a (operationDone d e' outcome micros) := by
  unfold Machine.operationDone
  dsimp only
  split
  · exact h
  · split
    · split
      · refine .endOp ?_
        refine .selfTested ?_
        split
        · exact .endUse <| .engIrq <| .chargeRun <| .ldgDrain <| .setEng h
        · exact .engIrq <| .chargeRun <| .ldgDrain <| .setEng h
      · refine .landOp ?_
        split
        · exact .endUse <| .engIrq <| .chargeRun <| .ldgDrain <| .setEng h
        · exact .engIrq <| .chargeRun <| .ldgDrain <| .setEng h
    · refine .landOp ?_
      refine .readbackFault ?_
      split
      · exact .endUse <| .engIrq <| .chargeRun <| .ldgDrain <| .setEng h
      · exact .engIrq <| .chargeRun <| .ldgDrain <| .setEng h
    · refine .failOp ?_
      refine .checkFailed ?_
      split
      · exact .endUse <| .engIrq <| .chargeRun <| .ldgDrain <| .setEng h
      · exact .engIrq <| .chargeRun <| .ldgDrain <| .setEng h
    · refine .failOp ?_
      refine .readbackFault ?_
      refine .checkFailed ?_
      split
      · exact .endUse <| .engIrq <| .chargeRun <| .ldgDrain <| .setEng h
      · exact .engIrq <| .chargeRun <| .ldgDrain <| .setEng h
    · refine .limitOp ?_
      split
      · exact .endUse <| .engIrq <| .chargeRun <| .ldgDrain <| .setEng h
      · exact .engIrq <| .chargeRun <| .ldgDrain <| .setEng h
    · refine .limitOp ?_
      refine .readbackFault ?_
      split
      · exact .endUse <| .engIrq <| .chargeRun <| .ldgDrain <| .setEng h
      · exact .engIrq <| .chargeRun <| .ldgDrain <| .setEng h
theorem Keeps.windowStart (h : Keeps a d) : Keeps a (windowStart d) := .ite h <| .upd <| .foldl (fun _ _ h => .setEng h) h
theorem Keeps.grantBalance {n r : Nat} (h : Keeps a d) : Keeps a (grantBalance d n r) := .foldl (fun _ _ h => .setEng h) h
theorem Keeps.loseBalance {n : Nat} (h : Keeps a d) : Keeps a (loseBalance d n) := .foldl (fun _ _ h => .setEng h) h
theorem Keeps.scaleBalances {n old new : Nat} (h : Keeps a d) : Keeps a (scaleBalances d n old new) := .foldl (fun _ _ h => .setEng h) h
theorem Keeps.runPkeSetChannel {c : Cmd} (h : Keeps a d) : Keeps a (runPkeSetChannel d c) := by
  unfold Machine.runPkeSetChannel
  exact .runAtomic (fun _ h => .sweepWaiting <| .setEng <| .clearEngine h) h
theorem Keeps.runFwStage {c : Cmd} (h : Keeps a d) : Keeps a (runFwStage d c) := by
  unfold Machine.runFwStage
  exact .runAtomic (fun _ h => .iteFst (.upd h) (.iteFst (.programZone <| .upd h) (.iteFst (.upd <| .programZone <| .upd h) (.upd <| .programZone <| .upd h)))) h
theorem Keeps.runFwActivate {c : Cmd} (h : Keeps a d) : Keeps a (runFwActivate d c) := by
  unfold Machine.runFwActivate
  exact .runAtomic (fun _ h => .upd h) h
theorem Keeps.runSelfTest {c : Cmd} {failed : Nat} (h : Keeps a d) : Keeps a (runSelfTest d c failed) := by
  unfold Machine.runSelfTest
  dsimp only
  refine .ite ?_ (.runAtomic (fun _ h => .iteFst (.iteFst (.pumpLanes <| .upd h) (.logRec <| .upd h)) (.iteFst h (.iteFst (.instantiate h) (.rngFail h)))) h)
  split
  · exact .finish h
  · split
    · exact .endNoCells h
    next e0 he => exact .upd <| (.claimResult he h)

/-! ### Yard -/

theorem Keeps.setQueue {n : Nat} {q : YQueue} (h : Keeps a d) : Keeps a (setQueue d n q) := .upd h
theorem Keeps.queueEvent {n : Nat} (h : Keeps a d) : Keeps a (queueEvent d n) := .ite (.signal h) <| .raiseNormal h
theorem Keeps.touchQueue {n : Nat} (h : Keeps a d) : Keeps a (touchQueue d n) := .ite h <| .upd h
theorem Keeps.judgeQueue {n before : Nat} (h : Keeps a d) : Keeps a (judgeQueue d n before) :=
  .ite (.queueEvent <| .ite (.queueEvent <| .setQueue h) <| .setQueue h) <| .ite (.queueEvent <| .setQueue h) <| .setQueue h
theorem Keeps.judgeQueues (h : Keeps a d) : Keeps a (judgeQueues d) := .foldl (fun _ _ h => .judgeQueue h) <| .upd h
theorem Keeps.appendCells {n rid : Nat} {i : Issuer} {cells : List QCell} (h : Keeps a d) : Keeps a (appendCells d n rid i cells) :=
  .setQueue <| .touchQueue h
theorem Keeps.enqueueReq {rid : Nat} {q : Req} {n : Nat} (h : Keeps a d) : Keeps a (enqueueReq d rid q n) := .appendCells <| .setReq h
theorem Keeps.releaseFirst {n k : Nat} (h : Keeps a d) : Keeps a (releaseFirst d n k) :=
  .setQueue <| .foldl (fun _ _ h => .freeCells h) <| .touchQueue h
theorem Keeps.readWord {n : Nat} (h : Keeps a d) : Keeps a (readWord d n) := by
  unfold Machine.readWord
  dsimp only
  split
  · exact .emit h
  · exact .emit <| .setQueue h
theorem Keeps.cellLost {i : Issuer} {rid : Nat} (h : Keeps a d) : Keeps a (cellLost d i rid) := by
  unfold Machine.cellLost
  dsimp only
  split
  · exact .errT <| .finish h
  · exact .errD <| .finish h
theorem Keeps.losePacket {n : Nat} (h : Keeps a d) : Keeps a (losePacket d n) := by
  unfold Machine.losePacket
  dsimp only
  split
  · exact .emit h
  · split
    · exact .cellLost <| .setQueue h
    · exact .setQueue h
theorem Keeps.readMet {n : Nat} {m : CellMet} (h : Keeps a d) : Keeps a (readMet d n m) := by
  unfold Machine.readMet
  split
  · exact .readWord h
  · exact .readWord <| .errC h
  · exact .losePacket h
  · exact .errFOpen h
theorem Keeps.markQueue {n : Nat} (h : Keeps a d) : Keeps a (markQueue d n) := .setQueue h
theorem Keeps.rewindQueue {n : Nat} (h : Keeps a d) : Keeps a (rewindQueue d n) := .setQueue h
theorem Keeps.releaseQueue {n : Nat} (h : Keeps a d) : Keeps a (releaseQueue d n) := .releaseFirst h
theorem Keeps.takePacket {n rid : Nat} (h : Keeps a d) : Keeps a (takePacket d n rid) := .setQueue <| .releaseFirst <| .setQueue h
theorem Keeps.packetEnd {n : Nat} {b : Bytes} (h : Keeps a d) : Keeps a (packetEnd d n b) := by
  unfold Machine.packetEnd
  dsimp only
  refine .ite h ?_
  split
  · exact h
  next e0 e1 he => exact .enqueueReq <| .upd <| (.claimCells he h)
theorem Keeps.strand {n : Nat} (h : Keeps a d) : Keeps a (strand d n) := .ite h <| .setQueue <| .touchQueue h
theorem Keeps.abandon {rid : Nat} (h : Keeps a d) : Keeps a (abandon d rid) := by
  unfold Machine.abandon
  dsimp only
  split
  · exact .ite (.finish <| .upd h) h
  · exact h
theorem Keeps.reclaim {n : Nat} (h : Keeps a d) : Keeps a (reclaim d n) := .upd <| .freeCells <| .foldl (fun _ _ h => .setQueue h) h

/-! ### Classifier -/

theorem Keeps.weirCharge {i : Issuer} {len : Nat} (h : Keeps a d) : Keeps a (weirCharge d i len) := by
  unfold Machine.weirCharge
  split
  · exact .ite (.modStall h) h
  · exact h
theorem Keeps.switchWeirs (h : Keeps a d) : Keeps a (switchWeirs d) := .updStl h
theorem Keeps.setCls {c : Cls} (h : Keeps a d) : Keeps a (setCls d c) := .upd h
theorem Keeps.classPass {q : Req} {pass2 frag : Bool} (h : Keeps a d) : Keeps a (classPass d q pass2 frag).1 :=
  .ite (.weirCharge <| .setCls h) <| .setCls h
theorem Keeps.sendRemote {rid : Nat} {q : Req} {dest : Nat} (h : Keeps a d) : Keeps a (sendRemote d rid q dest) := by
  unfold Machine.sendRemote
  dsimp only
  split
  · exact .finish <| .setReq h
  · exact .foldl (fun _ _ h => .getD (fun _ he => .unicast he h) h) <| .setReq <| .freeCells h
theorem Keeps.deliver {rid : Nat} {q : Req} {n : Nat} (h : Keeps a d) : Keeps a (deliver d rid q n) := by
  unfold Machine.deliver
  split
  · exact .sendRemote h
  · exact .enqueueReq h
theorem Keeps.trapReq {rid : Nat} {q : Req} {entry : Nat} {pass2 : Bool} {st : Half} (h : Keeps a d) : Keeps a (trapReq d rid q entry pass2 st) :=
  .ite (.finish <| .setReq <| .setCls h) <| .raiseSecure <| .setReq <| .setCls h
theorem Keeps.dropRunOf {rid : Nat} (h : Keeps a d) : Keeps a (dropRunOf d rid) := .setCls h
theorem Keeps.nestEnd {rid : Nat} (h : Keeps a d) : Keeps a (nestEnd d rid) := .finish <| .setCls h
theorem Keeps.goOn {rid : Nat} {q : Req} {v : FragVerdict} (h : Keeps a d) : Keeps a (goOn d rid q v) := by
  unfold Machine.goOn
  dsimp only
  refine .ite (.finish <| .setReq <| .setCls h) ?_
  split
  · exact .deliver h
  · exact .setReq h
  · exact .finish <| .setReq h
  · exact .setReq h
theorem Keeps.act {rid : Nat} {q : Req} {entry : Nat} {a' : Word} {pass2 : Bool} (h : Keeps a d) : Keeps a (act d rid q entry a' pass2) := by
  unfold Machine.act
  dsimp only
  split
  · exact .ite (.setReq h) <| .goOn h
  · exact .ite (.ite (.setReq h) <| .goOn h) <| .finish <| .setReq h
  · exact .trapReq h
  · exact .ite (.nestEnd <| .setReq h) <| .ite (.finish <| .setReq <| .dropRunOf h) <| .ite (.setReq h) <| .goOn h
theorem Keeps.clsHalt (h : Keeps a d) : Keeps a (clsHalt d) := .errD <| .setCls h
theorem Keeps.classifyReq {rid : Nat} {ecc : ClsEcc} (h : Keeps a d) : Keeps a (classifyReq d rid ecc) := by
  unfold Machine.classifyReq
  dsimp only
  split
  · exact h
  · refine .ite h ?_
    split
    · exact .clsHalt <| .finish <| .dropRunOf h
    · split
      · exact .finish <| .setCls <| .ite (.errC h) h
      · exact .act <| .classPass <| .ite (.errC h) h
theorem Keeps.eddyNoCells {rid : Nat} {i : Issuer} (h : Keeps a d) : Keeps a (eddyNoCells d rid i) := by
  unfold Machine.eddyNoCells
  refine .finish ?_
  split
  · exact .errT h
  · exact h
theorem Keeps.secondPass {rid : Nat} {q : Req} {outer : Bytes} {ecc : ClsEcc} (h : Keeps a d) : Keeps a (secondPass d rid q outer ecc) := by
  unfold Machine.secondPass
  dsimp only
  split
  · exact .ite (.nestEnd <| .setReq h) <| .finish <| .setReq h
  · split
    · exact .clsHalt <| .finish <| .setReq h
    · exact .act <| .classPass <| .ite (.errC h) h
theorem Keeps.runEddy {rid : Nat} {keyMask : Bool} {ecc : ClsEcc} (h : Keeps a d) : Keeps a (runEddy d rid keyMask ecc) := by
  unfold Machine.runEddy
  split
  · exact h
  next q _ =>
    refine .ite h ?_
    extract_lets b c n
    have hq : Keeps a (match useQuorum d c c.key with | some o => Machine.gateWith d rid (envelopeDigest b) o | none => (d, none)).1 := by
      split
      · exact h.gateWith
      · exact h
    split
    · exact h.finish
    · exact h.finish
    · split
      next e st he => exact (Keeps.of_pair he hq).finish
      next e he =>
        have h1 : Keeps a e := .of_pair he hq
        split
        · exact h1.eddyNoCells
        next e l hc =>
          have h2 : Keeps a e := h1.claimCells hc
          refine .ite h2.maskFault ?_
          extract_lets d3 d4
          have h4 : Keeps a d4 := h2.chargeLane.upd.touchKey
          split
          · exact h4.freeCells.authFailed.finish
          · exact h4.freeCells.secondPass
theorem Keeps.newReq {src : FragSrc} {b : Bytes} {tag : Byte} (h : Keeps a d) : Keeps a (newReq d src b tag).2.2 := .upd h
theorem Keeps.endNew {src : FragSrc} {b : Bytes} {tag : Byte} {st : Half} {detail : Word} (h : Keeps a d) : Keeps a (endNew d src b tag st detail) :=
  .finish <| .setReq <| .upd h
theorem Keeps.lenFail (h : Keeps a d) : Keeps a (lenFail d) := .setCls h
theorem Keeps.growCells {q : Req} {b : Bytes} {e : Dev × Req} (he : growCells d q b = some e) (h : Keeps a d) : Keeps a e.1 := by
  simp only [Machine.growCells, Option.map_eq_some_iff] at he
  obtain ⟨r, hr, rfl⟩ := he
  exact h.claimCells hr
theorem Keeps.holdWhole {src : FragSrc} {b : Bytes} {tag : Byte} (he : holdWhole d src b tag = some e) (h : Keeps a d) : Keeps a e := by
  simp only [Machine.holdWhole, Option.map_eq_some_iff] at he
  obtain ⟨r, hr, rfl⟩ := he
  exact (h.newReq.growCells hr).setReq
theorem Keeps.openRun {src : FragSrc} {b : Bytes} {tag : Byte} (he : openRun d src b tag = some e) (h : Keeps a d) : Keeps a e := by
  simp only [Machine.openRun, Option.map_eq_some_iff] at he
  obtain ⟨r, hr, rfl⟩ := he
  exact (h.newReq.growCells hr).setReq.setCls
theorem Keeps.squashTraps {p : Nat → Bool} (h : Keeps a d) : Keeps a (squashTraps d p) := .setCls h
theorem Keeps.breakRun {src : FragSrc} (h : Keeps a d) : Keeps a (breakRun d src) := by
  unfold Machine.breakRun
  dsimp only
  split
  · exact h
  · exact .finish <| .squashTraps <| .setCls h
theorem Keeps.closeRun {src : FragSrc} {rid : Nat} {q : Req} (h : Keeps a d) : Keeps a (closeRun d src rid q) := by
  obtain ⟨issuer, sqIndex, stage⟩ := q
  unfold Machine.closeRun
  cases stage with
  | reassembly v =>
    cases v with
    | drop st x => exact .finish <| .setReq <| .setCls h
    | trap => exact .setReq <| .setCls h
    | deliver n => exact .goOn <| .setCls h
    | eddy => exact .goOn <| .setCls h
  | _ => exact .setReq <| .setCls h
theorem Keeps.extendRun {src : FragSrc} {rid : Nat} {q : Req} {b : Bytes} (he : extendRun d src rid q b = some e) (h : Keeps a d) : Keeps a e := by
  unfold Machine.extendRun at he
  dsimp only at he
  split at he
  · cases he; exact .ite h.setReq h.closeRun
  · split at he
    · cases he; exact h.lenFail.dropRunOf.finish
    · simp only [Option.map_eq_some_iff] at he
      obtain ⟨r, hr, rfl⟩ := he
      exact .ite (h.growCells hr).setReq (h.growCells hr).closeRun
theorem Keeps.intakeFresh {src : FragSrc} {b : Bytes} {tag : Byte} (he : intakeFresh d src b tag = some e) (h : Keeps a d) : Keeps a e := by
  unfold Machine.intakeFresh at he
  dsimp only at he
  split at he
  · split at he
    · cases he; exact h.lenFail.endNew
    · split at he
      · exact h.breakRun.openRun he
      · cases he; exact h.breakRun.endNew
  · split at he
    · split at he
      · cases he; exact h.lenFail.endNew
      · cases he; exact h.breakRun.endNew
    · exact h.holdWhole he
theorem Keeps.intake {src : FragSrc} {b : Bytes} {tag : Byte} (he : intake d src b tag = some e) (h : Keeps a d) : Keeps a e := by
  unfold Machine.intake at he
  split at he
  · exact h.intakeFresh he
  · split at he
    · exact h.intakeFresh he
    · split at he
      · exact h.extendRun he
      · exact h.setCls.intakeFresh he
theorem Keeps.onData {p : Port} {h' : LinkHdr} {b : Bytes} (h : Keeps a d) : Keeps a (onData d p h' b) :=
  .ite (.reject h) <| .onFrame (fun _ h => .ite h <| .getD (fun _ he => .intake he h) h) h
theorem Keeps.popTrap (h : Keeps a d) : Keeps a (popTrap d) := by
  unfold Machine.popTrap
  dsimp only
  split
  · exact h
  · refine .ite (.setCls h) ?_
    split
    · exact .setCls h
    · exact .ite (.setReq <| .setCls h) <| .finish <| .setCls h
theorem Keeps.startSwitch (h : Keeps a d) : Keeps a (startSwitch d) := .ite h <| .ite (.setCls h) <| .setCls h
theorem Keeps.swapBanks (h : Keeps a d) : Keeps a (swapBanks d) := .ite h <| .switchWeirs <| .setCls h
theorem Keeps.drainEnd (h : Keeps a d) : Keeps a (drainEnd d) := .ite h <| .setCls h
theorem Keeps.copyDone (h : Keeps a d) : Keeps a (copyDone d) := .ite h <| .setCls h
theorem Keeps.mgtBusy {msg tag : Byte} (h : Keeps a d) : Keeps a (mgtBusy d msg tag) := .emit <| .upd h

/-! ### Rings -/

theorem Keeps.ringEnable {r : RingId} {k : Nat} (h : Keeps a d) : Keeps a (ringEnable d r k) := by
  unfold Machine.ringEnable
  dsimp only
  refine .ite h ?_
  split
  · exact .setRing h
  · split
    · exact .toState <| .ldgIssue <| .setRing h
    · exact .ldgIssue <| .setRing h
theorem Keeps.notePf {k : Nat} {mask : Word} (h : Keeps a d) : Keeps a (notePf d k mask) := .updStl h
theorem Keeps.sharedWrite {side : Side} {key : Option Nat} {mask : Word} {f : Dev → Word → Dev} (hf : ∀ d y1, Keeps a d → Keeps a (f d y1)) (h : Keeps a d) : Keeps a (sharedWrite d side key mask f) := by
  unfold Machine.sharedWrite
  dsimp only
  split
  · exact hf _ _ h
  · exact hf _ _ (.notePf h)
  · exact .ite h <| hf _ _ h
theorem Keeps.dropDoorbell {r : RingId} (h : Keeps a d) : Keeps a (dropDoorbell d r) := by
  unfold Machine.dropDoorbell
  split
  · exact .modStall h
  · exact h
theorem Keeps.badDoorbell {r : RingId} (h : Keeps a d) : Keeps a (badDoorbell d r) := by
  unfold Machine.badDoorbell
  split
  · exact .faultStall <| .errT <| .upd h
  · exact .errC h
theorem Keeps.sqTailWrite {r : RingId} {side : Side} {t : Nat} (h : Keeps a d) : Keeps a (sqTailWrite d r side t) := by
  unfold Machine.sqTailWrite
  dsimp only
  refine .ite ?_ ?_
  · split
    · exact h
    · exact h
    · exact .ite (.setRing h) h
    · exact .ite (.setRing h) <| .dropDoorbell h
    · exact .dropDoorbell h
  · split
    · exact .ite (.badDoorbell h) <| .ite h <| .ldgIssue <| .setRing h
    · exact .ite (.badDoorbell h) <| .ite h <| .ldgIssue <| .setRing h
    · exact h
    · exact .dropDoorbell h
theorem Keeps.ringRestore {r : RingId} {reg : Nat} {v : Word} (h : Keeps a d) : Keeps a (ringRestore d r reg v) :=
  .ite (.ite (.sqTailWrite h) h) <| .ite (.setRing h) <| .ite (.sqTailWrite h) <| .setRing h
theorem Keeps.cqHeadWrite {r : RingId} {side : Side} {h' : Nat} (h : Keeps a d) : Keeps a (cqHeadWrite d r side h') := .ite (.setRing h) <| .setRing h
theorem Keeps.entryFetch {r : RingId} {outerLen : Nat} (h : Keeps a d) : Keeps a (entryFetch d r outerLen) := by
  unfold Machine.entryFetch
  refine .ite h ?_
  dsimp only
  split
  · exact h
  next d1 l hc =>
    have h1 : Keeps a d1 := h.claimCells hc
    split
    · exact h1.freeCells
    next d2 hd => exact (h1.upd.dmaIssue hd).setReq.setRing
theorem Keeps.issueParams {e' : Nat × Req} (h : Keeps a d) : Keeps a (issueParams d e') := .ite (.getD (fun _ he => .dmaIssue he h) h) h
theorem Keeps.pumpParams (h : Keeps a d) : Keeps a (pumpParams d) := .foldl (fun _ _ h => .issueParams h) h
theorem Keeps.discardLater {rid : Nat} {i : Issuer} (h : Keeps a d) : Keeps a (discardLater d rid i) :=
  .foldl (fun _ _ h => .ite (.delReq <| .freeCells h) h) h
theorem Keeps.applyFence {rid : Nat} {q : Req} {r : RingId} (h : Keeps a d) : Keeps a (applyFence d rid q r) := .setRing <| .discardLater h
theorem Keeps.fitCells {q : Req} {n : Nat} {e : Dev × List Nat} (he : fitCells d q n = some e) (h : Keeps a d) : Keeps a e.1 := by
  unfold Machine.fitCells at he
  dsimp only at he
  split at he
  · cases he; exact h.freeCells
  · simp only [Option.map_eq_some_iff] at he
    obtain ⟨r, hr, rfl⟩ := he
    exact (h.claimCells hr : Keeps a r.1)
theorem Keeps.checkEntry {rid : Nat} {q : Req} (h : Keeps a d) : Keeps a (checkEntry d rid q) := by
  unfold Machine.checkEntry
  dsimp only
  split
  · exact .finish <| .weirCharge <| .ite (.applyFence <| .setReq h) <| .setReq h
  · split
    · exact .finish <| .weirCharge <| .ite (.applyFence <| .setReq h) <| .setReq h
    · split
      · exact .eddyNoCells <| .weirCharge <| .ite (.applyFence <| .setReq h) <| .setReq h
      next e0 e1 he => exact .ite (.setReq <| (.fitCells he (.weirCharge <| .ite (.applyFence <| .setReq h) <| .setReq h))) <| .issueParams <| .setReq <| (.fitCells he (.weirCharge <| .ite (.applyFence <| .setReq h) <| .setReq h))
theorem Keeps.advanceEntries {i : Issuer} {fuel : Nat} (h : Keeps a d) : Keeps a (advanceEntries i fuel d) := by
  induction fuel generalizing d with
  | zero => exact h
  | succ fuel ih =>
    unfold Machine.advanceEntries
    split
    · exact h
    · exact .ite h (ih h.checkEntry)
theorem Keeps.receiveEntry {rid : Nat} {e' : Bytes} (h : Keeps a d) : Keeps a (receiveEntry d rid e') := by
  unfold Machine.receiveEntry
  split
  · exact h
  · exact .ite h <| .advanceEntries <| .setReq h
theorem Keeps.receiveParams {rid : Nat} {b : Bytes} (h : Keeps a d) : Keeps a (receiveParams d rid b) := by
  unfold Machine.receiveParams
  dsimp only
  split
  · exact h
  · exact .ite h <| .setReq h
theorem Keeps.dmaDone {t : Nat} {b : Bytes} (h : Keeps a d) : Keeps a (dmaDone d t b) := by
  unfold Machine.dmaDone
  dsimp only
  split
  · exact h
  · refine .pumpParams ?_
    refine .ite (.dmaRetire h) ?_
    split
    · exact .receiveEntry <| .dmaRetire h
    · exact .receiveParams <| .dmaRetire h
theorem Keeps.dmaFailed {t : Nat} {k : Option DmaErr} (h : Keeps a d) : Keeps a (dmaFailed d t k) := by
  unfold Machine.dmaFailed
  dsimp only
  split
  · exact h
  · refine .ite (.pumpParams <| .dmaRetire h) ?_
    split
    · refine .pumpParams ?_
      split
      · exact .errT <| .aerReport <| .dmaRetire h
      · exact .errC <| .aerReport <| .dmaRetire h
    · refine .pumpParams ?_
      refine .advanceEntries ?_
      refine .finish ?_
      split
      · exact .setReq <| .upd <| .errIssuer <| .aerReport <| .dmaRetire h
      · exact .errIssuer <| .aerReport <| .dmaRetire h
theorem Keeps.entryReceived {r : RingId} {e' : Bytes} (h : Keeps a d) : Keeps a (entryReceived d r e') := by
  unfold Machine.entryReceived
  split
  · exact h
  · split
    · exact .dmaDone h
    · exact h
theorem Keeps.runCmd {c : Cmd} (h : Keeps a d) : Keeps a (runCmd d c) := by
  unfold Machine.runCmd
  split
  · exact .runNop h
  · exact .runInfoDevice h
  · exact .runInfoStall h
  · exact .runKeyGenerate h
  · exact .runKeyImport h
  · exact .runKeyLoad h
  · exact .runKeyUnload h
  · exact .runKeyWrap h
  · exact .runKeySetUsage h
  · exact .runKeyExport h
  · exact .runKeyAonPut h
  · exact .runKeyInfo h
  · exact .runKeyPublic h
  · exact .runPk h
  · exact .runPk h
  · exact .runPk h
  · exact .runPk h
  · exact .runPk h
  · exact .runPk h
  · exact .symStart h
  · exact .symStart h
  · exact .symStart h
  · exact .symStart h
  · exact .symStart h
  · exact .symStart h
  · exact .runOwnerCreate h
  · exact .runOwnerDelete h
  · exact .runOwnerBind h
  · exact .runOwnerUnbind h
  · exact .runOwnerSetPolicy h
  · exact .runQuorumStatus h
  · exact .runQuorumCancel h
  · exact .runBwLoadManifest h
  · exact .runBwSeal h
  · exact .runBwGetJournal h
  · exact .runLogAppend h
  · exact .runLogRead h
  · exact .runLogStatus h
  · exact .runChnStatus h
  · exact .runChnReplicate h
  · exact .runChnAdmit h
  · exact .runChnSetEpoch h
  · exact .runLcGetState h
  · exact .runLcTransition h
  · exact .runLcResume h
  · exact .runDbgChallenge h
  · exact .runDbgResponse h
  · exact .runPkeSetChannel h
  · exact .runLedgerRead h
  · exact .runFwStage h
  · exact .runFwActivate h
  · exact .runSelfTest <| .upd h
  · exact .finish h
theorem Keeps.unitsFail {off units : Nat} {critical : Bool} (h : Keeps a d) : Keeps a (unitsFail d off units critical) := .logRec <| .dropUse <| .upd h
theorem Keeps.serve {i : Issuer} {rid : Nat} {c : Cmd} {met : ReadMet} (h : Keeps a d) : Keeps a (serve d i rid c met) := by
  unfold Machine.serve
  split
  · exact .runCmd h
  · exact .runCmd <| .errC h
  · exact .cellLost h
  · exact .errFOpen h
  · exact .runCmd h
  · exact .runCmd <| .unitsFail h
theorem Keeps.dispatch {n : Nat} {met : ReadMet} (h : Keeps a d) : Keeps a (dispatch d n met) := by
  unfold Machine.dispatch
  dsimp only
  split
  · exact h
  · split
    · exact .takePacket h
    · refine .ite h ?_
      split
      · exact h
      · exact .serve <| .setReq <| .takePacket <| .updStl h
theorem Keeps.releaseComp {rid : Nat} {q : Req} (h : Keeps a d) : Keeps a (releaseComp d rid q) := by
  unfold Machine.releaseComp
  dsimp only
  split
  · exact .ite (.delReq <| .upd <| .freeCells h) <| .setRecovery <| .delReq <| .upd <| .freeCells h
  · exact .delReq <| .upd <| .freeCells h
theorem Keeps.writeEntry {r : RingId} {rid : Nat} {q : Req} {c : Comp} {bitmapFail : Bool} (h : Keeps a d) : Keeps a (writeEntry d r rid q c bitmapFail) :=
  .signal <| .releaseComp <| .ldgRetire <| .hostWrite <| .setRing h
theorem Keeps.loseEntry {r : RingId} {rid : Nat} {q : Req} {c : Comp} (h : Keeps a d) : Keeps a (loseEntry d r rid q c) := by
  unfold Machine.loseEntry
  dsimp only
  split
  · exact .faultStall <| .errT <| .upd h
  · exact .errD <| .releaseComp <| .ldgRetire <| .setRing h
theorem Keeps.completionWrite {rid : Nat} {o : WriteOutcome} (h : Keeps a d) : Keeps a (completionWrite d rid o) := by
  unfold Machine.completionWrite
  dsimp only
  split
  · refine .ite h ?_
    split
    · exact .writeEntry <| .hostWrite h
    · exact .writeEntry <| .hostWrite h
    · exact .ite (.writeEntry h) <| .writeEntry <| .errIssuer <| .hostWrite h
    · exact .loseEntry <| .hostWrite h
  · exact h

/-! ### Stalls -/

theorem Keeps.dropReqs {n : Nat} {p : Nat × Req → Bool} (h : Keeps a d) : Keeps a (dropReqs d n p) := .foldl (fun _ _ h => .ite (.upd <| .delReq h) h) h
theorem Keeps.dropUndispatched {n : Nat} (h : Keeps a d) : Keeps a (dropUndispatched d n) := .ldgRetire <| .dropReqs <| .squashTraps h
theorem Keeps.abortStall {n : Nat} (h : Keeps a d) : Keeps a (abortStall d n) :=
  .pumpLanes <| .foldl (fun _ _ h => .laneAbort h) <| .foldl (fun _ _ h => .ite h <| .finishAbort <| .ite h <| .startAbort h) <| .upd <| .dropReqs h
theorem Keeps.squashDma {n : Nat} (h : Keeps a d) : Keeps a (squashDma d n) := .fenceWhere <| .dropReqs h
theorem Keeps.beginJob {n : Nat} {j : StallJob} (h : Keeps a d) : Keeps a (beginJob d n j) :=
  .ite (.squashDma <| .abortStall <| .dropUndispatched <| .toState <| .modStall <| .upd h) <| .abortStall <| .dropUndispatched <| .toState <|
  .modStall <| .upd h
theorem Keeps.joinJob {n : Nat} {j : StallJob} {cause : Byte} {removal flr : Bool} (h : Keeps a d) : Keeps a (joinJob d n j cause removal flr) :=
  .ite (.toState <| .modStall h) <| .modStall h
theorem Keeps.startReset {n : Nat} {mode : Mode} {cause : Byte} {removal flr : Bool} (h : Keeps a d) : Keeps a (startReset d n mode cause removal flr) := by
  unfold Machine.startReset
  split
  · exact .joinJob h
  · exact .ite (.beginJob h) h
theorem Keeps.drainCap {n : Nat} (h : Keeps a d) : Keeps a (drainCap d n) := by
  unfold Machine.drainCap
  split
  · exact .ite (.squashDma <| .modStall h) h
  · exact h
theorem Keeps.clearBoard {n : Nat} (h : Keeps a d) : Keeps a (clearBoard d n) := h.boards (memWf_memClear _ _ _)
theorem Keeps.clearCharged {n : Nat} (h : Keeps a d) : Keeps a (clearCharged d n) := .unloadWhere h
theorem Keeps.removeShares {n : Nat} (h : Keeps a d) : Keeps a (removeShares d n) := .loseBalance <| .forgetUse <| .clearBoard <| .clearCharged h
theorem Keeps.ledgerFail {pools : List Nat} (h : Keeps a d) : Keeps a (ledgerFail d pools) := by
  unfold Machine.ledgerFail
  dsimp only
  refine .ite h ?_
  split
  · exact .upd <| .foldl (fun _ _ h => .logRec h) <| .ite (.aerReport h) h
  · exact .upd <| .foldl (fun _ _ h => .logRec h) <| .ite (.aerReport h) h
theorem Keeps.retireStall {n : Nat} {removal : Bool} (h : Keeps a d) : Keeps a (retireStall d n removal) :=
  .ite (.removeShares <| .modStall <| .reclaim <| .squashDma h) <| .modStall <| .reclaim <| .squashDma h
theorem Keeps.completeJob {n : Nat} (h : Keeps a d) : Keeps a (completeJob d n) := by
  unfold Machine.completeJob
  dsimp only
  split
  · exact h
  · exact .ite h <| .upd <| .toState <| .modStall <| .ledgerFail <| .setRecovery <| .setRecovery <| .ldgDrain <| .retireStall h
theorem Keeps.setStatus {n : Nat} {st : Half} (h : Keeps a d) : Keeps a (setStatus d n st) := .modStall h
theorem Keeps.stallOp {n op : Nat} {mode : Mode} (h : Keeps a d) : Keeps a (stallOp d n op mode).1 := by
  unfold Machine.stallOp
  extract_lets s go
  split
  next =>
    split
    · exact h
    · exact h.toState.grantBalance
  next => exact .iteFst h.toState h
  next => exact .iteFst h.toState h
  next => exact .iteFst h.startReset h
  next => exact .iteFst h.startReset h
  next => exact h
theorem Keeps.stallCtl {n op : Nat} {mode : Mode} (h : Keeps a d) : Keeps a (stallCtl d n op mode) := .setStatus <| .stallOp <| .modStall h
theorem Keeps.partitionChange {log2n : Nat} (h : Keeps a d) : Keeps a (partitionChange d log2n) := by
  unfold Machine.partitionChange
  dsimp only
  split
  · exact .updStl h
  · exact .foldl (fun _ _ h => .writeHeader <| .ite (.scaleBalances <| .forgetUse h) <| .forgetUse h) <| .updStl h
theorem Keeps.mbSend {n : Fin 64} {side : Side} (h : Keeps a d) : Keeps a (mbSend d n side) := by
  unfold Machine.mbSend
  dsimp only
  split
  · exact .signal <| .modStall h
  · exact .signal <| .updStl <| .modStall h

/-! ### Logbook -/

theorem Keeps.fatalWritten (h : Keeps a d) : Keeps a (fatalWritten d) := by
  unfold Machine.fatalWritten
  dsimp only
  split
  · exact .upd h
  · exact h
theorem Keeps.clearCause (h : Keeps a d) : Keeps a (clearCause d) := .upd h
theorem Keeps.ledgerInitWritten (h : Keeps a d) : Keeps a (ledgerInitWritten d) := .updLdg h
theorem Keeps.runAfter {a' : After} {seq : Nat} (h : Keeps a d) : Keeps a (runAfter d a' seq) := by
  unfold Machine.runAfter
  split
  · exact h
  · exact .finish h
  · exact .lcStart h
  · exact .lcDone h
  · exact .finish <| .deleteOwner h
  · exact .makeGrant h
  · exact .enterTest h
  · exact .sealDone h
  · exact .fatalWritten h
  · exact .ledgerInitWritten h
  · exact .clearCause h
theorem Keeps.refuseAfter {a' : After} {st : Half} (h : Keeps a d) : Keeps a (refuseAfter d a' st) := by
  unfold Machine.refuseAfter
  dsimp only
  split
  · exact h
  · exact .finish h
  · split
    · exact .finish <| .upd h
    · exact h
  · exact .lcDone h
  · exact .finish h
  · exact .endResponse h
  · exact .endToken h
  · exact .sealDone h
  · exact .fatalWritten h
  · exact .ledgerInitWritten h
  · exact .clearCause h
theorem Keeps.countRefused {r : Record} {forShare : Bool} (h : Keeps a d) : Keeps a (countRefused d r forShare) := .ite (.upd h) <| .upd h
theorem Keeps.roomFor {r : Record} (he : roomFor d r = .inl e) (h : Keeps a d) : Keeps a e := by
  unfold Machine.roomFor at he
  split at he
  · cases he
  · split at he
    next d1 hr => cases he; exact h.takeRoom hr
    · cases he
theorem Keeps.takeRecord (h : Keeps a d) : Keeps a (takeRecord d) := by
  unfold Machine.takeRecord
  dsimp only
  refine .ite h ?_
  split
  · exact h
  · refine .ite h.upd.refuseAfter ?_
    split
    next d1 hr => exact (h.upd.roomFor hr).upd.programRec
    · exact h.upd.countRefused.refuseAfter
theorem Keeps.failStore {r : Record} (h : Keeps a d) : Keeps a (failStore d r) := .alert <| .signal <| .errD <| .upd h
theorem Keeps.writtenRecord {ok : Bool} (h : Keeps a d) : Keeps a (writtenRecord d ok) := by
  unfold Machine.writtenRecord
  dsimp only
  split
  · exact h
  · exact .ite h <| .ite (.runAfter <| .appendRec <| .upd h) <| .ite (.programRec <| .upd h) <| .failStore h
theorem Keeps.settleAfter {a' : After} (h : Keeps a d) : Keeps a (settleAfter d a') := by
  unfold Machine.settleAfter
  dsimp only
  split
  · exact .upd h
  · exact .clearCause h
  · exact h
theorem Keeps.storeRec {r : Record} (h : Keeps a d) : Keeps a (storeRec d r) := by
  unfold Machine.storeRec
  split
  next d1 hr => exact (h.roomFor hr).programRec.appendRec.settleAfter
  · exact h.countRefused
theorem Keeps.flushRecords (h : Keeps a d) : Keeps a (flushRecords d) := by
  unfold Machine.flushRecords
  dsimp only
  refine .foldl (fun _ _ h => .storeRec h) ?_
  refine .upd ?_
  split
  · exact .settleAfter <| .appendRec <| .upd h
  · exact h
theorem Keeps.checkpoint (h : Keeps a d) : Keeps a (checkpoint d) := .ite h <| .programZone <| .upd h

/-! ### Functions -/

theorem Keeps.freshFunc {f : Func} (h : Keeps a d) : Keeps a (freshFunc d f) := .upd h
theorem Keeps.createVfs (h : Keeps a d) : Keeps a (createVfs d) := .ite (.logRec <| .upd h) <| .upd h
theorem Keeps.freshPf (h : Keeps a d) : Keeps a (freshPf d) := .freshFunc <| .upd h
theorem Keeps.vfSettle (h : Keeps a d) : Keeps a (vfSettle d) := .ite h <| .ite (.createVfs <| .upd h) <| .upd h
theorem Keeps.setVfEnable (h : Keeps a d) : Keeps a (setVfEnable d) := .ite h <| .ite (.upd h) <| .createVfs <| .upd h
theorem Keeps.dropVfs (h : Keeps a d) : Keeps a (dropVfs d) := .foldl (fun _ _ h => .freshFunc h) <| .upd h
theorem Keeps.clearVfEnable (h : Keeps a d) : Keeps a (clearVfEnable d) :=
  .ite h <| .vfSettle <| .foldl (fun _ _ h => .startReset h) <| .dropVfs <| .upd h
theorem Keeps.startVfFlr {n : Nat} (h : Keeps a d) : Keeps a (startVfFlr d n) :=
  .ite h <| .ite (.startReset <| .upd <| .freshFunc h) <| .signal <| .freshFunc h
theorem Keeps.keepCells {n : Nat} {keep : QCell → Bool} (h : Keeps a d) : Keeps a (keepCells d n keep) :=
  .ite h <| .setQueue <| .foldl (fun _ _ h => .freeCells h) h
theorem Keeps.purgeHolder {holder : Nat} (h : Keeps a d) : Keeps a (purgeHolder d holder) := .foldl (fun _ _ h => .keepCells h) h
theorem Keeps.abortReq {e' : Nat × Req} (h : Keeps a d) : Keeps a (abortReq d e') := by
  unfold Machine.abortReq
  dsimp only
  split
  · exact h
  · exact h
  · exact .finish <| .setQueue <| .keepCells h
  · exact .finish <| .squashTraps h
  · exact .finish h
theorem Keeps.dropPf (h : Keeps a d) : Keeps a (dropPf d) :=
  .ldgDrain <| .updStl <| .fenceWhere <| .purgeHolder <| .pumpLanes <| .foldl (fun _ _ h => .laneAbort h) <| .foldl (fun _ _ h => .ite h <|
  .finishAbort <| .ite h <| .startAbort h) <| .upd <| .foldl (fun _ _ h => .upd <| .delReq <| .freeCells h) <| .squashTraps h
theorem Keeps.pfFlrSettle (h : Keeps a d) : Keeps a (pfFlrSettle d) := .ite (.signal <| .upd h) h
theorem Keeps.startPfFlr (h : Keeps a d) : Keeps a (startPfFlr d) :=
  .pfFlrSettle <| .dropVfs <| .foldl (fun _ _ h => .startReset h) <| .dropPf <| .freshPf <| .upd h
theorem Keeps.stallResetDone {n : Nat} (h : Keeps a d) : Keeps a (stallResetDone d n) := .pfFlrSettle <| .vfSettle <| .completeJob h
theorem Keeps.stallResetEnd {e' : ResetEnd} (h : Keeps a d) : Keeps a (stallResetEnd d e') := .ite (.errFOpen h) <| .stallResetDone h

/-! ### StartUp -/

theorem Keeps.closeLog (h : Keeps a d) : Keeps a (closeLog d) := .upd h
theorem Keeps.recountUse (h : Keeps a d) : Keeps a (recountUse d) := .foldl (fun _ _ h => .ite h <| .modStall h) h
theorem Keeps.openLog (h : Keeps a d) : Keeps a (openLog d) := by
  have hr := h.recountUse
  unfold Machine.openLog
  generalize Machine.recountUse d = d1 at hr
  exact hr.upd
theorem Keeps.logTamper (h : Keeps a d) : Keeps a (logTamper d) := .ite (.upd <| .logRec h) h
theorem Keeps.logCutSession (h : Keeps a d) : Keeps a (logCutSession d) := by
  unfold Machine.logCutSession
  dsimp only
  split
  · exact .logRec <| .upd h
  · exact h
theorem Keeps.logLifecycle (h : Keeps a d) : Keeps a (logLifecycle d) := by
  unfold Machine.logLifecycle
  dsimp only
  split
  · exact .ite (.logRec <| .clearBank <| .upd h) <| .ite (.logRec <| .upd h) <| .upd h
  · exact .ite (.logRec h) h
theorem Keeps.noPools {l : Ledger} (hl : l.pools = []) (h : Keeps a d) : Keeps a { d with ldg := l } :=
  ⟨fun _ p => by rw [poolOf, hl]; exact poolOk_empty, h.memory⟩
theorem Keeps.initLedger {why : Byte} (h : Keeps a d) : Keeps a (initLedger d why) := (h.noPools rfl).takeSample.logRec
theorem Keeps.measure {img : Bytes} (h : Keeps a d) : Keeps a (measure d img) := .upd h
theorem Keeps.choosePending (h : Keeps a d) : Keeps a (choosePending d) := .ite h <| .ite (.upd h) <| .logRec <| .upd h
theorem Keeps.seedMesh (h : Keeps a d) : Keeps a (seedMesh d) := .ite (.upd <| .upd h) h
theorem Keeps.entropyTest {ok : Bool} (h : Keeps a d) : Keeps a (entropyTest d ok) := .ite (.instantiate h) <| .ite h <| .logRec <| .upd h
theorem Keeps.laneTest {bad : BitVec 12} (h : Keeps a d) : Keeps a (laneTest d bad) := .ite (.upd h) <| .logRec <| .upd h
theorem Keeps.engineTest {bad : BitVec 4} (h : Keeps a d) : Keeps a (engineTest d bad) := .foldl (fun _ _ h => .ite (.logRec <| .setEng h) h) h
theorem Keeps.selfTests {env : StartEnv} (h : Keeps a d) : Keeps a (selfTests d env) := .engineTest <| .laneTest <| .entropyTest h
theorem Keeps.drawPermutation (h : Keeps a d) : Keeps a (drawPermutation d) := .ite (.upd <| .reseed h) h
theorem Keeps.lapseAll (h : Keeps a d) : Keeps a (lapseAll d) := .foldl (fun _ _ h => .ite (.lapseEnrolment h) h) h
theorem Keeps.startRoot {entropyOk : Bool} (h : Keeps a d) : Keeps a (startRoot d entropyOk) := .ite (.loadRoot h) <| .unloadRoot h
theorem Keeps.enableMgt (h : Keeps a d) : Keeps a (enableMgt d) := .upd h
theorem Keeps.haltStart {linkKept : Bool} (h : Keeps a d) : Keeps a (haltStart d linkKept) := .upd <| .logRec h

/-! ### Resets -/

theorem Keeps.dropTransients (h : Keeps a d) : Keeps a (dropTransients d) := .upd <| .foldl (fun _ _ h => .abortReq h) h
theorem Keeps.wipe (h : Keeps a d) : Keeps a (wipe d) := by
  have h2 : Keeps a (Machine.unloadRoot (Machine.clearSlots (Machine.dropTransients ((List.range 12).foldl (fun d l => Machine.laneAbort d l ST.aborted) (Machine.stopEngines d))))) :=
    .unloadRoot <| .clearSlots <| .dropTransients <| .foldl (fun _ _ h => .laneAbort h) <| .stopEngines h
  unfold Machine.wipe
  dsimp only
  generalize Machine.unloadRoot _ = d2 at h2
  exact (h2.sram (memWf_memClear _ _ _)).upd
theorem Keeps.persist (h : Keeps a d) : Keeps a (persist d) := by
  refine .adoptDecode ⟨fun _ _ => poolOk_empty, fun ha => ⟨rfl, rfl, (h.memory ha).2.2⟩⟩
theorem Keeps.withAon {p : Dev} (h : Keeps a p) : Keeps a (withAon d p) := h.upd
theorem Keeps.cutChecks (h : Keeps a d) : Keeps a (cutChecks d) := .upd <| .cutToken h
theorem Keeps.losePower (h : Keeps a d) : Keeps a (losePower d) :=
  .ite h (.ite h.cutTransition.cutChecks.wipe.persist.withAon.upd h.cutTransition.cutChecks.wipe.persist)
theorem Keeps.loseVbat (h : Keeps a d) : Keeps a (loseVbat d) := by
  unfold Machine.loseVbat
  dsimp only
  split
  · exact .upd <| .persist h
  · exact .upd h
  · exact .upd h
theorem Keeps.sampleStraps {env : StartEnv} (h : Keeps a d) : Keeps a (sampleStraps d env) :=
  .ite (.ite (.logRec <| .upd h) <| .upd h) <| .logRec <| .ite (.logRec <| .upd h) <| .upd h
theorem Keeps.checkFlash {env : StartEnv} (h : Keeps a d) : Keeps a (checkFlash d env) := .ite h <| .ite (.logRec <| .upd h) <| .upd h
theorem Keeps.measureMgt {env : StartEnv} (h : Keeps a d) : Keeps a (measureMgt d env) := .ite (.logRec <| .upd h) <| .upd h
theorem Keeps.restoreTime {env : StartEnv} (h : Keeps a d) : Keeps a (restoreTime d env) := .upd h
theorem Keeps.openCold {env : StartEnv} (h : Keeps a d) : Keeps a (openCold d env) := .openLog <| .upd <| .restoreTime h
theorem Keeps.coldEnd {env : StartEnv} (h : Keeps a d) : Keeps a (coldEnd d env) :=
  .enableMgt <| .upd <| .sendTrain <| .sendTrain <| .initLedger <| .logLifecycle <| .logTamper <| .logCutSession <| .openCold <| .lapseAll <|
  .openTable <| .clearCarried <| .ite (.startRoot <| .upd <| .drawPermutation <| .seedMesh <| .selfTests h) <| .logRec <| .startRoot <| .upd <|
  .drawPermutation <| .seedMesh <| .selfTests h
theorem Keeps.startPsf {env : StartEnv} (h : Keeps a d) : Keeps a (startPsf d env) := .upd h
theorem Keeps.coldRest {env : StartEnv} (h : Keeps a d) : Keeps a (coldRest d env) :=
  .ite (.upd <| .startPsf <| .upd <| .measureMgt <| .checkFlash <| .sampleStraps h) <| .ite (.coldEnd <| .measure <| .choosePending <|
  .ite (.startPsf <| .upd <| .measureMgt <| .checkFlash <| .sampleStraps h) <| .forceManifest <| .startPsf <| .upd <| .measureMgt <| .checkFlash <|
  .sampleStraps h) <| .haltStart <| .logTamper <| .logCutSession <| .openCold <| .choosePending <| .ite (.startPsf <| .upd <| .measureMgt <|
  .checkFlash <| .sampleStraps h) <| .forceManifest <| .startPsf <| .upd <| .measureMgt <| .checkFlash <| .sampleStraps h
theorem Keeps.coldStart {env : StartEnv} {cause : Byte} (h : Keeps a d) : Keeps a (coldStart d env cause) := by
  unfold Machine.coldStart
  exact .ite (.upd <| .adoptDecode <| .upd <| .closeLog h.cutChecks.persist.withAon) <|
    .ite (.upd <| .adoptDecode <| .upd <| .closeLog h.cutChecks.persist.withAon) <| .coldRest <| .adoptDecode <| .upd <| .closeLog h.cutChecks.persist.withAon
theorem Keeps.powerUpTamper {env : StartEnv} (h : Keeps a d) : Keeps a (powerUpTamper d env) := .ite (.upd h) <| .upd <| .upd h
theorem Keeps.vmainGood {env : StartEnv} (h : Keeps a d) : Keeps a (vmainGood d env) :=
  .ite h <| .coldStart <| .ite (.powerUpTamper <| .upd h) <| .upd h
theorem Keeps.tamperReset {env : StartEnv} (h : Keeps a d) : Keeps a (tamperReset d env) := .ite (.coldStart h) h
theorem Keeps.disableStall {n : Nat} (h : Keeps a d) : Keeps a (disableStall d n) := .toState <| .setStall <| .clearCharged h
theorem Keeps.disableStalls (h : Keeps a d) : Keeps a (disableStalls d) := .foldl (fun _ _ h => .disableStall h) h
theorem Keeps.pools {t : Tab Pool} (ht : (∀ p, poolOk (tgetD d.ldg.pools p {})) → ∀ p, poolOk (tgetD t p {})) (h : Keeps a d) :
    Keeps a { d with ldg := { d.ldg with pools := t } } :=
  ⟨fun ha => ht (h.ledger ha), h.memory⟩
theorem poolOk_map_retireAll {t : Tab Pool} (h : ∀ p, poolOk (tgetD t p {})) (p : Nat) : poolOk (tgetD (t.map fun x => (x.1, x.2.retireAll)) p {}) := by
  have hm : tget (t.map fun x => (x.1, x.2.retireAll)) p = (tget t p).map Pool.retireAll := by
    clear h
    induction t with
    | nil => rfl
    | cons x t ih =>
      by_cases hx : x.1 = p
      · simp [tget, hx]
      · simpa [tget, hx] using ih
  have hp := h p
  simp only [tgetD, hm] at hp ⊢
  cases hg : tget t p with
  | none => exact poolOk_empty
  | some x => rw [hg] at hp; exact poolOk_retireAll x hp
theorem Keeps.retireAll (h : Keeps a d) : Keeps a (retireAll d) :=
  (Keeps.foldl (fun _ _ h => h.logRec) (h.pools poolOk_map_retireAll)).logRec
theorem Keeps.dropWork (h : Keeps a d) : Keeps a (dropWork d) := .foldl (fun _ _ h => .laneAbort h) <| .stopEngines <| .upd h
theorem Keeps.warmEnd (h : Keeps a d) : Keeps a (warmEnd d) := by
  unfold Machine.warmEnd
  exact .flushRecords <| .retireAll <| .disableStalls <| .cutTransition <| .loseJournal <| .closeSession <| .dropWork <| .cutChecks h
theorem Keeps.warmKeep {cause : Byte} (h : Keeps a d) : Keeps a (warmKeep d cause) := by
  have hp := h.persist
  unfold Machine.warmKeep
  generalize Machine.persist d = p at hp
  exact ⟨fun ha => ledgerOk_congr rfl (hp.ledger ha), fun ha => ⟨rfl, (hp.memory ha).2⟩⟩
theorem Keeps.warmRoot {gone entropyOk : Bool} (h : Keeps a d) : Keeps a (warmRoot d gone entropyOk) :=
  .ite h <| .ite (.loadRoot h) <| .upd <| .unloadRoot h
theorem Keeps.warmStart {env : StartEnv} {why : Byte} {gone : Bool} (h : Keeps a d) : Keeps a (warmStart d env why gone) := by
  unfold Machine.warmStart
  extract_lets d1 d2 d3 img d4
  have h1 : Keeps a d1 := .foldl (fun _ _ h => .ite h h.writeHeader) h.startPsf
  have h2 : Keeps a d2 := (Keeps.ite h1 h1.forceManifest).choosePending
  have h3 : Keeps a d3 := .ite h2.createVfs h2
  exact .ite h3.openLog.haltStart h3.measure.selfTests.warmRoot.clearCarried.openTable.lapseAll.openLog.logLifecycle.initLedger
theorem Keeps.warmReset {env : StartEnv} {cause why : Byte} (h : Keeps a d) : Keeps a (warmReset d env cause why) :=
  .ite h <| .ite (.upd h) <| .warmStart <| .closeLog <| .warmKeep <| .warmEnd h
theorem Keeps.softWrite (h : Keeps a d) : Keeps a (softWrite d) := .warmReset <| .upd h
theorem Keeps.releaseBanks (h : Keeps a d) : Keeps a (releaseBanks d) := .upd h
theorem Keeps.startUpComplete (h : Keeps a d) : Keeps a (startUpComplete d) := by
  unfold Machine.startUpComplete
  dsimp only
  split
  · exact .enableMgt <| .upd <| .sendTrain <| .sendTrain <| .releaseBanks <| .upd h
  · exact .releaseBanks <| .upd h
  · exact .upd h
theorem Keeps.leaveExtest {env : StartEnv} (h : Keeps a d) : Keeps a (leaveExtest d env) := .ite (.warmReset <| .upd h) h
theorem Keeps.tapReset {env : StartEnv} (h : Keeps a d) : Keeps a (tapReset d env) := .ite (.leaveExtest <| .setInstr h) h
theorem Keeps.leaveBy {env : StartEnv} (h : Keeps a d) : Keeps a (leaveBy d env) := .ite h <| .leaveExtest h

/-! ### World -/

theorem Keeps.violate {m : Master} {region slave kind : Nat} {caught : Bool} {addr : Nat} (h : Keeps a d) : Keeps a (violate d m region slave kind caught addr) := by
  unfold Machine.violate
  dsimp only
  split
  · exact .errC <| .raiseSecure <| .ite (.upd h) <| .upd h
  · exact .finish <| .errT <| .raiseSecure <| .ite (.upd h) <| .upd h
  · exact .errD <| .upd <| .raiseSecure <| .ite (.upd h) <| .upd h
  · exact .errF <| .upd <| .raiseSecure <| .ite (.upd h) <| .upd h
theorem Keeps.regDenied {m : Master} {addr : Nat} (h : Keeps a d) : Keeps a (regDenied d m addr) := .violate h
theorem Keeps.closeViolations {n : Nat} (h : Keeps a d) : Keeps a (closeViolations n d) := by
  induction n generalizing d with
  | zero => exact h
  | succ n ih => exact ih h.closeD
theorem Keeps.popViolation (h : Keeps a d) : Keeps a (popViolation d) := by
  unfold Machine.popViolation
  dsimp only
  split
  · exact h
  · exact .ite (.closeViolations <| .upd h) <| .ite (.closeD <| .upd h) <| .upd h
theorem Keeps.dropMgt (h : Keeps a d) : Keeps a (dropMgt d) := by
  unfold Machine.dropMgt
  dsimp only
  refine .pumpLanes ?_
  refine .foldl (fun _ _ h => .finish h) ?_
  refine .squashTraps ?_
  refine .purgeHolder ?_
  refine .foldl (fun _ _ h => .laneAbort h) ?_
  refine .foldl (fun _ _ h => ?_) (.upd h)
  split
  · exact .ite (.finishAbort <| .startAbort h) h
  · exact h
theorem Keeps.stopPeriph {p : Nat} (h : Keeps a d) : Keeps a (stopPeriph d p) :=
  .ite (.upd h) <| .ite (.setSlot h) <| .ite (.startAbort h) <| .emit <| .upd <| .dropMgt h
theorem Keeps.resetEngine {e' : Nat} (h : Keeps a d) : Keeps a (resetEngine d e') := .setEng <| .finishAbort h
theorem Keeps.setHandover {p : Nat} {to_ go : Bool} {res : Nat} (h : Keeps a d) : Keeps a (setHandover d p to_ go res) := .upd h
theorem Keeps.startHandover {m : Master} {p : Nat} {to_ : Bool} (h : Keeps a d) : Keeps a (startHandover d m p to_) :=
  .ite (.regDenied h) <| .ite h <| .ite (.setHandover h) <| .ite (.setHandover h) <| .stopPeriph <| .setHandover h
theorem Keeps.finishHandover (h : Keeps a d) : Keeps a (finishHandover d) := .ite h <| .sweepWaiting <| .logRec <| .upd <| .ite (.resetEngine h) h
theorem Keeps.swdtReload (h : Keeps a d) : Keeps a (swdtReload d) := .upd h
theorem Keeps.kick {m : Master} {k : Half} (h : Keeps a d) : Keeps a (kick d m k) := .ite (.swdtReload h) <| .regDenied h
theorem Keeps.swdtWarn (h : Keeps a d) : Keeps a (swdtWarn d) := .ite h <| .raiseSecure <| .upd h
theorem Keeps.startBarrier {m : Master} (h : Keeps a d) : Keeps a (startBarrier d m) := .ite (.regDenied h) <| .ite h <| .upd h
theorem Keeps.endBarrier (h : Keeps a d) : Keeps a (endBarrier d) := .upd h
theorem Keeps.abortWrite {e' : Nat} {m : Master} (h : Keeps a d) : Keeps a (abortWrite d e' m) :=
  .ite (.violate h) <| .ite (.regDenied h) <| .startAbort h
theorem Keeps.trapPop {m : Master} (h : Keeps a d) : Keeps a (trapPop d m) := .ite (.popTrap h) <| .regDenied h

/-! ### Tamper -/

theorem Keeps.lateRoot (h : Keeps a d) : Keeps a (lateRoot d) := .ite (.loadRoot h) <| .lapseAll <| .openTable <| .loadRoot h
theorem Keeps.latchCause {lid : BitVec 4} {mesh : Byte} {mon : BitVec 4} {vault : Bool} (h : Keeps a d) : Keeps a (latchCause d lid mesh mon vault) :=
  .upd h
theorem Keeps.latchDone {held : Bool} (h : Keeps a d) : Keeps a (latchDone d held) := .upd h
theorem Keeps.tamperEvent {lid : BitVec 4} {mesh : Byte} {mon : BitVec 4} {held : Bool} (h : Keeps a d) : Keeps a (tamperEvent d lid mesh mon held) :=
  .wake <| .latchDone <| .clearBank <| .wipe <| .cutChecks <| .cutTransition <| .latchCause h
theorem Keeps.setMesh {n : Nat} {seen : MeshSeen} (h : Keeps a d) : Keeps a (setMesh d n seen) := .upd h
theorem Keeps.meshAlarm {n : Nat} {seen : MeshSeen} {held : Bool} (h : Keeps a d) : Keeps a (meshAlarm d n seen held) :=
  .ite h <| .ite (.setMesh h) <| .tamperEvent <| .setMesh h
theorem Keeps.setLid {n : Nat} (h : Keeps a d) : Keeps a (setLid d n) := .upd h
theorem Keeps.lidAlarm {n : Nat} {held : Bool} (h : Keeps a d) : Keeps a (lidAlarm d n held) := .ite h <| .tamperEvent <| .setLid h
theorem Keeps.setMon {m : Monitor} (h : Keeps a d) : Keeps a (setMon d m) := .upd h
theorem Keeps.monitorAlarm {m : Monitor} {atFall held : Bool} (h : Keeps a d) : Keeps a (monitorAlarm d m atFall held) :=
  .ite h <| .ite (.upd <| .losePower h) <| .ite h <| .tamperEvent <| .setMon h
theorem Keeps.vaultEvent {lid : BitVec 4} {mesh : Byte} {mon : BitVec 4} {held : Bool} (h : Keeps a d) : Keeps a (vaultEvent d lid mesh mon held) :=
  .latchDone <| .clearBank <| .latchCause h
theorem Keeps.vaultTamper {x : TamperSource} {seen : MeshSeen} {held : Bool} (h : Keeps a d) : Keeps a (vaultTamper d x seen held) := by
  unfold Machine.vaultTamper
  refine .ite h ?_
  split
  · exact .ite (.setMesh h) <| .vaultEvent <| .setMesh h
  · exact .ite h <| .vaultEvent <| .setLid h
  · split
    · exact .ite h <| .vaultEvent <| .setMon h
    · exact .ite h <| .vaultEvent <| .setMon h
    · exact .ite h <| .vaultEvent <| .setMon h
    · exact h
theorem Keeps.clearSource {x : TamperSource} (h : Keeps a d) : Keeps a (clearSource d x) := by
  unfold Machine.clearSource
  dsimp only
  refine .ite h ?_
  refine .ite ?_ ?_
  · split
    · exact .upd h
    · exact .upd h
    · exact .upd h
  · refine .upd ?_
    split
    · exact .upd h
    · exact .upd h
    · exact .upd h
theorem Keeps.holdRecheck (h : Keeps a d) : Keeps a (holdRecheck d) := .ite h <| .logRec <| .lateRoot <| .upd h
theorem Keeps.reserveLow (h : Keeps a d) : Keeps a (reserveLow d) :=
  .ite h <| .ite h <| .logRec <| .loadRoot <| .ite (.instantiate <| .wipe <| .upd <| .lapseAll h) <| .wipe <| .upd <| .lapseAll h
theorem Keeps.reserveGood (h : Keeps a d) : Keeps a (reserveGood d) := .ite (.upd h) h
theorem Keeps.rootRecheck (h : Keeps a d) : Keeps a (rootRecheck d) := .ite (.lateRoot h) h
theorem Keeps.vbatChange {ok reversed : Bool} (h : Keeps a d) : Keeps a (vbatChange d ok reversed) := .ite h <| .ite (.logRec <| .upd h) <| .upd h

/-! ### Power -/

theorem Keeps.requestPower {standby : Bool} (h : Keeps a d) : Keeps a (requestPower d standby) := .ite h <| .upd h
theorem Keeps.settleLink (h : Keeps a d) : Keeps a (settleLink d) := .ite (.upd h) <| .upd h
theorem Keeps.intoStandby (h : Keeps a d) : Keeps a (intoStandby d) :=
  .checkpoint <| .upd <| .foldl (fun _ _ h => .ite (.clearEngine h) h) <| .settleLink h
theorem Keeps.enterPower (h : Keeps a d) : Keeps a (enterPower d) := by
  unfold Machine.enterPower
  dsimp only
  split
  · exact h
  · exact .ite h <| .swdtReload <| .upd <| .ite (.intoStandby h) h
theorem Keeps.refusePower (h : Keeps a d) : Keeps a (refusePower d) := by
  unfold Machine.refusePower
  dsimp only
  split
  · exact h
  · refine .ite h ?_
    split
    · exact .upd h
    · exact h
theorem Keeps.setXwd {i : Island} {c : XwdCnt} (h : Keeps a d) : Keeps a (setXwd d i c) := .upd h
theorem Keeps.countTimeout {i : Island} (h : Keeps a d) : Keeps a (countTimeout d i) := .upd <| .setXwd h
theorem Keeps.resetPke {e' : Nat} (h : Keeps a d) : Keeps a (resetPke d e') := by
  unfold Machine.resetPke
  dsimp only
  split
  · exact .ldgDrain <| .setEng h
  · exact .dropOp <| .ldgDrain <| .setEng h
theorem Keeps.resetSym (h : Keeps a d) : Keeps a (resetSym d) :=
  .pumpLanes <| .ite (.instantiate <| .foldl (fun _ _ h => .laneAbort h) h) <| .foldl (fun _ _ h => .laneAbort h) h
theorem Keeps.resetPcie (h : Keeps a d) : Keeps a (resetPcie d) := .dropFenced <| .fenceWhere <| .upd h
theorem Keeps.dropPort {p : Port} (h : Keeps a d) : Keeps a (dropPort d p) := .sendTrain <| .setPort h
theorem Keeps.resetIsland {i : Island} (h : Keeps a d) : Keeps a (resetIsland d i) := by
  unfold Machine.resetIsland
  split
  · exact .resetPke h
  · exact .resetPke h
  · exact .resetPke h
  · exact .resetPke h
  · exact .resetSym h
  · exact h
  · exact .resetPcie h
  · exact .noteLink <| .dropPort <| .dropPort h
theorem Keeps.crossTimeout {i : Island} (h : Keeps a d) : Keeps a (crossTimeout d i) :=
  .ite h <| .ite (.errF <| .countTimeout <| .upd h) <| .resetIsland <| .errD <| .countTimeout <| .upd h
theorem Keeps.codeFail {i : Island} (h : Keeps a d) : Keeps a (codeFail d i) := .ite h <| .ite (.setXwd h) <| .upd <| .setXwd h
theorem Keeps.watchCrossings (h : Keeps a d) : Keeps a (watchCrossings d) := .foldl (fun _ _ h => .ite (.crossTimeout h) h) h
theorem Keeps.clockChange {e' : Nat} (h : Keeps a d) : Keeps a (clockChange d e') := .ite h <| .sweepWaiting <| .setEng h
theorem Keeps.pllRelock {e' : Nat} (h : Keeps a d) : Keeps a (pllRelock d e') := .ite (.setEng h) h
theorem Keeps.linkTrained {w sp : Nat} (h : Keeps a d) : Keeps a (linkTrained d w sp) := .ite h <| .ite (.logRec <| .upd h) <| .upd h
theorem Keeps.enterD3 (h : Keeps a d) : Keeps a (enterD3 d) := .ite (.upd h) h
theorem Keeps.resumeDma (h : Keeps a d) : Keeps a (resumeDma d) := .pumpParams <| .foldl (fun _ _ h => .unblockAll h) h
theorem Keeps.returnD0 (h : Keeps a d) : Keeps a (returnD0 d) := .ite h <| .resumeDma <| .upd h
theorem Keeps.ledgerCheck (h : Keeps a d) : Keeps a (ledgerCheck d) := by
  unfold Machine.ledgerCheck
  dsimp only
  refine .ite h ?_
  split
  · exact .updLdg <| .takeSample <| .updLdg h
  · exact .ledgerFail <| .takeSample <| .updLdg h
theorem Keeps.pauseTimeout (h : Keeps a d) : Keeps a (pauseTimeout d) := .ite (.errF h) h

/-! ### Pcie -/

theorem Keeps.fromStandby (h : Keeps a d) : Keeps a (fromStandby d) := .checkpoint <| .updLdg <| .ite h <| .instantiate h
theorem Keeps.wakeUp {unlocked : List Island} (h : Keeps a d) : Keeps a (wakeUp d unlocked) := by
  unfold Machine.wakeUp
  dsimp only
  split
  · exact .swdtReload <| .upd h
  · exact .foldl (fun _ _ h => .crossTimeout h) <| .fromStandby <| .swdtReload <| .upd h
  · exact h
theorem Keeps.answerUr {f : Func} (h : Keeps a d) : Keeps a (answerUr d f) := .errC <| .aerReport <| .emit h
theorem Keeps.answerCa {f : Func} (h : Keeps a d) : Keeps a (answerCa d f) := .errC <| .aerReport <| .emit h
theorem Keeps.setStd {f : Func} {off : Nat} {v : Word} (h : Keeps a d) : Keeps a (setStd d f off v) := .ite h <| .setCfg h
theorem Keeps.setMsix {f : Func} {v : Word} (h : Keeps a d) : Keeps a (setMsix d f v) := .unblockAll <| .setCfg h
theorem Keeps.setBusMaster {f : Func} {on : Bool} (h : Keeps a d) : Keeps a (setBusMaster d f on) :=
  .ite (.pumpParams <| .unblockAll <| .setCfg h) <| .setCfg h
theorem Keeps.clearUnc {f : Func} {v : Word} (h : Keeps a d) : Keeps a (clearUnc d f v) := .ite h <| .setCfg h
theorem Keeps.clearCor {f : Func} {v : Word} (h : Keeps a d) : Keeps a (clearCor d f v) := .ite h <| .setCfg h
theorem Keeps.clearStatus {f : Func} {v : Word} (h : Keeps a d) : Keeps a (clearStatus d f v) := .ite h <| .setCfg h
theorem Keeps.writeDevCtl {f : Func} {v : Word} (h : Keeps a d) : Keeps a (writeDevCtl d f v) := .ite (.setStd h) <| .setCfg <| .setStd h
theorem Keeps.setPower {v : Word} (h : Keeps a d) : Keeps a (setPower d v) := by
  unfold Machine.setPower
  dsimp only
  split
  · exact .enterD3 <| .upd h
  · exact .returnD0 <| .upd h
  · exact .upd h
theorem Keeps.sriovCtl {v : Word} (h : Keeps a d) : Keeps a (sriovCtl d v) := .ite (.setVfEnable <| .upd h) <| .clearVfEnable <| .upd h
theorem Keeps.cfgWritePf {off : Nat} {v : Word} (h : Keeps a d) : Keeps a (cfgWritePf d off v) := by
  unfold Machine.cfgWritePf
  dsimp only
  split
  · exact .setBusMaster <| .setCfg <| .setStd <| .clearStatus h
  · exact .upd h
  · exact .upd h
  · exact .setPower h
  · exact .setMsix h
  · exact .ite (.startPfFlr <| .writeDevCtl h) <| .writeDevCtl h
  · exact .clearUnc h
  · exact .clearCor h
  · exact .sriovCtl h
  · exact .upd h
  · exact .upd h
  · exact .upd h
  · exact .upd h
  · exact .setStd h
theorem Keeps.cfgWriteVf {n : Fin 64} {off : Nat} {v : Word} (h : Keeps a d) : Keeps a (cfgWriteVf d n off v) := by
  unfold Machine.cfgWriteVf
  dsimp only
  split
  · exact .setBusMaster <| .clearStatus h
  · exact .setMsix h
  · exact .ite (.startVfFlr <| .writeDevCtl h) <| .writeDevCtl h
  · exact .clearUnc h
  · exact .clearCor h
  · exact h
theorem Keeps.cfgWrite {f : Func} {off : Nat} {v : Word} (h : Keeps a d) : Keeps a (cfgWrite d f off v) := by
  unfold Machine.cfgWrite
  split
  · exact .cfgWritePf h
  · exact .cfgWriteVf h
theorem Keeps.cfgServe {f : Func} {off : Nat} {w : Option Word} (h : Keeps a d) : Keeps a (cfgServe d f off w) := by
  unfold Machine.cfgServe
  refine .ite (.emit h) ?_
  refine .ite (.emit h) ?_
  split
  · exact .emit h
  · exact .emit <| .cfgWrite h
theorem Keeps.configRequest {f : Func} {off : Nat} {w : Option Word} (h : Keeps a d) : Keeps a (configRequest d f off w) :=
  .ite h <| .ite (.holdAccess h) <| .cfgServe h
theorem Keeps.correctableError {f : Func} {k : PcieCorr} (h : Keeps a d) : Keeps a (correctableError d f k) := .ite (.errC <| .aerReport h) h
theorem Keeps.advisoryError {f : Func} {k : PcieAdv} (h : Keeps a d) : Keeps a (advisoryError d f k) := .ite (.errC <| .aerReport h) h
theorem Keeps.fatalError {k : PcieFatal} (h : Keeps a d) : Keeps a (fatalError d k) := .ite h <| .errD <| .upd <| .fenceWhere <| .aerReport h
theorem Keeps.linkDown {c : HotCause} (h : Keeps a d) : Keeps a (linkDown d c) := .dropFenced <| .fenceWhere <| .upd h
theorem Keeps.resetConfig (h : Keeps a d) : Keeps a (resetConfig d) := .upd <| .foldl (fun _ _ h => .freshFunc h) <| .freshPf h
theorem Keeps.dropEngineWork (h : Keeps a d) : Keeps a (dropEngineWork d) :=
  .foldl (fun _ _ h => .ite (.finishAbort h) <| .ite (.finishAbort <| .startAbort h) h) h
theorem Keeps.hotStall {n : Nat} (h : Keeps a d) : Keeps a (hotStall d n) :=
  .disableStall <| .upd <| .setRecovery <| .reclaim <| .squashDma <| .abortStall <| .dropUndispatched h
theorem Keeps.hotStalls (h : Keeps a d) : Keeps a (hotStalls d) := .updStl <| .foldl (fun _ _ h => .hotStall h) h
theorem Keeps.hotLedger (h : Keeps a d) : Keeps a (hotLedger d) :=
  .takeSample <| .foldl (fun _ _ h => .ite h <| .ldgIssue h) <| .initLedger <| .retireAll h
theorem Keeps.hotRun (h : Keeps a d) : Keeps a (hotRun d) :=
  .hotLedger <| .resetConfig <| .hotStalls <| .dropEngineWork <| .dropPf <| .ite (.sealNow <| .upd <| .wakeUp h) <| .upd <| .wakeUp h
theorem Keeps.hotReset {c : HotCause} (h : Keeps a d) : Keeps a (hotReset d c) := by
  unfold Machine.hotReset
  dsimp only
  refine .ite h ?_
  refine .ite (.linkDown h) ?_
  split
  · exact .hotRun <| .linkDown h
  · exact .resetConfig <| .upd <| .linkDown h

/-! ### Timers -/

theorem Keeps.setTmr {t : Nat} {x : Timer} (h : Keeps a d) : Keeps a (setTmr d t x) := .upd h
theorem Keeps.tmrIrq {t : Nat} (h : Keeps a d) : Keeps a (tmrIrq d t) := .ite (.raiseSecure h) <| .raiseNormal h
theorem Keeps.zeroTimer {t : Nat} (h : Keeps a d) : Keeps a (zeroTimer d t) := .ite h <| .wake <| .ite (.tmrIrq <| .setTmr h) <| .setTmr h
theorem Keeps.armTimer {t : Nat} (h : Keeps a d) : Keeps a (armTimer d t) := .ite h <| .setTmr h
theorem Keeps.stopTimer {t : Nat} (h : Keeps a d) : Keeps a (stopTimer d t) := .ite (.setTmr h) h
theorem Keeps.captureAt {t : Nat} {rising : Bool} (h : Keeps a d) : Keeps a (captureAt d t rising) :=
  .ite h <| .ite (.ite (.tmrIrq <| .setTmr h) <| .setTmr h) <| .setTmr h
theorem Keeps.addTicks {t : Nat} {n : Nat × Nat} (h : Keeps a d) : Keeps a (addTicks d t n) := .ite (.zeroTimer h) <| .setTmr h
theorem Keeps.pinEdge {pin : Nat} {rising : Bool} (h : Keeps a d) : Keeps a (pinEdge d pin rising) :=
  .ite h <| .foldl (fun _ _ h => .addTicks h) <| .upd h
theorem Keeps.captureEdge {t : Nat} {rising : Bool} (h : Keeps a d) : Keeps a (captureEdge d t rising) := .ite h <| .captureAt <| .pinEdge h
theorem Keeps.popCapture {t : Nat} (h : Keeps a d) : Keeps a (popCapture d t) := by
  unfold Machine.popCapture
  dsimp only
  refine .ite h ?_
  split
  · exact .ite (.ite (.tmrIrq <| .setTmr h) <| .setTmr h) <| .setTmr h
  · exact .setTmr h
theorem Keeps.tmrWrite {t off : Nat} {f : Dev → Dev} (hf : ∀ d, Keeps a d → Keeps a (f d)) (h : Keeps a d) : Keeps a (tmrWrite d t off f) :=
  .ite h <| .ite (.violate h) <| hf _ h
theorem Keeps.tickTimer {t : Nat} (h : Keeps a d) : Keeps a (tickTimer d t) := .ite h <| .addTicks h
theorem Keeps.tickTimers (h : Keeps a d) : Keeps a (tickTimers d) := .foldl (fun _ _ h => .tickTimer h) h
theorem Keeps.tickWatchdog (h : Keeps a d) : Keeps a (tickWatchdog d) := .ite (.warmReset <| .upd h) <| .ite h <| .upd <| .swdtWarn h
theorem Keeps.takeIrq (h : Keeps a d) : Keeps a (takeIrq d) := by
  unfold Machine.takeIrq
  dsimp only
  refine .ite (.emit <| .upd h) ?_
  refine .ite ?_ h
  split
  · exact .emit <| .upd h
  · exact h
theorem Keeps.tickCps (h : Keeps a d) : Keeps a (tickCps d) := .ite h <| .upd <| .takeIrq <| .upd h
theorem Keeps.tickChain (h : Keeps a d) : Keeps a (tickChain d) := .ite h <| .upd h
theorem Keeps.tickCrossings (h : Keeps a d) : Keeps a (tickCrossings d) := .ite (.watchCrossings h) h
theorem Keeps.tickDrbg (h : Keeps a d) : Keeps a (tickDrbg d) := .ite (.reseed h) h
theorem Keeps.nextCycle (h : Keeps a d) : Keeps a (nextCycle d) := .upd <| .judgeQueues h
theorem Keeps.tick (h : Keeps a d) : Keeps a (tick d) :=
  .tickDrbg <| .tickCps <| .tickCrossings <| .tickTimers <| .tickWatchdog <| .tickChain <| .nextCycle h

/-! ### RegMap -/

theorem Keeps.setEngCnt {e' : Nat} {f : Pke → Pke} (h : Keeps a d) : Keeps a (setEngCnt d e' f) := .setEng h
theorem Keeps.clearRc {p : Page} {o lo : Nat} (h : Keeps a d) : Keeps a (clearRc d p o lo) := by
  unfold Machine.clearRc
  dsimp only
  split
  · exact .ite (.upd h) <| .upd h
  · exact .upd h
  · exact .ite (.setEngCnt h) <| .setEngCnt h
  · exact .upd h
  · exact .upd h
  · exact .upd h
  · exact .upd h
  · exact .upd h
  · exact .modStall h
  · exact .setRing h
  · exact h
theorem Keeps.clearWord {p : Page} {a' n o : Nat} (h : Keeps a d) : Keeps a (clearWord d p a' n o) := .foldl (fun _ _ h => .clearRc h) h
theorem Keeps.clearRead {p : Page} {a' n : Nat} (h : Keeps a d) : Keeps a (clearRead d p a' n) := .foldl (fun _ _ h => .clearWord h) h

/-! ### Registers -/

theorem Keeps.writeGlb {o : Nat} {w : Wr} (h : Keeps a d) : Keeps a (writeGlb d o w) := by
  unfold Machine.writeGlb
  dsimp only
  split
  · exact .ite (.requestPower h) <| .ite (.requestPower h) h
  · exact .upd h
  · exact .ite (.softWrite h) h
  · exact .upd h
  · exact .upd h
  · exact .updLdg h
  · exact .upd h
  · exact h
theorem Keeps.writeWm {ps : Bool} {v : Word} (h : Keeps a d) : Keeps a (writeWm d ps v) := .ite (.ite h <| .upd h) <| .ite h <| .upd h
theorem Keeps.writeHandover {m : Master} {v : Word} {go : Bool} (h : Keeps a d) : Keeps a (writeHandover d m v go) :=
  .ite (.startHandover h) <| .ite h <| .upd h
theorem Keeps.writeMpu {o : Nat} {v : Word} (h : Keeps a d) : Keeps a (writeMpu d o v) := .ite h <| .upd h
theorem Keeps.writeFw {o : Nat} {v : Word} (h : Keeps a d) : Keeps a (writeFw d o v) := .ite h <| .upd h
theorem Keeps.writeSec {m : Master} {o : Nat} {w : Wr} (h : Keeps a d) : Keeps a (writeSec d m o w) := by
  unfold Machine.writeSec
  dsimp only
  split
  · exact .writeWm h
  · exact .writeWm h
  · exact .writeHandover h
  · exact .upd h
  · exact .kick h
  · exact .upd h
  · exact .upd h
  · exact .ite (.startBarrier h) h
  · exact .ite (.popViolation h) h
  · exact .ite (.writeMpu h) <| .ite (.writeFw h) h
theorem Keeps.writeHif {o : Nat} {w : Wr} (h : Keeps a d) : Keeps a (writeHif d o w) := .ite (.upd h) h
theorem Keeps.writeKey {o : Nat} {w : Wr} (h : Keeps a d) : Keeps a (writeKey d o w) := .ite (.upd h) h
theorem Keeps.writePke {m : Master} {e' o : Nat} {w : Wr} (h : Keeps a d) : Keeps a (writePke d m e' o w) := by
  unfold Machine.writePke
  dsimp only
  split
  · exact .setEng h
  · exact .ite h <| .abortWrite h
  · exact .setEng h
  · exact h
theorem Keeps.writeChn {o : Nat} {w : Wr} (h : Keeps a d) : Keeps a (writeChn d o w) := by
  unfold Machine.writeChn
  dsimp only
  split
  · exact .ite (.noteLink <| .reenum h) h
  · exact .upd h
  · exact .ite (.upd h) h
theorem Keeps.writeMgt {o : Nat} {w : Wr} (h : Keeps a d) : Keeps a (writeMgt d o w) := by
  unfold Machine.writeMgt
  dsimp only
  split
  · exact .upd h
  · exact .upd h
  · exact h
theorem Keeps.writeTmr {t o : Nat} {w : Wr} (h : Keeps a d) : Keeps a (writeTmr d t o w) := by
  unfold Machine.writeTmr
  dsimp only
  split
  · exact .ite (.stopTimer <| .setTmr h) <| .ite (.armTimer <| .setTmr h) <| .setTmr h
  · exact .setTmr h
  · exact .ite h <| .setTmr h
  · exact .ite (.popCapture <| .setTmr h) <| .setTmr h
  · exact h
theorem Keeps.shadowWrite {f : ClsBank → ClsBank} (h : Keeps a d) : Keeps a (shadowWrite d f) := .ite (.setCls h) <| .setCls h
theorem Keeps.entryWrite {f : ClsEntry → ClsEntry} (h : Keeps a d) : Keeps a (entryWrite d f) := .ite h <| .shadowWrite h
theorem Keeps.writeCls {m : Master} {o : Nat} {w : Wr} (h : Keeps a d) : Keeps a (writeCls d m o w) := by
  unfold Machine.writeCls
  dsimp only
  split
  · exact .ite (.startSwitch <| .ite (.setCls h) h) <| .ite (.setCls h) h
  · exact .shadowWrite h
  · exact .setCls h
  · exact .ite h <| .trapPop h
  · exact .entryWrite h
  · exact .ite (.entryWrite h) <| .ite (.entryWrite h) <| .ite (.shadowWrite h) <| .ite (.shadowWrite h) <| .ite (.shadowWrite h) h
theorem Keeps.writeYrd {o : Nat} {w : Wr} (h : Keeps a d) : Keeps a (writeYrd d o w) := by
  unfold Machine.writeYrd
  dsimp only
  split
  · exact .upd h
  · exact .upd h
  · exact h
theorem Keeps.writeYardWin {q o : Nat} {w : Wr} (h : Keeps a d) : Keeps a (writeYardWin d q o w) := by
  unfold Machine.writeYardWin
  dsimp only
  split
  · exact .setQueue h
  · exact .setQueue h
  · exact .setQueue h
  · exact h
theorem Keeps.writeStl {o : Nat} {w : Wr} (h : Keeps a d) : Keeps a (writeStl d o w) := .ite (.ite (.partitionChange h) <| .updStl h) h
theorem Keeps.writeStallPf {n : Fin 64} {o : Nat} {w : Wr} (h : Keeps a d) : Keeps a (writeStallPf d n o w) := by
  unfold Machine.writeStallPf
  dsimp only
  split
  · exact .ite (.stallCtl h) <| .modStall h
  · exact .ite (.mbSend h) h
  · exact .modStall h
  · exact .modStall h
  · exact .modStall h
  · exact .modStall h
  · exact .modStall h
  · exact .modStall h
  · exact .modStall h
  · exact .modStall h
  · exact .modStall h
  · exact .ite (.updStl <| .modStall h) h
  · exact h
theorem Keeps.writeStallVf {n : Fin 64} {o : Nat} {w : Wr} (h : Keeps a d) : Keeps a (writeStallVf d n o w) := by
  unfold Machine.writeStallVf
  refine .ite h ?_
  split
  · exact .ite (.mbSend h) h
  · exact .ite (.modStall h) h
  · exact h
theorem Keeps.writeBase {r : RingId} {o : Nat} {v : Word} (h : Keeps a d) : Keeps a (writeBase d r o v) := by
  unfold Machine.writeBase
  dsimp only
  refine .ite h ?_
  split
  · exact .setRing h
  · exact .setRing h
  · exact .setRing h
  · exact .setRing h
theorem Keeps.writeRing {r : RingId} {side : Side} {o : Nat} {w : Wr} (h : Keeps a d) : Keeps a (writeRing d r side o w) := by
  unfold Machine.writeRing
  dsimp only
  refine .ite h ?_
  split
  · exact .ite (.ringEnable h) <| .ite h <| .setRing h
  · exact .sqTailWrite h
  · split
    · exact .ite h <| .ringRestore h
    · exact h
  · exact .cqHeadWrite h
  · split
    · exact .ite h <| .ringRestore h
    · exact h
  · exact .ite (.writeBase h) h
theorem Keeps.writeMsix {f : Func} {o : Nat} {w : Wr} (h : Keeps a d) : Keeps a (writeMsix d f o w) :=
  .ite (.ite (.setCfg h) <| .unblock <| .setCfg h) <| .setCfg h
theorem Keeps.writeReg {m : Master} {p : Page} {o : Nat} {w : Wr} (h : Keeps a d) : Keeps a (writeReg d m p o w) := by
  unfold Machine.writeReg
  split
  · exact .writeGlb h
  · exact .writeSec h
  · exact .writeHif h
  · exact .writeKey h
  · exact .writePke h
  · exact h
  · exact h
  · exact h
  · exact h
  · exact h
  · exact .writeChn h
  · exact .writeTmr h
  · exact .writeMgt h
  · exact .writeCls h
  · exact .writeYrd h
  · exact .ite h <| .sharedWrite (fun _ _ h => .writeYardWin h) h
  · exact .writeStl h
  · split
    · exact .writeStallPf h
    · exact .writeStallVf h
  · exact .sharedWrite (fun _ _ h => .writeRing h) h
  · exact .writeMsix h
  · exact h
theorem Keeps.writeBytes {m : Master} {p : Page} {a' : Nat} {b : Bytes} (h : Keeps a d) : Keeps a (writeBytes d m p a' b) :=
  .foldl (fun _ _ h => .writeReg h) h
theorem Keeps.boardWrite {n : Fin 64} {side : Side} {o : Nat} {b : Bytes} (h : Keeps a d) : Keeps a (boardWrite d n side o b) :=
  .ite h (h.boards (memWf_memWriteBytes _ _ _))

/-! ### Access -/

theorem Keeps.hostWriteReg {f : Func} {p : Page} {a' o : Nat} {b : Bytes} (h : Keeps a d) : Keeps a (hostWriteReg d f p a' o b) :=
  .ite (.violate h) <| .ite (.violate h) <| .writeBytes h
theorem Keeps.hostStore {f : Func} {a' : Nat} {b : Bytes} (h : Keeps a d) : Keeps a (hostStore d f a' b) := by
  unfold Machine.hostStore
  split
  · exact .hostWriteReg h
  · exact .boardWrite h
  · exact .violate h
  · exact h
theorem Keeps.hostLoad {f : Func} {a' n : Nat} (h : Keeps a d) : Keeps a (hostLoad d f a' n) := by
  unfold Machine.hostLoad
  dsimp only
  split
  · exact .ite (.emit <| .violate h) <| .emit <| .clearRead h
  · exact .emit h
  · exact .emit h
  · exact .emit h
theorem Keeps.hostGate {f : Func} {x n : Nat} (he : hostGate d f x n = some e) (h : Keeps a d) : Keeps a e := by
  unfold Machine.hostGate at he
  split at he
  · cases he; exact h.emit
  · split at he
    · cases he; exact h.emit
    · split at he
      · cases he; exact h.answerUr
      · split at he
        · cases he; exact h.answerCa
        · cases he
theorem Keeps.hostServeWrite {f : Func} {a' : Nat} {b : Bytes} (h : Keeps a d) : Keeps a (hostServeWrite d f a' b) := by
  unfold Machine.hostServeWrite
  split
  next e0 he => exact (.hostGate he h)
  · exact .hostStore h
theorem Keeps.hostServeRead {f : Func} {a' n : Nat} (h : Keeps a d) : Keeps a (hostServeRead d f a' n) := by
  unfold Machine.hostServeRead
  split
  next e0 he => exact (.hostGate he h)
  · exact .hostLoad h
theorem Keeps.hostReach {held : HeldAccess} {serve : Dev → Dev} (hserve : ∀ d, Keeps a d → Keeps a (serve d)) (h : Keeps a d) : Keeps a (hostReach d held serve) :=
  .ite h <| .ite (.holdAccess h) <| hserve _ h
theorem Keeps.checked (h : Keeps a d) : Keeps a (checked d) := .ite h <| .upd h
theorem Keeps.pkeSetByte {e' o : Nat} {b : Byte} (h : Keeps a d) : Keeps a (pkeSetByte d e' o b) := .ite (.setEng h) <| .ite (.setEng h) h
theorem Keeps.innerRead {i : Inner} {a' n : Nat} (h : Keeps a d) : Keeps a (innerRead d i a' n).1 := by
  unfold Machine.innerRead
  split
  · exact h
  · exact .upd h
  · exact .upd h
  · exact h
  · exact .upd h
  · exact .upd h
  · exact .clearRead h
  · exact h
  · exact h
  · exact h
theorem Keeps.writeFrom {f : Dev → Nat → Byte → Dev} (hf : ∀ d k x, Keeps a d → Keeps a (f d k x)) {k : Nat} {b : Bytes} (h : Keeps a d) : Keeps a (writeFrom f d k b) := by
  induction b generalizing d k with
  | nil => exact h
  | cons x b ih => exact ih (hf _ _ _ h)
theorem Keeps.innerWrite {m : Master} {i : Inner} {x : Nat} {b : Bytes} (h : Keeps a d) : Keeps a (innerWrite d m i x b) := by
  unfold Machine.innerWrite
  split
  · exact h.sram (memWf_memWriteBytes _ _ _)
  · exact .ite h ⟨h.ledger, fun ha => ⟨(h.memory ha).1, (h.memory ha).2.1, memWf_memWriteBytes _ _ _ (h.memory ha).2.2⟩⟩
  · exact h.writeFrom fun _ _ _ h => h.pkeSetByte
  · exact h.writeBytes
  · exact h.boardWrite
  · exact h
theorem Keeps.refuseAccess {m : Master} {i : Inner} {a' kind : Nat} {x : Denial} (h : Keeps a d) : Keeps a (refuseAccess d m i a' kind x) :=
  .ite (.violate <| .checked h) <| .ite (.emit <| .violate <| .checked h) <| .emit <| .violate <| .checked h
theorem Keeps.busWrite {m : Master} {a' : Nat} {b : Bytes} (h : Keeps a d) : Keeps a (busWrite d m a' b) := by
  unfold Machine.busWrite
  dsimp only
  refine .ite h ?_
  split
  · exact .refuseAccess h
  · exact .ite (.innerWrite <| .checked h) <| .emit <| .innerWrite <| .innerRead <| .checked h
theorem Keeps.busRead {m : Master} {a' n : Nat} (h : Keeps a d) : Keeps a (busRead d m a' n) := by
  unfold Machine.busRead
  dsimp only
  refine .ite h ?_
  split
  · exact .refuseAccess h
  · exact .emit <| .innerRead <| .checked h
theorem Keeps.registerWrite {m : Master} {a' n : Nat} {v : Bytes} (h : Keeps a d) : Keeps a (registerWrite d m a' n v) := by
  unfold Machine.registerWrite
  dsimp only
  split
  · exact .hostReach (fun _ h => .hostServeWrite h) h
  · exact .busWrite h
theorem Keeps.registerRead {m : Master} {a' n : Nat} (h : Keeps a d) : Keeps a (registerRead d m a' n) := by
  unfold Machine.registerRead
  split
  · exact .hostReach (fun _ h => .hostServeRead h) h
  · exact .busRead h

/-! ### DebugPort -/

theorem Keeps.debugRead {a' : DebugAcc} (h : Keeps a d) : Keeps a (debugRead d a').1 := by
  unfold Machine.debugRead
  dsimp only
  split
  · exact .upd h
  · exact h
  · exact h
  · split
    · exact h
    · exact .upd h
  · exact .iteFst h (.innerRead h)
  · exact .innerRead h
theorem Keeps.debugWrite {x : DebugAcc} (h : Keeps a d) : Keeps a (debugWrite d x) := by
  unfold Machine.debugWrite
  split
  · split
    · exact h.writeBytes
    · exact h
  · exact h.sram (memWf_memWrite _ _ _)
theorem Keeps.debugDo {a' : DebugAcc} (h : Keeps a d) : Keeps a (debugDo d a') := by
  unfold Machine.debugDo
  dsimp only
  split
  · exact .tapReport <| .debugRead h
  · exact .tapReport <| .debugWrite h
  · exact .tapReport <| .upd h
  · exact .tapReport <| .upd h
  · exact .tapReport h
  · exact .tapReport <| .upd h
  · exact .tapReport <| .upd h
theorem Keeps.debugAccess {a' : DebugAcc} (h : Keeps a d) : Keeps a (debugAccess d a') :=
  .ite h <| .ite (.tapReport h) <| .ite (.tapReport h) <| .ite (.upd <| .wake h) <| .debugDo h
theorem Keeps.abortAll (h : Keeps a d) : Keeps a (abortAll d) := by
  unfold Machine.abortAll
  dsimp only
  refine .foldl (fun _ _ h => .abortReq h) ?_
  refine .foldl (fun _ _ h => .abortReq h) ?_
  refine .foldl (fun _ _ h => .laneAbort h) ?_
  refine .stopEngines ?_
  refine .foldl (fun _ _ h => ?_) (.upd h)
  split
  · exact .cutSecure h
  · exact h
theorem Keeps.tapExtest (h : Keeps a d) : Keeps a (tapExtest d) :=
  .ite h <| .ite (.tapReport h) <| .ite (.tapReport h) <| .tapReport <| .upd <| .abortAll <| .setInstr h

/-! ### Mgmt -/

theorem Keeps.setMgt {m : Mgt} (h : Keeps a d) : Keeps a (setMgt d m) := .upd h
theorem Keeps.reply {b : Bytes} (h : Keeps a d) : Keeps a (reply d b) := .emit h
theorem Keeps.openBytes {n : Nat} (h : Keeps a d) : Keeps a (openBytes d n).2 := .upd h
theorem Keeps.mgtAccess {x : MgtOp} {serve : Dev → Dev} (hserve : ∀ d, Keeps a d → Keeps a (serve d)) (h : Keeps a d) : Keeps a (mgtAccess d x serve) := by
  unfold Machine.mgtAccess
  dsimp only
  split
  · exact h
  · exact h
  · exact .ite h <| .ite (.wake <| .emit h) <| .upd <| .wake h
  · exact .ite h <| .ite (.emit h) <| hserve _ (.wake h)
theorem Keeps.inI3c {f : Dev → Dev} (hf : ∀ d, Keeps a d → Keeps a (f d)) (h : Keeps a d) : Keeps a (inI3c d f) := .ite (hf _ h) h
theorem Keeps.takeAddr {a' : BitVec 7} (h : Keeps a d) : Keeps a (takeAddr d a') := .ite h <| .setMgt h
theorem Keeps.toSmbus (h : Keeps a d) : Keeps a (toSmbus d) := .setMgt h
theorem Keeps.sendStatus (h : Keeps a d) : Keeps a (sendStatus d) := .reply <| .openBytes h
theorem Keeps.answerAra (h : Keeps a d) : Keeps a (answerAra d) := .ite h <| .reply h
theorem Keeps.countMsg (h : Keeps a d) : Keeps a (countMsg d) := .setMgt h
theorem Keeps.countPkt (h : Keeps a d) : Keeps a (countPkt d) := .setMgt h
theorem Keeps.ctlReply {b : Bytes} {code : Byte} {rest : Bytes} (h : Keeps a d) : Keeps a (ctlReply d b code rest) := .reply h
theorem Keeps.spdmError {code : Byte} (h : Keeps a d) : Keeps a (spdmError d code) := .reply h
theorem Keeps.devReply {b : Bytes} {st : Half} {rest : Bytes} (h : Keeps a d) : Keeps a (devReply d b st rest) := .reply h
theorem Keeps.busyReply {b : Bytes} (h : Keeps a d) : Keeps a (busyReply d b) :=
  .ite (.ctlReply <| .countMsg h) <| .ite (.spdmError <| .countMsg h) <| .ite (.devReply <| .countMsg h) <| .countMsg h
theorem Keeps.setEid {b : Bytes} (h : Keeps a d) : Keeps a (setEid d b) := .ite (.ctlReply h) <| .ctlReply <| .setMgt h
theorem Keeps.ctlMsg {b : Bytes} (h : Keeps a d) : Keeps a (ctlMsg d b) := by
  unfold Machine.ctlMsg
  dsimp only
  split
  · exact .setEid h
  · exact .ctlReply h
  · exact .ctlReply h
  · exact .ctlReply h
  · exact .ctlReply <| .openBytes h
  · exact .ctlReply h
theorem Keeps.keepTranscript {stage : Nat} {b r : Bytes} (h : Keeps a d) : Keeps a (keepTranscript d stage b r) := .reply <| .setMgt h
theorem Keeps.spdmVersion {b : Bytes} (h : Keeps a d) : Keeps a (spdmVersion d b) := .keepTranscript <| .setMgt h
theorem Keeps.spdmCaps {b : Bytes} (h : Keeps a d) : Keeps a (spdmCaps d b) := .keepTranscript <| .openBytes h
theorem Keeps.spdmAlgs {b : Bytes} (h : Keeps a d) : Keeps a (spdmAlgs d b) := .keepTranscript h
theorem Keeps.spdmSign {context : String} {m : Bytes} (h : Keeps a d) : Keeps a (spdmSign d context m).2 := h.draw (n := 64)
theorem Keeps.spdmChallenge {b : Bytes} (h : Keeps a d) : Keeps a (spdmChallenge d b) :=
  .ite (.spdmError h) <| .ite (.spdmError h) <| .reply <| .spdmSign <| .draw h
theorem Keeps.spdmMeas {b : Bytes} (h : Keeps a d) : Keeps a (spdmMeas d b) :=
  .ite (.spdmError h) <| .ite (.spdmError h) <| .ite (.reply <| .setMgt <| .openBytes h) <| .reply <| .setMgt <| .spdmSign <| .openBytes h
theorem Keeps.spdmMsg {b : Bytes} (h : Keeps a d) : Keeps a (spdmMsg d b) := by
  unfold Machine.spdmMsg
  dsimp only
  split
  · exact .spdmVersion h
  · exact .ite (.spdmError h) <| .spdmCaps h
  · exact .ite (.spdmError h) <| .spdmAlgs h
  · exact .ite (.spdmError h) <| .spdmChallenge h
  · exact .ite (.spdmError h) <| .spdmMeas h
  · exact .spdmError h
theorem Keeps.devCommand {b : Bytes} (h : Keeps a d) : Keeps a (devCommand d b) := by
  unfold Machine.devCommand
  dsimp only
  refine .ite (.endNew h) ?_
  split
  next e0 he => exact (.intake he h)
  · exact .mgtBusy h
theorem Keeps.stallView {b : Bytes} (h : Keeps a d) : Keeps a (stallView d b) := .ite (.devReply h) <| .devReply h
theorem Keeps.stallAct {b : Bytes} (h : Keeps a d) : Keeps a (stallAct d b) :=
  .ite (.devReply h) <| .ite (.devReply h) <| .ite (.devReply h) <| .devReply <| .stallOp h
theorem Keeps.snapshot {b : Bytes} (h : Keeps a d) : Keeps a (snapshot d b) := .devReply <| .setMgt h
theorem Keeps.attestKeys {b : Bytes} (h : Keeps a d) : Keeps a (attestKeys d b) := .ite (.devReply h) <| .devReply h
theorem Keeps.devMessage {b : Bytes} (h : Keeps a d) : Keeps a (devMessage d b) := by
  unfold Machine.devMessage
  refine .ite h ?_
  split
  · exact .devCommand h
  · exact .stallView h
  · exact .stallAct h
  · exact .snapshot h
  · exact .attestKeys h
  · exact .devReply h
theorem Keeps.deliverMsg {null : Bool} {b : Bytes} (h : Keeps a d) : Keeps a (deliverMsg d null b) :=
  .ite h <| .ite h <| .ite (.countMsg h) <| .ite (.busyReply h) <| .ite (.ctlMsg h) <| .ite (.spdmMsg h) <| .devMessage h
theorem Keeps.dropAsm {k : AsmKey} (h : Keeps a d) : Keeps a (dropAsm d k) := .setMgt h
theorem Keeps.addAsm {a' : Asm} (h : Keeps a d) : Keeps a (addAsm d a') := .setMgt h
theorem Keeps.putAsm {a' : Asm} (h : Keeps a d) : Keeps a (putAsm d a') := .setMgt h
theorem Keeps.growAsm {k : AsmKey} {p : McPacket} {since : Nat} {fresh : Bool} {b : Bytes} (h : Keeps a d) : Keeps a (growAsm d k p since fresh b) :=
  .ite (.deliverMsg <| .ite h <| .dropAsm h) <| .ite (.countMsg <| .dropAsm h) <| .ite (.addAsm h) <| .putAsm h
theorem Keeps.firstPacket {k : AsmKey} {p : McPacket} (h : Keeps a d) : Keeps a (firstPacket d k p) :=
  .ite (.busyReply <| .ite (.countMsg <| .dropAsm h) h) <| .growAsm <| .ite (.countMsg <| .dropAsm h) h
theorem Keeps.laterPacket {k : AsmKey} {p : McPacket} (h : Keeps a d) : Keeps a (laterPacket d k p) := by
  unfold Machine.laterPacket
  split
  · exact h
  · exact .ite (.countMsg <| .dropAsm h) <| .growAsm h
theorem Keeps.takePkt {p : McPacket} (h : Keeps a d) : Keeps a (takePkt d p) :=
  .ite (.emit h) <| .ite (.countPkt h) <| .ite h <| .ite (.firstPacket h) <| .laterPacket h
theorem Keeps.asmTimeout {k : AsmKey} (h : Keeps a d) : Keeps a (asmTimeout d k) := .ite (.countMsg <| .dropAsm h) h
theorem Keeps.mgtServe {x : MgtOp} (h : Keeps a d) : Keeps a (mgtServe x d) := by
  unfold Machine.mgtServe
  dsimp only
  split
  · exact .inI3c (fun _ h => .setMgt h) h
  · exact .inI3c (fun _ h => .setMgt h) h
  · exact .inI3c (fun _ h => .toSmbus h) h
  · exact .takeAddr h
  · exact .takeAddr h
  · exact .inI3c (fun _ h => .setMgt h) h
  · exact .inI3c (fun _ h => .reply h) h
  · exact .inI3c (fun _ h => .reply h) h
  · exact .inI3c (fun _ h => .reply h) h
  · exact .inI3c (fun _ h => .sendStatus h) h
  · exact .answerAra h
  · exact .takePkt h
  · exact .deliverMsg h
theorem Keeps.mgtRow {x : MgtOp} (h : Keeps a d) : Keeps a (mgtRow x d) := .mgtAccess (fun _ h => .mgtServe h) h
theorem Keeps.replay {h' : HeldAccess} (h : Keeps a d) : Keeps a (replay d h') := by
  unfold Machine.replay
  split
  · exact .registerWrite h
  · exact .registerRead h
  · exact .configRequest h
  · exact .debugAccess h
  · exact .command (fun _ _ h => .ite (.runSelfTest h) <| .runCmd h) h
  · exact .mgtRow h
theorem Keeps.wakeComplete {unlocked : List Island} (h : Keeps a d) : Keeps a (wakeComplete d unlocked) :=
  .ite h <| .foldl (fun _ _ h => .replay h) <| .upd <| .wakeUp h

/-! ### The rows -/

theorem Keeps.run {f : Dev → Dev} {s t : State} (h : onDev f s = .next t) (hf : ∀ d, Keeps d (f d)) : Keeps s.toDev t.toDev := by
  cases h
  exact hf _

theorem Keeps.runChn {f : Dev → Dev} {s t : State} (h : onChn f s = .next t) (hf : ∀ d, Keeps d (f d)) : Keeps s.toDev t.toDev := by
  cases h
  exact (hf _).noteLink

/-- Every row keeps the pools and the byte stores. -/
theorem exec_keeps (i : Instr) {s t : State} (h : exec i s = .next t) : Keeps s.toDev t.toDev := by
  unfold exec at h
  cases i with
  | nop _ => exact .run h fun d => .command (fun _ _ h => .runNop h) <| .refl d
  | infoDevice _ => exact .run h fun d => .command (fun _ _ h => .runInfoDevice h) <| .refl d
  | infoStall _ => exact .run h fun d => .command (fun _ _ h => .runInfoStall h) <| .refl d
  | keyGenerate _ => exact .run h fun d => .command (fun _ _ h => .runKeyGenerate h) <| .refl d
  | keyImport _ => exact .run h fun d => .command (fun _ _ h => .runKeyImport h) <| .refl d
  | keyLoad _ => exact .run h fun d => .command (fun _ _ h => .runKeyLoad h) <| .refl d
  | keyUnload _ => exact .run h fun d => .command (fun _ _ h => .runKeyUnload h) <| .refl d
  | keyWrap _ => exact .run h fun d => .command (fun _ _ h => .runKeyWrap h) <| .refl d
  | keySetUsage _ => exact .run h fun d => .command (fun _ _ h => .runKeySetUsage h) <| .refl d
  | keyExport _ => exact .run h fun d => .command (fun _ _ h => .runKeyExport h) <| .refl d
  | keyAonPut _ => exact .run h fun d => .command (fun _ _ h => .runKeyAonPut h) <| .refl d
  | keyInfo _ => exact .run h fun d => .command (fun _ _ h => .runKeyInfo h) <| .refl d
  | keyPublic _ => exact .run h fun d => .command (fun _ _ h => .runKeyPublic h) <| .refl d
  | pkSign _ => exact .run h fun d => .command (fun _ _ h => .runPk h) <| .refl d
  | pkVerify _ => exact .run h fun d => .command (fun _ _ h => .runPk h) <| .refl d
  | pkEncaps _ => exact .run h fun d => .command (fun _ _ h => .runPk h) <| .refl d
  | pkDecaps _ => exact .run h fun d => .command (fun _ _ h => .runPk h) <| .refl d
  | pkAgree _ => exact .run h fun d => .command (fun _ _ h => .runPk h) <| .refl d
  | pkMacRun _ => exact .run h fun d => .command (fun _ _ h => .runPk h) <| .refl d
  | symCipher _ => exact .run h fun d => .command (fun _ _ h => .symStart h) <| .refl d
  | symMac _ => exact .run h fun d => .command (fun _ _ h => .symStart h) <| .refl d
  | hash _ => exact .run h fun d => .command (fun _ _ h => .symStart h) <| .refl d
  | symKdf _ => exact .run h fun d => .command (fun _ _ h => .symStart h) <| .refl d
  | symKw _ => exact .run h fun d => .command (fun _ _ h => .symStart h) <| .refl d
  | symRng _ => exact .run h fun d => .command (fun _ _ h => .symStart h) <| .refl d
  | ownerCreate _ => exact .run h fun d => .command (fun _ _ h => .runOwnerCreate h) <| .refl d
  | ownerDelete _ => exact .run h fun d => .command (fun _ _ h => .runOwnerDelete h) <| .refl d
  | ownerBind _ => exact .run h fun d => .command (fun _ _ h => .runOwnerBind h) <| .refl d
  | ownerUnbind _ => exact .run h fun d => .command (fun _ _ h => .runOwnerUnbind h) <| .refl d
  | ownerSetPolicy _ => exact .run h fun d => .command (fun _ _ h => .runOwnerSetPolicy h) <| .refl d
  | quorumStatus _ => exact .run h fun d => .command (fun _ _ h => .runQuorumStatus h) <| .refl d
  | quorumCancel _ => exact .run h fun d => .command (fun _ _ h => .runQuorumCancel h) <| .refl d
  | bwLoadManifest _ => exact .run h fun d => .command (fun _ _ h => .runBwLoadManifest h) <| .refl d
  | bwSeal _ => exact .run h fun d => .command (fun _ _ h => .runBwSeal h) <| .refl d
  | bwGetJournal _ => exact .run h fun d => .command (fun _ _ h => .runBwGetJournal h) <| .refl d
  | logAppend _ => exact .run h fun d => .command (fun _ _ h => .runLogAppend h) <| .refl d
  | logRead _ => exact .run h fun d => .command (fun _ _ h => .runLogRead h) <| .refl d
  | logStatus _ => exact .run h fun d => .command (fun _ _ h => .runLogStatus h) <| .refl d
  | chnStatus _ => exact .run h fun d => .command (fun _ _ h => .runChnStatus h) <| .refl d
  | chnReplicate _ => exact .run h fun d => .command (fun _ _ h => .runChnReplicate h) <| .refl d
  | chnAdmit _ => exact .run h fun d => .command (fun _ _ h => .runChnAdmit h) <| .refl d
  | chnSetEpoch _ => exact .run h fun d => .command (fun _ _ h => .runChnSetEpoch h) <| .refl d
  | lcGetState _ => exact .run h fun d => .command (fun _ _ h => .runLcGetState h) <| .refl d
  | lcTransition _ => exact .run h fun d => .command (fun _ _ h => .runLcTransition h) <| .refl d
  | lcResume _ => exact .run h fun d => .command (fun _ _ h => .runLcResume h) <| .refl d
  | dbgChallenge _ => exact .run h fun d => .command (fun _ _ h => .runDbgChallenge h) <| .refl d
  | dbgResponse _ => exact .run h fun d => .command (fun _ _ h => .runDbgResponse h) <| .refl d
  | pkeSetChannel _ => exact .run h fun d => .command (fun _ _ h => .runPkeSetChannel h) <| .refl d
  | ledgerRead _ => exact .run h fun d => .command (fun _ _ h => .runLedgerRead h) <| .refl d
  | fwStage _ => exact .run h fun d => .command (fun _ _ h => .runFwStage h) <| .refl d
  | fwActivate _ => exact .run h fun d => .command (fun _ _ h => .runFwActivate h) <| .refl d
  | selfTest _ _ => exact .run h fun d => .command (fun _ _ h => .runSelfTest h) <| .refl d
  | testUnlock _ _ _ _ => exact .run h fun d => .presentToken <| .leaveBy <| .refl d
  | dbgChal _ => exact .run h fun d => .tapChallenge <| .leaveBy <| .refl d
  | dbgResp _ _ => exact .run h fun d => .tapResponse <| .leaveBy <| .refl d
  | bypass _ => exact .run h fun d => .tapBypass <| .leaveExtest <| .refl d
  | idcode _ => exact .run h fun d => .tapIdcode <| .leaveExtest <| .refl d
  | samplePreload _ => exact .run h fun d => .tapSample <| .leaveBy <| .refl d
  | extest => exact .run h fun d => .tapExtest <| .refl d
  | extestExit _ => exact .run h fun d => .leaveExtest <| .refl d
  | tapReset _ _ => exact .run h fun d => .tapReset <| .refl d
  | debugAccess _ => exact .run h fun d => .debugAccess <| .refl d
  | internalScanEntry _ => exact .run h fun d => .scanEntry <| .refl d
  | requestDoze => exact .run h fun d => .requestPower <| .refl d
  | requestStandby => exact .run h fun d => .requestPower <| .refl d
  | powerStateEntry => exact .run h fun d => .enterPower <| .refl d
  | powerRequestRefuse => exact .run h fun d => .refusePower <| .refl d
  | wake _ => exact .run h fun d => .wake <| .refl d
  | wakeComplete _ => exact .run h fun d => .wakeComplete <| .refl d
  | soft _ => exact .run h fun d => .warmReset <| .refl d
  | registerWrite _ _ _ _ => exact .run h fun d => .registerWrite <| .refl d
  | rcFieldRead _ _ _ => exact .run h fun d => .registerRead <| .refl d
  | vmainGood _ => exact .run h fun d => .vmainGood <| .refl d
  | strapSample _ => exact .run h fun d => .ite (.coldRest <| .upd <| .refl d) <| .refl d
  | perstRelease => exact .run h fun d => .upd <| .refl d
  | linkTrained _ _ => exact .run h fun d => .linkTrained <| .refl d
  | rootRecheck => exact .run h fun d => .rootRecheck <| .refl d
  | vmainLost => exact .run h fun d => .losePower <| .refl d
  | vbatLost => exact .run h fun d => .loseVbat <| .refl d
  | vrsvLow => exact .run h fun d => .reserveLow <| .refl d
  | crossingTimeout _ => exact .run h fun d => .crossTimeout <| .refl d
  | crossingCodeFail _ => exact .run h fun d => .codeFail <| .refl d
  | pkeClockChange _ => exact .run h fun d => .clockChange <| .refl d
  | pkePllRelock _ => exact .run h fun d => .pllRelock <| .refl d
  | meshAlarm _ _ _ => exact .run h fun d => .meshAlarm <| .refl d
  | lidAlarm _ _ => exact .run h fun d => .lidAlarm <| .refl d
  | monitorAlarm _ _ _ => exact .run h fun d => .monitorAlarm <| .refl d
  | vaultTamper _ _ _ => exact .run h fun d => .vaultTamper <| .refl d
  | tamperReset _ => exact .run h fun d => .tamperReset <| .refl d
  | tamperHoldRecheck => exact .run h fun d => .holdRecheck <| .refl d
  | swdtKick _ _ => exact .run h fun d => .kick <| .refl d
  | swdtWarning => exact .run h fun d => .swdtWarn <| .refl d
  | swdtExpire _ => exact .run h fun d => .ite (.warmReset <| .refl d) <| .refl d
  | handover _ _ _ => exact .run h fun d => .startHandover <| .refl d
  | handoverComplete => exact .run h fun d => .finishHandover <| .refl d
  | policyBarrier _ => exact .run h fun d => .startBarrier <| .refl d
  | barrierComplete => exact .run h fun d => .endBarrier <| .refl d
  | violationPop _ => exact .run h fun d => .ite (.popViolation <| .refl d) <| .regDenied <| .refl d
  | ledgerCheck => exact .run h fun d => .ledgerCheck <| .refl d
  | secureReset _ => exact .run h fun d => .ite (.warmReset <| .refl d) <| .refl d
  | classDPauseTimeout => exact .run h fun d => .pauseTimeout <| .refl d
  | vfEnable => exact .run h fun d => .setVfEnable <| .refl d
  | vfDisable => exact .run h fun d => .clearVfEnable <| .refl d
  | vfFlr _ => exact .run h fun d => .startVfFlr <| .refl d
  | pfFlr => exact .run h fun d => .startPfFlr <| .refl d
  | busMasterDisable _ => exact .run h fun d => .setBusMaster <| .refl d
  | msixUnblock _ _ => exact .run h fun d => .unblock <| .setCfg <| .refl d
  | d3hotEntry => exact .run h fun d => .enterD3 <| .refl d
  | d0Return => exact .run h fun d => .returnD0 <| .refl d
  | configRequest _ _ _ => exact .run h fun d => .configRequest <| .refl d
  | hotReset _ => exact .run h fun d => .hotReset <| .refl d
  | pcieCorrectableError _ _ => exact .run h fun d => .correctableError <| .refl d
  | pcieAdvisoryError _ _ => exact .run h fun d => .advisoryError <| .refl d
  | pcieFatalError _ => exact .run h fun d => .fatalError <| .refl d
  | dmaCompletion _ _ => exact .run h fun d => .across (fun _ h => .dmaDone h) <| .refl d
  | dmaCompletionError _ _ => exact .run h fun d => .across (fun _ h => .dmaFailed h) <| .refl d
  | completionTimeout _ => exact .run h fun d => .across (fun _ h => .dmaFailed h) <| .refl d
  | enable _ => exact .run h fun d => .stallCtl <| .refl d
  | pause _ => exact .run h fun d => .stallCtl <| .refl d
  | resume _ => exact .run h fun d => .stallCtl <| .refl d
  | reset _ _ => exact .run h fun d => .stallCtl <| .refl d
  | remove _ _ => exact .run h fun d => .stallCtl <| .refl d
  | drainCap _ => exact .run h fun d => .drainCap <| .refl d
  | stallResetComplete _ => exact .run h fun d => .stallResetEnd <| .refl d
  | partitionChange _ => exact .run h fun d => .partitionChange <| .refl d
  | mbSend _ _ => exact .run h fun d => .mbSend <| .refl d
  | swap _ => exact .run h fun d => .modStall <| .refl d
  | ringEnable _ _ _ => exact .run h fun d => .sharedWrite (fun _ _ h => .ringEnable h) <| .refl d
  | ringRestoreWrite _ _ _ => exact .run h fun d => .ringRestore <| .refl d
  | sqTail _ _ _ => exact .run h fun d => .sharedWrite (fun _ _ h => .sqTailWrite h) <| .refl d
  | cqHead _ _ _ => exact .run h fun d => .sharedWrite (fun _ _ h => .cqHeadWrite h) <| .refl d
  | weirTick => exact .run h fun d => .updStl <| .refl d
  | entryFetch _ _ => exact .run h fun d => .entryFetch <| .refl d
  | entryReceived _ _ => exact .run h fun d => .across (fun _ h => .entryReceived h) <| .refl d
  | commandDispatch _ _ => exact .run h fun d => .dispatch <| .refl d
  | completionWrite _ _ => exact .run h fun d => .completionWrite <| .refl d
  | requestClassify _ _ => exact .run h fun d => .classifyReq <| .refl d
  | eddy _ => exact .run h fun d => .across (fun _ h => .runEddy h) <| .refl d
  | trapPop _ => exact .run h fun d => .trapPop <| .refl d
  | fragmentReceived _ _ =>
    refine .run h fun d => ?_
    split
    next e0 he => exact (.intake he (.refl d))
    · split
      · exact .mgtBusy <| .refl d
      · exact .refl d
  | fragmentRunTimeout _ => exact .run h fun d => .ite (.breakRun <| .refl d) <| .refl d
  | switch => exact .run h fun d => .startSwitch <| .refl d
  | epochBankSwap => exact .run h fun d => .swapBanks <| .refl d
  | epochOldDrainEnd => exact .run h fun d => .drainEnd <| .refl d
  | epochCopyDone => exact .run h fun d => .copyDone <| .refl d
  | read _ => exact .run h fun d => .readMet <| .refl d
  | mark _ => exact .run h fun d => .markQueue <| .refl d
  | rewind _ => exact .run h fun d => .rewindQueue <| .refl d
  | release _ => exact .run h fun d => .releaseQueue <| .refl d
  | packetEnd _ _ => exact .run h fun d => .packetEnd <| .refl d
  | packetAbandon _ => exact .run h fun d => .abandon <| .refl d
  | cellReentry _ => exact .run h fun d => .upd <| .refl d
  | stranded _ => exact .run h fun d => .strand <| .refl d
  | pkeOperationStart _ => exact .run h fun d => .across (fun _ h => .operationStart h) <| .refl d
  | pkeDone _ _ _ => exact .run h fun d => .across (fun _ h => .operationDone h) <| .refl d
  | pkeWindowStart => exact .run h fun d => .windowStart <| .refl d
  | abort _ _ => exact .run h fun d => .abortWrite <| .refl d
  | aborted _ _ => exact .run h fun d => .across (fun _ h => .finishAbort h) <| .refl d
  | symLaneDone _ => exact .run h fun d => .across (fun _ h => .pumpLanes <| .laneDone h) <| .refl d
  | rngHealthFail _ => exact .run h fun d => .across (fun _ h => .ite (.rngFail h) h) <| .refl d
  | drbgReseed => exact .run h fun d => .across (fun _ h => .reseed h) <| .refl d
  | cardInsert _ => exact .run h fun d => .cardInserted <| .refl d
  | slotPowerUp _ => exact .run h fun d => .slotPowered <| .refl d
  | cardPull _ => exact .run h fun d => .cardPulled <| .refl d
  | cmd1Poll _ _ => exact .run h fun d => .cmd1 <| .refl d
  | cardBusError _ => exact .run h fun d => .busError <| .refl d
  | cardSupplyLimit _ => exact .run h fun d => .supplyLimit <| .refl d
  | short _ => exact .run h fun d => .slotShort <| .refl d
  | issue _ _ => exact .run h fun d => .issueTack <| .refl d
  | present _ _ => exact .run h fun d => .presentTack <| .refl d
  | cardReply _ _ _ => exact .run h fun d => .cardReplied <| .refl d
  | quorumWindowExpire => exact .run h fun d => .ite (.closeSession <| .refl d) <| .refl d
  | enrolmentWindowLapse _ => exact .run h fun d => .ite (.lapseEnrolment <| .refl d) <| .refl d
  | hostFlashCommand _ => exact .run h fun d => .hostFlash <| .csFall <| .refl d
  | arrayRead _ => exact .run h fun d => .hostRead <| .csFall <| .refl d
  | hostFlashWrite _ _ _ => exact .run h fun d => .hostWriteFlash <| .csFall <| .refl d
  | statusCopyRefresh _ _ => exact .run h fun d => .upd <| .refl d
  | gateVerifyComplete _ _ => exact .run h fun d => .gateVerified <| .refl d
  | gateReverifyStart _ => exact .run h fun d => .gateReverify <| .refl d
  | sealTimeout => exact .run h fun d => .ite (.sealNow <| .refl d) <| .refl d
  | cosignWindowEnd =>
    refine .run h fun d => ?_
    split
    · exact .ite (.advanceSeal <| .refl d) <| .refl d
    · exact .refl d
  | recordAccept => exact .run h fun d => .takeRecord <| .refl d
  | recordWritten _ => exact .run h fun d => .writtenRecord <| .refl d
  | operatingTimeCheckpoint => exact .run h fun d => .ite (.checkpoint <| .refl d) <| .refl d
  | laneBlockLock _ _ => exact .run h fun d => .lockLane <| .refl d
  | laneLockLoss _ _ => exact .runChn h fun d => .loseLane <| .refl d
  | train _ _ => exact .runChn h fun d => .onTrain <| .refl d
  | laneTrainTimeout _ _ => exact .runChn h fun d => .onLaneTimeout <| .refl d
  | linkHoldExpire _ => exact .runChn h fun d => .returnFrames <| .refl d
  | slotStart => exact .run h fun d => .slotStart <| .refl d
  | frameCorrupt _ _ =>
    refine .run h fun d => ?_
    split
    · exact .ite (.setChn <| .refl d) <| .refl d
    · exact .refl d
  | data _ _ _ => exact .run h fun d => .onData <| .refl d
  | ack _ _ _ _ => exact .run h fun d => .onAck <| .refl d
  | retxTimeout _ => exact .run h fun d => .ite (.resend <| .refl d) <| .refl d
  | status _ _ _ => exact .runChn h fun d => .onStatus <| .refl d
  | heartbeat => exact .runChn h fun d => .heartbeat <| .refl d
  | solitary => exact .runChn h fun d => .ite (.becomeSolitary <| .refl d) <| .refl d
  | statusTimeout _ => exact .runChn h fun d => .statusLost <| .refl d
  | enumerate _ _ _ _ => exact .runChn h fun d => .onHop (fun _ h => .onEnumerate h) <| .refl d
  | enumBack _ _ _ _ => exact .runChn h fun d => .onHop (fun _ h => .onEnumBack h) <| .refl d
  | enumerateRetry => exact .runChn h fun d => .ite (.retryEnum <| .refl d) <| .refl d
  | reenum => exact .runChn h fun d => .reenum <| .refl d
  | noAddressTimeout => exact .runChn h fun d => .ite (.becomeSolitary <| .refl d) <| .refl d
  | roster _ _ _ _ _ _ => exact .runChn h fun d => .onFrame (fun _ h => .onRoster h) <| .refl d
  | config _ _ _ _ => exact .run h fun d => .onFrame (fun _ h => .onConfig h) <| .refl d
  | replica _ _ _ => exact .run h fun d => .onFrame (fun _ h => .onReplica h) <| .refl d
  | replAck _ _ _ => exact .run h fun d => .onFrame (fun _ h => .onReplAck h) <| .refl d
  | replicateWindowEnd => exact .run h fun d => .replicateEnd <| .refl d
  | replDrop _ _ _ => exact .run h fun d => .onFrame (fun _ h => .dropReplica h) <| .refl d
  | result _ _ _ => exact .run h fun d => .ite (.reject <| .refl d) <| .onFrame (fun _ h => .onResult h) <| .refl d
  | resultRunTimeout _ =>
    refine .run h fun d => ?_
    split
    · exact .ite (.endRun <| .refl d) <| .refl d
    · exact .refl d
  | cosignReq _ _ _ => exact .run h fun d => .onFrame (fun _ h => .onCosignReq h) <| .refl d
  | cosign _ _ _ _ => exact .run h fun d => .onFrame (fun _ h => .onCosign h) <| .refl d
  | arm _ => exact .run h fun d => .tmrWrite (fun _ h => .armTimer h) <| .refl d
  | stop _ => exact .run h fun d => .tmrWrite (fun _ h => .stopTimer h) <| .refl d
  | zero _ => exact .run h fun d => .ite (.zeroTimer <| .refl d) <| .refl d
  | capture _ => exact .run h fun d => .captureEdge <| .refl d
  | capturePop _ => exact .run h fun d => .tmrWrite (fun _ h => .popCapture h) <| .refl d
  | mctpPacket _ => exact .run h fun d => .mgtRow <| .refl d
  | mctpAssemblyTimeout _ => exact .run h fun d => .asmTimeout <| .refl d
  | enec => exact .run h fun d => .mgtRow <| .refl d
  | disec => exact .run h fun d => .mgtRow <| .refl d
  | rstdaa => exact .run h fun d => .mgtRow <| .refl d
  | entdaa _ => exact .run h fun d => .mgtRow <| .refl d
  | setdasa _ => exact .run h fun d => .mgtRow <| .refl d
  | setnewda _ => exact .run h fun d => .mgtRow <| .refl d
  | getpid => exact .run h fun d => .mgtRow <| .refl d
  | getbcr => exact .run h fun d => .mgtRow <| .refl d
  | getdcr => exact .run h fun d => .mgtRow <| .refl d
  | getstatus => exact .run h fun d => .mgtRow <| .refl d
  | alertResponseAddress => exact .run h fun d => .mgtRow <| .refl d
  | setEndpointId _ => exact .run h fun d => .mgtRow <| .refl d
  | getEndpointId => exact .run h fun d => .mgtRow <| .refl d
  | getMctpVersionSupport => exact .run h fun d => .mgtRow <| .refl d
  | getMessageTypeSupport => exact .run h fun d => .mgtRow <| .refl d
  | getVendorDefinedSupport => exact .run h fun d => .mgtRow <| .refl d
  | getVersion => exact .run h fun d => .mgtRow <| .refl d
  | getCapabilities => exact .run h fun d => .mgtRow <| .refl d
  | negotiateAlgorithms _ _ _ => exact .run h fun d => .mgtRow <| .refl d
  | challenge _ _ => exact .run h fun d => .mgtRow <| .refl d
  | getMeasurements _ _ _ => exact .run h fun d => .mgtRow <| .refl d
  | command _ _ => exact .run h fun d => .mgtRow <| .refl d
  | stallView _ _ _ => exact .run h fun d => .mgtRow <| .refl d
  | stallAct _ _ _ _ => exact .run h fun d => .mgtRow <| .refl d
  | snapshot _ => exact .run h fun d => .mgtRow <| .refl d
  | attestKey _ => exact .run h fun d => .mgtRow <| .refl d
  | otpWordWriteDone _ => exact .run h fun d => .otpWordDone <| .refl d
  | tokenCheckDone => exact .run h fun d => .tokenDone <| .refl d
  | startUpComplete => exact .run h fun d => .startUpComplete <| .refl d
  | tamperSourceClear _ => exact .run h fun d => .clearSource <| .refl d
  | vbatOkChange _ _ => exact .run h fun d => .vbatChange <| .refl d
  | vrsvGood => exact .run h fun d => .reserveGood <| .refl d
  | chainTimeSlewEnd => exact .run h fun d => .slewEnd <| .refl d

theorem step_keeps {s t : State} (h : step s = .next t) : Keeps s.toDev t.toDev := by
  unfold step at h
  split at h
  · exact .run h fun d => .tick (.refl d)
  next c rest _ => exact exec_keeps c (s := { s with pending := rest }) h

/-! ### O3 and O4 -/

/-- Settles O3: every operation a row is built from keeps the pools balanced. -/
theorem stepKeepsTheLedger : Obligations.StepKeepsTheLedger := fun _ _ hs h => (step_keeps h).ledger hs

/-- Settles O4: every operation a row is built from keeps the byte stores canonical. -/
theorem stepKeepsTheByteStores : Obligations.StepKeepsTheByteStores := fun _ _ hs h => (step_keeps h).memory hs

end Sys2Proof.Machine
end

section
/-! The proofs below are elaborated one at a time: threads of proofs that wait for each other would take the memory the end of the text needs. -/

set_option Elab.async false

section
/-! What a stalled crossing lets through (01 R11). -/

namespace Sys2Proof.Machine

/-- Of three facts that do not hold together one fails. -/
theorem fails_of_three {a b c : Prop} [Decidable a] [Decidable b] (h : a ∧ b → ¬ c) : (¬ a ∨ ¬ b) ∨ ¬ c :=
  if hab : a ∧ b then .inr (h hab) else .inl (Decidable.not_and_iff_not_or_not.mp hab)

theorem across_free {d : Dev} {i : Island} (h : crossStalled d i = false) (f : Dev → Dev) : across d i f = f d := by simp [across, h]
theorem across_stalled {d : Dev} {i : Island} (h : crossStalled d i = true) (f : Dev → Dev) : across d i f = d := by simp [across, h]

/-- A row that does nothing where its crossing has stalled, and nothing else either. -/
theorem across_same {d : Dev} {i : Island} {f : Dev → Dev} (h : f d = d ∨ crossStalled d i = true) : across d i f = d := by
  rcases h with h | h
  · unfold across; split
    · rfl
    · exact h
  · exact across_stalled h f

end Sys2Proof.Machine
end

section
/-! Tables: what a listing by rising index gives. -/

namespace Sys2Proof.Machine

theorem tget_map_snd {α β : Type} (f : α → β) (t : Tab α) (k : Nat) : tget (t.map fun e => (e.1, f e.2)) k = (tget t k).map f := by
  induction t with
  | nil => rfl
  | cons e t ih =>
    by_cases h : e.1 = k
    · simp [tget, h]
    · simpa [tget, h] using ih

theorem tset_tset {α : Type} (t : Tab α) (k : Nat) (v w : α) : tset (tset t k v) k w = tset t k w := by
  induction t with
  | nil => simp [tset]
  | cons e t ih =>
    simp only [tset]
    split
    · simp [tset]
    · split
      · simp [tset]
      · next h1 h2 => simp [tset, h1, h2, ih]

/-- Nothing is listed below the first index of a rising table. -/
theorem tget_below {α : Type} (t : Tab α) (lo j : Nat) (h : risingFrom lo t = true) (hj : j < lo) : tget t j = none := by
  induction t generalizing lo with
  | nil => rfl
  | cons e t ih =>
    simp only [risingFrom, Bool.and_eq_true, decide_eq_true_eq] at h
    simp [tget, show e.1 ≠ j by omega, ih _ h.2 (by omega)]

theorem tget_tdel_rising {α : Type} (t : Tab α) (lo k : Nat) (h : risingFrom lo t = true) : tget (tdel t k) k = none := by
  induction t generalizing lo with
  | nil => rfl
  | cons e t ih =>
    simp only [risingFrom, Bool.and_eq_true, decide_eq_true_eq] at h
    by_cases he : e.1 = k
    · simpa [tdel, he] using tget_below t _ k h.2 (by omega)
    · simpa [tdel, tget, he] using ih _ h.2

/-- An entry deleted from a rising table is gone. -/
theorem tget_tdel_self {α : Type} (t : Tab α) (k : Nat) (h : twf t = true) : tget (tdel t k) k = none := tget_tdel_rising t 0 k h

theorem mem_iff_tget_rising {α : Type} (t : Tab α) (lo : Nat) (e : Nat × α) (h : risingFrom lo t = true) : e ∈ t ↔ tget t e.1 = some e.2 := by
  induction t generalizing lo with
  | nil => simp [tget]
  | cons x t ih =>
    simp only [risingFrom, Bool.and_eq_true, decide_eq_true_eq] at h
    by_cases hx : x.1 = e.1
    · have hnot : e ∉ t := fun he => by
        have := (ih _ h.2).1 he
        rw [tget_below t _ _ h.2 (by omega)] at this
        simp at this
      simp only [List.mem_cons, hnot, or_false, tget, hx, if_true, Option.some.injEq]
      exact ⟨fun he => by rw [he], fun he => Prod.ext hx.symm he.symm⟩
    · have hne : e ≠ x := fun he => hx (by rw [he])
      simp only [List.mem_cons, hne, false_or, tget, hx, if_false]
      exact ih _ h.2

/-- A rising table lists what it answers. -/
theorem mem_iff_tget {α : Type} {t : Tab α} (h : twf t = true) (e : Nat × α) : e ∈ t ↔ tget t e.1 = some e.2 := mem_iff_tget_rising t 0 e h

end Sys2Proof.Machine
end

section
/-! Commands in RUN: what a row hands its command, and when the checks of 13 R236 pass. Each command is then said once as what it does when its checks pass. -/

namespace Sys2Proof.Machine

open Sys2Proof.Safety

section
variable {s : State} {op : Nat} {r : Request}

@[simp] theorem asCmd_fields (s : State) (op : Nat) (r : Request) :
    (asCmd s op r).rid = s.nextRid ∧ (asCmd s op r).issuer = r.issuer ∧ (asCmd s op r).opcode = op ∧ (asCmd s op r).key = r.key ∧ (asCmd s op r).owner = r.ownerId ∧
      (asCmd s op r).params = r.params ∧ (asCmd s op r).dataCap = r.dataCap ∧ (asCmd s op r).keyMask = r.keyMask ∧ (asCmd s op r).pols = [] ∧ (asCmd s op r).sealed = false :=
  ⟨rfl, rfl, rfl, rfl, rfl, rfl, rfl, rfl, rfl, rfl⟩

theorem noKeyOwner_asCmd (hkey : r.key = 0) (howner : r.ownerId = 0) : noKeyOwner (asCmd s op r) = true := by simp [noKeyOwner, hkey, howner]

theorem stateU_took (h : s.lc.state ≠ 0xEE) : stateU (took s op r) = true := by simpa [stateU, lcLocked, took] using h

/-- 13 R236, steps 1 to 5, for a request just taken. -/
theorem preChecks_took {who : Who} {stateOk : Bool} {parsed : Option Half} {values : Bool} {res : Nat} (hwho : listed who r.issuer = true) (hstate : stateOk = true)
    (htable : s.key.tableBad = false ∨ tableBarred (asCmd s op r) = false) (hparse : parsed = none) (hvalues : values = true) (hres : res ≤ r.dataCap) :
    firstFail (preChecks (took s op r) (asCmd s op r) who stateOk parsed values res) = none :=
  preChecks_pass rfl hwho hstate htable hparse hvalues rfl hres

/-- A command whose parameters are a fixed part without zero fields. -/
theorem parse_asCmd {n : Nat} (h : r.params.length = n) : parse (asCmd s op r) n = none := parse_fixedOnly h

/-- A fixed part whose zero fields are zero. -/
theorem parse_zeros {c : Cmd} {n : Nat} {zero : List (Nat × Nat)} (h : c.params.length = n) (hz : ∀ z ∈ zero, allZero (slice c.params z.1 z.2) = true) :
    parse c n zero = none := by
  rw [parse_variable (Nat.le_of_eq h.symm) hz, h, Nat.sub_self]; rfl

end

end Sys2Proof.Machine
end

section
/-! What the end of a request can change: cells, credits of the link and recovery cells, the request's listing and completion, the session it consumed, a random draw. -/

namespace Sys2Proof.Machine

/-- `e` is `d` after requests have ended: no request is listed that was not, but with its stage changed to dispatched. -/
structure Ends (d e : Dev) : Prop where
  parts : ∃ g y q c k s r u n t o, e = { d with ldg := g, yrd := y, reqs := q, comps := c, rng := k, sym := { d.sym with generates := s }, crd := { d.crd with session := r }, chn := { d.chn with up := u, dn := n }, stl := { d.stl with stalls := t }, out := o }
  reqs : ∀ p ∈ e.reqs, p ∈ d.reqs ∨ p.2.stage = .dispatched

variable {a d e : Dev}

theorem Ends.refl (d : Dev) : Ends d d := ⟨⟨_, _, _, _, _, _, _, _, _, _, _, rfl⟩, fun _ h => .inl h⟩

theorem Ends.trans (h : Ends a d) (k : Ends d e) : Ends a e := by
  obtain ⟨⟨_, _, _, _, _, _, _, _, _, _, _, rfl⟩, hr⟩ := h
  obtain ⟨⟨_, _, _, _, _, _, _, _, _, _, _, rfl⟩, kr⟩ := k
  exact ⟨⟨_, _, _, _, _, _, _, _, _, _, _, rfl⟩, fun p hp => (kr p hp).elim (hr p) .inr⟩

theorem Ends.ite {c : Prop} [Decidable c] {x y : Dev} (hx : Ends a x) (hy : Ends a y) : Ends a (if c then x else y) := by
  split
  · exact hx
  · exact hy

theorem mem_of_mem_tdel {α : Type} {t : Tab α} {k : Nat} {p : Nat × α} (h : p ∈ tdel t k) : p ∈ t := by
  induction t with
  | nil => simp [tdel] at h
  | cons x t ih =>
    simp only [tdel] at h
    split at h
    · exact List.mem_cons_of_mem _ h
    · rcases List.mem_cons.1 h with rfl | h
      · exact List.mem_cons_self
      · exact List.mem_cons_of_mem _ (ih h)

theorem mem_tset {α : Type} {t : Tab α} {k : Nat} {v : α} {p : Nat × α} (h : p ∈ tset t k v) : p = (k, v) ∨ p ∈ t := by
  induction t with
  | nil => simpa [tset] using h
  | cons x t ih =>
    simp only [tset] at h
    split at h
    · simpa using h
    · split at h
      · rcases List.mem_cons.1 h with h | h
        · exact .inl h
        · exact .inr (List.mem_cons_of_mem _ h)
      · rcases List.mem_cons.1 h with rfl | h
        · exact .inr List.mem_cons_self
        · exact (ih h).imp_right (List.mem_cons_of_mem _)

theorem Ends.of_parts {g : Ledger} {y : Yrd} {c : Tab Comp} {k s : Nat} {r : Option Session} {u n : PortSt} {t : Tab Stall} {o : List Out}
    (h : e = { d with ldg := g, yrd := y, comps := c, rng := k, sym := { d.sym with generates := s }, crd := { d.crd with session := r }, chn := { d.chn with up := u, dn := n }, stl := { d.stl with stalls := t }, out := o }) : Ends d e := by
  subst h
  exact ⟨⟨_, _, _, _, _, _, _, _, _, _, _, rfl⟩, fun _ hp => .inl hp⟩

theorem ends_freeCells (d : Dev) (h : Nat) (l : List Nat) : Ends d (freeCells d h l) := .of_parts rfl
theorem ends_emit (d : Dev) (o : Out) : Ends d (emit d o) := .of_parts rfl
theorem ends_delReq (d : Dev) (r : Nat) : Ends d (delReq d r) := ⟨⟨_, _, _, _, _, _, _, _, _, _, _, rfl⟩, fun _ h => .inl (mem_of_mem_tdel h)⟩
theorem ends_setReq (d : Dev) (r : Nat) {q : Req} (h : q.stage = .dispatched) : Ends d (setReq d r q) :=
  ⟨⟨_, _, _, _, _, _, _, _, _, _, _, rfl⟩, fun _ hp => (mem_tset hp).elim (fun hp => .inr (hp ▸ h)) .inl⟩
theorem ends_comps (d : Dev) (c : Tab Comp) : Ends d { d with comps := c } := .of_parts rfl
theorem ends_claimCells {i : Issuer} {n : Nat} {l : List Nat} (h : claimCells d i n = some (e, l)) : Ends d e := by
  obtain ⟨_, _, _, h⟩ := claimCells_frame h
  exact .of_parts h
theorem ends_setPort (d : Dev) (p : Port) (x : PortSt) : Ends d (setPort d p x) := by
  cases p <;> exact .of_parts rfl
theorem ends_holdPort (d : Dev) (p : Port) : Ends d (holdPort d p) := .ite (.refl d) (ends_setPort ..)
theorem ends_ldgIssue (d : Dev) (p h n : Nat) : Ends d (ldgIssue d p h n) := .of_parts rfl
theorem ends_draw (d : Dev) (n : Nat) : Ends d (draw d n).2 := .of_parts rfl
theorem ends_closeConsumed (d : Dev) (r : Nat) : Ends d (closeConsumed d r) := by
  unfold closeConsumed; split
  · exact .ite (.of_parts rfl) (.refl d)
  · exact .refl d
theorem ends_setRecovery (d : Dev) (n k : Nat) : Ends d (setRecovery d n k) := by
  unfold setRecovery
  exact .ite (.of_parts rfl) (.of_parts rfl)

theorem ends_enqueue (d : Dev) (p : Port) (f : Frame) (r : Option Nat) : Ends d (enqueue d p f r) := by
  have hclaim : Ends d (match claimCells (holdPort d p) (.krovlo 0) (cellsFor (20 + bodyLen f.body)) with
      | some (d, c) => (d, c)
      | none => (holdPort d p, [])).1 := by
    split
    next h => exact (ends_holdPort d p).trans (ends_claimCells h)
    · exact ends_holdPort d p
  unfold enqueue
  exact .ite (hclaim.trans (ends_setPort ..)) ((hclaim.trans (ends_ldgIssue ..)).trans (ends_setPort ..))

theorem ends_unicast {n : Nat} {b : FBody} {r : Option Nat} (h : unicast d n b r = some e) : Ends d e := by
  simp only [unicast] at h
  split at h
  · cases h
  · cases h; exact ends_enqueue ..

theorem ends_sealResult (d : Dev) (q : Req) (st : Half) (b : Bytes) : Ends d (sealResult d q st b).2.2 := by
  unfold sealResult
  split
  · exact .refl d
  · split
    · exact .refl d
    · split
      · exact .refl d
      · split
        · exact .refl d
        · exact ends_draw d 12

theorem ends_stageComp (d : Dev) (r : Nat) {q : Req} (c : Comp) (h : q.stage = .dispatched) : Ends d (stageComp d r q c) := by
  unfold stageComp
  dsimp only
  split
  · split
    next hc => exact ((ends_claimCells hc).trans (ends_setReq _ _ (by exact h))).trans (ends_comps ..)
    · exact ((ends_setRecovery ..).trans (ends_setReq _ _ h)).trans (ends_comps ..)
  · split
    next hc => exact ((ends_claimCells hc).trans (ends_setReq _ _ (by exact h))).trans (ends_comps ..)
    · exact (ends_setReq _ _ h).trans (ends_comps ..)
  · exact (ends_setReq _ _ h).trans (ends_comps ..)

theorem ends_results (o : Nat) (l : List ResultBody) (d : Dev) : Ends d (l.foldl (fun d b => (unicast d o (.result b)).getD d) d) := by
  induction l generalizing d with
  | nil => exact .refl d
  | cons b l ih =>
    have hone : Ends d ((unicast d o (.result b)).getD d) := by
      cases h : unicast d o (.result b) with
      | none => exact .refl d
      | some e => exact ends_unicast h
    exact hone.trans (ih _)

theorem finishOne_ends (d : Dev) (r : Nat) (st : Half) (b : Bytes) (x : Word) : Ends d (finishOne d r st b x) := by
  unfold finishOne
  split
  · exact .refl d
  next q _ =>
    refine .ite (.refl d) ?_
    have hseal : ∀ q', Ends d (sealResult (closeConsumed (freeCells d (holderOf q.issuer) (cellIdx q.cells)) r) q' st b).2.2 := fun q' =>
      ((ends_freeCells ..).trans (ends_closeConsumed ..)).trans (ends_sealResult ..)
    dsimp only
    split
    · exact (hseal _).trans ((ends_freeCells ..).trans (ends_delReq ..))
    · have hdel := fun q' => (hseal q').trans ((ends_freeCells _ H.mgt q.resCells).trans (ends_delReq _ r))
      exact .ite (hdel _) ((hdel _).trans (ends_emit ..))
    · exact ((hseal _).trans ((ends_freeCells ..).trans (ends_delReq ..))).trans (ends_results ..)
    · exact .ite ((hseal _).trans ((ends_freeCells ..).trans (ends_delReq ..))) (((hseal _).trans (ends_setReq _ _ rfl)).trans (ends_stageComp _ _ _ rfl))

theorem wakeNops_ends (fuel : Nat) (d : Dev) : Ends d (wakeNops fuel d) := by
  induction fuel generalizing d with
  | zero => exact .refl d
  | succ fuel ih =>
    unfold wakeNops
    split
    · exact .refl d
    · exact (finishOne_ends ..).trans (ih _)

/-- The end of a request. -/
theorem finish_ends (d : Dev) (r : Nat) (st : Half) (b : Bytes) (x : Word) : Ends d (finish d r st b x) := (finishOne_ends ..).trans (wakeNops_ends ..)

theorem fit_self (v : Bytes) : Config.fit v.length v = v := by
  simp [Config.fit]

end Sys2Proof.Machine
end

section
/-! The quorum gate (08), the weirs (11) and the epoch switch (14). -/

namespace Sys2Proof.Machine

open Sys2Proof.Safety

/-! ### O13 -/

/-- Settles O13: each clause is one branch of the gate (08 R147). -/
theorem quorumGateOpensAndConsumes : Obligations.QuorumGateOpensAndConsumes := by
  intro s r op o w hw he
  have ho : ownerOf (took s op r) o = some w := hw
  have hcrd : (took s op r).crd = s.crd := rfl
  refine ⟨fun hq => ?opens, fun q hq hother => ?other, fun q hq h1 h2 h3 h4 => ?notMet, fun q hq h1 h2 h3 h4 => ?met⟩
  case opens => simp only [quorumGate, gateWith, ho, he, hcrd, hq]; simp [mEff, fielded, took, asCmd] <;> rfl
  case other =>
    have hbusy : (decide (q.owner ≠ o) || q.digest != quorumDigest (asCmd s op r) || q.consumedBy.isSome) = true := by
      rcases hother with h | h | h <;> simp [h]
    simp only [quorumGate, gateWith, ho, he, hcrd, hq, hbusy, Option.isSome_none, Bool.false_eq_true, if_true, if_false]
  case notMet => simp [quorumGate, gateWith, ho, he, hcrd, hq, h1, h2, h3, h4]
  case met => simp [quorumGate, gateWith, ho, he, hcrd, hq, h1, h2, h3, h4] <;> rfl

/-! ### O37 -/

/-- Settles O37: a tick maps the weir's step over the stalls; a stall that is not listed is not metered. -/
theorem weirsFillAndMeter : Obligations.WeirsFillAndMeter := by
  intro s n _
  refine ⟨_, rfl, rfl, ?_⟩
  have hstep : stall (on s { s.toDev with stl := { s.stl with stalls := s.stl.stalls.map fun e => (e.1, weirTick e.2) } }).toDev n = weirTick (stall s.toDev n) := by
    simp only [stall, tgetD, on, tget_map_snd]
    cases tget s.stl.stalls n <;> rfl
  exact hstep

/-! ### O43 -/

/-- Settles O43: each row is one of the four steps of 14 R263, which its switch state admits or not. -/
theorem theEpochSwitches : Obligations.TheEpochSwitches := by
  intro s
  have rows : exec .switch s = .next (on s (startSwitch s.toDev)) ∧ exec .epochBankSwap s = .next (on s (swapBanks s.toDev)) ∧
      exec .epochOldDrainEnd s = .next (on s (drainEnd s.toDev)) ∧ exec .epochCopyDone s = .next (on s (copyDone s.toDev)) := ⟨rfl, rfl, rfl, rfl⟩
  obtain ⟨hswitch, hswap, hdrain, hcopy⟩ := rows
  refine ⟨fun h hb => ?_, fun h hb => ?_, fun h => ?_, fun h => ?_, fun h hr => ?_, fun h hr => ?_, fun h => ?_⟩
  · rw [hswitch]; simp [startSwitch, h, hb, setCls]
  · rw [hswitch]; simp [startSwitch, h, hb, setCls]
  · rw [hswitch]; simp [startSwitch, h, on]
  · rw [hswap]; simp [swapBanks, h, switchWeirs, setCls]
  · rw [hdrain]; simp only [drainEnd, h, hr, setCls] <;> rfl
  · rw [hdrain]; simp only [drainEnd, hr, Bool.or_true, if_true] <;> rfl
  · rw [hcopy]; simp [copyDone, h, setCls]

end Sys2Proof.Machine
end

section
/-! Debug challenges, their responses and test-unlock tokens (04). -/

namespace Sys2Proof.Machine

open Sys2Proof.Safety

theorem runDbgChallenge_pass {d d' : Dev} {c : Cmd} (hchecks : firstFail (preChecks d c whoP (stateU d) (parse c 0) (noKeyOwner c) 64) = none)
    (hjob : d.lc.job = none) (hmask : maskBad c = false) (hrng : drbgReady d = true) (hcells : claimResult d c 64 = some d') :
    runDbgChallenge d c = finish (newChallenge d').2 c.rid ST.ok (newChallenge d').1 :=
  runAtomic_pass (firstFail_append_none hchecks (by simp [hjob])) hmask (by simp [rngCheck, hrng]) hcells

theorem respond_pass {d : Dev} {rid : Option Nat} {b : Bytes} (hlocked : d.lc.state ≠ 0xEE) (hjob : d.lc.job = none) (hbusy : d.dbg.checking = false)
    (hserve : canServe d false true = true) (hlog : firstFail (logGate d) = none) (hcert : firstFail (certBefore d b) = none) :
    respond d rid b = { d with dbg := { d.dbg with checking := true },
                               pkeWait := d.pkeWait ++ [.secure { rid, issuer := .secure, kind := .dbgCert b rid.isNone, alg := 0x21 }] } := by
  have hl : lcLocked d = false := by simpa [lcLocked] using hlocked
  have hfree : firstFail [(lcLocked d, ST.locked), (d.lc.job.isSome, ST.busy)] = none := by simp [hl, hjob]
  simp only [respond, hfree, hbusy, hserve, firstFail_append_none hcert hlog, Bool.not_true, Bool.or_false, Bool.false_eq_true, if_false]

theorem runDbgResponse_pass {d : Dev} {c : Cmd} (hchecks : firstFail (preChecks d c whoP (stateU d) (parse c 160) (noKeyOwner c) 0) = none) :
    runDbgResponse d c = respond d (some c.rid) c.params := by
  simp only [runDbgResponse, hchecks]

/-- Settles O16: both commands pass the checks of 13 R236; a challenge draws its nonce (log 5), a response whose first checks pass waits for its engine. -/
theorem debugCommandsAct : Obligations.DebugCommandsAct := by
  intro r s d hrun hissuer hkey howner hlc hjob
  have hpre {op parsed res} (hparse : parsed = none) (hres : res ≤ r.dataCap) (hop : tableBarred (asCmd s op r) = false) :
      firstFail (preChecks (took s op r) (asCmd s op r) whoP (stateU (took s op r)) parsed (noKeyOwner (asCmd s op r)) res) = none :=
    preChecks_took (by simp [hissuer, listed, whoP]) (stateU_took hlc) (.inr hop) hparse (noKeyOwner_asCmd hkey howner) hres
  refine ⟨fun hp hcap hrng hcells => ?challenge, fun hp hbusy hserve hfailed hfull hcert => ?response⟩
  case challenge =>
    have hrow : exec (.dbgChallenge r) s = .next (on s (runDbgChallenge (took s 0x0804 r) (asCmd s 0x0804 r))) := onDev_command_run hrun _ _
    rw [hrow, runDbgChallenge_pass (hpre (parse_asCmd (by simp [hp])) hcap (by simp [tableBarred])) hjob (by simp [maskBad, readsKey]) hrng hcells]
    rfl
  case response =>
    have hrow : exec (.dbgResponse r) s = .next (on s (runDbgResponse (took s 0x0805 r) (asCmd s 0x0805 r))) := onDev_command_run hrun _ _
    have hlog : firstFail (logGate (took s 0x0805 r)) = none := by simp [logGate, took, hfailed, hfull]
    rw [hrow, runDbgResponse_pass (hpre (parse_asCmd hp) (Nat.zero_le _) (by simp [tableBarred])), respond_pass (d := took s 0x0805 r) (rid := some (asCmd s 0x0805 r).rid) (b := (asCmd s 0x0805 r).params) hlc hjob hbusy hserve hlog hcert]
    rfl

/-- Settles O22: the checks of 04 R66 in their order; the last two clauses differ in whether the record waits for the Logbook. -/
theorem tokenChecksEndInOrder : Obligations.TokenChecksEndInOrder := by
  intro s t ht hp
  have hrow : exec .tokenCheckDone s = .next (on s (tokenDone s.toDev)) := rfl
  refine ⟨fun st hb => ?_, fun st hb hf => ?_, fun hb hf ho => ?_, fun hb hf ho => ?_⟩
  all_goals rw [hrow]
  · simp [tokenDone, ht, hp, hb]
  · simp [tokenDone, ht, hp, hb, hf]
  · simp [tokenDone, ht, hp, hb, hf, logThen, ho]
  · simp [tokenDone, ht, hp, hb, hf, logThen, ho]

end Sys2Proof.Machine
end

section
/-! Crossings, clocks and training (01, 03, 10); the ledger check (23); PCIe errors and the ends of reads (10, 12). -/

namespace Sys2Proof.Machine

open Sys2Proof.Safety

/-! ### O24 -/

theorem countTimeout_stalled (d : Dev) (i : Island) : (countTimeout d i).glb.xwdStalled = d.glb.xwdStalled := by
  simp only [countTimeout]; split <;> rfl

section
variable {s : State}

theorem powered_run (h : s.glb.power = .run) : powered s.toDev = true := by simp [powered, h]

theorem linkTrained_full (hp : s.glb.power = .run) (hb : s.glb.boot = .done) (hr : s.glb.perstN = true) (hd : s.hif.downDue = false) (w sp : Nat) (hw : w = 1 ∨ w = 2 ∨ w = 4) (hs : sp ≠ 0) :
    linkTrained s.toDev w sp = (let d := { s.toDev with hif := { s.hif with up := true, link := .l0, width := BitVec.ofNat 4 w, speed := BitVec.ofNat 4 sp, degraded := decide (sp < 5) || decide (w < 4) } }
      if (decide (sp < 5) || decide (w < 4)) && (!s.hif.up || s.hif.width.toNat != w || s.hif.speed.toNat != sp) then logRec d (recEvent "HIF" 0x0401 (b4 (rLinkStatus d))) else d) := by
  simp only [linkTrained, powered_run hp, hb, hr, hd]
  rcases hw with rfl | rfl | rfl <;> simp [hs]

end

/-- Settles O24: the crossing watchdog, the PKE clocks and the link's training, a branch to each clause. -/
theorem crossingsAndClocks : Obligations.CrossingsAndClocks := by
  intro s
  have hcross i : exec (.crossingTimeout i) s = .next (on s (crossTimeout s.toDev i)) := rfl
  have hcode i : exec (.crossingCodeFail i) s = .next (on s (codeFail s.toDev i)) := rfl
  have hclk e : exec (.pkeClockChange e) s = .next (on s (clockChange s.toDev e.val)) := rfl
  have hpll e : exec (.pkePllRelock e) s = .next (on s (pllRelock s.toDev e.val)) := rfl
  have htrain w sp : exec (.linkTrained w sp) s = .next (on s (linkTrained s.toDev w.val sp.val)) := rfl
  refine ⟨fun i d hr hd ht => ?early, fun i d hr hd ht => ?third, fun i h => ?unstalled, fun i c hr hc => ?code, fun e ho ha hk => ?clock, fun e p hp => ?pll,
    fun hp hb hr hd => ?full, fun w sp hw hs hlow hp hb hr hd hup => ?low⟩
  case early =>
    subst hd
    simp only [hcross, crossTimeout, hr, Bool.not_true, Bool.false_eq_true, if_false]
    rw [if_neg (by simpa [timedOut] using ht)]
    rfl
  case third =>
    subst hd
    simp only [hcross, crossTimeout, hr, Bool.not_true, Bool.false_eq_true, if_false]
    rw [if_pos (by simpa [timedOut] using ht)]
    rfl
  case unstalled => simp [crossStalled, timedOut, countTimeout_stalled, tget_tdel_self _ _ h]
  case code =>
    subst hc
    simp only [hcode, codeFail, hr, Bool.not_true, Bool.false_eq_true, if_false]
    split
    · next h => have h' : crossStalled s.toDev i = true := h
                rw [h']; rfl
    · next h => have h' : crossStalled s.toDev i = false := Bool.eq_false_iff.2 h
                rw [h']; rfl
  case clock => simp [hclk, clockChange, ho, ha, hk]
  case pll => simp [hpll, pllRelock, hp, eng, tgetD, setEng]
  case full => rw [htrain, linkTrained_full hp hb hr hd (4 : Fin 5).val (5 : Fin 6).val (.inr (.inr rfl)) (by decide)]; rfl
  case low =>
    have hw' : w.val = 1 ∨ w.val = 2 ∨ w.val = 4 := hw.imp (congrArg Fin.val) (Or.imp (congrArg Fin.val) (congrArg Fin.val))
    have hs' : sp.val ≠ 0 := fun h => hs (Fin.ext h)
    have hl : (decide (sp.val < 5) || decide (w.val < 4)) = true := by simpa [or_comm] using hlow
    rw [htrain, linkTrained_full hp hb hr hd _ _ hw' hs']
    simp only [hl, hup, Bool.not_false, Bool.true_or, Bool.and_true, if_true]

/-! ### O31 -/

theorem mem_queueRec_self (now : Nat) (r : Record) (l : List Record) : r ∈ queueRec now r l := by
  induction l with
  | nil => simp [queueRec]
  | cons x l ih => simp only [queueRec]; split <;> simp [ih]

theorem mem_queueRec_of_mem {now : Nat} {r x : Record} {l : List Record} (h : x ∈ l) : x ∈ queueRec now r l := by
  induction l with
  | nil => simp at h
  | cons y l ih =>
    simp only [queueRec]
    split
    · exact List.mem_cons_of_mem _ h
    · rcases List.mem_cons.1 h with rfl | h
      · exact List.mem_cons_self
      · exact List.mem_cons_of_mem _ (ih h)

/-- An open Logbook takes every record to its queue. -/
theorem logRec_open {d : Dev} (h : d.evr.isOpen = true) (r : Record) :
    logRec d r = { d with evr := { d.evr with queue := queueRec d.now { r with reached := d.now } d.evr.queue } } := by
  simp [logRec, h]

/-- The records of the failed pools: one for each, whatever the Logbook. -/
def poolRecords (d : Dev) (l : List Nat) : Dev := l.foldl (fun d p => logRec d (recLedgerPool d 0x0001 p .fatal)) d

theorem poolRecords_frame (d : Dev) (l : List Nat) : ∃ v, poolRecords d l = { d with evr := v } := by
  induction l generalizing d with
  | nil => exact ⟨_, rfl⟩
  | cons p l ih =>
    obtain ⟨w, hw⟩ := logRec_frame d (recLedgerPool d 0x0001 p .fatal)
    obtain ⟨v, hv⟩ := ih { d with evr := w }
    exact ⟨v, by rw [poolRecords, List.foldl_cons, hw]; exact hv⟩

theorem poolRecords_queued (d : Dev) (l : List Nat) (h : d.evr.isOpen = true) :
    (∀ r ∈ d.evr.queue, r ∈ (poolRecords d l).evr.queue) ∧
    ∀ p ∈ l, ∃ r ∈ (poolRecords d l).evr.queue, r.rtype = 0x9002 ∧ r.payload = b2 0x0001 ++ BitVec.ofNat 8 p :: triple (poolOf d p) := by
  induction l generalizing d with
  | nil => exact ⟨fun _ hr => hr, by simp⟩
  | cons q l ih =>
    let e := logRec d (recLedgerPool d 0x0001 q .fatal)
    have he : e = { d with evr := { d.evr with queue := queueRec d.now { recLedgerPool d 0x0001 q .fatal with reached := d.now } d.evr.queue } } := logRec_open h _
    have hpool p : poolOf e p = poolOf d p := by rw [he]; rfl
    obtain ⟨hkept, hnew⟩ := ih e (by rw [he]; exact h)
    refine ⟨fun r hr => hkept r (by rw [he]; exact mem_queueRec_of_mem hr), fun p hp => ?_⟩
    rcases List.mem_cons.1 hp with rfl | hp
    · exact ⟨_, hkept _ (by rw [he]; exact mem_queueRec_self ..), rfl, rfl⟩
    · obtain ⟨r, hr, htype, hload⟩ := hnew p hp
      exact ⟨r, hr, htype, by rw [hload, hpool]⟩

theorem checkDue_iff {d : Dev} : checkDue d = true ↔ (d.glb.power = .run ∨ d.glb.power = .doze) ∧ ∃ t, d.ldg.initAt = some t ∧ t + 1024 ≤ d.now := by
  cases h : d.ldg.initAt <;> simp [checkDue, fabricOn, h]

theorem failedPools_balanced {d : Dev} (h : ledgerOk d) : failedPools d = [] := by
  simp only [failedPools, List.filter_eq_nil_iff]
  intro p _
  simp [(h p).2]

/-- A failed check: the records, one Class F error that waits for them, and no unit moved. -/
theorem ledgerFail_reports {d : Dev} {l : List Nat} (hl : l ≠ []) :
    (ledgerFail d l).ldg = d.ldg ∧ (d.glb.fatal = none → (ledgerFail d l).glb.fatal = some { since := d.now, waiting := l.length }) ∧
    (d.evr.isOpen = true → ∀ p ∈ l, ∃ r ∈ (ledgerFail d l).evr.queue, r.rtype = 0x9002 ∧ r.payload = b2 0x0001 ++ BitVec.ofNat 8 p :: triple (poolOf d p)) := by
  obtain ⟨h, o, he⟩ : ∃ h o, (if d.hif.up then aerReport d .pf .uncorrectableInternal else d) = { d with hif := h, out := o } := by
    split
    · exact aerReport_frame ..
    · exact ⟨_, _, rfl⟩
  let e : Dev := { d with hif := h, out := o }
  have hfail : ledgerFail d l = (match (poolRecords e l).glb.fatal with
      | some f => { poolRecords e l with glb := { (poolRecords e l).glb with fatal := some { f with waiting := f.waiting + l.length } } }
      | none => { poolRecords e l with glb := { (poolRecords e l).glb with fatal := some { since := (poolRecords e l).now, waiting := l.length } } }) := by
    simp only [ledgerFail, List.isEmpty_iff, hl, if_false, he] <;> rfl
  obtain ⟨v, hv⟩ := poolRecords_frame e l
  have hglb : (poolRecords e l).glb = d.glb := by rw [hv]
  have hldg : (poolRecords e l).ldg = d.ldg := by rw [hv]
  have hnow : (poolRecords e l).now = d.now := by rw [hv]
  rw [hfail]
  refine ⟨by split <;> exact hldg, fun hf => by rw [hglb, hf]; simp [hnow], fun ho p hp => ?_⟩
  obtain ⟨r, hr, htype, hload⟩ := (poolRecords_queued e l ho).2 p hp
  exact ⟨r, by split <;> exact hr, htype, hload⟩

/-- Settles O31: a due check samples, then passes or fails by `failedPools`; the pause ends by its time alone. -/
theorem ledgerCheckAndPause : Obligations.LedgerCheckAndPause := by
  intro s
  have hcheck : exec .ledgerCheck s = .next (on s (ledgerCheck s.toDev)) := rfl
  have hpause : exec .classDPauseTimeout s = .next (on s (pauseTimeout s.toDev)) := rfl
  refine ⟨fun t0 hp h0 ht hok => ?passes, fun t0 l hp h0 ht hl hne => ?failing, fun hnot => ?notDue, fun hp ht => ?ends, fun h => ?paused⟩
  case passes =>
    have hdue : checkDue s.toDev = true := checkDue_iff.2 ⟨hp, t0, h0, ht⟩
    have hfailed : failedPools (takeSample { s.toDev with ldg := { s.ldg with initAt := some s.now } }) = [] := failedPools_balanced hok
    simp only [hcheck, ledgerCheck, hdue, Bool.not_true, Bool.false_eq_true, if_false, hfailed] <;> rfl
  case failing =>
    have hdue : checkDue s.toDev = true := checkDue_iff.2 ⟨hp, t0, h0, ht⟩
    have hcheck' : ledgerCheck s.toDev = ledgerFail (takeSample { s.toDev with ldg := { s.ldg with initAt := some s.now } }) l := by
      have hfailed : failedPools (takeSample { s.toDev with ldg := { s.ldg with initAt := some s.now } }) = l := hl
      simp only [ledgerCheck, hdue, Bool.not_true, Bool.false_eq_true, if_false, hfailed]
    obtain ⟨hldg, hfatal, hrecs⟩ := ledgerFail_reports (d := takeSample { s.toDev with ldg := { s.ldg with initAt := some s.now } }) hne
    refine ⟨_, hcheck, rfl, ?_, ?_, ?_, ?_⟩
    all_goals rw [hcheck']
    · change (ledgerFail _ l).ldg.checks = _
      rw [hldg]; rfl
    · exact hfatal
    · exact hrecs
    · intro p
      change tgetD (ledgerFail _ l).ldg.pools p {} = _
      rw [hldg]; rfl
  case notDue =>
    have hdue : checkDue s.toDev = false := by
      rw [Bool.eq_false_iff, Ne, checkDue_iff]
      rintro ⟨hp, t, h0, ht⟩
      rcases hnot with h | ⟨t', h, hlt⟩ | h
      · simp [h] at h0
      · rw [h0] at h; cases h; omega
      · exact hp.elim h.1 h.2
    simp [hcheck, ledgerCheck, hdue, on]
  case ends => simp [hpause, pauseTimeout, hp, ht]
  case paused =>
    have hnot : ¬ (s.glb.errD.paused = true ∧ s.glb.errD.since + secondCycles / 10 ≤ s.now) := by
      rintro ⟨hp, ht⟩
      rcases h with h | h
      · simp [h] at hp
      · omega
    simp [hpause, pauseTimeout, hnot, on]

end Sys2Proof.Machine
end

section
/-! PCIe errors and the ends of DMA reads (10, 12). -/

namespace Sys2Proof.Machine

open Sys2Proof.Safety

/-! ### What a report leaves of the PCIe interface -/

/-- A vector touches the configuration space and the outputs alone. -/
theorem signal_cfg (d : Dev) (f : Func) (v : Nat) : ∃ c o, signal d f v = { d with hif := { d.hif with cfg := c }, out := o } := by
  unfold signal; split <;> exact ⟨_, _, rfl⟩

/-- A Class D error: its registers and count, the rest as reports go. -/
theorem errD_parts (d : Dev) (b s : Nat) (c : Half) (n : Byte) (op aer : Bool) (rec : Option (Half × Word)) :
    ∃ x k m v o, errD d b s c n op aer rec = { d with glb := { d.glb with errD := x, errDCount := satInc d.glb.errDCount }, hif := { d.hif with cfg := k }, mgt := m, evr := v, out := o } := by
  simp only [errD]
  generalize (if op = true then _ else _ : ErrD) = x
  obtain ⟨k, o, hs⟩ := signal_cfg { d with glb := { d.glb with errD := x, errDCount := satInc d.glb.errDCount } } .pf 4
  rw [hs]
  obtain ⟨m, o', ha⟩ := alert_frame { d with glb := { d.glb with errD := x, errDCount := satInc d.glb.errDCount }, hif := { d.hif with cfg := k }, out := o } 3
  rw [ha]
  cases aer
  · obtain ⟨v, hv⟩ := logRec_frame { d with glb := { d.glb with errD := x, errDCount := satInc d.glb.errDCount }, hif := { d.hif with cfg := k }, mgt := m, out := o' }
      (recError (rec.getD (c, rErrD { d with glb := { d.glb with errD := x, errDCount := satInc d.glb.errDCount }, hif := { d.hif with cfg := k }, mgt := m, out := o' })).1 0x44 n
        (rec.getD (c, rErrD { d with glb := { d.glb with errD := x, errDCount := satInc d.glb.errDCount }, hif := { d.hif with cfg := k }, mgt := m, out := o' })).2)
    exact ⟨_, _, _, _, _, hv⟩
  · obtain ⟨v, hv⟩ := logRec_frame (aerReport { d with glb := { d.glb with errD := x, errDCount := satInc d.glb.errDCount }, hif := { d.hif with cfg := k }, mgt := m, out := o' } .pf .correctedInternal) _
    exact ⟨_, _, _, _, _, hv⟩

/-! ### O33 -/

theorem fenceOne_unfenced (d : Dev) (t : Nat) {e : DmaTag} (h : e.fenced = false) : (fenceOne d t e).hif = { d.hif with tags := tset d.hif.tags t { e with fenced := true } } := by
  simp [fenceOne, h, ldgMove]

theorem fenceOne_fenced (d : Dev) (t : Nat) {e : DmaTag} (h : e.fenced = true) : fenceOne d t e = d := by simp [fenceOne, h]

theorem fenceWhere_frame (d : Dev) (p : DmaTag → Bool) : ∃ h g, fenceWhere d p = { d with hif := h, ldg := g } := by
  unfold fenceWhere
  generalize d.hif.tags = l
  induction l generalizing d with
  | nil => exact ⟨_, _, rfl⟩
  | cons a l ih =>
    have hone : ∃ h g, (if p a.2 = true then fenceOne d a.1 a.2 else d) = { d with hif := h, ldg := g } := by
      unfold fenceOne; split
      · split <;> exact ⟨_, _, rfl⟩
      · exact ⟨_, _, rfl⟩
    obtain ⟨h, g, he⟩ := hone
    rw [List.foldl_cons, he]
    exact ih { d with hif := h, ldg := g }

/-- A fence of all the listed tags: what the table answers then is fenced, or was not on the list. -/
theorem fenceAll_tags (l : Tab DmaTag) (d : Dev) (hw : twf d.hif.tags = true) (hl : ∀ k e, tget d.hif.tags k = some e → e.fenced = true ∨ (k, e) ∈ l) :
    ∀ x ∈ (l.foldl (fun d te => if true = true then fenceOne d te.1 te.2 else d) d).hif.tags, x.2.fenced = true := by
  induction l generalizing d with
  | nil =>
    intro x hx
    simpa using hl x.1 x.2 ((mem_iff_tget hw x).1 hx)
  | cons a l ih =>
    obtain ⟨t, f⟩ := a
    rw [List.foldl_cons, if_pos rfl]
    cases hf : f.fenced
    · refine ih _ (by rw [fenceOne_unfenced _ _ hf]; exact twf_tset _ _ _ hw) fun k e he => ?_
      rw [fenceOne_unfenced _ _ hf] at he
      by_cases hk : k = t
      · subst hk
        rw [tget_tset_self] at he
        cases he; exact .inl rfl
      · rw [tget_tset_ne _ _ hk] at he
        exact (hl k e he).imp_right fun hm => (List.mem_cons.1 hm).resolve_left fun h => hk (congrArg Prod.fst h)
    · rw [fenceOne_fenced _ _ hf]
      refine ih d hw fun k e he => ?_
      rcases hl k e he with h | h
      · exact .inl h
      · rcases List.mem_cons.1 h with h | h
        · cases h; exact .inl hf
        · exact .inr h

/-- An entry of the tag table and its request, at the end of a read that is not fenced. -/
theorem dmaDone_params {d : Dev} {t rid : Nat} {f : Func} {q : Req} {b : Bytes} (ht : tget d.hif.tags t = some { func := f, use := .params rid }) (hq : tget d.reqs rid = some q)
    (hs : q.stage = .awaitData) (hb : b.length = ohLen q.bytes - 32) :
    dmaDone d t b = pumpParams (setReq (dmaRetire d t { func := f, use := .params rid }) rid
      { q with bytes := q.bytes ++ b, cells := chain (cellIdx q.cells) (q.bytes ++ b), stage := .held }) := by
  have hq' : tget (dmaRetire d t { func := f, use := .params rid }).reqs rid = some q := hq
  have hfit : Config.fit (ohLen q.bytes - 32) b = b := by rw [← hb]; simp [Config.fit]
  simp only [dmaDone, ht, receiveParams, hq', hs, hfit, bne_self_eq_false, Bool.false_eq_true, if_false]

theorem dmaFailed_params {d : Dev} {t rid : Nat} {f : Func} {q : Req} (k : Option DmaErr) (ht : tget d.hif.tags t = some { func := f, use := .params rid }) (hq : tget d.reqs rid = some q) :
    dmaFailed d t k = pumpParams (advanceEntries q.issuer 5 (finish (errIssuer (aerReport (dmaRetire d t { func := f, use := .params rid }) f (.nonFatal k)) q.issuer ST.dmaFail) rid ST.dmaFail)) := by
  have hq' : tget (aerReport (dmaRetire d t { func := f, use := .params rid }) f (.nonFatal k)).reqs rid = some q := hq
  simp only [dmaFailed, ht, hq', Bool.false_eq_true, if_false]

/-- Settles O33: the errors of 10 in an up link, and the ends of reads by what their tag was for. -/
theorem pcieErrorsAndReads : Obligations.PcieErrorsAndReads := by
  intro s
  have hcor f k : exec (.pcieCorrectableError f k) s = .next (on s (correctableError s.toDev f k)) := rfl
  have hadv f k : exec (.pcieAdvisoryError f k) s = .next (on s (advisoryError s.toDev f k)) := rfl
  have hfat k : exec (.pcieFatalError k) s = .next (on s (fatalError s.toDev k)) := rfl
  have hdone t b : exec (.dmaCompletion t b) s = .next (on s (across s.toDev .pcie fun d => dmaDone d t b)) := rfl
  have herr t k : exec (.dmaCompletionError t k) s = .next (on s (across s.toDev .pcie fun d => dmaFailed d t (some k))) := rfl
  have htime t : exec (.completionTimeout t) s = .next (on s (across s.toDev .pcie fun d => dmaFailed d t none)) := rfl
  refine ⟨fun f k hup => ?_, fun f k hup => ?_, fun k hup hw => ?fatal, fun f k l m hup => ⟨?_, ?_, ?_⟩, fun t e b k hx ht he => ?fenced, fun t f rid q b hx ht hq hs hb => ?received,
    fun t f rid q k hx ht hq => ?failed, fun t b k h => ?nothing⟩
  · simp [hcor, correctableError, hup]
  · simp [hadv, advisoryError, hup]
  case fatal =>
    refine ⟨_, hfat k, rfl, ?_⟩
    obtain ⟨h, g, hf⟩ := fenceWhere_frame (aerReport s.toDev .pf (.errFatal k)) fun _ => true
    have htags : ∀ e ∈ (fenceWhere (aerReport s.toDev .pf (.errFatal k)) fun _ => true).hif.tags, e.2.fenced = true :=
      fenceAll_tags _ _ hw fun k e he => .inr ((mem_iff_tget hw (k, e)).2 he)
    rw [hf] at htags
    simp only [fatalError, hup, hf, Bool.not_true, Bool.false_eq_true, if_false, on]
    obtain ⟨x, c, m, v, o, hd⟩ := errD_parts { (aerReport s.toDev .pf (.errFatal k)) with rng := s.rng + 1, hif := { h with dmaHeld := true }, ldg := g } 2 0 (Config.openStatus s.rng) 0xFF false false none
    erw [hd]
    exact ⟨rfl, htags, rfl⟩
  · simp [hcor, correctableError, hup, on]
  · simp [hadv, advisoryError, hup, on]
  · simp [hfat, fatalError, hup, on]
  case fenced =>
    have hretire : dmaRetire s.toDev t e = ldgRetire { s.toDev with hif := { s.hif with tags := tdel s.hif.tags t } } 4 H.fenced 1 := by simp [dmaRetire, he]
    rw [hdone, herr, htime]
    simp only [across_free hx, dmaDone, dmaFailed, ht, he, hretire, if_true, and_self]
  case received => rw [hdone, across_free hx, dmaDone_params ht hq hs hb]
  case failed => rw [herr, htime, across_free hx, across_free hx, dmaFailed_params _ ht hq, dmaFailed_params _ ht hq]; exact ⟨rfl, rfl⟩
  case nothing =>
    rw [hdone, herr, htime]
    rcases h with h | h
    · cases hx : crossStalled s.toDev .pcie
      · simp only [across_free hx, dmaDone, dmaFailed, h]; exact ⟨rfl, rfl, rfl⟩
      · simp only [across_stalled hx]; exact ⟨rfl, rfl, rfl⟩
    · simp only [across_stalled h]; exact ⟨rfl, rfl, rfl⟩

end Sys2Proof.Machine
end

section
/-! Operations on a stall (11). A reset frees lanes, and the command of another stall that then starts may fault its own stall. -/

namespace Sys2Proof.Machine

open Sys2Proof.Safety

/-- The device of a stall's abort (11 R192) before its lanes serve the commands that wait. -/
def abortedWork (d : Dev) (n : Nat) : Dev :=
  let d := dropReqs d n fun e => (tget d.comps e.1).isNone
  let d := { d with pkeWait := d.pkeWait.filter fun w => decide (waitIssuer w ≠ n), sym := { d.sym with wait := d.sym.wait.filter fun c => decide (issuerIdx c.issuer ≠ n) } }
  let d := engines.foldl (fun d e => if !onEngine d n e then d else finishAbort (if (eng d e).aborting then d else startAbort d e) e true) d
  (d.sym.lanes.filter fun l => (tget d.reqs l.2.rid).isNone).foldl (fun d l => laneAbort d l.1 ST.aborted) d

/-- One command of stall 1 waits, and a lane of each kind is free: it runs. -/
theorem pumpLanes_single {d : Dev} {c : Cmd} (hwait : d.sym.wait = [c]) (hround : d.sym.round = []) (hlanes : laneUsable d 0 = true ∧ laneUsable d 8 = true)
    (hweight : 0 < weightOf d 1) (hissuer : issuerIdx c.issuer = 1) :
    pumpLanes d = runSym { d with sym := { d.sym with wait := [], round := [(1, 1)] } } c := by
  have hfree : mustWait d c = false := by simp [mustWait, Option.isNone_eq_false_iff.2 (pickLane_isSome (hashLaned c) hlanes)]
  have hlist : (if ([c].filter (hasShare d)).isEmpty = true then [c] else [c].filter (hasShare d)) = [c] := by
    cases h : hasShare d c <;> simp [h]
  have hcands : (List.range 83).filter (fun i => decide (1 = i)) = [1] := by decide
  have herase : [c].erase c = [] := by simp
  simp only [pumpLanes, hwait, List.length_singleton, pumpSym, List.filter_cons, hfree, Bool.not_false, List.filter_nil, if_true]
  simp only [List.filter_cons, List.filter_nil] at hlist
  simp only [hlist, hround, List.any_cons, List.any_nil, Bool.or_false, hissuer, hcands, wrrPick, List.find?_cons, List.find?_nil, tgetD, tget, Option.getD_none, hweight, decide_true, tset, herase]

/-- Stall 0 is to be reset; stall 1, a Class T error short of its fault and without a free cell, waits with a HASH. -/
def resetState : State :=
  { toDev := {
      stl := { stalls := [(0, { st := .active }), (1, { st := .active, classT := List.replicate 15 0, lastErrRec := some 0 })] }
      ldg := { pools := [(1, { issued := 0x100000, held := [(1, 0x100000)] })] }
      sym := { wait := [{ rid := 0, issuer := .stall 1, opcode := 0x0403, params := [1, 0, 0, 0, 0, 0, 0, 0], dataCap := 32 }] } } }

/-- `resetState` as its lanes come to serve the HASH of stall 1. -/
def resetWork : Dev :=
  let d := modStall resetState.toDev 0 fun s => { s with op := 4, mode := true }
  let d := { d with glb := { d.glb with req := none } }
  let d := toState (modStall d 0 fun s => { s with job := some { mode := .drain, cause := causeReset, removal := false, flr := false, since := d.now } }) 0 .resetting
  abortedWork (dropUndispatched d 0) 0

theorem resetState_reset : stallCtl resetState.toDev 0 4 .drain = setStatus (pumpLanes resetWork) 0 ST.ok := rfl

theorem resetWork_waits : resetWork.sym.wait = resetState.sym.wait ∧ resetWork.sym.round = [] ∧ (laneUsable resetWork 0 = true ∧ laneUsable resetWork 8 = true) ∧ 0 < weightOf resetWork 1 := by
  decide +kernel

/-- The HASH ends with ST_NO_CELLS, charged to its stall. -/
theorem resetWork_faults : (resetState.sym.wait.map fun c => (stall (runSym { resetWork with sym := { resetWork.sym with wait := [], round := [(1, 1)] } } c) 1).st) = [.faulted] := by
  decide +kernel

/-- Refutes O34: the reset of stall 0 lets the HASH of stall 1 start, which finds no cell, a Class T error, the sixteenth within a second: stall 1 is FAULTED. -/
theorem not_stallOperationsAct : ¬ Obligations.StallOperationsAct := by
  intro h
  obtain ⟨-, -, -, hreset, -⟩ := h resetState 0 _ rfl rfl rfl
  obtain ⟨⟨t, ht, hmoves⟩, -⟩ := hreset .drain (.inr (.inl rfl)) rfl
  have hrow : exec (.reset 0 .drain) resetState = .next (on resetState (stallCtl resetState.toDev 0 4 .drain)) := rfl
  rw [hrow] at ht
  cases ht
  obtain ⟨-, -, -, -, hothers, -⟩ := hmoves
  have hother := hothers 1 (by decide)
  have hsame : (stall (on resetState (stallCtl resetState.toDev 0 4 .drain)).toDev 1).st = (stall (pumpLanes resetWork) 1).st := by
    rw [resetState_reset]
    exact congrArg Stall.st (stall_setStall_ne _ _ (by decide))
  obtain ⟨hwait, hround, hlanes, hweight⟩ := resetWork_waits
  rw [hsame, pumpLanes_single hwait hround hlanes hweight rfl] at hother
  exact absurd ((List.singleton_inj.1 resetWork_faults).symm.trans hother) (by decide)

end Sys2Proof.Machine
end

section
/-! Engine windows and aborts (16), lanes and the DRBG (17). -/

namespace Sys2Proof.Machine

open Sys2Proof.Safety

/-! ### O46 -/

/-- A table filled index by index from a list. -/
theorem tget_foldl_tset {α : Type} (f : Nat → α) (l : List Nat) (t : Tab α) (n : Nat) (hn : n ∈ l) : tget (l.foldl (fun t m => tset t m (f m)) t) n = some (f n) := by
  have hlast (l : List Nat) (t : Tab α) (h : n ∈ l ∨ tget t n = some (f n)) : tget (l.foldl (fun t m => tset t m (f m)) t) n = some (f n) := by
    induction l generalizing t with
    | nil => exact h.resolve_left List.not_mem_nil
    | cons m l ih =>
      refine ih (tset t m (f m)) ?_
      rw [tget_tset]
      split
      next hm => exact .inr (by rw [hm])
      next hm => exact h.imp_left fun h => (List.mem_cons.mp h).resolve_left hm
  exact hlast l t (.inl hn)

/-- One round of shares on every engine (16 R302). -/
def renewEngines (d : Dev) (on : List Nat) : Dev :=
  engines.foldl (fun d e => setEng d e { eng d e with secureMicros := 0, balance := on.foldl (fun t n => tset t n (renewBalance ((64000 / partN d : Nat) : Int) (balanceOf d e n))) [] }) d

theorem eng_renewEngines (d : Dev) (on : List Nat) (e : Fin 4) :
    eng (renewEngines d on) e.val =
      { eng d e.val with secureMicros := 0, balance := on.foldl (fun t n => tset t n (renewBalance ((64000 / partN d : Nat) : Int) (balanceOf d e.val n))) [] } := by
  have hpart (d : Dev) (e : Nat) (p : Pke) : partN (setEng d e p) = partN d := rfl
  have hne (d : Dev) (p : Pke) {i j : Nat} (h : j ≠ i) : eng (setEng d i p) j = eng d j := tgetD_tset_ne _ _ _ h
  match e with
  | ⟨0, _⟩ => simp [renewEngines, engines, hpart, hne, balanceOf]
  | ⟨1, _⟩ => simp [renewEngines, engines, hpart, hne, balanceOf]
  | ⟨2, _⟩ => simp [renewEngines, engines, hpart, hne, balanceOf]
  | ⟨3, _⟩ => simp [renewEngines, engines, hpart, hne, balanceOf]

theorem renewEngines_frame (d : Dev) (on : List Nat) : renewEngines d on = { d with pke := (renewEngines d on).pke } := rfl

theorem windowStart_due {d : Dev} (h : d.pkeWindow + 64 * msCycles ≤ d.now) :
    windowStart d = { d with pke := (renewEngines d ((List.range 64).filter fun n => enabled (stall d n))).pke, pkeWindow := d.now } := by
  rw [windowStart, if_neg (by omega)]
  exact congrArg (fun x : Dev => { x with pkeWindow := d.now }) (renewEngines_frame d _)

section
variable {d : Dev} {e : Fin 4} {p : Pke} {m : Master}

theorem abortWrite_transit (ht : inTransit d (18 + e.val) = true) : abortWrite d e.val m = violate d m regionTransit slaveRegs (writeKind m) true (0x40008 + 0x1000 * e.val) := by
  have haddr : Base.pke e.val + 8 = 0x40008 + 0x1000 * e.val := by simp only [Base.pke]; omega
  simp [abortWrite, ht, haddr]

theorem abortWrite_normal (ht : inTransit d (18 + e.val) = false) (hm : masterSecure d m = false) :
    abortWrite d e.val m = violate d m regionNone slaveRegs (writeKind m) true (0x40008 + 0x1000 * e.val) := by
  have haddr : Base.pke e.val + 8 = 0x40008 + 0x1000 * e.val := by simp only [Base.pke]; omega
  simp [abortWrite, ht, hm, haddr, regDenied]

theorem abortWrite_secure (ht : inTransit d (18 + e.val) = false) (hm : masterSecure d m = true) : abortWrite d e.val m = startAbort d e.val := by
  simp [abortWrite, ht, hm]

/-- A stopped operation of a request that reserves and uses nothing. -/
theorem dropOp_plain {o : PkeOp} {rid : Nat} (hr : o.rid = some rid) (hres : reservedOf o.kind = none) (huse : o.usesSlot = none) (hsec : isSecureKind o.kind = false) :
    dropOp d o = finish d rid ST.aborted := by
  have hcut : cutSecure d o = d := by
    unfold cutSecure; split <;> simp_all [isSecureKind]
  simp only [dropOp, hres, huse, hcut, hr]

end

/-- Settles O46: the window, the write of ABORT by its master, the end of an abort. -/
theorem engineWindowsAndAborts : Obligations.EngineWindowsAndAborts := by
  intro s e p m hp
  have hwin : exec .pkeWindowStart s = .next (on s (windowStart s.toDev)) := rfl
  have habort : exec (.abort e m) s = .next (on s (abortWrite s.toDev e.val m)) := rfl
  have hdone z : exec (.aborted e z) s = .next (on s (across s.toDev (pkeIsland e) fun d => finishAbort d e.val z)) := rfl
  refine ⟨fun h => ?early, fun h => ?due, fun o hm ht ho => ?stops, fun hm ht ho => ?idle, fun hm ht => ?normal, fun ht => ?transit,
    fun o rid d hx ha hs hr hres huse hsec hd => ?endsOp, fun d hx ha hs hd => ?endsIdle, fun z h => ?none⟩
  case early => simp [hwin, windowStart, h, on]
  case due =>
    have heng := eng_renewEngines s.toDev ((List.range 64).filter fun n => enabled (stall s.toDev n)) e
    rw [hwin, windowStart_due h]
    generalize renewEngines s.toDev _ = d at heng
    refine ⟨_, rfl, rfl, ?_, ?_, fun n hn => ?_⟩
    · change (eng d e.val).secureMicros = 0
      rw [heng]
    · change (eng d e.val).op = p.op
      rw [heng, hp]
    · have hmem : n.val ∈ (List.range 64).filter fun n => enabled (stall s.toDev n) := by simp [hn]
      change tgetD (eng d e.val).balance n.val _ = _
      rw [heng, tgetD, tget_foldl_tset _ _ _ _ hmem]
      rfl
  case stops => rw [habort, abortWrite_secure ht hm]; simp only [startAbort, ← hp, ho] <;> rfl
  case idle => rw [habort, abortWrite_secure ht hm]; simp only [startAbort, ← hp, ho] <;> rfl
  case normal => rw [habort, abortWrite_normal ht hm]
  case transit => rw [habort, abortWrite_transit ht]
  case endsOp =>
    have hfin z : finishAbort s.toDev e.val z = (if z then d else readbackFault d e.val) := by
      simp only [finishAbort, ← hp, ha, hs, dropOp_plain hr hres huse hsec, hd, Bool.not_true, Bool.false_eq_true, if_false, Option.isSome_some, if_true]
    rw [hdone, hdone, across_free hx, across_free hx, hfin, hfin]
    exact ⟨rfl, rfl⟩
  case endsIdle =>
    have hfin z : finishAbort s.toDev e.val z = (if z then d else readbackFault d e.val) := by
      simp only [finishAbort, ← hp, ha, hs, hd, Bool.not_true, Bool.false_eq_true, if_false, Option.isSome_none]
    rw [hdone, hdone, across_free hx, across_free hx, hfin, hfin]
    exact ⟨rfl, rfl⟩
  case none =>
    rw [hdone]
    rcases h with h | h
    · have hfin : finishAbort s.toDev e.val z = s.toDev := by simp [finishAbort, ← hp, h]
      cases hx : crossStalled s.toDev (pkeIsland e)
      · rw [across_free hx, hfin]; rfl
      · rw [across_stalled hx]; rfl
    · rw [across_stalled h]; rfl

/-! ### O47 -/

theorem pumpLanes_idle {d : Dev} (h : d.sym.wait = []) : pumpLanes d = d := by simp [pumpLanes, h, pumpSym]

theorem drbgReady_chargeLane (d : Dev) (l n c : Nat) : drbgReady (chargeLane d l n c) = drbgReady d := by
  unfold chargeLane; split <;> rfl

/-- The end of a lane's job: its lane is free, its time charged, and it answers by what it computed. -/
theorem laneDone_ends {d : Dev} {l : Nat} {j : LaneJob} (hj : tget d.sym.lanes l = some j) :
    laneDone d l = (let r := laneResult (chargeLane { d with sym := { d.sym with lanes := tdel d.sym.lanes l } } l j.payer (d.now - j.since)) j
      finish (j.usesSlots.foldl endUse r.1) j.rid r.2.1 r.2.2) := by
  simp only [laneDone, hj] <;> rfl

/-- Settles O47: a lane's end by the kind of its job; a health failure; a reseed. -/
theorem lanesAndRandomNumbers : Obligations.LanesAndRandomNumbers := by
  intro s
  have hlane (l : Fin 12) : exec (.symLaneDone l) s = .next (on s (across s.toDev .sym fun d => pumpLanes (laneDone d l.val))) := rfl
  have hfail c : exec (.rngHealthFail c) s = .next (on s (across s.toDev .sym fun d => if d.sym.rngInst then rngFail d c else d)) := rfl
  have hseed : exec .drbgReseed s = .next (on s (across s.toDev .sym reseed)) := rfl
  refine ⟨fun l j d hx hj hd => ?lanes, fun l h => ?noLane, fun c n y d hx hi hn hy hd => ?health, fun c h => ?noHealth, fun hx hr => ?reseeds, fun h => ?noReseed⟩
  case lanes =>
    have hends : exec (.symLaneDone l) s = .next (on s (pumpLanes (finish (j.usesSlots.foldl endUse (laneResult d j).1) j.rid (laneResult d j).2.1 (laneResult d j).2.2))) := by
      rw [hlane, across_free hx, laneDone_ends hj, hd]
    have hready : drbgReady d = drbgReady s.toDev := by rw [hd, drbgReady_chargeLane]; rfl
    rw [hends]
    refine ⟨fun h n msg hk => ?_, fun alg n msg hk => ?_, fun alg n msg mac hk => ?_, fun iv aad data tag hk => ?_, fun mode dir k2 iv aad data tag hk hm => ?_, fun n hk => ?_⟩
    · simp only [laneResult, hk]
    · simp only [laneResult, hk]
    · simp only [laneResult, hk, beq_iff_eq]
    · simp only [laneResult, hk]
      cases Config.gcmOpen j.key iv aad data tag <;> rfl
    · simp only [laneResult, hk, hm, if_false]
    · simp only [laneResult, hk, hready]
      cases drbgReady s.toDev <;> rfl
  case noLane =>
    rw [hlane]
    rcases h with ⟨hl, hw⟩ | h
    · have hnone : pumpLanes (laneDone s.toDev l.val) = s.toDev := by simp only [laneDone, hl]; exact pumpLanes_idle hw
      cases hx : crossStalled s.toDev .sym
      · rw [across_free hx, hnone]; rfl
      · rw [across_stalled hx]; rfl
    · rw [across_stalled h]; rfl
  case health =>
    subst hd hy hn
    rw [hfail, across_free hx, if_pos hi]
    cases c <;> rfl
  case noHealth =>
    rw [hfail]
    rcases h with h | h
    · cases hx : crossStalled s.toDev .sym
      · simp [across_free hx, h, on]
      · rw [across_stalled hx]; rfl
    · rw [across_stalled h]; rfl
  case reseeds => simp [hseed, across_free hx, reseed, hr]
  case noReseed =>
    rw [hseed]
    rcases h with h | h
    · cases hx : crossStalled s.toDev .sym
      · simp [across_free hx, reseed, h, on]
      · rw [across_stalled hx]; rfl
    · rw [across_stalled h]; rfl

end Sys2Proof.Machine
end

section
/-! Card slots (08) and the host's flash commands (18). -/

namespace Sys2Proof.Machine

open Sys2Proof.Safety

/-! ### O48 -/

@[simp] theorem slotOf_emit (d : Dev) (o : Out) (x : Slot) : slotOf (emit d o) x = slotOf d x := by cases x <;> rfl
@[simp] theorem slotOf_cardCmd (d : Dev) (x y : Slot) (c : CardCmd) : slotOf (cardCmd d y c) x = slotOf d x := slotOf_emit ..

theorem cardsRun_iff (d : Dev) : cardsRun d = true ↔ d.glb.power = .run := by simp [cardsRun]

/-- A poll of an identifying card in RUN, by its answer. -/
theorem cmd1_polls {d : Dev} {x : Slot} (r : CmdAnswer) (hp : (slotOf d x).phase = .identification) (hr : d.glb.power = .run) :
    cmd1 d x r = (let c := { slotOf d x with polls := (slotOf d x).polls + 1, busFails := 0 }
      let d := cardCmd (setSlot d x c) x .cmd1
      match r.response with
      | some w =>
        if bit w 31 then
          if bit w 21 && bit w 20 then
            setSlot (cardCmds d x [.cmd3, .cmd7, .cmd6Width, .cmd6Timing]) x { c with phase := .transfer, pushPull := true, wide := r.widthOk && r.timingOk }
          else slotFault d x 4 false .done
        else if 100 ≤ c.polls then slotFault d x 2 false .done else d
      | none => if 100 ≤ c.polls then slotFault d x 2 false .done else d) := by
  simp only [cmd1, hp, (cardsRun_iff d).2 hr, bne_self_eq_false, Bool.not_true, Bool.or_false, Bool.false_eq_true, if_false] <;> rfl

/-- Settles O48: each row by the phase of its slot. -/
theorem cardSlotsFollowThePhases : Obligations.CardSlotsFollowThePhases := by
  intro s x c hc
  have hins : exec (.cardInsert x) s = .next (on s (cardInserted s.toDev x)) := rfl
  have hup : exec (.slotPowerUp x) s = .next (on s (slotPowered s.toDev x)) := rfl
  have hpull : exec (.cardPull x) s = .next (on s (cardPulled s.toDev x)) := rfl
  have hpoll r : exec (.cmd1Poll x r) s = .next (on s (cmd1 s.toDev x r)) := rfl
  have hbus b : exec (.cardBusError b) s = .next (on s (busError s.toDev b)) := rfl
  have hlim : exec (.cardSupplyLimit x) s = .next (on s (supplyLimit s.toDev x)) := rfl
  have hshort : exec (.short x) s = .next (on s (slotShort s.toDev x)) := rfl
  refine ⟨fun hp => ?insert, fun hp hb hr => ?power, ?pull, fun r d k hp hr hk hd => ?poll, fun b n hb hs hn => ?bus, fun hs => ?limit, fun hf => ?short, fun hp => ?noInsert,
    fun h => ?noPower, fun r h => ?noPoll⟩
  case insert => simp [hins, cardInserted, ← hc, hp]
  case power => simp [hup, slotPowered, ← hc, hp, hb, cardsRun, hr]
  case pull =>
    rw [hpull, cardPulled, ← hc]
    cases he : c.exch with
    | none => simp
    | some e => cases hi : e.issue <;> simp [hi, CardFault.pulled]
  case poll =>
    subst hd hk hc
    rw [hpoll, cmd1_polls r hp hr]
    dsimp only
    refine ⟨fun w hw h31 h21 h20 => ?_, fun w hw h31 hbad => ?_, fun h => ⟨fun hn => ?_, fun hn => ?_⟩⟩
    · simp only [hw, bit, h31, h21, h20, Bool.and_self, if_true] <;> rfl
    · have hno : (bit w 21 && bit w 20) = false := by rcases hbad with h | h <;> simp only [bit, h, Bool.false_and, Bool.and_false]
      have h31' : bit w 31 = true := h31
      simp only [hw, h31', hno, Bool.false_eq_true, if_true, if_false]
    · have hk100 : ¬ 100 ≤ (slotOf s.toDev x).polls + 1 := by omega
      rcases h with h | ⟨w, hw, h31⟩
      · simp only [h, hk100, if_false]
      · have h31' : bit w 31 = false := h31
        simp only [hw, h31', hk100, Bool.false_eq_true, if_false]
    · have hk100 : 100 ≤ (slotOf s.toDev x).polls + 1 := by omega
      rcases h with h | ⟨w, hw, h31⟩
      · simp only [h, hk100, if_true]
      · have h31' : bit w 31 = false := h31
        simp only [hw, h31', hk100, Bool.false_eq_true, if_false, if_true]
  case bus =>
    subst hb hn
    rw [hbus]
    refine ⟨fun h => ?_, fun h => ?_⟩
    · simp only [busError, ← hc, hs, Bool.not_true, Bool.false_eq_true, if_false, h, if_true]
    · simp only [busError, ← hc, hs, Bool.not_true, Bool.false_eq_true, if_false, if_neg (Nat.not_lt.2 h), beq_iff_eq, CardFault.bus]
  case limit => simp [hlim, supplyLimit, ← hc, hs]
  case short => simp [hshort, slotShort, ← hc, hf, CardFault.short]
  case noInsert => simp [hins, cardInserted, ← hc, hp, on]
  case noPower =>
    have hnot : ¬ ((c.phase = .debounce ∧ s.glb.bankCrd = .released) ∧ s.glb.power = .run) := fun ⟨⟨hph, hbank⟩, hrun⟩ => h.elim (· hph) (·.elim (· hbank) (· hrun))
    simp [hup, slotPowered, ← hc, cardsRun, hnot, on]
  case noPoll =>
    have hnot : (c.phase != .identification || !cardsRun s.toDev) = true := by rcases h with h | h <;> simp [h, cardsRun]
    simp only [hpoll, cmd1, ← hc, hnot, if_true] <;> rfl

/-! ### O50 -/

/-- A wake touches GLB's wake bits, the link and its PM_PME, and the outputs. -/
theorem wake_parts (d : Dev) (c : WakeCause) :
    ∃ w n l p o, wake d c = { d with glb := { d.glb with waking := w, wakeN := n }, hif := { d.hif with link := l, pmeStatus := p }, out := o } := by
  have hpme (d : Dev) : ∃ n p o, pme d = { d with glb := { d.glb with wakeN := n }, hif := { d.hif with pmeStatus := p }, out := o } := by
    unfold pme
    split
    · exact ⟨_, _, _, rfl⟩
    · dsimp only
      split
      · exact ⟨_, _, _, rfl⟩
      · split <;> exact ⟨_, _, _, rfl⟩
  have hwaking (d : Dev) : ∃ w n p o, (if d.glb.waking then d else pme { d with glb := { d.glb with waking := true } }) =
      { d with glb := { d.glb with waking := w, wakeN := n }, hif := { d.hif with pmeStatus := p }, out := o } := by
    split
    · exact ⟨_, _, _, _, rfl⟩
    · obtain ⟨n, p, o, h⟩ := hpme { d with glb := { d.glb with waking := true } }
      exact ⟨_, _, _, _, h⟩
  unfold wake
  split
  · exact ⟨_, _, _, _, _, rfl⟩
  · dsimp only
    cases c
    case linkLeft =>
      obtain ⟨w, n, p, o, h⟩ := hwaking { d with hif := { d.hif with link := .l0 } }
      exact ⟨_, _, _, _, _, h⟩
    all_goals
      obtain ⟨w, n, p, o, h⟩ := hwaking d
      exact ⟨_, _, _, _, _, h⟩

theorem csFall_parts (d : Dev) :
    ∃ w n l p o, csFall d = { d with glb := { d.glb with waking := w, wakeN := n }, hif := { d.hif with link := l, pmeStatus := p }, out := o } := by
  unfold csFall; split
  · exact ⟨_, _, _, _, _, rfl⟩
  · exact wake_parts ..

section
variable {d : Dev} {op : Byte}

theorem hostFlash_passes (h : bwhLive d = true) (hop : op ∈ readOps ∨ op ∈ writeOps) : hostFlash d op = emit d (.flashPass op) := by
  simp [hostFlash, h, hop]

theorem hostFlash_mode (h : bwhLive d = true) (hop : op ∈ passOps) :
    hostFlash d op = emit { d with bwt := { d.bwt with addr4 := if op = 0xB7 then true else if op = 0xE9 then false else d.bwt.addr4 } } (.flashPass op) := by
  simp only [passOps, List.mem_cons, List.not_mem_nil, or_false] at hop
  rcases hop with rfl | rfl | rfl | rfl | rfl | rfl <;> simp [hostFlash, h, readOps, writeOps, passOps]

theorem hostFlash_whole (h : bwhLive d = true) (hop : op ∈ wholeOps) :
    hostFlash d op = if (manRegions d).any fun x => x.1.wblock then blockWrite d op else passWrite d op fun _ => true := by
  simp only [wholeOps, List.mem_cons, List.not_mem_nil, or_false] at hop
  rcases hop with rfl | rfl | rfl | rfl <;> simp [hostFlash, h, readOps, writeOps, passOps, wholeOps]

theorem hostFlash_unlisted (h : bwhLive d = true) (hop : op ∉ readOps ++ writeOps ++ passOps ++ wholeOps) (hop' : op ∉ [0x9F, 0x5A, 0x05, 0x35]) : hostFlash d op = refuseFlash d op := by
  simp only [List.mem_append, not_or] at hop
  simp only [List.mem_cons, List.not_mem_nil, or_false, not_or] at hop'
  obtain ⟨⟨⟨hread, hwrite⟩, hpass⟩, hwhole⟩ := hop
  obtain ⟨h9f, h5a, h05, h35⟩ := hop'
  simp only [hostFlash, h, List.contains_eq_mem, hread, hwrite, hpass, hwhole, beq_false_of_ne h9f, beq_false_of_ne h5a, beq_false_of_ne h05, beq_false_of_ne h35,
    decide_false, Bool.not_true, Bool.or_self, Bool.false_eq_true, if_false]

theorem hostFlash_dead (h : bwhLive d = false) : hostFlash d op = if answerLen d op = 0 then d else pulledUp d (answerLen d op) := by
  simp [hostFlash, h]

theorem refuseFlash_counts : ∃ v,
    refuseFlash d op = { d with bwt := { d.bwt with refused := satInc d.bwt.refused, journal := (refuseFlash d op).bwt.journal }, evr := v, out := .flashRefused op :: d.out } ∧
    (refuseFlash d op).bwt.journal.writesBlocked = d.bwt.journal.writesBlocked ∧ (refuseFlash d op).bwt.journal.writesPassed = d.bwt.journal.writesPassed ∧
    (op ∈ d.bwt.journal.refusedOps → (refuseFlash d op).bwt.journal = d.bwt.journal ∧ v = d.evr) ∧
    (op ∉ d.bwt.journal.refusedOps → (refuseFlash d op).bwt.journal = { d.bwt.journal with refusedOps := d.bwt.journal.refusedOps ++ [op] }) := by
  by_cases hop : op ∈ d.bwt.journal.refusedOps
  · have h : refuseFlash d op = emit { d with bwt := { d.bwt with refused := satInc d.bwt.refused } } (.flashRefused op) := by simp [refuseFlash, hop]
    rw [h]
    exact ⟨_, rfl, rfl, rfl, fun _ => ⟨rfl, rfl⟩, fun hn => absurd hop hn⟩
  · have h : ∃ v, refuseFlash d op = { setJournal (emit { d with bwt := { d.bwt with refused := satInc d.bwt.refused } } (.flashRefused op))
        { d.bwt.journal with refusedOps := d.bwt.journal.refusedOps ++ [op] } with evr := v } := by
      simp only [refuseFlash, emit_frame, List.contains_eq_mem, hop, decide_false, Bool.false_eq_true, if_false]
      exact logRec_frame _ _
    obtain ⟨v, h⟩ := h
    rw [h]
    exact ⟨v, rfl, rfl, rfl, fun hm => absurd hm hop, fun _ => rfl⟩

/-- A region a passed write has touched: written, and under a gate to be verified again (18 R334). -/
def writtenRegion (r : ManRegion) (o : RegionSt) : RegionSt := { o with written := true, verified := o.verified && !r.gate, reverify := o.reverify || r.gate }

/-- The marks of a passed write on the manifest's regions. -/
def markWritten (d : Dev) (hit : ManRegion → Bool) (l : List (ManRegion × Nat)) : Dev :=
  l.foldl (fun d a => if hit a.1 then setRegion d a.2 (writtenRegion a.1 (regionSt d a.2 a.1.base)) else d) d

theorem passWrite_eq (hit : ManRegion → Bool) :
    passWrite d op hit = emit (markWritten (setJournal d { d.bwt.journal with writesPassed := d.bwt.journal.writesPassed + 1 }) hit (manRegions d)) (.flashPass op) := rfl

theorem markWritten_frame (hit : ManRegion → Bool) (l : List (ManRegion × Nat)) : ∃ r, markWritten d hit l = { d with bwt := { d.bwt with regions := r } } := by
  induction l generalizing d with
  | nil => exact ⟨_, rfl⟩
  | cons a l ih =>
    rw [markWritten, List.foldl_cons]
    split
    · obtain ⟨r, h⟩ := @ih (setRegion d a.2 (writtenRegion a.1 (regionSt d a.2 a.1.base)))
      exact ⟨r, h⟩
    · exact ih

theorem regionSt_setRegion_ne {i j : Nat} (x : RegionSt) (base : Nat) (h : j ≠ i) : regionSt (setRegion d i x) j base = regionSt d j base := tgetD_tset_ne _ _ _ h

theorem regionSt_markWritten_other (hit : ManRegion → Bool) (l : List (ManRegion × Nat)) (i base : Nat) (h : ∀ a ∈ l, a.2 ≠ i) : regionSt (markWritten d hit l) i base = regionSt d i base := by
  induction l generalizing d with
  | nil => rfl
  | cons a l ih =>
    have ha : i ≠ a.2 := fun e => h a List.mem_cons_self e.symm
    have hl := fun d => @ih d fun x hx => h x (List.mem_cons_of_mem _ hx)
    rw [markWritten, List.foldl_cons]
    split
    · exact (hl _).trans (regionSt_setRegion_ne _ _ ha)
    · exact hl d

theorem regionSt_markWritten (hit : ManRegion → Bool) (l : List (ManRegion × Nat)) (hl : (l.map Prod.snd).Nodup) {a : ManRegion × Nat} (ha : a ∈ l) :
    regionSt (markWritten d hit l) a.2 a.1.base = if hit a.1 then writtenRegion a.1 (regionSt d a.2 a.1.base) else regionSt d a.2 a.1.base := by
  induction l generalizing d with
  | nil => simp at ha
  | cons b l ih =>
    rw [List.map_cons, List.nodup_cons] at hl
    obtain ⟨hb, hl⟩ := hl
    rw [markWritten, List.foldl_cons]
    rcases List.mem_cons.1 ha with rfl | ha
    · have hrest := fun d : Dev => regionSt_markWritten_other (d := d) hit l a.2 a.1.base fun x hx e => hb (e ▸ List.mem_map_of_mem hx)
      refine (hrest _).trans ?_
      split
      · exact tgetD_tset_self ..
      · rfl
    · have hne : a.2 ≠ b.2 := fun e => hb (e ▸ List.mem_map_of_mem ha)
      refine (ih hl ha).trans ?_
      by_cases hh : hit b.1 = true
      · simp only [hh, if_true, regionSt_setRegion_ne _ _ hne]
      · simp only [hh, Bool.false_eq_true, if_false]

theorem manRegions_nodup : ((manRegions d).map Prod.snd).Nodup := by
  unfold manRegions; split
  · rw [List.zipIdx_map_snd]; exact List.nodup_range' 
  · exact List.nodup_nil

end

/-- Settles O50: a command's group decides; a write that touches a WBLOCK region is blocked, one that passes marks what it touches. -/
theorem flashCommandsAreFiltered : Obligations.FlashCommandsAreFiltered := by
  intro s op addr len e he
  have hcmd op : exec (.hostFlashCommand op) s = .next (on s (hostFlash e op)) := by rw [he]; rfl
  have hwr : exec (.hostFlashWrite op addr len) s = .next (on s (hostWriteFlash e op addr len)) := by rw [he]; rfl
  obtain ⟨w, n, l, p, o, hfall⟩ := csFall_parts s.toDev
  have hbwt : e.bwt = s.bwt := by rw [he, hfall]
  have hevr : e.evr = s.evr := by rw [he, hfall]
  have hlive : bwhLive e = bwhLive s.toDev := by rw [he, hfall]; rfl
  have hregions : manRegions e = manRegions s.toDev := by simp only [manRegions, hbwt]
  have haddr : flashAddr e op addr = flashAddr s.toDev op addr := by simp only [flashAddr, hbwt]
  have hsfdp : sfdpAnswer e = sfdpAnswer s.toDev := by simp only [sfdpAnswer, advertised, holdCyc, hbwt]
  refine ⟨fun h => ?live, fun h => ⟨?_, fun hop => ?_, fun hop hp => ?_, fun hop hp => ?_⟩, fun a b => rfl⟩
  case live =>
    rw [← hlive] at h
    refine ⟨fun hop => ?_, ?_, ?_, ?_, ?_, fun hop => ?mode, fun o ⟨ho, hop, hop'⟩ => ?refused, fun i hi => ?blocked, fun i hit hi => ?passed, fun x hx => ?offers⟩
    · rw [hcmd, hostFlash_passes h hop]
    · rw [hcmd]; simp [hostFlash, h, readOps, writeOps]
    · rw [hcmd]; simp [hostFlash, h, readOps, writeOps, hbwt]
    · rw [hcmd]; simp [hostFlash, h, readOps, writeOps, hbwt]
    · rw [hcmd]; simp [hostFlash, h, readOps, writeOps, hsfdp]
    case mode => rw [hcmd, hostFlash_mode h hop, hbwt]
    case refused =>
      subst ho
      obtain ⟨v, href, -, -, hknown, hnew⟩ := refuseFlash_counts (d := e) (op := o)
      rw [hcmd, hostFlash_unlisted h hop (by simpa using hop')]
      rw [hbwt] at href hknown hnew
      refine ⟨_, rfl, ?_, ?_, fun hm => ?_, fun hm => hnew hm⟩
      · exact congrArg Dev.bwt href
      · exact congrArg Dev.out href
      · obtain ⟨hj, hv⟩ := hknown hm
        exact ⟨hj, (congrArg Dev.evr href).trans (hv.trans hevr)⟩
    case blocked =>
      have hrow : exec i s = .next (on s (blockWrite e op)) := by
        rcases hi with ⟨hop, rfl, hany⟩ | ⟨hop, rfl, hany⟩
        · rw [hwr]; simp [hostWriteFlash, h, hop, hregions, haddr, hany]
        · rw [hcmd, hostFlash_whole h hop, hregions, hany]; rfl
      let d := setJournal { e with bwt := { e.bwt with wblkBlocked := satInc e.bwt.wblkBlocked } } { e.bwt.journal with writesBlocked := e.bwt.journal.writesBlocked + 1 }
      have hblock : blockWrite e op = refuseFlash d op := rfl
      obtain ⟨v, href, hblocked, hpassed, -, -⟩ := refuseFlash_counts (d := d) (op := op)
      rw [hrow, hblock]
      refine ⟨_, rfl, ?_, ?_, ?_, ?_, ?_, ?_⟩
      · exact hblocked.trans (by simp only [d, hbwt]; rfl)
      · exact hpassed.trans (by simp only [d, hbwt]; rfl)
      · exact (congrArg (fun x : Dev => x.bwt.wblkBlocked) href).trans (by simp only [d, hbwt]; rfl)
      · exact (congrArg (fun x : Dev => x.bwt.refused) href).trans (by simp only [d, hbwt]; rfl)
      · exact (congrArg (fun x : Dev => x.bwt.regions) href).trans (by simp only [d, hbwt]; rfl)
      · exact congrArg Dev.out href
    case passed =>
      have hrow : exec i s = .next (on s (passWrite e op hit)) := by
        rcases hi with ⟨hop, rfl, hany, rfl⟩ | ⟨hop, rfl, hany, rfl⟩
        · rw [hwr]; simp [hostWriteFlash, h, hop, hregions, haddr, hany]
        · rw [hcmd, hostFlash_whole h hop, hregions, hany]; rfl
      let d := setJournal e { e.bwt.journal with writesPassed := e.bwt.journal.writesPassed + 1 }
      have hmarked := fun {a} => regionSt_markWritten (d := d) hit (manRegions d) manRegions_nodup (a := a)
      obtain ⟨r, hr⟩ := markWritten_frame (d := d) hit (manRegions d)
      rw [hrow, passWrite_eq]
      have hmanS : manRegions d = manRegions s.toDev := hregions
      have hstS (x : ManRegion × Nat) : regionSt d x.2 x.1.base = regionSt s.toDev x.2 x.1.base := by simp only [d, regionSt, setJournal, hbwt]
      refine ⟨_, rfl, ?_, ?_, ?_, fun x hx => ?_⟩
      · change (markWritten d hit (manRegions d)).bwt.journal = _
        rw [hr]; simp only [d, setJournal, hbwt]
      · change Out.flashPass op :: (markWritten d hit (manRegions d)).out = _
        rw [hr]; rfl
      · change (markWritten d hit (manRegions d)).bwt.man = _
        rw [hr]; simp only [d, setJournal, hbwt]
      · refine (hmarked (hmanS ▸ hx)).trans ?_
        rw [hstS]; rfl
    case offers =>
      simp only [advertised, List.mem_filter, Bool.and_eq_true, List.contains_eq_mem, decide_eq_true_eq] at hx
      exact ⟨hx.1, hx.2.1⟩
  · rw [hwr]; simp [hostWriteFlash, h]
  · simp only [List.mem_cons, List.not_mem_nil, or_false, not_or] at hop
    obtain ⟨h9f, h5a, h05, h35⟩ := hop
    have hlen : answerLen e op = 0 := by
      simp only [answerLen, beq_false_of_ne h9f, beq_false_of_ne h5a, beq_false_of_ne h05, beq_false_of_ne h35, Bool.or_self, Bool.false_eq_true, if_false]
    rw [hcmd, hostFlash_dead h, hlen, if_pos rfl]
  · rw [hcmd, hostFlash_dead h]
    split
    · rfl
    · simp [pulledUp, hp]
  · rw [hcmd, hostFlash_dead h]
    rcases hop with rfl | rfl | rfl <;> simp [answerLen, pulledUp, hp]

end Sys2Proof.Machine
end

section
/-! Mailboxes, the write log and the ring registers (11, 12). -/

namespace Sys2Proof.Machine

open Sys2Proof.Safety

/-! ### What a stall's own reports change -/

/-- `e` is `d` after reports of stalls: their registers and boards, vectors, alerts, records and outputs. -/
def Marks (d e : Dev) : Prop := ∃ t b h m r o, e = { d with stl := { d.stl with stalls := t, boards := b }, hif := h, mgt := m, evr := r, out := o }

theorem Marks.refl (d : Dev) : Marks d d := ⟨_, _, _, _, _, _, rfl⟩
theorem Marks.trans {a b c : Dev} (h : Marks a b) (k : Marks b c) : Marks a c := by
  obtain ⟨_, _, _, _, _, _, rfl⟩ := h
  obtain ⟨_, _, _, _, _, _, rfl⟩ := k
  exact ⟨_, _, _, _, _, _, rfl⟩
theorem Marks.stall (d : Dev) (n : Nat) (x : Stall) : Marks d (setStall d n x) := ⟨_, _, _, _, _, _, rfl⟩
theorem Marks.signal (d : Dev) (f : Func) (v : Nat) : Marks d (Machine.signal d f v) := by
  obtain ⟨h, o, e⟩ := signal_frame d f v; rw [e]; exact ⟨_, _, _, _, _, _, rfl⟩
theorem Marks.alert (d : Dev) (b : Nat) : Marks d (Machine.alert d b) := by
  obtain ⟨m, o, e⟩ := alert_frame d b; rw [e]; exact ⟨_, _, _, _, _, _, rfl⟩
theorem Marks.logRec (d : Dev) (r : Record) : Marks d (Machine.logRec d r) := by
  obtain ⟨x, e⟩ := logRec_frame d r; rw [e]; exact ⟨_, _, _, _, _, _, rfl⟩

theorem toState_marks (d : Dev) (n : Nat) (st : StallSt) : Marks d (toState d n st) := by
  unfold toState; split
  · exact .refl d
  · have h : Marks d (writeHeader (modStall d n fun s => { s with st := st, gen := nextGen s.gen }) n) := ⟨_, _, _, _, _, _, rfl⟩
    exact (h.trans (.signal ..)).trans (.alert ..)

theorem faultStall_marks (d : Dev) (n : Nat) : Marks d (faultStall d n) := by
  unfold faultStall; split
  · exact toState_marks ..
  · exact toState_marks ..
  · exact .refl d

theorem errT_marks (d : Dev) (n : Nat) (c : Half) : Marks d (errT d n c) := by
  unfold errT
  extract_lets s recent due e1 e2 e3
  have h2 : Marks d e2 := ((Marks.stall d n _).trans (.signal ..)).trans (.signal ..)
  have h3 : Marks d e3 := by
    simp only [e3]; split
    · exact h2.trans (.logRec ..)
    · exact h2
  split
  · exact h3.trans (faultStall_marks ..)
  · exact h3

/-! ### Registers that the PF and a VF share (24 R425) -/

section
variable {s : State} {n : Fin 64} {side : Side} {o : Nat}

@[simp] theorem stall_noted (m : Nat) : stall (noted s side n o) m = stall s.toDev m := by cases side <;> rfl
@[simp] theorem depthShare_noted : depthShare (noted s side n o) = depthShare s.toDev := by cases side <;> rfl
@[simp] theorem rng_noted : (noted s side n o).rng = s.rng := by cases side <;> rfl

theorem or_allOnes_word (x : Word) : x ||| 0xFFFFFFFF = 0xFFFFFFFF := BitVec.or_allOnes

theorem notePf_noted (k : Nat) (h : k = 0x2000 + 64 * n.val + o) : notePf s.toDev k 0xFFFFFFFF = noted s .pf n o := by
  simp only [notePf, noted, or_allOnes_word, h]

theorem pfCovers_all : pfCovers s.toDev (0x2000 + 64 * n.val + o) = 0xFFFFFFFF ↔ pfStands s n o := by
  simp only [pfCovers, pfStands]
  split
  · next h => simp [h]
  · next h => simp [h]

/-- A write of the whole register that no write of the PF in this cycle stands over. -/
theorem sharedWrite_noted (g : Dev → Dev) (h : side = .pf ∨ ¬ pfStands s n o) : sharedWrite s.toDev side (sharedKey (.stall n) o) 0xFFFFFFFF (fun d _ => g d) = g (noted s side n o) := by
  cases side with
  | pf => simp only [sharedWrite, sharedKey, notePf_noted _ rfl]
  | vf =>
    have hfree : ¬ (0xFFFFFFFF &&& ~~~pfCovers s.toDev (0x2000 + 64 * n.val + o) = 0) := by
      intro h0
      refine h.resolve_left (by simp) (pfCovers_all.1 ?_)
      rw [show (0xFFFFFFFF : Word) = BitVec.allOnes 32 from rfl, BitVec.allOnes_and] at h0
      rw [← BitVec.not_not (b := pfCovers s.toDev _), h0]; rfl
    simp only [sharedWrite, sharedKey, hfree, if_false, noted]

theorem sharedWrite_stands (g : Dev → Dev) (h : pfStands s n o) : sharedWrite s.toDev .vf (sharedKey (.stall n) o) 0xFFFFFFFF (fun d _ => g d) = s.toDev := by
  simp [sharedWrite, sharedKey, pfCovers_all.2 h]

end

/-! ### The ring registers -/

section
variable {d : Dev} {n : Fin 64} {x : Stall} {r : Ring} {side : Side} {t : Nat}

theorem enableChecks_stall (hx : stall d n.val = x) (hr : x.ring = r) (k : Nat) :
    enableChecks d (.stall n) k = [(x.st != .ready, ST.stallState), (decide (k < 4) || decide (12 < k) || r.sqBase == 0 || r.cqBase == 0, ST.format), (decide (depthShare d < 2 ^ k), ST.slotQuota)] := by
  simp only [enableChecks, ringOf, hx, hr]

theorem ringEnable_stall_ok (hx : stall d n.val = x) (hr : x.ring = r) {k : Nat} (hlo : 4 ≤ k) (hhi : k ≤ 12) (hshare : 2 ^ k ≤ depthShare d) (hsq : r.sqBase ≠ 0) (hcq : r.cqBase ≠ 0)
    (hst : x.st = .ready) :
    ringEnable d (.stall n) k = toState (ldgIssue (setRing d (.stall n) { r with en := true, depthLog2 := k, status := ST.ok, fetch := r.sqHead }) 0 n.val
      (ringDist { r with depthLog2 := k } r.sqHead r.sqTail)) n.val .active := by
  have hchecks : firstFail (enableChecks d (.stall n) k) = none := by
    rw [enableChecks_stall hx hr]
    simp [hst, firstFail, Nat.not_lt.2 hlo, Nat.not_lt.2 hhi, Nat.not_lt.2 hshare]
    exact ⟨hsq, hcq⟩
  have hring : ringOf d (.stall n) = r := by simp only [ringOf, hx, hr]
  simp only [ringEnable, hchecks, hring, ringHolder, beq_eq_false_iff_ne.2 (show RingId.stall n ≠ .pf by simp), Bool.false_and, Bool.false_eq_true, if_false] <;> rfl

theorem ringEnable_stall_fails (hx : stall d n.val = x) (hr : x.ring = r) {k : Nat} {st : Half}
    (hst : st = (if x.st ≠ .ready then ST.stallState else if k < 4 ∨ 12 < k ∨ r.sqBase = 0 ∨ r.cqBase = 0 then ST.format else if depthShare d < 2 ^ k then ST.slotQuota else ST.ok)) (hne : st ≠ ST.ok) :
    ringEnable d (.stall n) k = setRing d (.stall n) { r with status := st } := by
  have hchecks : firstFail (enableChecks d (.stall n) k) = some st := by
    rw [enableChecks_stall hx hr]
    simp only [firstFail, bne_iff_ne, Bool.or_eq_true, decide_eq_true_eq, beq_iff_eq, or_assoc]
    by_cases h1 : x.st ≠ .ready
    · rw [if_pos h1] at hst ⊢
      rw [hst]
    rw [if_neg h1] at hst ⊢
    by_cases h2 : k < 4 ∨ 12 < k ∨ r.sqBase = 0 ∨ r.cqBase = 0
    · rw [if_pos h2] at hst ⊢
      rw [hst]
    rw [if_neg h2] at hst ⊢
    by_cases h3 : depthShare d < 2 ^ k
    · rw [if_pos h3] at hst ⊢
      rw [hst]
    rw [if_neg h3] at hst
    exact absurd hst hne
  have hring : ringOf d (.stall n) = r := by simp only [ringOf, hx, hr]
  simp only [ringEnable, hchecks, hring, beq_eq_false_iff_ne.2 (show RingId.stall n ≠ .pf by simp), Bool.false_and, Bool.false_eq_true, if_false]

theorem ringEnable_pf_ok (hen : d.stl.pfRing.en = false) {k : Nat} (hlo : 4 ≤ k) (hhi : k ≤ 12) (hsq : d.stl.pfRing.sqBase ≠ 0) (hcq : d.stl.pfRing.cqBase ≠ 0) :
    ringEnable d .pf k = ldgIssue (setRing d .pf { d.stl.pfRing with en := true, depthLog2 := k, status := ST.ok, fetch := d.stl.pfRing.sqHead }) 0 H.pf
      (ringDist { d.stl.pfRing with depthLog2 := k } d.stl.pfRing.sqHead d.stl.pfRing.sqTail) := by
  have hchecks : firstFail (enableChecks d .pf k) = none := by
    simp [enableChecks, ringOf, firstFail, Nat.not_lt.2 hlo, Nat.not_lt.2 hhi]
    exact ⟨hsq, hcq⟩
  simp only [ringEnable, hchecks, ringOf, hen, ringHolder, Bool.and_false, Bool.false_eq_true, if_false] <;> rfl

/-- A tail doorbell on an enabled ring, by its stall's state. -/
theorem sqTailWrite_enabled (hx : stall d n.val = x) (hr : x.ring = r) (hen : r.en = true) :
    sqTailWrite d (.stall n) side t = (match x.st with
      | .active | .paused =>
        if 2 ^ r.depthLog2 ≤ t ∨ ringDist r r.sqHead t < ringDist r r.sqHead r.sqTail then badDoorbell d (.stall n)
        else if t = r.sqTail then d
        else ldgIssue (setRing d (.stall n) { r with sqTail := t }) 0 n.val (ringDist r r.sqTail t)
      | .disabled => d
      | _ => dropDoorbell d (.stall n)) := by
  have hring : ringOf d (.stall n) = r := by simp only [ringOf, hx, hr]
  simp only [sqTailWrite, hring, hen, ringState, hx, ringHolder, ringDepth, Bool.or_eq_true, decide_eq_true_eq, Bool.not_true, Bool.false_eq_true, if_false] <;> rfl

theorem cqHeadWrite_enabled (hx : stall d n.val = x) (hr : x.ring = r) (hen : r.en = true) :
    cqHeadWrite d (.stall n) side t = if 2 ^ r.depthLog2 ≤ t ∨ ringDist r r.cqHead r.cqTail < ringDist r r.cqHead t then setRing d (.stall n) { r with cqDbBad := satInc r.cqDbBad }
      else setRing d (.stall n) { r with cqHead := t } := by
  have hring : ringOf d (.stall n) = r := by simp only [ringOf, hx, hr]
  simp only [cqHeadWrite, hring, hen, ringDepth, Bool.not_true, Bool.and_false, Bool.not_false, Bool.true_and, Bool.or_eq_true, decide_eq_true_eq]

/-- The log of the PF's writes in this cycle stands as it was. -/
def SameLog (d e : Dev) : Prop := e.now = d.now ∧ e.stl.pfAt = d.stl.pfAt ∧ e.stl.pfWrote = d.stl.pfWrote

theorem Marks.log {d e : Dev} (h : Marks d e) : SameLog d e := by
  obtain ⟨_, _, _, _, _, _, rfl⟩ := h
  exact ⟨rfl, rfl, rfl⟩

theorem setRing_log (d : Dev) (r : RingId) (x : Ring) : SameLog d (setRing d r x) := by cases r <;> exact ⟨rfl, rfl, rfl⟩

theorem dropDoorbell_log (d : Dev) (r : RingId) : SameLog d (dropDoorbell d r) := by cases r <;> exact ⟨rfl, rfl, rfl⟩

theorem badDoorbell_log (d : Dev) (r : RingId) : SameLog d (badDoorbell d r) := by
  cases r with
  | stall n =>
    have h : Marks { d with rng := d.rng + 1 } (badDoorbell d (.stall n)) := (errT_marks ..).trans (faultStall_marks ..)
    exact h.log
  | pf =>
    obtain ⟨h, o, e⟩ := signal_frame { d with glb := { d.glb with errC := satInc d.glb.errC } } .pf 3
    simp only [badDoorbell, errC, e]
    exact ⟨rfl, rfl, rfl⟩

theorem sqTailWrite_log (d : Dev) (r : RingId) : SameLog d (sqTailWrite d r side t) := by
  have hsame : SameLog d d := ⟨rfl, rfl, rfl⟩
  have hset : SameLog d (if t < ringDepth (ringOf d r) then setRing d r { ringOf d r with sqTail := t } else d) := by
    split
    · exact setRing_log ..
    · exact hsame
  simp only [sqTailWrite]
  split
  · split
    · exact hsame
    · exact hsame
    · exact hset
    · split
      · exact setRing_log ..
      · exact dropDoorbell_log ..
    · exact dropDoorbell_log ..
  · have hlive : SameLog d (if (decide (ringDepth (ringOf d r) ≤ t) || decide (ringDist (ringOf d r) (ringOf d r).sqHead t < ringDist (ringOf d r) (ringOf d r).sqHead (ringOf d r).sqTail)) = true
        then badDoorbell d r else if t = (ringOf d r).sqTail then d
        else ldgIssue (setRing d r { ringOf d r with sqTail := t }) 0 (ringHolder r) (ringDist (ringOf d r) (ringOf d r).sqTail t)) := by
      split
      · exact badDoorbell_log ..
      · split
        · exact hsame
        · exact setRing_log d r _
    split
    · exact hlive
    · exact hlive
    · exact hsame
    · exact dropDoorbell_log ..

theorem cqHeadWrite_log (d : Dev) (r : RingId) : SameLog d (cqHeadWrite d r side t) := by
  simp only [cqHeadWrite]; split <;> exact setRing_log ..

end

theorem pfStands_noted {s : State} {n : Fin 64} {o : Nat} {d : Dev} (h : SameLog (noted s .pf n o) d) : pfStands (on s d) n o := by
  obtain ⟨hnow, hat, hwrote⟩ := h
  refine ⟨hat.trans hnow.symm, ?_⟩
  change tgetD d.stl.pfWrote _ 0 = _
  rw [hwrote]
  exact tgetD_tset_self ..

/-- Settles O36: mailboxes and the write log; then each register of a ring, where no write of the PF stands over it; then where one does. -/
theorem ringsAndDoorbells : Obligations.RingsAndDoorbells := by
  refine ⟨fun s n x hx => ⟨by subst hx; rfl, by subst hx; rfl, by subst hx; rfl⟩, fun s n side x r hx hr hside => ?_, fun s n v k => ?_⟩
  · have hen (side : Side) (ring : RingId) (k : Fin 16) : exec (.ringEnable ring side k) s = .next (on s (sharedWrite s.toDev side (sharedKey ring 0x10) 0xFFFFFFFF fun d _ => ringEnable d ring k.val)) := rfl
    have htail (v : Word) : exec (.sqTail (.stall n) side v) s = .next (on s (sqTailWrite (noted s side n 0x14) (.stall n) side (fld v 0 12))) := by
      rw [← sharedWrite_noted (fun d => sqTailWrite d (.stall n) side (fld v 0 12)) (hside 0x14)]; rfl
    have hhead (v : Word) : exec (.cqHead (.stall n) side v) s = .next (on s (cqHeadWrite (noted s side n 0x1C) (.stall n) side (fld v 0 12))) := by
      rw [← sharedWrite_noted (fun d => cqHeadWrite d (.stall n) side (fld v 0 12)) (hside 0x1C)]; rfl
    have hrest (reg : Fin 3) (v : Word) : exec (.ringRestoreWrite (.stall n) reg v) s = .next (on s (ringRestore s.toDev (.stall n) reg.val v)) := rfl
    have hx' (o : Nat) : stall (noted s side n o) n.val = x := by rw [stall_noted, ← hx]
    refine ⟨fun k hlo hhi hk hsq hcq hst => ?enable, fun k hlo hhi hpf hsq hcq => ?enablePf, fun k st hst hne => ?refuse, fun v he => ⟨?_, ?_⟩, fun v he => ⟨?_, ?_⟩,
      fun v he hst hlt hord hne => ?tail, fun v he hst hbad => ?badTail, fun v he hst => ?dropped, fun v he hlt hord => ?head, fun v he hbad => ?badHead⟩
    case enable => rw [hen, sharedWrite_noted _ (hside 0x10), ringEnable_stall_ok (hx' _) hr.symm hlo hhi (by simpa using hk) hsq hcq hst]
    case enablePf => rw [hen]; exact congrArg (fun d => Host.Outcome.next (on s d)) (ringEnable_pf_ok hpf hlo hhi hsq hcq)
    case refuse => rw [hen, sharedWrite_noted _ (hside 0x10), ringEnable_stall_fails (hx' _) hr.symm (by simpa using hst) hne]
    case tail =>
      have hlive : ¬ (2 ^ r.depthLog2 ≤ fld v 0 12 ∨ ringDist r r.sqHead (fld v 0 12) < ringDist r r.sqHead r.sqTail) := by omega
      rw [htail, sqTailWrite_enabled (hx' _) hr.symm he]
      rcases hst with h | h <;> simp only [h, hlive, hne, if_false]
    case badTail =>
      rw [htail, sqTailWrite_enabled (hx' _) hr.symm he]
      rcases hst with h | h <;> simp only [h, hbad, if_true, badDoorbell, rng_noted]
    case dropped =>
      have hdrop : dropDoorbell (noted s side n 0x14) (.stall n) = setStall (noted s side n 0x14) n.val { x with dbDropped := satInc x.dbDropped } := by
        simp only [dropDoorbell, modStall, hx']
      rw [htail, sqTailWrite_enabled (hx' _) hr.symm he]
      rcases hst with h | h | h | h <;> simp only [h, hdrop] <;> rfl
    case head =>
      have hok : ¬ (2 ^ r.depthLog2 ≤ fld v 0 12 ∨ ringDist r r.cqHead r.cqTail < ringDist r r.cqHead (fld v 0 12)) := by omega
      rw [hhead, cqHeadWrite_enabled (hx' _) hr.symm he, if_neg hok]
    case badHead => rw [hhead, cqHeadWrite_enabled (hx' _) hr.symm he, if_pos hbad]; rfl
    all_goals
      have hring : ringOf s.toDev (.stall n) = r := by simp only [ringOf, ← hx, ← hr]
      rw [hrest]
      simp only [ringRestore, hring, he] <;> rfl
  · have hrow (k : Fin 16) : exec (.ringEnable (.stall n) .vf k) s = .next (on s (sharedWrite s.toDev .vf (sharedKey (.stall n) 0x10) 0xFFFFFFFF fun d _ => ringEnable d (.stall n) k.val)) := rfl
    have htail side : exec (.sqTail (.stall n) side v) s = .next (on s (sharedWrite s.toDev side (sharedKey (.stall n) 0x14) 0xFFFFFFFF fun d _ => sqTailWrite d (.stall n) side (fld v 0 12))) := rfl
    have hhead side : exec (.cqHead (.stall n) side v) s = .next (on s (sharedWrite s.toDev side (sharedKey (.stall n) 0x1C) 0xFFFFFFFF fun d _ => cqHeadWrite d (.stall n) side (fld v 0 12))) := rfl
    refine ⟨fun h => by rw [hrow, sharedWrite_stands _ h]; rfl, fun h => by rw [htail, sharedWrite_stands _ h]; rfl, fun h => by rw [hhead, sharedWrite_stands _ h]; rfl, ?_, ?_⟩
    · rw [htail, sharedWrite_noted _ (.inl rfl)]
      exact ⟨_, rfl, pfStands_noted (sqTailWrite_log ..)⟩
    · rw [hhead, sharedWrite_noted _ (.inl rfl)]
      exact ⟨_, rfl, pfStands_noted (cqHeadWrite_log ..)⟩

end Sys2Proof.Machine
end

section
/-! The classifier's terms, the Eddy and runs of fragments (12, 14). -/

namespace Sys2Proof.Machine

open Sys2Proof.Safety

/-! ### O40 -/

section
variable {d : Dev} {rid : Nat} {q : Req}

/-- What the classifier does with a held packet of a ring, once it has its entry. -/
theorem classifyReq_ring (hq : tget d.reqs rid = some q) (hs : q.stage = .held) (hp : paused d = false) (hf : fabricOn d = true) (hh : d.cls.halted = false)
    (hi : q.issuer = .pf ∨ ∃ n, q.issuer = .stall n) (hfrag : q.fromFragment = false) :
    classifyReq d rid .clean = (let r := classPass d { q with epoch := d.cls.epoch } false false
      act r.1 rid r.2.1 r.2.2.1 r.2.2.2 false) := by
  rcases hi with hi | ⟨n, hi⟩ <;>
    simp only [classifyReq, hq, hs, hp, hf, hh, hi, hfrag, bne_self_eq_false, Bool.not_true, Bool.or_false, Bool.true_or, Bool.false_eq_true, if_false, if_true,
      show (ClsEcc.clean == ClsEcc.corrected) = false from rfl]

theorem classifyReq_uncorrectable (hq : tget d.reqs rid = some q) (hs : q.stage = .held) (hp : paused d = false) (hf : fabricOn d = true) (hh : d.cls.halted = false) :
    classifyReq d rid .uncorrectable = clsHalt (finish (dropRunOf d rid) rid ST.aborted) := by
  simp only [classifyReq, hq, hs, hp, hf, hh, bne_self_eq_false, Bool.not_true, Bool.or_false, Bool.false_eq_true, if_false]

theorem classifyReq_elsewhere {m : ClsEcc} (hq : tget d.reqs rid = some q) (hs : q.stage ≠ .held) : classifyReq d rid m = d := by
  simp [classifyReq, hq, hs]

/-- A pass of the classifier without a meter: the entry is counted and its policy taken. -/
theorem classPass_unmetered {e : Nat} {a : Word} (hb : q.epoch = d.cls.epoch) (hm : clsMatch d.cls.active (clsKey d.cls.active.extA q.bytes q.issuer false false) = (e, a)) (ha : aMeter a = false) :
    classPass d q false false = (setCls d (if e = 0x800 then { d.cls with cntDefault := satInc d.cls.cntDefault }
        else if aCount a then { d.cls with hits := tset d.cls.hits e (satInc (tgetD d.cls.hits e 0)) } else d.cls),
      if aPolicy a = 0 then q else { q with pols := q.pols ++ [tgetD d.cls.active.pol (aPolicy a) 0xFFFF] }, e, a) := by
  simp only [classPass, bankFor, hb, if_true, Bool.false_eq_true, if_false, hm, ha, dfltEntry]

theorem goOn_whole {v : FragVerdict} (h : q.fromFragment = false) : goOn d rid q v = (match v with
    | .deliver n => deliver d rid q n
    | .eddy => setReq d rid { q with stage := .eddy }
    | .drop st x => finish (setReq d rid q) rid st [] x
    | .trap => setReq d rid { q with stage := .trapped }) := by
  cases v <;> simp only [goOn, h, Bool.false_eq_true, if_false, ne_eq, not_true_eq_false]

end

/-- Settles O40: the four terms of a matching entry (14 R261), an uncorrectable table, a packet that is not held. -/
theorem requestsAreClassified : Obligations.RequestsAreClassified := by
  intro s rid q e a hq hp hf hh
  have hrow m : exec (.requestClassify rid m) s = .next (on s (classifyReq s.toDev rid m)) := rfl
  refine ⟨fun c q' hs hi hfrag hopen hm ha hq' hc => ?terms, fun hs => ?uncorrectable, fun m hs => ?elsewhere⟩
  case terms =>
    have hpass : classPass s.toDev { q with epoch := s.cls.epoch } false false = ({ s.toDev with cls := c }, q', e, a) := by
      rw [classPass_unmetered (q := { q with epoch := s.cls.epoch }) rfl hm ha, hc, hq']
      congr 2
      split <;> rfl
    have hfields : q'.issuer = q.issuer ∧ q'.fromFragment = false ∧ q'.fragOpen = false ∧ q'.bytes = q.bytes ∧ q'.epoch = s.cls.epoch ∧ q'.cells = q.cells := by
      rw [hq']; exact ⟨rfl, hfrag, hopen, rfl, rfl, rfl⟩
    have htraps : c.traps = s.cls.traps ∧ c.runs = s.cls.runs := by
      rw [hc]; split
      · exact ⟨rfl, rfl⟩
      · split <;> exact ⟨rfl, rfl⟩
    obtain ⟨hissuer, hfrag', hopen', hbytes, hepoch, hcells⟩ := hfields
    obtain ⟨htraps, hruns⟩ := htraps
    rw [hrow, classifyReq_ring hq hs hp hf hh hi hfrag, hpass]
    refine ⟨fun ht => ?_, fun ht => ?_, fun ht hlen => ?_, fun ht henv => ?_, fun ht henv => ?_⟩
    · simp only [act, ht, hopen', goOn_whole hfrag', hissuer, Bool.false_eq_true, if_false]
    · simp only [act, ht, hopen', Bool.false_eq_true, if_false]
    · have hroom : ¬ 16 ≤ s.cls.traps.length := by omega
      simp only [act, ht, trapReq, hroom, hopen', Bool.false_eq_true, if_false, hissuer, hepoch, hcells, setCls, htraps]
    · simp only [act, ht, hbytes, henv, hopen', goOn_whole hfrag', Bool.not_true, Bool.false_eq_true, if_false]
    · simp only [act, ht, hbytes, henv, Bool.not_false, Bool.false_eq_true, if_false, if_true, dropRunOf, setCls, hruns]
  case uncorrectable => rw [hrow, classifyReq_uncorrectable hq hs hp hf hh]; rfl
  case elsewhere => rw [hrow, classifyReq_elsewhere hq hs]; rfl

/-! ### O41 -/

/-- An envelope whose key may open it, with cells for its plaintext. -/
theorem runEddy_opens {d d' : Dev} {rid : Nat} {q : Req} {k : LiveKey} {l : List Nat} {c : Cmd} {mask : Bool} {x : ClsEcc} (hq : tget d.reqs rid = some q) (hstage : q.stage = .eddy)
    (hrun : d.glb.power = .run) (hlane : pickLane d false ≠ none) (hheld : eddyHeld d q = false)
    (hc : c = { rid, issuer := q.issuer, opcode := 0, key := ehKey q.bytes, owner := (ohOwner q.bytes).setWidth 32 })
    (hchecks : firstFail (keyChecks d c c.key (fun t => t == 3) (some uDecrypt)) = none) (hfor : keyFor d c c.key = some k) (hfree : useQuorum d c c.key = none)
    (hcells : claimCells d q.issuer (cellsFor (ehInnerLen q.bytes)) = some (d', l)) :
    runEddy d rid mask x = if mask then maskFault d' else
      let b := q.bytes
      let d := chargeLane d' ((laneFor d' false (issuerIdx q.issuer)).getD 0) (issuerIdx q.issuer) (eddyCycles (ehInnerLen b))
      let d := touchKey { d with rng := d.rng + 1 } k.ref
      match Config.gcmOpen k.bytes (ehIv b) (envAad b) (slice b 48 (ehInnerLen b)) (slice b (48 + ehInnerLen b) 16) with
      | none => finish (authFailed (freeCells d (holderOf q.issuer) l)) rid ST.authFail
      | some p => secondPass (freeCells d (holderOf q.issuer) (cellIdx q.cells)) rid { q with bytes := p, cells := chain l p, env := some { key := k.bytes, hdr := slice b 16 32 } } b x := by
  subst hc
  have hpick : (pickLane d false).isNone = false := by rw [Option.isNone_eq_false_iff]; exact Option.isSome_iff_ne_none.2 hlane
  simp only [runEddy, hq, hstage, hrun, hpick, hheld, bne_self_eq_false, Bool.or_self, Bool.false_eq_true, if_false, hchecks, hfor, hfree, hcells] <;>
  · split
    · rfl
    · cases Config.gcmOpen k.bytes (ehIv q.bytes) (envAad q.bytes) (slice q.bytes 48 (ehInnerLen q.bytes)) (slice q.bytes (48 + ehInnerLen q.bytes) 16) <;> rfl

/-- Settles O41: the checks of an envelope hold, so it is opened under its key (14 R263). -/
theorem theEddyOpensEnvelopes : Obligations.TheEddyOpensEnvelopes := by
  intro s rid q k d l b hq hstage hrun hx hlane hhalt htable hi hb hown hbound hkey hfind hko htype huse hquorum hcells
  have hrow u : exec (.eddy u) s = .next (on s (across s.toDev .sym fun d => runEddy d u.rid u.keyMask u.ecc)) := rfl
  obtain ⟨c, hc⟩ : ∃ c : Cmd, c = { rid, issuer := q.issuer, opcode := 0, key := ehKey q.bytes, owner := (ohOwner q.bytes).setWidth 32 } := ⟨_, rfl⟩
  subst hb
  have howner : c.owner.toNat = (ohOwner q.bytes).toNat := by rw [hc, BitVec.toNat_setWidth]; omega
  have hi' : c.issuer = .pf ∨ ∃ n, c.issuer = .stall n := by rw [hc]; exact hi
  have hfind' : findKey s.toDev c.key = some k := by rw [hc]; exact hfind
  have hfor : keyFor s.toDev c c.key = some k := (keyFor_pv hi').trans hfind'
  have hchecks : firstFail (keyChecks s.toDev c c.key (fun t => t == 3) (some uDecrypt)) = none := by
    refine keyChecks_pass hi' ?_ ?_ ?_ hfind' ?_ ?_ ?_
    · rw [howner]; exact hown
    · rw [howner, hc]; exact hbound
    · rw [howner, hc]; exact hkey
    · rw [howner, hko]
    · simp [htype]
    · simpa using huse
  have hfree : useQuorum s.toDev c c.key = none := by simp [useQuorum, hfor, hquorum]
  have hheld : eddyHeld s.toDev q = false := by rcases hhalt with h | h <;> simp [eddyHeld, h]
  refine ⟨?_, fun x => ?_⟩
  · rw [hrow, across_free hx, runEddy_opens hq hstage hrun hlane hheld hc hchecks hfor hfree hcells]; rfl
  · rw [hrow, across_free hx, runEddy_opens hq hstage hrun hlane hheld hc hchecks hfor hfree hcells]; rfl

/-! ### O42 -/

section
variable {d : Dev} {src : FragSrc} {b : Bytes} {q : Req}

theorem intake_fresh (h : tget d.cls.runs (runIdx src) = none) : intake d src b = intakeFresh d src b 0 := by simp only [intake, h]

theorem breakRun_none (h : tget d.cls.runs (runIdx src) = none) : breakRun d src = d := by simp only [breakRun, h]

/-- The request a packet of this source makes. -/
def packetReq (d : Dev) (src : FragSrc) (b : Bytes) : Req :=
  let b' := match src with | .mgt => b.set 6 (ownAddr d) | .krovlo _ => b
  { issuer := srcIssuer src, stage := .held, bytes := b', rawTag := quad b' 24, dataCap := srcCap src, seq := ohSeq b' }

theorem newReq_eq : newReq d src b 0 = (d.nextRid, packetReq d src b, { d with nextRid := d.nextRid + 1 }) := rfl

theorem endNew_eq (st : Half) (x : Word) : endNew d src b 0 st x = finish (setReq { d with nextRid := d.nextRid + 1 } d.nextRid (packetReq d src b)) d.nextRid st [] x := rfl

theorem growCells_first {n : Bytes} (h : q.cells = []) : growCells d q n = (claimCells d q.issuer (cellsFor n.length)).map fun r => (r.1, { q with bytes := n, cells := chain r.2 n }) := by
  simp [growCells, h, cellIdx]

theorem holdWhole_eq : holdWhole d src b 0 =
    (claimCells { d with nextRid := d.nextRid + 1 } (srcIssuer src) (cellsFor ((packetReq d src b).bytes.take (16 + ohLen b)).length)).map fun r =>
      setReq r.1 d.nextRid { packetReq d src b with bytes := (packetReq d src b).bytes.take (16 + ohLen b), cells := chain r.2 ((packetReq d src b).bytes.take (16 + ohLen b)) } := by
  simp only [holdWhole, newReq_eq, growCells_first (q := packetReq d src b) rfl, Option.map_map] <;> rfl

theorem openRun_eq : openRun d src b 0 =
    (claimCells { d with nextRid := d.nextRid + 1 } (srcIssuer src) (cellsFor ((packetReq d src b).bytes.take (16 + ohLen b)).length)).map fun r =>
      let d' := setReq r.1 d.nextRid { packetReq d src b with
        bytes := (packetReq d src b).bytes.take (16 + ohLen b), cells := chain r.2 ((packetReq d src b).bytes.take (16 + ohLen b)), fromFragment := true, fragOpen := true }
      setCls d' { d'.cls with runs := tset r.1.cls.runs (runIdx src) { seq := ohSeq b, since := d.now, rid := d.nextRid } } := by
  simp only [openRun, newReq_eq, growCells_first (q := packetReq d src b) rfl, Option.map_map] <;> rfl

end

/-- Settles O42: where no run is open, by FIRST and MORE; the end of a run that is. -/
theorem fragmentsMakeARequest : Obligations.FragmentsMakeARequest := by
  intro s src b b1 b2 d l q
  have hrow : exec (.fragmentReceived src b) s = .next (on s (match intake s.toDev src b with
      | some d => d
      | none => match src with | .mgt => mgtBusy s.toDev 0x01 0 | .krovlo _ => s.toDev)) := rfl
  have htime : exec (.fragmentRunTimeout src) s = .next (on s (if runOver s.toDev src then breakRun s.toDev src else s.toDev)) := rfl
  intro hb1 hb2 hq
  have hreq : packetReq s.toDev src b = q := by rw [hq, hb1]; rfl
  have hbytes : q.bytes.take (16 + ohLen b) = b2 := by rw [hb2, hq]
  refine ⟨fun hrun hfirst hmore hcells => ?whole, fun hrun hfirst hmore hcells => ?full, fun hrun hfirst hmore hchecks => ?orphan, fun hrun hfirst hmore hchecks => ?badMarks,
    fun st x c hrun hc h => ?length, fun hrun hfirst hmore hchecks hcells => ?opens, fun r hrun ht => ?timeout, fun r hrun ht => ?early, fun hrun => ?noRun⟩
  case whole =>
    have h : intake s.toDev src b = some (setReq d s.nextRid { q with bytes := b2, cells := chain l b2 }) := by
      rw [intake_fresh hrun]
      simp only [intakeFresh, hfirst, hmore, hrun, Option.isSome_none, Bool.or_self, Bool.false_eq_true, if_false, holdWhole_eq, hreq, hbytes, hcells, Option.map_some]
    rw [hrow, h]
  case full =>
    have h : intake s.toDev src b = none := by
      rw [intake_fresh hrun]
      simp only [intakeFresh, hfirst, hmore, hrun, Option.isSome_none, Bool.or_self, Bool.false_eq_true, if_false, holdWhole_eq, hreq, hbytes, hcells, Option.map_none]
    rw [hrow, h] <;> cases src <;> rfl
  case orphan =>
    have h : intake s.toDev src b = some (endNew s.toDev src b 0 ST.fragOrphan) := by
      rw [intake_fresh hrun]
      simp only [intakeFresh, hfirst, hmore, hchecks, breakRun_none hrun, Bool.true_or, Bool.false_eq_true, if_false, if_true]
    rw [hrow, h, endNew_eq, hreq]
  case badMarks =>
    have h : intake s.toDev src b = some (endNew s.toDev src b 0 ST.format) := by
      rw [intake_fresh hrun]
      simp only [intakeFresh, hfirst, hmore, hchecks, breakRun_none hrun, Bool.false_eq_true, if_false, if_true]
    rw [hrow, h, endNew_eq, hreq]
  case length =>
    have h : intake s.toDev src b = some (endNew (lenFail s.toDev) src b 0 st x) := by
      rw [intake_fresh hrun]
      rcases h with ⟨hfirst, hchecks⟩ | ⟨hfirst, hmore, hchecks⟩
      · simp only [intakeFresh, hfirst, hchecks, if_true]
      · simp only [intakeFresh, hfirst, hmore, hchecks, Bool.true_or, Bool.false_eq_true, if_false, if_true]
    rw [hrow, h, endNew_eq, hc, ← hreq]
    rfl
  case opens =>
    have h : intake s.toDev src b = openRun s.toDev src b 0 := by
      rw [intake_fresh hrun]
      simp only [intakeFresh, hfirst, hmore, hchecks, breakRun_none hrun, if_true]
    obtain ⟨y, g, k, rfl⟩ := claimCells_frame hcells
    rw [hrow, h, openRun_eq, hreq, hbytes, hcells]
    rfl
  case timeout =>
    have hover : runOver s.toDev src = true := by simp [runOver, hrun, ht]
    rw [htime, hover, if_pos rfl]
    simp only [breakRun, hrun] <;> rfl
  case early =>
    have hover : runOver s.toDev src = false := by simp [runOver, hrun]; omega
    rw [htime, hover]; rfl
  case noRun =>
    have hover : runOver s.toDev src = false := by simp [runOver, hrun]
    rw [htime, hover]; rfl

end Sys2Proof.Machine
end

section
/-! Entries fetched and checked (11, 12); commands dispatched and completed (13). -/

namespace Sys2Proof.Machine

open Sys2Proof.Safety

/-! ### O38 -/

/-- Of a rising table only the entry set changes. -/
theorem filter_tset {α : Type} (p : Nat × α → Bool) (t : Tab α) (lo k : Nat) {v w : α} (ht : risingFrom lo t = true) (hk : tget t k = some w) (hp : t.filter p = [(k, w)]) :
    (tset t k v).filter p = if p (k, v) then [(k, v)] else [] := by
  induction t generalizing lo with
  | nil => simp [tget] at hk
  | cons e t ih =>
    obtain ⟨j, x⟩ := e
    simp only [risingFrom, Bool.and_eq_true, decide_eq_true_eq] at ht
    by_cases hj : j = k
    · subst hj
      simp only [tget, if_true, Option.some.injEq] at hk
      subst hk
      have hrest : t.filter p = [] := by
        by_cases hx : p (j, x) = true
        · simpa [hx] using hp
        · have hm : (j, x) ∈ (((j, x) :: t).filter p) := by rw [hp]; exact List.mem_cons_self
          exact absurd (List.mem_filter.1 hm).2 hx
      simp only [tset, Nat.lt_irrefl, if_false, if_true, List.filter_cons, hrest]
    · simp only [tget, hj, if_false] at hk
      have hlt : ¬ k < j := fun h => by simp [tget_below t _ k ht.2 (by omega)] at hk
      have hx : p (j, x) = false := Bool.eq_false_iff.2 fun hx => by
        have hm : (j, x) ∈ (((j, x) :: t).filter p) := List.mem_filter.2 ⟨List.mem_cons_self, hx⟩
        rw [hp, List.mem_singleton] at hm
        exact hj (congrArg Prod.fst hm)
      simp only [List.filter_cons, hx, Bool.false_eq_true, if_false] at hp
      simp only [tset, hlt, Ne.symm hj, if_false, List.filter_cons, hx, Bool.false_eq_true]
      exact ih _ ht.2 hk hp

section
variable {d : Dev} {r : RingId} {x : Ring} {rid : Nat} {q : Req} {b : Bytes}

theorem entryFetch_idle (len : Nat) (h : mayFetch d r = false) : entryFetch d r len = d := by simp [entryFetch, h]

theorem entryFetch_takes {e f : Dev} {len : Nat} {l : List Nat} (h : mayFetch d r = true) (hlen : 16 + len ≤ 64 * cellLimit d (ringIssuer r)) (hc : claimCells d (ringIssuer r) (cellsFor (16 + len)) = some (e, l))
    (ht : dmaIssue { e with nextRid := e.nextRid + 1 } (ringFunc r) (.entry e.nextRid) ((ringOf d r).sqBase.toNat + 64 * (ringOf d r).fetch) 64 = some f) :
    entryFetch d r len = setRing (setReq f e.nextRid { issuer := ringIssuer r, sqIndex := (ringOf d r).fetch, stage := .fetching, cells := chain l [] }) r
      { ringOf d r with fetch := ((ringOf d r).fetch + 1) % ringDepth (ringOf d r) } := by
  simp only [entryFetch, h, Bool.not_true, Bool.false_eq_true, if_false, Nat.not_lt.2 hlen, hc, ht]

/-- The weir charges a stall's tokens alone. -/
theorem weirCharge_parts (d : Dev) (i : Issuer) (n : Nat) : ∃ t, weirCharge d i n = { d with stl := { d.stl with stalls := t } } := by
  unfold weirCharge; split
  · split <;> exact ⟨_, rfl⟩
  · exact ⟨_, rfl⟩

theorem entrySteps5_weirCharge (i j : Issuer) (n : Nat) : entrySteps5 (weirCharge d i n) j b = entrySteps5 d j b := by
  obtain ⟨t, h⟩ := weirCharge_parts d i n
  rw [h]; rfl

theorem ownAddr_weirCharge (i : Issuer) (n : Nat) : ownAddr (weirCharge d i n) = ownAddr d := by
  obtain ⟨t, h⟩ := weirCharge_parts d i n
  rw [h]; rfl

/-- A received entry before its check: what of it the request takes over. -/
def entryReq (q : Req) (b : Bytes) : Req :=
  { q with bytes := b, rawTag := quad b 24, fence := false, dataAddr := seAddr b, dataCap := seCap b, seq := ohSeq b, stage := .awaitData }

/-- The check of an entry just received, which is no FENCE. -/
theorem checkEntry_received (hf : ohFence b = false) : checkEntry (setReq d rid { q with bytes := b }) rid { q with bytes := b } = (let e := setReq d rid (entryReq q b)
    match firstDetail (entrySteps14 b) with
    | some (st, x) => finish (weirCharge e q.issuer 0) rid st [] x
    | none =>
      let e := weirCharge e q.issuer (chargedLen b)
      match firstDetail (entrySteps5 e q.issuer b) with
      | some (st, x) => finish e rid st [] x
      | none =>
        match fitCells e { entryReq q b with stage := q.stage } (cellsFor (16 + ohLen b)) with
        | none => eddyNoCells e rid q.issuer
        | some (e, l) =>
          let c := (b.take 48).set 6 (ownAddr e)
          let q2 := { entryReq q b with bytes := c, cells := chain l c }
          if ohLen b ≤ 32 then setReq e rid { q2 with stage := .held } else issueParams (setReq e rid q2) (rid, q2)) := by
  simp only [checkEntry, hf, Bool.false_eq_true, if_false, setReq, tset_tset, entryReq] <;> rfl

/-! After its check no entry of the issuer is being fetched. -/

theorem fetchingOf_eq_nil {i : Issuer} : fetchingOf d i = [] ↔ ∀ p ∈ d.reqs, p.2.issuer = i → p.2.stage ≠ .fetching := by
  simp [fetchingOf, List.filter_eq_nil_iff]

theorem fetchingOf_ends {e : Dev} {i : Issuer} (h : Ends d e) (hd : fetchingOf d i = []) : fetchingOf e i = [] := by
  rw [fetchingOf_eq_nil] at hd ⊢
  intro p hp hi
  rcases h.reqs p hp with hp | hp
  · exact hd p hp hi
  · simp [hp]

theorem fetchingOf_setReq {i : Issuer} (hq : q.stage ≠ .fetching) (hd : fetchingOf d i = []) : fetchingOf (setReq d rid q) i = [] := by
  rw [fetchingOf_eq_nil] at hd ⊢
  intro p hp hi
  rcases mem_tset hp with rfl | hp
  · exact hq
  · exact hd p hp hi

theorem fetchingOf_weirCharge (i j : Issuer) (n : Nat) : fetchingOf (weirCharge d i n) j = fetchingOf d j := by
  obtain ⟨t, h⟩ := weirCharge_parts d i n
  rw [h]; rfl

theorem fetchingOf_issueParams (i : Issuer) (p : Nat × Req) : fetchingOf (issueParams d p) i = fetchingOf d i := by
  unfold issueParams; split
  · cases h : dmaIssue d (issuerFunc p.2.issuer) (.params p.1) p.2.dataAddr.toNat (ohLen p.2.bytes - 32) with
    | none => rfl
    | some e => obtain ⟨_, _, _, _, rfl⟩ := dmaIssue_frame h; rfl
  · rfl

theorem advanceEntries_done {i : Issuer} (n : Nat) (h : fetchingOf d i = []) : advanceEntries i n d = d := by
  cases n with
  | zero => rfl
  | succ n => simp only [advanceEntries, h]

/-- The one entry being fetched has come: it is checked, and no other follows it. -/
theorem receiveEntry_checks (hw : twf d.reqs = true) (hq : tget d.reqs rid = some q) (hf : fetchingOf d q.issuer = [(rid, q)]) (hs : q.stage = .fetching) (hb : q.bytes = []) (hlen : b.length = 64)
    (hdone : fetchingOf (checkEntry (setReq d rid { q with bytes := b }) rid { q with bytes := b }) q.issuer = []) :
    receiveEntry d rid b = checkEntry (setReq d rid { q with bytes := b }) rid { q with bytes := b } := by
  have hfit : Config.fit 64 b = b := by rw [← hlen]; simp [Config.fit]
  have hmine : fetchingOf (setReq d rid { q with bytes := b }) q.issuer = [(rid, { q with bytes := b })] := by
    have h := filter_tset (v := { q with bytes := b }) _ d.reqs 0 rid hw hq hf
    rw [if_pos (by simp [hs])] at h
    exact h
  have hsome : ({ q with bytes := b } : Req).bytes.isEmpty = false := by
    rw [List.isEmpty_eq_false_iff]
    intro h0
    have h0' : b = [] := h0
    simp [h0'] at hlen
  have hopen : (q.stage != .fetching || !q.bytes.isEmpty) = false := by simp [hs, hb]
  simp only [receiveEntry, hq, hopen, hfit, Bool.false_eq_true, if_false]
  rw [advanceEntries, hmine]
  simp only [hsome, Bool.false_eq_true, if_false]
  exact advanceEntries_done _ hdone

end

/-- Settles O38: an entry is fetched where the ring may; a received one is checked by 12 R218-R220 in their order. -/
theorem entriesAreFetchedAndChecked : Obligations.EntriesAreFetchedAndChecked := by
  intro s r x hx
  subst hx
  have hfetch len : exec (.entryFetch r len) s = .next (on s (entryFetch s.toDev r len)) := rfl
  have hrecv b : exec (.entryReceived r b) s = .next (on s (across s.toDev .pcie fun d => entryReceived d r b)) := rfl
  refine ⟨fun len d e l hm hlen hc ht => ?takes, fun len hm => ?idle, fun rid q t b g q1 e1 hlen hx hf hb hi hs hq hw hg hfind htag hfence hq1 he1 => ?checked⟩
  case takes => rw [hfetch, entryFetch_takes hm hlen hc ht]; rfl
  case idle => rw [hfetch, entryFetch_idle len hm]; rfl
  case checked =>
    have hreqs : (dmaRetire s.toDev t g).reqs = s.reqs := rfl
    have hf' : fetchingOf (dmaRetire s.toDev t g) q.issuer = [(rid, q)] := by rw [hi]; exact hf
    have hq1' : q1 = entryReq q b := hq1
    have hnone : fetchingOf e1 q.issuer = [] := by
      have h := filter_tset (v := q1) _ (dmaRetire s.toDev t g).reqs 0 rid hw hq hf'
      rw [if_neg (by simp [hq1])] at h
      rw [he1]; exact h
    have hrow : fetchingOf (checkEntry (setReq (dmaRetire s.toDev t g) rid { q with bytes := b }) rid { q with bytes := b }) q.issuer = [] →
        exec (.entryReceived r b) s = .next (on s (pumpParams (checkEntry (setReq (dmaRetire s.toDev t g) rid { q with bytes := b }) rid { q with bytes := b }))) := by
      intro hdone
      have hopen : (fetchingOf s.toDev (ringIssuer r)).find? (fun x => x.2.bytes.isEmpty) = some (rid, q) := by rw [hf]; simp [hb]
      have hdma : dmaDone s.toDev t b = pumpParams (receiveEntry (dmaRetire s.toDev t g) rid b) := by
        subst hg
        simp only [dmaDone, htag, Bool.false_eq_true, if_false]
      rw [hrecv, across_free hx, ← receiveEntry_checks (d := dmaRetire s.toDev t g) hw hq hf' hs hb hlen hdone, ← hdma]
      simp only [entryReceived, hopen, hfind]
    have hcheck := checkEntry_received (d := dmaRetire s.toDev t g) (rid := rid) (q := q) hfence
    rw [← hq1', ← he1] at hcheck
    rw [hcheck] at hrow
    have hsteps5 : ∀ n, entrySteps5 (weirCharge e1 q.issuer n) q.issuer b = entrySteps5 s.toDev q.issuer b := fun n => by rw [entrySteps5_weirCharge, he1]; rfl
    have hcharged : ∀ n, fetchingOf (weirCharge e1 q.issuer n) q.issuer = [] := fun n => by rw [fetchingOf_weirCharge, hnone]
    refine ⟨fun st y h => ?_, fun st y h h5 => ?_, fun c q2 h h5 hcells hc hq2 => ?_⟩
    · simp only [h] at hrow
      exact hrow (fetchingOf_ends (finish_ends ..) (hcharged _))
    · simp only [h, hsteps5, h5] at hrow
      exact hrow (fetchingOf_ends (finish_ends ..) (hcharged _))
    · have hfit : fitCells (weirCharge e1 q.issuer (chargedLen b)) { q1 with stage := q.stage } (cellsFor (16 + ohLen b)) =
          some (freeCells (weirCharge e1 q.issuer (chargedLen b)) (holderOf q.issuer) [], cellIdx q.cells) := by
        have hlen' : (cellIdx q.cells).length = cellsFor (16 + ohLen b) := by simp [cellIdx, hcells]
        have hsame : q1.cells = q.cells ∧ q1.issuer = q.issuer := by rw [hq1]; exact ⟨rfl, rfl⟩
        simp only [fitCells, hsame.1, hsame.2, ← hlen', Nat.le_refl, if_true, List.drop_length, List.take_length]
      have hown : ownAddr (freeCells (weirCharge e1 q.issuer (chargedLen b)) (holderOf q.issuer) []) = ownAddr s.toDev := by
        refine (ownAddr_weirCharge (d := e1) q.issuer (chargedLen b)).trans ?_
        rw [he1]; rfl
      have hfree : fetchingOf (freeCells (weirCharge e1 q.issuer (chargedLen b)) (holderOf q.issuer) []) q.issuer = [] := hcharged _
      simp only [h, hsteps5, h5, hfit, hown] at hrow
      rw [← hc, ← hq2] at hrow
      have hstage : q2.stage = .awaitData := by rw [hq2, hq1]
      refine ⟨fun hle => ?_, fun hlt => ?_⟩
      · rw [if_pos hle] at hrow
        rw [hq2]
        exact hrow (fetchingOf_setReq (by simp) hfree)
      · rw [if_neg (Nat.not_le.2 hlt)] at hrow
        exact hrow (by rw [fetchingOf_issueParams]; exact fetchingOf_setReq (by simp [hstage]) hfree)

/-! ### O39 -/

section
variable {d : Dev} {rid : Nat} {q : Req} {c : Comp}

/-- The command at a queue's head may be dispatched: it leaves the queue and is served. -/
theorem dispatch_serves {n : Nat} {l : List Nat} {r : Tab Nat} (m : ReadMet) (hl : (queueOf d n).reqs = rid :: l) (hq : tget d.reqs rid = some q) (hm : mayDispatch d q.issuer = true)
    (hw : mustWait d (cmdOf rid q) = false) (hy : laneYields d (cmdOf rid q) = false) (hr : wrrAllows d (issuerIdx q.issuer) = some r) :
    dispatch d n m = serve (setReq (takePacket { d with stl := { d.stl with round := r } } n rid) rid { q with stage := .dispatched }) q.issuer rid (cmdOf rid q) m := by
  simp only [dispatch, hl, hq, hm, hw, hy, hr, Bool.not_true, Bool.or_self, Bool.false_eq_true, if_false]

theorem dispatch_holds {n : Nat} {l : List Nat} (m : ReadMet) (hl : (queueOf d n).reqs = rid :: l) (hq : tget d.reqs rid = some q)
    (h : (!mayDispatch d q.issuer || mustWait d (cmdOf rid q) || laneYields d (cmdOf rid q)) = true) : dispatch d n m = d := by
  simp only [dispatch, hl, hq, h, if_true]

theorem hostWrite_nil (f : Func) (a : Nat) (b : Bool) : hostWrite d f a [] b = d := rfl

theorem completionWrite_may {r : RingId} (o : WriteOutcome) (hr : r = ringOfIssuer q.issuer) (hq : tget d.reqs rid = some q) (hm : mayComplete d r = false) : completionWrite d rid o = d := by
  subst hr
  cases hc : tget d.comps rid with
  | none => simp only [completionWrite, hq, hc]
  | some c => simp only [completionWrite, hq, hc, hm, Bool.not_false, if_true]

end

/-- Settles O39: dispatch by what its command met (13 R232), and the completion of a stall's request by how its write ends (11 R210). -/
theorem commandsAreDispatchedAndComplete : Obligations.CommandsAreDispatchedAndComplete := by
  intro s rid q
  have hdisp k m : exec (.commandDispatch k m) s = .next (on s (dispatch s.toDev k.val m)) := rfl
  have hcomp o : exec (.completionWrite rid o) s = .next (on s (completionWrite s.toDev rid o)) := rfl
  refine ⟨fun k l r hl hq hm hw hy hr => ?clean, fun k l r c hl hq hm hc hw hy hr => ?met, fun k l m hl hq h => ?waits, fun k l m hl hq hm => ?notMay,
    fun n c x y b hi hq hc hx hm hres hy hb => ?written, fun n c hi hq hc hm hres => ?lost, fun o r hr hq hm => ?noRoom⟩
  case clean => rw [hdisp, dispatch_serves _ hl hq hm hw hy hr]; rfl
  case met =>
    subst hc
    simp only [hdisp, dispatch_serves _ hl hq hm hw hy hr, serve, and_self]
  case waits =>
    have h' : (!mayDispatch s.toDev q.issuer || mustWait s.toDev (cmdOf rid q) || laneYields s.toDev (cmdOf rid q)) = true := by rcases h with h | h <;> simp [h]
    rw [hdisp, dispatch_holds _ hl hq h']; rfl
  case notMay => rw [hdisp, dispatch_holds _ hl hq (by simp [hm])]; rfl
  case written =>
    subst hx hy hb
    simp only [hcomp, completionWrite, hq, hc, hi, ringOfIssuer, hm, hres, hostWrite_nil, Bool.not_true, Bool.false_eq_true, if_false, writeEntry, List.length_nil] <;> rfl
  case lost => simp only [hcomp, completionWrite, hq, hc, hi, ringOfIssuer, hm, hres, hostWrite_nil, Bool.not_true, Bool.false_eq_true, if_false, loseEntry]
  case noRoom => rw [hcomp, completionWrite_may o hr hq hm]; rfl

end Sys2Proof.Machine
end

section
/-! Engines run operations (16). -/

namespace Sys2Proof.Machine

open Sys2Proof.Safety

section
variable {d : Dev} {e : Nat} {o : PkeOp} {rid : Nat} {r : Tab Nat}

theorem setEng_setEng (x y : Pke) : setEng (setEng d e x) e y = setEng d e y := by simp only [setEng, tset_tset]

/-- An engine that has nothing to start. -/
theorem operationStart_none (h : d.glb.power ≠ .run ∨ d.dbg.extest = true ∨ engIdle d e = false ∨ nextOp d e = none) : operationStart d e = d := by
  unfold operationStart
  split
  · rfl
  · next hgo =>
    rcases h with h | h | h | h
    · simp [h] at hgo
    · simp [h] at hgo
    · simp [h] at hgo
    · simp only [h]

/-- The next operation of an idle engine is taken out of the wait. -/
theorem operationStart_takes {w : Waiting} (hi : engIdle d e = true) (hp : d.glb.power = .run) (hx : d.dbg.extest = false) (hn : nextOp d e = some (w, r)) :
    operationStart d e = (let d := setEng { d with pkeWait := d.pkeWait.erase w } e { eng d e with round := r }
      match w with
      | .secure o =>
        (match o.kind with
         | .sealSign => startOp (draw d 64).2 e { o with rnd := (draw d 64).1 }
         | .cosign .. => startOp (draw d 64).2 e { o with rnd := (draw d 64).1 }
         | .cardKey .. => startOp (draw (reseed d) 48).2 e { o with rnd := (draw (reseed d) 48).1 }
         | _ => startOp d e o)
      | .cmd c =>
        match pkTry d c (pkPlan d c) true with
        | (d', .inl st) => endWith d' c st
        | (d', .inr o) => if maskBad c then maskFault d else startOp d' e o) := by
  simp only [operationStart, hi, hp, hx, hn, Bool.not_true, bne_self_eq_false, Bool.or_self, Bool.false_eq_true, if_false] <;>
  · cases w with
    | cmd c => rfl
    | secure o => cases o with | mk _ _ kind => cases kind <;> rfl

/-- The start of an operation on an engine whose registers have just been set. -/
theorem startOp_setEng (x : Pke) : startOp (setEng d e x) e o = ldgIssue (setEng d e { x with op := some o, mem := startMem o.kind, acc := 0 }) 2 (H.engine e) 1 := by
  simp only [startOp, eng_setEng, setEng_setEng]

theorem draw_setEng (x : Pke) (n : Nat) : draw (setEng d e x) n = ((draw d n).1, setEng (draw d n).2 e x) := rfl

theorem reseed_setEng (x : Pke) : reseed (setEng d e x) = setEng (reseed d) e x := by
  have hr : drbgReady (setEng d e x) = drbgReady d := rfl
  unfold reseed; rw [hr]; split <;> rfl

/-- What an engine's end does before its outcome counts. -/
def operationEnded (d : Dev) (e : Nat) (o : PkeOp) (micros : Nat) : Dev :=
  let p := eng d e
  engIrq (chargeRun (ldgDrain (setEng d e { p with op := none, stopped := none, mem := [], acc := 0, irqDone := true, cntOps := satInc p.cntOps }) 2 (H.engine e)) e o.issuer micros) e

theorem operationDone_ends {micros : Nat} (oc : PkeOutcome) (ho : doneOp d (eng d e) = some o) (hu : o.usesSlot = none) :
    operationDone d e oc micros = (let d := operationEnded d e o micros
      match oc with
      | .ok =>
        (match o.kind with
         | .selfTest f => let r := selfTested d e f; endOp r.1 o r.2.1 r.2.2
         | _ => landOp d o)
      | .nonZeroReadback => landOp (readbackFault d e) o
      | .checkFail => failOp (checkFailed d e) o ST.engineFault
      | .checkFailNonZero => failOp (readbackFault (checkFailed d e) e) o ST.engineFault
      | .limit => limitOp d e o
      | .limitNonZero => limitOp (readbackFault d e) e o) := by
  simp only [operationDone, ho, hu] <;> rfl

/-- An operation of the normal world ends its request with what it answers. -/
theorem landOp_normal (hs : isSecureKind o.kind = false) (hr : o.rid = some rid) : landOp d o = finish (opResult d o).1 rid (opResult d o).2.1 (opResult d o).2.2 := by
  simp only [landOp, hs, Bool.false_eq_true, if_false, endOp, hr]

theorem failOp_normal {st : Half} (hres : reservedOf o.kind = none) (hs : isSecureKind o.kind = false) (hr : o.rid = some rid) : failOp d o st = finish d rid st := by
  simp only [failOp, hres, hs, Bool.false_eq_true, if_false, endOp, hr]

end

/-- Settles O45: the start of the next operation, and its end by outcome and kind. -/
theorem enginesRunOperations : Obligations.EnginesRunOperations := by
  intro s e p hp
  have hstart : exec (.pkeOperationStart e) s = .next (on s (across s.toDev (pkeIsland e) fun d => operationStart d e.val)) := rfl
  have hdone oc micros : exec (.pkeDone e oc micros) s = .next (on s (across s.toDev (pkeIsland e) fun d => operationDone d e.val oc micros)) := rfl
  refine ⟨fun o r d hx hi hrun hext hn hd d' o' hdraw => ?secure, fun c r d hx hi hrun hext hn hd => ?command, fun h => ?idle, fun o micros d rid hx ho hr hu hd => ?done, fun oc micros hnone h => ?noOp⟩
  case secure =>
    rw [hstart, across_free hx, operationStart_takes hi hrun hext hn, ← hd, ← hp]
    cases hk : o.kind <;> simp only [hk, Prod.mk.injEq] at hdraw ⊢ <;> obtain ⟨rfl, rfl⟩ := hdraw <;>
      simp only [draw_setEng, reseed_setEng, startOp_setEng, hk]
  case command =>
    rw [hstart, across_free hx, operationStart_takes hi hrun hext hn, ← hp]
    dsimp only
    rw [← hd]
    rfl
  case idle =>
    rw [hstart, across_same]
    · rfl
    · rcases h with h | h | h | h | h
      · exact .inl (operationStart_none (.inl h))
      · exact .inl (operationStart_none (.inr (.inl h)))
      · exact .inl (operationStart_none (.inr (.inr (.inl h))))
      · exact .inl (operationStart_none (.inr (.inr (.inr h))))
      · exact .inr h
  case done =>
    have hop : doneOp s.toDev (eng s.toDev e.val) = some o := by
      rw [← hp]
      rcases ho with h | ⟨h, ha, ht, hst⟩
      · simp [doneOp, h]
      · simp [doneOp, h, ha, ht, hst]
    have hended : operationEnded s.toDev e.val o micros = d := by rw [hd, hp]; rfl
    have hrow oc := (hdone oc micros).trans (by rw [across_free hx, operationDone_ends oc hop hu, hended])
    refine ⟨fun t h q isd m hk => ?_, fun t h q isd m sig pub hk hpub => ?_, fun prog n hk => ?_, fun hres hsec => ⟨fun prog n hk => ?_, ?_, ?_, ?_, fun d' hd' => ?_⟩⟩
    · rw [hrow]
      simp only [hk, landOp_normal (o := o) (by simp [hk, isSecureKind]) hr, opResult]
      split <;> rfl
    · rw [hrow]
      have hpub' : pub.isEmpty = false := by simpa using hpub
      simp only [hk, landOp_normal (o := o) (by simp [hk, isSecureKind]) hr, opResult, hpub', verifyStatus, Bool.false_eq_true, if_false, sigTooBig, Bool.not_and, Bool.and_eq_true,
        Bool.or_eq_true, Bool.not_eq_true', decide_eq_false_iff_not, Nat.not_le]
    · rw [hrow]
      simp only [hk, landOp_normal (o := o) (by simp [hk, isSecureKind]) hr, opResult]
    · rw [hrow]
      simp only [landOp_normal hsec hr, hk, opResult]
    · rw [hrow]; exact congrArg (fun d => Host.Outcome.next (on s d)) (failOp_normal hres hsec hr)
    · rw [hrow]; exact congrArg (fun d => Host.Outcome.next (on s d)) (failOp_normal hres hsec hr)
    · rw [hrow]; exact congrArg (fun d => Host.Outcome.next (on s d)) (failOp_normal hres hsec hr)
    · rw [hrow, hd']; exact congrArg (fun d => Host.Outcome.next (on s d)) (failOp_normal hres hsec hr)
  case noOp =>
    have hop : (p.aborting = false ∨ p.stoppedAt ≠ s.now) → doneOp s.toDev (eng s.toDev e.val) = none := by
      intro h
      rw [← hp]
      rcases h with h | h <;> simp [doneOp, hnone, h]
    rw [hdone, across_same]
    · rfl
    · exact h.imp_left fun h => by simp only [operationDone, hop h]

end Sys2Proof.Machine
end

section
/-! Accesses of the inner masters: what is denied at either end, and what reaches SRAM. -/

namespace Sys2Proof.Machine

open Sys2Proof.Safety

/-- An access inside is served by the bus, whoever the inner master is. -/
theorem registerWrite_inner {d : Dev} {m : Master} (hm : isHost m = false) (a : Nat) (v : Bytes) : registerWrite d m a v.length v = busWrite d m a v := by
  unfold registerWrite
  rw [fit_self]
  cases m with
  | host f => cases hm
  | cp n s u => rfl
  | hw m u => rfl

theorem registerRead_inner {d : Dev} {m : Master} (hm : isHost m = false) (a n : Nat) : registerRead d m a n = busRead d m a n := by
  cases m with
  | host f => cases hm
  | cp n s u => rfl
  | hw m u => rfl

theorem busWrite_run {d : Dev} {a : Nat} {b : Bytes} (m : Master) (hrun : d.glb.power = .run) (hb : b ≠ []) :
    busWrite d m a b =
      match denial d m (inner d a) a b.length (writeKind m) with
      | some x => refuseAccess d m (inner d a) a (writeKind m) x
      | none =>
        if writeKind m = Kind.write then innerWrite (checked d) m (inner d a) a b
        else emit (innerWrite (innerRead (checked d) (inner d a) a b.length).1 m (inner d a) a b) (.bus m (some (innerRead (checked d) (inner d a) a b.length).2)) := by
  have hgo : (d.glb.power != .run || b.isEmpty) = false := by simp [hrun, hb]
  simp only [busWrite, hgo] <;> rfl

theorem busRead_run {d : Dev} {a n : Nat} (m : Master) (hrun : d.glb.power = .run) (hn : n ≠ 0) :
    busRead d m a n =
      match denial d m (inner d a) a n (readKind m) with
      | some x => refuseAccess d m (inner d a) a (readKind m) x
      | none => emit (innerRead (checked d) (inner d a) a n).1 (.bus m (some (innerRead (checked d) (inner d a) a n).2)) := by
  have hgo : (d.glb.power != .run || decide (n = 0)) = false := by simp [hrun, hn]
  simp only [busRead, Bool.or_eq_true, decide_eq_true_eq] at hgo ⊢
  simp [hrun, hn] <;> rfl

/-! What a denial says of a write, an atomic access, a read and a fetch. -/

theorem busWrite_denied {d : Dev} {m : Master} {a : Nat} {b : Bytes} {x : Denial} (hrun : d.glb.power = .run) (hb : b ≠ [])
    (hx : denial d m (inner d a) a b.length (writeKind m) = some x) : busWrite d m a b = refuseAccess d m (inner d a) a (writeKind m) x := by
  rw [busWrite_run m hrun hb, hx]

theorem busRead_denied {d : Dev} {m : Master} {a n : Nat} {x : Denial} (hrun : d.glb.power = .run) (hn : n ≠ 0)
    (hx : denial d m (inner d a) a n (readKind m) = some x) : busRead d m a n = refuseAccess d m (inner d a) a (readKind m) x := by
  rw [busRead_run m hrun hn, hx]

/-! What passes the checks and lies in SRAM moves exactly its bytes. -/

theorem busWrite_sram {d : Dev} {m : Master} {a : Nat} {b : Bytes} (hrun : d.glb.power = .run) (hb : b ≠ []) (hk : writeKind m = Kind.write)
    (hx : denial d m (inner d a) a b.length Kind.write = none) (hi : inner d a = .sram) :
    busWrite d m a b = { checked d with sram := memWriteBytes d.sram a b } := by
  rw [busWrite_run m hrun hb, hk, hx, hi]
  simp only [if_pos, innerWrite, checked_sram]

theorem busAtomic_sram {d : Dev} {m : Master} {a : Nat} {b : Bytes} (hrun : d.glb.power = .run) (hb : b ≠ []) (hk : writeKind m = Kind.atomic)
    (hx : denial d m (inner d a) a b.length Kind.atomic = none) (hi : inner d a = .sram) :
    busWrite d m a b = emit { checked d with sram := memWriteBytes d.sram a b } (.bus m (some (memBytes d.sram a b.length))) := by
  have hne : Kind.atomic ≠ Kind.write := by decide
  rw [busWrite_run m hrun hb, hk, hx, hi]
  simp only [if_neg hne, innerWrite, innerRead, checked_sram]

theorem busRead_sram {d : Dev} {m : Master} {a n : Nat} (hrun : d.glb.power = .run) (hn : n ≠ 0)
    (hx : denial d m (inner d a) a n (readKind m) = none) (hi : inner d a = .sram) :
    busRead d m a n = emit (checked d) (.bus m (some (memBytes d.sram a n))) := by
  rw [busRead_run m hrun hn, hx, hi]
  simp only [innerRead, checked_sram]

theorem inner_sram (d : Dev) {a : Nat} (hlo : 0x20000000 ≤ a) (hhi : a < 0x20800000) : inner d a = .sram := by
  have h1 : ¬ a < 0x4000000 := by omega
  have h2 : (decide (0x20000000 ≤ a) && decide (a < 0x20800000)) = true := by simp [hlo, hhi]
  simp only [inner, if_neg h1, if_pos h2]

/-! The boot rule (R113): CP0 in the secure world. -/

/-- The boot rule leaves only the watermark's refusal of a fetch from the normal part. -/
theorem denialAt_boot {d t : Dev} {u : AccUse} {a n kind : Nat} (hk : kind ≠ Kind.atomic) :
    denialAt d t (.cp 0 true u) .sram a n kind = if (kind = Kind.fetch && !sramSecure t a) = true then some ⟨regionWatermark, true⟩ else none := by
  have hb : bootRule (.cp 0 true u) .sram kind = true := by simp [bootRule, hk]
  have hw : wmDenies t (.cp 0 true u) .sram a kind = (kind = Kind.fetch && !sramSecure t a) := by
    simp [wmDenies, waterMarked, masterSecure, secureAddr]
  simp only [denialAt, inMotion, Bool.false_eq_true, if_false, if_pos hb, hw]

/-- What is no fetch passes under the boot rule, whatever rules the two ends hold. -/
theorem denial_boot (d : Dev) {u : AccUse} {a n kind : Nat} (hk : kind ≠ Kind.atomic) (hf : kind ≠ Kind.fetch) :
    denial d (.cp 0 true u) .sram a n kind = none := by
  rw [denial, denialAt_boot hk]
  simp [hf]

theorem denial_bootFetch {d : Dev} (hset : settled d = true) {u : AccUse} {a n : Nat} :
    denial d (.cp 0 true u) .sram a n Kind.fetch = if sramSecure d a = true then none else some ⟨regionWatermark, true⟩ := by
  have hk : Kind.fetch ≠ Kind.atomic := by decide
  rw [denial_settled hset, denialAt_boot hk]
  cases sramSecure d a <;> rfl

/-! A normal master that writes the secure part of SRAM, every rule covered by a barrier. -/

theorem bootRule_normal {d : Dev} {m : Master} (i : Inner) (kind : Nat) (hs : masterSecure d m = false) (hm : isHost m = false) : bootRule m i kind = false := by
  cases m with
  | host f => cases hm
  | cp n s u => simp [bootRule, show s = false from hs]
  | hw m u => simp [bootRule]

/-- Without a region of its initiator it is denied there. -/
theorem denial_noRegion {d : Dev} {m : Master} {a n : Nat} (hset : settled d = true) (hs : masterSecure d m = false) (hm : isHost m = false)
    (hreg : deciding d.sec.mpu (16 * masterNum m) 16 a = none) : denial d m .sram a n Kind.write = some ⟨regionNone, false⟩ := by
  have hmpu : mpuCheck d m a Kind.write = some ⟨regionNone, false⟩ := by simp only [mpuCheck, hreg]
  rw [denial_settled hset]
  simp only [denialAt, inMotion, bootRule_normal .sram Kind.write hs hm, fixedRule, hmpu, Bool.false_eq_true, if_false, Option.orElse_some]

/-- With a region that lets it pass it is denied by the watermark. -/
theorem denial_watermark {d : Dev} {m : Master} {a n : Nat} {r : Nat × Region} (hset : settled d = true) (hs : masterSecure d m = false) (hm : isHost m = false)
    (hsec : sramSecure d a = true) (hreg : deciding d.sec.mpu (16 * masterNum m) 16 a = some r) (hok : allowed r.2 false Kind.write = true) :
    denial d m .sram a n Kind.write = some ⟨regionWatermark, true⟩ := by
  have hmpu : mpuCheck d m a Kind.write = none := by simp only [mpuCheck, hreg, hs, if_pos hok]
  have hwm : wmDenies d m .sram a Kind.write = true := by simp [wmDenies, waterMarked, hs, secureAddr, hsec]
  rw [denial_settled hset]
  simp only [denialAt, inMotion, bootRule_normal .sram Kind.write hs hm, fixedRule, hmpu, if_pos hwm, Bool.false_eq_true, if_false, Option.orElse_some, Option.orElse_none]

/-- A refusal that is a write's has no answer of its own; a fetch faults, every other access is answered with nothing. -/
theorem refuseAccess_write (d : Dev) (m : Master) (i : Inner) (a : Nat) (x : Denial) :
    refuseAccess d m i a Kind.write x = violate (checked d) m x.region (slaveOf i) Kind.write x.target a := by
  simp only [refuseAccess, if_pos]

theorem refuseAccess_fetch (d : Dev) (m : Master) (i : Inner) (a : Nat) (x : Denial) :
    refuseAccess d m i a Kind.fetch x = emit (violate (checked d) m x.region (slaveOf i) Kind.fetch x.target a) (.fetchFault (masterNum m)) := by
  have hne : Kind.fetch ≠ Kind.write := by decide
  simp only [refuseAccess, if_neg hne, if_pos]

theorem refuseAccess_answered (d : Dev) (m : Master) (i : Inner) (a : Nat) (x : Denial) {kind : Nat} (hw : kind ≠ Kind.write) (hf : kind ≠ Kind.fetch) :
    refuseAccess d m i a kind x = emit (violate (checked d) m x.region (slaveOf i) kind x.target a) (.bus m none) := by
  simp only [refuseAccess, if_neg hw, if_neg hf]

theorem readKind_ne_write (m : Master) : readKind m ≠ Kind.write := by
  unfold readKind
  split <;> decide

theorem writeKind_cp {n : Fin 4} {s : Bool} {u : AccUse} (h : u.kind ≠ .atomic) : writeKind (.cp n s u) = Kind.write := by
  simp only [writeKind, useOf]

/-- Settles O30: the row is the bus access of the inner master, the boot rule and the settled rules decide the denial, and what passes reaches SRAM. -/
theorem innerAccessesAreChecked : Obligations.InnerAccessesAreChecked := by
  intro s m a v hm hrun hv
  have hwrite : exec (.registerWrite m a v.length v) s = .next (on s (busWrite s.toDev m a v)) :=
    congrArg (fun d => Host.Outcome.next (on s d)) (registerWrite_inner hm a v)
  have hread : exec (.rcFieldRead m a v.length) s = .next (on s (busRead s.toDev m a v.length)) :=
    congrArg (fun d => Host.Outcome.next (on s d)) (registerRead_inner hm a v.length)
  have hn : v.length ≠ 0 := by simpa using hv
  rw [hwrite, hread]
  refine ⟨fun x hk hx => ?writeDenied, fun x hk hx => ?atomicDenied, fun x k hk hf hx => ?readDenied, fun x hk hx => ?fetchDenied, fun hk hx hi => ?writes, fun hk hx hi => ?swaps, fun hx hi => ?reads,
    fun u hlo hhi hcp => ⟨fun hu => ?bootWrite, fun hu => ?bootRead, fun hu hset hsec => ?bootFetch, fun hu hset hsec => ?bootFetchDenied⟩, fun hset hlo hhi hk hs hsec hreg => ?noRegion, fun r hset hlo hhi hk hs hsec hreg hok => ?watermark⟩
  case writeDenied => rw [busWrite_denied hrun hv (hk ▸ hx), hk, refuseAccess_write]
  case atomicDenied => rw [busWrite_denied hrun hv (hk ▸ hx), hk, refuseAccess_answered _ _ _ _ _ (by decide) (by decide)]
  case readDenied =>
    subst hk
    rw [busRead_denied hrun hn hx, refuseAccess_answered _ _ _ _ _ (readKind_ne_write m) hf]
  case fetchDenied => rw [busRead_denied hrun hn (hk ▸ hx), hk, refuseAccess_fetch]
  case writes => rw [busWrite_sram hrun hv hk hx hi]
  case swaps => rw [busAtomic_sram hrun hv hk hx hi]
  case reads => rw [busRead_sram hrun hn hx hi]
  case bootWrite =>
    subst hcp
    have hi := inner_sram s.toDev hlo hhi
    rw [busWrite_sram hrun hv (writeKind_cp hu) (hi ▸ denial_boot s.toDev (by decide) (by decide)) hi]
  case bootRead =>
    subst hcp
    have hi := inner_sram s.toDev hlo hhi
    have hk : readKind (.cp 0 true u) = Kind.read := by simp only [readKind, useOf, hu]
    rw [busRead_sram hrun hn (by rw [hk, hi]; exact denial_boot s.toDev (by decide) (by decide)) hi]
  case bootFetch =>
    subst hcp
    have hi := inner_sram s.toDev hlo hhi
    have hk : readKind (.cp 0 true u) = Kind.fetch := by simp only [readKind, useOf, hu]
    rw [busRead_sram hrun hn (by rw [hk, hi, denial_bootFetch hset, if_pos hsec]) hi, checked_settled hset]
  case bootFetchDenied =>
    subst hcp
    have hi := inner_sram s.toDev hlo hhi
    have hk : readKind (.cp 0 true u) = Kind.fetch := by simp only [readKind, useOf, hu]
    have hx : denial s.toDev (.cp 0 true u) (inner s.toDev a) a v.length (readKind (.cp 0 true u)) = some ⟨regionWatermark, true⟩ := by
      rw [hk, hi, denial_bootFetch hset, hsec]
      rfl
    rw [busRead_denied hrun hn hx, hk, refuseAccess_fetch, checked_settled hset, hi]
    rfl
  case noRegion =>
    have hi := inner_sram s.toDev hlo hhi
    have hx := denial_noRegion (n := v.length) hset hs hm hreg
    rw [busWrite_denied hrun hv (by rw [hk, hi]; exact hx), hk, refuseAccess_write, checked_settled hset, hi]
    rfl
  case watermark =>
    have hi := inner_sram s.toDev hlo hhi
    have hx := denial_watermark (n := v.length) hset hs hm hsec hreg hok
    rw [busWrite_denied hrun hv (by rw [hk, hi]; exact hx), hk, refuseAccess_write, checked_settled hset, hi]
    rfl

end Sys2Proof.Machine
end

section
/-! Host accesses: from the link to the register or board they reach. -/

namespace Sys2Proof.Machine

open Sys2Proof.Safety

/-! ### The way in -/

theorem hostReach_ready {s : State} {f : Func} (h : hostReady s f) (held : HeldAccess) (serve : Dev → Dev) : hostReach s.toDev held serve = serve s.toDev := by
  obtain ⟨hrun, hup, hx, hboot, hhot, hbusy, hd3, hmem⟩ := h
  have hreach : linkReaches s.toDev = true := by simp [linkReaches, powered, hrun, hup, hx]
  have hsleep : sleeping s.toDev = false := by simp [sleeping, hrun]
  simp only [hostReach, hreach, hsleep, Bool.not_true, Bool.false_eq_true, if_false]

/-- A ready function answers for itself only a request of a bad shape. -/
theorem hostGate_ready {s : State} {f : Func} (h : hostReady s f) (a n : Nat) :
    hostGate s.toDev f a n = if shapeOk (locate s.toDev f a) a n = true then none else some (answerCa s.toDev f) := by
  obtain ⟨hrun, hup, hx, hboot, hhot, hbusy, hd3, hmem⟩ := h
  have hserve : notServing s.toDev = false := by simp [notServing, hboot, hhot]
  have hidle : (funcBusy s.toDev f || s.toDev.hif.d3hot) = false := by simp [hbusy, hd3]
  simp only [hostGate, hserve, hidle, hmem, Bool.not_true, Bool.false_eq_true, if_false]
  cases shapeOk (locate s.toDev f a) a n <;> rfl

theorem hostWrite_stored {s : State} {f : Func} (h : hostReady s f) {a : Nat} {v : Bytes} (hshape : shapeOk (locate s.toDev f a) a v.length = true) :
    exec (.registerWrite (.host f) a v.length v) s = .next (on s (hostStore s.toDev f a v)) := by
  have hrow : registerWrite s.toDev (.host f) a v.length v = hostStore s.toDev f a v := by
    simp only [registerWrite, hostReach_ready h, fit_self, hostServeWrite, hostGate_ready h, if_pos hshape]
  exact congrArg (fun d => Host.Outcome.next (on s d)) hrow

theorem hostRead_loaded {s : State} {f : Func} (h : hostReady s f) {a n : Nat} (hshape : shapeOk (locate s.toDev f a) a n = true) :
    exec (.rcFieldRead (.host f) a n) s = .next (on s (hostLoad s.toDev f a n)) := by
  have hrow : registerRead s.toDev (.host f) a n = hostLoad s.toDev f a n := by
    simp only [registerRead, hostReach_ready h, hostServeRead, hostGate_ready h, if_pos hshape]
  exact congrArg (fun d => Host.Outcome.next (on s d)) hrow

theorem hostWrite_badShape {s : State} {f : Func} (h : hostReady s f) {a : Nat} {v : Bytes} (hshape : shapeOk (locate s.toDev f a) a v.length = false) :
    exec (.registerWrite (.host f) a v.length v) s = .next (on s (answerCa s.toDev f)) := by
  have hrow : registerWrite s.toDev (.host f) a v.length v = answerCa s.toDev f := by
    simp only [registerWrite, hostReach_ready h, fit_self, hostServeWrite, hostGate_ready h, hshape, Bool.false_eq_true, if_false]
  exact congrArg (fun d => Host.Outcome.next (on s d)) hrow

theorem hostRead_badShape {s : State} {f : Func} (h : hostReady s f) {a n : Nat} (hshape : shapeOk (locate s.toDev f a) a n = false) :
    exec (.rcFieldRead (.host f) a n) s = .next (on s (answerCa s.toDev f)) := by
  have hrow : registerRead s.toDev (.host f) a n = answerCa s.toDev f := by
    simp only [registerRead, hostReach_ready h, hostServeRead, hostGate_ready h, hshape, Bool.false_eq_true, if_false]
  exact congrArg (fun d => Host.Outcome.next (on s d)) hrow

/-! ### Registers -/

section
variable {d : Dev} {f : Func} {a o n : Nat} {p : Page} {b : Bytes} (hloc : locate d f a = .reg p o)
include hloc

theorem hostStore_register (hm : (wordOffs o b.length).any (moving d p) = false) (hd : (wordOffs o b.length).any (hostDenied d p) = false) :
    hostStore d f a b = writeBytes d (.host f) p o b := by
  simp only [hostStore, hloc, hostWriteReg, hm, hd, Bool.false_eq_true, if_false]

theorem hostStore_denied (hm : (wordOffs o b.length).any (moving d p) = false) (hd : (wordOffs o b.length).any (hostDenied d p) = true) :
    hostStore d f a b = violate d (.host f) regionNone slaveRegs Kind.write true (pfAddr f a) := by
  simp only [hostStore, hloc, hostWriteReg, hm, Bool.false_eq_true, if_false, if_pos hd]

theorem hostStore_moving (hm : (wordOffs o b.length).any (moving d p) = true) :
    hostStore d f a b = violate d (.host f) regionTransit slaveRegs Kind.write true (pfAddr f a) := by
  simp only [hostStore, hloc, hostWriteReg, if_pos hm]

theorem hostLoad_register (hm : (wordOffs o n).any (moving d p) = false) : hostLoad d f a n = emit (clearRead d p o n) (.tlp f (.data (readBytes d p o n))) := by
  simp only [hostLoad, hloc, hm, Bool.false_eq_true, if_false]

theorem hostLoad_moving (hm : (wordOffs o n).any (moving d p) = true) :
    hostLoad d f a n = emit (violate d (.host f) regionTransit slaveRegs Kind.read true (pfAddr f a)) (.tlp f (.denied (zeros n))) := by
  simp only [hostLoad, hloc, if_pos hm]

end

theorem hostStore_nothing {d : Dev} {f : Func} {a : Nat} (hloc : locate d f a = .nothing) (b : Bytes) : hostStore d f a b = d := by
  simp only [hostStore, hloc]

theorem hostLoad_nothing {d : Dev} {f : Func} {a : Nat} (hloc : locate d f a = .nothing) (n : Nat) : hostLoad d f a n = emit d (.tlp f (.data (zeros n))) := by
  simp only [hostLoad, hloc]

/-- The words an access of one byte, or of four bytes of one word, touches. -/
theorem wordOffs_byte {o : Nat} (h : o % 4 = 0) : wordOffs o 1 = [o] := by
  have h1 : (o + 1 - 1) / 4 + 1 - o / 4 = 1 := by omega
  have h2 : o / 4 * 4 = o := by omega
  simp [wordOffs, h1, h2]

theorem wordOffs_word {o : Nat} (h : o % 4 = 0) : wordOffs o 4 = [o] := by
  have h1 : (o + 3) / 4 + 1 - o / 4 = 1 := by omega
  have h2 : o / 4 * 4 = o := by omega
  simp [wordOffs, h1, h2]

theorem locatePf_glb (d : Dev) {a : Nat} (h : a < 0x10000) : locate d .pf a = .reg .glb a := by
  have h1 : a < 0x100000 := by omega
  have h2 : a / 0x10000 = 0 := by omega
  have h3 : a % 0x10000 = a := by omega
  simp only [locate, locatePf, if_pos h1, h2, h3, locateBlock]

/-- No word of GLB moves between worlds; of its words only those of the life cycle are the secure world's. -/
theorem moving_glb (d : Dev) (o : Nat) : moving d .glb o = false := rfl

theorem hostDenied_glb (d : Dev) (o : Nat) : hostDenied d .glb o = lcRegister o := by
  simp [hostDenied, secureReg, listedReg]

theorem toDev_on (s : State) : on s s.toDev = s := rfl

/-- One byte written stands in the low byte of its word, under its mask. -/
theorem lane_byte (o : Nat) (b : Byte) : lane o [b] o = { raw := b.setWidth 32, mask := 0xFF } := by
  have hone : List.map (fun i => if o ≤ o + i then [b][o + i - o]? else none) (List.range 4) = [some b, none, none, none] := by
    simp [List.range, List.range.loop]
  have hraw : BitVec.ofNat 32 b.toNat = b.setWidth 32 := BitVec.ofNat_toNat 32 b
  simp only [lane, hone]
  simp [word, leAt, slice, leNat, hraw]

theorem over_byte (b : Byte) (old : Word) : (Wr.over { raw := b.setWidth 32, mask := 255#32 } old).setWidth 8 = b := by
  have hmask : (~~~(0xFF#32)).setWidth 8 = 0#8 := by decide
  have hback : (b.setWidth 32).setWidth 8 = b := by simp
  calc (Wr.over { raw := b.setWidth 32, mask := 255#32 } old).setWidth 8
      = (old.setWidth 8 &&& (~~~(0xFF#32)).setWidth 8) ||| (b.setWidth 32).setWidth 8 := (BitVec.setWidth_or ..).trans (congrArg (· ||| _) (BitVec.setWidth_and ..))
    _ = b := by rw [hmask, hback, BitVec.and_zero, BitVec.zero_or]

/-- A write of one byte of GLB at a word boundary. -/
theorem writeBytes_glbByte (d : Dev) (m : Master) {o : Nat} (ho : o % 4 = 0) (b : Byte) :
    writeBytes d m .glb o [b] = writeGlb d o { raw := b.setWidth 32, mask := 0xFF } := by
  simp only [writeBytes, List.length_singleton, wordOffs_byte ho, List.foldl_cons, List.foldl_nil, lane_byte, writeReg]

theorem readBytes_word (d : Dev) (p : Page) {o : Nat} (ho : o % 4 = 0) : readBytes d p o 4 = b4 (readReg d p o) := by
  have hlen : (b4 (readReg d p o)).length = 4 := length_leBytes 4 _
  simp only [readBytes, wordOffs_word ho, List.flatMap_cons, List.flatMap_nil, List.append_nil, ho, slice, List.drop_zero]
  exact List.take_of_length_le (Nat.le_of_eq hlen)

/-! ### Boards -/

section
variable {d : Dev} {f : Func} {k : Fin 64} (hopen : f = .pf ∨ enabled (stall d k.val) = true)
include hopen

theorem boardRead_open (o n : Nat) : boardRead d k (sideOf f) o n = memBytes d.stl.boards (boardSize * k.val + o) n := by
  cases f with
  | pf => rfl
  | vf n =>
    have hen : enabled (stall d k.val) = true := hopen.resolve_left (by simp)
    simp [boardRead, sideOf, hen]

theorem boardWrite_open (o : Nat) (b : Bytes) :
    boardWrite d k (sideOf f) o b =
      { d with stl := { d.stl with boards := memWriteBytes d.stl.boards (boardSize * k.val + (o + (64 - o))) ((b.drop (64 - o)).take (boardSize - (o + (64 - o)))) } } := by
  cases f with
  | pf => rfl
  | vf n =>
    have hen : enabled (stall d k.val) = true := hopen.resolve_left (by simp)
    simp [boardWrite, sideOf, hen]

end

theorem boardWrite_shut {d : Dev} {f : Func} {k : Fin 64} (hf : f ≠ .pf) (hen : enabled (stall d k.val) = false) (o : Nat) (b : Bytes) :
    boardWrite d k (sideOf f) o b = d := by
  cases f with
  | pf => exact absurd rfl hf
  | vf n => simp [boardWrite, sideOf, hen]

/-- A run of bytes written reads back byte by byte. -/
theorem memRead_memWriteBytes (b : Bytes) : ∀ (m : Mem) (k i : Nat), memWf m = true → i < b.length → memRead (memWriteBytes m k b) (k + i) = byteAt b i := by
  induction b with
  | nil => exact fun m k i _ hi => absurd hi (Nat.not_lt_zero i)
  | cons x l ih =>
    intro m k i hm hi
    match i with
    | 0 =>
      rw [show memWriteBytes m k (x :: l) = memWriteBytes (memWrite m k x) (k + 1) l from rfl, memRead_memWriteBytes_out _ _ _ _ (by omega)]
      exact memRead_memWrite_self m k x hm
    | i + 1 =>
      have hil : i < l.length := by simpa using hi
      have hnext := ih (memWrite m k x) (k + 1) i (memWf_memWrite m k x hm) hil
      rw [show k + (i + 1) = k + 1 + i by omega]
      exact hnext

/-- The bytes of a board write: what lies in the 64-byte header is missed, every other byte lands. -/
theorem board_bytes {m : Mem} (hm : memWf m = true) (base o : Nat) (b : Bytes) (hfit : o + b.length ≤ 4096) :
    (∀ i, i < b.length → 64 ≤ o + i → memRead (memWriteBytes m (base + (o + (64 - o))) ((b.drop (64 - o)).take (4096 - (o + (64 - o))))) (base + o + i) = byteAt b i) ∧
    ∀ x, x < base + max o 64 ∨ base + o + b.length ≤ x →
      memRead (memWriteBytes m (base + (o + (64 - o))) ((b.drop (64 - o)).take (4096 - (o + (64 - o))))) x = memRead m x := by
  have hall : (b.drop (64 - o)).take (4096 - (o + (64 - o))) = b.drop (64 - o) := List.take_of_length_le (by simp; omega)
  rw [hall]
  constructor
  · intro i hi h64
    obtain ⟨j, hj⟩ : ∃ j, i = (64 - o) + j := ⟨i - (64 - o), by omega⟩
    subst hj
    have hread := memRead_memWriteBytes (b.drop (64 - o)) m (base + (o + (64 - o))) j hm (by simp; omega)
    rw [show base + o + (64 - o + j) = base + (o + (64 - o)) + j by omega, hread]
    simp [byteAt, List.getD, List.getElem?_drop]
  · intro x hx
    refine memRead_memWriteBytes_out _ _ _ _ ?_
    have hl : (b.drop (64 - o)).length = b.length - (64 - o) := List.length_drop
    rcases hx with hx | hx
    · exact .inl (by omega)
    · by_cases ho : b.length ≤ 64 - o
      · exact (Nat.lt_or_ge x (base + (o + (64 - o)))).imp id fun h => by omega
      · exact .inr (by omega)

/-- An access of a board's shape ends inside the board. -/
theorem memShape_fits {o n size : Nat} (h : memShape o n size = true) (ho : o < size) (hsize : size % 4 = 0) : o + n ≤ size := by
  simp only [memShape, Bool.or_eq_true, Bool.and_eq_true, decide_eq_true_eq] at h
  rcases h with ⟨(rfl | rfl) | rfl, hmod⟩ | ⟨-, hend⟩ <;> omega

theorem locateBlock_ne_board (d : Dev) (i a : Nat) (k : Fin 64) (o : Nat) : locateBlock d i a ≠ .board k o := by
  unfold locateBlock
  split <;> try split
  all_goals exact Loc.noConfusion

theorem locateStl_board {a o : Nat} {k : Fin 64} (h : locateStl a = .board k o) : o < boardSize := by
  unfold locateStl at h
  split at h
  · cases h
  split at h
  · cases h
  split at h
  · cases h
  split at h
  · cases h
  split at h
  · cases h
  split at h
  · cases h
    exact Nat.mod_lt _ (by decide)
  · cases h

theorem locatePf_board {d : Dev} {a o : Nat} {k : Fin 64} (h : locatePf d a = .board k o) : o < boardSize := by
  unfold locatePf at h
  split at h
  · exact absurd h (locateBlock_ne_board d _ _ k o)
  split at h
  · exact locateStl_board h
  split at h
  · cases h
  split at h
  · cases h
  · cases h

theorem locate_board {d : Dev} {f : Func} {a o : Nat} {k : Fin 64} (h : locate d f a = .board k o) : o < boardSize := by
  cases f with
  | pf => exact locatePf_board h
  | vf n =>
    simp only [locate, locateVf] at h
    split at h
    · cases h
    split at h
    · cases h
    split at h
    · cases h
    split at h
    next hboard =>
      cases h
      have hin : 0x1000 ≤ a ∧ a < 0x2000 := by simpa using hboard
      simp only [boardSize]
      omega
    split at h
    · cases h
    split at h
    · cases h
    · cases h

/-- Settles O29: the row is the register or board the address reaches, under the gate a ready function passes. -/
theorem hostAccessesReachRegistersAndBoards : Obligations.HostAccessesReachRegistersAndBoards := by
  refine ⟨?_, ?_⟩
  · intro s f a n v hready hn
    subst hn
    refine ⟨fun p o hloc hshape hm => ⟨fun hd => ?stored, fun hd => ?denied, ?loaded⟩, fun p o hloc hshape hm => ⟨?storeMoving, ?loadMoving⟩, fun p o hloc hshape => ⟨?storeShape, ?loadShape⟩,
      fun hloc hshape => ⟨?storeNothing, ?loadNothing⟩, fun hf ha hn => ?resetCause, fun hf ha hn => ?clkCtl, fun hf ha hn => ?lcRead, fun hf ha hn => ?lcWrite⟩
    case stored => rw [hostWrite_stored hready (by rw [hloc]; exact hshape), hostStore_register hloc hm hd]
    case denied => rw [hostWrite_stored hready (by rw [hloc]; exact hshape), hostStore_denied hloc hm hd]
    case loaded => rw [hostRead_loaded hready (by rw [hloc]; exact hshape), hostLoad_register hloc hm]
    case storeMoving => rw [hostWrite_stored hready (by rw [hloc]; exact hshape), hostStore_moving hloc hm]
    case loadMoving => rw [hostRead_loaded hready (by rw [hloc]; exact hshape), hostLoad_moving hloc hm]
    case storeShape => rw [hostWrite_badShape hready (by rw [hloc]; exact hshape), answerCa]
    case loadShape => rw [hostRead_badShape hready (by rw [hloc]; exact hshape), answerCa]
    case storeNothing => rw [hostWrite_stored hready (by rw [hloc]; exact hshape), hostStore_nothing hloc, toDev_on]
    case loadNothing => rw [hostRead_loaded hready (by rw [hloc]; exact hshape), hostLoad_nothing hloc]
    case resetCause =>
      subst hf ha
      have hloc := locatePf_glb s.toDev (a := 0x24) (by decide)
      obtain ⟨b, rfl⟩ : ∃ b, v = [b] := List.length_eq_one_iff.mp hn
      rw [hostWrite_stored hready (by rw [hloc, hn]; rfl), hostStore_register hloc (by simp [wordOffs_byte, moving_glb]) (by simp [wordOffs_byte, hostDenied_glb, lcRegister]), writeBytes_glbByte _ _ rfl]
      simp [writeGlb, byteAt]
    case clkCtl =>
      subst hf ha
      have hloc := locatePf_glb s.toDev (a := 0x18) (by decide)
      obtain ⟨b, rfl⟩ : ∃ b, v = [b] := List.length_eq_one_iff.mp hn
      rw [hostWrite_stored hready (by rw [hloc, hn]; rfl), hostStore_register hloc (by simp [wordOffs_byte, moving_glb]) (by simp [wordOffs_byte, hostDenied_glb, lcRegister]), writeBytes_glbByte _ _ rfl]
      simp [writeGlb, byteAt, over_byte]
    case lcRead =>
      subst hf ha
      have hloc := locatePf_glb s.toDev (a := 0x80) (by decide)
      rw [hn, hostRead_loaded hready (by rw [hloc]; rfl), hostLoad_register hloc rfl, readBytes_word _ _ rfl]
      rfl
    case lcWrite =>
      subst hf ha
      have hloc := locatePf_glb s.toDev (a := 0x80) (by decide)
      rw [hostWrite_stored hready (by rw [hloc, hn]; rfl), hostStore_denied hloc (by rw [hn]; rfl) (by rw [hn]; rfl)]
      rfl
  · intro s f a v k o hready hwf hloc hshape
    have hfit := memShape_fits hshape (locate_board hloc) rfl
    have hok : shapeOk (locate s.toDev f a) a v.length = true := by rw [hloc]; exact hshape
    have hwrite : exec (.registerWrite (.host f) a v.length v) s = .next (on s (boardWrite s.toDev k (sideOf f) o v)) := by
      rw [hostWrite_stored hready hok, hostStore, hloc]
    refine ⟨fun hopen => ⟨_, hwrite, ?_, ?_⟩, fun hf hen => ?_, fun hopen => ?_⟩
    · rw [boardWrite_open hopen]; rfl
    · rw [boardWrite_open hopen]
      exact board_bytes hwf (4096 * k.val) o v hfit
    · rw [hwrite, boardWrite_shut hf hen, toDev_on]
    · rw [hostRead_loaded hready hok, hostLoad, hloc]
      simp only [boardRead_open hopen] <;> rfl

end Sys2Proof.Machine
end

section
/-! TAP instructions: what each does once EXTEST is left. -/

namespace Sys2Proof.Machine

open Sys2Proof.Safety

theorem lcLocked_not {d : Dev} (h : d.lc.state ≠ 0xEE) : lcLocked d = false := by
  simpa [lcLocked] using h

theorem leaveExtest_none {d : Dev} (h : d.dbg.extest = false) (env : StartEnv) : leaveExtest d env = d := by
  simp only [leaveExtest, h, Bool.false_eq_true, if_false]

theorem leaveBy_none {d : Dev} (h : d.dbg.extest = false) (env : StartEnv) : leaveBy d env = d := by
  unfold leaveBy
  rw [leaveExtest_none h, ite_self]

/-- EXTEST is left by a SOFT reset of the device, out of EXTEST with IDCODE selected. -/
theorem leaveExtest_reset {d : Dev} (h : d.dbg.extest = true) (env : StartEnv) :
    leaveExtest d env = warmReset { d with dbg := { d.dbg with extest := false, tapInstr := .idcode } } env causeSoft 4 := by
  simp only [leaveExtest, if_pos h]

theorem leaveBy_reset {d : Dev} (h : d.dbg.extest = true) (hp : d.glb.power ≠ .standby) (env : StartEnv) :
    leaveBy d env = warmReset { d with dbg := { d.dbg with extest := false, tapInstr := .idcode } } env causeSoft 4 := by
  have hawake : asleep d = false := by simp [asleep, hp]
  simp only [leaveBy, hawake, Bool.false_eq_true, if_false, leaveExtest_reset h]

section
variable {d : Dev} (hpow : powered d = true)
include hpow

theorem tapReset_awake (env : StartEnv) : tapReset d env = leaveExtest (setInstr d .idcode) env := by
  simp only [tapReset, if_pos hpow]

theorem tapBypass_up (h : d.glb.vioGen = true) : tapBypass d = tapReport (setInstr d .bypass) ST.ok := by
  have hup : tapUp d = true := by simp [tapUp, hpow, h]
  simp only [tapBypass, if_pos hup]

theorem tapIdcode_up (h : d.glb.vioGen = true) : tapIdcode d = tapReport (setInstr d .idcode) ST.ok (b4 0x14830F79) := by
  have hup : tapUp d = true := by simp [tapUp, hpow, h]
  simp only [tapIdcode, if_pos hup]

variable (hawake : asleep d = false)
include hawake

theorem tapSample_open (h : boundaryOpen d = true) : tapSample d = tapReport { setInstr d .sample with rng := d.rng + 1 } ST.ok (Config.boundaryCells d.rng) := by
  simp only [tapSample, hpow, hawake, h, Bool.not_true, Bool.false_eq_true, if_false]

theorem tapSample_shut (h : boundaryOpen d = false) : tapSample d = tapReport d ST.denied := by
  simp only [tapSample, hpow, hawake, h, Bool.not_true, Bool.not_false, Bool.false_eq_true, if_false, if_true]

theorem tapExtest_open (h : boundaryOpen d = true) :
    tapExtest d = tapReport { abortAll (setInstr d .extest) with dbg := { (abortAll (setInstr d .extest)).dbg with extest := true } } ST.ok := by
  simp only [tapExtest, hpow, hawake, h, Bool.not_true, Bool.false_eq_true, if_false]

theorem tapExtest_shut (h : boundaryOpen d = false) : tapExtest d = tapReport d ST.denied := by
  simp only [tapExtest, hpow, hawake, h, Bool.not_true, Bool.not_false, Bool.false_eq_true, if_false, if_true]

theorem tapChallenge_drawn (hlc : d.lc.state ≠ 0xEE) (hjob : d.lc.job = none) (hrng : drbgReady d = true) :
    tapChallenge d = tapReport (newChallenge d).2 ST.ok (newChallenge d).1 := by
  have hpass : firstFail [(asleep d, ST.dbgAsleep), (lcLocked d, ST.locked), (d.lc.job.isSome, ST.busy), rngCheck d] = none := by
    simp [firstFail, hawake, lcLocked_not hlc, hjob, rngCheck, hrng]
  simp only [tapChallenge, hpow, hpass, Bool.not_true, Bool.false_eq_true, if_false]

theorem tapResponse_awake (b : Bytes) : tapResponse d b = respond d none (Config.fit 160 b) := by
  simp only [tapResponse, hpow, hawake, Bool.not_true, Bool.false_eq_true, if_false]

theorem presentToken_busy (h : d.dbg.token.isSome = true) (t : Bytes) (i n : Nat) : presentToken d t i n = tapReport d ST.busy := by
  simp only [presentToken, hpow, hawake, h, Bool.not_true, Bool.false_eq_true, if_false, if_true]

/-- A token presented takes a unit of the token pool first; its checks are those of the presentation, then the Logbook's. -/
theorem presentToken_free (h : d.dbg.token = none) (t : Bytes) (i n : Nat) :
    presentToken d t i n =
      match firstFail ([(lcLocked d, ST.locked), (decide (8 ≤ d.dbg.tokenFails.toNat), ST.tokenBad), (d.dbg.grant != 0, ST.denied)] ++ logGate d) with
      | some st => endToken (ldgIssue d 5 H.token 1) st
      | none => { ldgIssue d 5 H.token 1 with dbg := { d.dbg with token := some { token := Config.fit 16 t, index := i, state := n } } } := by
  have hfree : d.dbg.token.isSome = false := by simp [h]
  simp only [presentToken, hpow, hawake, hfree, Bool.not_true, Bool.false_eq_true, if_false] <;> rfl

end

/-- Settles O20: each row is its instruction on the device once EXTEST is left, which out of EXTEST is the device itself and in it a SOFT reset. -/
theorem tapInstructionsAct : Obligations.TapInstructionsAct := by
  refine ⟨?_, ?_⟩
  · intro s env hpow hext
    have hstay := leaveExtest_none (d := s.toDev) hext env
    have hby := leaveBy_none (d := s.toDev) hext env
    have hwake : s.glb.power ≠ .standby → asleep s.toDev = false := fun h => by simp [asleep, h]
    have hbypass : exec (.bypass env) s = .next (on s (tapBypass (leaveExtest s.toDev env))) := rfl
    have hidcode : exec (.idcode env) s = .next (on s (tapIdcode (leaveExtest s.toDev env))) := rfl
    have hsample : exec (.samplePreload env) s = .next (on s (tapSample (leaveBy s.toDev env))) := rfl
    have hextest : exec .extest s = .next (on s (tapExtest s.toDev)) := rfl
    have hchal : exec (.dbgChal env) s = .next (on s (tapChallenge (leaveBy s.toDev env))) := rfl
    have hresp : ∀ c, exec (.dbgResp c env) s = .next (on s (tapResponse (leaveBy s.toDev env) c)) := fun _ => rfl
    have hunlock : ∀ (t : Bytes) (i : Fin 32) (n : Fin 8), exec (.testUnlock t i n env) s = .next (on s (presentToken (leaveBy s.toDev env) t i.val n.val)) := fun _ _ _ => rfl
    rw [hstay] at hbypass hidcode
    simp only [hby] at hsample hchal hresp hunlock
    refine ⟨fun hv => ?bypass, fun hv => ?idcode, ?exit, fun t => ?reset, fun hp ho => ?sample, fun hp ho => ?extest, fun hp ho => ⟨?sampleShut, ?extestShut⟩, fun hp hlc hjob hrng => ?chal,
      fun c hlen hp hjob hcheck hserve hlog hcrit hcert => ?resp, fun t i n hp hlc => ⟨fun hb => ?tokenBusy, fun hf hfails => ?tokenFails, fun hf hfails hg => ?tokenGrant⟩,
      fun t i n hlen hp hlc hfails hg hf hlog hcrit => ?token, fun hv => ⟨?bypassDown, ?idcodeDown⟩⟩
    case bypass => rw [hbypass, tapBypass_up hpow hv]; rfl
    case idcode => rw [hidcode, tapIdcode_up hpow hv]; rfl
    case exit => exact congrArg (fun d => Host.Outcome.next (on s d)) hstay
    case reset =>
      have hrow : tapReset s.toDev env = setInstr s.toDev .idcode := by rw [tapReset_awake hpow, leaveExtest_none (by exact hext)]
      exact congrArg (fun d => Host.Outcome.next (on s d)) hrow
    case sample => rw [hsample, tapSample_open hpow (hwake hp) ho]; rfl
    case extest => rw [hextest, tapExtest_open hpow (hwake hp) ho]
    case sampleShut => rw [hsample, tapSample_shut hpow (hwake hp) ho]
    case extestShut => rw [hextest, tapExtest_shut hpow (hwake hp) ho]
    case chal => rw [hchal, tapChallenge_drawn hpow (hwake hp) hlc hjob hrng]; rfl
    case resp =>
      have hlc : s.toDev.lc.state ≠ 0xEE := by
        intro h
        simp [firstFail, certBefore, lcLocked, h] at hcert
      have hfit : Config.fit 160 c = c := hlen ▸ fit_self c
      have hlog : firstFail (logGate s.toDev) = none := by simp [firstFail, logGate, hlog, hcrit]
      rw [hresp, tapResponse_awake hpow (hwake hp), hfit, respond_pass hlc hjob hcheck hserve hlog hcert]
      rfl
    case tokenBusy => rw [hunlock, presentToken_busy hpow (hwake hp) hb]
    case tokenFails =>
      have hfirst : firstFail ([(lcLocked s.toDev, ST.locked), (decide (8 ≤ s.dbg.tokenFails.toNat), ST.tokenBad), (s.dbg.grant != 0, ST.denied)] ++ logGate s.toDev) = some ST.tokenBad := by
        simp [firstFail, lcLocked_not hlc, hfails]
      rw [hunlock, presentToken_free hpow (hwake hp) hf, hfirst]
    case tokenGrant =>
      have hfirst : firstFail ([(lcLocked s.toDev, ST.locked), (decide (8 ≤ s.dbg.tokenFails.toNat), ST.tokenBad), (s.dbg.grant != 0, ST.denied)] ++ logGate s.toDev) = some ST.denied := by
        simp [firstFail, lcLocked_not hlc, Nat.not_le.mpr hfails, show s.dbg.grant ≠ 0#2 from hg]
      rw [hunlock, presentToken_free hpow (hwake hp) hf, hfirst]
    case token =>
      have hfirst : firstFail ([(lcLocked s.toDev, ST.locked), (decide (8 ≤ s.dbg.tokenFails.toNat), ST.tokenBad), (s.dbg.grant != 0, ST.denied)] ++ logGate s.toDev) = none := by
        simp [firstFail, lcLocked_not hlc, hfails, hg, logGate, hlog, hcrit]
      have hfit : Config.fit 16 t = t := hlen ▸ fit_self t
      rw [hunlock, presentToken_free hpow (hwake hp) hf, hfirst, hfit]
    case bypassDown =>
      rw [hbypass]
      simp only [tapBypass, tapUp, hv, Bool.and_false, Bool.false_eq_true, if_false] <;> rfl
    case idcodeDown =>
      rw [hidcode]
      simp only [tapIdcode, tapUp, hv, Bool.and_false, Bool.false_eq_true, if_false] <;> rfl
  · intro s env d hext hd
    subst hd
    have hleave := leaveExtest_reset (d := s.toDev) hext env
    refine ⟨?_, ?_, ?_, fun t hpow => ?_, fun cert t i n hp => ?_⟩
    · exact congrArg (fun d => Host.Outcome.next (on s d)) hleave
    · exact congrArg (fun d => Host.Outcome.next (on s (tapBypass d))) hleave
    · exact congrArg (fun d => Host.Outcome.next (on s (tapIdcode d))) hleave
    · have hrow := (tapReset_awake hpow env).trans (leaveExtest_reset (d := setInstr s.toDev .idcode) (by exact hext) env)
      exact congrArg (fun d => Host.Outcome.next (on s d)) hrow
    · have hby := leaveBy_reset (d := s.toDev) hext hp env
      exact ⟨congrArg (fun d => Host.Outcome.next (on s (tapSample d))) hby, congrArg (fun d => Host.Outcome.next (on s (tapChallenge d))) hby,
        congrArg (fun d => Host.Outcome.next (on s (tapResponse d cert))) hby, congrArg (fun d => Host.Outcome.next (on s (presentToken d t i.val n.val))) hby⟩

end Sys2Proof.Machine
end

section
/-! Custodian cards: a Tack issued, presented, exchanged and counted; the ends of the windows. -/

namespace Sys2Proof.Machine

open Sys2Proof.Safety

theorem readDesc_cardCmd (d : Dev) (x : Slot) (k : CardCmd) (desc : CardDesc) :
    readDesc (cardCmd d x k) x desc = setSlot (cardCmd d x k) x { slotOf d x with index := desc.index.setWidth 4, owner := desc.owner } := by
  simp only [readDesc, slotOf_cardCmd]

section
variable {d : Dev} {x : Slot} {desc : CardDesc}

/-- A slot whose card takes part in nothing yet. -/
theorem slot_free (hp : (slotOf d x).phase = .transfer) (he : (slotOf d x).exch = none) (hr : d.glb.power = .run) :
    ((slotOf d x).phase != .transfer || (slotOf d x).exch.isSome || !cardsRun d) = false := by
  simp [hp, he, cardsRun, hr]

theorem issueTack_reads {o : Nat} {w : Owner} {n : Enrol} (hp : (slotOf d x).phase = .transfer) (he : (slotOf d x).exch = none) (hr : d.glb.power = .run)
    (henr : enrolling d = some (o, w, n)) (hrng : drbgReady d = true) (hidle : ∀ y e, (slotOf d y).exch = some e → e.issue = false) :
    issueTack d x desc =
      if desc.format != 0xC101 || desc.tackState != 0 then slotEnds (readDesc (cardCmd d x (.cmd17 0)) x desc) x CardFault.cardBad
      else beginExchange (readDesc (cardCmd d x (.cmd17 0)) x desc) x true o n.next desc (zeros 48) (Config.fit 48 (Config.shareRaw n.secret n.m n.n n.next)) := by
  have hbusy : ([Slot.a, Slot.b].any fun y => (match (slotOf d y).exch with | some e => e.issue | none => false)) = false := by
    refine List.any_eq_false.mpr fun y _ => ?_
    cases hy : (slotOf d y).exch with
    | none => simp
    | some e => simp [hidle y e hy]
  unfold issueTack
  rw [slot_free hp he hr]
  simp only [Bool.false_eq_true, if_false, henr, hrng, Bool.not_true, Bool.or_false]
  rw [if_neg]
  intro h
  exact Bool.false_ne_true (hbusy.symm.trans h)

theorem presentTack_reads {z : Session} (hp : (slotOf d x).phase = .transfer) (he : (slotOf d x).exch = none) (hr : d.glb.power = .run)
    (hz : d.crd.session = some z) (hrng : drbgReady d = true) :
    presentTack d x desc =
      if desc.format != 0xC101 || desc.tackState != 1 then slotEnds (readDesc (cardCmd d x (.cmd17 0)) x desc) x CardFault.cardBad
      else if desc.owner.toNat != z.owner then slotEnds (readDesc (cardCmd d x (.cmd17 0)) x desc) x CardFault.wrongOwner
      else match (ownerOf d z.owner).bind fun w => tget w.shares desc.index.toNat with
        | none => slotEnds (readDesc (cardCmd d x (.cmd17 0)) x desc) x CardFault.cardBad
        | some sh =>
          if sh.serial != desc.serial || sh.pub != desc.pub then slotEnds (readDesc (cardCmd d x (.cmd17 0)) x desc) x CardFault.cardBad
          else beginExchange (readDesc (cardCmd d x (.cmd17 0)) x desc) x false z.owner desc.index.toNat desc z.digest [] := by
  have howner : ownerOf (readDesc (cardCmd d x (.cmd17 0)) x desc) z.owner = ownerOf d z.owner := by cases x <;> rfl
  unfold presentTack
  rw [slot_free hp he hr]
  simp only [Bool.false_eq_true, if_false, hz, hrng, Bool.not_true, howner] <;> rfl

end

theorem cardCmds_reply (d : Dev) (x : Slot) (b : Bool) :
    cardCmds d x ([.cmd13, .cmd17 2] ++ if b then [.cmd17 0] else []) =
      if b then cardCmd (cardCmd (cardCmd d x .cmd13) x (.cmd17 2)) x (.cmd17 0) else cardCmd (cardCmd d x .cmd13) x (.cmd17 2) := by
  cases b <;> rfl

theorem setSlot_pkeWait (d : Dev) (x : Slot) (c : CardSlot) : (setSlot d x c).pkeWait = d.pkeWait := by
  cases x <;> rfl

/-- A reply in the exchange goes to an engine of the secure world. -/
theorem cardReplied_answered {d : Dev} {x : Slot} {e : Exchange} {r : CardReplyBlock} {desc : CardDesc} (he : (slotOf d x).exch = some e)
    (hgo : (e.reply.isSome || (slotOf d x).phase != .exchange || !cardsRun d) = false) :
    cardReplied d x r desc =
      let d' := cardCmd (cardCmd d x .cmd13) x (.cmd17 2)
      let d' := setSlot (if e.issue then cardCmd d' x (.cmd17 0) else d') x { slotOf d x with busFails := 0, exch := some { e with reply := some (r, desc) } }
      { d' with pkeWait := d.pkeWait ++ [cardOp (.cardExchange (x == .b) e.id)] } := by
  have hwait : (if e.issue then cardCmd (cardCmd (cardCmd d x .cmd13) x (.cmd17 2)) x (.cmd17 0) else cardCmd (cardCmd d x .cmd13) x (.cmd17 2)).pkeWait = d.pkeWait := by
    cases e.issue <;> rfl
  simp only [cardReplied, he, hgo, Bool.false_eq_true, if_false, cardCmds_reply, setSlot_pkeWait, hwait]

theorem cardReplied_none {d : Dev} {x : Slot} {r : CardReplyBlock} {desc : CardDesc} (h : (slotOf d x).exch = none ∨ d.glb.power ≠ .run) : cardReplied d x r desc = d := by
  rcases h with h | h
  · simp only [cardReplied, h]
  · have hdown : cardsRun d = false := by simp [cardsRun, h]
    cases he : (slotOf d x).exch with
    | none => simp only [cardReplied, he]
    | some e => simp [cardReplied, he, hdown]

theorem closeSession_open {d : Dev} {z : Session} (hz : d.crd.session = some z) (sub : Half) :
    closeSession d sub = signal (logRec { d with crd := { d.crd with session := none } } (recEvent "CRD" sub (b4 (rQStatus d)))) .pf 6 := by
  simp only [closeSession, hz]

theorem windowOver_open {d : Dev} {z : Session} {w : Owner} (hz : d.crd.session = some z) (hw : ownerOf d z.owner = some w) :
    windowOver d = decide (z.since + w.window * secondCycles ≤ d.now) := by
  simp only [windowOver, hz, show tget d.key.owners z.owner = some w from hw]

theorem enrolOver_enrolling {d : Dev} {o : Nat} {w : Owner} {n : Enrol} (hw : ownerOf d o = some w) (hn : w.enrol = some n) :
    enrolOver d o = decide (n.since + w.window * secondCycles ≤ d.now) := by
  simp only [enrolOver, show tget d.key.owners o = some w from hw, hn]

theorem lapseEnrolment_enrolling {d : Dev} {o : Nat} {w : Owner} {n : Enrol} (hw : ownerOf d o = some w) (hn : w.enrol = some n) :
    lapseEnrolment d o =
      if n.creation then deleteOwner (logRec (dropIssue d o) (recEvent "CRD" 0x0204 [BitVec.ofNat 8 o, BitVec.ofNat 8 n.next])) o
      else saveTable (setOwner (logRec (dropIssue d o) (recEvent "CRD" 0x0204 [BitVec.ofNat 8 o, BitVec.ofNat 8 n.next])) o { w with shares := n.oldShares, enrol := none }) := by
  simp only [lapseEnrolment, hw, hn]

/-! ### A counted Tack -/

theorem exchangeDone_session (d : Dev) (x : Slot) : (exchangeDone d x).crd.session = d.crd.session := by
  cases x <;> rfl

theorem length_filter_or {α : Type} [DecidableEq α] {l : List α} (hl : l.Nodup) {p : α → Bool} {k : α} (hk : k ∈ l) (hp : p k = false) :
    (l.filter fun i => p i || decide (i = k)).length = (l.filter p).length + 1 := by
  induction l with
  | nil => cases hk
  | cons x l ih =>
    obtain ⟨hx, hl⟩ := List.nodup_cons.mp hl
    rcases List.mem_cons.mp hk with rfl | hk
    · have hrest : (l.filter fun i => p i || decide (i = k)) = l.filter p := List.filter_congr fun i hi => by
        simp [show i ≠ k from fun h => hx (h ▸ hi)]
      simp [hp, hrest]
    · have hne : x ≠ k := fun h => hx (h ▸ hk)
      have := ih hl hk
      cases hpx : p x <;> simp [List.filter_cons, hpx, hne, this]

/-- The byte with one more bit set. -/
theorem getLsbD_or_bit (b : Byte) {k i : Nat} (hi : i < 8) : (b ||| BitVec.ofNat 8 (2 ^ k)).getLsbD i = (b.getLsbD i || decide (i = k)) := by
  rw [BitVec.getLsbD_or, BitVec.getLsbD_ofNat, Nat.testBit_two_pow]
  simp [hi, eq_comm]

theorem popCount8_or_bit {b : Byte} {k : Nat} (hk : k < 8) (h : b.getLsbD k = false) : popCount8 (b ||| BitVec.ofNat 8 (2 ^ k)) = popCount8 b + 1 := by
  have hbits : ((List.range 8).filter fun i => (b ||| BitVec.ofNat 8 (2 ^ k)).getLsbD i) = (List.range 8).filter fun i => b.getLsbD i || decide (i = k) :=
    List.filter_congr fun i hi => getLsbD_or_bit b (List.mem_range.mp hi)
  rw [popCount8, hbits]
  exact length_filter_or List.nodup_range (List.mem_range.mpr hk) h

theorem signal_crd (d : Dev) (f : Func) (v : Nat) : (signal d f v).crd = d.crd := by
  obtain ⟨_, _, h⟩ := signal_frame d f v
  rw [h]

theorem logRec_crd (d : Dev) (r : Record) : (logRec d r).crd = d.crd := by
  obtain ⟨_, h⟩ := logRec_frame d r
  rw [h]

theorem slotFault_slot (d : Dev) (x : Slot) (f : BitVec 4) (supply : Bool) (phase : Phase) :
    (slotFault d x f supply phase).crd = (setSlot d x { slotOf d x with fault := f, exch := none, supply, phase }).crd := by
  rw [slotFault, signal_crd]
  exact logRec_crd ..

section
variable {d : Dev} {x : Slot} {e : Exchange} {z : Session} (hz : d.crd.session = some z) (howner : z.owner = e.owner) (hdig : slice e.request 152 48 = z.digest)
include hz howner hdig

/-- A Tack of the session's owner and digest whose index has not counted is counted. -/
theorem countTack_counts (hbit : z.indices.getLsbD (e.index - 1) = false) :
    (countTack d x e).crd.session = some { z with
      indices := z.indices ||| BitVec.ofNat 8 (2 ^ (e.index - 1)),
      met := decide (z.mEff ≤ popCount8 (z.indices ||| BitVec.ofNat 8 (2 ^ (e.index - 1)))),
      countedB := if x == .b then some (e.index, (exchangeDone d x).now) else z.countedB } := by
  have hs : (exchangeDone d x).crd.session = some z := (exchangeDone_session d x).trans hz
  have hmine : (z.owner != e.owner || slice e.request 152 48 != z.digest) = false := by simp [howner, hdig]
  unfold countTack
  simp only [hs, hmine, hbit, Bool.false_eq_true, if_false, signal_crd]

/-- One whose index has counted is a duplicate. -/
theorem countTack_dup (hbit : z.indices.getLsbD (e.index - 1) = true) (hb : x = .b ∨ z.countedB = none) :
    countTack d x e = slotFault (exchangeDone d x) x CardFault.dup true .done := by
  have hs : (exchangeDone d x).crd.session = some z := (exchangeDone_session d x).trans hz
  have hmine : (z.owner != e.owner || slice e.request 152 48 != z.digest) = false := by simp [howner, hdig]
  have hlone : (x == .a && z.countedB == some (e.index, (exchangeDone d x).now)) = false := by
    rcases hb with rfl | hb
    · rfl
    · simp [hb]
  unfold countTack
  simp only [hs, hmine, hbit, hlone, Bool.false_eq_true, if_false, if_true]

end

/-- Settles O49: the descriptor read decides the exchange or the fault; a count adds the index of its Tack to the session's. -/
theorem tacksAreIssuedAndCounted : Obligations.TacksAreIssuedAndCounted := by
  refine ⟨?_, ?_⟩
  · intro s x c desc d hc
    subst hc
    have hissue : exec (.issue x desc) s = .next (on s (issueTack s.toDev x desc)) := rfl
    have hpresent : exec (.present x desc) s = .next (on s (presentTack s.toDev x desc)) := rfl
    have hreply : ∀ r, exec (.cardReply x r desc) s = .next (on s (cardReplied s.toDev x r desc)) := fun _ => rfl
    have hwindow : exec .quorumWindowExpire s = .next (on s (if windowOver s.toDev then closeSession s.toDev 0x0201 else s.toDev)) := rfl
    have hlapse : ∀ o : Fin 256, exec (.enrolmentWindowLapse o) s = .next (on s (if enrolOver s.toDev o.val then lapseEnrolment s.toDev o.val else s.toDev)) := fun _ => rfl
    refine ⟨fun o w n hp he hr henr hrng hidle hd => ?issues, fun z w sh hp he hr hz hrng hd => ?presents, fun e r he hre hp hr => ?replies, fun r hno => ?noReply,
      fun z w hz hw => ⟨fun hover => ?closes, fun hin => ?staysOpen⟩, fun hz => ?noSession, fun o w n hw hn hd => ⟨fun hover hcr => ?unborn, fun hover hcr => ?restored, fun hin => ?goesOn⟩⟩
    case issues =>
      rw [hissue, issueTack_reads hp he hr henr hrng hidle, readDesc_cardCmd, ← hd]
      refine ⟨fun hf ht => ?_, fun hbad => ?_⟩
      · rw [if_neg (by simp [hf, ht])]
      · rw [if_pos (by simpa [bne_iff_ne] using hbad)]
        rfl
    case presents =>
      rw [hpresent, presentTack_reads hp he hr hz hrng, readDesc_cardCmd, ← hd]
      have hblank : desc.format = 0xC101 → desc.tackState = 1 → (desc.format != 0xC101 || desc.tackState != 1) = false := fun hf ht => by simp [hf, ht]
      refine ⟨fun hf ht ho hw hsh hser hpub => ?_, fun hf ht ho => ?_, fun hf ht ho hw hsh => ?_, fun hbad => ?_⟩
      · have hbind : ((ownerOf s.toDev z.owner).bind fun w => tget w.shares desc.index.toNat) = some sh := by rw [hw]; exact hsh
        simp only [hblank hf ht, ho, hbind, hser, hpub, bne_self_eq_false, Bool.or_false, Bool.false_eq_true, if_false]
      · simp only [hblank hf ht, bne_iff_ne.mpr ho, Bool.false_eq_true, if_false, if_true] <;> rfl
      · rcases hsh with hnone | ⟨hsome, hbad⟩
        · have hbind : ((ownerOf s.toDev z.owner).bind fun w => tget w.shares desc.index.toNat) = none := by rw [hw]; exact hnone
          simp only [hblank hf ht, ho, hbind, bne_self_eq_false, Bool.false_eq_true, if_false] <;> rfl
        · have hbind : ((ownerOf s.toDev z.owner).bind fun w => tget w.shares desc.index.toNat) = some sh := by rw [hw]; exact hsome
          have hother : (sh.serial != desc.serial || sh.pub != desc.pub) = true := by simpa [bne_iff_ne] using hbad
          simp only [hblank hf ht, ho, hbind, hother, bne_self_eq_false, Bool.false_eq_true, if_false, if_true] <;> rfl
      · rw [if_pos (by simpa [bne_iff_ne] using hbad)]
        rfl
    case replies =>
      have hgo : (e.reply.isSome || (slotOf s.toDev x).phase != .exchange || !cardsRun s.toDev) = false := by simp [hre, hp, cardsRun, hr]
      rw [hreply, cardReplied_answered he hgo]
      rfl
    case noReply =>
      rw [hreply, cardReplied_none hno, toDev_on]
    case closes => rw [hwindow, windowOver_open hz hw, if_pos (by simpa using hover), closeSession_open hz]
    case staysOpen =>
      rw [hwindow, windowOver_open hz hw, if_neg (by simpa using hin)]
      rfl
    case noSession =>
      have hno : windowOver s.toDev = false := by simp only [windowOver, hz]
      rw [hwindow, hno]
      rfl
    case unborn => rw [hlapse, enrolOver_enrolling hw hn, if_pos (by simpa using hover), lapseEnrolment_enrolling hw hn, if_pos hcr, ← hd]
    case restored =>
      have howners : d.key.owners = s.key.owners := by
        obtain ⟨_, hlog⟩ := logRec_frame (dropIssue s.toDev o.val) (recEvent "CRD" 0x0204 [BitVec.ofNat 8 o.val, BitVec.ofNat 8 n.next])
        rw [hd, hlog]
        rfl
      rw [hlapse, enrolOver_enrolling hw hn, if_pos (by simpa using hover), lapseEnrolment_enrolling hw hn, if_neg (by simp [hcr]), ← hd, setOwner, howners]
    case goesOn =>
      rw [hlapse, enrolOver_enrolling hw hn, if_neg (by simpa using hin)]
      rfl
  · intro s x e z hz howner hdig hlo hhi
    have hk : e.index - 1 < 8 := by omega
    refine ⟨fun hbit => ⟨_, countTack_counts hz howner hdig hbit, rfl, rfl, fun i hi => getLsbD_or_bit _ hi, ?_⟩, fun hbit hb => ?_⟩
    · rw [popCount8_or_bit hk hbit]
    · rw [countTack_dup hz howner hdig hbit hb]
      have hcrd := slotFault_slot (exchangeDone s x) x CardFault.dup true .done
      refine ⟨(congrArg Crd.session hcrd).trans ?_, ?_⟩
      · exact (show _ = (exchangeDone s x).crd.session by cases x <;> rfl).trans ((exchangeDone_session s x).trans hz)
      · cases x with
        | a => exact congrArg (fun c => c.a.fault) hcrd
        | b => exact congrArg (fun c => c.b.fault) hcrd

end Sys2Proof.Machine
end

section
/-! Array reads of the boot flash: held under a gate, and witnessed region by region. -/

namespace Sys2Proof.Machine

open Sys2Proof.Safety

/-! ### Each region of the manifest in turn -/

/-- One region's turn: where `hit` says so, its state becomes `g` of the state before. -/
def regionTurn (hit : ManRegion → RegionSt → Bool) (g : ManRegion → RegionSt → RegionSt) (d : Dev) (a : ManRegion × Nat) : Dev :=
  if hit a.1 (regionSt d a.2 a.1.base) then setRegion d a.2 (g a.1 (regionSt d a.2 a.1.base)) else d

section
variable {hit : ManRegion → RegionSt → Bool} {g : ManRegion → RegionSt → RegionSt}

theorem regionTurns_frame (l : List (ManRegion × Nat)) (d : Dev) : ∃ r, l.foldl (regionTurn hit g) d = { d with bwt := { d.bwt with regions := r } } := by
  induction l generalizing d with
  | nil => exact ⟨_, rfl⟩
  | cons a l ih =>
    rw [List.foldl_cons, regionTurn]
    split
    · obtain ⟨r, h⟩ := ih (setRegion d a.2 (g a.1 (regionSt d a.2 a.1.base)))
      exact ⟨r, h⟩
    · exact ih d

theorem regionSt_turn_ne {d : Dev} {a : ManRegion × Nat} {i : Nat} (h : i ≠ a.2) (base : Nat) : regionSt (regionTurn hit g d a) i base = regionSt d i base := by
  unfold regionTurn
  split
  · exact regionSt_setRegion_ne _ _ h
  · rfl

theorem regionSt_turns_other (l : List (ManRegion × Nat)) {i : Nat} (h : ∀ a ∈ l, a.2 ≠ i) (d : Dev) (base : Nat) : regionSt (l.foldl (regionTurn hit g) d) i base = regionSt d i base := by
  induction l generalizing d with
  | nil => rfl
  | cons a l ih =>
    have ha : i ≠ a.2 := fun e => h a List.mem_cons_self e.symm
    exact (ih (fun x hx => h x (List.mem_cons_of_mem _ hx)) _).trans (regionSt_turn_ne ha base)

/-- Each listed region takes its turn once. -/
theorem regionSt_turns {l : List (ManRegion × Nat)} (hl : (l.map Prod.snd).Nodup) {a : ManRegion × Nat} (ha : a ∈ l) (d : Dev) :
    regionSt (l.foldl (regionTurn hit g) d) a.2 a.1.base =
      if hit a.1 (regionSt d a.2 a.1.base) then g a.1 (regionSt d a.2 a.1.base) else regionSt d a.2 a.1.base := by
  induction l generalizing d with
  | nil => cases ha
  | cons b l ih =>
    rw [List.map_cons, List.nodup_cons] at hl
    obtain ⟨hb, hl⟩ := hl
    rw [List.foldl_cons]
    rcases List.mem_cons.mp ha with rfl | ha
    · refine (regionSt_turns_other l (fun x hx (e : x.2 = a.2) => hb (e ▸ List.mem_map_of_mem hx)) _ _).trans ?_
      unfold regionTurn
      split
      · exact tgetD_tset_self ..
      · rfl
    · have hne : a.2 ≠ b.2 := fun e => hb (e ▸ List.mem_map_of_mem ha)
      rw [ih hl ha, regionSt_turn_ne hne]

end

/-! ### What a read does to a region -/

theorem markHeld_turns (d : Dev) (addr n : Nat) :
    markHeld d addr n = (manRegions d).foldl (regionTurn (fun r x => r.gate && touches r addr n && !x.verified) fun _ x => { x with heldFf := true }) d := rfl

/-- The state of a region after a read that touches it has been witnessed. -/
def witnessed (addr : Nat) (bytes : Bytes) (r : ManRegion) (x : RegionSt) : RegionSt :=
  let lo := max addr r.base
  let part := slice bytes (lo - addr) (min (addr + bytes.length) (r.limit + 1) - lo)
  if x.next < lo then { x with reads := x.reads + 1, gap := true }
  else if x.gap then { x with reads := x.reads + 1, reread := x.reread + min part.length (x.next - lo) }
  else
    let y := { x with reads := x.reads + 1, reread := x.reread + min part.length (x.next - lo), content := x.content ++ part.drop (x.next - lo), next := x.next + (part.drop (x.next - lo)).length }
    { y with complete := isComplete r y, matched := isMatch r y }

theorem witnessPart_eq (d : Dev) (r : ManRegion) (i addr : Nat) (bytes : Bytes) : witnessPart d r i addr bytes = setRegion d i (witnessed addr bytes r (regionSt d i r.base)) := by
  unfold witnessPart witnessed
  dsimp only
  split
  · rfl
  · split <;> rfl

theorem witness_eq (d : Dev) (addr : Nat) (bytes : Bytes) :
    witness d addr bytes =
      let j := (openJournal d).bwt.journal
      let d' := setJournal (openJournal d) { j with trace := j.trace ++ leBytes 4 addr ++ leBytes 4 bytes.length ++ bytes, reads := j.reads + 1,
                                                    outside := j.outside + outsideCount (openJournal d) addr bytes.length }
      (manRegions d').foldl (regionTurn (fun r _ => touches r addr bytes.length) (witnessed addr bytes)) d' := by
  have hturn : ∀ d, ∀ ri : ManRegion × Nat, (if touches ri.1 addr bytes.length then witnessPart d ri.1 ri.2 addr bytes else d) =
      regionTurn (fun r _ => touches r addr bytes.length) (witnessed addr bytes) d ri := fun d ri => by rw [witnessPart_eq]; rfl
  unfold witness
  simp only [hturn]

/-- The bytes of the part of a read that falls on a region, from the region's next byte on. -/
theorem part_drop (got : Bytes) {a lo nx hi : Nat} (ha : a ≤ lo) (hn : lo ≤ nx) : (slice got (lo - a) (hi - lo)).drop (nx - lo) = slice got (nx - a) (hi - nx) := by
  simp only [slice, List.drop_take, List.drop_drop]
  rw [show lo - a + (nx - lo) = nx - a by omega, show hi - lo - (nx - lo) = hi - nx by omega]

theorem length_slice_in (got : Bytes) {off len : Nat} (h : off + len ≤ got.length) : (slice got off len).length = len := by
  rw [slice, List.length_take, List.length_drop]
  omega

section
variable {a : Nat} {got : Bytes} {r : ManRegion} {o : RegionSt} {lo hi : Nat} (hlo : lo = max a r.base) (hhi : hi = min (a + got.length) (r.limit + 1))
include hlo hhi

theorem witnessed_gap (h : o.next < lo) : witnessed a got r o = { o with reads := o.reads + 1, gap := true } := by
  subst hlo
  simp only [witnessed, if_pos h]

theorem witnessed_behindGap (hin : lo ≤ hi) (h : lo ≤ o.next) (hg : o.gap = true) :
    witnessed a got r o = { o with reads := o.reads + 1, reread := o.reread + min (hi - lo) (o.next - lo) } := by
  have hlen : (slice got (lo - a) (hi - lo)).length = hi - lo := length_slice_in got (by omega)
  subst hlo hhi
  simp only [witnessed, if_neg (Nat.not_lt.mpr h), if_pos hg, hlen]

theorem witnessed_next (hin : lo ≤ hi) (h : lo ≤ o.next) (hg : o.gap = false) :
    witnessed a got r o =
      let y := { o with reads := o.reads + 1, reread := o.reread + min (hi - lo) (o.next - lo), content := o.content ++ slice got (o.next - a) (hi - o.next), next := max o.next hi }
      { y with complete := isComplete r y, matched := isMatch r y } := by
  have hlen : (slice got (lo - a) (hi - lo)).length = hi - lo := length_slice_in got (by omega)
  have hnew := part_drop got (hi := hi) (show a ≤ lo by omega) h
  have hnext : o.next + (slice got (o.next - a) (hi - o.next)).length = max o.next hi := by
    by_cases hover : hi ≤ o.next
    · rw [Nat.sub_eq_zero_of_le hover, slice, List.take_zero, List.length_nil]; omega
    · rw [length_slice_in got (by omega)]; omega
  subst hlo hhi
  simp only [witnessed, if_neg (Nat.not_lt.mpr h), hg, Bool.false_eq_true, if_false, hlen, hnew, hnext]

end

theorem isMatch_iff (r : ManRegion) (x : RegionSt) : isMatch r x = true ↔ r.limit < x.next ∧ allZero r.digest = false ∧ Config.sha384 x.content = r.digest := by
  simp [isMatch, isComplete, and_assoc]

/-! ### The bytes of a read -/

theorem length_received (d : Dev) (l : Bytes) : ∀ a, (received d a l).length = l.length := by
  induction l with
  | nil => exact fun _ => rfl
  | cons b l ih => exact fun a => congrArg Nat.succ (ih (a + 1))

theorem received_get (d : Dev) (l : Bytes) : ∀ a k b, l[k]? = some b → (received d a l)[k]? = some (if gated d (a + k) then 0xFF else b) := by
  induction l with
  | nil => exact fun a k b h => by simp at h
  | cons x l ih =>
    intro a k b h
    cases k with
    | zero =>
      obtain rfl : x = b := by simpa using h
      simp [received]
    | succ k =>
      have := ih (a + 1) k b (by simpa using h)
      rw [show a + (k + 1) = a + 1 + k by omega]
      simpa [received] using this

/-- Is a byte of the read under an unverified gate. -/
def heldRead (d : Dev) (a n : Nat) : Bool := (List.range n).any fun k => gated d (a + k)

/-- The device after what a gate holds, and whether it held, has been counted. -/
def heldCounted (d : Dev) (a n : Nat) : Dev :=
  if heldRead d a n then { markHeld d a n with bwt := { (markHeld d a n).bwt with holdFailed := satInc d.bwt.holdFailed } }
  else if (manRegions d).any fun ri => ri.1.gate && touches ri.1 a n then { d with bwt := { d.bwt with holdPassed := satInc d.bwt.holdPassed } } else d

theorem arrayRead_live {d : Dev} (hl : bwhLive d = true) (hw : asleep d = false) (a : Nat) (flash : Bytes) :
    arrayRead d a flash = emit (witness (heldCounted d a flash.length) a (received d a flash)) (.flashAnswer (received d a flash)) := by
  have hcount : (markHeld d a flash.length).bwt.holdFailed = d.bwt.holdFailed := by
    obtain ⟨r, h⟩ := regionTurns_frame (hit := fun r x => r.gate && touches r a flash.length && !x.verified) (g := fun _ x => { x with heldFf := true }) (manRegions d) d
    rw [markHeld_turns, h]
  simp only [arrayRead, hl, hw, Bool.not_true, Bool.false_eq_true, if_false, heldCounted, heldRead, hcount]

/-- A byte of a gated, unverified region that the read touches is held. -/
theorem heldRead_of_gate {d : Dev} {a n : Nat} {x : ManRegion × Nat} (hx : x ∈ manRegions d) (hgate : x.1.gate = true) (hver : (regionSt d x.2 x.1.base).verified = false)
    (hin : x.1.base ≤ x.1.limit) (hn : n ≠ 0) (ht : touches x.1 a n = true) : heldRead d a n = true := by
  have hlim : a ≤ x.1.limit ∧ x.1.base < a + n := by simpa [touches] using ht
  refine List.any_eq_true.mpr ⟨max a x.1.base - a, List.mem_range.mpr (by omega), ?_⟩
  have haddr : a + (max a x.1.base - a) = max a x.1.base := by omega
  cases hman : d.bwt.man with
  | none => simp [manRegions, hman] at hx
  | some m =>
    rw [manRegions, hman] at hx
    simp only [gated, hman, haddr, List.any_eq_true]
    refine ⟨x, hx, ?_⟩
    have h1 : x.1.base ≤ max a x.1.base := Nat.le_max_right ..
    have h2 : max a x.1.base ≤ x.1.limit := by omega
    simp [hgate, hver, h1, h2]

theorem heldCounted_frame (d : Dev) (a n : Nat) :
    ∃ r, heldCounted d a n = { d with bwt := { d.bwt with regions := r, holdFailed := if heldRead d a n then satInc d.bwt.holdFailed else d.bwt.holdFailed, holdPassed := (heldCounted d a n).bwt.holdPassed } } ∧
      (heldRead d a n = true → (heldCounted d a n).bwt.holdPassed = d.bwt.holdPassed) := by
  unfold heldCounted
  cases hheld : heldRead d a n with
  | true =>
    obtain ⟨r, h⟩ := regionTurns_frame (hit := fun r x => r.gate && touches r a n && !x.verified) (g := fun _ x => { x with heldFf := true }) (manRegions d) d
    rw [markHeld_turns, h]
    exact ⟨r, rfl, fun _ => rfl⟩
  | false =>
    simp only [Bool.false_eq_true, if_false]
    split
    · exact ⟨_, rfl, fun h => by cases h⟩
    · exact ⟨_, rfl, fun h => by cases h⟩

theorem regionSt_held {d : Dev} {a n : Nat} (h : heldRead d a n = true) (i base : Nat) : regionSt (heldCounted d a n) i base = regionSt (markHeld d a n) i base := by
  rw [heldCounted, if_pos h]
  rfl

theorem regionSt_unheld {d : Dev} {a n : Nat} (h : heldRead d a n = false) (i base : Nat) : regionSt (heldCounted d a n) i base = regionSt d i base := by
  rw [heldCounted, h, if_neg Bool.false_ne_true]
  split <;> rfl

theorem regionSt_markHeld {d : Dev} {x : ManRegion × Nat} (hx : x ∈ manRegions d) (a n : Nat) :
    regionSt (markHeld d a n) x.2 x.1.base =
      if x.1.gate && touches x.1 a n && !(regionSt d x.2 x.1.base).verified then { regionSt d x.2 x.1.base with heldFf := true } else regionSt d x.2 x.1.base := by
  rw [markHeld_turns]
  exact regionSt_turns manRegions_nodup hx d

/-- A region the read misses is left alone; one it touches has its flag of a held read set where its gate is unverified. -/
theorem regionSt_heldCounted_missed {d : Dev} {a n : Nat} {x : ManRegion × Nat} (hx : x ∈ manRegions d) (ht : touches x.1 a n = false) :
    regionSt (heldCounted d a n) x.2 x.1.base = regionSt d x.2 x.1.base := by
  cases hheld : heldRead d a n with
  | true =>
    rw [regionSt_held hheld, regionSt_markHeld hx, ht]
    simp only [Bool.and_false, Bool.false_and, Bool.false_eq_true, if_false]
  | false => exact regionSt_unheld hheld ..

theorem regionSt_heldCounted {d : Dev} {a n : Nat} {x : ManRegion × Nat} (hx : x ∈ manRegions d) (ht : touches x.1 a n = true) (hin : x.1.base ≤ x.1.limit) (hn : n ≠ 0) :
    regionSt (heldCounted d a n) x.2 x.1.base = { regionSt d x.2 x.1.base with heldFf := (regionSt d x.2 x.1.base).heldFf || (x.1.gate && !(regionSt d x.2 x.1.base).verified) } := by
  cases hheld : heldRead d a n with
  | true =>
    rw [regionSt_held hheld, regionSt_markHeld hx, ht, Bool.and_true]
    cases x.1.gate && !(regionSt d x.2 x.1.base).verified with
    | true => simp only [if_true, Bool.or_true]
    | false => simp only [Bool.false_eq_true, if_false, Bool.or_false]
  | false =>
    have hopen : (x.1.gate && !(regionSt d x.2 x.1.base).verified) = false := Bool.eq_false_iff.2 fun h => by
      obtain ⟨hg, hv⟩ : x.1.gate = true ∧ (regionSt d x.2 x.1.base).verified = false := by simpa using h
      exact Bool.false_ne_true (hheld.symm.trans (heldRead_of_gate hx hg hv hin hn ht))
    rw [regionSt_unheld hheld, hopen, Bool.or_false]

/-- What a witnessed read leaves: the journal's entry and the turn of each region it touches. -/
theorem witness_parts (d : Dev) (a : Nat) (got : Bytes) :
    ∃ r at_ st o, witness d a got = { d with bwt := { d.bwt with regions := r, journal := { d.bwt.journal with
        opened := true, openedAt := at_, firstStamp := st, trace := d.bwt.journal.trace ++ leBytes 4 a ++ leBytes 4 got.length ++ got, reads := d.bwt.journal.reads + 1, outside := o } } } := by
  rw [witness_eq]
  dsimp only
  have hopen : ∃ at_ st, openJournal d = { d with bwt := { d.bwt with journal := { d.bwt.journal with opened := true, openedAt := at_, firstStamp := st } } } := by
    unfold openJournal
    split
    next h => exact ⟨d.bwt.journal.openedAt, d.bwt.journal.firstStamp, by rw [← h]⟩
    · exact ⟨_, _, rfl⟩
  obtain ⟨at_, st, h⟩ := hopen
  rw [h]
  obtain ⟨r, hr⟩ := regionTurns_frame (hit := fun r _ => touches r a got.length) (g := witnessed a got) (manRegions (setJournal (openJournal d) { (openJournal d).bwt.journal with
    trace := (openJournal d).bwt.journal.trace ++ leBytes 4 a ++ leBytes 4 got.length ++ got, reads := (openJournal d).bwt.journal.reads + 1,
    outside := (openJournal d).bwt.journal.outside + outsideCount (openJournal d) a got.length })) (setJournal (openJournal d) { (openJournal d).bwt.journal with
    trace := (openJournal d).bwt.journal.trace ++ leBytes 4 a ++ leBytes 4 got.length ++ got, reads := (openJournal d).bwt.journal.reads + 1,
    outside := (openJournal d).bwt.journal.outside + outsideCount (openJournal d) a got.length })
  rw [h] at hr
  exact ⟨r, at_, st, _, hr⟩

theorem regionSt_openJournal (d : Dev) (i base : Nat) : regionSt (openJournal d) i base = regionSt d i base := by
  unfold openJournal
  split <;> rfl

theorem manRegions_openJournal (d : Dev) : manRegions (openJournal d) = manRegions d := by
  unfold openJournal
  split <;> rfl

theorem regionSt_witness {d : Dev} {x : ManRegion × Nat} (hx : x ∈ manRegions d) (a : Nat) (got : Bytes) :
    regionSt (witness d a got) x.2 x.1.base =
      if touches x.1 a got.length then witnessed a got x.1 (regionSt d x.2 x.1.base) else regionSt d x.2 x.1.base := by
  rw [witness_eq]
  dsimp only
  have hmem : ∀ j, x ∈ manRegions (setJournal (openJournal d) j) := fun j => (manRegions_openJournal d).symm ▸ hx
  refine (regionSt_turns manRegions_nodup (hmem _) _).trans ?_
  rw [show ∀ j, regionSt (setJournal (openJournal d) j) x.2 x.1.base = regionSt (openJournal d) x.2 x.1.base from fun _ => rfl, regionSt_openJournal]

/-- A touched region's progress, by where its next byte stands to the part read. -/
theorem witnessed_progress {a : Nat} {got : Bytes} {r : ManRegion} {o : RegionSt} {lo hi : Nat} (hlo : lo = max a r.base) (hhi : hi = min (a + got.length) (r.limit + 1)) (hin : lo ≤ hi)
    {n : RegionSt} (hn : n = witnessed a got r o) :
    n.reads = o.reads + 1 ∧ n.verified = o.verified ∧ n.denied = o.denied ∧ n.heldFf = o.heldFf ∧
    (o.next < lo → n.gap = true ∧ n.content = o.content ∧ n.next = o.next ∧ n.reread = o.reread) ∧
    (lo ≤ o.next → n.gap = o.gap ∧ n.reread = o.reread + min (hi - lo) (o.next - lo)) ∧
    (lo ≤ o.next → o.gap = true → n.content = o.content ∧ n.next = o.next) ∧
    (lo ≤ o.next → o.gap = false → n.next = max o.next hi ∧ n.content = o.content ++ slice got (o.next - a) (hi - o.next) ∧
      n.complete = decide (r.limit < n.next) ∧ (n.matched = true ↔ r.limit < n.next ∧ allZero r.digest = false ∧ Config.sha384 n.content = r.digest)) := by
  subst hn
  rcases Nat.lt_or_ge o.next lo with hgap | hreach
  · have hno : ¬ lo ≤ o.next := Nat.not_le.mpr hgap
    rw [witnessed_gap hlo hhi hgap]
    exact ⟨rfl, rfl, rfl, rfl, fun _ => ⟨rfl, rfl, rfl, rfl⟩, fun h => absurd h hno, fun h => absurd h hno, fun h => absurd h hno⟩
  · have hno : ¬ o.next < lo := Nat.not_lt.mpr hreach
    cases hg : o.gap with
    | true =>
      rw [witnessed_behindGap hlo hhi hin hreach hg]
      exact ⟨rfl, rfl, rfl, rfl, fun h => absurd h hno, fun _ => ⟨hg, rfl⟩, fun _ _ => ⟨rfl, rfl⟩, fun _ h => absurd h (by decide)⟩
    | false =>
      rw [witnessed_next hlo hhi hin hreach hg]
      exact ⟨rfl, rfl, rfl, rfl, fun h => absurd h hno, fun _ => ⟨hg, rfl⟩, fun _ h => absurd h (by decide), fun _ _ => ⟨rfl, rfl, rfl, isMatch_iff _ _⟩⟩

/-! ### The rows -/

theorem hostRead_array {d : Dev} {r : FlashRead} (h : bwhLive d = false ∨ r.op ∈ readOps) : hostRead d r = arrayRead d (flashAddr d r.op r.addr) r.bytes := by
  have hno : ¬ (bwhLive d && !readOps.contains r.op) = true := by
    rcases h with h | h <;> simp [h]
  rw [hostRead, if_neg hno]

theorem arrayRead_pulled {d : Dev} (h : bwhPulled d = true) (a : Nat) (b : Bytes) : arrayRead d a b = emit d (.flashAnswer (List.replicate b.length 0xFF)) := by
  have hdead : bwhLive d = false := by
    simp only [bwhPulled, Bool.and_eq_true, Bool.not_eq_true'] at h
    exact h.1.2
  simp only [arrayRead, hdead, Bool.not_false, if_true, pulledUp, if_pos h]

/-- In STANDBY every byte reads 0xFF, and nothing is witnessed. -/
theorem arrayRead_asleep {d : Dev} (hl : bwhLive d = true) (hs : asleep d = true) (a : Nat) (b : Bytes) :
    ∃ p, arrayRead d a b = emit { d with bwt := { d.bwt with cntPost := p } } (.flashAnswer (List.replicate b.length 0xFF)) := by
  simp only [arrayRead, hl, hs, Bool.not_true, Bool.false_eq_true, if_false, if_true]
  split
  · exact ⟨_, rfl⟩
  · exact ⟨_, rfl⟩

/-- A wake that its power state admits is under way. -/
theorem wake_waking {d : Dev} {c : WakeCause} (h : wakes d.glb.power c = true) : (wake d c).glb.waking = true := by
  have hpme : ∀ d : Dev, (pme d).glb.waking = d.glb.waking := fun d => by
    unfold pme
    split
    · rfl
    · dsimp only
      split
      · rfl
      · split <;> rfl
  unfold wake
  simp only [h, Bool.not_true, Bool.false_eq_true, if_false]
  split
  · split
    · assumption
    · rw [hpme]
  · split
    · assumption
    · rw [hpme]

section
variable {d : Dev} {i : Nat} {x : ManRegion} (hfind : (manRegions d).find? (fun y => decide (y.2 = i)) = some (x, i))
include hfind

theorem gateVerified_open {o : RegionSt} (ho : o = regionSt d i x.base) (hg : x.gate = true) (hv : o.verified = false) (hd : o.denied = false) (hr : o.reverify = false) (c : Bytes) :
    gateVerified d i c =
      if Config.sha384 c == x.digest then setRegion d i { o with verified := true }
      else logRec (alert (signal (setRegion d i { o with denied := true }) .pf 5) 1)
        (recCrit "BWT" 0x0005 [rBwtStatus (alert (signal (setRegion d i { o with denied := true }) .pf 5) 1), BitVec.ofNat 32 i]) := by
  subst ho
  simp only [gateVerified, hfind, hg, hv, hd, hr, Bool.not_true, Bool.or_false, Bool.false_eq_true, if_false]

theorem gateReverify_found {o : RegionSt} (ho : o = regionSt d i x.base) :
    gateReverify d i = if o.reverify && !d.bwt.sr1.getLsbD 0 then setRegion d i { o with reverify := false, denied := false } else d := by
  subst ho
  simp only [gateReverify, hfind]

end

theorem signal_bwt (d : Dev) (f : Func) (v : Nat) : (signal d f v).bwt = d.bwt := by
  obtain ⟨_, _, h⟩ := signal_frame d f v
  rw [h]

theorem alert_bwt (d : Dev) (b : Nat) : (alert d b).bwt = d.bwt := by
  obtain ⟨_, _, h⟩ := alert_frame d b
  rw [h]

theorem alert_set (d : Dev) {b : Nat} (hb : b < 5) : (alert d b).mgt.alert.getLsbD b = true := by
  have hbit : (d.mgt.alert ||| BitVec.ofNat 5 (2 ^ b)).getLsbD b = true := by
    rw [BitVec.getLsbD_or, BitVec.getLsbD_ofNat, Nat.testBit_two_pow]
    simp [hb]
  unfold alert
  dsimp only
  split <;> exact hbit

/-- Settles O51: what a gate holds is counted and read as 0xFF, and each region of the manifest takes its turn of the read. -/
theorem arrayReadsAreGatedAndWitnessed : Obligations.ArrayReadsAreGatedAndWitnessed := by
  intro s r a ha
  have hread : exec (.arrayRead r) s = .next (on s (hostRead (csFall s.toDev) r)) := rfl
  have hverify : ∀ (i : Fin 64) c, exec (.gateVerifyComplete i c) s = .next (on s (gateVerified s.toDev i.val c)) := fun _ _ => rfl
  have hreverify : ∀ i : Fin 64, exec (.gateReverifyStart i) s = .next (on s (gateReverify s.toDev i.val)) := fun _ => rfl
  obtain ⟨w, wn, l, p, o, hfall⟩ := csFall_parts s.toDev
  have hlive : bwhLive (csFall s.toDev) = bwhLive s.toDev := by rw [hfall]; rfl
  have hgated : ∀ k, gated (csFall s.toDev) k = gated s.toDev k := fun k => by rw [hfall]; rfl
  have hregions : manRegions (csFall s.toDev) = manRegions s.toDev := by rw [hfall]; rfl
  have hst : ∀ i base, regionSt (csFall s.toDev) i base = regionSt s.toDev i base := fun i base => by rw [hfall]; rfl
  have haddr : flashAddr (csFall s.toDev) r.op r.addr = a := by rw [ha, hfall]; rfl
  have hbwt : (csFall s.toDev).bwt = s.bwt := by rw [hfall]
  refine ⟨fun hl hw hop => ?live, fun hp => ?pulled, fun hl hp hop => ?standby, fun i x o c hfind ho => ⟨fun hg hv hd hr => ⟨fun hdig => ?verified, fun hdig => ?denied⟩, fun hr hwip => ?again, fun hno => ?notAgain⟩⟩
  case live =>
    rw [← hlive] at hl
    rw [hread, hostRead_array (.inr hop), haddr, arrayRead_live hl hw]
    have hlen := length_received (csFall s.toDev) r.bytes a
    obtain ⟨hr, hheldF, hheldP⟩ := heldCounted_frame (csFall s.toDev) a r.bytes.length
    obtain ⟨wr, wat, wst, wo, hwit⟩ := witness_parts (heldCounted (csFall s.toDev) a r.bytes.length) a (received (csFall s.toDev) a r.bytes)
    generalize hgot : received (csFall s.toDev) a r.bytes = got at *
    refine ⟨_, rfl, ⟨got, ?_, hlen, fun k b hk => ?_, ?_, fun x hx o n ho hn => ?_⟩, ?_, ?_, ?_, fun hex => ?_, fun hall => ?_⟩
    · change Out.flashAnswer got :: (witness _ a got).out = _
      rw [hwit, hheldF]
    · rw [← hgot, received_get _ _ _ _ _ hk, hgated]
    · change (witness _ a got).bwt.journal.trace = _
      rw [hwit, hheldF, hbwt]
    · have hxd : x ∈ manRegions (csFall s.toDev) := hregions ▸ hx
      have hxc : x ∈ manRegions (heldCounted (csFall s.toDev) a r.bytes.length) := by
        rw [hheldF]
        exact hxd
      have hturn : n = if touches x.1 a got.length then witnessed a got x.1 (regionSt (heldCounted (csFall s.toDev) a r.bytes.length) x.2 x.1.base)
          else regionSt (heldCounted (csFall s.toDev) a r.bytes.length) x.2 x.1.base := hn.trans (regionSt_witness hxc a got)
      rw [hlen] at hturn
      refine ⟨fun ht => ?_, fun ht hin hne lo hi hlo hhi => ?_⟩
      · rw [hturn, ht, if_neg Bool.false_ne_true, regionSt_heldCounted_missed hxd ht, hst, ho]
      · rw [if_pos ht, regionSt_heldCounted hxd ht hin (by simpa using hne), hst, ← ho] at hturn
        have hlim : a ≤ x.1.limit ∧ x.1.base < a + r.bytes.length := by simpa [touches] using ht
        exact witnessed_progress hlo (by rw [hlen]; exact hhi) (by omega) hturn
    · change (witness _ a got).bwt.journal.opened = _
      rw [hwit]
    · change (witness _ a got).bwt.journal.reads = _
      rw [hwit, hheldF, hbwt]
    · change (witness _ a got).bwt.man = _
      rw [hwit, hheldF, hbwt]
    · have hheld : heldRead (csFall s.toDev) a r.bytes.length = true := by
        obtain ⟨k, hk, hgk⟩ := hex
        exact List.any_eq_true.mpr ⟨k, List.mem_range.mpr hk, (hgated _).trans hgk⟩
      constructor
      · change (witness _ a got).bwt.holdFailed = _
        rw [hwit, hheldF, hheld, hbwt]
        rfl
      · change (witness _ a got).bwt.holdPassed = _
        rw [hwit]
        exact (hheldP hheld).trans (congrArg Bwt.holdPassed hbwt)
    · have hheld : heldRead (csFall s.toDev) a r.bytes.length = false :=
        List.any_eq_false.mpr fun k hk => by rw [hgated, hall k (List.mem_range.mp hk)]; exact Bool.false_ne_true
      change (witness _ a got).bwt.holdFailed = _
      rw [hwit, hheldF, hheld, hbwt]
      rfl
  case pulled =>
    have hdead : bwhLive (csFall s.toDev) = false := by
      simp only [bwhPulled, Bool.and_eq_true, Bool.not_eq_true'] at hp
      exact hp.1.2
    rw [hread, hostRead_array (.inl hdead), arrayRead_pulled hp]
  case standby =>
    have hasleep : asleep (csFall s.toDev) = true := by
      rw [hfall]
      exact beq_iff_eq.mpr hp
    obtain ⟨q, hrow⟩ := arrayRead_asleep (hlive.trans hl) hasleep a r.bytes
    have hfallen : csFall s.toDev = wake s.toDev .bootFlashCs := by
      have hthere : absent s.toDev = false := by
        simp only [bwhLive, Bool.and_eq_true, Bool.not_eq_true'] at hl
        exact hl.1.1.1
      rw [csFall, hthere, if_neg Bool.false_ne_true]
    rw [hread, hostRead_array (.inr hop), haddr, hrow]
    refine ⟨_, rfl, rfl, ?_, ?_, ?_⟩
    · change (csFall s.toDev).glb.waking = true
      rw [hfallen]
      exact wake_waking (by rw [hp]; rfl)
    · change (csFall s.toDev).bwt.journal = _
      rw [hbwt]
    · change (csFall s.toDev).bwt.regions = _
      rw [hbwt]
  case verified =>
    rw [hverify, gateVerified_open hfind ho hg hv hd hr, if_pos (beq_iff_eq.mpr hdig)]
  case denied =>
    rw [hverify, gateVerified_open hfind ho hg hv hd hr, if_neg (by simpa using hdig)]
    refine ⟨_, rfl, ?_, ?_⟩
    · obtain ⟨_, hlog⟩ := logRec_frame (alert (signal (setRegion s.toDev i.val { o with denied := true }) .pf 5) 1)
        (recCrit "BWT" 0x0005 [rBwtStatus (alert (signal (setRegion s.toDev i.val { o with denied := true }) .pf 5) 1), BitVec.ofNat 32 i.val])
      change (logRec _ _).bwt = _
      rw [hlog]
      change (alert _ 1).bwt = _
      rw [alert_bwt, signal_bwt]
      rfl
    · obtain ⟨_, hlog⟩ := logRec_frame (alert (signal (setRegion s.toDev i.val { o with denied := true }) .pf 5) 1)
        (recCrit "BWT" 0x0005 [rBwtStatus (alert (signal (setRegion s.toDev i.val { o with denied := true }) .pf 5) 1), BitVec.ofNat 32 i.val])
      change (logRec _ _).mgt.alert.getLsbD 1 = true
      rw [hlog]
      exact alert_set _ (by decide)
  case again =>
    rw [hreverify, gateReverify_found hfind ho, if_pos (by rw [hr, show s.toDev.bwt.sr1.getLsbD 0 = false from hwip]; rfl)]
  case notAgain =>
    rw [hreverify, gateReverify_found hfind ho, if_neg, toDev_on]
    rcases hno with h | h
    · simp [h]
    · rw [show s.toDev.bwt.sr1.getLsbD 0 = true from h, Bool.not_true, Bool.and_false]
      exact Bool.false_ne_true

end Sys2Proof.Machine
end

section
/-! Krovlo ports: lanes, training, the fall of a port and the end of its hold. -/

namespace Sys2Proof.Machine

open Sys2Proof.Safety

/-! ### What a note of the link leaves -/

theorem noteLink_parts (d e : Dev) : ∃ h m o, noteLink d e = { e with hif := h, mgt := m, out := o } := by
  have hrole : ∃ m o, (if d.chn.role = e.chn.role then e else alert e 4) = { e with mgt := m, out := o } := by
    split
    · exact ⟨_, _, rfl⟩
    · exact alert_frame e 4
  obtain ⟨m, o, hr⟩ := hrole
  unfold noteLink
  simp only [hr]
  split
  · exact ⟨_, _, _, rfl⟩
  · obtain ⟨h, o', hs⟩ := signal_frame { e with mgt := m, out := o } .pf 7
    exact ⟨h, m, o', hs⟩

theorem noteLink_chn (d e : Dev) : (noteLink d e).chn = e.chn := by
  obtain ⟨_, _, _, h⟩ := noteLink_parts d e
  rw [h]

theorem noteLink_ldg (d e : Dev) : (noteLink d e).ldg = e.ldg := by
  obtain ⟨_, _, _, h⟩ := noteLink_parts d e
  rw [h]

theorem portOf_noteLink (d e : Dev) (p : Port) : portOf (noteLink d e) p = portOf e p := by
  cases p with
  | up => exact congrArg Chn.up (noteLink_chn d e)
  | dn => exact congrArg Chn.dn (noteLink_chn d e)

/-- Neither the role nor a port's link has changed: nothing to tell. -/
theorem noteLink_same {d e : Dev} (hr : e.chn.role = d.chn.role) (hu : ∀ p, (portOf e p).up = (portOf d p).up) : noteLink d e = e := by
  have hup : e.chn.up.up = d.chn.up.up := hu .up
  have hdn : e.chn.dn.up = d.chn.dn.up := hu .dn
  simp [noteLink, hr, hup, hdn]

theorem noteLink_self (d : Dev) : noteLink d d = d := noteLink_same rfl fun _ => rfl

theorem setPort_role (d : Dev) (p : Port) (x : PortSt) : (setPort d p x).chn.role = d.chn.role := by
  cases p <;> rfl

theorem setPort_ldg (d : Dev) (p : Port) (x : PortSt) : (setPort d p x).ldg = d.ldg := by
  cases p <;> rfl

/-- A port that keeps its link. -/
theorem setPort_link {d : Dev} {p : Port} {x : PortSt} (h : x.up = (portOf d p).up) (q : Port) : (portOf (setPort d p x) q).up = (portOf d q).up :=
  match p, q, h with
  | .up, .up, h => h
  | .dn, .dn, h => h
  | .up, .dn, _ => rfl
  | .dn, .up, _ => rfl

theorem noteLink_setPort {d : Dev} {p : Port} {x : PortSt} (h : x.up = (portOf d p).up) : noteLink d (setPort d p x) = setPort d p x :=
  noteLink_same (setPort_role ..) (setPort_link h)

/-! ### Lanes and training -/

/-- The lanes locked without lane `lane`. -/
theorem unlocked_iff (l : BitVec 2) (lane : Fin 2) : l &&& ~~~BitVec.ofNat 2 (2 ^ lane.val) = l ↔ l.getLsbD lane.val = false := by
  revert l lane
  decide

section
variable {d : Dev} {p : Port}

theorem portOf_recPort (sub : Half) (q : Port) : portOf (recPort d sub q) p = portOf d p := by
  obtain ⟨_, h⟩ := logRec_frame d (recEvent "CHN" sub (b4 (portReg d q)))
  rw [recPort, h]
  cases p <;> rfl

theorem recPort_ldg (sub : Half) (q : Port) : (recPort d sub q).ldg = d.ldg := by
  obtain ⟨_, h⟩ := logRec_frame d (recEvent "CHN" sub (b4 (portReg d q)))
  rw [recPort, h]

theorem portOf_emit (o : Out) : portOf (emit d o) p = portOf d p := by
  cases p <;> rfl

/-- The state of a port that has come up. -/
def cameUp (x : PortSt) : PortSt :=
  { x with acked := false, leftOut := 0, up := true, degraded := x.locked != 3, holding := false, miswire := false, cut := false, ackDue := true, resync := !x.retained.isEmpty }

/-- The device with its port up, before the record of a lone lane and a head's enumeration. -/
def linkedUp (d : Dev) (p : Port) : Dev :=
  let e := setPort d p (cameUp (portOf d p))
  setChn e { e.chn with everUp := true, openRing := e.chn.line || e.chn.up.cut || e.chn.dn.cut }

theorem portOf_linkedUp (d : Dev) (p : Port) : portOf (linkedUp d p) p = cameUp (portOf d p) := by
  cases p <;> rfl

theorem isHead_linkedUp (d : Dev) (p : Port) : isHead (linkedUp d p) = isHead d ∧ (linkedUp d p).chn.role = d.chn.role := by
  cases p <;> exact ⟨rfl, rfl⟩

theorem portUp_eq (hup : (portOf d p).up = false) (hl : (portOf d p).locked ≠ 0) :
    portUp d p =
      let e := if (portOf d p).locked != 3 then recPort (linkedUp d p) 0x0306 p else linkedUp d p
      if isHead e && (e.chn.role == .enumerating || e.chn.role == .solitary) then startEnum e else e := by
  have hdown : ¬ ((portOf d p).up || decide ((portOf d p).locked = 0)) = true := by
    rw [hup, Bool.false_or, decide_eq_true_eq]
    exact hl
  simp only [portUp, if_neg hdown] <;> rfl

/-- A port that comes up, where no head starts an enumeration. -/
theorem portOf_portUp (hup : (portOf d p).up = false) (hl : (portOf d p).locked ≠ 0) (hh : isHead d = false ∨ d.chn.role = .member ∨ d.chn.role = .excluded) :
    portOf (portUp d p) p = cameUp (portOf d p) := by
  have hrec : ∃ v, (if (portOf d p).locked != 3 then recPort (linkedUp d p) 0x0306 p else linkedUp d p) = { linkedUp d p with evr := v } := by
    split
    · exact logRec_frame _ _
    · exact ⟨_, rfl⟩
  obtain ⟨v, hv⟩ := hrec
  have hstay : ¬ (isHead { linkedUp d p with evr := v } && ((linkedUp d p).chn.role == .enumerating || (linkedUp d p).chn.role == .solitary)) = true := by
    rw [show isHead { linkedUp d p with evr := v } = isHead (linkedUp d p) from rfl, (isHead_linkedUp d p).1, (isHead_linkedUp d p).2]
    rcases hh with h | h | h <;> simp [h]
  rw [portUp_eq hup hl, hv]
  dsimp only
  rw [if_neg hstay]
  exact portOf_linkedUp d p

theorem tryUp_waits (h : (portOf d p).acked = false ∨ (portOf d p).locked ||| (portOf d p).leftOut ≠ 3) : tryUp d p = d := by
  have hno : ¬ ((portOf d p).acked && (portOf d p).locked ||| (portOf d p).leftOut == 3) = true := by
    intro hyes
    obtain ⟨ha, hl⟩ := Bool.and_eq_true_iff.mp hyes
    rcases h with h | h
    · exact Bool.false_ne_true (h.symm.trans ha)
    · exact h (beq_iff_eq.mp hl)
  rw [tryUp, if_neg hno]

theorem tryUp_ready (ha : (portOf d p).acked = true) (hl : (portOf d p).locked ||| (portOf d p).leftOut = 3) : tryUp d p = portUp d p := by
  have hyes : ((portOf d p).acked && (portOf d p).locked ||| (portOf d p).leftOut == 3) = true := by simp [ha, hl]
  rw [tryUp, if_pos hyes]

theorem onTrain_other {t : TrainInfo} (hu : (portOf d p).up = false) (hl : (portOf d p).locked ≠ 0) (hp : t.peerPort ≠ p) :
    onTrain d p t = tryUp (sendTrain (setPort d p { portOf d p with inverted := t.inverted, swapped := t.swapped, acked := t.ack }) p true) p := by
  have hdown : ¬ ((portOf d p).up || decide ((portOf d p).locked = 0)) = true := by
    rw [hu, Bool.false_or, decide_eq_true_eq]
    exact hl
  have hpeer : ¬ (t.peerPort == p) = true := by simpa using hp
  simp only [onTrain, if_neg hdown, if_neg hpeer]

theorem onTrain_self {t : TrainInfo} (hu : (portOf d p).up = false) (hl : (portOf d p).locked ≠ 0) (hp : t.peerPort = p) :
    portOf (onTrain d p t) p = { portOf d p with miswire := true } := by
  have hdown : ¬ ((portOf d p).up || decide ((portOf d p).locked = 0)) = true := by
    rw [hu, Bool.false_or, decide_eq_true_eq]
    exact hl
  have hpeer : (t.peerPort == p) = true := by simpa using hp
  simp only [onTrain, if_neg hdown, if_pos hpeer]
  split
  next h => rw [← h]
  · rw [portOf_recPort, portOf_setPort]

theorem onLaneTimeout_free {lane : Nat} (hu : (portOf d p).up = false) (hb : (portOf d p).locked.getLsbD lane = false) :
    onLaneTimeout d p lane = tryUp (setPort d p { portOf d p with leftOut := (portOf d p).leftOut ||| BitVec.ofNat 2 (2 ^ lane) }) p := by
  have hno : ¬ ((portOf d p).up || (portOf d p).locked.getLsbD lane) = true := by rw [hu, hb]; exact Bool.false_ne_true
  simp only [onLaneTimeout, if_neg hno]

theorem isHead_setPort (x : PortSt) : isHead (setPort d p x) = isHead d := by
  cases p <;> rfl

/-! ### Frames given back -/

/-- A frame of this unit that no request waits for and that is no DATA goes: its cells, its unit of the link's pool, and a count. -/
theorem returnFrame_plain {t : TxFrame} (hr : t.rid = none) (hb : ∀ b, t.frame.body ≠ .data b) :
    returnFrame d p t true = (let e := ldgRetire (freeCells d H.krovlo t.cells) 3 (portHolder p) 1
      setChn e { e.chn with cntReturned := satInc e.chn.cntReturned }) := by
  cases hbody : t.frame.body with
  | data q => exact absurd hbody (hb q)
  | _ => simp only [returnFrame, hr, hbody, if_true] <;> rfl

theorem heldBy_retire_one (d : Dev) (q h : Nat) : heldBy (ldgRetire d q h 1) q h = heldBy d q h - 1 := by
  have hmin : heldBy d q h - min 1 (heldBy d q h) = heldBy d q h - 1 := by omega
  simpa [heldBy, ldgRetire, Pool.retire] using hmin

theorem heldBy_freeCells (d : Dev) (h : Nat) (l : List Nat) {q : Nat} (hq : q ≠ 1) (k : Nat) : heldBy (freeCells d h l) q k = heldBy d q k := by
  unfold heldBy freeCells ldgRetire
  rw [poolOf_onPool_ne _ _ hq] <;> rfl

end

/-- Settles O53: each row by its port's lanes, its link and its hold. -/
theorem krovloPortsTrainAndFall : Obligations.KrovloPortsTrainAndFall := by
  intro s p lane t x y hx
  subst hx
  have hlock : exec (.laneBlockLock p lane) s = .next (on s (lockLane s.toDev p lane.val)) := rfl
  have hloss : exec (.laneLockLoss p lane) s = .next (on s (noteLink s.toDev (loseLane s.toDev p lane.val))) := rfl
  have htrain : exec (.train p t) s = .next (on s (noteLink s.toDev (onTrain s.toDev p t))) := rfl
  have htimeout : exec (.laneTrainTimeout p lane) s = .next (on s (noteLink s.toDev (onLaneTimeout s.toDev p lane.val))) := rfl
  have hexpire : exec (.linkHoldExpire p) s = .next (on s (noteLink s.toDev (returnFrames s.toDev p))) := rfl
  have hstill : ∀ {i}, exec i s = .next (on s (noteLink s.toDev s.toDev)) → exec i s = .next s := fun h => by rw [h, noteLink_self, toDev_on]
  refine ⟨hlock, fun hl => ?lossNone, fun hu hl => ?lossDown, fun l hu hl hd => ?lossUp, fun h => ?trainNone, fun hu hl hp => ?miswire, fun hu hl hp hw => ?trainWaits,
    fun hy hu hl hh => ⟨fun hp ha ho => ?trainUp, fun hb ha ho => ?timeoutUp⟩, fun hu hb hw => ?timeoutWaits, fun h => ?timeoutNone, fun h => ?holdNone, fun f hu hh hover hwait hone hrid hbody => ?holdEnds⟩
  case lossNone => exact hstill (by rw [hloss, loseLane, if_pos ((unlocked_iff _ lane).mpr hl)])
  case lossDown =>
    have hne : (portOf s.toDev p).locked &&& ~~~BitVec.ofNat 2 (2 ^ lane.val) ≠ (portOf s.toDev p).locked := fun h => by
      rw [(unlocked_iff _ lane).mp h] at hl
      cases hl
    rw [hloss, loseLane, if_neg hne, hu, Bool.not_false, if_pos rfl, noteLink_setPort]
    exact hu.symm
  case lossUp =>
    have hne : (portOf s.toDev p).locked &&& ~~~BitVec.ofNat 2 (2 ^ lane.val) ≠ (portOf s.toDev p).locked := fun h => by
      rw [(unlocked_iff _ lane).mp h] at hl
      cases hl
    subst hd
    refine ⟨_, hloss, ?_, ?_⟩
    · refine (noteLink_ldg _ _).trans ?_
      rw [loseLane, if_neg hne, hu, Bool.not_true, if_neg Bool.false_ne_true]
      split
      · exact setPort_ldg ..
      · exact (recPort_ldg ..).trans (setPort_ldg ..)
    · refine (portOf_noteLink _ _ p).trans ?_
      rw [loseLane, if_neg hne, hu, Bool.not_true, if_neg Bool.false_ne_true]
      split
      next h0 => rw [sendTrain, portOf_emit, portOf_setPort, h0]
      · rw [portOf_recPort, portOf_setPort]
  case trainNone =>
    have hno : ((portOf s.toDev p).up || decide ((portOf s.toDev p).locked = 0)) = true := by simpa using h
    exact hstill (by rw [htrain, onTrain, if_pos hno])
  case miswire => exact ⟨_, htrain, (portOf_noteLink _ _ p).trans (onTrain_self hu hl hp)⟩
  case trainWaits =>
    rw [htrain, onTrain_other hu hl hp, tryUp_waits]
    · exact congrArg (fun d => Host.Outcome.next (on s d)) (noteLink_same (setPort_role ..) fun q => by
        rw [sendTrain, portOf_emit, setPort_link]
        rfl)
    · rw [sendTrain, portOf_emit, portOf_setPort]
      exact hw
  case trainUp =>
    refine ⟨_, htrain, (portOf_noteLink _ _ p).trans ?_⟩
    have hport : portOf (sendTrain (setPort s.toDev p { portOf s.toDev p with inverted := t.inverted, swapped := t.swapped, acked := t.ack }) p true) p =
        { portOf s.toDev p with inverted := t.inverted, swapped := t.swapped, acked := t.ack } := by rw [sendTrain, portOf_emit, portOf_setPort]
    have hhead : isHead (sendTrain (setPort s.toDev p { portOf s.toDev p with inverted := t.inverted, swapped := t.swapped, acked := t.ack }) p true) = isHead s.toDev ∧
        (sendTrain (setPort s.toDev p { portOf s.toDev p with inverted := t.inverted, swapped := t.swapped, acked := t.ack }) p true).chn.role = s.chn.role := ⟨isHead_setPort _, setPort_role ..⟩
    rw [onTrain_other hu hl hp, tryUp_ready (by rw [hport]; exact ha) (by rw [hport]; exact ho), portOf_portUp (by rw [hport]; exact hu) (by rw [hport]; exact hl) (by rw [hhead.1, hhead.2]; exact hh), hport, hy]
    rfl
  case timeoutUp =>
    refine ⟨_, htimeout, (portOf_noteLink _ _ p).trans ?_⟩
    rw [onLaneTimeout_free hu hb, tryUp_ready (by rw [portOf_setPort]; exact ha) (by rw [portOf_setPort]; exact ho),
      portOf_portUp (by rw [portOf_setPort]; exact hu) (by rw [portOf_setPort]; exact hl) (by rw [isHead_setPort, setPort_role]; exact hh), portOf_setPort, hy]
    rfl
  case timeoutWaits =>
    rw [htimeout, onLaneTimeout_free hu hb, tryUp_waits (by rw [portOf_setPort]; exact hw), noteLink_setPort]
    rfl
  case timeoutNone =>
    exact hstill (by rw [htimeout, onLaneTimeout, if_pos (by simpa using h)])
  case holdNone =>
    have hno : ((portOf s.toDev p).up || !(portOf s.toDev p).holding || decide (s.toDev.now < (portOf s.toDev p).downAt + 400 * s.toDev.chn.linkHold)) = true := by
      simpa [or_assoc] using h
    exact hstill (by rw [hexpire, returnFrames, if_pos hno])
  case holdEnds =>
    have hgo : ¬ ((portOf s.toDev p).up || !(portOf s.toDev p).holding || decide (s.toDev.now < (portOf s.toDev p).downAt + 400 * s.toDev.chn.linkHold)) = true := by
      rw [hu, hh]
      simpa using hover
    have hback := returnFrame_plain (d := setPort s.toDev p { portOf s.toDev p with queue := [], retained := [], waiting := [], holding := false, cut := true }) (p := p) hrid hbody
    have hrow : returnFrames s.toDev p = (let e := ldgRetire (freeCells (setPort s.toDev p { portOf s.toDev p with queue := [], retained := [], waiting := [], holding := false, cut := true }) H.krovlo f.cells) 3 (portHolder p) 1
        setChn e { e.chn with cntReturned := satInc e.chn.cntReturned, openRing := true }) := by
      rw [returnFrames, if_neg hgo, hone, hwait]
      simp only [List.foldl_cons, List.foldl_nil, hback] <;> rfl
    refine ⟨_, hexpire, ?_, ?_, ?_, ?_⟩
    · refine (portOf_noteLink _ _ p).trans ?_
      rw [hrow]
      cases p <;> rfl
    · refine (congrArg Chn.openRing (noteLink_chn _ _)).trans ?_
      rw [hrow]
      rfl
    · refine (congrArg Chn.cntReturned (noteLink_chn _ _)).trans ?_
      rw [hrow]
      cases p <;> rfl
    · have hledger : heldBy (noteLink s.toDev (returnFrames s.toDev p)) 3 (portHolder p) = heldBy (returnFrames s.toDev p) 3 (portHolder p) := by
        unfold heldBy poolOf
        rw [noteLink_ldg]
      refine hledger.trans ?_
      rw [hrow]
      refine (heldBy_retire_one _ 3 (portHolder p)).trans (congrArg (· - 1) ?_)
      refine (heldBy_freeCells _ _ _ (by decide) _).trans ?_
      unfold heldBy poolOf
      rw [setPort_ldg]

end Sys2Proof.Machine
end

section
/-! Krovlo frames: taken, refused, forwarded, acknowledged, sent again, sent in a slot, and laid out on the lanes. -/

namespace Sys2Proof.Machine

open Sys2Proof.Safety

section
variable {d : Dev} {p : Port} {h : LinkHdr} {b : FBody}

/-! ### A frame that arrives -/

theorem reject_hears (hh : hears d p = true) :
    reject d p h = setPort d p { portOf d p with ackDue := true, nakDue := (portOf d p).nakDue || !seqBefore h.seq (portOf d p).rxNext } := by
  simp only [reject, hh, Bool.not_true, Bool.false_eq_true, if_false]

theorem reject_deaf (hh : hears d p = false) : reject d p h = d := by
  simp only [reject, hh, Bool.not_false, if_true]

theorem onFrame_deaf (hh : hears d p = false) (f : Dev → Dev) : onFrame d p h b f = d := by
  have hnone : accept d p h = none := by simp only [accept, hh, Bool.not_false, if_true]
  simp only [onFrame, hnone, reject_deaf hh, ite_self]

/-- A frame out of order is not taken. -/
theorem onFrame_outOfOrder (hh : hears d p = true) (hs : h.seq ≠ (portOf d p).rxNext) (f : Dev → Dev) : onFrame d p h b f = reject d p h := by
  have hnone : accept d p h = none := by simp only [accept, hh, Bool.not_true, Bool.false_eq_true, if_false, if_neg hs]
  simp only [onFrame, hnone, ite_self]

theorem forMe_other (hd : h.dest ≠ 0xFF) (ho : d.chn.addrValid = false ∨ h.dest.toNat ≠ d.chn.addr) : forMe d h = false := by
  have hd' : h.dest ≠ 255#8 := hd
  rcases ho with ho | ho <;> simp [forMe, hd', ho]

theorem endsHere_other (hd : h.dest ≠ 0xFF) (ho : d.chn.addrValid = false ∨ h.dest.toNat ≠ d.chn.addr) : endsHere d p h = false := by
  have hd' : h.dest ≠ 255#8 := hd
  simp [endsHere, forMe_other hd ho, hd']

/-- A frame for another unit that this unit has no room to pass on is refused. -/
theorem onFrame_noRoom (hd : h.dest ≠ 0xFF) (ho : d.chn.addrValid = false ∨ h.dest.toNat ≠ d.chn.addr) (hroom : rxFree d p ≤ 4) (f : Dev → Dev) : onFrame d p h b f = reject d p h := by
  have href : refused d p h = true := by simp [refused, endsHere_other hd ho, hroom]
  simp only [onFrame, if_pos href]

theorem enqueue_chn (d : Dev) (p : Port) (f : Frame) (r : Option Nat) : ∃ u n, (enqueue d p f r).chn = { d.chn with up := u, dn := n } := by
  obtain ⟨_, _, _, _, _, _, _, u, n, _, _, he⟩ := (ends_enqueue d p f r).parts
  exact ⟨u, n, by rw [he]⟩

/-- One with room goes on, a hop further, until it has made 16. -/
theorem onFrame_passedOn (hh : hears d p = true) (hs : h.seq = (portOf d p).rxNext) (hd : h.dest ≠ 0xFF) (ho : d.chn.addrValid = false ∨ h.dest.toNat ≠ d.chn.addr)
    (hroom : 4 < rxFree d p) (f : Dev → Dev) : onFrame d p h b f = forward (heard d p) p h b := by
  have href : refused d p h = false := by simp [refused, hroom]
  have haddr : (forward (heard d p) p h b).chn.addrValid = d.chn.addrValid ∧ (forward (heard d p) p h b).chn.addr = d.chn.addr := by
    have hheard : (heard d p).chn.addrValid = d.chn.addrValid ∧ (heard d p).chn.addr = d.chn.addr := by cases p <;> exact ⟨rfl, rfl⟩
    unfold forward
    split
    · exact hheard
    · split
      · exact hheard
      · obtain ⟨_, _, he⟩ := enqueue_chn (heard d p) (opposite p) { hdr := { h with hops := h.hops + 1 }, body := b } none
        rw [he]
        exact hheard
  have hme : forMe (forward (heard d p) p h b) h = false := forMe_other hd (by rw [haddr.1, haddr.2]; exact ho)
  simp only [onFrame, href, accept_inOrder hh hs, hme, Bool.false_eq_true, if_false]

theorem forward_hops (hd : h.dest ≠ 0xFF) (ho : d.chn.addrValid = false ∨ h.dest.toNat ≠ d.chn.addr) (hh : h.hops + 1 < 16) :
    forward (heard d p) p h b = enqueue (heard d p) (opposite p) { hdr := { h with hops := h.hops + 1 }, body := b } := by
  simp only [forward, endsHere_heard, endsHere_other hd ho, Bool.false_eq_true, if_false, if_neg (Nat.not_le.mpr hh)]

theorem forward_dropped (hd : h.dest ≠ 0xFF) (ho : d.chn.addrValid = false ∨ h.dest.toNat ≠ d.chn.addr) (hh : 16 ≤ h.hops + 1) :
    forward (heard d p) p h b = setChn (heard d p) { (heard d p).chn with cntHopDrop := satInc (heard d p).chn.cntHopDrop } := by
  simp only [forward, endsHere_heard, endsHere_other hd ho, Bool.false_eq_true, if_false, if_pos hh]

end

theorem portOf_ldgIssue (d : Dev) (pool h n : Nat) (q : Port) : portOf (ldgIssue d pool h n) q = portOf d q := by
  cases q <;> rfl

/-- A frame queued leaves the ports' links as they are. -/
theorem enqueue_link (d : Dev) (p : Port) (f : Frame) (r : Option Nat) (q : Port) : (portOf (enqueue d p f r) q).up = (portOf d q).up := by
  have hhold : (portOf (holdPort d p) q).up = (portOf d q).up := by
    unfold holdPort
    dsimp only
    split
    · rfl
    · exact setPort_link (by rfl) q
  cases hc : claimCells (holdPort d p) (.krovlo 0) (cellsFor (20 + bodyLen f.body)) with
  | none =>
    simp only [enqueue, hc]
    split
    · exact (setPort_link (by rfl) q).trans hhold
    · exact (setPort_link (by rfl) q).trans ((congrArg PortSt.up (portOf_ldgIssue ..)).trans hhold)
  | some e =>
    have hclaim : (portOf e.1 q).up = (portOf d q).up := by
      obtain ⟨_, _, _, he⟩ := claimCells_frame hc
      refine Eq.trans ?_ hhold
      rw [he]
      cases q <;> rfl
    simp only [enqueue, hc]
    split
    · exact (setPort_link (by rfl) q).trans hclaim
    · exact (setPort_link (by rfl) q).trans ((congrArg PortSt.up (portOf_ldgIssue ..)).trans hclaim)

/-! ### The rows of the frames -/

/-- What a frame's row does that does not deliver it here: the same whether the row notes the link or first asks for room. -/
theorem exec_frame {i : Instr} {p : Port} {h : LinkHdr} {b : FBody} (hi : frameOf i = some (p, h, b)) {s : State} {e : Dev} (he : ∀ f, onFrame s.toDev p h b f = e)
    (hrole : e.chn.role = s.chn.role) (hup : ∀ q, (portOf e q).up = (portOf s.toDev q).up) (hme : forMe s.toDev h = true → reject s.toDev p h = e) : exec i s = .next (on s e) := by
  have hplain : ∀ f, Host.Outcome.next (on s (onFrame s.toDev p h b f)) = (Host.Outcome.next (on s e) : Host.Outcome State Fault Refusal) := fun f => by rw [he]
  have hasked : ∀ (c : Bool) f, Host.Outcome.next (on s (if forMe s.toDev h && c then reject s.toDev p h else onFrame s.toDev p h b f)) =
      (Host.Outcome.next (on s e) : Host.Outcome State Fault Refusal) := fun c f => by
    rw [he]
    split
    next hc => rw [hme (Bool.and_eq_true_iff.mp hc).1]
    · rfl
  cases i <;> simp only [frameOf, reduceCtorEq, Option.some.injEq, Prod.mk.injEq] at hi
  case data => obtain ⟨rfl, rfl, rfl⟩ := hi; exact hasked _ _
  case roster =>
    obtain ⟨rfl, rfl, rfl⟩ := hi
    exact (congrArg (fun d => Host.Outcome.next (on s (noteLink s.toDev d))) (he _)).trans (by rw [noteLink_same hrole hup])
  case config => obtain ⟨rfl, rfl, rfl⟩ := hi; exact hplain _
  case replica => obtain ⟨rfl, rfl, rfl⟩ := hi; exact hplain _
  case replAck => obtain ⟨rfl, rfl, rfl⟩ := hi; exact hplain _
  case replDrop => obtain ⟨rfl, rfl, rfl⟩ := hi; exact hplain _
  case result =>
    obtain ⟨rfl, rfl, rfl⟩ := hi
    rename_i r
    have := hasked (r.more && decide (cellRoom s.toDev H.krovlo < cellsFor (bodyLen (.result r)))) fun d => onResult d r
    rw [← Bool.and_assoc] at this
    exact this
  case cosignReq => obtain ⟨rfl, rfl, rfl⟩ := hi; exact hplain _
  case cosign => obtain ⟨rfl, rfl, rfl⟩ := hi; exact hplain _

/-! ### DATA for this unit -/

theorem woken_chn (d : Dev) (h : LinkHdr) : (woken d h).chn = d.chn := by
  unfold woken
  split
  · obtain ⟨_, _, _, _, _, hw⟩ := wake_parts d .krovloFrame
    rw [hw]
  · rfl

theorem heardHere_role (d : Dev) (p : Port) (h : LinkHdr) : (heardHere d p h).chn.role = d.chn.role := by
  rw [heardHere, woken_chn]
  cases p <;> rfl

section
variable {d : Dev} {p : Port} {h : LinkHdr} (hu : forUs d p h) (b : Bytes)
include hu

theorem onData_excluded (hr : d.chn.role = .excluded) :
    onData d p h b = if cellRoom d H.krovlo < cellsFor b.length then reject d p h else heardHere d p h := by
  have hme := (endsHere_forUs hu).2
  have hex : ((heardHere d p h).chn.role == .excluded) = true := by rw [heardHere_role, hr]; rfl
  simp only [onData, hme, Bool.true_and, decide_eq_true_eq, accept_heard hu, hex, Bool.true_or, if_true]

theorem onData_taken {o : Fin 16} (hr : d.chn.role ≠ .excluded) (ho : h.origin.toNat = o.val) (hroom : cellsFor b.length ≤ cellRoom d H.krovlo) :
    onData d p h b = (intake (heardHere d p h) (.krovlo o) (b.take 3 ++ [BitVec.ofNat 8 h.hops] ++ b.drop 4)).getD (heardHere d p h) := by
  have hno : ¬ (forMe d h && decide (cellRoom d H.krovlo < cellsFor b.length)) = true := by simp [hroom]
  have hin : ((heardHere d p h).chn.role == .excluded || decide (16 ≤ h.origin.toNat)) = false := by
    have h16 : ¬ 16 ≤ h.origin.toNat := by omega
    rw [heardHere_role]
    simp [hr, h16]
  have hfin : (Fin.ofNat 16 h.origin.toNat) = o := by
    apply Fin.ext
    simp [ho]
  simp only [onData, if_neg hno, accept_heard hu, hin, Bool.false_eq_true, if_false, hfin]

end

/-! ### Acknowledgements and frames sent again -/

section
variable {d : Dev} {p : Port}

theorem resend_port (d : Dev) (p : Port) : portOf (resend d p) p = { portOf d p with queue := (portOf d p).retained.map again ++ (portOf d p).queue, retained := [], resync := false } := by
  cases p <;> rfl

theorem resend_chn (d : Dev) (p : Port) :
    (resend d p).chn.heardInCycle = d.chn.heardInCycle ∧ (resend d p).chn.cntRetx = BitVec.ofNat 32 (min 0xFFFFFFFF (d.chn.cntRetx.toNat + (portOf d p).retained.length)) := by
  cases p <;> exact ⟨rfl, rfl⟩

theorem resend_ldg (d : Dev) (p : Port) : (resend d p).ldg = d.ldg := by
  cases p <;> rfl

/-- A frame acknowledged while none waits for its unit. -/
theorem retireFrame_plain (hw : (portOf d p).waiting = []) (t : TxFrame) : retireFrame d p t = ldgRetire (freeCells d H.krovlo t.cells) 3 (portHolder p) 1 := by
  have hw' : (portOf (ldgRetire (freeCells d H.krovlo t.cells) 3 (portHolder p) 1) p).waiting = [] := by cases p <;> exact hw
  simp only [retireFrame, drainWaiting, hw']

theorem heldBy_retireFrame (hw : (portOf d p).waiting = []) (t : TxFrame) : heldBy (retireFrame d p t) 3 (portHolder p) = heldBy d 3 (portHolder p) - 1 := by
  rw [retireFrame_plain hw, heldBy_retire_one, heldBy_freeCells _ _ _ (by decide)]

/-- Frames acknowledged give their cells and units back, and leave the port and the link as they are. -/
theorem retireFrames (l : List TxFrame) (hw : (portOf d p).waiting = []) :
    (l.foldl (fun d t => retireFrame d p t) d).chn = d.chn ∧
    heldBy (l.foldl (fun d t => retireFrame d p t) d) 3 (portHolder p) = heldBy d 3 (portHolder p) - l.length := by
  induction l generalizing d with
  | nil => exact ⟨rfl, rfl⟩
  | cons t l ih =>
    have hchn : (retireFrame d p t).chn = d.chn := by rw [retireFrame_plain hw]; rfl
    have hw' : (portOf (retireFrame d p t) p).waiting = [] := by rw [retireFrame_plain hw]; cases p <;> exact hw
    obtain ⟨hc, hh⟩ := ih hw'
    refine ⟨hc.trans hchn, hh.trans ?_⟩
    rw [heldBy_retireFrame hw, List.length_cons]
    omega

theorem portOf_chn {d e : Dev} (h : e.chn = d.chn) (q : Port) : portOf e q = portOf d q := by
  cases q with
  | up => exact congrArg Chn.up h
  | dn => exact congrArg Chn.dn h

/-- The port after an acknowledgement, before what stays is sent again. -/
def ackedPort (x : PortSt) (k : Word) (free : Nat) : PortSt :=
  { x with retained := x.retained.filter (fun t => !seqBefore t.frame.hdr.seq k), queue := x.queue.filter (fun t => !(t.frame.hdr.retx && seqBefore t.frame.hdr.seq k)),
           peerFree := min 32 free, resync := false }

/-- The frames an acknowledgement frees. -/
def ackedFrames (x : PortSt) (k : Word) : List TxFrame :=
  (x.retained.filter fun t => seqBefore t.frame.hdr.seq k) ++ x.queue.filter fun t => t.frame.hdr.retx && seqBefore t.frame.hdr.seq k

theorem onAck_heard (hh : hears d p = true) (k : Word) (free : Nat) (nak : Bool) :
    onAck d p k free nak =
      let e := (ackedFrames (portOf d p) k).foldl (fun d t => retireFrame d p t) (setPort d p (ackedPort (portOf d p) k free))
      let e := setChn e { e.chn with heardInCycle := true }
      if nak || (portOf d p).resync then resend e p else e := by
  simp only [onAck, hh, Bool.not_true, Bool.false_eq_true, if_false] <;> rfl

theorem length_filter_split {α : Type} (p : α → Bool) (l : List α) : (l.filter p).length = l.length - (l.filter fun x => !p x).length := by
  have h : (l.filter p).length + (l.filter fun x => !p x).length = l.length := by
    induction l with
    | nil => rfl
    | cons x l ih =>
      cases hx : p x with
      | true => simp [hx, ← ih, Nat.add_right_comm]
      | false => simp [hx, ← ih, Nat.add_assoc]
  omega

/-- An acknowledgement where no frame waits for a unit. -/
theorem onAck_parts (hh : hears d p = true) (hw : (portOf d p).waiting = []) (k : Word) (free : Nat) (nak : Bool) :
    (onAck d p k free nak).chn.heardInCycle = true ∧
    portOf (onAck d p k free nak) p =
      (if nak || (portOf d p).resync then { ackedPort (portOf d p) k free with queue := (ackedPort (portOf d p) k free).retained.map again ++ (ackedPort (portOf d p) k free).queue, retained := [] }
      else ackedPort (portOf d p) k free) ∧
    heldBy (onAck d p k free nak) 3 (portHolder p) = heldBy d 3 (portHolder p) - (ackedFrames (portOf d p) k).length := by
  have hw' : (portOf (setPort d p (ackedPort (portOf d p) k free)) p).waiting = [] := by rw [portOf_setPort]; exact hw
  obtain ⟨hc, hl⟩ := retireFrames (ackedFrames (portOf d p) k) hw'
  rw [onAck_heard hh]
  dsimp only
  generalize (ackedFrames (portOf d p) k).foldl (fun d t => retireFrame d p t) (setPort d p (ackedPort (portOf d p) k free)) = e at hc hl
  have hport : portOf (setChn e { e.chn with heardInCycle := true }) p = ackedPort (portOf d p) k free := by
    refine Eq.trans ?_ ((portOf_chn hc p).trans (portOf_setPort ..))
    cases p <;> rfl
  have hheld : heldBy (setChn e { e.chn with heardInCycle := true }) 3 (portHolder p) = heldBy d 3 (portHolder p) - (ackedFrames (portOf d p) k).length := by
    refine hl.trans ?_
    unfold heldBy poolOf
    rw [setPort_ldg]
  split
  · refine ⟨(resend_chn ..).1, ?_, ?_⟩
    · rw [resend_port, hport]
      rfl
    · unfold heldBy poolOf at hheld ⊢
      rw [resend_ldg]
      exact hheld
  · exact ⟨rfl, hport, hheld⟩

end

/-! ### Slots -/

/-- The frames a slot takes from a queue: its unit's, in their order, no more than the neighbour has room for. -/
theorem takeFrames_sent (x : PortSt) (mine : Frame → Bool) (l : List TxFrame) : ∀ room left,
    (takeFrames x mine room left l).2.Sublist l ∧ (takeFrames x mine room left l).2.length + (takeFrames x mine room left l).1.length = l.length ∧
    (takeFrames x mine room left l).1.length ≤ room ∧ ∀ f ∈ (takeFrames x mine room left l).1, f ∈ l ∧ mine f.frame = true := by
  induction l with
  | nil => exact fun _ _ => ⟨List.Sublist.refl _, rfl, Nat.zero_le _, fun f hf => by simp [takeFrames] at hf⟩
  | cons t l ih =>
    intro room left
    unfold takeFrames
    by_cases hm : mine t.frame = true
    · simp only [hm, Bool.not_true, Bool.false_eq_true, if_false]
      split
      · exact ⟨List.Sublist.refl _, rfl, Nat.zero_le _, fun f hf => by simp at hf⟩
      next hgo =>
        have hroom : room ≠ 0 := fun h => hgo (by simp [h])
        obtain ⟨hsub, hlen, hle, hall⟩ := ih (room - 1) (left - blocks x (bodyLen t.frame.body))
        refine ⟨hsub.cons _, ?_, ?_, fun f hf => ?_⟩
        · simp only [List.length_cons]
          omega
        · simp only [List.length_cons]
          omega
        · rcases List.mem_cons.mp hf with rfl | hf
          · exact ⟨List.mem_cons_self, hm⟩
          · exact ⟨List.mem_cons_of_mem _ (hall f hf).1, (hall f hf).2⟩
    · simp only [hm, Bool.not_false, if_true]
      obtain ⟨hsub, hlen, hle, hall⟩ := ih room left
      refine ⟨hsub.cons_cons _, ?_, hle, fun f hf => ⟨List.mem_cons_of_mem _ (hall f hf).1, (hall f hf).2⟩⟩
      simp only [List.length_cons]
      omega

theorem sendOuts_out (l : List TxFrame) (p : Port) (d : Dev) : ∃ o, l.foldl (fun d t => sendOut d p t.frame) d = { d with out := o } := by
  induction l generalizing d with
  | nil => exact ⟨_, rfl⟩
  | cons t l ih => exact ih (sendOut d p t.frame)

/-- What a port's turn in a slot makes of its state: `sent` leaves the queue for the frames that wait for an acknowledgement. -/
structure Sent (x : PortSt) (mine : Frame → Bool) (y : PortSt) (sent : List TxFrame) : Prop where
  retained : y.retained = x.retained ++ sent
  queue : y.queue.Sublist x.queue
  length : y.queue.length + sent.length = x.queue.length
  silent : x.resync = true → sent = []
  room : sent.length ≤ min 32 x.peerFree - x.retained.length
  mine : ∀ f ∈ sent, f ∈ x.queue ∧ mine f.frame = true

theorem setPort_self (d : Dev) (p : Port) : setPort d p (portOf d p) = d := by
  cases p <;> rfl

theorem setPort_setPort (d : Dev) (p : Port) (x y : PortSt) (o : List Out) : setPort { setPort d p x with out := o } p y = { setPort d p y with out := o } := by
  cases p <;> rfl

theorem portOf_setPort_out (d : Dev) (p : Port) (x : PortSt) (o : List Out) : portOf { setPort d p x with out := o } p = x := by
  cases p <;> rfl

theorem sendFrames_sent (d : Dev) (p : Port) (mine : Frame → Bool) (left : Nat) :
    ∃ y sent o, sendFrames d p mine left = { setPort d p y with out := o } ∧ Sent (portOf d p) mine y sent := by
  obtain ⟨hsub, hlen, hle, hall⟩ := takeFrames_sent (portOf d p) mine (portOf d p).queue (if (portOf d p).resync then 0 else min 32 (portOf d p).peerFree - (portOf d p).retained.length) left
  obtain ⟨r, hr⟩ : ∃ r, r = takeFrames (portOf d p) mine (if (portOf d p).resync then 0 else min 32 (portOf d p).peerFree - (portOf d p).retained.length) left (portOf d p).queue := ⟨_, rfl⟩
  rw [← hr] at hsub hlen hle hall
  obtain ⟨o, hout⟩ := sendOuts_out r.1 p (setPort d p { portOf d p with queue := r.2, retained := (portOf d p).retained ++ r.1 })
  refine ⟨{ portOf d p with queue := r.2, retained := (portOf d p).retained ++ r.1 }, r.1, o, ?_, rfl, hsub, hlen, fun hre => ?_, Nat.le_trans hle ?_, hall⟩
  · simp only [sendFrames, ← hr, hout]
  · rw [if_pos hre] at hle
    exact List.length_eq_zero_iff.mp (Nat.le_zero.mp hle)
  · split
    · exact Nat.zero_le _
    · exact Nat.le_refl _

/-- The device after the control frames of this unit's slot on a port: the acknowledgement due, then the status due. -/
def ackSent (d : Dev) (p : Port) (own : Bool) : Dev :=
  if own && (portOf d p).ackDue then
    sendOut (setPort d p { portOf d p with ackDue := false, nakDue := false }) p { hdr := linkHdr d 0xFF, body := .ack (portOf d p).rxNext (rxFree d p) (portOf d p).nakDue }
  else d
def controlSent (d : Dev) (p : Port) (own : Bool) : Dev :=
  if own && statusOn (ackSent d p own) p then sendOut (ackSent d p own) p { hdr := linkHdr (ackSent d p own) 0xFF, body := .status (statusBody (ackSent d p own)) } else ackSent d p own

/-- They change the port only in what is due. -/
theorem controlSent_port (d : Dev) (p : Port) (own : Bool) : ∃ a n o, controlSent d p own = { setPort d p { portOf d p with ackDue := a, nakDue := n } with out := o } := by
  have hack : ∃ a n o, ackSent d p own = { setPort d p { portOf d p with ackDue := a, nakDue := n } with out := o } := by
    unfold ackSent
    split
    · exact ⟨_, _, _, rfl⟩
    · refine ⟨(portOf d p).ackDue, (portOf d p).nakDue, d.out, ?_⟩
      cases p <;> rfl
  obtain ⟨a, n, o, hack⟩ := hack
  unfold controlSent
  rw [hack]
  split
  · exact ⟨a, n, _, rfl⟩
  · exact ⟨a, n, o, rfl⟩

theorem sendPort_sent (d : Dev) (p : Port) (own : Bool) (mine : Frame → Bool) :
    ∃ y sent o, sendPort d p own mine = { setPort d p y with out := o } ∧ Sent (portOf d p) mine y sent ∧ (hears d p = false → sent = []) := by
  cases hh : hears d p with
  | false =>
    refine ⟨portOf d p, [], d.out, ?_, ⟨by simp, List.Sublist.refl _, rfl, fun _ => rfl, Nat.zero_le _, fun f hf => by simp at hf⟩, fun _ => rfl⟩
    simp only [sendPort, hh, Bool.not_false, if_true, setPort_self]
  | true =>
    have hsend : ∃ left, sendPort d p own mine = sendFrames (controlSent d p own) p mine left := by
      refine ⟨116 - (if own && (portOf d p).ackDue then blocks (portOf d p) 8 else 0) - (if own && statusOn (ackSent d p own) p then blocks (portOf d p) 182 else 0), ?_⟩
      simp only [sendPort, hh, Bool.not_true, Bool.false_eq_true, if_false] <;> rfl
    obtain ⟨left, hsend⟩ := hsend
    obtain ⟨a, n, o, hctl⟩ := controlSent_port d p own
    obtain ⟨y, sent, o', hout, hsent⟩ := sendFrames_sent { setPort d p { portOf d p with ackDue := a, nakDue := n } with out := o } p mine left
    rw [portOf_setPort_out] at hsent
    refine ⟨y, sent, o', ?_, ⟨hsent.retained, hsent.queue, hsent.length, hsent.silent, hsent.room, hsent.mine⟩, fun h => by cases h⟩
    rw [hsend, hctl, hout, setPort_setPort]

/-- Is the slot `k` this unit's. -/
def ownSlot (d : Dev) (k : Nat) : Bool := d.chn.role == .enumerating || d.chn.units = 0 || (if d.chn.addrValid then k = d.chn.addr else k = 15)
/-- Does a frame go in slot `k`: one of the slot's unit, or, without an address, in this unit's own. -/
def slotMine (d : Dev) (k : Nat) (f : Frame) : Bool :=
  d.chn.role == .enumerating || d.chn.units = 0 || f.hdr.origin.toNat == k || (f.hdr.origin == 0xFF && ownSlot d k)

theorem slotStart_eq (d : Dev) :
    slotStart d =
      let e := sendPort (sendPort (setChn d { d.chn with slot := (d.chn.slot + 1) % 16 }) .up (ownSlot d ((d.chn.slot + 1) % 16)) (slotMine d ((d.chn.slot + 1) % 16))) .dn
        (ownSlot d ((d.chn.slot + 1) % 16)) (slotMine d ((d.chn.slot + 1) % 16))
      if ownSlot d ((d.chn.slot + 1) % 16) then setChn e { e.chn with statusDue := false } else e := rfl

theorem slotMine_unit {d : Dev} {k : Nat} {f : Frame} (h : slotMine d k f = true) :
    d.chn.role = .enumerating ∨ d.chn.units = 0 ∨ f.hdr.origin.toNat = k ∨ (f.hdr.origin = 0xFF ∧ k = if d.chn.addrValid then d.chn.addr else 15) := by
  simp only [slotMine, ownSlot, Bool.or_eq_true, Bool.and_eq_true, beq_iff_eq, decide_eq_true_eq] at h
  rcases h with ((h | h) | h) | ⟨ho, (h | h) | h⟩
  · exact .inl h
  · exact .inr (.inl h)
  · exact .inr (.inr (.inl h))
  · exact .inl h
  · exact .inr (.inl h)
  · refine .inr (.inr (.inr ⟨ho, ?_⟩))
    cases haddr : d.chn.addrValid <;> simpa [haddr] using h

/-- Each port has its turn in the slot, whatever the other sends. -/
theorem slotStart_port (d : Dev) (p : Port) :
    (slotStart d).chn.slot = (d.chn.slot + 1) % 16 ∧
    ∃ sent, Sent (portOf d p) (slotMine d ((d.chn.slot + 1) % 16)) (portOf (slotStart d) p) sent ∧ (hears d p = false → sent = []) := by
  obtain ⟨yu, su, ou, hup, hsu, hqu⟩ := sendPort_sent (setChn d { d.chn with slot := (d.chn.slot + 1) % 16 }) .up (ownSlot d ((d.chn.slot + 1) % 16)) (slotMine d ((d.chn.slot + 1) % 16))
  obtain ⟨yd, sd, od, hdn, hsd, hqd⟩ := sendPort_sent { setPort (setChn d { d.chn with slot := (d.chn.slot + 1) % 16 }) .up yu with out := ou } .dn (ownSlot d ((d.chn.slot + 1) % 16)) (slotMine d ((d.chn.slot + 1) % 16))
  have hout : (slotStart d).chn.slot = (d.chn.slot + 1) % 16 ∧ portOf (slotStart d) .up = yu ∧ portOf (slotStart d) .dn = yd := by
    rw [slotStart_eq, hup]
    dsimp only
    rw [hdn]
    split <;> exact ⟨rfl, rfl, rfl⟩
  obtain ⟨hslot, hpu, hpd⟩ := hout
  refine ⟨hslot, ?_⟩
  cases p with
  | up => exact ⟨su, hpu ▸ hsu, hqu⟩
  | dn => exact ⟨sd, hpd ▸ hsd, hqd⟩

/-- A frame heard leaves the ports' links as they are. -/
theorem heard_link (d : Dev) (p q : Port) : (portOf (heard d p) q).up = (portOf d q).up :=
  match p, q with
  | .up, .up => rfl
  | .dn, .dn => rfl
  | .up, .dn => rfl
  | .dn, .up => rfl

/-! ### A frame's bytes on the lanes -/

theorem length_groups8 (n : Nat) : ∀ b, (groups8 n b).length = n := by
  induction n with
  | zero => exact fun _ => rfl
  | succ n ih => exact fun b => congrArg Nat.succ (ih (b.drop 8))

theorem groups8_get (n : Nat) : ∀ b k, k < n → (groups8 n b)[k]? = some ((b.drop (8 * k) ++ zeros 8).take 8) := by
  induction n with
  | zero => exact fun b k h => absurd h (Nat.not_lt_zero k)
  | succ n ih =>
    intro b k hk
    cases k with
    | zero => rfl
    | succ k =>
      have := ih (b.drop 8) k (by omega)
      rw [List.drop_drop, show 8 + 8 * k = 8 * (k + 1) by omega] at this
      exact this

theorem evens_get : ∀ (l : List Bytes) (k : Nat), (evens l)[k]? = l[2 * k]?
  | [], k => rfl
  | [g], 0 => rfl
  | [g], k + 1 => by simp [evens, show 2 * (k + 1) = 2 * k + 1 + 1 by omega]
  | g :: _ :: l, 0 => rfl
  | g :: x :: l, k + 1 => by
    have := evens_get l k
    simpa [evens, show 2 * (k + 1) = 2 * k + 1 + 1 by omega] using this

theorem length_evens : ∀ l : List Bytes, (evens l).length = (l.length + 1) / 2
  | [] => rfl
  | [g] => by simp [evens]
  | g :: x :: l => by
    have := length_evens l
    simp only [evens, List.length_cons, this]
    omega

/-- Group `k` stands on lane `k mod 2`. -/
theorem lanes_get (l : List Bytes) (k : Nat) : (if k % 2 = 0 then evens l else evens (l.drop 1))[k / 2]? = l[k]? := by
  split
  next h => rw [evens_get, show 2 * (k / 2) = k by omega]
  next h => rw [evens_get, List.getElem?_drop, show 1 + 2 * (k / 2) = k by omega]

theorem length_frameHead (f : Frame) : (frameHead f).length = 12 := by
  simp [frameHead, b4]

theorem frameBytes_split (f : Frame) :
    (frameBytes f).length = 20 + (bodyBytes f.body).length ∧ (frameBytes f).take 12 = frameHead f ∧ slice (frameBytes f) 12 4 = b4 (crc32c (frameHead f)) ∧
    (frameBytes f).drop ((frameBytes f).length - 4) = b4 (crc32c (bodyBytes f.body)) := by
  have hh := length_frameHead f
  have hc : (b4 (crc32c (frameHead f))).length = 4 := length_leBytes 4 _
  have hb : (b4 (crc32c (bodyBytes f.body))).length = 4 := length_leBytes 4 _
  have hlen : (frameBytes f).length = 20 + (bodyBytes f.body).length := by
    simp only [frameBytes, List.length_append, hh, hc, hb]
    omega
  refine ⟨hlen, ?_, ?_, ?_⟩
  · rw [frameBytes, List.append_assoc, List.append_assoc]
    exact List.take_left' hh
  · rw [frameBytes, List.append_assoc, List.append_assoc, slice, List.drop_left' hh]
    exact List.take_left' hc
  · rw [hlen, frameBytes]
    exact List.drop_left' (by simp only [List.length_append, hh, hc]; omega)

theorem markOf_bytes : markOf 0 = [0x48, 0x7B, 0xD2, 0x96, 0x0E, 0x5C, 0xF1, 0xA3] ∧ markOf 1 = [0x83, 0xF1, 0x64, 0x0D, 0xA7, 0xC9, 0x2B, 0x5E] := by
  decide

/-- Settles O54: a frame not for this unit is refused or passed on, an acknowledgement frees what came before it, a slot sends its unit's frames, and each lane holds the frame's groups in turn. -/
theorem krovloFramesFlow : Obligations.KrovloFramesFlow := by
  refine ⟨?_, ?_⟩
  · intro s p x hx
    subst hx
    have hdata : ∀ h b, exec (.data p h b) s = .next (on s (onData s.toDev p h b)) := fun _ _ => rfl
    have hack : ∀ k free nak, exec (.ack p k free nak) s = .next (on s (onAck s.toDev p k free nak)) := fun _ _ _ => rfl
    have hretx : exec (.retxTimeout p) s = .next (on s (if (portOf s.toDev p).up then resend s.toDev p else s.toDev)) := rfl
    have hmark : exec (.frameCorrupt p .falseMark) s = .next (on s (if (portOf s.toDev p).up then setChn s.toDev { s.chn with cntMarkFalse := satInc s.chn.cntMarkFalse } else s.toDev)) := rfl
    refine ⟨fun i h b hi => ⟨fun hh => ?deaf, fun hh hs => ?order, fun hh hd hr ho => ?noRoom, fun hh hs hd hr ho => ⟨fun hhop => ?hops, fun hhop => ?drops⟩⟩,
      fun h b hu => ⟨fun hr => ?excluded, fun hr o ho hroom d hin => ?taken⟩, fun k free r w hh hwait hr hw nak => ?acks, fun hup => ?resends, fun hup => ?corrupt, rfl, fun hup => ?noResend, fun hh a b c => ?deafAck, ?slot⟩
    case deaf => exact exec_frame hi (fun f => onFrame_deaf hh f) rfl (fun _ => rfl) fun _ => reject_deaf hh
    case order =>
      have hrej := reject_hears (h := h) hh
      exact exec_frame hi (fun f => (onFrame_outOfOrder hh hs f).trans hrej) (setPort_role ..) (setPort_link (by rfl)) fun _ => hrej
    case noRoom =>
      have hrej := reject_hears (h := h) hh
      exact exec_frame hi (fun f => (onFrame_noRoom hd ho hr f).trans hrej) (setPort_role ..) (setPort_link (by rfl)) fun _ => hrej
    case hops =>
      have hme := forMe_other hd ho
      refine exec_frame hi (fun f => (onFrame_passedOn hh hs hd ho hr f).trans (forward_hops hd ho hhop)) ?_ (fun q => (enqueue_link ..).trans ?_) fun h => by rw [hme] at h; cases h
      · obtain ⟨_, _, he⟩ := enqueue_chn (heard s.toDev p) (opposite p) { hdr := { h with hops := h.hops + 1 }, body := b } none
        rw [he]
        cases p <;> rfl
      · exact heard_link s.toDev p q
    case drops =>
      have hme := forMe_other hd ho
      have hcnt : (heard s.toDev p).chn.cntHopDrop = s.chn.cntHopDrop := by cases p <;> rfl
      rw [← hcnt]
      refine exec_frame hi (fun f => (onFrame_passedOn hh hs hd ho hr f).trans (forward_dropped hd ho hhop)) ?_ (fun q => Eq.trans ?_ (heard_link s.toDev p q)) fun h => by rw [hme] at h; cases h
      · cases p <;> rfl
      · cases q <;> rfl
    case excluded => rw [hdata, onData_excluded hu b hr, reject_hears hu.1]
    case taken =>
      rw [hdata, onData_taken hu b hr ho hroom, hin]
      rfl
    case acks =>
      obtain ⟨hheard, hport, hheld⟩ := onAck_parts hh hwait k free nak
      refine ⟨_, hack k free nak, hheard, hport.trans ?_, hheld.trans ?_⟩
      · subst hr hw
        split
        · rfl
        next hno =>
          have hre : (portOf s.toDev p).resync = false := by
            simp only [Bool.or_eq_true, not_or, Bool.not_eq_true] at hno
            exact hno.2
          rw [ackedPort, ← hre]
      · rw [ackedFrames, List.length_append, length_filter_split, length_filter_split _ (portOf s.toDev p).queue, ← hr, ← hw]
        omega
    case resends =>
      refine ⟨_, hretx, ?_, ?_⟩
      · rw [if_pos hup]
        exact resend_port ..
      · rw [if_pos hup]
        refine (congrArg BitVec.toNat (resend_chn s.toDev p).2).trans ?_
        rw [BitVec.toNat_ofNat]
        exact Nat.mod_eq_of_lt (by omega)
    case corrupt => rw [hmark, if_pos hup]
    case noResend => rw [hretx, hup, if_neg Bool.false_ne_true, toDev_on]
    case deafAck =>
      have hrow : onAck s.toDev p a b c = s.toDev := by simp only [onAck, hh, Bool.not_false, if_true]
      rw [hack, hrow, toDev_on]
    case slot =>
      obtain ⟨hslot, sent, hsent, hdeaf⟩ := slotStart_port s.toDev p
      refine ⟨on s (slotStart s.toDev), sent, _, rfl, rfl, hslot, hsent.retained, hsent.queue, hsent.length, fun h => h.elim hdeaf hsent.silent, hsent.room, fun f hf => ?_⟩
      obtain ⟨hq, hmine⟩ := hsent.mine f hf
      refine ⟨hq, ?_⟩
      change _ ∨ _ ∨ _ = (slotStart s.toDev).chn.slot ∨ _ ∧ (slotStart s.toDev).chn.slot = _
      rw [hslot]
      exact slotMine_unit hmine
  · intro f b g hb hg
    subst hb
    obtain ⟨hlen, hhead, hcrc, htail⟩ := frameBytes_split f
    obtain ⟨hmark0, hmark1⟩ := markOf_bytes
    refine ⟨⟨groups8 (((frameBytes f).length + 7) / 8) (frameBytes f), ?_, length_groups8 .., fun k hk => ?_⟩, ⟨evens (groups8 (2 * (((frameBytes f).length + 15) / 16)) (frameBytes f)),
      evens ((groups8 (2 * (((frameBytes f).length + 15) / 16)) (frameBytes f)).drop 1), ?_, ?_, ?_, fun k hk => ?_⟩, hlen, ?_, ?_, htail⟩
    · rw [← hmark0]
      rfl
    · rw [length_groups8] at hk
      rw [groups8_get _ _ _ hk, hg]
    · rw [← hmark0, ← hmark1]
      rfl
    · rw [length_evens, length_groups8]
      omega
    · rw [length_evens, length_evens, List.length_drop, length_groups8]
      omega
    · rw [length_evens, length_groups8] at hk
      rw [lanes_get, groups8_get _ _ _ (by omega), hg]
    · rfl
    · rw [hhead]
      exact hcrc

end Sys2Proof.Machine
end

section
/-! Enumeration: addresses taken in order, heads settled by DEVICE_ID, and the run's ends. -/

namespace Sys2Proof.Machine

open Sys2Proof.Safety

/-! ### What an enumeration frame leaves -/

/-- The device with its run of enumeration marked running or not. -/
def withRun (b : Bool) (d : Dev) : Dev := setChn d { d.chn with enumRunning := b }

theorem claimCells_withRun (b : Bool) (d : Dev) (i : Issuer) (n : Nat) : claimCells (withRun b d) i n = (claimCells d i n).map fun r => (withRun b r.1, r.2) := by
  have hroom : cellRoom (withRun b d) (holderOf i) = cellRoom d (holderOf i) := rfl
  unfold claimCells
  rw [hroom]
  split
  · rfl
  · rw [show (withRun b d).yrd = d.yrd from rfl, show (withRun b d).rng = d.rng from rfl]
    cases pickCells d.yrd d.rng (tagOf i) n <;> rfl

theorem holdPort_withRun (b : Bool) (d : Dev) (p : Port) : holdPort (withRun b d) p = withRun b (holdPort d p) := by
  have hport : portOf (withRun b d) p = portOf d p := by cases p <;> rfl
  unfold holdPort
  dsimp only
  rw [hport]
  split
  · rfl
  · cases p <;> rfl

/-- A frame queued does not ask whether the run goes on. -/
theorem enqueue_withRun (b : Bool) (d : Dev) (p : Port) (f : Frame) (r : Option Nat) : enqueue (withRun b d) p f r = withRun b (enqueue d p f r) := by
  have htokens : ∀ e, tokensFree (withRun b e) p = tokensFree e p := fun _ => rfl
  simp only [enqueue, holdPort_withRun, claimCells_withRun]
  cases claimCells (holdPort d p) (.krovlo 0) (cellsFor (20 + bodyLen f.body)) with
  | none =>
    simp only [Option.map, htokens]
    split <;> cases p <;> rfl
  | some e =>
    simp only [Option.map, htokens]
    split <;> cases p <;> rfl

theorem broadcastD_chn (d : Dev) (b : FBody) (r : Option Nat) : ∃ u n, (broadcastD d b r).chn = { d.chn with up := u, dn := n } := by
  have hfold : ∀ (l : List Port) (f : Frame) (d : Dev), ∃ u n, (l.foldl (fun d p => enqueue d p f r) d).chn = { d.chn with up := u, dn := n } := by
    intro l f
    induction l with
    | nil => exact fun d => ⟨_, _, rfl⟩
    | cons p l ih =>
      intro d
      obtain ⟨_, _, h⟩ := enqueue_chn d p f r
      obtain ⟨u, n, h'⟩ := ih (enqueue d p f r)
      exact ⟨u, n, by rw [List.foldl_cons, h', h]⟩
  unfold broadcastD broadcast
  dsimp only
  split
  · exact ⟨_, _, rfl⟩
  · exact hfold _ _ d

theorem logRec_chn (d : Dev) (r : Record) : (logRec d r).chn = d.chn := by
  obtain ⟨_, h⟩ := logRec_frame d r
  rw [h]

/-- The end of a run at the head. -/
theorem endEnum_chn (d : Dev) (next : Nat) (closed : Bool) :
    (endEnum d next closed).chn.units = min next 16 ∧ (endEnum d next closed).chn.openRing = !closed ∧ (endEnum d next closed).chn.role = .member ∧
    (endEnum d next closed).chn.enumRunning = false ∧ (endEnum d next closed).chn.attempts = 0 := by
  have hrec : ∀ e : Dev, (if (d.chn.role == .solitary) = true then recStatus e 0x0302 else e).chn = e.chn := fun e => by
    split
    · exact logRec_chn ..
    · rfl
  unfold endEnum updateRepl
  dsimp only [setChn]
  obtain ⟨_, _, h⟩ := broadcastD_chn (if (d.chn.role == .solitary) = true then recStatus (setChn { d with rng := d.rng + 1 } { d.chn with units := min next 16, openRing := !closed, line := !closed, role := .member, enumRunning := false, attempts := 0, delays := [Config.dnDelay d.rng] }) 0x0302
    else setChn { d with rng := d.rng + 1 } { d.chn with units := min next 16, openRing := !closed, line := !closed, role := .member, enumRunning := false, attempts := 0, delays := [Config.dnDelay d.rng] })
    (.roster Config.deviceId (min next 16) closed [Config.dnDelay d.rng]) none
  rw [hrec] at h
  dsimp only [setChn] at h
  rw [h]
  exact ⟨rfl, rfl, rfl, rfl, rfl⟩

/-! ### A unit passes an enumeration on -/

/-- The unit `e` passes the enumeration on with `n`, or sends it back where the chain ends. -/
def passOn (p : Port) (H : Bytes) (n : Nat) (e : Dev) : Dev :=
  if (portOf e (opposite p)).up then enqueue { e with chn := { e.chn with split := 16 } } (opposite p) (headFrame e (.enumerate H n))
  else enqueue { e with chn := { e.chn with split := n } } p (headFrame e (.enumBack H n))

theorem passOn_eq {p : Port} {H : Bytes} {n : Nat} {e : Dev} (hp : (portOf e p).up = true) :
    passOn p H n e = (let d := setChn e { e.chn with split := if (portOf e (opposite p)).up then 16 else n }
      if (portOf d (opposite p)).up then sendEnum d (opposite p) (.enumerate H n) else sendEnum d p (.enumBack H n)) := by
  have hport : ∀ k q, portOf (setChn e { e.chn with split := k }) q = portOf e q := fun k q => by cases q <;> rfl
  unfold passOn sendEnum
  dsimp only
  rw [hport, hport, hp]
  cases (portOf e (opposite p)).up <;> rfl

theorem passOn_chn (p : Port) (H : Bytes) (n : Nat) (e : Dev) : ∃ k u v, (passOn p H n e).chn = { e.chn with split := k, up := u, dn := v } := by
  unfold passOn
  split
  · obtain ⟨u, v, h⟩ := enqueue_chn { e with chn := { e.chn with split := 16 } } (opposite p) (headFrame e (.enumerate H n)) none
    exact ⟨16, u, v, h⟩
  · obtain ⟨u, v, h⟩ := enqueue_chn { e with chn := { e.chn with split := n } } p (headFrame e (.enumBack H n)) none
    exact ⟨n, u, v, h⟩

theorem passOn_link (p : Port) (H : Bytes) (n : Nat) (e : Dev) (q : Port) : (portOf (passOn p H n e) q).up = (portOf e q).up := by
  unfold passOn
  split
  · refine (enqueue_link ..).trans ?_
    cases q <;> rfl
  · refine (enqueue_link ..).trans ?_
    cases q <;> rfl

section
variable {d : Dev} {p : Port} {H : Bytes} {next : Nat}

/-- A unit's part of an enumeration: it takes or keeps an address, and passes the enumeration on. -/
def asUnit (p : Port) (H : Bytes) (next : Nat) (d : Dev) : Dev :=
  passOn p H (takeAddress d H next (p == .dn)).2 (takeAddress d H next (p == .dn)).1

theorem takeAddress_link (up : Bool) (q : Port) : portOf (takeAddress d H next up).1 q = portOf d q := by
  have hlog : ∀ (e : Dev) r, portOf (logRec e r) q = portOf e q := fun e r => portOf_chn (logRec_chn e r) q
  have hset : ∀ c : Chn, c.up = d.chn.up → c.dn = d.chn.dn → portOf (setChn d c) q = portOf d q := fun c hu hn => by
    cases q
    · exact hu
    · exact hn
  unfold takeAddress
  dsimp only
  split
  · rfl
  · split
    · split
      · refine (hlog ..).trans ?_
        split
        · exact (hlog ..).trans (hset _ rfl rfl)
        · exact hset _ rfl rfl
      · split
        · exact (hlog ..).trans (hset _ rfl rfl)
        · exact hset _ rfl rfl
    · exact hset _ rfl rfl

theorem asUnit_eq {e : Dev} (he : (portOf e p).up = true) :
    (let (d, n) := takeAddress e H next (p == .dn)
      let o := opposite p
      let d := setChn d { d.chn with split := if (portOf d o).up then 16 else n }
      if (portOf d o).up then sendEnum d o (.enumerate H n) else sendEnum d p (.enumBack H n)) = asUnit p H next e := by
  rw [asUnit, passOn_eq (by rw [takeAddress_link]; exact he)]

theorem portOf_recChnConfig (e : Dev) (q : Port) : portOf (recChnConfig e) q = portOf e q := portOf_chn (logRec_chn ..) q

theorem onEnumerate_yields (hh : isHead d = true) (hp : (portOf d p).up = true) (hne : H ≠ Config.deviceId) (hlt : idLt H Config.deviceId = true) :
    onEnumerate d p H next = asUnit p H next (recChnConfig (setChn d { d.chn with isHead := false, addrValid := false, attempts := 0, enumRunning := false })) := by
  have hne' : ¬ (H == Config.deviceId) = true := by simpa using hne
  have hport : (portOf (recChnConfig (setChn d { d.chn with isHead := false, addrValid := false, attempts := 0, enumRunning := false })) p).up = true := by
    rw [portOf_recChnConfig]
    cases p <;> exact hp
  refine Eq.trans ?_ (asUnit_eq hport)
  simp only [onEnumerate, hh, hlt, if_neg hne', if_true]

theorem onEnumerate_closes (hh : isHead d = true) (hH : H = Config.deviceId) : onEnumerate d p H next = endEnum d next true := by
  have hH' : (H == Config.deviceId) = true := by simpa using hH
  simp only [onEnumerate, hh, hH', if_true]

theorem onEnumerate_unit (hh : isHead d = false) (hp : (portOf d p).up = true) :
    onEnumerate d p H next =
      match d.chn.headId with
      | some x => if d.chn.addrValid && d.chn.role != .solitary && idLt x H then d else asUnit p H next (if x != H && d.chn.addrValid then recChnConfig d else d)
      | none => asUnit p H next d := by
  have hrec : (portOf (recChnConfig d) p).up = true := by rw [portOf_recChnConfig]; exact hp
  simp only [onEnumerate, hh, Bool.false_eq_true, if_false]
  cases d.chn.headId with
  | none => exact asUnit_eq hp
  | some x =>
    dsimp only
    split
    · rfl
    · split
      · exact asUnit_eq hrec
      · exact asUnit_eq hp

theorem takeAddress_kept (hv : d.chn.addrValid = true) (hs : d.chn.role ≠ .solitary) (hid : d.chn.headId = some H) (hn : next ≤ d.chn.addr) (up : Bool) :
    takeAddress d H next up = (d, d.chn.addr + 1) := by
  have hsame : (d.chn.addrValid && !(d.chn.role == .solitary) && d.chn.headId == some H && decide (next ≤ d.chn.addr)) = true := by simp [hv, hs, hid, hn]
  simp only [takeAddress, if_pos hsame]

/-- A unit that holds no address takes the next one; one that was SOLITARY says so. -/
theorem takeAddress_next (hfree : d.chn.addrValid = false ∨ d.chn.role = .solitary) (hn : next < 16) (up : Bool) :
    takeAddress d H next up =
      (let e := setChn d { d.chn with addr := next, addrValid := true, headId := some H, role := .member, upstream := up }
      (if d.chn.role == .solitary then recStatus e 0x0302 else e, next + 1)) := by
  have hheld : (d.chn.addrValid && !(d.chn.role == .solitary)) = false := by
    rcases hfree with h | h
    · rw [h]; rfl
    · rw [h]; simp
  simp only [takeAddress, hheld, Bool.false_and, Bool.false_eq_true, if_false, if_pos hn]

theorem takeAddress_none (hv : d.chn.addrValid = false) (hn : 16 ≤ next) (up : Bool) :
    takeAddress d H next up = (setChn d { d.chn with addr := 0, addrValid := false, headId := some H, role := .excluded, repl := false, upstream := up }, next + 1) := by
  simp only [takeAddress, hv, Bool.false_and, Bool.false_eq_true, if_false, if_neg (Nat.not_lt.mpr hn)]

/-- A unit without an address, or SOLITARY, answers the head it knows, or its first one. -/
theorem onEnumerate_free (hh : isHead d = false) (hp : (portOf d p).up = true) (hid : d.chn.headId = none ∨ d.chn.headId = some H) (hfree : d.chn.addrValid = false ∨ d.chn.role = .solitary) :
    onEnumerate d p H next = asUnit p H next d := by
  have hgo : ∀ x, ¬ (d.chn.addrValid && d.chn.role != .solitary && idLt x H) = true := fun x => by
    rcases hfree with h | h <;> simp [h]
  rw [onEnumerate_unit hh hp]
  rcases hid with h | h
  · simp only [h]
  · simp only [h, if_neg (hgo H), bne_self_eq_false, Bool.false_and, Bool.false_eq_true, if_false]

end

/-- A head that hears of a lower DEVICE_ID is a unit from then on. -/
theorem asUnit_newHead {d : Dev} (hv : d.chn.addrValid = false) (p : Port) (H : Bytes) (next : Nat) :
    (asUnit p H next d).chn.isHead = d.chn.isHead ∧ (asUnit p H next d).chn.enumRunning = d.chn.enumRunning ∧ (asUnit p H next d).chn.headId = some H := by
  have htake : ∃ a v r q u, (takeAddress d H next (p == .dn)).1.chn = { d.chn with addr := a, addrValid := v, role := r, repl := q, upstream := u, headId := some H } := by
    rcases Nat.lt_or_ge next 16 with hn | hn
    · rw [takeAddress_next (.inl hv) hn]
      dsimp only
      refine ⟨next, true, .member, d.chn.repl, p == .dn, ?_⟩
      split
      · exact logRec_chn ..
      · rfl
    · rw [takeAddress_none hv hn]
      exact ⟨0, false, .excluded, false, p == .dn, rfl⟩
  obtain ⟨a, v, r, q, u, htake⟩ := htake
  obtain ⟨k, x, y, hpass⟩ := passOn_chn p H (takeAddress d H next (p == .dn)).2 (takeAddress d H next (p == .dn)).1
  rw [asUnit, hpass, htake]
  exact ⟨rfl, rfl, rfl⟩

theorem heard_chn (d : Dev) (p : Port) : ∃ u n, (heard d p).chn = { d.chn with heardInCycle := true, up := u, dn := n } ∧ (heard d p).glb = d.glb := by
  cases p <;> exact ⟨_, _, rfl, rfl⟩

theorem isHead_heard (d : Dev) (p : Port) : isHead (heard d p) = isHead d := by
  cases p <;> rfl

/-- A frame sent out of a port that is up leaves the role and the links as they are. -/
theorem enqueueIfUp_same (e : Dev) (q : Port) (f : Frame) :
    (if (portOf e q).up then enqueue e q f else e).chn.role = e.chn.role ∧ ∀ x, (portOf (if (portOf e q).up then enqueue e q f else e) x).up = (portOf e x).up := by
  split
  · obtain ⟨_, _, h⟩ := enqueue_chn e q f none
    exact ⟨by rw [h], enqueue_link e q f none⟩
  · exact ⟨rfl, fun _ => rfl⟩

/-! ### The head's own runs -/

/-- The device of a head that starts a run: address 0, and nothing upstream of it yet. -/
def headStarts (d : Dev) (run : Bool) (n : Nat) : Dev :=
  { d with chn := { d.chn with addr := 0, addrValid := true, headId := some Config.deviceId, enumRunning := run, attempts := n, upstream := false, split := if d.chn.dn.up then 16 else 1 } }

section
variable {d : Dev} {q : Port} (hup : d.chn.dn.up = true ∨ d.chn.up.up = true) (hq : q = if d.chn.dn.up then Port.dn else Port.up)
include hup hq

theorem startEnum_sends : startEnum d = enqueue (headStarts d true (d.chn.attempts + 1)) q (headFrame (headStarts d true (d.chn.attempts + 1)) (.enumerate Config.deviceId 1)) := by
  have hport : (portOf (headStarts d true (d.chn.attempts + 1)) q).up = true := by
    rw [hq]
    cases hdn : d.chn.dn.up with
    | true => exact hdn
    | false => exact hup.resolve_left (by simp [hdn])
  have hrow : startEnum d = sendEnum (headStarts d true (d.chn.attempts + 1)) (if d.chn.dn.up then .dn else .up) (.enumerate Config.deviceId 1) := rfl
  rw [hrow, ← hq, sendEnum, if_pos hport]

theorem retryEnum_sends :
    retryEnum d = (let e := headStarts d (d.chn.enumRunning && decide (d.chn.attempts < 8)) (d.chn.attempts + 1)
      enqueue e q (headFrame e (.enumerate Config.deviceId 1))) := by
  have hrow : retryEnum d = withRun (d.chn.enumRunning && decide (d.chn.attempts < 8)) (startEnum d) := rfl
  rw [hrow, startEnum_sends hup hq, ← enqueue_withRun]
  rfl

end

theorem headStarts_same (d : Dev) (run : Bool) (n : Nat) (q : Port) (f : Frame) :
    (enqueue (headStarts d run n) q f).chn.role = d.chn.role ∧ ∀ x, (portOf (enqueue (headStarts d run n) q f) x).up = (portOf d x).up := by
  constructor
  · obtain ⟨_, _, h⟩ := enqueue_chn (headStarts d run n) q f none
    rw [h]
    rfl
  · intro x
    refine (enqueue_link ..).trans ?_
    cases x <;> rfl

/-! ### ENUM_BACK -/

section
variable {d : Dev} {p : Port} {H : Bytes} {next : Nat}

theorem onEnumBack_other (hh : isHead d = true) (hne : H ≠ Config.deviceId) : onEnumBack d p H next = d := by
  have hne' : (H != Config.deviceId) = true := by simpa using hne
  simp only [onEnumBack, hh, hne', if_true]

/-- The run comes back along the only way it went, and ends. -/
theorem onEnumBack_ends (hh : isHead d = true) (hH : H = Config.deviceId) (hp : p = .up ∨ d.chn.up.up = false) : ∃ e, onEnumBack d p H next = endEnum e next false := by
  have hH' : (H != Config.deviceId) = false := by simpa using hH
  cases p with
  | up => exact ⟨d, by simp only [onEnumBack, hh, hH', Bool.false_eq_true, if_true, if_false]⟩
  | dn =>
    have hup : d.chn.up.up = false := hp.resolve_left (by decide)
    exact ⟨setChn d { d.chn with split := next }, by simp only [onEnumBack, hh, hH', hup, Bool.false_eq_true, if_true, if_false]⟩

theorem onEnumBack_turns (hh : isHead d = true) (hH : H = Config.deviceId) (hup : d.chn.up.up = true) :
    onEnumBack d .dn H next = enqueue (setChn d { d.chn with split := next }) .up (headFrame (setChn d { d.chn with split := next }) (.enumerate H next)) := by
  have hH' : (H != Config.deviceId) = false := by simpa using hH
  have hport : (portOf (setChn d { d.chn with split := next }) .up).up = true := hup
  simp only [onEnumBack, hh, hH', hup, Bool.false_eq_true, if_true, if_false, sendEnum, hport]

/-- A unit hands the run back, and learns from the downstream port where the head's own way ends. -/
theorem onEnumBack_unit (hh : isHead d = false) :
    onEnumBack d p H next =
      (let e := if p = .dn then { d with chn := { d.chn with split := next } } else d
      if (portOf e (opposite p)).up then enqueue e (opposite p) (headFrame e (.enumBack H next)) else e) := by
  cases p <;> simp only [onEnumBack, hh, Bool.false_eq_true, if_false] <;> rfl

end

/-! ### The rows -/

/-- Settles O55: a frame of the enumeration is heard, then the unit's or the head's part of it runs. -/
theorem enumerationGivesAddresses : Obligations.EnumerationGivesAddresses := by
  intro s p h H next d e c hh hs hd hc
  subst hd hc
  have henum : exec (.enumerate p h H next) s = .next (on s (noteLink s.toDev (onEnumerate (heard s.toDev p) p H next))) :=
    congrArg (fun d => Host.Outcome.next (on s (noteLink s.toDev d))) (hop_heard hh hs fun d => onEnumerate d p H next)
  have hback : exec (.enumBack p h H next) s = .next (on s (noteLink s.toDev (onEnumBack (heard s.toDev p) p H next))) :=
    congrArg (fun d => Host.Outcome.next (on s (noteLink s.toDev d))) (hop_heard hh hs fun d => onEnumBack d p H next)
  have hretry : exec .enumerateRetry s = .next (on s (noteLink s.toDev (if isHead s.toDev && retries s.chn && (s.chn.up.up || s.chn.dn.up) then retryEnum s.toDev else s.toDev))) := rfl
  have hreenum : exec .reenum s = .next (on s (noteLink s.toDev (reenum s.toDev))) := rfl
  obtain ⟨cu, cn, hchn, -⟩ := heard_chn s.toDev p
  have hhead : isHead (heard s.toDev p) = isHead s.toDev := isHead_heard ..
  have hid : (heard s.toDev p).chn.headId = s.chn.headId := by rw [hchn]
  have hvalid : (heard s.toDev p).chn.addrValid = s.chn.addrValid := by rw [hchn]
  have haddr : (heard s.toDev p).chn.addr = s.chn.addr := by rw [hchn]
  have hrole : (heard s.toDev p).chn.role = s.chn.role := by rw [hchn]
  have hlink := heard_link s.toDev p
  have hport : (portOf (heard s.toDev p) p).up = true := (hlink p).trans (Bool.and_eq_true_iff.mp hh).1
  have hquiet : noteLink s.toDev (heard s.toDev p) = heard s.toDev p := noteLink_same hrole hlink
  refine ⟨fun hu hk on' hon => ?units, fun hu y hy hv hr hlt => ?lower, fun hu hne hlt => ?headStays, fun hu hne hlt => ?headYields, fun hu hH => ?headCloses,
    fun hu => ?passesBack, fun hu hne => ?notMine, fun hu hH hp => ?headEnds, fun hu hH hp hup he => ?headTurns, fun q hu hup hq => ⟨fun he hgo => ?retry, fun he hrun => ?again⟩,
    fun hno => ?noRetry, fun hno => ?noAgain⟩
  case units =>
    have hon' : ∀ n e, on' n e = passOn p H n e := hon
    have hhead' := hhead.trans hu
    refine ⟨fun hki hv hr hn => ?_, fun hv hr hn he => ?_, fun hr hn he => ?_, fun hv hn he => ?_⟩
    · have hrow : onEnumerate (heard s.toDev p) p H next = passOn p H (s.chn.addr + 1) (heard s.toDev p) := by
        have hlow : ¬ ((heard s.toDev p).chn.addrValid && (heard s.toDev p).chn.role != .solitary && idLt H H) = true := by simp [idLt]
        rw [onEnumerate_unit hhead' hport, hid, hki]
        dsimp only
        rw [if_neg hlow, bne_self_eq_false, Bool.false_and, if_neg Bool.false_ne_true, asUnit,
          takeAddress_kept (hvalid.trans hv) (by rw [hrole]; exact hr) (hid.trans hki) (by rw [haddr]; exact hn), haddr]
      obtain ⟨_, _, _, hpc⟩ := passOn_chn p H (s.chn.addr + 1) (heard s.toDev p)
      rw [henum, hrow, hon', noteLink_same]
      · rw [hpc]; exact hrole
      · exact fun q => (passOn_link ..).trans (hlink q)
    · have hsol : ((heard s.toDev p).chn.role == .solitary) = false := by rw [hrole]; simpa using hr
      rw [henum, onEnumerate_free hhead' hport (by rw [hid]; exact hk) (.inl (hvalid.trans hv)), asUnit, takeAddress_next (.inl (hvalid.trans hv)) hn, hon', he]
      simp only [hsol, Bool.false_eq_true, if_false] <;> rfl
    · have hsol : ((heard s.toDev p).chn.role == .solitary) = true := by rw [hrole, hr]; rfl
      rw [henum, onEnumerate_free hhead' hport (by rw [hid]; exact hk) (.inr (hrole.trans hr)), asUnit, takeAddress_next (.inr (hrole.trans hr)) hn, hon', he]
      simp only [hsol, if_true] <;> rfl
    · rw [henum, onEnumerate_free hhead' hport (by rw [hid]; exact hk) (.inl (hvalid.trans hv)), asUnit, takeAddress_none (hvalid.trans hv) hn, hon', he]
      rfl
  case lower =>
    have hlow : ((heard s.toDev p).chn.addrValid && (heard s.toDev p).chn.role != .solitary && idLt y H) = true := by
      rw [hvalid, hrole]
      simp [hv, hr, hlt]
    rw [henum, onEnumerate_unit (hhead.trans hu) hport, hid, hy]
    dsimp only
    rw [if_pos hlow, hquiet]
  case headStays =>
    have hne' : ¬ (H == Config.deviceId) = true := by simpa using hne
    rw [henum, onEnumerate, hhead, if_pos hu, if_neg hne', if_neg (by rw [hlt]; exact Bool.false_ne_true), hquiet]
  case headYields =>
    have hrec : (recChnConfig (setChn (heard s.toDev p) { (heard s.toDev p).chn with isHead := false, addrValid := false, attempts := 0, enumRunning := false })).chn =
        { (heard s.toDev p).chn with isHead := false, addrValid := false, attempts := 0, enumRunning := false } := logRec_chn ..
    have hnew := asUnit_newHead (d := recChnConfig (setChn (heard s.toDev p) { (heard s.toDev p).chn with isHead := false, addrValid := false, attempts := 0, enumRunning := false })) (by rw [hrec]) p H next
    rw [hrec] at hnew
    rw [henum, onEnumerate_yields (hhead.trans hu) hport hne hlt]
    refine ⟨_, rfl, ?_, ?_, ?_⟩
    · exact (congrArg Chn.isHead (noteLink_chn _ _)).trans hnew.1
    · exact (congrArg Chn.enumRunning (noteLink_chn _ _)).trans hnew.2.1
    · exact (congrArg Chn.headId (noteLink_chn _ _)).trans hnew.2.2
  case headCloses =>
    obtain ⟨hunits, hopen, hmember, hrun, hatt⟩ := endEnum_chn (heard s.toDev p) next true
    rw [henum, onEnumerate_closes (hhead.trans hu) hH]
    refine ⟨_, rfl, ?_, ?_, ?_, ?_, ?_⟩
    · exact (congrArg Chn.units (noteLink_chn _ _)).trans hunits
    · exact (congrArg Chn.openRing (noteLink_chn _ _)).trans hopen
    · exact (congrArg Chn.role (noteLink_chn _ _)).trans hmember
    · exact (congrArg Chn.enumRunning (noteLink_chn _ _)).trans hrun
    · exact (congrArg Chn.attempts (noteLink_chn _ _)).trans hatt
  case passesBack =>
    have he : ∀ e : Dev, e.chn.role = s.chn.role → (∀ q, (portOf e q).up = (portOf s.toDev q).up) → ∀ q f,
        noteLink s.toDev (if (portOf e q).up then enqueue e q f else e) = (if (portOf e q).up then enqueue e q f else e) := fun e hr hl q f =>
      noteLink_same ((enqueueIfUp_same e q f).1.trans hr) fun x => ((enqueueIfUp_same e q f).2 x).trans (hl x)
    rw [hback, onEnumBack_unit (hhead.trans hu)]
    dsimp only
    rw [he]
    · split <;> exact hrole
    · intro q
      refine Eq.trans ?_ (hlink q)
      cases p <;> cases q <;> rfl
  case notMine => rw [hback, onEnumBack_other (hhead.trans hu) hne, hquiet]
  case headEnds =>
    have hup : p = .up ∨ (heard s.toDev p).chn.up.up = false := hp.imp_right fun h => (hlink .up).trans h
    obtain ⟨e, hends⟩ := onEnumBack_ends (next := next) (hhead.trans hu) hH hup
    obtain ⟨hunits, hopen, hmember, -, -⟩ := endEnum_chn e next false
    rw [hback, hends]
    refine ⟨_, rfl, ?_, ?_, ?_⟩
    · exact (congrArg Chn.units (noteLink_chn _ _)).trans hunits
    · exact (congrArg Chn.openRing (noteLink_chn _ _)).trans hopen
    · exact (congrArg Chn.role (noteLink_chn _ _)).trans hmember
  case headTurns =>
    subst hp
    have hup' : (heard s.toDev .dn).chn.up.up = true := (hlink .up).trans hup
    rw [hback, onEnumBack_turns (hhead.trans hu) hH hup', he, noteLink_same]
    · rfl
    · obtain ⟨_, _, h⟩ := enqueue_chn (setChn (heard s.toDev .dn) { (heard s.toDev .dn).chn with split := next }) .up
        (headFrame (setChn (heard s.toDev .dn) { (heard s.toDev .dn).chn with split := next }) (.enumerate H next)) none
      rw [h]
      exact hrole
    · intro q
      refine (enqueue_link ..).trans (Eq.trans ?_ (hlink q))
      cases q <;> rfl
  case retry =>
    have hgo' : (isHead s.toDev && retries s.chn && (s.chn.up.up || s.chn.dn.up)) = true := by
      have hret : retries s.chn = true := by
        rcases hgo with h | ⟨h, h'⟩
        · simp [retries, h]
        · simp [retries, h, h']
      have hsome : (s.chn.up.up || s.chn.dn.up) = true := by
        rcases hup with h | h <;> simp [h]
      rw [hu, hret, hsome]
      rfl
    obtain ⟨hr, hl⟩ := headStarts_same s.toDev (s.chn.enumRunning && decide (s.chn.attempts < 8)) (s.chn.attempts + 1) q
      (headFrame (headStarts s.toDev (s.chn.enumRunning && decide (s.chn.attempts < 8)) (s.chn.attempts + 1)) (.enumerate Config.deviceId 1))
    rw [hretry, if_pos hgo', retryEnum_sends hup hq, he]
    exact congrArg (fun d => Host.Outcome.next (on s d)) (noteLink_same hr hl)
  case again =>
    have hrow : reenum s.toDev = startEnum (setChn s.toDev { s.chn with attempts := 0 }) := by
      have hgo : (isHead s.toDev && !s.toDev.chn.enumRunning) = true := by rw [hu, show s.toDev.chn.enumRunning = false from hrun]; rfl
      rw [reenum, if_pos hgo]
    obtain ⟨hr, hl⟩ := headStarts_same s.toDev true 1 q (headFrame (headStarts s.toDev true 1) (.enumerate Config.deviceId 1))
    rw [hreenum, hrow, startEnum_sends (d := setChn s.toDev { s.chn with attempts := 0 }) hup hq, he]
    exact congrArg (fun d => Host.Outcome.next (on s d)) (noteLink_same hr hl)
  case noRetry =>
    have hstop : ¬ (isHead s.toDev && retries s.chn && (s.chn.up.up || s.chn.dn.up)) = true := by
      rcases hno with h | ⟨h, h'⟩ | ⟨h, h'⟩
      · simp [h]
      · simp [h, h']
      · have hret : retries s.chn = false := by
          rcases h' with h' | h'
          · simp [retries, h, h']
          · simp [retries, h, h']
        simp [hret]
    rw [hretry, if_neg hstop, noteLink_self, toDev_on]
  case noAgain =>
    have hrow : reenum s.toDev = s.toDev := by
      have hstop : ¬ (isHead s.toDev && !s.toDev.chn.enumRunning) = true := by
        rcases hno with h | h
        · simp [h]
        · simp [show s.toDev.chn.enumRunning = true from h]
      rw [reenum, if_neg hstop]
    rw [hreenum, hrow, noteLink_self, toDev_on]

end Sys2Proof.Machine
end

section
/-! The leader's choice, membership, chain time, and what a unit does when it is alone. -/

namespace Sys2Proof.Machine

open Sys2Proof.Safety

/-! ### The lowest address of the highest epoch -/

theorem foldl_max_spec (l : List (Nat × Byte × Nat)) (m : Nat) :
    m ≤ l.foldl (fun m x => max m x.2.2) m ∧ (∀ x ∈ l, x.2.2 ≤ l.foldl (fun m x => max m x.2.2) m) ∧
    (l.foldl (fun m x => max m x.2.2) m = m ∨ ∃ x ∈ l, x.2.2 = l.foldl (fun m x => max m x.2.2) m) := by
  induction l generalizing m with
  | nil => exact ⟨Nat.le_refl _, fun x hx => (List.not_mem_nil hx).elim, .inl rfl⟩
  | cons y l ih =>
    obtain ⟨hle, hall, hhit⟩ := ih (max m y.2.2)
    rw [List.foldl_cons]
    refine ⟨Nat.le_trans (Nat.le_max_left ..) hle, fun x hx => ?_, ?_⟩
    · rcases List.mem_cons.mp hx with rfl | hx
      · exact Nat.le_trans (Nat.le_max_right ..) hle
      · exact hall x hx
    · rcases hhit with hhit | ⟨x, hx, hhit⟩
      · rcases Nat.le_total m y.2.2 with hmy | hmy
        · exact .inr ⟨y, List.mem_cons_self, by rw [hhit, Nat.max_eq_right hmy]⟩
        · exact .inl (by rw [hhit, Nat.max_eq_left hmy])
      · exact .inr ⟨x, List.mem_cons_of_mem _ hx, hhit⟩

/-- The fold that keeps the lowest address it has met. -/
def lowerOf (a : Option Nat) (x : Nat × Byte × Nat) : Option Nat := match a with | some y => some (min y x.1) | none => some x.1

theorem foldl_lowerOf (l : List (Nat × Byte × Nat)) (n : Nat) :
    ∃ k, l.foldl lowerOf (some n) = some k ∧ k ≤ n ∧ (∀ x ∈ l, k ≤ x.1) ∧ (k = n ∨ ∃ x ∈ l, x.1 = k) := by
  induction l generalizing n with
  | nil => exact ⟨n, rfl, Nat.le_refl _, fun x hx => (List.not_mem_nil hx).elim, .inl rfl⟩
  | cons y l ih =>
    obtain ⟨k, hk, hle, hall, hhit⟩ := ih (min n y.1)
    refine ⟨k, hk, Nat.le_trans hle (Nat.min_le_left ..), fun x hx => ?_, ?_⟩
    · rcases List.mem_cons.mp hx with rfl | hx
      · exact Nat.le_trans hle (Nat.min_le_right ..)
      · exact hall x hx
    · rcases hhit with hhit | ⟨x, hx, hhit⟩
      · rcases Nat.le_total n y.1 with hny | hny
        · exact .inl (by rw [hhit, Nat.min_eq_left hny])
        · exact .inr ⟨y, List.mem_cons_self, by rw [hhit, Nat.min_eq_right hny]⟩
      · exact .inr ⟨x, List.mem_cons_of_mem _ hx, hhit⟩

theorem lowestBest_spec {l : List (Nat × Byte × Nat)} (hl : l ≠ []) :
    ∃ x ∈ l, lowestBest l = some x.1 ∧ ∀ y ∈ l, y.2.2 ≤ x.2.2 ∧ (y.2.2 = x.2.2 → x.1 ≤ y.1) := by
  obtain ⟨-, hall, hhit⟩ := foldl_max_spec l 0
  have hrow : lowestBest l = (l.filter fun x => decide (x.2.2 = l.foldl (fun m x => max m x.2.2) 0)).foldl lowerOf none := rfl
  generalize l.foldl (fun m x => max m x.2.2) 0 = top at hall hhit hrow
  have hsome : ∃ x ∈ l, x.2.2 = top := by
    rcases hhit with h | h
    · obtain ⟨x, hx⟩ := List.exists_mem_of_ne_nil l hl
      exact ⟨x, hx, Nat.le_antisymm (hall x hx) (h ▸ Nat.zero_le _)⟩
    · exact h
  obtain ⟨y, hy, htop⟩ := hsome
  have hmem : ∀ x, x ∈ l.filter (fun x => decide (x.2.2 = top)) ↔ x ∈ l ∧ x.2.2 = top := fun x => by simp
  cases hf : l.filter (fun x => decide (x.2.2 = top)) with
  | nil =>
    have := (hmem y).mpr ⟨hy, htop⟩
    rw [hf] at this
    cases this
  | cons z f =>
    obtain ⟨k, hk, hle, hlow, hat⟩ := foldl_lowerOf f z.1
    have hres : lowestBest l = some k := by rw [hrow, hf]; exact hk
    have hin : ∃ x, x ∈ l ∧ x.2.2 = top ∧ x.1 = k := by
      rcases hat with rfl | ⟨x, hx, rfl⟩
      · obtain ⟨hzl, hzt⟩ := (hmem z).mp (hf ▸ List.mem_cons_self)
        exact ⟨z, hzl, hzt, rfl⟩
      · obtain ⟨hxl, hxt⟩ := (hmem x).mp (hf ▸ List.mem_cons_of_mem _ hx)
        exact ⟨x, hxl, hxt, rfl⟩
    obtain ⟨x, hxl, hxt, rfl⟩ := hin
    refine ⟨x, hxl, hres, fun w hw => ⟨hxt ▸ hall w hw, fun hwx => ?_⟩⟩
    have hwf : w ∈ z :: f := hf ▸ (hmem w).mpr ⟨hw, hwx.trans hxt⟩
    rcases List.mem_cons.mp hwf with rfl | hwf
    · exact hle
    · exact hlow w hwf

theorem chooseLeader_leads {d : Dev} (h : candidates d ≠ []) : leads (candidates d) (chooseLeader d) := by
  have hpool : (if ((candidates d).filter fun x => x.2.1 == 3).isEmpty then candidates d else (candidates d).filter fun x => x.2.1 == 3) =
      if (candidates d).any (fun x => x.2.1 == 3) then (candidates d).filter (fun x => x.2.1 == 3) else candidates d := by
    have hany : (candidates d).any (fun x => x.2.1 == 3) = !((candidates d).filter fun x => x.2.1 == 3).isEmpty := by
      rw [Bool.eq_iff_iff]
      simp [List.any_eq_true, List.filter_eq_nil_iff]
    rw [hany]
    cases ((candidates d).filter fun x => x.2.1 == 3).isEmpty <;> rfl
  have hne : (if ((candidates d).filter fun x => x.2.1 == 3).isEmpty then candidates d else (candidates d).filter fun x => x.2.1 == 3) ≠ [] := by
    split
    · exact h
    next hf => exact fun hnil => hf (by rw [hnil]; rfl)
  obtain ⟨x, hx, hbest, hall⟩ := lowestBest_spec hne
  have hlead : chooseLeader d = x.1 := by
    simp only [chooseLeader, hbest, Option.getD_some]
  rw [hlead]
  refine ⟨_, hpool, x, hx, rfl, hall⟩

/-! ### What a settled unit is -/

/-- The device after the leader has been chosen and duplicate ids noted. -/
def leaderNoted (d : Dev) : Dev :=
  let e := setChn d { d.chn with leader := chooseLeader d }
  if dupPresent e && !e.chn.dupId then
    let e := setChn e { e.chn with dupId := true }
    logRec e (recCrit "CHN" 0x0007 [rChnStatus e])
  else setChn e { e.chn with dupId := dupPresent e }

/-- What the STATUS of the leader, another unit, does to this one. -/
def peerNoted (d : Dev) (l : Nat) (b : StatusBody) : Dev :=
  let bad := d.chn.epoch == b.epoch && b.admDigest != admDigestOf (admittedOf d)
  let d := if bad && !d.chn.admMismatch then recStatus (setChn d { d.chn with admMismatch := true }) 0 else d
  let major := b.fwVersion.toNat / 65536 != d.key.fwVersion.toNat / 65536
  let d := if !major && decide (d.chn.epoch.toNat < b.epoch.toNat) then (unicast d l .configReq).getD d else d
  let d := if major then setChn d { d.chn with role := .excluded }
           else if d.chn.role == .excluded && d.chn.addrValid then setChn d { d.chn with role := .member } else d
  if !major && b.fwVersion != d.key.fwVersion && !d.chn.fwNoted.contains l then recStatus (setChn d { d.chn with fwNoted := d.chn.fwNoted ++ [l] }) 0 else d

theorem settle_eq (d : Dev) :
    settle d = updateRepl (match tget (leaderNoted d).chn.view (chooseLeader d) with
      | none => if (leaderNoted d).chn.role == .excluded && (leaderNoted d).chn.addrValid && decide (chooseLeader d = (leaderNoted d).chn.addr) then setChn (leaderNoted d) { (leaderNoted d).chn with role := .member } else leaderNoted d
      | some p => peerNoted (leaderNoted d) (chooseLeader d) p.body) := rfl

/-- `e` is `d` but for records, frames sent and the parts of its link that the leader's STATUS settles. -/
structure Noted (d e : Dev) : Prop where
  chn : ∃ l i m r n u v, e.chn = { d.chn with leader := l, dupId := i, admMismatch := m, role := r, fwNoted := n, up := u, dn := v }
  lc : e.lc = d.lc
  key : e.key = d.key
  reqs : ∀ p ∈ e.reqs, p ∈ d.reqs ∨ p.2.stage = .dispatched

variable {a d e : Dev}

theorem Noted.refl (d : Dev) : Noted d d := ⟨⟨_, _, _, _, _, _, _, rfl⟩, rfl, rfl, fun _ h => .inl h⟩

theorem Noted.trans (h : Noted a d) (k : Noted d e) : Noted a e := by
  obtain ⟨_, _, _, _, _, _, _, hc⟩ := h.chn
  obtain ⟨_, _, _, _, _, _, _, kc⟩ := k.chn
  refine ⟨⟨_, _, _, _, _, _, _, by rw [kc, hc]⟩, k.lc.trans h.lc, k.key.trans h.key, fun p hp => (k.reqs p hp).elim (h.reqs p) .inr⟩

theorem Noted.logRec (h : Noted a d) (r : Record) : Noted a (logRec d r) := by
  obtain ⟨v, hv⟩ := logRec_frame d r
  rw [hv]
  exact ⟨h.chn, h.lc, h.key, h.reqs⟩

theorem noted_setChn {c : Chn} (h : ∃ l i m r n u v, c = { d.chn with leader := l, dupId := i, admMismatch := m, role := r, fwNoted := n, up := u, dn := v }) : Noted d (setChn d c) :=
  ⟨h, rfl, rfl, fun _ hp => .inl hp⟩

theorem noted_unicast (d : Dev) (n : Nat) (b : FBody) : Noted d ((unicast d n b).getD d) := by
  cases h : unicast d n b with
  | none => exact .refl d
  | some e =>
    have hends := ends_unicast h
    obtain ⟨_, _, _, _, _, _, _, u, v, _, _, rfl⟩ := hends.parts
    exact ⟨⟨_, _, _, _, _, u, v, rfl⟩, rfl, rfl, hends.reqs⟩

theorem leaderNoted_parts (d : Dev) : Noted d (leaderNoted d) ∧ (leaderNoted d).chn = { d.chn with leader := chooseLeader d, dupId := dupPresent d } := by
  unfold leaderNoted
  dsimp only
  split
  next h =>
    have hdup : dupPresent d = true := (Bool.and_eq_true_iff.mp h).1
    rw [hdup]
    exact ⟨.logRec (noted_setChn ⟨_, _, _, _, _, _, _, rfl⟩) _, logRec_chn ..⟩
  · exact ⟨noted_setChn ⟨_, _, _, _, _, _, _, rfl⟩, rfl⟩

/-- The leader's STATUS: another list at the same epoch is a mismatch, another major version excludes. -/
theorem peerNoted_parts (d : Dev) (l : Nat) (b : StatusBody) :
    Noted d (peerNoted d l b) ∧ (peerNoted d l b).chn.leader = d.chn.leader ∧ (peerNoted d l b).chn.dupId = d.chn.dupId ∧
    (d.chn.epoch = b.epoch → b.admDigest ≠ admDigestOf (admittedOf d) → (peerNoted d l b).chn.admMismatch = true) ∧
    (b.fwVersion.toNat / 65536 ≠ d.key.fwVersion.toNat / 65536 → (peerNoted d l b).chn.role = .excluded) := by
  have h1 : ∃ e, (if (d.chn.epoch == b.epoch && b.admDigest != admDigestOf (admittedOf d)) && !d.chn.admMismatch then recStatus (setChn d { d.chn with admMismatch := true }) 0 else d) = e ∧
      Noted d e ∧ e.chn.leader = d.chn.leader ∧ e.chn.dupId = d.chn.dupId ∧ (d.chn.epoch = b.epoch → b.admDigest ≠ admDigestOf (admittedOf d) → e.chn.admMismatch = true) := by
    refine ⟨_, rfl, ?_⟩
    split
    · have hc : (recStatus (setChn d { d.chn with admMismatch := true }) 0).chn = { d.chn with admMismatch := true } := logRec_chn ..
      rw [hc]
      exact ⟨.logRec (noted_setChn ⟨_, _, _, _, _, _, _, rfl⟩) _, rfl, rfl, fun _ _ => rfl⟩
    next hno =>
      refine ⟨.refl d, rfl, rfl, fun he hd => ?_⟩
      simpa [he, hd] using hno
  obtain ⟨e1, he1, n1, l1, d1, m1⟩ := h1
  have h2 : ∀ c : Bool, ∃ e, (if c then (unicast e1 l .configReq).getD e1 else e1) = e ∧ Noted d e ∧ e.chn.leader = d.chn.leader ∧ e.chn.dupId = d.chn.dupId ∧ e.chn.admMismatch = e1.chn.admMismatch := fun c => by
    refine ⟨_, rfl, ?_⟩
    cases c with
    | false => exact ⟨n1, l1, d1, rfl⟩
    | true =>
      simp only [if_true]
      cases hu : unicast e1 l .configReq with
      | none => exact ⟨n1, l1, d1, rfl⟩
      | some e =>
        have hn := noted_unicast e1 l .configReq
        rw [hu] at hn
        obtain ⟨_, _, _, _, _, _, _, u, v, _, _, rfl⟩ := (ends_unicast hu).parts
        exact ⟨n1.trans hn, l1, d1, rfl⟩
  obtain ⟨e2, he2, n2, l2, d2, m2⟩ := h2 (!(b.fwVersion.toNat / 65536 != e1.key.fwVersion.toNat / 65536) && decide (e1.chn.epoch.toNat < b.epoch.toNat))
  have h3 : ∀ major : Bool, ∃ e, (if major then setChn e2 { e2.chn with role := .excluded } else if e2.chn.role == .excluded && e2.chn.addrValid then setChn e2 { e2.chn with role := .member } else e2) = e ∧
      Noted d e ∧ e.chn.leader = d.chn.leader ∧ e.chn.dupId = d.chn.dupId ∧ e.chn.admMismatch = e1.chn.admMismatch ∧ (major = true → e.chn.role = .excluded) := fun major => by
    refine ⟨_, rfl, ?_⟩
    cases major with
    | true => exact ⟨n2.trans (noted_setChn ⟨_, _, _, _, _, _, _, rfl⟩), l2, d2, m2, fun _ => rfl⟩
    | false =>
      simp only [Bool.false_eq_true, if_false]
      split
      · exact ⟨n2.trans (noted_setChn ⟨_, _, _, _, _, _, _, rfl⟩), l2, d2, m2, fun h => h.elim⟩
      · exact ⟨n2, l2, d2, m2, fun h => h.elim⟩
  obtain ⟨e3, he3, n3, l3, d3, m3, r3⟩ := h3 (b.fwVersion.toNat / 65536 != e1.key.fwVersion.toNat / 65536)
  have hrow : peerNoted d l b = if !(b.fwVersion.toNat / 65536 != e1.key.fwVersion.toNat / 65536) && b.fwVersion != e3.key.fwVersion && !e3.chn.fwNoted.contains l
      then recStatus (setChn e3 { e3.chn with fwNoted := e3.chn.fwNoted ++ [l] }) 0 else e3 := by
    unfold peerNoted
    dsimp only
    rw [he1, he2, he3]
  have hmajor : b.fwVersion.toNat / 65536 ≠ d.key.fwVersion.toNat / 65536 → (b.fwVersion.toNat / 65536 != e1.key.fwVersion.toNat / 65536) = true := fun h => by
    rw [n1.key]
    simpa using h
  rw [hrow]
  split
  · have hc : (recStatus (setChn e3 { e3.chn with fwNoted := e3.chn.fwNoted ++ [l] }) 0).chn = { e3.chn with fwNoted := e3.chn.fwNoted ++ [l] } := logRec_chn ..
    rw [hc]
    exact ⟨.logRec (n3.trans (noted_setChn ⟨_, _, _, _, _, _, _, rfl⟩)) _, l3, d3, fun he hd => m3.trans (m1 he hd), fun h => r3 (hmajor h)⟩
  · exact ⟨n3, l3, d3, fun he hd => m3.trans (m1 he hd), fun h => r3 (hmajor h)⟩

/-- What `settle` leaves. -/
structure Settled (d e : Dev) : Prop where
  chn : ∃ m r n u v b, e.chn = { d.chn with leader := chooseLeader d, dupId := dupPresent d, admMismatch := m, role := r, fwNoted := n, up := u, dn := v, repl := b }
  lc : e.lc = d.lc
  key : e.key = d.key
  reqs : ∀ p ∈ e.reqs, p ∈ d.reqs ∨ p.2.stage = .dispatched
  peer : ∀ q, tget d.chn.view (chooseLeader d) = some q →
    (d.chn.epoch = q.body.epoch → q.body.admDigest ≠ admDigestOf (admittedOf d) → e.chn.admMismatch = true) ∧
    (q.body.fwVersion.toNat / 65536 ≠ d.key.fwVersion.toNat / 65536 → e.chn.role = .excluded)
  repl : e.chn.repl = true → e.chn.role = .member ∧ e.chn.admMismatch = false ∧ (d.chn.view.any fun p => p.2.body.devId == Config.deviceId) = false

theorem selfInRepl_needs {d : Dev} (h : selfInRepl d = true) :
    d.chn.role = .member ∧ d.chn.admMismatch = false ∧ (d.chn.view.any fun p => p.2.body.devId == Config.deviceId) = false := by
  simp only [selfInRepl, Bool.and_eq_true, beq_iff_eq, Bool.not_eq_true'] at h
  obtain ⟨⟨⟨⟨⟨hrole, -⟩, -⟩, -⟩, hadm⟩, hview⟩ := h
  exact ⟨hrole, hadm, hview⟩

theorem settle_settled (d : Dev) : Settled d (settle d) := by
  obtain ⟨hn, hc⟩ := leaderNoted_parts d
  have hmid : ∃ e, settle d = updateRepl e ∧ Noted d e ∧ e.chn.leader = chooseLeader d ∧ e.chn.dupId = dupPresent d ∧
      ∀ q, tget d.chn.view (chooseLeader d) = some q →
        (d.chn.epoch = q.body.epoch → q.body.admDigest ≠ admDigestOf (admittedOf d) → e.chn.admMismatch = true) ∧
        (q.body.fwVersion.toNat / 65536 ≠ d.key.fwVersion.toNat / 65536 → e.chn.role = .excluded) := by
    refine ⟨_, settle_eq d, ?_⟩
    have hview : (leaderNoted d).chn.view = d.chn.view := by rw [hc]
    rw [hview]
    cases hq : tget d.chn.view (chooseLeader d) with
    | none =>
      dsimp only
      refine ⟨?_, ?_, ?_, fun q h => by cases h⟩
      · split
        · exact hn.trans (noted_setChn ⟨_, _, _, _, _, _, _, rfl⟩)
        · exact hn
      · split <;> simp [hc, setChn]
      · split <;> simp [hc, setChn]
    | some p =>
      obtain ⟨hpn, hl, hd, hadm, hmaj⟩ := peerNoted_parts (leaderNoted d) (chooseLeader d) p.body
      have hlist : admittedOf (leaderNoted d) = admittedOf d := by simp only [admittedOf, hc]
      rw [hlist, hc] at hadm
      rw [hn.key] at hmaj
      refine ⟨hn.trans hpn, hl.trans (by rw [hc]), hd.trans (by rw [hc]), fun q h => ?_⟩
      cases h
      exact ⟨hadm, hmaj⟩
  obtain ⟨e, hrow, hnote, hl, hd, hpeer⟩ := hmid
  obtain ⟨l, i, m, r, n, u, v, hec⟩ := hnote.chn
  rw [hrow]
  have hl' : l = chooseLeader d := by rw [hec] at hl; exact hl
  have hd' : i = dupPresent d := by rw [hec] at hd; exact hd
  refine ⟨⟨m, r, n, u, v, selfInRepl e, ?_⟩, hnote.lc, hnote.key, hnote.reqs, hpeer, fun h => ?_⟩
  · change { e.chn with repl := selfInRepl e } = _
    rw [hec, hl', hd']
  · obtain ⟨h1, h2, h3⟩ := selfInRepl_needs (show selfInRepl e = true from h)
    refine ⟨h1, h2, ?_⟩
    rw [hec] at h3
    exact h3

theorem candidates_congr {d e : Dev} (hv : e.chn.addrValid = d.chn.addrValid) (ha : e.chn.addr = d.chn.addr) (hl : e.lc = d.lc) (he : e.chn.epoch = d.chn.epoch) (hw : e.chn.view = d.chn.view) :
    candidates e = candidates d := by
  simp only [candidates, hv, ha, hl, he, hw]

/-- With no request sent to another unit, none is dropped. -/
theorem dropRemote_local {d : Dev} (h : allLocal d) (g : Nat → Bool) (st : Half) : dropRemote d g st = d := by
  have hfold : ∀ (l : Tab Req) (e : Dev), (∀ x ∈ l, ∀ a, x.2.stage ≠ .remote a) → l.foldl (fun d x => match x.2.stage with
      | .remote a => if g a then finish d x.1 st else d
      | _ => d) e = e := by
    intro l
    induction l with
    | nil => exact fun e _ => rfl
    | cons x l ih =>
      intro e hl
      have hx := hl x List.mem_cons_self
      have hstep : (match x.2.stage with
          | .remote a => if g a then finish e x.1 st else e
          | _ => e) = e := by
        cases hs : x.2.stage with
        | remote a => exact absurd hs (hx a)
        | _ => rfl
      rw [List.foldl_cons, hstep]
      exact ih e fun y hy => hl y (List.mem_cons_of_mem _ hy)
  exact hfold d.reqs d h

theorem allLocal_of {d e : Dev} (h : allLocal d) (hr : ∀ p ∈ e.reqs, p ∈ d.reqs ∨ p.2.stage = .dispatched) : allLocal e := fun x hx a hs => by
  rcases hr x hx with hx | hx
  · exact h x hx a hs
  · rw [hx] at hs
    cases hs

theorem clearWait_none {d : Dev} (h : d.chn.cfgWaits = []) (a : Nat) : clearWait d a = d := by
  have hsame : setChn d { d.chn with cfgWaits := [] } = d := by
    rw [← h]
    rfl
  rw [clearWait, h]
  exact hsame

/-! ### Chain time -/

theorem trackTime_parts (d : Dev) (t : Quad) : ∀ off : Int, off = (t.toNat : Int) + (pathDelay d : Nat) - (d.chn.time.toNat : Int) →
    ∃ x w y z, (trackTime d t).chn = { d.chn with trim := x, slewing := w, slewLeft := y, time := z } ∧ (trackTime d t).lc = d.lc ∧
    (off.natAbs ≤ 1000000 → z = d.chn.time ∧ w = d.chn.slewing) ∧
    (1000000 < off.natAbs → off.natAbs ≤ 1000000000 → z = d.chn.time ∧ w = some (d.chn.slewing.getD off) ∧ (d.chn.slewing = none → y = off)) ∧
    (1000000000 < off.natAbs → z = BitVec.ofNat 64 (t.toNat + pathDelay d) ∧ w = none) := by
  intro off hoff
  have hlog : ∀ (e : Dev) sub, (logRec e (recEvent "CHN" sub (b8 (BitVec.ofInt 64 off)))).chn = e.chn ∧ (logRec e (recEvent "CHN" sub (b8 (BitVec.ofInt 64 off)))).lc = e.lc := fun e sub => by
    obtain ⟨_, h⟩ := logRec_frame e (recEvent "CHN" sub (b8 (BitVec.ofInt 64 off)))
    rw [h]
    exact ⟨rfl, rfl⟩
  unfold trackTime
  dsimp only
  rw [← hoff]
  rcases Nat.lt_or_ge 1000000 off.natAbs with h1 | h1
  · rw [if_neg (Nat.not_le.mpr h1)]
    rcases Nat.lt_or_ge 1000000000 off.natAbs with h2 | h2
    · rw [if_neg (Nat.not_le.mpr h2)]
      exact ⟨_, _, _, _, (hlog _ _).1, (hlog _ _).2, fun h => absurd h (Nat.not_le.mpr h1), fun _ h => absurd h (Nat.not_le.mpr h2), fun _ => ⟨rfl, rfl⟩⟩
    · rw [if_pos h2]
      cases hs : d.chn.slewing with
      | none =>
        exact ⟨_, _, _, _, (hlog _ _).1, (hlog _ _).2, fun h => absurd h (Nat.not_le.mpr h1), fun _ _ => ⟨rfl, rfl, fun _ => rfl⟩, fun h => absurd h2 (Nat.not_le.mpr h)⟩
      | some o =>
        exact ⟨d.chn.trim, some o, d.chn.slewLeft, d.chn.time, by rw [if_pos (show (some o).isSome = true from rfl), ← hs], rfl, fun h => absurd h (Nat.not_le.mpr h1), fun _ _ => ⟨rfl, rfl, fun h => by cases h⟩, fun h => absurd h2 (Nat.not_le.mpr h)⟩
  · rw [if_pos h1]
    have hno : ¬ 1000000 < off.natAbs := Nat.not_lt.mpr h1
    cases hs : d.chn.slewing with
    | none => exact ⟨off, none, d.chn.slewLeft, d.chn.time, by rw [if_neg (by simp), ← hs]; rfl, rfl, fun _ => ⟨rfl, rfl⟩, fun h => absurd h hno, fun h => by omega⟩
    | some o => exact ⟨d.chn.trim, some o, d.chn.slewLeft, d.chn.time, by rw [if_pos (show (some o).isSome = true from rfl), ← hs], rfl, fun _ => ⟨rfl, rfl⟩, fun h => absurd h hno, fun h => by omega⟩

/-! ### Frames of the link's upkeep -/

theorem emit_out (d : Dev) (o : Out) : ∃ x, emit d o = { d with out := x } := ⟨_, rfl⟩

/-- The device once a neighbour's STATUS stands in its view. -/
def seen (d : Dev) (a : Nat) (b : StatusBody) (o : List Out) : Dev :=
  { d with chn := { d.chn with heardInCycle := true, view := tset d.chn.view a { body := b, seenAt := d.now } }, out := o }

/-- Where no request waits for another unit, a STATUS settles the view and the leader's one sets the time. -/
theorem onStatus_settles {p : Port} {h : LinkHdr} (hh : hears d p = true) (hn : h.origin.toNat < 16) (ho : d.chn.addrValid = false ∨ h.origin.toNat ≠ d.chn.addr)
    (hl : allLocal d) (hw : d.chn.cfgWaits = []) (b : StatusBody) :
    ∃ o, onStatus d p h b = if h.origin.toNat = (settle (seen d h.origin.toNat b o)).chn.leader then trackTime (settle (seen d h.origin.toNat b o)) b.time else settle (seen d h.origin.toNat b o) := by
  have hself : (decide (16 ≤ h.origin.toNat) || (d.chn.addrValid && h.origin.toNat == d.chn.addr)) = false := by
    rcases ho with ho | ho <;> simp [ho, hn]
  have hacks : ∀ e : Dev, e.chn.cfgWaits = [] → statusAcks e h.origin.toNat b = e := fun e he => by
    unfold statusAcks
    split
    · exact clearWait_none he _
    · rfl
  have hsent : ∃ o, (if (h.dest == 0xFF && lastHop (setChn d { d.chn with heardInCycle := true }) p h) || 16 ≤ h.hops + 1 then setChn d { d.chn with heardInCycle := true }
      else sendOut (setChn d { d.chn with heardInCycle := true }) (opposite p) { hdr := { h with hops := h.hops + 1 }, body := .status b }) = { d with chn := { d.chn with heardInCycle := true }, out := o } := by
    split
    · exact ⟨_, rfl⟩
    · exact emit_out ..
  obtain ⟨o, hsent⟩ := hsent
  refine ⟨o, ?_⟩
  obtain ⟨⟨_, _, _, _, _, _, hc⟩, -, -, hreqs, -, -⟩ := settle_settled (seen d h.origin.toNat b o)
  have hwaits : (settle (seen d h.origin.toNat b o)).chn.cfgWaits = [] := by rw [hc]; exact hw
  have hlocal : allLocal (settle (seen d h.origin.toNat b o)) := allLocal_of (d := d) hl hreqs
  unfold onStatus
  dsimp only
  rw [hh, hsent]
  simp only [Bool.not_true, Bool.false_eq_true, if_false]
  rw [if_neg (by rw [hself]; exact Bool.false_ne_true)]
  have hseen : setChn { d with chn := { d.chn with heardInCycle := true }, out := o } { d.chn with heardInCycle := true, view := tset d.chn.view h.origin.toNat { body := b, seenAt := d.now } } = seen d h.origin.toNat b o := rfl
  rw [hseen, hacks _ hwaits, dropRemote_local hlocal, ite_self]

theorem candidates_seen (d : Dev) (a : Nat) (b : StatusBody) (o : List Out) : candidates (seen d a b o) ≠ [] := by
  intro h
  obtain ⟨-, h⟩ := List.append_eq_nil_iff.mp h
  have hview : tset d.chn.view a { body := b, seenAt := d.now } = [] := List.map_eq_nil_iff.mp h
  have := tget_tset_self d.chn.view a { body := b, seenAt := d.now }
  rw [hview] at this
  cases this

theorem pathDelay_congr {d e : Dev} (hd : e.chn.delays = d.chn.delays) (ha : e.chn.addr = d.chn.addr) : pathDelay e = pathDelay d := by
  simp only [pathDelay, hd, ha]

theorem admittedOf_congr {d e : Dev} (h : e.chn.admitted = d.chn.admitted) : admittedOf e = admittedOf d := by
  simp only [admittedOf, h]

/-- The status of a unit with nothing to give up when it becomes alone. -/
theorem becomeSolitary_parts (hr : d.chn.role ≠ .solitary) (hl : allLocal d) (hp : d.chn.replicates = []) (hw : d.chn.cfgWaits = []) :
    ∃ e, becomeSolitary d = recStatus e 0x0301 ∧ e = setChn d { d.chn with role := .solitary, addr := 0, addrValid := true, units := 1, leader := 0, view := [], repl := false, unacked := 0, attempts := 0, enumRunning := false, replicates := [], cfgWaits := [] } := by
  refine ⟨_, ?_, rfl⟩
  unfold becomeSolitary
  dsimp only
  rw [if_neg (by simpa using hr), hp, hw]
  simp only [List.foldl_nil]
  have hdrop : ∀ c, dropRemote (setChn d c) (fun _ => true) ST.linkLost = setChn d c := fun c => dropRemote_local (d := setChn d c) hl _ _
  exact congrArg (recStatus · 0x0301) (hdrop _)

theorem noteLink_alert {d e : Dev} (h : e.chn.role ≠ d.chn.role) : (noteLink d e).mgt.alert.getLsbD 4 = true := by
  have hset := alert_set e (b := 4) (by decide)
  have hsig : ∀ x : Dev, x.mgt.alert.getLsbD 4 = true → (signal x .pf 7).mgt.alert.getLsbD 4 = true := fun x hx => by
    obtain ⟨_, _, hs⟩ := signal_frame x .pf 7
    rw [hs]
    exact hx
  simp only [noteLink, if_neg (Ne.symm h)]
  split
  · exact hset
  · exact hsig _ hset

theorem heardHere_chn (d : Dev) (p : Port) (h : LinkHdr) : ∃ u n, (heardHere d p h).chn = { d.chn with heardInCycle := true, up := u, dn := n } ∧ u.cut = d.chn.up.cut ∧ n.cut = d.chn.dn.cut := by
  rw [heardHere, woken_chn]
  cases p <;> exact ⟨_, _, rfl, rfl, rfl⟩

theorem heardHere_link (d : Dev) (p : Port) (h : LinkHdr) (q : Port) : (portOf (heardHere d p h) q).up = (portOf d q).up := by
  rw [heardHere, portOf_chn (woken_chn ..)]
  exact heard_link ..

theorem noteLink_lc (d e : Dev) : (noteLink d e).lc = e.lc := by
  obtain ⟨_, _, _, h⟩ := noteLink_parts d e
  rw [h]

theorem mem_of_tget {α : Type} {t : Tab α} {k : Nat} {v : α} (h : tget t k = some v) : (k, v) ∈ t := by
  induction t with
  | nil => cases h
  | cons x t ih =>
    obtain ⟨j, w⟩ := x
    simp only [tget] at h
    split at h
    next hj =>
      cases h
      exact hj ▸ List.mem_cons_self
    · exact List.mem_cons_of_mem _ (ih h)

/-- A unit of this one's id in the view is a duplicate. -/
theorem dup_of_view {e : Dev} {a : Nat} {q : Peer} (h : tget e.chn.view a = some q) (hid : q.body.devId = Config.deviceId) :
    dupPresent e = true ∧ (e.chn.view.any fun x => x.2.body.devId == Config.deviceId) = true := by
  have hmem := mem_of_tget h
  refine ⟨?_, List.any_eq_true.mpr ⟨_, hmem, beq_iff_eq.mpr hid⟩⟩
  have hids : (e.chn.view.map (·.2.body.devId)).contains Config.deviceId = true := List.contains_iff_mem.mpr (List.mem_map.mpr ⟨_, hmem, hid⟩)
  simp only [dupPresent, hids, Bool.true_or]

theorem statusLost_fresh {a : Nat} (h : ∀ q, tget d.chn.view a = some q → d.now < q.seenAt + 3200000) : statusLost d a = d := by
  have hcond : (tget d.chn.view a).any (fun q => decide (q.seenAt + 3200000 ≤ d.now)) = false := by
    cases hq : tget d.chn.view a with
    | none => rfl
    | some q =>
      rw [Option.any_some]
      exact decide_eq_false (Nat.not_le.mpr (h q hq))
  simp only [statusLost, hcond, Bool.not_false, if_true]

theorem statusLost_due {a : Nat} {q : Peer} (hq : tget d.chn.view a = some q) (hdue : q.seenAt + 3200000 ≤ d.now) (hl : allLocal d) (hw : d.chn.cfgWaits = []) :
    statusLost d a = settle (setChn d { d.chn with view := tdel d.chn.view a }) := by
  have hcond : (tget d.chn.view a).any (fun q => decide (q.seenAt + 3200000 ≤ d.now)) = true := by
    rw [hq, Option.any_some]
    exact decide_eq_true hdue
  have hdrop : ∀ c, dropRemote (setChn d c) (fun x => x == a) ST.linkLost = setChn d c := fun c => dropRemote_local (d := setChn d c) hl _ _
  simp only [statusLost, hcond, hdrop, Bool.not_true, Bool.false_eq_true, if_false]
  refine clearWait_none ?_ _
  obtain ⟨⟨_, _, _, _, _, _, hc⟩, -, -, -, -, -⟩ := settle_settled (setChn d { d.chn with view := tdel d.chn.view a })
  rw [hc]
  exact hw

/-- Settles O56: the leader is chosen from the STATUS frames heard, and a unit that hears no other goes on alone. -/
theorem unitsAgreeOnALeader : Obligations.UnitsAgreeOnALeader := by
  intro s p h d hd hlocal hwaits
  refine ⟨fun b hh hn ho => ?status, ?heartbeat, fun i hi hrole hreps => ?alone, fun h1 h2 h3 => ?notAlone, fun hno => ?addressed, fun a => ⟨fun q hq => ?fresh, fun q hq hdue => ?lost⟩,
    fun H units closed delays hu => ⟨fun hid => ?roster, fun hid => ?otherRoster⟩, fun e l hu => ⟨fun hne he => ?config, fun hne he => ?oldConfig, ?asked⟩, fun off hoff => ?slewed, fun hoff => ?still⟩
  case status =>
    obtain ⟨o, hrow⟩ := onStatus_settles hh hn ho hlocal hwaits b
    have hne := candidates_seen s.toDev h.origin.toNat b o
    generalize he : seen s.toDev h.origin.toNat b o = e at hrow hne
    have hec : e.chn = { s.chn with heardInCycle := true, view := tset s.chn.view h.origin.toNat { body := b, seenAt := s.now } } := by rw [← he]; rfl
    have hkey : e.key = s.key := by rw [← he]; rfl
    have hself : tget e.chn.view h.origin.toNat = some { body := b, seenAt := s.now } := by rw [hec]; exact tget_tset_self ..
    obtain ⟨⟨m, r, n, u, v, rp, hc⟩, hlc, -, -, hpeer, hrepl⟩ := settle_settled e
    have hadm : admittedOf e = admittedOf s.toDev := admittedOf_congr (by rw [hec])
    have hpath : pathDelay (settle e) = pathDelay s.toDev := pathDelay_congr (by rw [hc, hec]) (by rw [hc, hec])
    have htime : (settle e).chn.time = s.chn.time ∧ (settle e).chn.slewing = s.chn.slewing := by rw [hc, hec]; exact ⟨rfl, rfl⟩
    have htail : ∃ x w y z, (onStatus s.toDev p h b).chn = { (settle e).chn with trim := x, slewing := w, slewLeft := y, time := z } ∧ (onStatus s.toDev p h b).lc = (settle e).lc ∧
        (h.origin.toNat ≠ (settle e).chn.leader → z = s.chn.time ∧ w = s.chn.slewing) ∧
        (h.origin.toNat = (settle e).chn.leader → ∀ off : Int, off = (b.time.toNat : Int) + (pathDelay s.toDev : Nat) - (s.chn.time.toNat : Int) →
          (off.natAbs ≤ 1000000 → z = s.chn.time ∧ w = s.chn.slewing) ∧
          (1000000 < off.natAbs → off.natAbs ≤ 1000000000 → z = s.chn.time ∧ w = some (s.chn.slewing.getD off) ∧ (s.chn.slewing = none → y = off)) ∧
          (1000000000 < off.natAbs → z = BitVec.ofNat 64 (b.time.toNat + pathDelay s.toDev) ∧ w = none)) := by
      rw [hrow]
      split
      next hlead =>
        obtain ⟨x, w, y, z, h1, h2, h3⟩ := trackTime_parts (settle e) b.time _ rfl
        rw [hpath, htime.1, htime.2] at h3
        exact ⟨x, w, y, z, h1, h2, fun h => absurd hlead h, fun _ off hoff => hoff ▸ h3⟩
      next hlead => exact ⟨_, _, _, _, rfl, rfl, fun _ => htime, fun h => absurd h hlead⟩
    obtain ⟨x, w, y, z, htc, htl, hother, hleader⟩ := htail
    obtain ⟨hcand, hleads⟩ : candidates (noteLink s.toDev (onStatus s.toDev p h b)) = candidates e ∧ leads (candidates e) (chooseLeader e) := by
      refine ⟨candidates_congr ?_ ?_ ((noteLink_lc ..).trans (htl.trans hlc)) ?_ ?_, chooseLeader_leads hne⟩ <;> rw [noteLink_chn, htc, hc]
    have huc : (on s (noteLink s.toDev (onStatus s.toDev p h b))).chn = { (settle e).chn with trim := x, slewing := w, slewLeft := y, time := z } := (noteLink_chn ..).trans htc
    have hrepl' : ∀ P : Prop, (P → rp = true → False) → P → rp = false := fun P h hp => by
      cases hr : rp with
      | false => rfl
      | true => exact (h hp hr).elim
    rw [hc] at hpeer hrepl hother hleader huc
    have hexec : exec (.status p h b) s = .next (on s (noteLink s.toDev (onStatus s.toDev p h b))) := rfl
    refine ⟨_, hexec, ?_⟩
    rw [show candidates (on s (noteLink s.toDev (onStatus s.toDev p h b))).toDev = candidates e from hcand, huc]
    refine ⟨by rw [hec], by rw [hec], hleads, by rw [hec], by rw [hec], fun hid => ?_, fun q hq => ?_, hother, hleader⟩
    · obtain ⟨hdup, hview⟩ := dup_of_view hself hid
      refine ⟨hdup, hrepl' True (fun _ hr => ?_) trivial⟩
      obtain ⟨-, -, hno⟩ := hrepl hr
      exact Bool.false_ne_true (hno.symm.trans hview)
    · obtain ⟨hmis, hmaj⟩ := hpeer q hq
      rw [hec, hadm] at hmis
      rw [hkey] at hmaj
      refine ⟨fun h1 h2 => ⟨hmis h1.symm h2, hrepl' True (fun _ hr => ?_) trivial⟩, fun h1 => ⟨hmaj h1, hrepl' True (fun _ hr => ?_) trivial⟩⟩
      · obtain ⟨-, hno, -⟩ := hrepl hr
        exact Bool.false_ne_true (hno.symm.trans (hmis h1.symm h2))
      · obtain ⟨hmem, -, -⟩ := hrepl hr
        cases hmem.symm.trans (hmaj h1)
  case heartbeat =>
    have hexec : exec .heartbeat s = .next (on s (noteLink s.toDev (heartbeat s.toDev))) := rfl
    refine ⟨_, hexec, ?_⟩
    change (noteLink _ _).chn.unacked = _ ∧ (noteLink _ _).chn.heardInCycle = _ ∧ (noteLink _ _).chn.statusDue = _ ∧ (noteLink _ _).chn.view = _ ∧ (_ → _ → leads _ (noteLink _ _).chn.leader)
    rw [noteLink_chn]
    unfold heartbeat
    dsimp only
    split
    · obtain ⟨⟨m, r, n, u, v, rp, hc⟩, -, -, -, -, -⟩ := settle_settled (setChn s.toDev { s.chn with statusDue := (s.chn.addrValid && decide (s.chn.units ≠ 0)) || s.chn.role == .excluded, unacked := if s.chn.heardInCycle then 0 else s.chn.unacked + 1, heardInCycle := false })
      rw [hc]
      exact ⟨rfl, rfl, rfl, rfl, fun _ hne => chooseLeader_leads hne⟩
    next hno =>
      refine ⟨rfl, rfl, rfl, rfl, fun hr => ?_⟩
      rcases hr with hr | hr <;> simp [hr] at hno
  case alone =>
    obtain ⟨e, hrow, he⟩ := becomeSolitary_parts hrole hlocal hreps hwaits
    have hchn : (becomeSolitary s.toDev).chn = e.chn := by rw [hrow]; exact logRec_chn ..
    have hexec : exec i s = .next (on s (noteLink s.toDev (becomeSolitary s.toDev))) := by
      rcases hi with ⟨rfl, hi⟩ | ⟨rfl, hhead, hup, haddr, hex⟩
      · have hnow : solitaryNow s.toDev = true := by
          rcases hi with hi | hi | hi <;> simp [solitaryNow, hi]
        have hexec : exec .solitary s = .next (on s (noteLink s.toDev (if solitaryNow s.toDev then becomeSolitary s.toDev else s.toDev))) := rfl
        rw [hexec, if_pos hnow]
      · have hexec : exec .noAddressTimeout s = .next (on s (noteLink s.toDev (if !isHead s.toDev && s.chn.everUp && !s.chn.addrValid && s.chn.role != .excluded then becomeSolitary s.toDev else s.toDev))) := rfl
        rw [hexec, if_pos (by simp [hhead, hup, haddr, hex])]
    refine ⟨_, hexec, (noteLink_chn ..).trans (hchn.trans ?_), noteLink_alert ?_⟩
    · rw [he]
      rfl
    · rw [hchn, he]
      exact Ne.symm hrole
  case notAlone =>
    have hexec : exec .solitary s = .next (on s (noteLink s.toDev (if solitaryNow s.toDev then becomeSolitary s.toDev else s.toDev))) := rfl
    rw [hexec, if_neg (by simp [solitaryNow, h1, h2, h3]), noteLink_self]
    rfl
  case addressed =>
    have hexec : exec .noAddressTimeout s = .next (on s (noteLink s.toDev (if !isHead s.toDev && s.chn.everUp && !s.chn.addrValid && s.chn.role != .excluded then becomeSolitary s.toDev else s.toDev))) := rfl
    have hcond : ¬ (!isHead s.toDev && s.chn.everUp && !s.chn.addrValid && s.chn.role != .excluded) = true := by
      rcases hno with h | h | h | h <;> simp [h]
    rw [hexec, if_neg hcond, noteLink_self]
    rfl
  case fresh =>
    have hexec : exec (.statusTimeout a) s = .next (on s (noteLink s.toDev (statusLost s.toDev a.val))) := rfl
    have hkeep : statusLost s.toDev a.val = s.toDev := statusLost_fresh fun r hr => by
      rcases hq with hq | ⟨hq, hlt⟩
      · cases hq.symm.trans hr
      · cases hq.symm.trans hr
        exact hlt
    rw [hexec, hkeep, noteLink_self]
    rfl
  case lost =>
    have hexec : exec (.statusTimeout a) s = .next (on s (noteLink s.toDev (statusLost s.toDev a.val))) := rfl
    have hrow := statusLost_due hq hdue hlocal hwaits
    rw [hrow] at hexec
    generalize he : setChn s.toDev { s.chn with view := tdel s.chn.view a.val } = e at hexec
    have hview : e.chn.view = tdel s.chn.view a.val := by rw [← he]; rfl
    refine ⟨_, hexec, ?_, fun hne => ?_⟩
    · obtain ⟨⟨_, _, _, _, _, _, hc⟩, -, -, -, -, -⟩ := settle_settled e
      change (noteLink _ _).chn.view = _
      rw [noteLink_chn, hc]
      exact hview
    · change candidates (noteLink s.toDev (settle e)) ≠ [] at hne
      change leads (candidates (noteLink s.toDev (settle e))) (noteLink s.toDev (settle e)).chn.leader
      obtain ⟨⟨_, _, _, _, _, _, hc⟩, hlc, -, -, -, -⟩ := settle_settled e
      have hcand : candidates (noteLink s.toDev (settle e)) = candidates e := by
        refine candidates_congr ?_ ?_ ((noteLink_lc ..).trans hlc) ?_ ?_ <;> rw [noteLink_chn, hc]
      rw [hcand] at hne ⊢
      rw [noteLink_chn, hc]
      exact chooseLeader_leads hne
  case roster =>
    obtain ⟨u, n, hc, hu', hn'⟩ := heardHere_chn s.toDev p h
    have hexec : exec (.roster p h H units closed delays) s = .next (on s (noteLink s.toDev (onRoster (heardHere s.toDev p h) H units closed delays))) :=
      congrArg (fun d => Host.Outcome.next (on s (noteLink s.toDev d))) (accept_heard hu _ _)
    have hadopt : (onRoster (heardHere s.toDev p h) H units closed delays).chn = { (heardHere s.toDev p h).chn with units, openRing := !closed || s.chn.up.cut || s.chn.dn.cut, line := !closed, delays, role := if s.chn.role = .enumerating ∧ s.chn.addrValid = true then .member else s.chn.role, repl := (onRoster (heardHere s.toDev p h) H units closed delays).chn.repl } := by
      unfold onRoster updateRepl
      have hne : ((heardHere s.toDev p h).chn.headId != some H) = false := by rw [hc]; simp [hid]
      rw [hne]
      simp only [Bool.false_eq_true, if_false, setChn, hc, hu', hn']
      simp
    refine ⟨_, hexec, ?_⟩
    change (noteLink _ _).chn.units = _ ∧ (noteLink _ _).chn.delays = _ ∧ (noteLink _ _).chn.openRing = _ ∧ (noteLink _ _).chn.role = _
    rw [noteLink_chn, hadopt]
    exact ⟨rfl, rfl, rfl, rfl⟩
  case otherRoster =>
    obtain ⟨u, n, hc, -, -⟩ := heardHere_chn s.toDev p h
    have hexec : exec (.roster p h H units closed delays) s = .next (on s (noteLink s.toDev (onRoster (heardHere s.toDev p h) H units closed delays))) :=
      congrArg (fun d => Host.Outcome.next (on s (noteLink s.toDev d))) (accept_heard hu _ _)
    have hkeep : onRoster (heardHere s.toDev p h) H units closed delays = heardHere s.toDev p h := by
      unfold onRoster
      rw [if_pos (by rw [hc]; simpa using hid)]
    rw [hexec, hkeep, noteLink_same (heardHere_role ..) fun q => heardHere_link s.toDev p h q, hd]
  case config =>
    obtain ⟨u, n, hc, -, -⟩ := heardHere_chn s.toDev p h
    have hexec : exec (.config p h e l) s = .next (on s (onConfig (heardHere s.toDev p h) h e l)) :=
      congrArg (fun d => Host.Outcome.next (on s d)) (accept_heard hu _ _)
    refine ⟨_, hexec, ?_⟩
    have hempty : l.isEmpty = false := by simpa using hne
    have hle : ¬ e.toNat ≤ (heardHere s.toDev p h).chn.epoch.toNat := by rw [hc]; exact Nat.not_le.mpr he
    have hchn : ∀ c, (recChnConfig (setChn (heardHere s.toDev p h) c)).chn = c := fun c => logRec_chn ..
    change (onConfig _ h e l).chn.epoch = _ ∧ (onConfig _ h e l).chn.admitted = _ ∧ (onConfig _ h e l).chn.admMismatch = _ ∧ (onConfig _ h e l).chn.statusDue = _
    unfold onConfig updateRepl
    dsimp only
    rw [hempty, if_neg Bool.false_ne_true, if_neg hle, hchn]
    exact ⟨rfl, rfl, rfl, rfl⟩
  case oldConfig =>
    obtain ⟨u, n, hc, -, -⟩ := heardHere_chn s.toDev p h
    have hexec : exec (.config p h e l) s = .next (on s (onConfig (heardHere s.toDev p h) h e l)) :=
      congrArg (fun d => Host.Outcome.next (on s d)) (accept_heard hu _ _)
    have hempty : l.isEmpty = false := by simpa using hne
    rw [hexec, onConfig, hempty, if_neg Bool.false_ne_true, if_pos (by rw [hc]; exact he), hd]
  case asked =>
    obtain ⟨u, n, hc, -, -⟩ := heardHere_chn s.toDev p h
    have hexec : exec (.config p h e []) s = .next (on s (onConfig (heardHere s.toDev p h) h e [])) :=
      congrArg (fun d => Host.Outcome.next (on s d)) (accept_heard hu _ _)
    rw [hexec, onConfig, if_pos (show ([] : List Bytes).isEmpty = true from rfl), hd, admittedOf_congr (show (heardHere s.toDev p h).chn.admitted = s.toDev.chn.admitted by rw [hc]), show (heardHere s.toDev p h).chn.epoch = s.chn.epoch by rw [hc]]
  case slewed =>
    have hexec : exec .chainTimeSlewEnd s = .next (on s (slewEnd s.toDev)) := rfl
    refine ⟨_, hexec, ?_⟩
    change (slewEnd s.toDev).chn = _
    unfold slewEnd
    rw [show s.toDev.chn.slewing = some off from hoff]
    exact logRec_chn ..
  case still =>
    have hexec : exec .chainTimeSlewEnd s = .next (on s (slewEnd s.toDev)) := rfl
    rw [hexec, slewEnd, show s.toDev.chn.slewing = none from hoff]
    rfl

end Sys2Proof.Machine
end

section
/-! Replicas, the RESULT runs of requests sent away, and co-signatures. -/

namespace Sys2Proof.Machine

open Sys2Proof.Safety

variable {d : Dev} {p : Port} {h : LinkHdr}

/-- A frame heard changes the port it came on and, where it wakes the device, the wake. -/
theorem heardHere_parts (d : Dev) (p : Port) (h : LinkHdr) :
    ∃ u n w k l m o, heardHere d p h = { d with chn := { d.chn with heardInCycle := true, up := u, dn := n }, glb := { d.glb with waking := w, wakeN := k }, hif := { d.hif with link := l, pmeStatus := m }, out := o } := by
  have hheard : ∃ u n, heard d p = { d with chn := { d.chn with heardInCycle := true, up := u, dn := n } } := by cases p <;> exact ⟨_, _, rfl⟩
  obtain ⟨u, n, hd⟩ := hheard
  rw [heardHere, hd, woken]
  split
  · obtain ⟨w, k, l, m, o, hw⟩ := wake_parts { d with chn := { d.chn with heardInCycle := true, up := u, dn := n } } .krovloFrame
    exact ⟨u, n, w, k, l, m, o, hw⟩
  · exact ⟨u, n, _, _, _, _, _, rfl⟩

theorem fields_four (a b c e p q r t : Nat) : fields [(a, p), (b, q), (c, r), (e, t)] = BitVec.ofNat 32 (a * 2 ^ p + (b * 2 ^ q + (c * 2 ^ r + (e * 2 ^ t + 0)))) := rfl

/-- The index of a handle is its slot. -/
theorem hIndex_mkHandle (o gen : Nat) {i : Nat} (hi : i < 4096) : hIndex (mkHandle false o gen i) = i := by
  have hsum : false.toNat * 2 ^ 31 + (o * 2 ^ 20 + (gen * 2 ^ 12 + (i * 2 ^ 0 + 0))) = (o * 256 + gen) * 4096 + i := by
    rw [Bool.toNat_false]
    omega
  have hval : (mkHandle false o gen i).toNat = ((o * 256 + gen) * 4096 + i) % 2 ^ 32 := by
    rw [mkHandle, fields_four, hsum, BitVec.toNat_ofNat]
  rw [hIndex, fld, hval]
  omega

theorem pickSlot_lt {i : Nat} (h : pickSlot d = some i) : i < 4096 := (scan_some (by decide) _ _ _ h).1

/-! ### Replicas -/

theorem dropReplica_none {id : Bytes} {x : Word} (hno : ∀ r ∈ d.key.replicas, r.1 ≠ (id, x)) : dropReplica d id x = d := by
  have hf : d.key.replicas.find? (fun r => r.1 == (id, x)) = none := List.find?_eq_none.mpr fun r hr => by simpa using hno r hr
  simp only [dropReplica, hf]

theorem dropReplica_frees {id : Bytes} {x : Word} {i : Nat} {k : KSlot} (hf : d.key.replicas.find? (fun r => r.1 == (id, x)) = some ((id, x), i)) (hk : tget d.key.slots i = some k)
    (hu : k.uses = 0) (hr : k.reserved = false) : dropReplica d id x = freeSlot { d with key := { d.key with replicas := d.key.replicas.filter fun r => r.1 != (id, x) } } i := by
  simp only [dropReplica, hf, unloadSlot, hk, hu, hr, decide_true, Bool.not_false, Bool.and_self, if_true]

/-- The device that stores the key a replica carries. -/
def stored (d : Dev) (a : Nat) (id : Bytes) (b : ReplicaBody) (i : Nat) (k : Bytes) : Dev :=
  let e := storeKey { d with rng := d.rng + 1 } i b.type b.usage b.owner .pf k
  let e := { e with key := { e.key with replicas := e.key.replicas ++ [((id, b.srcHandle), i)] } }
  (unicast e a (.replAck b.srcHandle)).getD e

theorem onReplica_opens {b : ReplicaBody} {x : Peer} {w : Owner} {i : Nat} (hx : tget d.chn.view h.origin.toNat = some x) (hw : ownerOf d b.owner.toNat = some w)
    (hs : selfInRepl d = true) (hp : peerInRepl d x.body = true) (hm : w.mode = b.mode) (hr : slotRoom d .pf b.owner.toNat = true) (hg : drbgReady d = true)
    (hno : ∀ r ∈ d.key.replicas, r.1 ≠ (x.body.devId, b.srcHandle)) (hi : pickSlot d = some i) :
    onReplica d h b = match Config.gcmOpen (ringKey d x.body.attestPub b.nonce) (b.nonce.take 12) [] (b.cipher.take (b.cipher.length - 16)) (b.cipher.drop (b.cipher.length - 16)) with
      | none => d
      | some k => if k.length != b.length || !storedLenOk b.type b.length then d else stored d h.origin.toNat x.body.devId b i k := by
  have hload : ∀ k, loadKey d .pf b.type b.usage b.owner k = some (mkHandle false b.owner.toNat (genOf d i) i, storeKey { d with rng := d.rng + 1 } i b.type b.usage b.owner .pf k) := fun k => by
    rw [loadKey, hi]
    rfl
  have hne : (w.mode != b.mode) = false := by simp [hm]
  simp only [onReplica, hx, hw, hs, hp, hne, hr, hg, Bool.not_true, Bool.or_self, Bool.false_eq_true, if_false, dropReplica_none hno]
  cases Config.gcmOpen (ringKey d x.body.attestPub b.nonce) (b.nonce.take 12) [] (b.cipher.take (b.cipher.length - 16)) (b.cipher.drop (b.cipher.length - 16)) with
  | none => rfl
  | some k => simp only [hload, hIndex_mkHandle _ _ (pickSlot_lt hi), stored]

theorem onReplica_unknown {b : ReplicaBody} (hno : tget d.chn.view h.origin.toNat = none ∨ ownerOf d b.owner.toNat = none) : onReplica d h b = d := by
  unfold onReplica
  rcases hno with hx | hw
  · rw [hx]
  · rw [hw]
    cases tget d.chn.view h.origin.toNat <;> rfl

/-! ### RESULT runs -/

theorem onResult_follows {b : ResultBody} {n : Nat} {q : Req} {r : Option ResultRun} (hq : remoteReq d b.reqSeq = some (n, q)) (hr : r = tget d.chn.results b.reqSeq.toNat) (hf : b.first = r.isNone)
    (ho : b.offset = (match r with | some y => y.bytes | none => []).length) :
    onResult d b = (let y : ResultRun := r.getD { completion := b.completion, bytes := [], total := b.total, since := d.now }
      if b.more then holdPart d b { y with bytes := y.bytes ++ b.result }
      else if (y.bytes ++ b.result).length != y.total then endRun d b.reqSeq ST.linkLost [] 0
      else endRun d b.reqSeq (half y.completion 8) (y.bytes ++ b.result) (word y.completion 20)) := by
  cases r with
  | none =>
    have hoff : b.offset = 0 := ho
    simp [onResult, hq, ← hr, hf, hoff]
  | some y =>
    have hoff : b.offset = y.bytes.length := ho
    simp [onResult, hq, ← hr, hf, hoff]

theorem dropRun_reqs (d : Dev) (seq : Word) : remoteReq (dropRun d seq) seq = remoteReq d seq := by
  unfold dropRun
  split <;> rfl

theorem endRun_finishes {seq : Word} {n : Nat} {q : Req} (hq : remoteReq d seq = some (n, q)) {st : Half} {res : Bytes} {w : Word} (hroom : res.length + (if q.pass2 && !res.isEmpty then 28 else 0) ≤ q.dataCap) :
    endRun d seq st res w = finish (dropRun d seq) n st res w := by
  simp only [endRun, dropRun_reqs, hq, if_neg (Nat.not_lt.mpr hroom)]

theorem endRun_noRoom {seq : Word} {n : Nat} {q : Req} (hq : remoteReq d seq = some (n, q)) {st : Half} {res : Bytes} {w : Word} (hroom : q.dataCap < res.length + (if q.pass2 && !res.isEmpty then 28 else 0)) :
    endRun d seq st res w = finish (dropRun d seq) n ST.resultSpace := by
  simp only [endRun, dropRun_reqs, hq, if_pos hroom]

/-! ### Co-signatures -/

theorem onCosignReq_asks {g : Bytes} {x : Peer} {recent : List (Nat × Nat)} (hx : tget d.chn.view h.origin.toNat = some x) (hrec : recent = d.chn.cosigTimes.filter (fun t => decide (d.now < t.2 + secondCycles)))
    (hs : selfInRepl d = true) (hp : peerInRepl d x.body = true) (hlc : x.body.lcState = d.lc.state) (hroot : rootLoaded d = true) :
    onCosignReq d p h g = if 16 ≤ (recent.filter fun t => decide (t.1 = h.origin.toNat)).length then d
      else { d with chn := { d.chn with cosigTimes := recent ++ [(h.origin.toNat, d.now)] }, pkeWait := d.pkeWait ++ [.secure { rid := none, issuer := .secure, kind := .cosign (p == .dn) h.origin.toNat g, alg := 0x21 }] } := by
  simp [onCosignReq, hx, hs, hp, hlc, hroot, ← hrec, setChn]

theorem onCosign_known {id sig : Bytes} {z : Seal} {x : Peer} (hz : d.bwt.sealing = some z) (hx : tget d.chn.view h.origin.toNat = some x) :
    onCosign d h id sig = if z.windowOpen && x.body.devId == id && decide (z.cosigs.length < 15) && Config.pkVerify 0x21 3 0 false x.body.attestPub (z.digest ++ id) sig then
      { d with bwt := { d.bwt with sealing := some { z with cosigs := tset z.cosigs h.origin.toNat (id, sig) } } } else d := by
  simp only [onCosign, hz, hx]

/-- Settles O57: replicas that open are stored and acknowledged, RESULT runs end the requests sent away, and co-signatures are given and gathered. -/
theorem krovloServicesAct : Obligations.KrovloServicesAct := by
  intro s p h d hd hu
  have hframe : ∀ b f, onFrame s.toDev p h b f = f d := fun b f => hd ▸ accept_heard hu b f
  have hparts := heardHere_parts s.toDev p h
  rw [← hd] at hparts
  have hresult : ∀ b, exec (.result p h b) s = .next (on s (if forMe s.toDev h && b.more && decide (cellRoom s.toDev H.krovlo < cellsFor (bodyLen (.result b))) then reject s.toDev p h
      else onFrame s.toDev p h (.result b) fun d => onResult d b)) := fun _ => rfl
  obtain ⟨cu, cn, gw, gk, hl, hm, o, hdev⟩ := hparts
  refine ⟨fun b x w i hx hw hs hp hmode hr hg hno hi => ?replica, fun b hno => ?unknown, fun x => ?acked, fun r l hrl => ⟨fun hdue => ?windowEnd, fun hdue => ?windowOpen⟩, fun hnil => ?noWindow,
    fun x id hid => ⟨fun hno => ?noReplica, fun i k hf hk hu hr => ?dropped⟩, fun b n q r pre hq hr hf hpre hoff total comp htot hcomp => ⟨fun hmore need hneed => ⟨fun hroom => ?noRoom, fun hroom e cells hcells => ?held⟩, fun hmore e he => ?last⟩,
    fun seq n q y hy hq => ⟨fun hdue => ?timeout, fun hdue => ?running⟩, fun seq hno => ?noRun, fun g x recent hx hrec hs hp hlc hroot => ⟨fun hlen => ?asks, fun hlen => ?asksTooMany⟩,
    fun id sig x z hz hx => ⟨fun hopen hid hlen => ?signs, fun hno => ?signsNot⟩⟩
  case replica =>
    have hexec : exec (.replica p h b) s = .next (on s (onReplica d h b)) := congrArg (fun d => Host.Outcome.next (on s d)) (hframe _ _)
    have hopens : onReplica d h b = _ := onReplica_opens (x := x) (w := w) (i := i) (by rw [hdev]; exact hx) (by rw [hdev]; exact hw) (by rw [hdev]; exact hs) (by rw [hdev]; exact hp) hmode (by rw [hdev]; exact hr) (by rw [hdev]; exact hg)
      (by rw [hdev]; exact hno) (by rw [hdev]; exact hi)
    have hkey : ringKey d x.body.attestPub b.nonce = ringKey s.toDev x.body.attestPub b.nonce := by rw [hdev]; rfl
    rw [hkey] at hopens
    cases hk : Config.gcmOpen (ringKey s.toDev x.body.attestPub b.nonce) (b.nonce.take 12) [] (b.cipher.take (b.cipher.length - 16)) (b.cipher.drop (b.cipher.length - 16)) with
    | none =>
      rw [hk] at hopens
      dsimp only
      rw [hexec, hopens]
    | some k =>
      rw [hk] at hopens
      have hcond : (k.length != b.length || !storedLenOk b.type b.length) = decide (k.length ≠ b.length ∨ storedLenOk b.type b.length = false) := by
        rw [Bool.eq_iff_iff]
        simp
      dsimp only at hopens ⊢
      rw [hcond] at hopens
      rw [hexec, hopens]
      by_cases hbad : k.length ≠ b.length ∨ storedLenOk b.type b.length = false
      · rw [if_pos hbad, if_pos (decide_eq_true hbad)]
      · rw [if_neg hbad, if_neg (by rw [decide_eq_false hbad]; exact Bool.false_ne_true)]
        rfl
  case unknown =>
    have hexec : exec (.replica p h b) s = .next (on s (onReplica d h b)) := congrArg (fun d => Host.Outcome.next (on s d)) (hframe _ _)
    rw [hexec, onReplica_unknown (by rw [hdev]; exact hno)]
  case acked =>
    have hexec : exec (.replAck p h x) s = .next (on s (onReplAck d h x)) := congrArg (fun d => Host.Outcome.next (on s d)) (hframe _ _)
    rw [hexec, onReplAck, setChn, show d.chn.replicates = s.chn.replicates by rw [hdev]]
  case windowEnd =>
    have hexec : exec .replicateWindowEnd s = .next (on s (replicateEnd s.toDev)) := rfl
    rw [hexec, replicateEnd, show s.toDev.chn.replicates = r :: l from hrl]
    dsimp only
    rw [if_pos hdue]
    rfl
  case windowOpen =>
    have hexec : exec .replicateWindowEnd s = .next (on s (replicateEnd s.toDev)) := rfl
    rw [hexec, replicateEnd, show s.toDev.chn.replicates = r :: l from hrl]
    dsimp only
    rw [if_neg (Nat.not_le.mpr hdue), toDev_on]
  case noWindow =>
    have hexec : exec .replicateWindowEnd s = .next (on s (replicateEnd s.toDev)) := rfl
    rw [hexec, replicateEnd, show s.toDev.chn.replicates = [] from hnil, toDev_on]
  case noReplica =>
    have hexec : exec (.replDrop p h x) s = .next (on s (dropReplica d (peerId d h.origin.toNat) x)) := congrArg (fun d => Host.Outcome.next (on s d)) (hframe _ _)
    have hpeer : peerId d h.origin.toNat = id := by rw [hid, hdev]; rfl
    rw [hexec, hpeer, dropReplica_none (by rw [hdev]; exact hno)]
  case dropped =>
    have hexec : exec (.replDrop p h x) s = .next (on s (dropReplica d (peerId d h.origin.toNat) x)) := congrArg (fun d => Host.Outcome.next (on s d)) (hframe _ _)
    have hpeer : peerId d h.origin.toNat = id := by rw [hid, hdev]; rfl
    have hkey : d.key = s.key := by rw [hdev]
    rw [hexec, hpeer, dropReplica_frees (by rw [hkey]; exact hf) (by rw [hkey]; exact hk) hu hr, hkey]
  case noRoom =>
    have hcond : (forMe s.toDev h && b.more && decide (cellRoom s.toDev H.krovlo < cellsFor (bodyLen (.result b)))) = true := by
      rw [← hneed, (endsHere_forUs hu).2, hmore, decide_eq_true hroom]
      rfl
    rw [hresult, if_pos hcond, reject_hears hu.1]
  case held =>
    have hcond : ¬ (forMe s.toDev h && b.more && decide (cellRoom s.toDev H.krovlo < cellsFor (bodyLen (.result b)))) = true := by
      rw [← hneed, decide_eq_false (Nat.not_lt.mpr hroom), Bool.and_false]
      exact Bool.false_ne_true
    obtain ⟨_, _, _, he⟩ := claimCells_frame hcells
    have hchn : e.chn.results = s.chn.results := by rw [he, hdev]
    have hnow : d.now = s.now := by rw [hdev]
    have hfollows := onResult_follows (d := d) (b := b) (n := n) (q := q) (r := r) (by rw [hdev]; exact hq) (by rw [hdev]; exact hr) hf (hoff.trans (congrArg List.length hpre))
    rw [hresult, if_neg hcond, hframe, hfollows]
    simp only [hmore, if_true, holdPart, ← hneed, hcells, Option.getD_some, setChn, hchn]
    cases r <;> simp only [htot, hcomp, hpre, hnow, Option.getD]
  case last =>
    have hcond : ¬ (forMe s.toDev h && b.more && decide (cellRoom s.toDev H.krovlo < cellsFor (bodyLen (.result b)))) = true := by simp [hmore]
    have hq' : remoteReq d b.reqSeq = some (n, q) := by rw [hdev]; exact hq
    have hfollows := onResult_follows (d := d) (b := b) (n := n) (q := q) (r := r) hq' (by rw [hdev]; exact hr) hf (hoff.trans (congrArg List.length hpre))
    have hdrop : dropRun d b.reqSeq = e := by
      have hres : d.chn.results = s.chn.results := by rw [hdev]
      rw [dropRun, hres, ← hr, he]
      cases r <;> rfl
    have hrow : exec (.result p h b) s = .next (on s (if (pre ++ b.result).length != total then endRun d b.reqSeq ST.linkLost [] 0 else endRun d b.reqSeq (half comp 8) (pre ++ b.result) (word comp 20))) := by
      rw [hresult, if_neg hcond, hframe, hfollows]
      simp only [hmore, Bool.false_eq_true, if_false]
      cases r <;> simp only [htot, hcomp, hpre, Option.getD]
    refine ⟨fun hlen hp2 hcap => ?_, fun hlen hp2 hcap => ?_, fun hlen => ?_⟩
    · rw [hrow, if_neg (by simp [hlen]), endRun_finishes hq' (by simpa [hp2, hlen] using hcap), hdrop]
    · rw [hrow, if_neg (by simp [hlen]), endRun_noRoom hq' (by simpa [hp2, hlen] using hcap), hdrop]
    · rw [hrow, if_pos (by simpa using hlen), endRun_finishes hq' (by simp), hdrop]
  case timeout =>
    have hexec : exec (.resultRunTimeout seq) s = .next (on s (match tget s.chn.results seq.toNat with | some r => if r.since + 4000000 ≤ s.now then endRun s.toDev seq ST.linkLost [] 0 else s.toDev | none => s.toDev)) := rfl
    have hend := endRun_finishes (d := s.toDev) hq (st := ST.linkLost) (res := []) (w := 0) (by simp)
    have hdrop : dropRun s.toDev seq = freeCells { s.toDev with chn := { s.chn with results := tdel s.chn.results seq.toNat } } H.krovlo y.cells := by
      rw [dropRun, hy]
      rfl
    rw [hexec, hy]
    dsimp only
    rw [if_pos hdue, hend, hdrop]
  case running =>
    have hexec : exec (.resultRunTimeout seq) s = .next (on s (match tget s.chn.results seq.toNat with | some r => if r.since + 4000000 ≤ s.now then endRun s.toDev seq ST.linkLost [] 0 else s.toDev | none => s.toDev)) := rfl
    rw [hexec, hy]
    dsimp only
    rw [if_neg (Nat.not_le.mpr hdue), toDev_on]
  case noRun =>
    have hexec : exec (.resultRunTimeout seq) s = .next (on s (match tget s.chn.results seq.toNat with | some r => if r.since + 4000000 ≤ s.now then endRun s.toDev seq ST.linkLost [] 0 else s.toDev | none => s.toDev)) := rfl
    rw [hexec, hno, toDev_on]
  case asks =>
    have hask := onCosignReq_asks (d := d) (p := p) (h := h) (g := g) (recent := recent) (by rw [hdev]; exact hx) (by rw [hdev]; exact hrec) (by rw [hdev]; exact hs) (by rw [hdev]; exact hp) (by rw [hdev]; exact hlc) (by rw [hdev]; exact hroot)
    have hexec : exec (.cosignReq p h g) s = .next (on s (onCosignReq d p h g)) := congrArg (fun d => Host.Outcome.next (on s d)) (hframe _ _)
    rw [hexec, hask, if_neg (Nat.not_le.mpr hlen), show d.now = s.now by rw [hdev], show d.pkeWait = s.pkeWait by rw [hdev]]
  case asksTooMany =>
    have hask := onCosignReq_asks (d := d) (p := p) (h := h) (g := g) (recent := recent) (by rw [hdev]; exact hx) (by rw [hdev]; exact hrec) (by rw [hdev]; exact hs) (by rw [hdev]; exact hp) (by rw [hdev]; exact hlc) (by rw [hdev]; exact hroot)
    have hexec : exec (.cosignReq p h g) s = .next (on s (onCosignReq d p h g)) := congrArg (fun d => Host.Outcome.next (on s d)) (hframe _ _)
    rw [hexec, hask, if_pos hlen]
  case signs =>
    have hexec : exec (.cosign p h id sig) s = .next (on s (onCosign d h id sig)) := congrArg (fun d => Host.Outcome.next (on s d)) (hframe _ _)
    rw [hexec, onCosign_known (z := z) (x := x) (by rw [hdev]; exact hz) (by rw [hdev]; exact hx), show d.bwt = s.bwt by rw [hdev]]
    simp only [hopen, hid, hlen, beq_self_eq_true, decide_true, Bool.and_self, Bool.true_and]
  case signsNot =>
    have hexec : exec (.cosign p h id sig) s = .next (on s (onCosign d h id sig)) := congrArg (fun d => Host.Outcome.next (on s d)) (hframe _ _)
    have hcond : ¬ (z.windowOpen && x.body.devId == id && decide (z.cosigs.length < 15) && Config.pkVerify 0x21 3 0 false x.body.attestPub (z.digest ++ id) sig) = true := by
      rcases hno with hno | hno <;> simp [hno]
    rw [hexec, onCosign_known (z := z) (x := x) (by rw [hdev]; exact hz) (by rw [hdev]; exact hx), if_neg hcond]

end Sys2Proof.Machine
end

section
/-! The management port: when it serves, its bus commands, and the assembly of messages. -/

namespace Sys2Proof.Machine

open Sys2Proof.Safety

/-- Every access of the management bus is its operation at the port. -/
theorem exec_mgtOp {i : Instr} {x : MgtOp} (h : mgtOp i = some x) (s : State) : exec i s = .next (on s (mgtRow x s.toDev)) := by
  unfold mgtOp at h
  split at h <;> cases h <;> rfl

theorem exec_served {s : State} {e : Dev} (h : servedMgt s e) {i : Instr} {x : MgtOp} (hi : mgtOp i = some x) : exec i s = .next (on s (mgtServe x e)) := by
  obtain ⟨hp, hb, he, ht, rfl⟩ := h
  have hrow : mgtRow x s.toDev = mgtServe x (wake s.toDev .mgtAccess) := by
    simp only [mgtRow, mgtAccess]
    rcases hp with hp | hp <;> simp only [hp, hb, he, ht, Bool.not_true, Bool.or_self, Bool.false_eq_true, if_false]
  rw [exec_mgtOp hi, hrow]

/-- What a device that serves the bus is: the state, but for the wake. -/
theorem served_parts {s : State} {e : Dev} (h : servedMgt s e) : ∃ w k l m o, e = { s.toDev with glb := { s.glb with waking := w, wakeN := k }, hif := { s.hif with link := l, pmeStatus := m }, out := o } := by
  obtain ⟨-, -, -, -, rfl⟩ := h
  exact wake_parts ..

theorem wake_out (d : Dev) (c : WakeCause) {o : Out} (h : o ∈ d.out) : o ∈ (wake d c).out := by
  have hpme : ∀ e : Dev, o ∈ e.out → o ∈ (pme e).out := fun e he => by
    unfold pme
    split
    · exact he
    · dsimp only
      split
      · exact he
      · split
        · exact List.mem_cons_of_mem _ he
        · exact he
        · exact he
  unfold wake
  split
  · exact h
  · dsimp only
    cases c
    case linkLeft =>
      dsimp only
      split
      · exact h
      · exact hpme _ h
    all_goals
      dsimp only
      split
      · exact h
      · exact hpme _ h

theorem wake_mgt (d : Dev) (c : WakeCause) : (wake d c).mgt = d.mgt ∧ (wake d c).glb.heldAccess = d.glb.heldAccess := by
  obtain ⟨_, _, _, _, _, h⟩ := wake_parts d c
  rw [h]
  exact ⟨rfl, rfl⟩

/-! ### Messages in assembly -/

section
variable {d : Dev} {k : AsmKey} {l m : List Asm} {y : Asm}

theorem asmOf_none (h : ∀ a ∈ d.mgt.asm, a.key ≠ k) : asmOf d k = none :=
  List.find?_eq_none.mpr fun a ha => by simpa using h a ha

theorem asmOf_at (ha : d.mgt.asm = l ++ y :: m) (hy : y.key = k) (hno : ∀ a ∈ l ++ m, a.key ≠ k) : asmOf d k = some y := by
  have hl : l.find? (fun a => decide (a.key = k)) = none := List.find?_eq_none.mpr fun a h => by simpa using hno a (List.mem_append_left _ h)
  rw [asmOf, ha, List.find?_append, hl, Option.none_or, List.find?_cons_of_pos (by simpa using hy)]

theorem dropAsm_at (ha : d.mgt.asm = l ++ y :: m) (hy : y.key = k) (hno : ∀ a ∈ l ++ m, a.key ≠ k) : dropAsm d k = { d with mgt := { d.mgt with asm := l ++ m } } := by
  have hkeep : ∀ t : List Asm, (∀ a ∈ t, a.key ≠ k) → t.filter (fun a => decide (a.key ≠ k)) = t := fun t ht => List.filter_eq_self.mpr fun a h => by simpa using ht a h
  have hfilter : (l ++ y :: m).filter (fun a => decide (a.key ≠ k)) = l ++ m := by
    rw [List.filter_append, List.filter_cons_of_neg (by simpa using hy), hkeep l fun a h => hno a (List.mem_append_left _ h), hkeep m fun a h => hno a (List.mem_append_right _ h)]
  rw [dropAsm, ha, hfilter]
  rfl

theorem putAsm_at (ha : d.mgt.asm = l ++ y :: m) (hy : y.key = k) (hno : ∀ a ∈ l ++ m, a.key ≠ k) {a : Asm} (hk : a.key = k) : putAsm d a = { d with mgt := { d.mgt with asm := l ++ a :: m } } := by
  have hkeep : ∀ t : List Asm, (∀ x ∈ t, x.key ≠ k) → t.map (fun x => if x.key = a.key then a else x) = t := fun t ht =>
    (List.map_congr_left fun x hx => if_neg (hk ▸ ht x hx)).trans (List.map_id' t)
  have hmap : (l ++ y :: m).map (fun x => if x.key = a.key then a else x) = l ++ a :: m := by
    rw [List.map_append, List.map_cons, if_pos (hy.trans hk.symm), hkeep l fun x h => hno x (List.mem_append_left _ h), hkeep m fun x h => hno x (List.mem_append_right _ h)]
  rw [putAsm, ha, hmap]
  rfl

theorem asmTimeout_open (ha : d.mgt.asm = l ++ y :: m) (hy : y.key = k) (hno : ∀ a ∈ l ++ m, a.key ≠ k) :
    asmTimeout d k = if y.since + secondCycles / 10 ≤ d.now then { d with mgt := { d.mgt with asm := l ++ m, cntMsg := satInc d.mgt.cntMsg } } else d := by
  rw [asmTimeout, asmOf_at ha hy hno, Option.any_some, dropAsm_at ha hy hno]
  simp only [decide_eq_true_eq, countMsg, setMgt]

end

theorem takePkt_taken {d : Dev} {p : McPacket} (hbus : p.i3c = d.mgt.i3c) (hpec : p.i3c = true ∨ p.pecOk = true) :
    takePkt d p = if p.ic || decide (64 < p.payload.length) || !(p.dst == 0 || p.dst == d.mgt.eid) then d
      else if p.som then firstPacket d { src := p.src, tag := p.tag } p else laterPacket d { src := p.src, tag := p.tag } p := by
  have h1 : (p.i3c != d.mgt.i3c) = false := by simp [hbus]
  have h2 : (!p.i3c && !p.pecOk) = false := by rcases hpec with h | h <;> simp [h]
  simp only [takePkt, h1, h2, Bool.false_eq_true, if_false]

/-- Settles O59: the port answers as its power state and owner say, bus commands act in their mode, and packets become messages in order. -/
theorem theManagementBus : Obligations.TheManagementBus := by
  refine ⟨fun s i x hi => ⟨fun hp => ?silent, fun hp hb => ?off, fun hp hb hn => ?nack, fun hp he hm => ?wakesI3c, fun hp he hm => ?wakesSmbus⟩, fun s e a hs => ⟨fun hm => ?i3c, fun hm => ?smbus⟩,
    fun s e p k hs hk => ⟨fun hne => ?otherBus, fun hp hm hpec => ?badPec, fun hbus hpec => ⟨fun hbad => ?ignored, fun hic hlen hdst => ?taken⟩⟩, fun s k => ⟨fun l m y ha hy hno => ?timeout, fun hno => ?noAssembly⟩⟩
  case silent =>
    rw [exec_mgtOp hi]
    rcases hp with hp | hp <;> simp only [mgtRow, mgtAccess, hp, toDev_on]
  case off =>
    rw [exec_mgtOp hi]
    rcases hp with hp | hp <;> simp only [mgtRow, mgtAccess, hp, hb, if_true, toDev_on]
  case nack =>
    have hno : (!s.mgt.enabled || inTransit s.toDev 22) = true := by rcases hn with h | h <;> simp [h]
    rw [exec_mgtOp hi]
    rcases hp with hp | hp <;> simp only [mgtRow, mgtAccess, hp, hb, hno, Bool.false_eq_true, if_true, if_false]
  case wakesI3c =>
    have hrow : mgtRow x s.toDev = wake (emit s.toDev .mgtNack) .mgtAccess := by
      simp only [mgtRow, mgtAccess, hp, he, hm, Bool.not_true, Bool.false_eq_true, if_true, if_false]
    have hw : wakes (emit s.toDev .mgtNack).glb.power .mgtAccess = true := by
      rw [show (emit s.toDev .mgtNack).glb.power = .standby from hp]
      rfl
    rw [exec_mgtOp hi, hrow]
    exact ⟨_, rfl, wake_waking hw, wake_out _ _ List.mem_cons_self, (wake_mgt ..).1, (wake_mgt ..).2⟩
  case wakesSmbus =>
    have hrow : mgtRow x s.toDev = { wake s.toDev .mgtAccess with glb := { (wake s.toDev .mgtAccess).glb with heldAccess := (wake s.toDev .mgtAccess).glb.heldAccess ++ [.mgt x] } } := by
      simp only [mgtRow, mgtAccess, hp, he, hm, Bool.not_true, Bool.false_eq_true, if_false]
    have hw : wakes s.toDev.glb.power .mgtAccess = true := by
      rw [show s.toDev.glb.power = .standby from hp]
      rfl
    rw [exec_mgtOp hi, hrow]
    exact ⟨_, rfl, wake_waking hw, (wake_mgt ..).1, congrArg (fun l => l ++ [HeldAccess.mgt x]) (wake_mgt s.toDev .mgtAccess).2⟩
  case i3c =>
    have hmgt : e.mgt = s.mgt := by
      obtain ⟨_, _, _, _, _, rfl⟩ := served_parts hs
      rfl
    have hin : ∀ f, inI3c e f = f e := fun f => by rw [inI3c, hmgt, hm]; rfl
    refine ⟨?_, ?_, ?_, ?_, ?_, ?_, ?_, ⟨(openBytes e 2).1, ?_⟩, ?_, ?_, ?_⟩
    · rw [exec_served hs rfl, mgtServe, hin, setMgt, hmgt]
    · rw [exec_served hs rfl, mgtServe, hin, setMgt, hmgt]
    · rw [exec_served hs rfl, mgtServe, hin, toSmbus, setMgt, hmgt]
    · rw [exec_served hs rfl, mgtServe, hin, setMgt, hmgt]
    · rw [exec_served hs rfl, mgtServe, hin]
      rfl
    · rw [exec_served hs rfl, mgtServe, hin]
      rfl
    · rw [exec_served hs rfl, mgtServe, hin]
      rfl
    · rw [exec_served hs rfl, mgtServe, hin]
      rfl
    · rw [exec_served hs rfl, mgtServe, takeAddr, hmgt, hm, if_pos rfl]
    · rw [exec_served hs rfl, mgtServe, takeAddr, hmgt, hm, if_pos rfl]
    · rw [exec_served hs rfl, mgtServe, answerAra, hmgt, hm, if_pos rfl]
  case smbus =>
    have hmgt : e.mgt = s.mgt := by
      obtain ⟨_, _, _, _, _, rfl⟩ := served_parts hs
      rfl
    have hin : ∀ f, inI3c e f = e := fun f => by rw [inI3c, hmgt, hm]; rfl
    refine ⟨fun i hi => ?_, ?_, fun i hi => ?_⟩
    · have htake : takeAddr e a = { e with mgt := { s.mgt with i3c := true, dynAddr := a } } := by
        rw [takeAddr, hmgt, hm, if_neg Bool.false_ne_true, setMgt]
      simp only [List.mem_cons, List.not_mem_nil, or_false] at hi
      rcases hi with rfl | rfl <;> rw [exec_served hs rfl] <;> exact congrArg (fun d => Host.Outcome.next (on s d)) htake
    · rw [exec_served hs rfl, mgtServe, answerAra, hmgt, hm, if_neg Bool.false_ne_true]
      rfl
    · simp only [List.mem_cons, List.not_mem_nil, or_false] at hi
      rcases hi with rfl | rfl | rfl | rfl | rfl | rfl | rfl | rfl <;> rw [exec_served hs rfl, mgtServe, hin]
  case otherBus =>
    have hmgt : e.mgt = s.mgt := by
      obtain ⟨_, _, _, _, _, rfl⟩ := served_parts hs
      rfl
    rw [exec_served hs rfl, mgtServe, takePkt, hmgt, if_pos (by simpa using hne)]
  case badPec =>
    have hmgt : e.mgt = s.mgt := by
      obtain ⟨_, _, _, _, _, rfl⟩ := served_parts hs
      rfl
    rw [exec_served hs rfl, mgtServe, takePkt, hmgt, hm, if_neg (by simp [hp]), if_pos (by simp [hp, hpec]), countPkt, setMgt, hmgt]
  case ignored =>
    have hmgt : e.mgt = s.mgt := by
      obtain ⟨_, _, _, _, _, rfl⟩ := served_parts hs
      rfl
    have hcond : (p.ic || decide (64 < p.payload.length) || !(p.dst == 0 || p.dst == s.mgt.eid)) = true := by
      rcases hbad with h | h | ⟨h1, h2⟩
      · simp [h]
      · simp [h]
      · rw [beq_eq_false_iff_ne.mpr h1, beq_eq_false_iff_ne.mpr h2, Bool.or_self, Bool.not_false, Bool.or_true]
    rw [exec_served hs rfl, mgtServe, takePkt_taken (hmgt ▸ hbus) hpec, hmgt, if_pos hcond]
  case taken =>
    have hmgt : e.mgt = s.mgt ∧ e.now = s.now := by
      obtain ⟨_, _, _, _, _, rfl⟩ := served_parts hs
      exact ⟨rfl, rfl⟩
    obtain ⟨hmgt, hnow⟩ := hmgt
    have hcond : (p.ic || decide (64 < p.payload.length) || !(p.dst == 0 || p.dst == s.mgt.eid)) = false := by
      rcases hdst with h | h <;> simp [hic, h, hlen]
    have hrow : exec (.mctpPacket p) s = .next (on s (if p.som then firstPacket e k p else laterPacket e k p)) := by
      rw [exec_served hs rfl, mgtServe, takePkt_taken (hmgt ▸ hbus) hpec, hmgt, if_neg (by rw [hcond]; exact Bool.false_ne_true), hk]
    have hnone : (∀ a ∈ s.mgt.asm, a.key ≠ k) → asmOf e k = none := fun h => asmOf_none (hmgt ▸ h)
    have hfirst : (∀ a ∈ s.mgt.asm, a.key ≠ k) → firstPacket e k p = if 8 ≤ s.mgt.asm.length then busyReply e p.payload else growAsm e k p s.now true p.payload := fun h => by
      simp only [firstPacket, hnone h, Option.isSome_none, Bool.false_eq_true, if_false, hmgt, hnow]
    refine ⟨fun hsom heom hno hroom => ?_, fun hsom heom hno hroom => ?_, fun hsom hno hroom => ?_, fun hsom hno => ?_, fun l m y hsom ha hy hno => ?_⟩
    · rw [hrow, if_pos hsom, hfirst hno, if_neg (Nat.not_le.mpr hroom), growAsm, if_pos heom, if_pos rfl]
    · rw [hrow, if_pos hsom, hfirst hno, if_neg (Nat.not_le.mpr hroom), growAsm, if_neg (by simp [heom]), if_neg (by omega), if_pos rfl, addAsm, setMgt, hmgt]
    · rw [hrow, if_pos hsom, hfirst hno, if_pos hroom]
    · rw [hrow, if_neg (by simp [hsom]), laterPacket, hnone hno]
    · have hasm : e.mgt.asm = l ++ y :: m := hmgt ▸ ha
      have hlater : exec (.mctpPacket p) s = .next (on s (if p.pktSeq.val ≠ y.nextSeq then countMsg (dropAsm e k) else growAsm e k p y.since false (y.bytes ++ p.payload))) := by
        rw [hrow, if_neg (by simp [hsom]), laterPacket, asmOf_at hasm hy hno]
      refine ⟨fun hseq => ?_, fun hseq heom => ?_, fun hseq heom hshort => ?_⟩
      · rw [hlater, if_pos hseq, dropAsm_at hasm hy hno, countMsg, setMgt, hmgt]
      · rw [hlater, if_neg (not_not_intro hseq), growAsm, if_pos heom, if_neg Bool.false_ne_true, dropAsm_at hasm hy hno, hmgt]
      · rw [hlater, if_neg (not_not_intro hseq), growAsm, if_neg (by simp [heom]), if_neg (by rw [List.length_append]; omega), if_neg Bool.false_ne_true]
        dsimp only
        rw [putAsm_at hasm hy hno rfl, hmgt, ← hy]
  case timeout =>
    have hrow : exec (.mctpAssemblyTimeout k) s = .next (on s (asmTimeout s.toDev k)) := rfl
    rw [hrow, asmTimeout_open (d := s.toDev) ha hy hno]
    refine ⟨fun hdue => ?_, fun hdue => ?_⟩
    · rw [if_pos hdue]
    · rw [if_neg (Nat.not_le.mpr hdue), toDev_on]
  case noAssembly =>
    have hrow : exec (.mctpAssemblyTimeout k) s = .next (on s (asmTimeout s.toDev k)) := rfl
    rw [hrow, asmTimeout, asmOf_none (d := s.toDev) hno, Option.any_none, if_neg Bool.false_ne_true, toDev_on]

end Sys2Proof.Machine
end

section
/-! Messages of the management port: control, SPDM and the device's own. -/

namespace Sys2Proof.Machine

open Sys2Proof.Safety

theorem eq_pair_of_length {α : Type} {l : List α} (h : l.length = 2) : ∃ a b, l = [a, b] :=
  match l, h with
  | [a, b], _ => ⟨a, b, rfl⟩

theorem length_fit (n : Nat) (l : Bytes) : (Config.fit n l).length = n := by
  simp [Config.fit]

theorem cellsFor_le {n k : Nat} (h : n ≤ 64 * k) : cellsFor n ≤ k := by
  unfold cellsFor
  omega

section
variable {e : Dev} {b : Bytes}

theorem mgtFull_not {k : Nat} (hroom : k ≤ cellRoom e H.mgt) (hlen : b.length ≤ 64 * k) : mgtFull e b = false :=
  decide_eq_false (Nat.not_lt.mpr (Nat.le_trans (cellsFor_le hlen) hroom))

theorem deliverMsg_control (ht : mType b = 0) (hroom : 1 ≤ cellRoom e H.mgt) (hlen : b.length ≤ 64) : deliverMsg e true b = ctlMsg e b := by
  have hfull : mgtFull e b = false := mgtFull_not hroom hlen
  have h1 : (mType b != 0 || !true) = false := by rw [ht]; rfl
  have h2 : (mType b == 0x00 || mType b == 0x05 || mType b == 0x7E) = true := by rw [ht]; rfl
  have h3 : (mType b == 0) = true := by rw [ht]; rfl
  rw [deliverMsg, h1, Bool.and_false, if_neg Bool.false_ne_true, h2, Bool.not_true, if_neg Bool.false_ne_true, if_neg (by omega), hfull, if_neg Bool.false_ne_true, h3, if_pos rfl]

theorem deliverMsg_noEid (he : e.mgt.eid = 0) : deliverMsg e false b = e := by
  rw [deliverMsg, he, if_pos (by simp)]

variable (he : e.mgt.eid ≠ 0) (ht : mType b = 5 ∨ mType b = 0x7E)
include he ht

theorem deliverMsg_typed : deliverMsg e false b = if 4104 < b.length then countMsg e else if mgtFull e b then busyReply e b else if mType b == 0x05 then spdmMsg e b else devMessage e b := by
  have h1 : (e.mgt.eid == 0 && (mType b != 0 || !false)) = false := by rw [beq_eq_false_iff_ne.mpr he, Bool.false_and]
  have h2 : (mType b == 0x00 || mType b == 0x05 || mType b == 0x7E) = true := by rcases ht with h | h <;> rw [h] <;> rfl
  have h3 : (mType b == 0) = false := by rcases ht with h | h <;> rw [h] <;> rfl
  rw [deliverMsg, h1, if_neg Bool.false_ne_true, h2, Bool.not_true, if_neg Bool.false_ne_true, h3, if_neg Bool.false_ne_true]

theorem deliverMsg_room (hroom : 65 ≤ cellRoom e H.mgt) (hlen : b.length ≤ 4104) : deliverMsg e false b = if mType b == 0x05 then spdmMsg e b else devMessage e b := by
  rw [deliverMsg_typed he ht, if_neg (Nat.not_lt.mpr hlen), mgtFull_not hroom (by omega), if_neg Bool.false_ne_true]

theorem busyReply_typed : busyReply e b = emit { e with mgt := { e.mgt with cntMsg := satInc e.mgt.cntMsg } }
    (.mgtReply (if byteAt b 0 = 0x05 then [0x05, 0x12, 0x7F, 0x03, 0] else devMsg (byteAt b 3) (byteAt b 4) (b2 ST.busy))) := by
  have hbody : b2 ST.busy ++ [] = b2 ST.busy := List.append_nil _
  rcases ht with h | h
  · have h' : byteAt b 0 = 5 := h
    have h0 : (mType b == 0) = false := by rw [h]; rfl
    have h5 : (mType b == 5) = true := by rw [h]; rfl
    simp only [busyReply, h0, h5, h', Bool.false_eq_true, if_false, if_true]
    rfl
  · have h' : byteAt b 0 = 0x7E := h
    have h0 : (mType b == 0) = false := by rw [h]; rfl
    have h5 : (mType b == 5) = false := by rw [h]; rfl
    have h7 : (mType b == 0x7E) = true := by rw [h]; rfl
    have hne : ¬ (0x7E : Byte) = 5 := by decide
    simp only [busyReply, h0, h5, h7, h', if_neg hne, Bool.false_eq_true, if_false, if_true, devReply, hbody]
    rfl

end

/-- Messages that carry their type are SPDM or the device's own. -/
theorem mType_mgtOp {i : Instr} {b : Bytes} (h : mgtOp i = some (.message false b)) : mType b = 5 ∨ mType b = 0x7E := by
  unfold mgtOp at h
  split at h <;> cases h
  iterate 5 exact .inl rfl
  all_goals exact .inr rfl

/-! ### The rows of the messages -/

section
variable {s : State} {e : Dev} {i : Instr} {b : Bytes}

theorem served_eid (hs : servedMgt s e) : e.mgt = s.mgt ∧ e.lc = s.lc ∧ e.key = s.key ∧ e.sym = s.sym ∧ e.stl = s.stl := by
  obtain ⟨_, _, _, _, _, rfl⟩ := served_parts hs
  exact ⟨rfl, rfl, rfl, rfl, rfl⟩

theorem exec_control (hs : servedMgt s e) (hroom : 1 ≤ cellRoom e H.mgt) (hi : mgtOp i = some (.message true b)) (ht : mType b = 0) (hlen : b.length ≤ 64) : exec i s = .next (on s (ctlMsg e b)) := by
  rw [exec_served hs hi, mgtServe, deliverMsg_control ht hroom hlen]

variable (hs : servedMgt s e) (he : s.mgt.eid ≠ 0) (hroom : 65 ≤ cellRoom e H.mgt) (hi : mgtOp i = some (.message false b)) (hlen : b.length ≤ 4104)
include hs he hroom hi hlen

theorem exec_spdm (ht : mType b = 5) : exec i s = .next (on s (spdmMsg e b)) := by
  have hid : e.mgt.eid ≠ 0 := by rw [(served_eid hs).1]; exact he
  rw [exec_served hs hi, mgtServe, deliverMsg_room hid (.inl ht) hroom hlen, ht, if_pos (by rfl)]

theorem exec_device (ht : mType b = 0x7E) : exec i s = .next (on s (devMessage e b)) := by
  have hid : e.mgt.eid ≠ 0 := by rw [(served_eid hs).1]; exact he
  rw [exec_served hs hi, mgtServe, deliverMsg_room hid (.inr ht) hroom hlen, ht, if_neg (by decide)]

end

section
variable {e : Dev}

theorem canSign_not (h : rootLoaded e = false ∨ e.lc.state = 0xEE) : canSign e = false := by
  rcases h with h | h <;> simp [canSign, lcLocked, h]

theorem canSign_may (hr : rootLoaded e = true) (hl : e.lc.state ≠ 0xEE) (hd : drbgReady e = true) : canSign e = true := by
  rw [canSign, lcLocked, hr, hd, beq_eq_false_iff_ne.mpr hl]
  rfl

theorem spdmCaps_parts (e : Dev) (b : Bytes) : ∃ r, (spdmCaps e b).mgt.spdmStage = 2 ∧ (spdmCaps e b).out = .mgtReply r :: e.out ∧ r.length = 21 ∧ slice r 9 4 = [0x14, 0x00, 0x01, 0x00] ∧ (spdmCaps e b).mgt.measTranscript = [] := by
  have hlen : (openBytes e 9).1.length = 9 := length_fit ..
  refine ⟨_, rfl, rfl, ?_, ?_, rfl⟩
  · simp [hlen]
  · obtain ⟨x, l, hx⟩ := List.exists_cons_of_ne_nil (List.ne_nil_of_length_eq_add_one hlen)
    rw [hx]
    rfl

theorem spdmAlgs_parts (e : Dev) (a h m : Bool) : ∃ r, (spdmAlgs e (algBytes a h m)).mgt.spdmStage = 3 ∧ (spdmAlgs e (algBytes a h m)).out = .mgtReply r :: e.out ∧ byteAt r 2 = 0x63 ∧
    leAt r 9 4 = (if m then 4 else 0) ∧ leAt r 13 4 = (if a then 0x80 else 0) ∧ leAt r 17 4 = (if h then 2 else 0) := by
  refine ⟨_, rfl, rfl, rfl, ?_, ?_, ?_⟩ <;> cases a <;> cases h <;> cases m <;> decide

end

/-- A word that ends a message. -/
theorem word_after {a : Bytes} {off : Nat} {g : Word} (ha : a.length = off) : word (a ++ b4 g) off = g := by
  have hval : leAt (a ++ b4 g) off 4 = g.toNat := leAt_field (l := []) (by rw [List.append_nil]; rfl) ha g.isLt
  rw [word, hval, BitVec.ofNat_toNat, BitVec.setWidth_eq]

/-- The bytes of a message about a stall. -/
def stallMsg (m t n o : Byte) (g : Word) : Bytes := [0x7E, 0x1D, 0x7C, m, t, 0, 0, 0] ++ [n, o, 0, 0] ++ b4 g

section
variable (e : Dev) (m t n o : Byte) (g : Word)

theorem length_stallMsg : (stallMsg m t n o g).length = 16 := by
  simp [stallMsg, b4]

theorem word_stallMsg : word (stallMsg m t n o g) 12 = g := word_after rfl

theorem stallView_row : stallView e (stallMsg 0x02 t n o g) = emit e (.mgtReply (
    if n.toNat < 64 then devMsg 0x02 t (b2 ST.ok ++ ([if g ≠ 0 ∧ g ≠ (stall e n.toNat).gen then 1 else 0, n] ++ infoStall e n.toNat)) else devMsg 0x02 t (b2 ST.param))) := by
  have hn : byteAt (stallMsg 0x02 t n o g) 8 = n := rfl
  have hreply : ∀ st r, devReply e (stallMsg 0x02 t n o g) st r = emit e (.mgtReply (devMsg 0x02 t (b2 st ++ r))) := fun _ _ => rfl
  simp only [stallView, hn, word_stallMsg, length_stallMsg, hreply, List.append_nil]
  by_cases h : n.toNat < 64
  · have hcond : (g != 0 && g != (stall e n.toNat).gen) = decide (g ≠ 0 ∧ g ≠ (stall e n.toNat).gen) := by
      rw [Bool.eq_iff_iff]
      simp
    rw [if_neg (by simp [h]), if_pos h, hcond]
    simp only [decide_eq_true_eq]
  · rw [if_pos (by simp only [Bool.or_eq_true, decide_eq_true_eq]; omega), if_neg h]

theorem stallAct_row : stallAct e (stallMsg 0x03 t n o g) = if e.mgt.actEn = false then emit e (.mgtReply (devMsg 0x03 t (b2 ST.denied)))
    else if 64 ≤ n.toNat ∨ ¬ (o.toNat = 2 ∨ o.toNat = 3) then emit e (.mgtReply (devMsg 0x03 t (b2 ST.param)))
    else if g ≠ (stall e n.toNat).gen then emit e (.mgtReply (devMsg 0x03 t (b2 ST.genStale)))
    else emit (stallOp e n.toNat o.toNat .squash).1 (.mgtReply (devMsg 0x03 t (b2 (stallOp e n.toNat o.toNat .squash).2))) := by
  have hn : byteAt (stallMsg 0x03 t n o g) 8 = n := rfl
  have ho : byteAt (stallMsg 0x03 t n o g) 9 = o := rfl
  have hreply : ∀ d st, devReply d (stallMsg 0x03 t n o g) st [] = emit d (.mgtReply (devMsg 0x03 t (b2 st ++ []))) := fun _ _ => rfl
  simp only [stallAct, hn, ho, word_stallMsg, length_stallMsg, hreply, List.append_nil]
  simp

end

section
variable {e : Dev} {x : Byte} {b : Bytes}

theorem spdmChallenge_otherSlot (hx : byteAt b 3 ≠ 0xFF) : spdmChallenge e b = spdmError e 0x01 := by
  rw [spdmChallenge, if_pos (by simpa using hx)]

theorem spdmChallenge_signs (hx : byteAt b 3 = 0xFF) : spdmChallenge e b = if !canSign e then spdmError e 0x05 else
    (let n := draw e 32
     let head : Bytes := [0x05, 0x12, 0x03, 0x0F, 0] ++ Config.sha384 (attestPub e) ++ n.1 ++ [0, 0]
     let g := spdmSign n.2 "responder-challenge_auth signing" (n.2.mgt.transcript ++ b.drop 1 ++ head.drop 1)
     reply g.2 (head ++ g.1)) := by
  rw [spdmChallenge, if_neg (by rw [hx]; decide)]

/-- The blocks a measurement index selects. -/
def selected (i : Byte) : List Nat := if i = 0 then [] else if i = 0xFF then [1, 2, 3, 4] else [i.toNat]

/-- The head of a MEASUREMENTS reply. -/
def measHead (d : Dev) (i : Byte) (g : Bool) : Bytes :=
  [0x05, 0x12, 0x60, if i = 0 then 4 else 0, if g then 0x0F else 0, BitVec.ofNat 8 (selected i).length] ++ leBytes 3 ((selected i).flatMap (measBlock d)).length ++ (selected i).flatMap (measBlock d) ++ (openBytes d 32).1 ++ [0, 0]

theorem measHead_parts (d : Dev) (i : Byte) (g : Bool) (t : Bytes) :
    (measHead d i g ++ t).take 6 = [0x05, 0x12, 0x60, if i = 0 then 4 else 0, if g then 0x0F else 0, BitVec.ofNat 8 (selected i).length] ∧
    slice (measHead d i g ++ t) 9 ((selected i).flatMap (measBlock d)).length = (selected i).flatMap (measBlock d) := by
  refine ⟨rfl, slice_field (a := [0x05, 0x12, 0x60, if i = 0 then 4 else 0, if g then 0x0F else 0, BitVec.ofNat 8 (selected i).length] ++ leBytes 3 ((selected i).flatMap (measBlock d)).length) (l := (openBytes d 32).1 ++ ([0, 0] ++ t)) ?_ ?_ rfl⟩
  · simp only [measHead, List.append_assoc]
  · simp

theorem toNat_eq_zero {i : Byte} : i.toNat = 0 ↔ i = 0 :=
  ⟨fun h => BitVec.eq_of_toNat_eq h, fun h => by rw [h]; rfl⟩

theorem toNat_eq_ff {i : Byte} : i.toNat = 0xFF ↔ i = 0xFF :=
  ⟨fun h => BitVec.eq_of_toNat_eq h, fun h => by rw [h]; rfl⟩

/-- What a selected index leaves of the measurement, but for the transcript it signs. -/
theorem spdmMeas_parts {n : Bytes} {i : Byte} {g : Bool} (hi : i.toNat ≤ 4 ∨ i = 0xFF) :
    spdmMeas e (measBytes i g n) = if g && !canSign e then spdmError e 0x05 else
      (let n' := openBytes e 32
       let l := n'.2.mgt.measTranscript ++ (measBytes i g n).drop 1 ++ (measHead e i g).drop 1
       if !g then reply (setMgt n'.2 { n'.2.mgt with measTranscript := l }) (measHead e i g)
       else let k := spdmSign n'.2 "responder-measurements signing" (n'.2.mgt.transcript ++ l); reply (setMgt k.2 { k.2.mgt with measTranscript := [] }) (measHead e i g ++ k.1)) := by
  have hbyte : byteAt (measBytes i g n) 3 = if g then 1 else 0 := rfl
  have hsigned : (byteAt (measBytes i g n) 3).getLsbD 0 = g := by
    rw [hbyte]
    cases g <;> decide
  have hindex : byteAt (measBytes i g n) 4 = i := rfl
  have hknown : (!(decide (i.toNat ≤ 4) || decide (i = 0xFF))) = false := by
    rcases hi with hi | hi
    · rw [decide_eq_true hi]
      rfl
    · rw [decide_eq_true hi, Bool.or_true]
      rfl
  simp only [spdmMeas, hsigned, hindex, hknown, toNat_eq_zero, toNat_eq_ff, Bool.false_eq_true, if_false, measHead, selected]

theorem length_measBytes (i : Byte) (g : Bool) (n : Bytes) : (measBytes i g n).length ≤ 4104 := by
  cases g <;> simp [measBytes, spdmBytes, length_fit]

theorem spdmMsg_meas (e : Dev) (i : Byte) (g : Bool) (n : Bytes) : spdmMsg e (measBytes i g n) = if e.mgt.spdmStage < 3 then spdmError e 0x04 else spdmMeas e (measBytes i g n) := rfl

end

/-- Settles O60: the messages of the management port are answered in their order and with their contents. -/
theorem managementMessagesAreAnswered : Obligations.ManagementMessagesAreAnswered := by
  refine ⟨fun s e hs hroom => ?control, fun s e i b hs hi => ?general, fun s e hs heid hroom => ⟨?version, fun hst => ?earlyCaps, fun hst => ?caps, fun a h m => ⟨fun hst => ?earlyAlgs, fun hst => ?algs⟩,
    fun x n => ⟨fun hst => ?earlyChallenge, fun hst hx => ?otherSlot, fun hst hno => ?cannotSign, fun hst hr hl hd => ?challenge⟩,
    fun i g n => ⟨fun hst => ?earlyMeas, fun hst h4 hff => ?badIndex, fun hst hi hno => ?cannotMeasure, fun hst hi hsign sel hsel => ?measured⟩, fun t n g => ?view, fun t n o g => ?act, fun t => ?snapshot, fun t => ?keys, fun t q hq => ?command⟩⟩
  case control =>
    obtain ⟨hmgt, -⟩ := served_eid hs
    have hvendor : ∃ a b, (openBytes e 2).1 = [a, b] := eq_pair_of_length (length_fit ..)
    refine ⟨fun x => ?_, ?_, ?_, ?_, ?_⟩
    · have hcode : (0x80 &&& 0x1F : Byte) = 0 := by decide
      have hrow : ctlMsg e [0x00, 0x80, 0x01, 0, x] = if x == 0 || x == 0xFF then emit e (.mgtReply [0, 0x80 &&& 0x1F, 1, 2]) else emit { e with mgt := { e.mgt with eid := x } } (.mgtReply [0, 0x80 &&& 0x1F, 1, 0, 0, x, 0]) := rfl
      rw [exec_control hs hroom rfl rfl (by simp), hrow, hmgt, hcode]
      simp only [Bool.or_eq_true, beq_iff_eq]
    · rw [exec_control hs hroom rfl rfl (by decide), ← hmgt]
      rfl
    · rw [exec_control hs hroom rfl rfl (by decide)]
      rfl
    · rw [exec_control hs hroom rfl rfl (by decide)]
      rfl
    · obtain ⟨a, b, hab⟩ := hvendor
      refine ⟨a, b, ?_⟩
      rw [exec_control hs hroom rfl rfl (by decide)]
      have hrow : ctlMsg e [0x00, 0x80, 0x06, 0] = emit { e with rng := e.rng + 1 } (.mgtReply ([0, 0, 6, 0] ++ ([0xFF, 0x00, 0x1D, 0x7C] ++ (openBytes e 2).1))) := rfl
      rw [hrow, hab]
      rfl
  case general =>
    obtain ⟨hmgt, -⟩ := served_eid hs
    have ht := mType_mgtOp hi
    refine ⟨fun heid => ?_, fun heid hlong => ?_, fun heid hlen hfull => ?_⟩
    · rw [exec_served hs hi, mgtServe, deliverMsg_noEid (by rw [hmgt]; exact heid)]
    · rw [exec_served hs hi, mgtServe, deliverMsg_typed (by rw [hmgt]; exact heid) ht, if_pos hlong, ← hmgt]
      rfl
    · have hfull : mgtFull e b = true := decide_eq_true hfull
      have heid' : e.mgt.eid ≠ 0 := by rw [hmgt]; exact heid
      rw [exec_served hs hi, mgtServe, deliverMsg_typed heid' ht, if_neg (Nat.not_lt.mpr hlen), hfull, if_pos rfl, busyReply_typed heid' ht, hmgt]
  case version => exact ⟨_, exec_spdm hs heid hroom rfl (by decide) rfl, rfl, rfl, rfl⟩
  case earlyCaps =>
    have hrow : spdmMsg e ([0x05, 0x12, 0xE1, 0, 0] ++ zeros 16) = if e.mgt.spdmStage = 0 then spdmError e 0x04 else spdmCaps e ([0x05, 0x12, 0xE1, 0, 0] ++ zeros 16) := rfl
    rw [exec_spdm hs heid hroom rfl (by decide) rfl, hrow, (served_eid hs).1, if_pos hst]
    rfl
  case caps =>
    have hrow : spdmMsg e ([0x05, 0x12, 0xE1, 0, 0] ++ zeros 16) = if e.mgt.spdmStage = 0 then spdmError e 0x04 else spdmCaps e ([0x05, 0x12, 0xE1, 0, 0] ++ zeros 16) := rfl
    obtain ⟨r, h⟩ := spdmCaps_parts e ([0x05, 0x12, 0xE1, 0, 0] ++ zeros 16)
    refine ⟨_, r, exec_spdm hs heid hroom rfl (by decide) rfl, ?_⟩
    rw [hrow, (served_eid hs).1, if_neg (by omega)]
    exact h
  case earlyAlgs =>
    have hrow : spdmMsg e (algBytes a h m) = if e.mgt.spdmStage < 2 then spdmError e 0x04 else spdmAlgs e (algBytes a h m) := rfl
    rw [exec_spdm hs heid hroom rfl (by cases a <;> cases h <;> cases m <;> decide) rfl, hrow, (served_eid hs).1, if_pos hst]
    rfl
  case algs =>
    have hrow : spdmMsg e (algBytes a h m) = if e.mgt.spdmStage < 2 then spdmError e 0x04 else spdmAlgs e (algBytes a h m) := rfl
    obtain ⟨r, hr⟩ := spdmAlgs_parts e a h m
    refine ⟨_, r, exec_spdm hs heid hroom rfl (by cases a <;> cases h <;> cases m <;> decide) rfl, ?_⟩
    rw [hrow, (served_eid hs).1, if_neg (by omega)]
    exact hr
  case earlyChallenge =>
    have hrow : spdmMsg e ([0x05, 0x12, 0x83, x, 0] ++ Config.fit 32 n) = if e.mgt.spdmStage < 3 then spdmError e 0x04 else spdmChallenge e ([0x05, 0x12, 0x83, x, 0] ++ Config.fit 32 n) := rfl
    rw [exec_spdm hs heid hroom rfl (by simp [length_fit]) rfl, hrow, (served_eid hs).1, if_pos hst]
    rfl
  case otherSlot =>
    have hrow : spdmMsg e ([0x05, 0x12, 0x83, x, 0] ++ Config.fit 32 n) = if e.mgt.spdmStage < 3 then spdmError e 0x04 else spdmChallenge e ([0x05, 0x12, 0x83, x, 0] ++ Config.fit 32 n) := rfl
    rw [exec_spdm hs heid hroom rfl (by simp [length_fit]) rfl, hrow, (served_eid hs).1, if_neg (by omega), spdmChallenge_otherSlot (b := [0x05, 0x12, 0x83, x, 0] ++ Config.fit 32 n) hx]
    rfl
  case cannotSign =>
    obtain ⟨hmgt, hlc, hkey, -, -⟩ := served_eid hs
    have hrow : spdmMsg e ([0x05, 0x12, 0x83, 0xFF, 0] ++ Config.fit 32 n) = if e.mgt.spdmStage < 3 then spdmError e 0x04 else spdmChallenge e ([0x05, 0x12, 0x83, 0xFF, 0] ++ Config.fit 32 n) := rfl
    have hcan : canSign e = false := canSign_not (by rw [rootLoaded, hkey, hlc]; exact hno)
    rw [exec_spdm hs heid hroom rfl (by simp [length_fit]) rfl, hrow, hmgt, if_neg (by omega), spdmChallenge_signs rfl, hcan, if_pos (by decide)]
    rfl
  case challenge =>
    obtain ⟨hmgt, hlc, hkey, hsym, -⟩ := served_eid hs
    have hrow : spdmMsg e ([0x05, 0x12, 0x83, 0xFF, 0] ++ Config.fit 32 n) = if e.mgt.spdmStage < 3 then spdmError e 0x04 else spdmChallenge e ([0x05, 0x12, 0x83, 0xFF, 0] ++ Config.fit 32 n) := rfl
    have hcan : canSign e = true := canSign_may (by rw [rootLoaded, hkey]; exact hr) (by rw [hlc]; exact hl) (by rw [drbgReady, hsym]; exact hd)
    refine ⟨_, (draw e 32).1, (draw (draw e 32).2 64).1, _, exec_spdm hs heid hroom rfl (by simp [length_fit]) rfl, rfl, rfl, ?_⟩
    rw [hrow, if_neg (by rw [hmgt]; omega), spdmChallenge_signs rfl, hcan, if_neg (by decide), ← hmgt]
    rfl
  case earlyMeas =>
    rw [exec_spdm hs heid hroom rfl (length_measBytes i g n) rfl, spdmMsg_meas, (served_eid hs).1, if_pos hst]
    rfl
  case badIndex =>
    have hbad : (!(decide (i.toNat ≤ 4) || decide (i.toNat = 0xFF))) = true := by
      rw [decide_eq_false (Nat.not_le.mpr h4), decide_eq_false (mt toNat_eq_ff.mp hff)]
      rfl
    have hindex : byteAt (measBytes i g n) 4 = i := rfl
    rw [exec_spdm hs heid hroom rfl (length_measBytes i g n) rfl, spdmMsg_meas, (served_eid hs).1, if_neg (by omega)]
    simp only [spdmMeas, hindex, hbad, if_true]
    rfl
  case cannotMeasure =>
    obtain ⟨hmgt, hlc, hkey, -, -⟩ := served_eid hs
    have hcan : canSign e = false := canSign_not (by rw [rootLoaded, hkey, hlc]; exact hno)
    rw [exec_spdm hs heid hroom rfl (length_measBytes i true n) rfl, spdmMsg_meas, hmgt, if_neg (by omega), spdmMeas_parts hi, hcan, if_pos (by decide)]
    rfl
  case measured =>
    obtain ⟨hmgt, hlc, hkey, hsym, -⟩ := served_eid hs
    have hsel : sel = selected i := hsel
    have hmay : ¬ (g && !canSign e) = true := by
      rcases hsign with hg | ⟨hr, hl, hd⟩
      · rw [hg, Bool.false_and]
        decide
      · rw [canSign_may (by rw [rootLoaded, hkey]; exact hr) (by rw [hlc]; exact hl) (by rw [drbgReady, hsym]; exact hd), Bool.not_true, Bool.and_false]
        decide
    rw [exec_spdm hs heid hroom rfl (length_measBytes i g n) rfl, spdmMsg_meas, hmgt, if_neg (by omega), spdmMeas_parts hi, if_neg hmay, hsel]
    cases g with
    | false => 
      have hparts := measHead_parts e i false []
      rw [List.append_nil] at hparts
      exact ⟨_, _, rfl, rfl, hparts⟩
    | true => exact ⟨_, _, rfl, rfl, measHead_parts e i true _⟩
  case view =>
    obtain ⟨hmgt, -, -, -, hstl⟩ := served_eid hs
    have hgen : (stall e n.toNat).gen = (stall s.toDev n.toNat).gen := by rw [stall, hstl]; rfl
    rw [exec_device hs heid hroom (b := stallMsg 0x02 t n 0 g) rfl (by rw [length_stallMsg]; decide) rfl]
    have hrow : devMessage e (stallMsg 0x02 t n 0 g) = stallView e (stallMsg 0x02 t n 0 g) := rfl
    rw [hrow, stallView_row, hgen]
  case act =>
    obtain ⟨hmgt, -, -, -, hstl⟩ := served_eid hs
    have hgen : (stall e n.toNat).gen = (stall s.toDev n.toNat).gen := by rw [stall, hstl]; rfl
    have hop : (o.toNat = 2 ∨ o.toNat = 3) ↔ (o = 2 ∨ o = 3) :=
      or_congr ⟨fun h => BitVec.eq_of_toNat_eq h, fun h => by rw [h]; rfl⟩ ⟨fun h => BitVec.eq_of_toNat_eq h, fun h => by rw [h]; rfl⟩
    have hrow : exec (.stallAct t n o g) s = .next (on s (stallAct e (stallMsg 0x03 t n o g))) :=
      exec_device hs heid hroom (b := stallMsg 0x03 t n o g) rfl (by rw [length_stallMsg]; decide) rfl
    rw [hrow, stallAct_row, hgen, hmgt]
    refine ⟨fun hen => ?_, fun hen hbad => ?_, fun hen hn ho hne => ?_, fun r hen hn ho hg hr => ?_⟩
    · rw [if_pos hen]
    · rw [if_neg (by simp [hen]), if_pos (by rw [hop]; simpa using hbad)]
    · rw [if_neg (by simp [hen]), if_neg fun h => h.elim (Nat.not_le.mpr hn) fun k => k (hop.mpr ho), if_pos hne]
    · rw [if_neg (by simp [hen]), if_neg fun h => h.elim (Nat.not_le.mpr hn) fun k => k (hop.mpr ho), if_neg (not_not_intro hg), ← hr]
  case snapshot =>
    obtain ⟨hmgt, -⟩ := served_eid hs
    rw [exec_device hs heid hroom rfl (by simp) rfl, ← hmgt]
    have hrow : devMessage e [0x7E, 0x1D, 0x7C, 0x04, t, 0, 0, 0] = snapshot e [0x7E, 0x1D, 0x7C, 0x04, t, 0, 0, 0] := rfl
    rw [hrow]
    simp only [snapshot, devReply, List.flatMap_cons, List.flatMap_nil, List.append_nil, List.append_assoc]
    rfl
  case keys =>
    obtain ⟨-, hlc, hkey, -, -⟩ := served_eid hs
    have hcond : (rootLoaded e && !lcLocked e) = decide (rootLoaded s.toDev = true ∧ s.lc.state ≠ 0xEE) := by
      rw [rootLoaded, lcLocked, hkey, hlc, Bool.eq_iff_iff]
      simp [rootLoaded]
    have hrow : exec (.attestKey t) s = .next (on s (attestKeys e [0x7E, 0x1D, 0x7C, 0x05, t, 0, 0, 0])) := exec_device hs heid hroom (b := [0x7E, 0x1D, 0x7C, 0x05, t, 0, 0, 0]) rfl (by simp) rfl
    rw [hrow, attestKeys, hcond]
    by_cases hmay : rootLoaded s.toDev = true ∧ s.lc.state ≠ 0xEE
    · rw [if_pos (decide_eq_true hmay), if_pos hmay]
      rfl
    · rw [if_neg (by rw [decide_eq_false hmay]; decide), if_neg hmay]
      rfl
  case command =>
    obtain ⟨-, hlc, -, -, -⟩ := served_eid hs
    have hrow : exec (.command t q) s = .next (on s (devCommand e ([0x7E, 0x1D, 0x7C, 0x01, t, 0, 0, 0] ++ q))) := exec_device hs heid hroom (b := [0x7E, 0x1D, 0x7C, 0x01, t, 0, 0, 0] ++ q) rfl (by simp only [List.length_append, List.length_cons, List.length_nil]; omega) rfl
    have hbody : devCommand e ([0x7E, 0x1D, 0x7C, 0x01, t, 0, 0, 0] ++ q) = if lockedOut e q then endNew e .mgt q t ST.locked else match intake e .mgt q t with | some d => d | none => mgtBusy e 0x01 t := rfl
    refine ⟨fun hl hop hmore => ?_, fun hl d hin => ?_⟩
    · have hout : lockedOut e q = true := by
        simp only [List.mem_cons, List.not_mem_nil, or_false, not_or] at hop
        simp [lockedOut, lcLocked, hlc, hl, hmore, hop]
      rw [hrow, hbody, hout, if_pos rfl]
    · have hout : lockedOut e q = false := by simp [lockedOut, lcLocked, hlc, show ¬ s.lc.state = 238#8 from hl]
      rw [hrow, hbody, hout, if_neg Bool.false_ne_true, hin]

end Sys2Proof.Machine
end

section
/-! Debug accesses and internal scan. -/

namespace Sys2Proof.Machine

open Sys2Proof.Safety

section
variable {d : Dev} {a : DebugAcc} (hp : powered d = true) (hs : d.glb.power ≠ .standby)
include hp hs

/-- In power and awake, an access the matrix does not open is denied. -/
theorem debugAccess_denied (h : debugOpen d a = false) : debugAccess d a = tapReport d ST.denied := by
  have hawake : asleep d = false := beq_eq_false_iff_ne.mpr hs
  simp only [debugAccess, hp, hawake, h, Bool.not_true, Bool.not_false, Bool.false_eq_true, if_false, if_true]

omit hs in
theorem debugAccess_open (hr : d.glb.power = .run) (h : debugOpen d a = true) : debugAccess d a = debugDo d a := by
  have hawake : asleep d = false := by rw [asleep, hr]; rfl
  have hdoze : (d.glb.power == .doze && a.gatedIsland) = false := by rw [hr]; rfl
  simp only [debugAccess, hp, hawake, h, hdoze, Bool.not_true, Bool.false_eq_true, if_false]

theorem scanEntry_ruled {i : Nat} (h1 : d.lc.state ≠ 0x10) (h2 : d.lc.state ≠ 0x17) : scanEntry d i =
    if !d.dbg.rights.getLsbD 4 || !(decide (i ≤ 4) || i == 8) then tapReport d ST.denied
    else if d.dbg.scanned then tapReport d ST.ok
    else tapReport { stopEngines (lockForGrant d) with dbg := { (stopEngines (lockForGrant d)).dbg with scanned := true }, sym := { (stopEngines (lockForGrant d)).sym with rngInst := false } } ST.ok := by
  have hawake : asleep d = false := beq_eq_false_iff_ne.mpr hs
  have hdie : (d.lc.state == 0x10 && i == 8) = false := by rw [beq_eq_false_iff_ne.mpr h1, Bool.false_and]
  have htest : (d.lc.state == 0x17) = false := beq_eq_false_iff_ne.mpr h2
  simp only [scanEntry, hp, hawake, hdie, htest, Bool.not_true, Bool.false_eq_true, if_false]

end

theorem debugOpen_matrix {d : Dev} {a : DebugAcc} (hpf : a.viaPf = true → a.secure = false ∧ a.what ≠ .sramSecure) (hright : d.dbg.rights.getLsbD (needsRight a) = true) (hmem : memOpen d a = true)
    (hsec : a.what = .sramSecure → a.kind = .read → d.dbg.rights.getLsbD 2 = true) : debugOpen d a = true := by
  have h1 : (a.viaPf && (a.secure || a.what == .sramSecure)) = false := by
    cases hv : a.viaPf with
    | false => rfl
    | true =>
      obtain ⟨hn, hw⟩ := hpf hv
      rw [hn, beq_eq_false_iff_ne.mpr hw]
      rfl
  have h2 : (a.what == .sramSecure && isRead a.kind && !d.dbg.rights.getLsbD 2) = false := by
    by_cases hw : a.what = .sramSecure
    · cases hk : a.kind with
      | read => rw [hsec hw hk, Bool.not_true, Bool.and_false]
      | _ =>
        rw [show isRead _ = false from rfl, Bool.and_false, Bool.false_and]
    · rw [beq_eq_false_iff_ne.mpr hw, Bool.false_and, Bool.false_and]
  rw [debugOpen, h1, h2, hright, hmem]
  rfl

/-- Settles O21: a debug access does what the matrix opens and is denied otherwise, and a scan clears the secrets first. -/
theorem debugAccessesFollowTheMatrix : Obligations.DebugAccessesFollowTheMatrix := by
  intro s a hp
  have hrow : exec (.debugAccess a) s = .next (on s (debugAccess s.toDev a)) := rfl
  have hscan : ∀ i : Fin 9, exec (.internalScanEntry i) s = .next (on s (scanEntry s.toDev i.val)) := fun _ => rfl
  refine ⟨fun hstandby => ?asleep, fun hs hno => ?denied, fun hr hpf hright hmem hsec => ?served, fun i hs h1 h2 hright hi hfirst => ?scan, fun i hs h1 h2 hright => ?noScan⟩
  case asleep =>
    have hasleep : asleep s.toDev = true := beq_iff_eq.mpr hstandby
    rw [hrow, debugAccess, hp, hasleep]
    rfl
  case denied =>
    have hclosed : debugOpen s.toDev a = false := by
      rcases hno with h | h | ⟨hv, h | h⟩ <;> simp [debugOpen, h]
      · exact fun hn _ _ => absurd hv (by simp [hn])
      · exact fun hn _ _ => absurd hv (by simp [hn])
    rw [hrow, debugAccess_denied hp hs hclosed]
  case served =>
    have hdo : exec (.debugAccess a) s = .next (on s (debugDo s.toDev a)) := by
      rw [hrow, debugAccess_open hp hr (debugOpen_matrix hpf hright hmem hsec)]
    have hread : a.kind = .read → exec (.debugAccess a) s = .next (on s (tapReport (debugRead s.toDev a).1 ST.ok (debugRead s.toDev a).2)) := fun hk => by
      rw [hdo, debugDo, hk]
    have hwrite : a.kind = .write → exec (.debugAccess a) s = .next (on s (tapReport (debugWrite s.toDev a) ST.ok)) := fun hk => by
      rw [hdo, debugDo, hk]
    refine ⟨fun hk hw => ?_, fun hk hw => ?_, fun hk hw hl hroot => ?_, fun p o hk hw hat => ?_, fun p o hk hw hat => ?_, fun hk hw => ?_, fun hk hw => ?_, fun hk => ?_, fun hk => ?_⟩
    · rw [hread hk, debugRead, hw]
    · rw [hread hk, debugRead]
      rcases hw with hw | hw <;> rw [hw]
    · rw [hread hk, debugRead, hw]
      dsimp only
      rw [if_pos (by simp [hl, hroot])]
    · rw [hread hk, debugRead, hw]
      dsimp only
      rw [hat]
    · rw [hwrite hk, debugWrite, hw]
      dsimp only
      rw [hat]
    · rw [hread hk, debugRead, hw]
    · rw [hwrite hk, debugWrite]
      cases h : a.what with
      | regs => exact absurd h hw
      | _ => rfl
    · rw [hdo, debugDo, hk]
    · rw [hdo, debugDo, hk]
  case scan =>
    rw [hscan, scanEntry_ruled hp hs h1 h2, hright, if_neg (by rcases hi with h | h <;> simp [h]), hfirst, if_neg Bool.false_ne_true]
  case noScan =>
    rw [hscan, scanEntry_ruled hp hs h1 h2, hright]
    rfl

end Sys2Proof.Machine
end

section
/-! Commands that answer a table. -/

namespace Sys2Proof.Machine

open Sys2Proof.Safety

theorem maskBad_of {c : Cmd} (h : readsKey c = false) : maskBad c = false := by
  rw [maskBad, h, Bool.and_false]

theorem listedAll {i : Issuer} (h : i ≠ .secure) : listed whoAll i = true := by
  cases i with
  | secure => exact absurd rfl h
  | _ => rfl

theorem listedP {i : Issuer} (h : i = .pf) : listed whoP i = true := by rw [h]; rfl

section
variable {s : State} {op : Nat} {r : Request}

/-- A command of RUN that reads nothing but answers bytes. -/
theorem read_claimed {checks : List (Bool × Half)} {res : Nat} {result : Dev → Bytes} {d : Dev} (hchecks : firstFail checks = none) (hmask : readsKey (asCmd s op r) = false) (hcl : claimed s op r res d) :
    runRead (took s op r) (asCmd s op r) checks res result = finish d s.nextRid ST.ok (result d) :=
  runRead_pass hchecks (maskBad_of hmask) hcl

theorem parse_none (h : r.params = []) : parse (asCmd s op r) 0 = none := parse_asCmd (by rw [h]; rfl)

theorem runNop_pass {d : Dev} {c : Cmd} (hchecks : firstFail (preChecks d c whoAll (stateU d) (parse c 0) (noKeyOwner c) 0) = none) {q : Req} (hq : tget d.reqs c.rid = some q) :
    runNop d c = if earlierOf d c = [] then finish d c.rid ST.ok else setReq d c.rid { q with stage := .nopWait (earlierOf d c) } := by
  unfold runNop
  rw [hchecks, hq]
  cases earlierOf d c with
  | nil => rfl
  | cons x l => rfl

/-- A stall asks about another one. -/
def foreignStall (c : Cmd) : Bool := match c.issuer with | .stall n => decide (pByte c 0 ≠ n.val) | _ => false

theorem pByte_index {n : Nat} {l : Bytes} (hn : n < 64) (hp : r.params = BitVec.ofNat 8 n :: l) : pByte (asCmd s op r) 0 = n := by
  have hbyte : byteAt (asCmd s op r).params 0 = BitVec.ofNat 8 n := by
    change byteAt r.params 0 = _
    rw [hp]
    rfl
  rw [pByte, hbyte, BitVec.toNat_ofNat]
  omega

theorem infoStall_checks {n : Nat} (hi : fromPV r) (hl : s.lc.state ≠ 0xEE) (hn : n < 64) (hp : r.params = [BitVec.ofNat 8 n, 0, 0, 0]) (hkey : r.key = 0) (howner : r.ownerId = 0) (hcap : 32 ≤ r.dataCap) :
    firstFail (preChecks (took s 0x0103 r) (asCmd s 0x0103 r) whoPV (stateU (took s 0x0103 r)) (parse (asCmd s 0x0103 r) 4 [(1, 3)]) (noKeyOwner (asCmd s 0x0103 r) && decide (pByte (asCmd s 0x0103 r) 0 < 64)) 32) = none :=
  preChecks_took (listedPV hi) (stateU_took hl) (.inr (by simp [tableBarred])) (parse_zeros (by rw [(asCmd_fields s _ r).2.2.2.2.2.1, hp]; rfl) (by simp [hp, slice, allZero]))
    (by rw [noKeyOwner_asCmd hkey howner, pByte_index hn hp]; simpa using hn) hcap

theorem runInfoStall_checked {d : Dev} {c : Cmd} (hchecks : firstFail (preChecks d c whoPV (stateU d) (parse c 4 [(1, 3)]) (noKeyOwner c && decide (pByte c 0 < 64)) 32) = none) :
    runInfoStall d c = if foreignStall c then finish d c.rid ST.denied else runRead d c (preChecks d c whoPV (stateU d) (parse c 4 [(1, 3)]) (noKeyOwner c && decide (pByte c 0 < 64)) 32 ++ [(false, ST.denied)]) 32 fun d => infoStall d (pByte c 0) := by
  have hrow : runInfoStall d c = runRead d c (preChecks d c whoPV (stateU d) (parse c 4 [(1, 3)]) (noKeyOwner c && decide (pByte c 0 < 64)) 32 ++ [(foreignStall c, ST.denied)]) 32 fun d => infoStall d (pByte c 0) := rfl
  rw [hrow]
  cases foreignStall c with
  | false => rfl
  | true =>
    refine runAtomic_fail ?_
    rw [firstFail_append, hchecks]
    rfl

end

/-- Settles O6: the information commands answer their tables. -/
theorem infoCommandsAnswer : Obligations.InfoCommandsAnswer := by
  intro r s d hrun hkey howner
  have hno : ∀ op, noKeyOwner (asCmd s op r) = true := fun op => noKeyOwner_asCmd hkey howner
  have hnop : exec (.nop r) s = .next (on s (runNop (took s 0x0101 r) (asCmd s 0x0101 r))) := onDev_command_run hrun _ _
  have hnopRow : r.issuer ≠ .secure → s.lc.state ≠ 0xEE → r.params = [] → exec (.nop r) s = .next (on s (if earlierOf (took s 0x0101 r) (asCmd s 0x0101 r) = [] then finish (took s 0x0101 r) s.nextRid ST.ok
      else setReq (took s 0x0101 r) s.nextRid { issuer := r.issuer, sqIndex := r.sqIndex, rawTag := r.tag, dataCap := r.dataCap, stage := .nopWait (earlierOf (took s 0x0101 r) (asCmd s 0x0101 r)) })) := fun hi hl hp => by
    rw [hnop, runNop_pass (preChecks_took (listedAll hi) (stateU_took hl) (.inr (by simp [tableBarred])) (parse_none hp) (hno _) (Nat.zero_le _)) (took_req ..)]
    rfl
  refine ⟨fun hi hl hp he => ?nop, fun hi hl hp he => ?nopWaits, fun hi hl hp hcap hcl => ?device, fun n hi hl hp hcap hcl => ?stall, fun n m hi hnm hl hp hcap => ?otherStall, fun hi hl hp hcap hcl => ?quorum,
    fun hi hp hcap hcl => ?lifeCycle, fun hi hl hp hcap hcl => ?ledger, fun hi hl hp hcap hcl => ?link⟩
  case nop => rw [hnopRow hi hl hp, if_pos he]
  case nopWaits => rw [hnopRow hi hl hp, if_neg he]
  case device =>
    have hrow : exec (.infoDevice r) s = .next (on s (runInfoDevice (took s 0x0102 r) (asCmd s 0x0102 r))) := onDev_command_run hrun _ _
    rw [hrow, runInfoDevice, read_claimed (preChecks_took (listedPVM hi) (stateU_took hl) (.inr (by simp [tableBarred])) (parse_none hp) (hno _) hcap) (by simp [readsKey]) hcl]
    rfl
  case stall =>
    have hrow : exec (.infoStall r) s = .next (on s (runInfoStall (took s 0x0103 r) (asCmd s 0x0103 r))) := onDev_command_run hrun _ _
    have hn : pByte (asCmd s 0x0103 r) 0 = n.val := pByte_index n.isLt hp
    have hown : foreignStall (asCmd s 0x0103 r) = false := by
      rw [foreignStall, hn]
      rcases hi with hi | hi <;> simp [hi]
    have hlisted : fromPV r := hi.imp id fun h => ⟨n, h⟩
    have hchecks := infoStall_checks (s := s) hlisted hl n.isLt hp hkey howner hcap
    rw [hrow, runInfoStall_checked hchecks, hown, if_neg Bool.false_ne_true, read_claimed (firstFail_append_none hchecks rfl) (by simp [readsKey]) hcl, hn]
    rfl
  case otherStall =>
    have hn : pByte (asCmd s 0x0103 r) 0 = n.val := pByte_index n.isLt hp
    have hown : foreignStall (asCmd s 0x0103 r) = true := by
      rw [foreignStall, hn]
      simpa [hi] using fun h => hnm (Fin.ext h)
    have hrow : exec (.infoStall r) s = .next (on s (runInfoStall (took s 0x0103 r) (asCmd s 0x0103 r))) := onDev_command_run hrun _ _
    rw [hrow, runInfoStall_checked (infoStall_checks (.inr ⟨m, hi⟩) hl n.isLt hp hkey howner hcap), hown, if_pos rfl]
    rfl
  case quorum =>
    have hrow : exec (.quorumStatus r) s = .next (on s (runQuorumStatus (took s 0x0506 r) (asCmd s 0x0506 r))) := onDev_command_run hrun _ _
    rw [hrow, runQuorumStatus, read_claimed (preChecks_took (listedPM hi) (stateU_took hl) (.inr (by simp [tableBarred])) (parse_none hp) (hno _) hcap) (by simp [readsKey]) hcl]
  case lifeCycle =>
    have hrow : exec (.lcGetState r) s = .next (on s (runLcGetState (took s 0x0801 r) (asCmd s 0x0801 r))) := onDev_command_run hrun _ _
    rw [hrow, runLcGetState, read_claimed (preChecks_took (listedPVM hi) rfl (.inr (by simp [tableBarred])) (parse_none hp) (hno _) hcap) (by simp [readsKey]) hcl]
  case ledger =>
    have hrow : exec (.ledgerRead r) s = .next (on s (runLedgerRead (took s 0x0F02 r) (asCmd s 0x0F02 r))) := onDev_command_run hrun _ _
    rw [hrow, runLedgerRead, read_claimed (preChecks_took (listedP hi) (stateU_took hl) (.inr (by simp [tableBarred])) (parse_none hp) (hno _) hcap) (by simp [readsKey]) hcl]
    rfl
  case link =>
    have hrow : exec (.chnStatus r) s = .next (on s (runChnStatus (took s 0x0701 r) (asCmd s 0x0701 r))) := onDev_command_run hrun _ _
    rw [hrow, runChnStatus, read_claimed (preChecks_took (listedPM hi) (stateU_took hl) (.inr (by simp [tableBarred])) (parse_none hp) (hno _) hcap) (by simp [readsKey]) hcl]

end Sys2Proof.Machine
end

section
/-! Symmetric commands: from their checks to their lane. -/

namespace Sys2Proof.Machine

open Sys2Proof.Safety

section
variable {s : State} {op : Nat} {r : Request} {i : Instr}

/-- The commands that take a lane. -/
def laneRows (r : Request) : List (Nat × Instr) := [(0x0401, .symCipher r), (0x0402, .symMac r), (0x0403, .hash r), (0x0404, .symKdf r), (0x0405, .symKw r), (0x0406, .symRng r)]

theorem mustWait_took : mustWait (took s op r) (asCmd s op r) = mustWait s.toDev (asCmd s op r) := rfl

theorem exec_lane (hi : (op, i) ∈ laneRows r) (hrun : s.glb.power = .run) :
    exec i s = .next (on s (if mustWait s.toDev (asCmd s op r) then { took s op r with sym := { s.sym with wait := s.sym.wait ++ [asCmd s op r] } } else runSym (took s op r) (asCmd s op r))) := by
  have hstart : exec i s = .next (on s (symStart (took s op r) (asCmd s op r))) := by
    simp only [laneRows, List.mem_cons, Prod.mk.injEq, List.not_mem_nil, or_false] at hi
    rcases hi with ⟨rfl, rfl⟩ | ⟨rfl, rfl⟩ | ⟨rfl, rfl⟩ | ⟨rfl, rfl⟩ | ⟨rfl, rfl⟩ | ⟨rfl, rfl⟩ <;> exact onDev_command_run hrun _ _
  rw [hstart, symStart, mustWait_took]
  rfl

end

section
variable {d e : Dev} {c : Cmd} {st : Half} {l : Nat}

theorem runSym_checks (h : firstFail (symPlan d c).checks = some st) : runSym d c = finish d c.rid st := by
  simp only [runSym, h]

variable (hchecks : firstFail (symPlan d c).checks = none) (hq : (symPlan d c).quorum = none)
include hchecks hq

theorem runSym_resources (h : firstFail (symPlan d c).resources = some st) : runSym d c = finish d c.rid st := by
  simp only [runSym, hchecks, hq, h]

variable (hres : firstFail (symPlan d c).resources = none) (hcl : claimResult d c (symPlan d c).res = some e)
include hres hcl

theorem runSym_masked (hmask : maskBad c = true) : runSym d c = maskFault e := by
  simp only [runSym, hchecks, hq, hres, hcl, hmask, if_true]

theorem runSym_starts (hmask : maskBad c = false) (hl : laneFor e (hashLaned c) (issuerIdx c.issuer) = some l) :
    runSym d c = (let b := (symPlan d c).build { e with rng := e.rng + 1 }
      setLanes b.1 (tset b.1.sym.lanes l { b.2 with payer := issuerIdx c.issuer, since := e.now })) := by
  simp only [runSym, hchecks, hq, hres, hcl, hmask, hl, Bool.false_eq_true, if_false]

end

/-- Settles O10: a symmetric command waits for a lane, ends at its first failing check, or takes a free lane. -/
theorem symmetricCommandsStartALane : Obligations.SymmetricCommandsStartALane := by
  intro r s op i hi hrun
  have hrow := exec_lane hi hrun
  refine ⟨fun hw => ?waits, fun st hw hst => ?fails, fun d l hw hc hq hr hcl hmask hl => ?starts, fun d hw hc hq hr hcl hmask => ?masked⟩
  case waits => rw [hrow, if_pos hw]
  case fails =>
    rw [hrow, if_neg (by simp [hw]), runSym_checks hst]
    rfl
  case starts =>
    rw [hrow, if_neg (by simp [hw]), runSym_starts hc hq hr hcl hmask hl]
    rfl
  case masked => rw [hrow, if_neg (by simp [hw]), runSym_masked hc hq hr hcl hmask]

/-! ### SYM_RNG and HASH -/

section
variable {s : State} {op : Nat} {r : Request}

theorem pWord_asCmd {n off : Nat} {a l : Bytes} (hp : r.params = a ++ (leBytes 4 n ++ l)) (ha : a.length = off) (hn : n < 2 ^ 32) : pWord (asCmd s op r) off = n :=
  leAt_field hp ha hn

/-- SYM_RNG of a request laid out as its row says. -/
theorem planRng_parts {n : Nat} (hp : r.params = leBytes 4 n) (hn : n < 2 ^ 32) : symPlan (took s 0x0406 r) (asCmd s 0x0406 r) =
    { checks := symPre (took s 0x0406 r) (asCmd s 0x0406 r) (stateU (took s 0x0406 r)) (parse (asCmd s 0x0406 r) 4) (noKeyOwner (asCmd s 0x0406 r) && decide (1 ≤ n) && decide (n ≤ 4096)) n
      resources := [rngCheck (took s 0x0406 r)]
      res := n
      build := fun d => (d, { rid := s.nextRid, kind := .rng n }) } := by
  have hw : pWord (asCmd s 0x0406 r) 0 = n := pWord_asCmd (a := []) (l := []) (by rw [hp, List.append_nil]; rfl) rfl hn
  have hplan : symPlan (took s 0x0406 r) (asCmd s 0x0406 r) = planRng (took s 0x0406 r) (asCmd s 0x0406 r) := rfl
  rw [hplan, planRng, hw]
  rfl

section
variable {h : Byte} {m : Bytes} (hp : r.params = [h, 0, 0, 0] ++ leBytes 4 m.length ++ m)
include hp

theorem parse_hash : parse (asCmd s op r) 8 [(1, 1)] [(m.length, false)] = none := by
  have hlen : (asCmd s op r).params.length = 8 + m.length := by
    rw [(asCmd_fields s op r).2.2.2.2.2.1, hp]
    simp
    omega
  have hzero : ∀ z ∈ [(1, 1)], allZero (slice (asCmd s op r).params z.1 z.2) = true := by
    rw [(asCmd_fields s op r).2.2.2.2.2.1, hp]
    simp [slice, allZero]
  rw [parse_variable (by omega) hzero, hlen, Nat.add_sub_cancel_left]
  exact parseVars_one _

/-- HASH of a request laid out as its row says, of an algorithm whose digest has one length. -/
theorem planHash_parts (h7 : h.toNat ≤ 7) (hm : m.length < 2 ^ 32) : symPlan (took s 0x0403 r) (asCmd s 0x0403 r) =
    { checks := symPre (took s 0x0403 r) (asCmd s 0x0403 r) (stateU (took s 0x0403 r)) (parse (asCmd s 0x0403 r) 8 [(1, 1)] [(m.length, false)])
        (noKeyOwner (asCmd s 0x0403 r) && decide (1 ≤ h.toNat) && decide (h.toNat ≤ 9) && true) (Config.digestLen h.toNat)
      res := Config.digestLen h.toNat
      build := fun d => (d, { rid := s.nextRid, kind := .hash h.toNat (Config.digestLen h.toNat) m }) } := by
  have hparams : (asCmd s 0x0403 r).params = [h, 0, 0, 0] ++ leBytes 4 m.length ++ m := hp
  have halg : pByte (asCmd s 0x0403 r) 0 = h.toNat := by rw [pByte, hparams]; rfl
  have hout : pHalf (asCmd s 0x0403 r) 2 = 0 := by rw [pHalf, hparams]; rfl
  have hlen : pWord (asCmd s 0x0403 r) 4 = m.length := pWord_asCmd (a := [h, 0, 0, 0]) (l := m) (by rw [hp, List.append_assoc]) rfl hm
  have hmsg : pVar (asCmd s 0x0403 r) 8 m.length = m := slice_field (l := []) (by rw [hparams, List.append_nil]) (by simp) rfl
  have hdigest : hashOut h.toNat 0 = Config.digestLen h.toNat := if_pos h7
  have hplan : symPlan (took s 0x0403 r) (asCmd s 0x0403 r) = planHash (took s 0x0403 r) (asCmd s 0x0403 r) := rfl
  rw [hplan, planHash, halg, hout, hlen, hmsg, hdigest, if_pos h7]
  rfl

end

end

/-- Settles O11: random bytes come from an AES lane while a DRBG is ready, and a digest from a hash lane. -/
theorem randomAndHash : Obligations.RandomAndHash := by
  intro r s d hissuer hrun hkey howner hlock
  have hlisted : listed whoPVK r.issuer = true := by rcases hissuer with h | ⟨_, h⟩ | ⟨_, h⟩ <;> rw [h] <;> rfl
  have hrng : exec (.symRng r) s = _ := exec_lane (op := 0x0406) (r := r) (by simp [laneRows]) hrun
  have hhash : exec (.hash r) s = _ := exec_lane (op := 0x0403) (r := r) (by simp [laneRows]) hrun
  have hchecks : ∀ n, 1 ≤ n → n ≤ 4096 → r.params = leBytes 4 n → n ≤ r.dataCap →
      firstFail (symPre (took s 0x0406 r) (asCmd s 0x0406 r) (stateU (took s 0x0406 r)) (parse (asCmd s 0x0406 r) 4) (noKeyOwner (asCmd s 0x0406 r) && decide (1 ≤ n) && decide (n ≤ 4096)) n) = none := fun n h1 h2 hp hcap =>
    preChecks_took hlisted (stateU_took hlock) (.inr (by simp [tableBarred, hkey])) (parse_asCmd (by rw [hp]; exact length_leBytes 4 n)) (by rw [noKeyOwner_asCmd hkey howner]; simp [h1, h2]) hcap
  have hmask : ∀ op, op = 0x0403 ∨ op = 0x0406 → maskBad (asCmd s op r) = false := fun op hop => by
    refine maskBad_of ?_
    rcases hop with rfl | rfl <;> simp [readsKey, hkey]
  refine ⟨fun n l h1 h2 hp hcap hd hw hcl hl => ?random, fun n h1 h2 hp hcap hd hw => ?noRandom, fun h m l h1 h7 hm hp hcap hw hcl hl => ?digest⟩
  case random =>
    have hplan := planRng_parts (s := s) hp (by omega)
    have hres : rngCheck (took s 0x0406 r) = (false, ST.rngFail) := by rw [rngCheck, show drbgReady (took s 0x0406 r) = true from hd]; rfl
    rw [hrng, if_neg (by simp [hw]), runSym_starts (e := d) (l := l) (by rw [hplan]; exact hchecks n h1 h2 hp hcap) (by rw [hplan]) (by rw [hplan, hres]; rfl) (by rw [hplan]; exact hcl) (hmask 0x0406 (.inr rfl)) hl, hplan]
    rfl
  case noRandom =>
    have hplan := planRng_parts (s := s) hp (by omega)
    have hres : rngCheck (took s 0x0406 r) = (true, ST.rngFail) := by rw [rngCheck, show drbgReady (took s 0x0406 r) = false from hd]; rfl
    rw [hrng, if_neg (by simp [hw]), runSym_resources (st := ST.rngFail) (by rw [hplan]; exact hchecks n h1 h2 hp hcap) (by rw [hplan]) (by rw [hplan, hres]; rfl)]
    rfl
  case digest =>
    have hplan := planHash_parts (s := s) hp h7 hm
    have hpre : firstFail (symPlan (took s 0x0403 r) (asCmd s 0x0403 r)).checks = none := by
      rw [hplan]
      exact preChecks_took hlisted (stateU_took hlock) (.inr (by simp [tableBarred, hkey])) (parse_hash hp) (by rw [noKeyOwner_asCmd hkey howner]; simp [h1, h7]; omega) hcap
    rw [hhash, if_neg (by simp [hw]), runSym_starts (e := d) (l := l) hpre (by rw [hplan]) (by rw [hplan]; rfl) (by rw [hplan]; exact hcl) (hmask 0x0403 (.inl rfl)) hl, hplan]
    rfl

end Sys2Proof.Machine
end

section
/-! Life-cycle transitions: their commands, and the words they write. -/

namespace Sys2Proof.Machine

open Sys2Proof.Safety

/-- A gate that opens has spent the session, and nothing else. -/
theorem quorumGate_opened {d e : Dev} {c : Cmd} {o : Nat} (h : quorumGate d c o = (e, none)) : ∃ x, e = { d with crd := x } := by
  unfold quorumGate gateWith at h
  split at h
  · cases h
  · split at h
    · cases h
    · split at h
      · cases h
      · split at h
        · cases h
        · split at h
          · cases h
          · cases h
            exact ⟨_, rfl⟩

section
variable {s : State} {op : Nat} {r : Request} {b : Byte}

/-- A request of one byte and three that are zero. -/
theorem byteAt_asCmd (hp : r.params = [b, 0, 0, 0]) : byteAt (asCmd s op r).params 0 = b := by
  rw [(asCmd_fields s op r).2.2.2.2.2.1, hp]
  rfl

theorem parse_byte (hp : r.params = [b, 0, 0, 0]) : parse (asCmd s op r) 4 [(1, 3)] = none :=
  parse_zeros (by rw [(asCmd_fields s op r).2.2.2.2.2.1, hp]; rfl) (by simp [hp, slice, allZero])

/-- The record of a transition that begins. -/
def startRecord (d : Dev) (n : Nat) (t : Byte) : Record :=
  devRec 0x9003 0x0001 (t :: b4 (rLcState { d with lc := { d.lc with job := some { rid := n, target := t, writes := [] } } })) .lcStart

theorem beginTransition_eq {d e : Dev} (h : e.lc = d.lc) (n : Nat) (t : Byte) (l : List OtpWrite) :
    beginTransition e n t l = logRec { e with lc := { d.lc with job := some { rid := n, target := t, writes := l } } } (startRecord d n t) := by
  rw [beginTransition, h]
  rfl

theorem logGate_open {d : Dev} (h1 : d.evr.failed = false) (h2 : d.evr.critFull = false) : firstFail (logGate d) = none := by
  rw [logGate, h1, h2]
  rfl

end

/-- The checks that are of the transition itself. -/
def moveChecks (d : Dev) (t : Byte) : List (Bool × Half) :=
  [(!legalMove d.lc.state t, ST.lcIllegal),
   (d.lc.job.isSome || anyStall d || !d.glb.rsvOk || (blankSlot d).isNone, ST.busy),
   (d.dbg.rights.getLsbD 3 || d.dbg.rights.getLsbD 4, ST.denied),
   (needsCustodians d.lc.state t && (ownerOf d 0).isNone, ST.ownerBad),
   (d.lc.state == 2 && t == 3 && (match ownerOf d 0 with | some w => decide (w.m < 2) | none => false), ST.denied)]

/-- What a transition whose checks pass does: it spends its quorum and begins. -/
def passedMove (d : Dev) (c : Cmd) (t : Byte) : Dev :=
  match quorumIf (needsCustodians d.lc.state t) d c 0 with
  | (d, some st) => finish d c.rid st
  | (d, none) =>
    match blankSlot d with
    | none => finish d c.rid ST.busy
    | some k => beginTransition d c.rid t (.intent k (intentValue t) :: writesFor d t)

theorem runLcTransition_eq (d : Dev) (c : Cmd) : runLcTransition d c =
    match firstFail (preChecks d c whoP (stateU d) (parse c 4 [(1, 3)]) (noKeyOwner c) 0 ++ moveChecks d (byteAt c.params 0) ++ logGate d) with
    | some st => finish d c.rid st
    | none => passedMove d c (byteAt c.params 0) := rfl

/-- The checks of LC_RESUME on a unit that is resumable. -/
def resumeChecks (d : Dev) (c : Cmd) : List (Bool × Half) :=
  preChecks d c whoP true (parse c 4 [(1, 3)]) (noKeyOwner c) 0 ++ ([(byteAt c.params 0 != d.lc.target, ST.lcIllegal), (d.lc.job.isSome, ST.busy)] ++ logGate d)

theorem runLcResume_listed {d : Dev} {c : Cmd} (hpol : c.pols = []) (hwho : listed whoP c.issuer = true) : runLcResume d c =
    if d.lc.resumable = false then finish d c.rid ST.lcIllegal else
      match firstFail (resumeChecks d c) with
      | some st => finish d c.rid st
      | none => beginTransition d c.rid (byteAt c.params 0) (writesFor d (byteAt c.params 0)) := by
  have hpolicy : policyBad c = false := by rw [policyBad, hpol]; rfl
  unfold runLcResume
  dsimp only
  rw [hpolicy, hwho, List.append_assoc]
  cases d.lc.resumable <;> rfl

theorem moveChecks_pass {d : Dev} {t : Byte} {k : Nat} (hmove : legalMove d.lc.state t = true) (hjob : d.lc.job = none) (hstall : anyStall d = false) (hrsv : d.glb.rsvOk = true) (hslot : blankSlot d = some k)
    (h3 : d.dbg.rights.getLsbD 3 = false) (h4 : d.dbg.rights.getLsbD 4 = false) (howner : needsCustodians d.lc.state t = false ∨ ∃ w, ownerOf d 0 = some w ∧ (d.lc.state = 2 → 2 ≤ w.m)) : firstFail (moveChecks d t) = none := by
  have hcust : (needsCustodians d.lc.state t && (ownerOf d 0).isNone) = false ∧ (d.lc.state == 2 && t == 3 && (match ownerOf d 0 with | some w => decide (w.m < 2) | none => false)) = false := by
    rcases howner with hno | ⟨w, hw, hm⟩
    · refine ⟨by rw [hno, Bool.false_and], ?_⟩
      have hboth : (d.lc.state == 2 && t == 3) = false := by
        simp only [needsCustodians, Bool.or_eq_false_iff] at hno
        exact hno.1
      rw [hboth, Bool.false_and]
    · rw [hw]
      refine ⟨by simp, ?_⟩
      by_cases h2 : d.lc.state = 2
      · dsimp only
        rw [decide_eq_false (Nat.not_lt.mpr (hm h2)), Bool.and_false]
      · rw [beq_eq_false_iff_ne.mpr h2, Bool.false_and, Bool.false_and]
  refine firstFail_none fun x hx => ?_
  simp only [moveChecks, List.mem_cons, List.not_mem_nil, or_false] at hx
  rcases hx with rfl | rfl | rfl | rfl | rfl
  · simp [hmove]
  · simp [hjob, hstall, hrsv, hslot]
  · dsimp only
    rw [h3, h4, Bool.or_self]
  · exact hcust.1
  · exact hcust.2

/-! ### The words of a transition -/

theorem program_lc (d : Dev) (w : OtpWrite) : (program d w).lc = d.lc := by
  cases w <;> rfl

theorem programPartly_lc (d : Dev) (w : OtpWrite) : (programPartly d w).lc = d.lc := by
  cases w <;> rfl

/-- Settles O15: a transition that may be made begins with its words and a record, and writes them in order. -/
theorem lifeCycleTransitionsRun : Obligations.LifeCycleTransitionsRun := by
  refine ⟨fun r s t k hrun hissuer hkey howner hp hjob hfail hfull => ?commands, fun s j w rest hjob hstarted hwrites => ?words⟩
  case commands =>
    have hlog : ∀ op, firstFail (logGate (took s op r)) = none := fun op => logGate_open hfail hfull
    have hbyte : ∀ op, byteAt (asCmd s op r).params 0 = t := fun op => byteAt_asCmd hp
    have hpass : legalMove s.lc.state t = true → firstFail (moveChecks s.toDev t) = none → exec (.lcTransition r) s = .next (on s (passedMove (took s 0x0802 r) (asCmd s 0x0802 r) t)) := fun hmove hcheck => by
      have hrow : exec (.lcTransition r) s = .next (on s (runLcTransition (took s 0x0802 r) (asCmd s 0x0802 r))) := onDev_command_run hrun _ _
      have hlock : s.lc.state ≠ 0xEE := fun h => by
        rw [h] at hmove
        exact Bool.noConfusion (hmove.symm.trans rfl)
      have hpre : firstFail (preChecks (took s 0x0802 r) (asCmd s 0x0802 r) whoP (stateU (took s 0x0802 r)) (parse (asCmd s 0x0802 r) 4 [(1, 3)]) (noKeyOwner (asCmd s 0x0802 r)) 0) = none :=
        preChecks_took (listedP hissuer) (stateU_took hlock) (.inr (by simp [tableBarred])) (parse_byte hp) (noKeyOwner_asCmd hkey howner) (Nat.zero_le _)
      have hmoves : firstFail (moveChecks (took s 0x0802 r) t) = none := hcheck
      rw [hrow, runLcTransition_eq, hbyte, firstFail_append_none (firstFail_append_none hpre hmoves) (hlog _)]
    refine ⟨fun hmove hcust hstall hrsv hslot h3 h4 => ?_, fun w d hmove hcust hstall hrsv hslot h3 h4 hw hm hgate => ?_, fun hres ht => ?_, fun hres => ?_⟩
    · have hslot' : blankSlot (took s 0x0802 r) = some k := hslot
      have hcust' : needsCustodians (took s 0x0802 r).lc.state t = false := hcust
      rw [hpass hmove (moveChecks_pass (d := s.toDev) hmove hjob hstall hrsv hslot h3 h4 (.inl hcust)), passedMove, quorumIf, hcust', if_neg Bool.false_ne_true]
      dsimp only
      rw [hslot']
      exact congrArg (fun d => Host.Outcome.next (on s d)) (beginTransition_eq (d := s.toDev) (e := took s 0x0802 r) rfl ..)
    · obtain ⟨x, hx⟩ := quorumGate_opened hgate
      have hslot' : blankSlot d = some k := by rw [hx]; exact hslot
      have hcust' : needsCustodians (took s 0x0802 r).lc.state t = true := hcust
      have hwrites : writesFor d t = writesFor s.toDev t := by rw [hx]; rfl
      rw [hpass hmove (moveChecks_pass (d := s.toDev) hmove hjob hstall hrsv hslot h3 h4 (.inr ⟨w, hw, hm⟩)), passedMove, quorumIf, hcust', if_pos rfl, hgate]
      dsimp only
      rw [hslot']
      dsimp only
      rw [hwrites]
      exact congrArg (fun d => Host.Outcome.next (on s d)) (beginTransition_eq (d := s.toDev) (e := d) (by rw [hx]; rfl) ..)
    · have hrow : exec (.lcResume r) s = .next (on s (runLcResume (took s 0x0803 r) (asCmd s 0x0803 r))) := onDev_command_run hrun _ _
      have hchecks : firstFail (resumeChecks (took s 0x0803 r) (asCmd s 0x0803 r)) = none := by
        refine firstFail_append_none (preChecks_took (listedP hissuer) rfl (.inr (by simp [tableBarred])) (parse_byte hp) (noKeyOwner_asCmd hkey howner) (Nat.zero_le _)) (firstFail_append_none ?_ (hlog _))
        have htarget : (took s 0x0803 r).lc.target = t := ht.symm
        have hnone : (took s 0x0803 r).lc.job = none := hjob
        rw [hbyte, htarget, hnone]
        simp
      rw [hrow, runLcResume_listed rfl (listedP hissuer), if_neg (by rw [show (took s 0x0803 r).lc.resumable = true from hres]; decide), hchecks, hbyte]
      exact congrArg (fun d => Host.Outcome.next (on s d)) (beginTransition_eq (d := s.toDev) (e := took s 0x0803 r) rfl ..)
    · have hrow : exec (.lcResume r) s = .next (on s (runLcResume (took s 0x0803 r) (asCmd s 0x0803 r))) := onDev_command_run hrun _ _
      rw [hrow, runLcResume_listed rfl (listedP hissuer), if_pos (show (took s 0x0803 r).lc.resumable = false from hres)]
      rfl
  case words =>
    have hrow : ∀ ok, exec (.otpWordWriteDone ok) s = .next (on s (
        if ok then advance (program s.toDev w) { j with writes := rest }
        else if j.retries < 3 then { programPartly s.toDev w with lc := { (programPartly s.toDev w).lc with job := some { j with retries := j.retries + 1 } } }
        else endTransition (programPartly s.toDev w) j true)) := fun ok => by
      have hexec : exec (.otpWordWriteDone ok) s = .next (on s (otpWordDone s.toDev ok)) := rfl
      rw [hexec, otpWordDone, show s.toDev.lc.job = some j from hjob]
      dsimp only
      rw [hstarted, hwrites]
    refine ⟨fun x l hnext => ?_, fun hnext => ?_, fun hr => ?_, fun hr => ?_⟩
    · rw [hrow, if_pos rfl, advance]
      dsimp only
      rw [hnext, program_lc]
    · rw [hrow, if_pos rfl, advance]
      dsimp only
      rw [hnext]
    · rw [hrow, if_neg Bool.false_ne_true, if_pos hr, programPartly_lc]
    · rw [hrow, if_neg Bool.false_ne_true, if_neg (Nat.not_lt.mpr hr)]

end Sys2Proof.Machine
end

section
/-! Boot Witness commands. -/

namespace Sys2Proof.Machine

open Sys2Proof.Safety

section
variable {s : State} {op : Nat} {r : Request}

/-- A byte of at most 1 is 0 or 1. -/
theorem byte_le_one {b : Byte} (h : b.toNat ≤ 1) : b = 0 ∨ b = 1 := by
  rcases Nat.le_one_iff_eq_zero_or_eq_one.mp h with h | h
  · exact .inl (BitVec.eq_of_toNat_eq h)
  · exact .inr (BitVec.eq_of_toNat_eq h)

theorem bound_pf (d : Dev) : bound d .pf 0 = true := rfl

theorem useQuorum_none {d : Dev} {c : Cmd} {h : Word} {k : LiveKey} (hf : keyFor d c h = some k) (hq : k.usage.getLsbD uQuorum = false) : useQuorum d c h = none := by
  simp only [useQuorum, hf, hq, Bool.false_eq_true, if_false]

/-- The parameters of a command that carries one field behind its length. -/
theorem parse_counted {m : Bytes} (hp : r.params = leBytes 4 m.length ++ m) : parse (asCmd s op r) 4 [] [(m.length, false)] = none := by
  have hlen : (asCmd s op r).params.length = 4 + m.length := by
    rw [(asCmd_fields s op r).2.2.2.2.2.1, hp]
    simp
  rw [parse_variable (by omega) (by simp), hlen, Nat.add_sub_cancel_left]
  exact parseVars_one _

/-- What a manifest does once its command's checks pass. -/
def manifestLoaded (d : Dev) (m : Bytes) (k : LiveKey) : Dev × Half × Bytes :=
  let d := touchKey d k.ref
  if !manifestOk d m (Config.pkPublic 0x21 96 k.bytes []) then (d, ST.manifestBad, []) else
  let d := programZone { d with bwt := { d.bwt with stored := some (parseManifest m) } } 0x40000 m
  (if strict d && d.bwt.man.isNone then forceManifest d (some (parseManifest m)) else d, ST.ok, [])

theorem runBwLoadManifest_pass {d : Dev} {c : Cmd} {m : Bytes} {k : LiveKey} (hl : pWord c 0 = m.length) (hm : pVar c 4 m.length = m)
    (hchecks : firstFail (preChecks d c whoP (stateU d) (parse c 4 [] [(m.length, false)]) true 0 ++ keyChecks d c c.key (· == 0x21) (some uVerify)) = none)
    (hk : keyFor d c c.key = some k) (hq : k.usage.getLsbD uQuorum = false) (hrng : drbgReady d = true) (hmask : maskBad c = false) :
    runBwLoadManifest d c = finish (manifestLoaded d m k).1 c.rid (manifestLoaded d m k).2.1 (manifestLoaded d m k).2.2 := by
  have hres : rngCheck d = (false, ST.rngFail) := by rw [rngCheck, hrng]; rfl
  simp only [runBwLoadManifest, hl, hm, useQuorum_none hk hq]
  rw [runAtomic_pass hchecks hmask (by rw [hres]; rfl) (claimResult_zero ..)]
  simp only [hk, manifestLoaded]

/-- The journal a command asks for. -/
def journalOf (d : Dev) (c : Cmd) : Bytes := (if pByte c 0 = 0 then d.bwt.current else d.bwt.previous).getD []

theorem runBwGetJournal_pass {d e : Dev} {c : Cmd} (hchecks : firstFail (preChecks d c whoPVM (stateU d) (parse c 4 [(1, 3)]) (noKeyOwner c && decide (pByte c 0 ≤ 1)) 16384) = none) (hmask : maskBad c = false)
    (hcl : claimResult d c (journalOf d c).length = some e) : runBwGetJournal d c = finish e c.rid ST.ok (journalOf e c) :=
  runAtomic_pass (resources := fun _ => []) (body := fun d => (d, ST.ok, journalOf d c)) hchecks hmask rfl hcl

end

/-- Settles O17: a manifest is stored only when it checks, a seal closes the open journal, and a journal is read back. -/
theorem bootWitnessCommandsAct : Obligations.BootWitnessCommandsAct := by
  intro r s d hrun hlock
  refine ⟨fun m k hissuer hm hp howner ho hown hf hko hkt hku hkq htable hmask hrng => ?manifest, fun co hi hkey howner hp hco hstate habsent hopen hfail hfull hserve hcap hcl => ?sealed, fun which hi hkey howner hp hw hcap hcl => ?journal⟩
  case manifest =>
    have hrow : exec (.bwLoadManifest r) s = .next (on s (runBwLoadManifest (took s 0x0601 r) (asCmd s 0x0601 r))) := onDev_command_run hrun _ _
    have hkey : keyFor (took s 0x0601 r) (asCmd s 0x0601 r) (asCmd s 0x0601 r).key = some k := by
      rw [keyFor_pv (.inl hissuer), findKey_congr (d := s.toDev) (d' := took s 0x0601 r) rfl]
      exact hf
    have hchecks : firstFail (preChecks (took s 0x0601 r) (asCmd s 0x0601 r) whoP (stateU (took s 0x0601 r)) (parse (asCmd s 0x0601 r) 4 [] [(m.length, false)]) true 0 ++
        keyChecks (took s 0x0601 r) (asCmd s 0x0601 r) (asCmd s 0x0601 r).key (· == 0x21) (some uVerify)) = none := by
      refine firstFail_append_none (preChecks_took (listedP hissuer) (stateU_took hlock) (.inl htable) (parse_counted hp) rfl (Nat.zero_le _)) ?_
      have hzero : (asCmd s 0x0601 r).owner.toNat = 0 := congrArg BitVec.toNat howner
      refine keyChecks_pass (k := k) (.inl hissuer) ?_ ?_ ?_ ?_ ?_ ?_ ?_
      · rw [hzero]
        exact ho
      · rw [show (asCmd s 0x0601 r).issuer = .pf from hissuer, hzero, bound_pf]
      · rw [hzero]
        exact hown
      · rw [findKey_congr (d := s.toDev) (d' := took s 0x0601 r) rfl]
        exact hf
      · rw [hzero, hko]
        rfl
      · rw [hkt]
        rfl
      · intro x hx
        cases hx
        exact hku
    rw [hrow, runBwLoadManifest_pass (pWord_asCmd (a := []) (l := m) hp rfl hm) (slice_field (l := []) (a := leBytes 4 m.length) (by rw [(asCmd_fields s _ r).2.2.2.2.2.1, hp, List.append_nil]) (length_leBytes ..) rfl) hchecks hkey hkq hrng
      (by rw [maskBad, (asCmd_fields s _ r).2.2.2.2.2.2.2.1, hmask, Bool.false_and])]
    simp only [manifestLoaded]
    cases manifestOk (touchKey (took s 0x0601 r) k.ref) m (Config.pkPublic 0x21 96 k.bytes []) <;> rfl
  case sealed =>
    have hrow : exec (.bwSeal r) s = .next (on s (runBwSeal (took s 0x0602 r) (asCmd s 0x0602 r))) := onDev_command_run hrun _ _
    have hbyte : byteAt (asCmd s 0x0602 r).params 0 = co := byteAt_asCmd hp
    have hchecks : firstFail (preChecks (took s 0x0602 r) (asCmd s 0x0602 r) whoPM (stateR (took s 0x0602 r)) (parse (asCmd s 0x0602 r) 4 [(1, 3)]) (noKeyOwner (asCmd s 0x0602 r) && decide (pByte (asCmd s 0x0602 r) 0 ≤ 1)) 48 ++
        [(absent (took s 0x0602 r) || !(took s 0x0602 r).bwt.journal.opened, ST.sealed)] ++ logGate (took s 0x0602 r) ++ [(!canServe (took s 0x0602 r) false true, ST.busy)]) = none := by
      refine firstFail_append_none (firstFail_append_none (firstFail_append_none (preChecks_took (listedPM hi) hstate (.inr (by simp [tableBarred])) (parse_byte hp) ?_ hcap) ?_) (logGate_open hfail hfull)) ?_
      · rw [noKeyOwner_asCmd hkey howner, pByte, hbyte]
        simpa using hco
      · rw [show absent (took s 0x0602 r) = false from habsent, show (took s 0x0602 r).bwt.journal.opened = true from hopen]
        rfl
      · rw [show canServe (took s 0x0602 r) false true = true from hserve]
        rfl
    have htrigger : (match (asCmd s 0x0602 r).issuer with | .mgt => (2 : Byte) | _ => 1) = if r.issuer = .mgt then 2 else 1 := by
      change (match r.issuer with | .mgt => (2 : Byte) | _ => 1) = _
      rcases hi with hi | hi <;> rw [hi] <;> rfl
    have hcosign : co.getLsbD 0 = (co == 1) := by rcases byte_le_one hco with rfl | rfl <;> rfl
    have hcl : claimResult (took s 0x0602 r) (asCmd s 0x0602 r) 48 = some d := hcl
    simp only [hrow, runBwSeal, hchecks, hcl, hbyte, hcosign]
    exact congrArg (fun b => Host.Outcome.next (on s (sealNow d (some s.nextRid) b (co == 1)))) htrigger
  case journal =>
    have hrow : exec (.bwGetJournal r) s = .next (on s (runBwGetJournal (took s 0x0603 r) (asCmd s 0x0603 r))) := onDev_command_run hrun _ _
    have hwhich : pByte (asCmd s 0x0603 r) 0 = 0 ↔ which = 0 := by
      rw [pByte, byteAt_asCmd hp]
      exact toNat_eq_zero
    have hchecks : firstFail (preChecks (took s 0x0603 r) (asCmd s 0x0603 r) whoPVM (stateU (took s 0x0603 r)) (parse (asCmd s 0x0603 r) 4 [(1, 3)]) (noKeyOwner (asCmd s 0x0603 r) && decide (pByte (asCmd s 0x0603 r) 0 ≤ 1)) 16384) = none := by
      refine preChecks_took (listedPVM hi) (stateU_took hlock) (.inr (by simp [tableBarred])) (parse_byte hp) ?_ hcap
      rw [noKeyOwner_asCmd hkey howner, pByte, byteAt_asCmd hp]
      simpa using hw
    obtain ⟨_, _, _, _, hd⟩ := claimResult_frame hcl
    have hbwt : d.bwt = s.bwt := by rw [hd]; rfl
    have hread := runBwGetJournal_pass hchecks (maskBad_of (by simp [readsKey])) (by simp only [journalOf, hwhich]; exact hcl)
    rw [hrow, hread]
    simp only [journalOf, hwhich, hbwt] <;> rfl

end Sys2Proof.Machine
end

section
/-! Krovlo commands: replication of a key, and the configuration. -/

namespace Sys2Proof.Machine

open Sys2Proof.Safety

section
variable {s : State} {op : Nat} {r : Request} {d e : Dev} {c : Cmd} {k : LiveKey}

theorem quad_b8 {x : Quad} : quad (b8 x) 0 = x := by
  have hval : leAt (b8 x) 0 8 = x.toNat := leAt_field (a := []) (l := []) (by rw [List.append_nil]; rfl) rfl x.isLt
  rw [quad, hval, BitVec.ofNat_toNat, BitVec.setWidth_eq]

/-- The key a request opens passes the checks of its command. -/
theorem keyChecks_opened {t : Byte → Bool} {u : Option Nat} (h : opensKey s r k) (ht : t k.type = true) (hu : ∀ x, u = some x → k.usage.getLsbD x = true) :
    firstFail (keyChecks (took s op r) (asCmd s op r) r.key t u) = none := by
  obtain ⟨-, hi, -, -, howner, hbound, hh, hf, hko⟩ := h
  exact keyChecks_pass hi howner hbound hh hf hko ht hu

theorem keyFor_opened (h : opensKey s r k) : keyFor (took s op r) (asCmd s op r) r.key = some k := by
  obtain ⟨-, hi, -, -, -, -, -, hf, -⟩ := h
  rw [keyFor_pv hi]
  exact hf

/-- The checks of CHN_REPLICATE. -/
def replicateChecks (d : Dev) (c : Cmd) : List (Bool × Half) :=
  keyPre d c (parse c 0) true 2 ++ keyChecks d c c.key (fun _ => true) none ++ [(!(match keyFor d c c.key with | some k => k.usage.getLsbD uReplicate && !hAon c.key | none => true), ST.param)] ++ replChecks d

theorem runChnReplicate_pass {w : Owner} (hchecks : firstFail (replicateChecks d c) = none) (hk : keyFor d c c.key = some k) (hq : k.usage.getLsbD uQuorum = false) (hrng : drbgReady d = true)
    (hcl : claimResult d c 2 = some e) (hw : ownerOf d c.owner.toNat = some w) (hmask : maskBad c = false) :
    runChnReplicate d c = match sendReplicas (markReplicated (touchKey e k.ref) k.ref) c.rid k c.key w.mode (replPeers e) with
      | none => finish e c.rid ST.frameLong
      | some d => setChn d { d.chn with replicates := d.chn.replicates ++ [{ rid := c.rid, handle := c.key, since := d.now }] } := by
  have hlist : firstFail (keyPre d c (parse c 0) true 2 ++ keyChecks d c c.key (fun _ => true) none ++ [(!(match keyFor d c c.key with | some k => k.usage.getLsbD uReplicate && !hAon c.key | none => true), ST.param)] ++ replChecks d) = none := hchecks
  rw [hk] at hlist
  simp only [runChnReplicate, hk, useQuorum_none hk hq, hlist, hrng, hcl, hw, hmask, Bool.not_true, Bool.false_eq_true, if_false] <;> rfl

/-- The unit CHN_ADMIT names. -/
def admitId (d : Dev) (a : Nat) : Option Bytes := if d.chn.addrValid && a = d.chn.addr then some Config.deviceId else (tget d.chn.view a).map (·.body.devId)

theorem runChnAdmit_pass {id : Bytes} (hchecks : firstFail (preChecks d c whoP (stateU d) (parse c 4 [(1, 3)]) (noKeyOwner c && decide (pByte c 0 < 16)) 0 ++ replChecks d) = none)
    (hid : admitId d (pByte c 0) = some id) (hf : fielded d = false) :
    runChnAdmit d c = newConfig d c.rid (BitVec.ofNat 64 (selfEpochMax d + 1)) (if (admittedOf d).contains id then admittedOf d else admittedOf d ++ [id]) := by
  have hrow : runChnAdmit d c = match firstFail (preChecks d c whoP (stateU d) (parse c 4 [(1, 3)]) (noKeyOwner c && decide (pByte c 0 < 16)) 0 ++ replChecks d ++ [((admitId d (pByte c 0)).isNone, ST.param)]) with
      | some st => finish d c.rid st
      | none => match quorumIf (fielded d) d c 0 with
        | (d', some st) => finish d' c.rid st
        | (d', none) => newConfig d' c.rid (BitVec.ofNat 64 (selfEpochMax d' + 1)) (if (admittedOf d').contains ((admitId d (pByte c 0)).getD []) then admittedOf d' else admittedOf d' ++ [(admitId d (pByte c 0)).getD []]) := rfl
  rw [hrow, hid, firstFail_append_none hchecks rfl, hf]
  rfl

theorem runChnSetEpoch_pass {x : Quad} (hx : quad c.params 0 = x) (hchecks : firstFail (preChecks d c whoP (stateU d) (parse c 8) (noKeyOwner c && decide (d.chn.epoch.toNat < x.toNat)) 0 ++ replChecks d) = none)
    (hf : fielded d = false) : runChnSetEpoch d c = newConfig d c.rid x (admittedOf d) := by
  simp only [runChnSetEpoch, hx, hchecks, hf] <;> rfl

end

/-- Settles O18: a key goes to the units in replication, and the configuration takes a higher epoch. -/
theorem krovloCommandsAct : Obligations.KrovloCommandsAct := by
  intro r s hrun hrepl
  refine ⟨fun k w d e hopen hmask hp hcap haon hur huq hrng hw hcl hsend => ?replicate, fun a id hissuer hkey howner hlock hfield hp hid => ?joined, fun x hissuer hkey howner hlock hfield hp hx => ?epoch⟩
  case replicate =>
    have hrow : exec (.chnReplicate r) s = .next (on s (runChnReplicate (took s 0x0702 r) (asCmd s 0x0702 r))) := onDev_command_run hrun _ _
    have hk : keyFor (took s 0x0702 r) (asCmd s 0x0702 r) r.key = some k := keyFor_opened hopen
    have hkeys := keyChecks_opened (op := 0x0702) (t := fun _ => true) (u := none) hopen rfl fun x hx => by cases hx
    obtain ⟨-, hi, hstate, htable, -, -, -, -, -⟩ := hopen
    have hchecks : firstFail (replicateChecks (took s 0x0702 r) (asCmd s 0x0702 r)) = none := by
      refine firstFail_append_none (firstFail_append_none (firstFail_append_none (preChecks_took (listedPV hi) hstate (.inl htable) (parse_none hp) rfl hcap) hkeys) ?_) hrepl
      rw [(asCmd_fields s _ r).2.2.2.1, hk]
      simp [hur, haon]
    have hwe : ownerOf (took s 0x0702 r) (asCmd s 0x0702 r).owner.toNat = some w := hw
    have hpass := runChnReplicate_pass (w := w) hchecks hk huq hrng hcl hwe (by rw [maskBad, (asCmd_fields s _ r).2.2.2.2.2.2.2.1, hmask, Bool.false_and])
    have hsend' : sendReplicas (markReplicated (touchKey d k.ref) k.ref) (asCmd s 0x0702 r).rid k (asCmd s 0x0702 r).key w.mode (replPeers d) = some e := hsend
    rw [hrow, hpass, hsend']
    rfl
  case joined =>
    have hrow : exec (.chnAdmit r) s = .next (on s (runChnAdmit (took s 0x0703 r) (asCmd s 0x0703 r))) := onDev_command_run hrun _ _
    have ha : pByte (asCmd s 0x0703 r) 0 = a.val := pByte_index (by omega) hp
    have hid' : admitId (took s 0x0703 r) (pByte (asCmd s 0x0703 r) 0) = some id := by
      rw [ha, ← hid, admitId]
      simp only [Bool.and_eq_true, decide_eq_true_eq] <;> rfl
    have hfielded : fielded (took s 0x0703 r) = false := beq_eq_false_iff_ne.mpr hfield
    rw [hrow, runChnAdmit_pass (firstFail_append_none (preChecks_took (listedP hissuer) (stateU_took hlock) (.inr (by simp [tableBarred])) (parse_byte hp) ?_ (Nat.zero_le _)) hrepl) hid' hfielded]
    · rfl
    · rw [noKeyOwner_asCmd hkey howner, ha]
      simp
  case epoch =>
    have hrow : exec (.chnSetEpoch r) s = .next (on s (runChnSetEpoch (took s 0x0704 r) (asCmd s 0x0704 r))) := onDev_command_run hrun _ _
    have hquad : quad (asCmd s 0x0704 r).params 0 = x := by
      rw [(asCmd_fields s _ r).2.2.2.2.2.1, hp]
      exact quad_b8
    have hfielded : fielded (took s 0x0704 r) = false := beq_eq_false_iff_ne.mpr hfield
    rw [hrow, runChnSetEpoch_pass hquad (firstFail_append_none (preChecks_took (listedP hissuer) (stateU_took hlock) (.inr (by simp [tableBarred])) (parse_asCmd (by rw [hp]; exact length_leBytes ..)) ?_ (Nat.zero_le _)) hrepl) hfielded]
    · rfl
    · rw [noKeyOwner_asCmd hkey howner, Bool.true_and]
      exact decide_eq_true hx

end Sys2Proof.Machine
end

section
/-! Service commands: engine channels, firmware staging and activation, self tests. -/

namespace Sys2Proof.Machine

open Sys2Proof.Safety

/-! ### What each command does when its checks pass -/

section
variable {d e : Dev} {c : Cmd} {n : Nat}

/-- The checks PKE_SET_CHANNEL makes before those of its engine. -/
def channelChecks (d : Dev) (c : Cmd) : List (Bool × Half) :=
  preChecks d c whoP (stateU d) (parse c 4 [(2, 2)]) (noKeyOwner c && decide (pByte c 0 < 4) && decide (pByte c 1 ≤ 1)) 0

theorem runPkeSetChannel_eq (d : Dev) (c : Cmd) : runPkeSetChannel d c =
    runAtomic d c (channelChecks d c ++ [(engSecure d (pByte c 0), ST.denied), ((eng d (pByte c 0)).op.isSome || (eng d (pByte c 0)).aborting, ST.busy)]) none (fun _ => []) 0
      fun d => (sweepWaiting (setEng (clearEngine d (pByte c 0)) (pByte c 0) { eng (clearEngine d (pByte c 0)) (pByte c 0) with mac := pByte c 1 == 1 }), ST.ok, []) := rfl

theorem runPkeSetChannel_denied (hpre : firstFail (channelChecks d c) = none) (hsec : engSecure d (pByte c 0) = true) : runPkeSetChannel d c = finish d c.rid ST.denied := by
  rw [runPkeSetChannel_eq, hsec, runAtomic_fail (st := ST.denied)]
  rw [firstFail_append, hpre]
  rfl

theorem runPkeSetChannel_pass (hpre : firstFail (channelChecks d c) = none) (hn : pByte c 0 = n) (hsec : engSecure d n = false) (hop : (eng d n).op = none) (hab : (eng d n).aborting = false) (hmask : maskBad c = false) :
    runPkeSetChannel d c = finish (sweepWaiting (setEng d n { eng d n with mem := [], acc := 0, mac := pByte c 1 == 1 })) c.rid ST.ok := by
  rw [runPkeSetChannel_eq, hn, hsec, hop, hab, runAtomic_pass (firstFail_append_none hpre rfl) hmask rfl (claimResult_zero ..)]
  simp only [clearEngine, eng_setEng, setEng_setEng]

/-- What FW_STAGE does with its chunk. -/
def stageChunk (d : Dev) (off total l : Nat) (chunk : Bytes) : Dev × Half × Bytes :=
  let old := if d.ps.stageOk then none else d.ps.stage
  let (have_, tot) := match old with | some s => s | none => ([], total)
  if off != have_.length || tot != total || decide (total < off + l) then ({ d with ps := { d.ps with stage := none, stageOk := false } }, ST.param, [])
  else
    let img := have_ ++ chunk
    let slot := 1 - d.ps.fwActive
    let d := programZone { d with ps := { d.ps with stage := some (img, total), stageOk := false, fwSlot := tset d.ps.fwSlot slot img } } (0x100000 + 0x200000 * slot + off) chunk
    if !(off + l == total) then (d, ST.ok, [])
    else if Config.fwSigValid img then ({ d with ps := { d.ps with stageOk := true } }, ST.ok, Config.sha384 img)
    else ({ d with ps := { d.ps with stage := none } }, ST.verifyFail, [])

/-- The part of the result buffer FW_STAGE takes: the digest of a whole image. -/
def stageRes (off total l : Nat) : Nat := if off + l == total then 48 else 0

theorem runFwStage_eq {off total : Nat} {x : Bytes} (h0 : pWord c 0 = off) (h4 : pWord c 4 = total) (h8 : pWord c 8 = x.length) (hx : pVar c 12 x.length = x) : runFwStage d c =
    runAtomic d c (preChecks d c whoP (stateU d) (parse c 12 [] [(x.length, false)]) (noKeyOwner c && decide (total ≤ 2097152)) (stageRes off total x.length)) none (fun _ => []) (stageRes off total x.length)
      fun d => stageChunk d off total x.length x := by
  unfold runFwStage
  dsimp only
  rw [h0, h4, h8, hx]
  rfl

theorem stageChunk_begins {total : Nat} {x : Bytes} (hok : d.ps.stageOk = false) (hs : d.ps.stage = none) (hl : x.length < total) : stageChunk d 0 total x.length x =
    (programZone { d with ps := { d.ps with stage := some (x, total), stageOk := false, fwSlot := tset d.ps.fwSlot (1 - d.ps.fwActive) x } } (0x100000 + 0x200000 * (1 - d.ps.fwActive)) x, ST.ok, []) := by
  have hmore : (0 + x.length == total) = false := by
    rw [Nat.zero_add]
    exact beq_eq_false_iff_ne.mpr (Nat.ne_of_lt hl)
  have hfits : decide (total < 0 + x.length) = false := decide_eq_false (by omega)
  simp only [stageChunk, hok, hs, Bool.false_eq_true, if_false, hmore, hfits, List.length_nil, bne_self_eq_false, Bool.or_self, List.nil_append, Bool.not_false, if_true, Nat.add_zero]

theorem stageChunk_ends {a x : Bytes} {total : Nat} (hok : d.ps.stageOk = false) (hs : d.ps.stage = some (a, total)) (hl : a.length + x.length = total) : stageChunk d a.length total x.length x =
    (let d := programZone { d with ps := { d.ps with stage := some (a ++ x, total), stageOk := false, fwSlot := tset d.ps.fwSlot (1 - d.ps.fwActive) (a ++ x) } } (0x100000 + 0x200000 * (1 - d.ps.fwActive) + a.length) x
     if Config.fwSigValid (a ++ x) then ({ d with ps := { d.ps with stageOk := true } }, ST.ok, Config.sha384 (a ++ x)) else ({ d with ps := { d.ps with stage := none } }, ST.verifyFail, [])) := by
  have hlast : (a.length + x.length == total) = true := beq_iff_eq.mpr hl
  have hfits : decide (total < a.length + x.length) = false := decide_eq_false (by omega)
  simp only [stageChunk, hok, hs, Bool.false_eq_true, if_false, hlast, hfits, bne_self_eq_false, Bool.or_self, Bool.not_true]

theorem runFwActivate_pass {x : Bytes} {n : Nat} (hok : d.ps.stageOk = true) (hs : d.ps.stage = some (x, n)) (hp : c.params = Config.sha384 x)
    (hchecks : firstFail (preChecks d c whoP (stateU d) (parse c 48) (noKeyOwner c && true) 0) = none) (hf : fielded d = false) (hmask : maskBad c = false) :
    runFwActivate d c = finish { d with ps := { d.ps with fwPending := true } } c.rid ST.ok := by
  have hgood : (d.ps.stageOk && (match d.ps.stage with | some s => Config.sha384 s.1 == c.params | none => false)) = true := by
    rw [hok, hs, hp]
    simp
  have hrow : runFwActivate d c = runAtomic d c (preChecks d c whoP (stateU d) (parse c 48) (noKeyOwner c && (d.ps.stageOk && (match d.ps.stage with | some s => Config.sha384 s.1 == c.params | none => false))) 0)
      (if fielded d then some 0 else none) (fun _ => []) 0 fun d => ({ d with ps := { d.ps with fwPending := true } }, ST.ok, []) := rfl
  rw [hrow, hgood, hf, if_neg Bool.false_ne_true, runAtomic_pass hchecks hmask rfl (claimResult_zero ..)]

/-- The checks of SELF_TEST. -/
def testChecks (d : Dev) (c : Cmd) : List (Bool × Half) := preChecks d c whoP (stateU d) (parse c 4 [(1, 3)]) (noKeyOwner c && decide (pByte c 0 ≤ 5)) 4

/-- What the test of the lanes and that of the DRBG do. -/
def testInPlace (d : Dev) (t failed : Nat) : Dev × Half × Bytes :=
  if t = 4 then
    let bad := BitVec.ofNat 12 failed
    let d := { d with sym := { d.sym with laneOos := bad } }
    if bad = 0 then (pumpLanes d, ST.ok, zeros 4)
    else (logRec d (recCrit "SYM" ST.engineFault [bad.setWidth 32]), ST.engineFault, [])
  else if d.sym.rngPerm then (d, ST.rngFail, [])
  else if failed = 0 then (instantiate d, ST.ok, zeros 4)
  else (rngFail d .startup, ST.rngFail, [])

theorem runSelfTest_engine {f : Nat} (hn : pByte c 0 = n) (h3 : n ≤ 3) (hchecks : firstFail (testChecks d c) = none) (hfree : ((eng d n).clk == 3 || inTransit d (18 + n) || engSecure d n) = false) (hcl : claimResult d c 4 = some e) :
    runSelfTest d c f = { e with pkeWait := e.pkeWait ++ [.secure { rid := some c.rid, issuer := .pf, kind := .selfTest f, alg := 0, engine := some n }] } := by
  have hall : firstFail (testChecks d c ++ [((eng d n).clk == 3 || inTransit d (18 + n) || engSecure d n, ST.busy)]) = none := by
    rw [hfree]
    exact firstFail_append_none hchecks rfl
  rw [testChecks, hn] at hall
  unfold runSelfTest
  dsimp only
  rw [hn, if_pos h3, hall, hcl]

theorem runSelfTest_inPlace {f : Nat} (hn : pByte c 0 = n) (h3 : 3 < n) (hchecks : firstFail (testChecks d c) = none) (hmask : maskBad c = false) (hcl : claimResult d c 4 = some e) :
    runSelfTest d c f = finish (testInPlace e n f).1 c.rid (testInPlace e n f).2.1 (testInPlace e n f).2.2 := by
  have hrow : runSelfTest d c f = runAtomic d c (testChecks d c) none (fun _ => []) 4 fun d => testInPlace d n f := by
    unfold runSelfTest testChecks
    dsimp only
    rw [hn, if_neg (Nat.not_le.mpr h3)]
    rfl
  rw [hrow, runAtomic_pass hchecks hmask rfl hcl]

end

/-! ### The parameters of FW_STAGE -/

section
variable {s : State} {r : Request} {off total : Nat} {x : Bytes} (hp : r.params = leBytes 4 off ++ leBytes 4 total ++ leBytes 4 x.length ++ x)
include hp

theorem stage_offset (h : off < 2 ^ 32) : pWord (asCmd s 0x0F03 r) 0 = off :=
  pWord_asCmd (a := []) (l := leBytes 4 total ++ leBytes 4 x.length ++ x) (by rw [hp]; simp only [List.append_assoc, List.nil_append]) rfl h

theorem stage_total (h : total < 2 ^ 32) : pWord (asCmd s 0x0F03 r) 4 = total :=
  pWord_asCmd (a := leBytes 4 off) (l := leBytes 4 x.length ++ x) (by rw [hp]; simp only [List.append_assoc]) (length_leBytes ..) h

theorem stage_length (h : x.length < 2 ^ 32) : pWord (asCmd s 0x0F03 r) 8 = x.length :=
  pWord_asCmd (a := leBytes 4 off ++ leBytes 4 total) (l := x) (by rw [hp]; simp only [List.append_assoc]) (by simp) h

theorem stage_chunk : pVar (asCmd s 0x0F03 r) 12 x.length = x :=
  slice_field (a := leBytes 4 off ++ leBytes 4 total ++ leBytes 4 x.length) (l := []) (by rw [(asCmd_fields s _ r).2.2.2.2.2.1, hp, List.append_nil]) (by simp) rfl

theorem stage_parse : parse (asCmd s 0x0F03 r) 12 [] [(x.length, false)] = none := by
  have hlen : (asCmd s 0x0F03 r).params.length = 12 + x.length := by
    rw [(asCmd_fields s _ r).2.2.2.2.2.1, hp]
    simp only [List.length_append, length_leBytes]
  rw [parse_variable (by omega) (by simp), hlen, Nat.add_sub_cancel_left]
  exact parseVars_one _

end

theorem exec_selfTest {s : State} {r : Request} {f : TestBits} (hrun : s.glb.power = .run) : exec (.selfTest r f) s = .next (on s (runSelfTest (took s 0x0F05 r) (asCmd s 0x0F05 r) f.toNat)) := by
  have hexec : exec (.selfTest r f) s = .next (on s (command s.toDev 0x0F05 r (fun d c => runSelfTest d c f.toNat) f.toNat)) := rfl
  rw [hexec, command_run hrun]
  rfl

/-- Settles O19: channels change on idle normal engines, images are staged and activated, and tests are run or answered. -/
theorem serviceCommandsAct : Obligations.ServiceCommandsAct := by
  intro r s hrun hissuer hkey howner hlock
  have hno : ∀ op, noKeyOwner (asCmd s op r) = true := fun op => noKeyOwner_asCmd hkey howner
  have hmask : ∀ op, op / 256 = 0x0F → maskBad (asCmd s op r) = false := fun op hop => by
    refine maskBad_of ?_
    have hne : ∀ k, k / 256 ≠ 0x0F → (op == k) = false := fun k hk => beq_eq_false_iff_ne.mpr fun h => hk (h ▸ hop)
    simp only [readsKey, (asCmd_fields s op r).2.2.1, hop]
    simp [hne]
  have hpre : ∀ op {parsed values res}, op / 256 = 0x0F → parsed = none → values = true → res ≤ r.dataCap →
      firstFail (preChecks (took s op r) (asCmd s op r) whoP (stateU (took s op r)) parsed (noKeyOwner (asCmd s op r) && values) res) = none := fun op _ _ _ hop hparse hval hcap => by
    refine preChecks_took (listedP hissuer) (stateU_took hlock) (.inr ?_) hparse (by rw [hno, hval]; rfl) hcap
    have hne : ∀ k, k / 256 ≠ 0x0F → (op == k) = false := fun k hk => beq_eq_false_iff_ne.mpr fun h => hk (h ▸ hop)
    simp only [tableBarred, (asCmd_fields s op r).2.2.1, hop]
    simp [hne]
  refine ⟨fun e ch hp hsec hopn hab => ?channel, fun e ch hp hch hsec => ?secureChannel, fun x total hok hs htot hlt hp => ?stage, fun a x total d hok hs htot hlen hp hcap hcl => ?staged,
    fun x n hok hs hp hfield => ?activate, fun e f d hp hclk htr hsec hcap hcl => ?engine, fun d hp hcap hcl => ?lanes, fun d hp hperm hcap hcl => ?generator⟩
  case channel =>
    have hrow : exec (.pkeSetChannel r) s = .next (on s (runPkeSetChannel (took s 0x0F01 r) (asCmd s 0x0F01 r))) := onDev_command_run hrun _ _
    have he : pByte (asCmd s 0x0F01 r) 0 = e.val := pByte_index (by omega) hp
    have hbyte : pByte (asCmd s 0x0F01 r) 1 = if ch then 1 else 0 := by
      have hb : byteAt (asCmd s 0x0F01 r).params 1 = if ch then 1 else 0 := by
        rw [(asCmd_fields s _ r).2.2.2.2.2.1, hp]
        rfl
      rw [pByte, hb]
      cases ch <;> rfl
    have hmac : (pByte (asCmd s 0x0F01 r) 1 == 1) = ch := by
      rw [hbyte]
      cases ch <;> rfl
    have hchecks : firstFail (channelChecks (took s 0x0F01 r) (asCmd s 0x0F01 r)) = none := by
      rw [channelChecks, Bool.and_assoc]
      refine hpre 0x0F01 rfl (parse_zeros (by rw [(asCmd_fields s _ r).2.2.2.2.2.1, hp]; rfl) (by simp [hp, slice, allZero])) ?_ (Nat.zero_le _)
      rw [he, hbyte]
      cases ch <;> simp
    rw [hrow, runPkeSetChannel_pass hchecks he hsec hopn hab (hmask _ rfl), hmac]
    rfl
  case secureChannel =>
    have hrow : exec (.pkeSetChannel r) s = .next (on s (runPkeSetChannel (took s 0x0F01 r) (asCmd s 0x0F01 r))) := onDev_command_run hrun _ _
    have he : pByte (asCmd s 0x0F01 r) 0 = e.val := pByte_index (by omega) hp
    have hbyte : pByte (asCmd s 0x0F01 r) 1 = ch.toNat := by
      rw [pByte, (asCmd_fields s _ r).2.2.2.2.2.1, hp]
      rfl
    have hchecks : firstFail (channelChecks (took s 0x0F01 r) (asCmd s 0x0F01 r)) = none := by
      rw [channelChecks, Bool.and_assoc]
      refine hpre 0x0F01 rfl (parse_zeros (by rw [(asCmd_fields s _ r).2.2.2.2.2.1, hp]; rfl) (by simp [hp, slice, allZero])) ?_ (Nat.zero_le _)
      rw [he, hbyte]
      simpa using hch
    rw [hrow, runPkeSetChannel_denied hchecks (by rw [he]; exact hsec)]
    rfl
  case stage =>
    have hrow : exec (.fwStage r) s = .next (on s (runFwStage (took s 0x0F03 r) (asCmd s 0x0F03 r))) := onDev_command_run hrun _ _
    have hres : stageRes 0 total x.length = 0 := if_neg (by rw [beq_iff_eq]; omega)
    have heq := runFwStage_eq (d := took s 0x0F03 r) (c := asCmd s 0x0F03 r) (stage_offset hp (by decide)) (stage_total hp (by omega)) (stage_length hp (by omega)) (stage_chunk hp)
    have hpass := runAtomic_pass (d := took s 0x0F03 r) (c := asCmd s 0x0F03 r) (resources := fun _ => []) (res := stageRes 0 total x.length) (body := fun d => stageChunk d 0 total x.length x)
      (hpre 0x0F03 (res := stageRes 0 total x.length) rfl (stage_parse (s := s) hp) (decide_eq_true htot) (by rw [hres]; exact Nat.zero_le _)) (hmask _ rfl) rfl (by rw [hres]; exact claimResult_zero ..)
    rw [hrow, heq, hpass, stageChunk_begins (d := took s 0x0F03 r) hok hs hlt]
    rfl
  case staged =>
    have hrow : exec (.fwStage r) s = .next (on s (runFwStage (took s 0x0F03 r) (asCmd s 0x0F03 r))) := onDev_command_run hrun _ _
    have hres : stageRes a.length total x.length = 48 := if_pos (beq_iff_eq.mpr hlen)
    have heq := runFwStage_eq (d := took s 0x0F03 r) (c := asCmd s 0x0F03 r) (stage_offset hp (by omega)) (stage_total hp (by omega)) (stage_length hp (by omega)) (stage_chunk hp)
    have hpass := runAtomic_pass (d := took s 0x0F03 r) (d' := d) (c := asCmd s 0x0F03 r) (resources := fun _ => []) (res := stageRes a.length total x.length) (body := fun d => stageChunk d a.length total x.length x)
      (hpre 0x0F03 (res := stageRes a.length total x.length) rfl (stage_parse (s := s) hp) (decide_eq_true htot) (by rw [hres]; exact hcap)) (hmask _ rfl) rfl (by rw [hres]; exact hcl)
    obtain ⟨_, _, _, _, hd⟩ := claimResult_frame (d := took s 0x0F03 r) hcl
    have hps : d.ps = s.ps := by rw [hd]; rfl
    rw [hrow, heq, hpass, stageChunk_ends (by rw [hps]; exact hok) (by rw [hps]; exact hs) hlen]
    dsimp only
    split <;> rfl
  case activate =>
    have hrow : exec (.fwActivate r) s = .next (on s (runFwActivate (took s 0x0F04 r) (asCmd s 0x0F04 r))) := onDev_command_run hrun _ _
    have hlen : r.params.length = 48 := by rw [hp]; exact length_fit ..
    rw [hrow, runFwActivate_pass (d := took s 0x0F04 r) (x := x) (n := n) hok hs hp (hpre 0x0F04 rfl (parse_asCmd hlen) rfl (Nat.zero_le _)) (beq_eq_false_iff_ne.mpr hfield) (hmask _ rfl)]
    rfl
  case engine =>
    have hrow : exec (.selfTest r f) s = .next (on s (runSelfTest (took s 0x0F05 r) (asCmd s 0x0F05 r) f.toNat)) := exec_selfTest hrun
    have he : pByte (asCmd s 0x0F05 r) 0 = e.val := pByte_index (by omega) hp
    have hfree : ((eng (took s 0x0F05 r) e.val).clk == 3 || inTransit (took s 0x0F05 r) (18 + e.val) || engSecure (took s 0x0F05 r) e.val) = false := by
      have hclk' : ((eng (took s 0x0F05 r) e.val).clk == 3) = false := beq_eq_false_iff_ne.mpr hclk
      rw [hclk', show inTransit (took s 0x0F05 r) (18 + e.val) = false from htr, show engSecure (took s 0x0F05 r) e.val = false from hsec]
      rfl
    rw [hrow, runSelfTest_engine he (by omega) (hpre 0x0F05 rfl (parse_byte hp) (by rw [he]; exact decide_eq_true (by omega)) hcap) hfree hcl]
    rfl
  case lanes =>
    have hrow : exec (.selfTest r 0) s = .next (on s (runSelfTest (took s 0x0F05 r) (asCmd s 0x0F05 r) 0)) := exec_selfTest hrun
    have ht : pByte (asCmd s 0x0F05 r) 0 = 4 := pByte_index (n := 4) (by decide) hp
    rw [hrow, runSelfTest_inPlace ht (by decide) (hpre 0x0F05 rfl (parse_byte hp) (by rw [ht]; rfl) hcap) (hmask _ rfl) hcl]
    rfl
  case generator =>
    have hrow : exec (.selfTest r 0) s = .next (on s (runSelfTest (took s 0x0F05 r) (asCmd s 0x0F05 r) 0)) := exec_selfTest hrun
    have ht : pByte (asCmd s 0x0F05 r) 0 = 5 := pByte_index (n := 5) (by decide) hp
    obtain ⟨_, _, _, _, hd⟩ := claimResult_frame (d := took s 0x0F05 r) hcl
    have hperm' : d.sym.rngPerm = false := by rw [hd]; exact hperm
    rw [hrow, runSelfTest_inPlace ht (by decide) (hpre 0x0F05 rfl (parse_byte hp) (by rw [ht]; rfl) hcap) (hmask _ rfl) hcl]
    simp only [testInPlace, hperm'] <;> rfl

end Sys2Proof.Machine
end

section
/-! Owner commands. -/

namespace Sys2Proof.Machine

open Sys2Proof.Safety

/-! ### What each command does once its checks pass and its quorum is met -/

section
variable {d e : Dev} {c : Cmd} {w : Owner}

/-- The checks of OWNER_CREATE. -/
def createChecks (d : Dev) (c : Cmd) : List (Bool × Half) :=
  [(policyBad c, ST.denied), (!listed whoP c.issuer, ST.denied), (!stateU d, ST.locked), (c.owner.toNat == 0 && d.lc.state != 1 && d.lc.state != 2, ST.lcIllegal)] ++
  ownPre d c (parse c 8 [(6, 2)]) (decide ((byteAt c.params 0).toNat ≤ 1) && decide (1 ≤ pByte c 1) && decide (pByte c 1 ≤ 5) && decide (pByte c 1 ≤ pByte c 2) && decide (pByte c 2 ≤ 8)) ++
  [(fielded d && pByte c 1 == 1, ST.denied), ((ownerOf d c.owner.toNat).isSome, ST.ownerBad)]

/-- A new owner with its salt and secret. -/
def created (d : Dev) (o : Nat) (mode : Byte) (m n q cap : Nat) : Dev :=
  let salt := draw (reseed d) 32
  let secret := draw salt.2 48
  saveTable (setOwner secret.2 o { mode, salt := salt.1, m, n, cap, aonQuota := q, enrol := some { secret := secret.1, m, n, next := 1, creation := true, oldShares := [], since := d.now } })

theorem runOwnerCreate_eq (d : Dev) (c : Cmd) : runOwnerCreate d c =
    runAtomic d c (createChecks d c) (if c.owner.toNat = 0 then none else some 0) (fun d => [rngCheck d, (decide (64 < quotaSum d c.owner.toNat + pByte c 3), ST.slotQuota)]) 0 fun d =>
      let r := reseed d
      (saveTable (setOwner (draw (draw r 32).2 48).2 c.owner.toNat { mode := byteAt c.params 0, salt := (draw r 32).1, m := pByte c 1, n := pByte c 2, cap := pHalf c 4, aonQuota := pByte c 3, enrol := some { secret := (draw (draw r 32).2 48).1, m := pByte c 1, n := pByte c 2, next := 1, creation := true, oldShares := [], since := (draw (draw r 32).2 48).2.now } }), ST.ok, []) := rfl

theorem reseed_now (d : Dev) : (reseed d).now = d.now := by
  unfold reseed
  split <;> rfl

theorem create_resources (hrng : drbgReady d = true) {o q : Nat} (hq : quotaSum d o + q ≤ 64) : firstFail [rngCheck d, (decide (64 < quotaSum d o + q), ST.slotQuota)] = none := by
  rw [rngCheck, hrng, decide_eq_false (Nat.not_lt.mpr hq)]
  rfl

theorem runOwnerCreate_pass (hchecks : firstFail (createChecks d c) = none) (hgate : (c.owner.toNat = 0 ∧ e = d) ∨ (c.owner.toNat ≠ 0 ∧ quorumGate d c 0 = (e, none)))
    (hrng : drbgReady e = true) (hq : quotaSum e c.owner.toNat + pByte c 3 ≤ 64) (hmask : maskBad c = false) :
    runOwnerCreate d c = finish (created e c.owner.toNat (byteAt c.params 0) (pByte c 1) (pByte c 2) (pByte c 3) (pHalf c 4)) c.rid ST.ok := by
  rw [runOwnerCreate_eq]
  rcases hgate with ⟨ho, rfl⟩ | ⟨ho, hgate⟩
  · rw [if_pos ho, runAtomic_pass hchecks hmask (create_resources hrng hq) (claimResult_zero ..)]
    simp only [created, draw, reseed_now]
  · rw [if_neg ho, runAtomic_quorum hchecks hmask hgate (create_resources hrng hq) (claimResult_zero ..)]
    simp only [created, draw, reseed_now]

/-- The checks every command on an existing owner but 0 makes. -/
def namedChecks (d : Dev) (c : Cmd) (values : Bool) : List (Bool × Half) :=
  ownPre d c (parse c 4 [(1, 3)]) values ++ [(c.owner.toNat == 0, ST.denied), ((ownerOf d c.owner.toNat).isNone, ST.ownerBad)]

theorem runOwnerDelete_pass (hf : pByte c 0 = 0) (hchecks : firstFail (namedChecks d c (decide (pByte c 0 ≤ 1))) = none) (hgate : quorumGate d c c.owner.toNat = (e, none)) (hmask : maskBad c = false) :
    runOwnerDelete d c = finish (deleteOwner e c.owner.toNat) c.rid ST.ok := by
  have hrow : runOwnerDelete d c = runAtomic d c (namedChecks d c (decide (pByte c 0 ≤ 1))) (some c.owner.toNat) (fun _ => []) 0 fun d => (deleteOwner d c.owner.toNat, ST.ok, []) := by
    unfold runOwnerDelete
    dsimp only
    rw [hf]
    rfl
  rw [hrow, runAtomic_quorum hchecks hmask hgate rfl (claimResult_zero ..)]

theorem runOwnerDelete_forced (hf : pByte c 0 = 1) (hchecks : firstFail (namedChecks d c (decide (pByte c 0 ≤ 1)) ++ logGate d) = none) (hgate : quorumGate d c 0 = (e, none)) :
    runOwnerDelete d c = logRec e { recCrit "KEY" 0x0004 [rOwnerInfo e c.owner.toNat, (rOwnerStalls e c.owner.toNat).setWidth 32, (rOwnerStalls e c.owner.toNat >>> 32).setWidth 32] with after := .ownerDelete c.rid c.owner.toNat } := by
  have hlist : firstFail (ownPre d c (parse c 4 [(1, 3)]) (decide (pByte c 0 ≤ 1)) ++ [(c.owner.toNat == 0, ST.denied), ((ownerOf d c.owner.toNat).isNone, ST.ownerBad)] ++ logGate d) = none := hchecks
  unfold runOwnerDelete
  dsimp only
  rw [hlist, hgate, hf]
  rfl

theorem runOwnerBind_pass (hw : ownerOf d c.owner.toNat = some w) (hroom : w.stalls.getLsbD (pByte c 0) = true ∨ boundCount d (pByte c 0) < 8) (hchecks : firstFail (namedChecks d c (decide (pByte c 0 < 64))) = none)
    (hgate : quorumGate d c c.owner.toNat = (e, none)) (hmask : maskBad c = false) :
    runOwnerBind d c = finish (saveTable (setOwner e c.owner.toNat { w with stalls := w.stalls ||| BitVec.ofNat 64 (2 ^ pByte c 0) })) c.rid ST.ok := by
  have hfree : (!w.stalls.getLsbD (pByte c 0) && decide (8 ≤ boundCount d (pByte c 0))) = false := by
    rcases hroom with h | h
    · rw [h, Bool.not_true, Bool.false_and]
    · rw [decide_eq_false (Nat.not_le.mpr h), Bool.and_false]
  have hall : firstFail (ownPre d c (parse c 4 [(1, 3)]) (decide (pByte c 0 < 64)) ++ [(c.owner.toNat == 0, ST.denied), ((ownerOf d c.owner.toNat).isNone, ST.ownerBad), (!w.stalls.getLsbD (pByte c 0) && decide (8 ≤ boundCount d (pByte c 0)), ST.ownerBad)]) = none := by
    rw [hfree]
    have := firstFail_append_none hchecks (b := [(false, ST.ownerBad)]) rfl
    rwa [namedChecks, List.append_assoc] at this
  obtain ⟨x, hx⟩ := quorumGate_opened hgate
  have hwe : ownerOf e c.owner.toNat = some w := by rw [hx]; exact hw
  unfold runOwnerBind
  dsimp only
  rw [hw] at hall ⊢
  dsimp only
  rw [runAtomic_quorum hall hmask hgate rfl (claimResult_zero ..), hwe]

theorem runOwnerUnbind_pass (hw : ownerOf d c.owner.toNat = some w) (hchecks : firstFail (namedChecks d c (decide (pByte c 0 < 64))) = none) (hgate : quorumGate d c c.owner.toNat = (e, none)) (hmask : maskBad c = false) :
    runOwnerUnbind d c = finish (saveTable (unloadWhere (setOwner e c.owner.toNat { w with stalls := w.stalls &&& ~~~BitVec.ofNat 64 (2 ^ pByte c 0) })
      fun k => decide (k.owner.toNat = c.owner.toNat) && decide (k.charge = .stall (pByte c 0)))) c.rid ST.ok := by
  obtain ⟨x, hx⟩ := quorumGate_opened hgate
  have hwe : ownerOf e c.owner.toNat = some w := by rw [hx]; exact hw
  have hrow : runOwnerUnbind d c = runAtomic d c (namedChecks d c (decide (pByte c 0 < 64))) (some c.owner.toNat) (fun _ => []) 0 fun d =>
      match ownerOf d c.owner.toNat with
      | some w => (saveTable (unloadWhere (setOwner d c.owner.toNat { w with stalls := w.stalls &&& ~~~BitVec.ofNat 64 (2 ^ pByte c 0) }) fun s => decide (s.owner.toNat = c.owner.toNat) && decide (s.charge = .stall (pByte c 0))), ST.ok, [])
      | none => (d, ST.ownerBad, []) := rfl
  rw [hrow, runAtomic_quorum hchecks hmask hgate rfl (claimResult_zero ..), hwe]

/-- The checks of OWNER_SET_POLICY. -/
def policyChecks (d : Dev) (c : Cmd) (changes : Bool) : List (Bool × Half) :=
  ownPre d c (parse c 8) (decide (pByte c 3 ≤ 1) && decide (1 ≤ pByte c 0) && decide (pByte c 0 ≤ 5) && decide (pByte c 0 ≤ pByte c 1) && decide (pByte c 1 ≤ 8) &&
    decide (10 ≤ pHalf c 4) && decide (pHalf c 4 ≤ 600) && (pByte c 3 == 1 || !changes)) ++ [((ownerOf d c.owner.toNat).isNone, ST.ownerBad), (fielded d && pByte c 0 == 1, ST.denied)]

/-- An owner with its new policy, and the enrolment that a re-enrolment opens. -/
def repolicied (d : Dev) (o m n q win cap : Nat) (w : Owner) (re : Bool) : Dev :=
  if re then setOwner (draw d 48).2 o { w with aonQuota := q, window := win, cap, shares := [], enrol := some { secret := (draw d 48).1, m, n, next := 1, creation := false, oldShares := w.shares, since := d.now } }
  else setOwner d o { w with aonQuota := q, window := win, cap }

theorem runOwnerSetPolicy_pass {re : Bool} (hw : ownerOf d c.owner.toNat = some w) (hre : (pByte c 3 == 1) = re) (hchecks : firstFail (policyChecks d c (pByte c 0 != w.m || pByte c 1 != w.n)) = none)
    (hgate : quorumGate d c c.owner.toNat = (e, none)) (hrng : re = true → drbgReady d = true) (hq : quotaSum d c.owner.toNat + pByte c 2 ≤ 64) (hmask : maskBad c = false) :
    runOwnerSetPolicy d c = finish (saveTable (repolicied e c.owner.toNat (pByte c 0) (pByte c 1) (pByte c 2) (pHalf c 4) (pHalf c 6) w re)) c.rid ST.ok := by
  obtain ⟨x, hx⟩ := quorumGate_opened hgate
  have hwe : ownerOf e c.owner.toNat = some w := by rw [hx]; exact hw
  have hres : firstFail ((if re then [rngCheck e] else []) ++ [(decide (64 < quotaSum e c.owner.toNat + pByte c 2), ST.slotQuota)]) = none := by
    have hqe : quotaSum e c.owner.toNat = quotaSum d c.owner.toNat := by rw [hx]; rfl
    rw [hqe, decide_eq_false (Nat.not_lt.mpr hq)]
    cases re with
    | false => rfl
    | true =>
      have hre : drbgReady e = true := by rw [hx]; exact hrng rfl
      rw [if_pos rfl, rngCheck, hre]
      rfl
  have hlist := hchecks
  rw [policyChecks, hre] at hlist
  unfold runOwnerSetPolicy
  dsimp only
  rw [hw] at hlist ⊢
  rw [hre]
  dsimp only
  rw [runAtomic_quorum hlist hmask hgate hres (claimResult_zero ..), hwe]
  cases re <;> rfl

end

/-! ### The parameters of the owner commands -/

section
variable {s : State} {r : Request} {op : Nat}

theorem ownPre_took {parsed : Option Half} {values : Bool} (hissuer : r.issuer = .pf) (hkey : r.key = 0) (hlock : s.lc.state ≠ 0xEE) (htable : s.key.tableBad = false) (hp : parsed = none) (hv : values = true) :
    firstFail (ownPre (took s op r) (asCmd s op r) parsed values) = none := by
  refine preChecks_took (listedP hissuer) (stateU_took hlock) (.inl htable) hp ?_ (Nat.zero_le _)
  rw [hv, noKey, (asCmd_fields s op r).2.2.2.1, hkey]
  rfl

theorem pHalf_asCmd {x : Half} {off : Nat} {a l : Bytes} (hp : r.params = a ++ (b2 x ++ l)) (ha : a.length = off) : pHalf (asCmd s op r) off = x.toNat :=
  leAt_field hp ha x.isLt

end

/-- Settles O12: owner commands whose quorum is met write the owner table, unload what they must and end. -/
theorem ownerCommandsAct : Obligations.OwnerCommandsAct := by
  intro r s d w hrun hissuer hkey hlock htable
  have hmask : ∀ op, op / 256 = 5 → maskBad (asCmd s op r) = false := fun op hop => by
    refine maskBad_of ?_
    have hne : ∀ k, k / 256 ≠ 5 → (op == k) = false := fun k hk => beq_eq_false_iff_ne.mpr fun h => hk (h ▸ hop)
    simp only [readsKey, (asCmd_fields s op r).2.2.1, hop]
    simp [hne]
  have hbyte : ∀ {op b} i, byteAt r.params i = b → pByte (asCmd s op r) i = b.toNat := fun i h => congrArg BitVec.toNat h
  have hne : r.ownerId ≠ 0 → (r.ownerId.toNat == 0) = false := fun h => beq_eq_false_iff_ne.mpr fun hz => h (BitVec.eq_of_toNat_eq hz)
  have hlow : ∀ {op} (m : Byte), (s.lc.state = 3 → m ≠ 1) → (fielded (took s op r) && m.toNat == 1) = false := fun {op} m h => by
    change (s.lc.state == 3 && m.toNat == 1) = false
    by_cases h3 : s.lc.state = 3
    · have hm : (m.toNat == 1) = false := beq_eq_false_iff_ne.mpr fun hz => h h3 (BitVec.eq_of_toNat_eq hz)
      rw [hm, Bool.and_false]
    · rw [beq_eq_false_iff_ne.mpr h3, Bool.false_and]
  have hnamed : ∀ {op b values}, r.params = [b, 0, 0, 0] → r.ownerId ≠ 0 → ownerOf s.toDev r.ownerId.toNat = some w → values = true → firstFail (namedChecks (took s op r) (asCmd s op r) values) = none := fun {op b values} hp ho hw hv => by
    have howner : (asCmd s op r).owner.toNat = r.ownerId.toNat := rfl
    have hsome : ownerOf (took s op r) r.ownerId.toNat = some w := hw
    refine firstFail_append_none (ownPre_took hissuer hkey hlock htable (parse_byte hp) hv) ?_
    rw [howner, hne ho, hsome]
    rfl
  refine ⟨fun mode m n q cap hp hmode h1 h5 hmn h8 hfield hno hrng hquota hgate => ?create, fun hp ho hw hgate => ?delete, fun hp ho hw hfail hfull hgate => ?force, fun n hp ho hw hroom hgate => ?bind,
    fun n hp ho hw hgate => ?unbind, fun m n q re win cap hp hre h1 h5 hmn h8 h10 h600 hsame hfield hw hgate hrng hquota => ?policy, fun ho hp => ?cancel⟩
  case create =>
    have hrow : exec (.ownerCreate r) s = .next (on s (runOwnerCreate (took s 0x0501 r) (asCmd s 0x0501 r))) := onDev_command_run hrun _ _
    have hparams : (asCmd s 0x0501 r).params = [mode, m, n, q] ++ b2 cap ++ [0, 0] := hp
    have hm : pByte (asCmd s 0x0501 r) 1 = m.toNat := hbyte 1 (by rw [hp]; rfl)
    have hn : pByte (asCmd s 0x0501 r) 2 = n.toNat := hbyte 2 (by rw [hp]; rfl)
    have hq : pByte (asCmd s 0x0501 r) 3 = q.toNat := hbyte 3 (by rw [hp]; rfl)
    have hcap : pHalf (asCmd s 0x0501 r) 4 = cap.toNat := pHalf_asCmd (a := [mode, m, n, q]) (l := [0, 0]) (by rw [hp, List.append_assoc]) rfl
    have hmod : byteAt (asCmd s 0x0501 r).params 0 = mode := by rw [hparams]; rfl
    have howner : (asCmd s 0x0501 r).owner.toNat = r.ownerId.toNat := rfl
    have hchecks : firstFail (createChecks (took s 0x0501 r) (asCmd s 0x0501 r)) = none := by
      refine firstFail_append_none (firstFail_append_none (firstFail_none ?_) (ownPre_took hissuer hkey hlock htable (parse_zeros (by rw [hparams]; rfl) (by simp [hp, slice, b2, leBytes, allZero])) ?_)) (firstFail_none ?_)
      · intro y hy
        simp only [List.mem_cons, List.not_mem_nil, or_false] at hy
        rcases hy with rfl | rfl | rfl | rfl
        · rfl
        · rw [show (asCmd s 0x0501 r).issuer = r.issuer from rfl, listedP hissuer]
          rfl
        · rw [stateU_took hlock]
          rfl
        · rw [howner]
          change (r.ownerId.toNat == 0 && s.lc.state != 1 && s.lc.state != 2) = false
          rcases hgate with ⟨-, h | h, -⟩ | ⟨h, -⟩
          · rw [h]
            simp
          · rw [h]
            simp
          · rw [hne h]
            rfl
      · rw [hmod, hm, hn]
        simp [hmode, h1, h5, hmn, h8]
      · intro y hy
        simp only [List.mem_cons, List.not_mem_nil, or_false] at hy
        rcases hy with rfl | rfl
        · rw [hm]
          exact hlow m hfield
        · rw [howner, show ownerOf (took s 0x0501 r) r.ownerId.toNat = none from hno]
          rfl
    have hgate' : ((asCmd s 0x0501 r).owner.toNat = 0 ∧ d = took s 0x0501 r) ∨ ((asCmd s 0x0501 r).owner.toNat ≠ 0 ∧ quorumGate (took s 0x0501 r) (asCmd s 0x0501 r) 0 = (d, none)) := by
      rw [howner]
      rcases hgate with ⟨h, -, hd⟩ | ⟨h, hd⟩
      · exact .inl ⟨by rw [h]; rfl, hd⟩
      · exact .inr ⟨beq_eq_false_iff_ne.mp (hne h), hd⟩
    have hd : ∃ x, d = { took s 0x0501 r with crd := x } := by
      rcases hgate' with ⟨-, hd⟩ | ⟨-, hd⟩
      · exact ⟨_, hd⟩
      · exact quorumGate_opened hd
    obtain ⟨x, hx⟩ := hd
    rw [hrow, runOwnerCreate_pass hchecks hgate' (by rw [hx]; exact hrng) (by rw [hx, hq, howner]; exact hquota) (hmask _ rfl), hm, hn, hq, hcap, hmod]
    have hnow : d.now = s.now := by rw [hx]; rfl
    rw [created, hnow]
    rfl
  case delete =>
    have hrow : exec (.ownerDelete r) s = .next (on s (runOwnerDelete (took s 0x0502 r) (asCmd s 0x0502 r))) := onDev_command_run hrun _ _
    have hf : pByte (asCmd s 0x0502 r) 0 = 0 := pByte_index (n := 0) (by decide) hp
    rw [hrow, runOwnerDelete_pass hf (hnamed hp ho hw (by rw [hf]; rfl)) hgate (hmask _ rfl)]
    rfl
  case force =>
    have hrow : exec (.ownerDelete r) s = .next (on s (runOwnerDelete (took s 0x0502 r) (asCmd s 0x0502 r))) := onDev_command_run hrun _ _
    have hf : pByte (asCmd s 0x0502 r) 0 = 1 := pByte_index (n := 1) (by decide) hp
    rw [hrow, runOwnerDelete_forced hf (firstFail_append_none (hnamed hp ho hw (by rw [hf]; rfl)) (logGate_open hfail hfull)) hgate]
    rfl
  case bind =>
    have hrow : exec (.ownerBind r) s = .next (on s (runOwnerBind (took s 0x0503 r) (asCmd s 0x0503 r))) := onDev_command_run hrun _ _
    have hn : pByte (asCmd s 0x0503 r) 0 = n.val := pByte_index n.isLt hp
    rw [hrow, runOwnerBind_pass (w := w) hw (by rw [hn]; exact hroom) (hnamed hp ho hw (by rw [hn]; exact decide_eq_true n.isLt)) hgate (hmask _ rfl), hn]
    rfl
  case unbind =>
    have hrow : exec (.ownerUnbind r) s = .next (on s (runOwnerUnbind (took s 0x0504 r) (asCmd s 0x0504 r))) := onDev_command_run hrun _ _
    have hn : pByte (asCmd s 0x0504 r) 0 = n.val := pByte_index n.isLt hp
    rw [hrow, runOwnerUnbind_pass (w := w) hw (hnamed hp ho hw (by rw [hn]; exact decide_eq_true n.isLt)) hgate (hmask _ rfl), hn]
    rfl
  case policy =>
    have hrow : exec (.ownerSetPolicy r) s = .next (on s (runOwnerSetPolicy (took s 0x0505 r) (asCmd s 0x0505 r))) := onDev_command_run hrun _ _
    have hm : pByte (asCmd s 0x0505 r) 0 = m.toNat := hbyte 0 (by rw [hp]; rfl)
    have hn : pByte (asCmd s 0x0505 r) 1 = n.toNat := hbyte 1 (by rw [hp]; rfl)
    have hq : pByte (asCmd s 0x0505 r) 2 = q.toNat := hbyte 2 (by rw [hp]; rfl)
    have hr : pByte (asCmd s 0x0505 r) 3 = re.toNat := hbyte 3 (by rw [hp]; rfl)
    have hwin : pHalf (asCmd s 0x0505 r) 4 = win.toNat := pHalf_asCmd (a := [m, n, q, re]) (l := b2 cap) (by rw [hp, List.append_assoc]) rfl
    have hcap : pHalf (asCmd s 0x0505 r) 6 = cap.toNat := pHalf_asCmd (a := [m, n, q, re] ++ b2 win) (l := []) (by rw [hp, List.append_nil]) rfl
    have hone : (re.toNat == 1) = decide (re = 1) := by rcases byte_le_one hre with rfl | rfl <;> rfl
    have hchecks : firstFail (policyChecks (took s 0x0505 r) (asCmd s 0x0505 r) (m.toNat != w.m || n.toNat != w.n)) = none := by
      refine firstFail_append_none (ownPre_took hissuer hkey hlock htable (parse_asCmd (by rw [hp]; rfl)) ?_) ?_
      · rw [hm, hn, hr, hwin, hone]
        have hchange : (decide (re = 1) || !(m.toNat != w.m || n.toNat != w.n)) = true := by
          rcases byte_le_one hre with h | h
          · obtain ⟨h1, h2⟩ := hsame h
            rw [h1, h2]
            simp
          · rw [decide_eq_true h]
            rfl
        rw [hchange]
        simp [hre, h1, h5, hmn, h8, h10, h600]
      · rw [show (asCmd s 0x0505 r).owner.toNat = r.ownerId.toNat from rfl, show ownerOf (took s 0x0505 r) r.ownerId.toNat = some w from hw, hm, hlow m hfield]
        rfl
    rw [← hm, ← hn] at hchecks
    rw [hrow, runOwnerSetPolicy_pass (w := w) (re := decide (re = 1)) hw (by rw [hr, hone]) hchecks hgate (fun h => hrng (of_decide_eq_true h)) (by rw [hq]; exact hquota) (hmask _ rfl), hm, hn, hq, hwin, hcap]
    obtain ⟨x, hx⟩ := quorumGate_opened hgate
    have hnow : d.now = s.now := by rw [hx]; rfl
    simp only [repolicied, decide_eq_true_eq, hnow] <;> rfl
  case cancel =>
    have hrow : exec (.quorumCancel r) s = .next (on s (runQuorumCancel (took s 0x0507 r) (asCmd s 0x0507 r))) := onDev_command_run hrun _ _
    have hchecks : firstFail (preChecks (took s 0x0507 r) (asCmd s 0x0507 r) whoP (stateU (took s 0x0507 r)) (parse (asCmd s 0x0507 r) 0) (noKeyOwner (asCmd s 0x0507 r)) 0) = none :=
      preChecks_took (listedP hissuer) (stateU_took hlock) (.inl htable) (parse_none hp) (noKeyOwner_asCmd hkey ho) (Nat.zero_le _)
    rw [hrow, runQuorumCancel, runAtomic_pass hchecks (hmask _ rfl) rfl (claimResult_zero ..)]
    rfl

end Sys2Proof.Machine
end

section
/-! Public-key commands: refused, or waiting for an engine. -/

namespace Sys2Proof.Machine

open Sys2Proof.Safety

/-- The commands that an engine runs. -/
def engineRows (r : Request) : List (Nat × Instr) :=
  [(0x0201, .keyGenerate r), (0x020A, .keyPublic r), (0x0301, .pkSign r), (0x0302, .pkVerify r), (0x0303, .pkEncaps r), (0x0304, .pkDecaps r), (0x0305, .pkAgree r), (0x0306, .pkMacRun r)]

section
variable {s : State} {op : Nat} {r : Request} {i : Instr}

theorem exec_engine (hi : (op, i) ∈ engineRows r) (hrun : s.glb.power = .run) (hgen : op = 0x0201 → isSym (byteAt r.params 0) = false ∧ byteAt r.params 0 ≠ 0x40)
    (hpub : op = 0x020A → keyType (took s op r) (asCmd s op r) r.key = 0x40) : exec i s = .next (on s (runPk (took s op r) (asCmd s op r))) := by
  simp only [engineRows, List.mem_cons, Prod.mk.injEq, List.not_mem_nil, or_false] at hi
  rcases hi with ⟨rfl, rfl⟩ | ⟨rfl, rfl⟩ | ⟨rfl, rfl⟩ | ⟨rfl, rfl⟩ | ⟨rfl, rfl⟩ | ⟨rfl, rfl⟩ | ⟨rfl, rfl⟩ | ⟨rfl, rfl⟩
  · obtain ⟨hsym, hexp⟩ := hgen rfl
    have hrow : exec (.keyGenerate r) s = .next (on s (runKeyGenerate (took s 0x0201 r) (asCmd s 0x0201 r))) := onDev_command_run hrun _ _
    have hkind : (!(isSym (byteAt (asCmd s 0x0201 r).params 0) || byteAt (asCmd s 0x0201 r).params 0 == 0x40)) = true := by
      rw [(asCmd_fields s _ r).2.2.2.2.2.1, hsym, beq_eq_false_iff_ne.mpr hexp]
      rfl
    rw [hrow, runKeyGenerate, if_pos hkind]
  · have hrow : exec (.keyPublic r) s = .next (on s (runKeyPublic (took s 0x020A r) (asCmd s 0x020A r))) := onDev_command_run hrun _ _
    have hkind : (keyType (took s 0x020A r) (asCmd s 0x020A r) (asCmd s 0x020A r).key == 0x40) = true := beq_iff_eq.mpr (hpub rfl)
    rw [hrow, runKeyPublic, if_pos hkind]
  all_goals exact onDev_command_run hrun _ _

/-- Only PK_MAC_RUN asks for an engine of the MAC channel. -/
theorem pkPlan_mac (hi : (op, i) ∈ engineRows r) (d : Dev) : (pkPlan d (asCmd s op r)).mac = (op == 0x0306) := by
  simp only [engineRows, List.mem_cons, Prod.mk.injEq, List.not_mem_nil, or_false] at hi
  rcases hi with ⟨rfl, -⟩ | ⟨rfl, -⟩ | ⟨rfl, -⟩ | ⟨rfl, -⟩ | ⟨rfl, -⟩ | ⟨rfl, -⟩ | ⟨rfl, -⟩ | ⟨rfl, -⟩ <;> rfl

end

theorem canServe_of_free {d : Dev} {mac secure : Bool} (h : freeEngine d mac secure = true) : canServe d mac secure = true := by
  obtain ⟨e, he, h⟩ := List.any_eq_true.mp h
  exact List.any_eq_true.mpr ⟨e, he, (Bool.and_eq_true_iff.mp h).1⟩

section
variable {d : Dev} {c : Cmd} {mac : Bool}

theorem runPk_pre {st : Half} (h : firstFail (pkPlan d c).pre = some st) : runPk d c = finish d c.rid st := by
  simp only [runPk, h]

/-- What a public-key command does once its first checks pass. -/
theorem runPk_passed (h : firstFail (pkPlan d c).pre = none) (hm : (pkPlan d c).mac = mac) : runPk d c =
    if canServe d mac false && !freeEngine d mac false then { d with pkeWait := d.pkeWait ++ [.cmd c] }
    else match pkTry d c (pkPlan d c) (canServe d mac false) with
      | (d', .inl st) => endWith d' c st
      | (_, .inr _) => { d with pkeWait := d.pkeWait ++ [.cmd c] } := by
  simp only [runPk, h, hm] <;> rfl

end

/-- Settles O9: a public-key command ends at its failing check, waits for an engine that serves it, or is refused. -/
theorem publicKeyCommandsWaitForAnEngine : Obligations.PublicKeyCommandsWaitForAnEngine := by
  intro r s op i hi hrun hgen hpub
  have hrow := exec_engine hi hrun hgen hpub
  have hmac := pkPlan_mac (s := s) hi (took s op r)
  refine ⟨fun st hst => ?fails, fun hpre hserve hwait => ?waits, fun d st hpre hfree htry hst => ?refused, fun d hpre hserve htry => ?noEngine⟩
  case fails =>
    rw [hrow, runPk_pre hst]
    rfl
  case waits =>
    have hserve' : canServe (took s op r) (op == 0x0306) false = true := hserve
    rw [hrow, runPk_passed hpre hmac, hserve']
    cases hfree : freeEngine (took s op r) (op == 0x0306) false with
    | false => rfl
    | true =>
      rcases hwait with hno | ⟨d, o, htry⟩
      · cases hno.symm.trans hfree
      · rw [if_neg (by decide), htry]
        rfl
  case refused =>
    have hfree' : freeEngine (took s op r) (op == 0x0306) false = true := hfree
    rw [hrow, runPk_passed hpre hmac, canServe_of_free hfree', hfree', if_neg (by decide), htry]
    dsimp only
    rw [endWith, if_neg (by simpa using hst)]
    rfl
  case noEngine =>
    have hserve' : canServe (took s op r) (op == 0x0306) false = false := hserve
    rw [hrow, runPk_passed hpre hmac, hserve', if_neg (by simp), htry]
    dsimp only
    rw [endWith, if_neg (by decide)]
    rfl

end Sys2Proof.Machine
end

section
/-! Key commands on a live key. -/

namespace Sys2Proof.Machine

open Sys2Proof.Safety

section
variable {s : State} {op : Nat} {r : Request} {d e : Dev} {k : LiveKey}

/-- The checks every key command makes before it opens the key. -/
theorem keyPre_opened {parsed : Option Half} {values : Bool} {res : Nat} (h : opensKey s r k) (hp : parsed = none) (hv : values = true) (hres : res ≤ r.dataCap) :
    firstFail (keyPre (took s op r) (asCmd s op r) parsed values res) = none := by
  obtain ⟨-, hi, hstate, htable, -⟩ := h
  exact preChecks_took (listedPV hi) hstate (.inl htable) hp hv hres

/-- The checks of a key command that asks nothing of the key but to be live. -/
theorem liveChecks_opened {parsed : Option Half} {values : Bool} {res : Nat} (h : opensKey s r k) (hp : parsed = none) (hv : values = true) (hres : res ≤ r.dataCap) :
    firstFail (keyPre (took s op r) (asCmd s op r) parsed values res ++ keyChecks (took s op r) (asCmd s op r) (asCmd s op r).key (fun _ => true) none) = none :=
  firstFail_append_none (keyPre_opened h hp hv hres) (keyChecks_opened h rfl (by simp))

/-- A device with the key unit of the one that took the request finds the same key. -/
theorem keyFor_kept (h : opensKey s r k) (hd : d.key = s.key) : keyFor d (asCmd s op r) (asCmd s op r).key = some k := by
  obtain ⟨-, hi, -, -, -, -, -, hf, -⟩ := h
  rw [keyFor_pv (c := asCmd s op r) hi, findKey_congr (d := s.toDev) (d' := d) hd]
  exact hf

theorem key_claimed {n : Nat} (h : claimed s op r n d) : d.key = s.key := claimResult_keyUnit (d := took s op r) h

theorem keyLen_opened (h : opensKey s r k) : keyLen (took s op r) (asCmd s op r) (asCmd s op r).key = k.bytes.length := by
  rw [keyLen, keyFor_kept (d := took s op r) h rfl]

theorem keyType_opened (h : opensKey s r k) : keyType (took s op r) (asCmd s op r) (asCmd s op r).key = k.type := by
  rw [keyType, keyFor_kept (d := took s op r) h rfl]

theorem maskBad_unmasked (h : r.keyMask = false) : maskBad (asCmd s op r) = false := by
  rw [maskBad, (show (asCmd s op r).keyMask = false from h), Bool.false_and]

theorem maskBad_masked (h : r.keyMask = true) (hr : readsKey (asCmd s op r) = true) : maskBad (asCmd s op r) = true := by
  rw [maskBad, hr, (show (asCmd s op r).keyMask = true from h), Bool.and_true]

/-- A key's own quorum is asked only where its usage says so. -/
theorem useQuorum_opened (h : opensKey s r k) (hq : k.usage.getLsbD uQuorum = false) : useQuorum (took s op r) (asCmd s op r) (asCmd s op r).key = none :=
  useQuorum_none (keyFor_kept h rfl) hq

theorem half_b2 {u : Half} {l : Bytes} : half (b2 u ++ l) 0 = u := by
  have hval : leAt (b2 u ++ l) 0 2 = u.toNat := leAt_field (a := []) (l := l) rfl rfl u.isLt
  rw [half, hval, BitVec.ofNat_toNat, BitVec.setWidth_eq]

/-- A usage and two zero bytes. -/
theorem parse_usage {u : Half} (hp : r.params = b2 u ++ [0, 0]) : parse (asCmd s op r) 4 [(2, 2)] = none :=
  parse_zeros (by rw [(asCmd_fields s op r).2.2.2.2.2.1, hp]; rfl) (by simp [hp, slice, allZero, b2, leBytes])

theorem le_of_length {l n m : Nat} (h : n ≤ m) : (if l = 0 then 0 else n) ≤ m := by split <;> omega

/-- A masked key that the command would read is a mask fault, once its cells are claimed (07 R136). -/
theorem runAtomic_masked {c : Cmd} {checks : List (Bool × Half)} {resources : Dev → List (Bool × Half)} {res : Nat} {body : Dev → Dev × Half × Bytes}
    (hc : firstFail checks = none) (hm : maskBad c = true) (hr : firstFail (resources d) = none) (hcl : claimResult d c res = some e) :
    runAtomic d c checks none resources res body = maskFault e := by
  simp only [runAtomic, hc, hr, hcl, hm, if_true]

theorem rngCheck_ready (h : drbgReady d = true) : firstFail [rngCheck d] = none := by
  rw [rngCheck, h]
  rfl

theorem runKeySetUsage_eq {c : Cmd} {u : Half} (hu : half c.params 0 = u) (hk : keyFor d c c.key = some k) :
    runKeySetUsage d c = runAtomic d c
      (keyPre d c (parse c 4 [(2, 2)]) (!usageReserved u) 0 ++ keyChecks d c c.key (fun _ => true) none ++ [(usageClash k.type u, ST.param)])
      (if (u &&& ~~~k.usage) != 0 then some c.owner.toNat else none) (fun _ => []) 0 fun d =>
      match keyFor d c c.key with
      | some k => (setUsage d k.ref u, ST.ok, [])
      | none => (d, ST.handleBad, []) := by
  unfold runKeySetUsage keyType
  dsimp only
  rw [hu, hk] <;> rfl

/-- The checks of KEY_SET_USAGE for a usage that the key's type allows. -/
theorem usageChecks_opened {u : Half} (h : opensKey s r k) (hp : r.params = b2 u ++ [0, 0]) (hres : (u &&& 0xF000) = 0) (hclash : usageClash k.type u = false) :
    firstFail (keyPre (took s op r) (asCmd s op r) (parse (asCmd s op r) 4 [(2, 2)]) (!usageReserved u) 0 ++
      keyChecks (took s op r) (asCmd s op r) (asCmd s op r).key (fun _ => true) none ++ [(usageClash k.type u, ST.param)]) = none := by
  refine firstFail_append_none (liveChecks_opened h (parse_usage hp) ?_ (Nat.zero_le _)) ?_
  · rw [usageReserved, hres]
    rfl
  · rw [hclash]
    rfl

/-- KEY_PUBLIC of a type without domain bytes. -/
theorem planPublic_opened (h : opensKey s r k) (hdl : pWord (asCmd s op r) 0 = 0) :
    (planPublic (took s op r) (asCmd s op r)).pre = keyPre (took s op r) (asCmd s op r) (parse (asCmd s op r) 4 [] [(0, false)]) true (pubSize k.type k.bytes.length 0) ∧
    (planPublic (took s op r) (asCmd s op r)).checks = keyChecks (took s op r) (asCmd s op r) (asCmd s op r).key publicType none ++ [((k.type == 0x40) != false, ST.algParam)] ∧
    (planPublic (took s op r) (asCmd s op r)).res = pubSize k.type k.bytes.length 0 := by
  unfold planPublic
  dsimp only
  rw [hdl, keyType_opened h, keyLen_opened h]
  exact ⟨rfl, rfl, rfl⟩

theorem publicChecks_opened (h : opensKey s r k) (ht : publicType k.type = true) (hne : (k.type == 0x40) = false) :
    firstFail (keyChecks (took s op r) (asCmd s op r) (asCmd s op r).key publicType none ++ [((k.type == 0x40) != false, ST.algParam)]) = none :=
  firstFail_append_none (keyChecks_opened h ht (by simp)) (by rw [hne]; rfl)

theorem runKeyPublic_atomic {c : Cmd} {pre checks : List (Bool × Half)} {n : Nat} (ht : (keyType d c c.key == 0x40) = false)
    (hp : (planPublic d c).pre = pre ∧ (planPublic d c).checks = checks ∧ (planPublic d c).res = n) :
    runKeyPublic d c = runAtomic d c (pre ++ checks) (useQuorum d c c.key) (fun _ => [rngCheck d]) n fun d =>
      match keyFor d c c.key with
      | some k => (touchKey d k.ref, (publicResult k.type n k.bytes []).1, (publicResult k.type n k.bytes []).2)
      | none => (d, ST.handleBad, []) := by
  obtain ⟨rfl, rfl, rfl⟩ := hp
  rw [runKeyPublic, ht, if_neg Bool.false_ne_true]
  rfl

/-- The checks of KEY_WRAP. -/
theorem wrapChecks_opened {n : Nat} (h : opensKey s r k) (hp : r.params = []) (haon : hAon r.key = false) (hcap : n ≤ r.dataCap) :
    firstFail (keyPre (took s op r) (asCmd s op r) (parse (asCmd s op r) 0) (!hAon (asCmd s op r).key) (if k.bytes.length = 0 then 0 else n) ++
      keyChecks (took s op r) (asCmd s op r) (asCmd s op r).key (fun _ => true) none) = none :=
  liveChecks_opened h (parse_none hp) (by rw [show hAon (asCmd s op r).key = false from haon]; rfl) (le_of_length hcap)

/-- The checks of KEY_AON_PUT. -/
theorem putChecks_opened (h : opensKey s r k) (hp : r.params = []) (hlen : k.bytes.length ≤ 96) (haon : k.usage.getLsbD uAon = true) (hcap : 4 ≤ r.dataCap) :
    firstFail (keyPre (took s op r) (asCmd s op r) (parse (asCmd s op r) 0) (decide (k.bytes.length ≤ 96)) 4 ++ keyChecks (took s op r) (asCmd s op r) (asCmd s op r).key (fun _ => true) (some uAon)) = none :=
  firstFail_append_none (keyPre_opened h (parse_none hp) (decide_eq_true hlen) hcap) (keyChecks_opened h rfl (by rintro x ⟨⟩; exact haon))

theorem roomChecks_opened {o : Nat} (hrng : drbgReady d = true) (hroom : bankRoom d o = true) : firstFail [rngCheck d, (!bankRoom d o, ST.slotQuota)] = none :=
  firstFail_append_none (a := [_]) (rngCheck_ready hrng) (by rw [hroom]; rfl)

end

/-- Settles O7: the checks pass for a key that opens; the claim of the result leaves the key unit as it was, so the body finds the same key. -/
theorem keyCommandsOnALiveKey : Obligations.KeyCommandsOnALiveKey := by
  intro r s k h
  have hrun := h.1
  refine ⟨fun d hp hcap hcl => ?info, fun hp => ?unload, fun u hp hres hclash hsub => ?remove, fun u d hp hres hclash hadd hq => ?add,
    fun d hp hm haon hq hrng hcap w hw hcl => ?wrap, fun dst q d hp hm hexp hdst hrng hcap hq hcl => ?exported, fun b d hp hm hlen haon hq hrng hroom hcap hcl hb => ?put,
    fun d ht hpub hp hm hq hrng hcap hcl => ?publicKey, fun d hm hq hrng => ⟨fun hp haon hcap hcl => ?wrapMasked, fun hp hlen haon hroom hcap hcl => ?putMasked⟩⟩
  case info =>
    refine (onDev_command_run hrun _ _).trans ?_
    rw [runKeyInfo, read_claimed (liveChecks_opened h (parse_none hp) rfl hcap) (by simp [readsKey]) hcl, keyFor_kept h (key_claimed hcl)]
    rfl
  case unload =>
    refine (onDev_command_run hrun _ _).trans ?_
    rw [runKeyUnload, runAtomic_pass (liveChecks_opened h (parse_none hp) rfl (Nat.zero_le _)) (maskBad_of (by simp [readsKey])) rfl (claimResult_zero _ _), keyFor_kept (d := took s 0x0204 r) h rfl]
    rfl
  case remove =>
    refine (onDev_command_run hrun _ _).trans ?_
    have hsame : ((u &&& ~~~k.usage) != 0) = false := by rw [hsub]; rfl
    have hu : half (asCmd s 0x0206 r).params 0 = u := by rw [(asCmd_fields s 0x0206 r).2.2.2.2.2.1, hp, half_b2]
    rw [runKeySetUsage_eq (d := took s 0x0206 r) hu (keyFor_kept h rfl), hsame, if_neg Bool.false_ne_true,
      runAtomic_pass (usageChecks_opened h hp hres hclash) (maskBad_of (by simp [readsKey])) rfl (claimResult_zero _ _), keyFor_kept (d := took s 0x0206 r) h rfl]
    rfl
  case add =>
    refine (onDev_command_run hrun _ _).trans ?_
    have hmore : ((u &&& ~~~k.usage) != 0) = true := bne_iff_ne.mpr hadd
    have hu : half (asCmd s 0x0206 r).params 0 = u := by rw [(asCmd_fields s 0x0206 r).2.2.2.2.2.1, hp, half_b2]
    obtain ⟨x, hx⟩ := quorumGate_opened hq
    rw [runKeySetUsage_eq (d := took s 0x0206 r) hu (keyFor_kept h rfl), if_pos hmore,
      runAtomic_quorum (usageChecks_opened h hp hres hclash) (maskBad_of (by simp [readsKey])) (o := (asCmd s 0x0206 r).owner.toNat) hq rfl (claimResult_zero _ _), keyFor_kept (d := d) h (by rw [hx]; rfl)]
    rfl
  case wrap =>
    refine (onDev_command_run hrun _ _).trans ?_
    have hw' : ownerOf d (asCmd s 0x0205 r).owner.toNat = some w := by rw [ownerOf, key_claimed hcl]; exact hw
    rw [runKeyWrap, keyLen_opened h, useQuorum_opened h hq, runAtomic_pass (wrapChecks_opened h hp haon hcap) (maskBad_unmasked hm) (rngCheck_ready hrng) hcl, keyFor_kept h (key_claimed hcl), hw']
    rfl
  case exported =>
    refine (onDev_command_run hrun _ _).trans ?_
    have hb : byteAt (asCmd s 0x0207 r).params 0 = dst := byteAt_asCmd hp
    obtain ⟨x, hx⟩ := quorumGate_opened hq
    have hkey : d.key = s.key := (claimResult_keyUnit hcl).trans (by rw [hx]; rfl)
    have hrng' : drbgReady q = true := by rw [hx]; exact hrng
    have hown : firstFail [((ownerOf (took s 0x0207 r) dst.toNat).isNone, ST.ownerBad)] = none := by
      obtain ⟨w, hw⟩ := Option.isSome_iff_exists.mp hdst
      rw [show ownerOf (took s 0x0207 r) dst.toNat = some w from hw]
      rfl
    have hchecks : firstFail (keyPre (took s 0x0207 r) (asCmd s 0x0207 r) (parse (asCmd s 0x0207 r) 4 [(1, 3)]) true (if k.bytes.length = 0 then 0 else 16 + Config.kwLen 1 (16 + k.bytes.length)) ++
        keyChecks (took s 0x0207 r) (asCmd s 0x0207 r) (asCmd s 0x0207 r).key (fun _ => true) (some uExport) ++ [((ownerOf (took s 0x0207 r) dst.toNat).isNone, ST.ownerBad)]) = none :=
      firstFail_append_none (firstFail_append_none (keyPre_opened h (parse_byte hp) rfl (le_of_length hcap)) (keyChecks_opened h rfl (by rintro x ⟨⟩; exact hexp))) hown
    rw [runKeyExport, keyLen_opened h, pByte, hb, runAtomic_quorum hchecks (maskBad_unmasked hm) (o := (asCmd s 0x0207 r).owner.toNat) (resources := fun d => [rngCheck d]) hq (rngCheck_ready hrng') hcl, keyFor_kept h hkey, BitVec.ofNat_toNat, BitVec.setWidth_eq]
    rfl
  case put =>
    refine (onDev_command_run hrun _ _).trans ?_
    rw [runKeyAonPut, keyLen_opened h, useQuorum_opened h hq, runAtomic_pass (putChecks_opened h hp hlen haon hcap) (maskBad_unmasked hm) (roomChecks_opened hrng hroom) hcl, keyFor_kept h (key_claimed hcl), hb]
    rfl
  case publicKey =>
    refine (onDev_command_run hrun _ _).trans ?_
    have hne : (k.type == 0x40) = false := beq_eq_false_iff_ne.mpr ht
    have hdl : pWord (asCmd s 0x020A r) 0 = 0 := pWord_asCmd (a := []) (l := []) (by rw [hp]; rfl) rfl (by decide)
    have hplan := planPublic_opened (op := 0x020A) h hdl
    have hparse : parse (asCmd s 0x020A r) 4 [] [(0, false)] = none := parse_counted (m := []) (by rw [hp]; rfl)
    have hchecks := firstFail_append_none (keyPre_opened (op := 0x020A) (values := true) h hparse rfl hcap) (publicChecks_opened (op := 0x020A) h hpub hne)
    rw [runKeyPublic_atomic (by rw [keyType_opened h, hne]) hplan, useQuorum_opened h hq,
      runAtomic_pass hchecks (maskBad_unmasked hm) (rngCheck_ready hrng) hcl, keyFor_kept h (key_claimed hcl)]
    rfl
  case wrapMasked =>
    refine (onDev_command_run hrun _ _).trans ?_
    rw [runKeyWrap, keyLen_opened h, useQuorum_opened h hq, runAtomic_masked (wrapChecks_opened h hp haon hcap) (maskBad_masked hm (by simp [readsKey])) (rngCheck_ready hrng) hcl]
  case putMasked =>
    refine (onDev_command_run hrun _ _).trans ?_
    rw [runKeyAonPut, keyLen_opened h, useQuorum_opened h hq, runAtomic_masked (putChecks_opened h hp hlen haon hcap) (maskBad_masked hm (by simp [readsKey])) (roomChecks_opened hrng hroom) hcl]

end Sys2Proof.Machine
end

section
/-! Key commands that put a key into a slot. -/

namespace Sys2Proof.Machine

open Sys2Proof.Safety

/-! ### Fields of a byte string -/

section
variable {p a l : Bytes} {off : Nat}

theorem half_field {x : Half} (hp : p = a ++ (b2 x ++ l)) (ha : a.length = off) : half p off = x := by
  rw [half, leAt_field (len := 2) hp ha x.isLt, BitVec.ofNat_toNat, BitVec.setWidth_eq]

theorem word_field {x : Word} (hp : p = a ++ (b4 x ++ l)) (ha : a.length = off) : word p off = x := by
  rw [word, leAt_field (len := 4) hp ha x.isLt, BitVec.ofNat_toNat, BitVec.setWidth_eq]

theorem byteAt_field {x : Byte} (hp : p = a ++ (x :: l)) (ha : a.length = off) : byteAt p off = x := by
  subst hp ha
  simp [byteAt]

theorem length_packHeader {t : Byte} {u : Half} {len : Nat} {src dst : Byte} : (packHeader t u len src dst).length = 16 := by
  simp [packHeader, b2, zeros]

end

/-! ### The parameters of KEY_IMPORT -/

/-- The parameters of KEY_IMPORT in form `f` with a data field. -/
def importParams (f t : Byte) (u : Half) (len : Nat) (y : Byte) (w : Word) (data : Bytes) : Bytes :=
  [f, t] ++ b2 u ++ leBytes 2 len ++ [y, 0] ++ b4 w ++ leBytes 4 data.length ++ data

section
variable {f t y : Byte} {u : Half} {len : Nat} {w : Word} {data : Bytes}

theorem import_form : byteAt (importParams f t u len y w data) 0 = f := rfl

theorem import_type : byteAt (importParams f t u len y w data) 1 = t := rfl

theorem import_usage : half (importParams f t u len y w data) 2 = u :=
  half_field (a := [f, t]) (l := leBytes 2 len ++ ([y, 0] ++ (b4 w ++ (leBytes 4 data.length ++ data)))) (by simp only [importParams, List.append_assoc]) rfl

theorem import_len (h : len < 65536) : leAt (importParams f t u len y w data) 4 2 = len :=
  leAt_field (a := [f, t] ++ b2 u) (l := [y, 0] ++ (b4 w ++ (leBytes 4 data.length ++ data))) (by simp only [importParams, List.append_assoc]) rfl h

theorem import_source : byteAt (importParams f t u len y w data) 6 = y :=
  byteAt_field (a := [f, t] ++ b2 u ++ leBytes 2 len) (l := [0] ++ (b4 w ++ (leBytes 4 data.length ++ data))) (by simp only [importParams, List.append_assoc, List.cons_append, List.nil_append]) rfl

theorem import_key : word (importParams f t u len y w data) 8 = w :=
  word_field (a := [f, t] ++ b2 u ++ leBytes 2 len ++ [y, 0]) (l := leBytes 4 data.length ++ data) (by simp only [importParams, List.append_assoc]) rfl

theorem import_count (h : data.length < 2 ^ 32) : leAt (importParams f t u len y w data) 12 4 = data.length :=
  leAt_field (a := [f, t] ++ b2 u ++ leBytes 2 len ++ [y, 0] ++ b4 w) (l := data) (by simp only [importParams, List.append_assoc]) rfl h

theorem import_data : slice (importParams f t u len y w data) 16 data.length = data :=
  slice_field (a := [f, t] ++ b2 u ++ leBytes 2 len ++ [y, 0] ++ b4 w ++ leBytes 4 data.length) (l := []) (by simp only [importParams, List.append_assoc, List.append_nil]) rfl rfl

theorem import_zero : slice (importParams f t u len y w data) 7 1 = [0] :=
  slice_field (a := [f, t] ++ b2 u ++ leBytes 2 len ++ [y]) (l := b4 w ++ (leBytes 4 data.length ++ data)) (by simp only [importParams, List.append_assoc, List.cons_append, List.nil_append]) rfl rfl

theorem import_length : (importParams f t u len y w data).length = 16 + data.length := by
  simp [importParams, b2, b4]
  omega

end

section
variable {s : State} {op : Nat} {r : Request} {d e q : Dev} {c : Cmd} {i : Nat} {f t y : Byte} {u : Half} {len : Nat} {w : Word} {data k : Bytes}

/-- The value rules of KEY_IMPORT. -/
def importValues (c : Cmd) (f : Nat) (t : Byte) (u : Half) (len y : Nat) (w : Word) (n : Nat) : Bool :=
  noKey c && decide (f ≤ 2) && storedLenOk t len && !usageReserved u && !usageClash t u &&
    (match f with
     | 0 => n == len && w == 0 && y == 0
     | 1 => decide (16 ≤ n) && n % 8 == 0 && y == 0
     | _ => w == 0 && decide (32 ≤ n) && n % 8 == 0)

/-- The checks of KEY_IMPORT. -/
def importChecks (d : Dev) (c : Cmd) (f : Nat) (t : Byte) (u : Half) (len y : Nat) (w : Word) (n : Nat) : List (Bool × Half) :=
  keyPre d c (match parse c 16 [(7, 1)] [(n, f == 0)] with | some st => some st | none => if 1088 < len then some ST.lenRange else none)
    (importValues c f t u len y w n) 4 ++ (if f = 1 then keyChecks d c w isAes (some uUnwrap) else [(!ownerOk d c, ST.denied)])

/-- What KEY_IMPORT does with the data of a wrapped key. -/
def importUnwrap (d : Dev) (c : Cmd) (t : Byte) (u : Half) (len : Nat) (w : Word) (data : Bytes) : Dev × Half × Bytes :=
  match keyFor d c w with
  | none => (d, ST.handleBad, [])
  | some k =>
    let d := touchKey d k.ref
    match Config.kwUnwrap 1 k.bytes data with
    | none => (authFailed d, ST.authFail, [])
    | some x => if x.length ≠ len then (d, ST.blobBad, []) else if formValid t x then landKey d c t u x else (d, ST.algParam, [])

/-- What KEY_IMPORT does with the data of an exported key. -/
def importPack (d : Dev) (c : Cmd) (t : Byte) (u : Half) (len : Nat) (y : Byte) (data : Bytes) : Dev × Half × Bytes :=
  let hd := data.take 16
  if hd != packHeader t u len y (c.owner.setWidth 8) then (d, ST.blobBad, []) else
  match Config.kwUnwrap 1 (ownerKey d "DX48 EXPORT" c.owner.toNat) (data.drop 16) with
  | none => (authFailed d, ST.authFail, [])
  | some x =>
    if x.take 16 != hd || x.length ≠ 16 + len then (d, ST.blobBad, [])
    else if formValid t (x.drop 16) then landKey d c t u (x.drop 16) else (d, ST.algParam, [])

/-- KEY_IMPORT on parameters laid out as its row says. -/
theorem runKeyImport_eq {n : Nat} (hf : f.toNat = n) (hp : c.params = importParams f t u len y w data) (hlen : len < 65536) (hdata : data.length < 2 ^ 32) :
    runKeyImport d c = runAtomic d c (importChecks d c n t u len y.toNat w data.length)
      (if n = 0 then some c.owner.toNat else if n = 1 then useQuorum d c w else none) (fun d => [rngCheck d, slotCheck d c]) 4 fun d =>
      match n with
      | 0 => if formValid t data then landKey d c t u data else (d, ST.algParam, [])
      | 1 => importUnwrap d c t u len w data
      | _ => importPack d c t u len y data := by
  subst hf
  unfold runKeyImport pByte pHalf pWord pVar
  dsimp only
  rw [hp, import_form, import_type, import_usage, import_len hlen, import_source, import_key, import_count hdata, import_data]
  rfl

theorem runKeyImport_plain (hf : f.toNat = 0) (hp : c.params = importParams f t u len y w data) (hlen : len < 65536) (hdata : data.length < 2 ^ 32) :
    runKeyImport d c = runAtomic d c (importChecks d c 0 t u len y.toNat w data.length) (some c.owner.toNat) (fun d => [rngCheck d, slotCheck d c]) 4
      fun d => if formValid t data then landKey d c t u data else (d, ST.algParam, []) :=
  runKeyImport_eq hf hp hlen hdata

theorem runKeyImport_wrapped (hf : f.toNat = 1) (hp : c.params = importParams f t u len y w data) (hlen : len < 65536) (hdata : data.length < 2 ^ 32) :
    runKeyImport d c = runAtomic d c (importChecks d c 1 t u len y.toNat w data.length) (useQuorum d c w) (fun d => [rngCheck d, slotCheck d c]) 4
      fun d => importUnwrap d c t u len w data :=
  runKeyImport_eq hf hp hlen hdata

theorem runKeyImport_packed (hf : f.toNat = 2) (hp : c.params = importParams f t u len y w data) (hlen : len < 65536) (hdata : data.length < 2 ^ 32) :
    runKeyImport d c = runAtomic d c (importChecks d c 2 t u len y.toNat w data.length) none (fun d => [rngCheck d, slotCheck d c]) 4
      fun d => importPack d c t u len y data :=
  runKeyImport_eq hf hp hlen hdata

/-- An exported key under the header that its parameters give. -/
theorem importPack_header {o : Byte} (ho : (c.owner.setWidth 8 : Byte) = o) : importPack d c t u len y (packHeader t u len y o ++ data) =
    match Config.kwUnwrap 1 (ownerKey d "DX48 EXPORT" c.owner.toNat) data with
    | none => (authFailed d, ST.authFail, [])
    | some x => if x.take 16 ≠ packHeader t u len y o ∨ x.length ≠ 16 + len then (d, ST.blobBad, [])
      else if formValid t (x.drop 16) then landKey d c t u (x.drop 16) else (d, ST.algParam, []) := by
  rw [importPack, List.take_left' length_packHeader, List.drop_left' length_packHeader, ho]
  simp only [bne_self_eq_false, Bool.false_eq_true, if_false, Bool.or_eq_true, bne_iff_ne, decide_eq_true_eq] <;> rfl

theorem parse_import {m : Bool} (hp : c.params = importParams f t u len y w data) (hm : m = true → data.length ≤ 1088) : parse c 16 [(7, 1)] [(data.length, m)] = none := by
  rw [parse_variable (by rw [hp, import_length]; omega) (by rw [hp]; simp [import_zero, allZero]), hp, import_length, Nat.add_sub_cancel_left]
  cases m with
  | false => exact parseVars_one _
  | true => simp [parseVars, hm rfl]

/-- Only the wrapped form reads a key (07 R136). -/
theorem import_unread (hp : r.params = importParams f t u len y w data) (hf : f.toNat ≠ 1) : readsKey (asCmd s 0x0202 r) = false := by
  have hform : pByte (asCmd s 0x0202 r) 0 = f.toNat := by rw [pByte, show (asCmd s 0x0202 r).params = _ from hp, import_form]
  simp [readsKey, hform, hf]

/-- A key that finds a free slot lands in it. -/
theorem landKey_free (hi : pickSlot d = some i) :
    landKey d c t u k = (storeKey { d with rng := d.rng + 1 } i t u (c.owner.setWidth 8) (chargeOf c.issuer) k, ST.ok, b4 (mkHandle false (c.owner.setWidth 8 : Byte).toNat (genOf d i) i)) := by
  rw [landKey, loadKey, hi]
  rfl

/-- The checks and resources every filling command needs. -/
theorem slotPre_opened {parsed : Option Half} {values : Bool} {res : Nat} (h : opensSlot s op r) (hp : parsed = none) (hv : values = true) (hres : res ≤ r.dataCap) :
    firstFail (keyPre (took s op r) (asCmd s op r) parsed values res) = none := by
  obtain ⟨-, hi, hstate, htable, -⟩ := h
  exact preChecks_took (listedPV hi) hstate (.inl htable) hp hv hres

theorem ownerOk_opened (h : opensSlot s op r) : ownerOk (took s op r) (asCmd s op r) = true := by
  obtain ⟨-, -, -, -, howner, hbound, -⟩ := h
  exact Bool.and_eq_true_iff.mpr ⟨howner, hbound⟩

theorem slotResources_opened (h : opensSlot s op r) : firstFail [rngCheck (took s op r), slotCheck (took s op r) (asCmd s op r)] = none := by
  obtain ⟨-, -, -, -, -, -, hrng, hslot⟩ := h
  exact firstFail_append_none (a := [_]) (rngCheck_ready hrng) (by rw [firstFail, hslot, if_neg Bool.false_ne_true]; rfl)

theorem importChecks_opened {n : Nat} (hf : f.toNat = n) (h : opensSlot s op r) (hp : r.params = importParams f t u len y w data) (hlen : len ≤ 1088) (hm : n = 0 → data.length ≤ 1088)
    (hv : importValues (asCmd s op r) n t u len y.toNat w data.length = true) (hcap : 4 ≤ r.dataCap)
    (hk : n = 1 → firstFail (keyChecks (took s op r) (asCmd s op r) w isAes (some uUnwrap)) = none) :
    firstFail (importChecks (took s op r) (asCmd s op r) n t u len y.toNat w data.length) = none := by
  refine firstFail_append_none (slotPre_opened h ?_ hv hcap) ?_
  · rw [parse_import (m := n == 0) hp (fun he => hm (beq_iff_eq.mp he)), if_neg (by omega)]
  · split
    · exact hk ‹_›
    · rw [ownerOk_opened h]
      rfl

/-- The parameters of KEY_GENERATE. -/
theorem generate_parts {size : Half} (hp : r.params = [t, 0] ++ b2 u ++ b2 size ++ [0, 0]) :
    byteAt r.params 0 = t ∧ half r.params 2 = u ∧ leAt r.params 4 2 = size.toNat ∧ parse (asCmd s op r) 8 [(1, 1), (6, 2)] = none := by
  refine ⟨by rw [hp]; rfl, half_field (a := [t, 0]) (l := b2 size ++ [0, 0]) (by rw [hp]; simp only [List.append_assoc]) rfl,
    leAt_field (len := 2) (a := [t, 0] ++ b2 u) (l := [0, 0]) (by rw [hp]; simp only [List.append_assoc]; rfl) rfl size.isLt,
    parse_zeros (by rw [(asCmd_fields s op r).2.2.2.2.2.1, hp]; rfl) ?_⟩
  rw [(asCmd_fields s op r).2.2.2.2.2.1, hp]
  simp [slice, allZero, b2, leBytes]

/-- KEY_GENERATE of a type that needs no engine. -/
theorem runKeyGenerate_eq {size : Nat} (ht : byteAt c.params 0 = t) (hu : half c.params 2 = u) (hs : leAt c.params 4 2 = size) (hsym : (isSym t || t == 0x40) = true) :
    runKeyGenerate d c = runAtomic d c
      (keyPre d c (parse c 8 [(1, 1), (6, 2)]) (noKey c && genSizeOk t size && !usageReserved u && !usageClash t u) 8 ++ [(!ownerOk d c, ST.denied)])
      none (fun d => [rngCheck d, slotCheck d c]) 8 fun d =>
      (fun r : Dev × Half × Bytes => (r.1, r.2.1, if r.2.2.isEmpty then [] else r.2.2 ++ zeros 4)) (landKey (draw d (genLen t size)).2 c t u (draw d (genLen t size)).1) := by
  unfold runKeyGenerate planGenerate pHalf genPub
  dsimp only
  rw [ht, hu, hs, hsym]
  rfl

end

/-! ### The parameters of KEY_LOAD -/

/-- The 48-byte header of a wrapped key (07). -/
def blobHead (t : Byte) (u : Half) (len : Nat) (o mode lc : Byte) (iv hint serial : Bytes) : Bytes :=
  b2 0xB401 ++ [t, 0] ++ b2 u ++ leBytes 2 len ++ [o, mode, lc, 0] ++ iv ++ hint ++ serial ++ zeros 8

section
variable {t o mode lc : Byte} {u : Half} {len : Nat} {iv hint serial ct tag b : Bytes}

/-- A wrapped key as its parameters hold it. -/
structure Blob (b : Bytes) (t : Byte) (u : Half) (len : Nat) (o mode lc : Byte) (iv hint serial ct tag : Bytes) : Prop where
  params : b = blobHead t u len o mode lc iv hint serial ++ ct ++ tag
  iv : iv.length = 12
  hint : hint.length = 8
  serial : serial.length = 8
  body : ct.length = len
  short : len ≤ 1088
  tag : tag.length = 16

namespace Blob

variable (h : Blob b t u len o mode lc iv hint serial ct tag)
include h

theorem head_length : (blobHead t u len o mode lc iv hint serial).length = 48 := by
  simp [blobHead, b2, zeros, h.iv, h.hint, h.serial]

theorem length : b.length = 64 + len := by
  rw [h.params, List.length_append, List.length_append, h.head_length, h.body, h.tag]
  omega

theorem len_at : leAt b 6 2 = len :=
  leAt_field (a := b2 0xB401 ++ [t, 0] ++ b2 u) (l := [o, mode, lc, 0] ++ iv ++ hint ++ serial ++ zeros 8 ++ ct ++ tag) (by rw [h.params]; simp only [blobHead, List.append_assoc]) rfl
    (Nat.lt_of_le_of_lt h.short (by decide))

theorem type_at : byteAt b 2 = t := by rw [h.params]; rfl

theorem magic_at : half b 0 = 0xB401 :=
  half_field (a := []) (l := [t, 0] ++ b2 u ++ leBytes 2 len ++ [o, mode, lc, 0] ++ iv ++ hint ++ serial ++ zeros 8 ++ ct ++ tag) (by rw [h.params]; simp only [blobHead, List.append_assoc, List.nil_append]) rfl

theorem usage_at : half b 4 = u :=
  half_field (a := b2 0xB401 ++ [t, 0]) (l := leBytes 2 len ++ [o, mode, lc, 0] ++ iv ++ hint ++ serial ++ zeros 8 ++ ct ++ tag) (by rw [h.params]; simp only [blobHead, List.append_assoc]) rfl

theorem zero_at : byteAt b 3 = 0 := by rw [h.params]; rfl

theorem owner_at : byteAt b 8 = o := by rw [h.params]; rfl

theorem mode_at : byteAt b 9 = mode := by rw [h.params]; rfl

theorem state_at : byteAt b 10 = lc := by rw [h.params]; rfl

theorem reserved_at : byteAt b 11 = 0 := by rw [h.params]; rfl

theorem iv_at : slice b 12 12 = iv :=
  slice_field (a := b2 0xB401 ++ [t, 0] ++ b2 u ++ leBytes 2 len ++ [o, mode, lc, 0]) (l := hint ++ serial ++ zeros 8 ++ ct ++ tag) (by rw [h.params]; simp only [blobHead, List.append_assoc]) rfl h.iv

theorem hint_at : slice b 24 8 = hint :=
  slice_field (a := b2 0xB401 ++ [t, 0] ++ b2 u ++ leBytes 2 len ++ [o, mode, lc, 0] ++ iv) (l := serial ++ zeros 8 ++ ct ++ tag) (by rw [h.params]; simp only [blobHead, List.append_assoc])
    (by rw [List.length_append, h.iv]; rfl) h.hint

theorem tail_at : slice b 40 8 = zeros 8 :=
  slice_field (a := b2 0xB401 ++ [t, 0] ++ b2 u ++ leBytes 2 len ++ [o, mode, lc, 0] ++ iv ++ hint ++ serial) (l := ct ++ tag) (by rw [h.params]; simp only [blobHead, List.append_assoc])
    (by rw [List.length_append, List.length_append, List.length_append, h.iv, h.hint, h.serial]; rfl) rfl

theorem head_at : b.take 48 = blobHead t u len o mode lc iv hint serial := by
  rw [h.params, List.append_assoc, List.take_left' h.head_length]

theorem body_at : slice b 48 len = ct := slice_field (by rw [h.params, List.append_assoc]) h.head_length h.body

theorem tag_at : slice b (48 + len) 16 = tag :=
  slice_field (a := blobHead t u len o mode lc iv hint serial ++ ct) (l := []) (by rw [h.params, List.append_nil]) (by rw [List.length_append, h.head_length, h.body]) h.tag

end Blob

end

section
variable {s : State} {op : Nat} {r : Request} {d e : Dev} {c : Cmd} {i : Nat} {t o mode lc : Byte} {u : Half} {len : Nat} {iv hint serial ct tag k : Bytes}

/-- The checks of KEY_LOAD. -/
def loadChecks (d : Dev) (c : Cmd) (t : Byte) (u : Half) (len : Nat) (o mode lc : Byte) (hint : Bytes) : List (Bool × Half) :=
  keyPre d c (if 8 ≤ c.params.length && decide (1088 < len ∨ c.params.length < 48 + len) then some ST.lenRange else none) (noKey c) 4 ++
    [(c.params.length != 64 + len || !storedLenOk t len || (0xB401 : Half) != 0xB401 || (0 : Byte) != 0 || (0 : Byte) != 0 || usageReserved u || !allZero (zeros 8), ST.blobBad),
     (!ownerOk d c || o.toNat != c.owner.toNat, ST.denied),
     ((match ownerOf d o.toNat with | some w => mode != w.mode | none => true) || lc != lcByte d, ST.blobBad),
     (mode == 1 && hint != d.key.fwMeas.take 8, ST.blobFw),
     rngCheck d, slotCheck d c]

/-- What KEY_LOAD does once its checks have passed. -/
def loadBlob (d : Dev) (c : Cmd) (t : Byte) (u : Half) (o : Nat) (iv head ct tag : Bytes) : Dev × Half × Bytes :=
  match reserveSlot d c.issuer t u (c.owner.setWidth 8) with
  | none => (d, ST.slotQuota, [])
  | some (s, d) =>
    match Config.gcmOpen (ownerKey d "DX48 BLOB" o) iv head ct tag with
    | none => (freeSlot d s, ST.blobBad, [])
    | some k => let r := fillSlot d s k; (r.2, ST.ok, b4 r.1)

/-- KEY_LOAD of a wrapped key laid out as 07 says. -/
theorem runKeyLoad_eq (h : Blob c.params t u len o mode lc iv hint serial ct tag) :
    runKeyLoad d c = runAtomic d c (loadChecks d c t u len o mode lc hint) none (fun _ => []) 4
      fun d => loadBlob d c t u o.toNat iv (blobHead t u len o mode lc iv hint serial) ct tag := by
  unfold runKeyLoad pZero
  dsimp only
  rw [h.len_at, h.type_at, h.magic_at, h.usage_at, h.zero_at, h.owner_at, h.mode_at, h.state_at, h.reserved_at, h.iv_at, h.hint_at, h.tail_at, h.head_at, h.body_at, h.tag_at]
  rfl

theorem loadChecks_opened {w : Owner} (h : opensSlot s op r) (hb : Blob r.params t u len o mode s.lc.state iv hint serial ct tag) (hkey : r.key = 0) (ho : o.toNat = r.ownerId.toNat)
    (hw : ownerOf s.toDev r.ownerId.toNat = some w) (hmode : mode = w.mode) (hstored : storedLenOk t len = true) (hu : usageReserved u = false) (hfw : w.mode = 1 → hint = s.key.fwMeas.take 8)
    (hcap : 4 ≤ r.dataCap) : firstFail (loadChecks (took s op r) (asCmd s op r) t u len o mode s.lc.state hint) = none := by
  have hlen : (asCmd s op r).params.length = 64 + len := hb.length
  have hshort := hb.short
  refine firstFail_append_none (slotPre_opened h ?_ ?_ hcap) ?_
  · rw [hlen, if_neg]
    simp
    omega
  · rw [noKey, show (asCmd s op r).key = 0 from hkey]
    rfl
  · refine firstFail_append_none (a := [_]) ?_ (firstFail_append_none (a := [_]) ?_ (firstFail_append_none (a := [_]) ?_ (firstFail_append_none (a := [_]) ?_ (slotResources_opened h))))
    · rw [hlen, hstored, hu]
      simp [firstFail, allZero, zeros]
    · rw [ownerOk_opened h, ho, show (asCmd s op r).owner = r.ownerId from rfl]
      simp [firstFail]
    · rw [ho, show ownerOf (took s op r) r.ownerId.toNat = some w from hw, hmode, show lcByte (took s op r) = s.lc.state from rfl]
      simp [firstFail]
    · have hbad : (mode == 1 && hint != (took s op r).key.fwMeas.take 8) = false := by
        rw [hmode]
        by_cases h1 : w.mode = 1
        · rw [hfw h1]
          simp [took]
        · rw [beq_eq_false_iff_ne.mpr h1, Bool.false_and]
      rw [hbad]
      rfl

/-- A wrapped key that opens fills the slot reserved for it. -/
theorem loadBlob_free {owner : Nat} {head : Bytes} (hi : pickSlot d = some i) :
    loadBlob d c t u owner iv head ct tag = match Config.gcmOpen (ownerKey d "DX48 BLOB" owner) iv head ct tag with
      | none => (freeSlot { d with rng := d.rng + 1, key := { d.key with slots := tset d.key.slots i { type := t, usage := u, owner := c.owner.setWidth 8, charge := chargeOf c.issuer, masked := [], mask := [], reserved := true } } } i, ST.blobBad, [])
      | some k => (storeKey { d with rng := d.rng + 1 } i t u (c.owner.setWidth 8) (chargeOf c.issuer) k, ST.ok, b4 (mkHandle false (c.owner.setWidth 8 : Byte).toNat (genOf d i) i)) := by
  rw [loadBlob, reserveSlot, hi]
  simp only [Option.map_some, fillSlot, tget_tset_self, Bool.false_eq_true, if_false, storeKey, draw, tset_tset] <;> rfl

theorem usage_clear (h : (u &&& 0xF000) = 0) : usageReserved u = false := by
  rw [usageReserved, h]
  rfl

end

/-- Settles O8: the parameters read back as they are laid out, the checks pass, and the key lands in the slot the draw gives. -/
theorem keyCommandsFillASlot : Obligations.KeyCommandsFillASlot := by
  intro r s d i t u hu hclash
  refine ⟨fun size h hkey hp ht hsize hcap hcl hi => ?generate, fun k q hkey hp hlen hstored hvalid h hcap hq hcl hi => ?plain,
    fun w hd len x hw hm hkey hp hx hlen hstored hx16 hx8 haes huse hquorum h hcap hcl hi => ?wrapped,
    fun src len x h hkey hp hx hlen hstored hx16 hx8 hcap hcl hi => ?packed,
    fun w h' iv hint serial ct tag h hw hkey hh hiv hhint hserial htag hp howner hlen hstored hfw hcap hcl hi => ?load⟩
  case generate =>
    refine (onDev_command_run h.1 _ _).trans ?_
    obtain ⟨h0, h2, h4, hparse⟩ := generate_parts (s := s) (op := 0x0201) hp
    have hsym : (isSym t || t == 0x40) = true := by
      rcases ht with ht | ht
      · rw [ht, Bool.true_or]
      · rw [ht]; rfl
    have hv : (noKey (asCmd s 0x0201 r) && genSizeOk t size.toNat && !usageReserved u && !usageClash t u) = true := by
      rw [hsize, usage_clear hu, hclash, noKey, show (asCmd s 0x0201 r).key = 0 from hkey]
      rfl
    have hchecks := firstFail_append_none (b := [(!ownerOk (took s 0x0201 r) (asCmd s 0x0201 r), ST.denied)]) (slotPre_opened h hparse hv hcap) (by rw [ownerOk_opened h]; rfl)
    rw [runKeyGenerate_eq h0 h2 h4 hsym, runAtomic_pass hchecks (maskBad_of (by simp [readsKey])) (slotResources_opened h) hcl, landKey_free hi]
    rfl
  case plain =>
    refine (onDev_command_run h.1 _ _).trans ?_
    obtain ⟨x, hx⟩ := quorumGate_opened hq
    have hp' : r.params = importParams 0 t u k.length 0 0 k := hp
    have hchecks := importChecks_opened (op := 0x0202) (n := 0) rfl h hp' hlen (fun _ => hlen) (by simp [importValues, noKey, hkey, hstored, usage_clear hu, hclash]) hcap (by simp)
    have hres : firstFail [rngCheck q, slotCheck q (asCmd s 0x0202 r)] = none := by
      rw [hx]
      exact slotResources_opened h
    have hmask : maskBad (asCmd s 0x0202 r) = false := maskBad_of (import_unread hp' (by simp))
    rw [runKeyImport_plain rfl hp' (by omega) (by omega), runAtomic_quorum hchecks hmask (o := (asCmd s 0x0202 r).owner.toNat) (resources := fun d => [rngCheck d, slotCheck d _]) hq hres hcl, if_pos hvalid, landKey_free hi]
    rfl
  case wrapped =>
    refine (onDev_command_run h.1 _ _).trans ?_
    have hp' : r.params = importParams 1 t u len.toNat 0 hd x := hp
    have hkeys : firstFail (keyChecks (took s 0x0202 r) (asCmd s 0x0202 r) hd isAes (some uUnwrap)) = none := by
      obtain ⟨-, hi, -, -, howner, hbound, hh, hf, hko⟩ := hw
      exact keyChecks_pass hi howner hbound hh hf hko haes (by rintro x ⟨⟩; exact huse)
    have hchecks := importChecks_opened (op := 0x0202) (n := 1) rfl h hp' hlen (by simp) (by simp [importValues, noKey, hkey, hstored, usage_clear hu, hclash, hx16, hx8]) hcap (fun _ => hkeys)
    have hf : ∀ e : Dev, e.key = s.key → keyFor e (asCmd s 0x0202 r) hd = some w := fun e he => by
      obtain ⟨-, hi, -, -, -, -, -, hf, -⟩ := hw
      rw [keyFor_pv (c := asCmd s 0x0202 r) hi, findKey_congr (d := s.toDev) (d' := e) he]
      exact hf
    rw [runKeyImport_wrapped rfl hp' (by omega) hx, useQuorum_none (hf (took s 0x0202 r) rfl) hquorum, runAtomic_pass hchecks (maskBad_unmasked hm) (slotResources_opened h) hcl, importUnwrap, hf d (key_claimed hcl)]
    cases hopen : Config.kwUnwrap 1 w.bytes x with
    | none =>
      dsimp only
      rw [hopen]
      rfl
    | some k =>
      dsimp only
      rw [hopen]
      by_cases hl : k.length = len.toNat
      · cases hform : formValid t k with
        | false => simp only [hl, hform, ne_eq, not_true_eq_false, Bool.false_eq_true, if_false] <;> rfl
        | true => simp only [hl, hform, ne_eq, not_true_eq_false, if_false, if_true, landKey_free hi] <;> rfl
      · simp only [hl, ne_eq, not_false_eq_true, if_true] <;> rfl
  case packed =>
    refine (onDev_command_run h.1 _ _).trans ?_
    have hp' : r.params = importParams 2 t u len.toNat src 0 (packHeader t u len.toNat src (r.ownerId.setWidth 8) ++ x) := by
      rw [hp, importParams, List.length_append, length_packHeader, List.append_assoc _ _ x]
      rfl
    have hcount : (packHeader t u len.toNat src (r.ownerId.setWidth 8) ++ x).length = 16 + x.length := by rw [List.length_append, length_packHeader]
    have hchecks := importChecks_opened (op := 0x0202) (n := 2) rfl h hp' hlen (by simp) (by simp [importValues, noKey, hkey, hstored, usage_clear hu, hclash, hcount, hx16]; omega) hcap (by simp)
    have hmask : maskBad (asCmd s 0x0202 r) = false := maskBad_of (import_unread hp' (by simp))
    rw [runKeyImport_packed rfl hp' (by omega) (by omega), runAtomic_pass hchecks hmask (slotResources_opened h) hcl, importPack_header (c := asCmd s 0x0202 r) (o := r.ownerId.setWidth 8) rfl]
    rw [show ownerKey d "DX48 EXPORT" (asCmd s 0x0202 r).owner.toNat = ownerKey d "DX48 EXPORT" r.ownerId.toNat from rfl]
    cases hopen : Config.kwUnwrap 1 (ownerKey d "DX48 EXPORT" r.ownerId.toNat) x with
    | none => rfl
    | some k =>
      dsimp only
      by_cases hbad : k.take 16 ≠ packHeader t u len.toNat src (r.ownerId.setWidth 8) ∨ k.length ≠ 16 + len.toNat
      · rw [if_pos hbad, if_pos hbad]
        rfl
      · rw [if_neg hbad, if_neg hbad]
        cases hform : formValid t (k.drop 16) with
        | false => rfl
        | true =>
          rw [if_pos rfl, if_pos rfl, landKey_free hi]
          rfl
  case load =>
    refine (onDev_command_run h.1 _ _).trans ?_
    have hhead : h' = blobHead t u ct.length (r.ownerId.setWidth 8) w.mode s.lc.state iv hint serial := hh
    have ho : (r.ownerId.setWidth 8 : Byte).toNat = r.ownerId.toNat := by
      rw [BitVec.toNat_setWidth]
      omega
    have hb : Blob r.params t u ct.length (r.ownerId.setWidth 8) w.mode s.lc.state iv hint serial ct tag := ⟨by rw [hp, hhead], hiv, hhint, hserial, rfl, hlen, htag⟩
    have hchecks := loadChecks_opened h hb hkey ho hw rfl hstored (usage_clear hu) hfw hcap
    rw [runKeyLoad_eq (c := asCmd s 0x0203 r) hb, ho, runAtomic_pass hchecks (maskBad_of (by simp [readsKey])) rfl hcl, ← hhead, loadBlob_free hi]
    cases Config.gcmOpen (ownerKey d "DX48 BLOB" r.ownerId.toNat) iv h' ct tag <;> rfl

end Sys2Proof.Machine
end

section
/-! The gate of every command: the catalogue's issuers, then LOCKED. -/

namespace Sys2Proof.Machine

open Sys2Proof.Safety

section
variable {d e : Dev} {c : Cmd} {who : Who} {ok : Bool} {st : Half}

/-- The first three checks of a command refuse it with `st`. -/
def Refused (d : Dev) (c : Cmd) (who : Who) (ok : Bool) (st : Half) : Prop :=
  firstFail [(policyBad c, ST.denied), (!listed who c.issuer, ST.denied), (!ok, ST.locked)] = some st

theorem failed_left {a b : List (Bool × Half)} (h : firstFail a = some st) : firstFail (a ++ b) = some st := by
  rw [firstFail_append, h]

theorem refused_pre {parsed : Option Half} {values : Bool} {res : Nat} (h : Refused d c who ok st) : firstFail (preChecks d c who ok parsed values res) = some st :=
  failed_left h

theorem refused_first {l : List (Bool × Half)} (h : firstFail l = some st) :
    (match firstFail l with | some st => finish d c.rid st | none => e) = finish d c.rid st := by
  rw [h]

theorem runPk_refused (h : firstFail (pkPlan d c).pre = some st) : runPk d c = finish d c.rid st := by
  rw [runPk, h]

theorem runKeyGenerate_refused (ho : c.opcode = 0x0201) (h : Refused d c whoPV (stateR d) st) : runKeyGenerate d c = finish d c.rid st := by
  unfold runKeyGenerate
  dsimp only
  split
  · exact runPk_refused (by rw [pkPlan, ho]; exact refused_pre h)
  · exact runAtomic_fail (failed_left (refused_pre h))

theorem runKeyPublic_refused (ho : c.opcode = 0x020A) (h : Refused d c whoPV (stateR d) st) : runKeyPublic d c = finish d c.rid st := by
  unfold runKeyPublic
  split
  · exact runPk_refused (by rw [pkPlan, ho]; exact refused_pre h)
  · exact runAtomic_fail (failed_left (refused_pre h))

theorem symStart_refused (hw : mustWait d c = false) (h : firstFail (symPlan d c).checks = some st) : symStart d c = finish d c.rid st := by
  rw [symStart, hw, if_neg Bool.false_ne_true, runSym, h]

theorem runOwnerDelete_refused (h : Refused d c whoP (stateU d) st) : runOwnerDelete d c = finish d c.rid st := by
  unfold runOwnerDelete
  dsimp only
  split
  · exact refused_first (failed_left (failed_left (refused_pre h)))
  · exact runAtomic_fail (failed_left (refused_pre h))

theorem runSelfTest_refused {f : Nat} (h : Refused d c whoP (stateU d) st) : runSelfTest d c f = finish d c.rid st := by
  unfold runSelfTest
  dsimp only
  split
  · exact refused_first (failed_left (refused_pre h))
  · exact runAtomic_fail (refused_pre h)

/-- LC_RESUME runs in LOCKED too: only its issuer refuses it. -/
theorem runLcResume_refused (h : Refused d c whoP true st) : runLcResume d c = finish d c.rid st := by
  have hfirst : firstFail [(policyBad c, ST.denied), (!listed whoP c.issuer, ST.denied), (!d.lc.resumable, ST.lcIllegal)] = some st := by
    cases hp : policyBad c <;> cases hl : listed whoP c.issuer <;> simp_all [Refused, firstFail]
  exact refused_first (failed_left (failed_left (failed_left hfirst)))

end

/-- LOCKED bars a command whose state rule is `ok` unless its row admits it. -/
def Bars (ok : Dev → Bool) (locked : Bool) : Prop := locked = false → ∀ d : Dev, d.lc.state = 0xEE → ok d = false

theorem bars_stateU : Bars stateU false := fun _ d h => by
  rw [stateU, lcLocked, h]
  rfl

theorem bars_stateR : Bars stateR false := fun _ d h => by
  rw [stateR, h]
  rfl

theorem bars_admitted {ok : Dev → Bool} : Bars ok true := fun h => absurd h (by simp)

/-- A row whose run is refused by the gate behaves as the catalogue says. -/
theorem gated_row {i : Instr} {op : Nat} {r : Request} {who : Who} {locked : Bool} {run : Dev → Cmd → Dev} {f : Nat} (ok : Dev → Bool) (hbar : Bars ok locked)
    (hrun : ∀ d c st, c.opcode = op → mustWait d c = false → Refused d c who (ok d) st → run d c = finish d c.rid st) (s : State)
    (hexec : exec i s = onDev (fun d => command d op r run f) s) (hf : op ≠ 0x0F05 → f = 0) :
    (s.glb.power = .doze ∨ s.glb.power = .standby → ∃ f, (op ≠ 0x0F05 → f = 0) ∧ exec i s = .next (on s (holdAccess s.toDev (.request op r f)))) ∧
    (s.glb.power = .run → mustWait (took s op r) (asCmd s op r) = false →
      (listed who r.issuer = false → exec i s = ends s (took s op r) ST.denied) ∧
      (listed who r.issuer = true → s.lc.state = 0xEE → locked = false → exec i s = ends s (took s op r) ST.locked)) := by
  refine ⟨fun hp => ⟨f, hf, ?_⟩, fun hp hw => ⟨fun hl => ?_, fun hl hlock hadm => ?_⟩⟩
  · rw [hexec, exec_onDev, command_asleep hp]
    rfl
  · rw [hexec, exec_onDev, command_run hp]
    have href : Refused (took s op r) (asCmd s op r) who (ok (took s op r)) ST.denied := by
      rw [Refused, show (asCmd s op r).issuer = r.issuer from rfl, hl]
      rfl
    exact congrArg (fun d => Host.Outcome.next (on s d)) (hrun _ _ _ rfl hw href)
  · rw [hexec, exec_onDev, command_run hp]
    have href : Refused (took s op r) (asCmd s op r) who (ok (took s op r)) ST.locked := by
      rw [Refused, show (asCmd s op r).issuer = r.issuer from rfl, hl, hbar hadm (took s op r) hlock]
      rfl
    exact congrArg (fun d => Host.Outcome.next (on s d)) (hrun _ _ _ rfl hw href)

/-- Settles O5: every row of the catalogue runs its command, whose checks begin with the gate. -/
theorem commandsAreGated : Obligations.CommandsAreGated := by
  intro i s op r who locked hc
  cases i with
  | nop r => cases hc; exact gated_row (run := runNop) (f := 0) stateU bars_stateU (fun _ _ _ _ _ h => refused_first (refused_pre h)) s rfl (by simp)
  | infoDevice r => cases hc; exact gated_row (run := runInfoDevice) (f := 0) stateU bars_stateU (fun _ _ _ _ _ h => by unfold runInfoDevice; exact runAtomic_fail (refused_pre h)) s rfl (by simp)
  | infoStall r => cases hc; exact gated_row (run := runInfoStall) (f := 0) stateU bars_stateU (fun _ _ _ _ _ h => by unfold runInfoStall; exact runAtomic_fail (failed_left (refused_pre h))) s rfl (by simp)
  | keyGenerate r => cases hc; exact gated_row (run := runKeyGenerate) (f := 0) stateR bars_stateR (fun _ _ _ ho _ h => runKeyGenerate_refused ho h) s rfl (by simp)
  | keyImport r => cases hc; exact gated_row (run := runKeyImport) (f := 0) stateR bars_stateR (fun _ _ _ _ _ h => by unfold runKeyImport; exact runAtomic_fail (failed_left (refused_pre h))) s rfl (by simp)
  | keyLoad r => cases hc; exact gated_row (run := runKeyLoad) (f := 0) stateR bars_stateR (fun _ _ _ _ _ h => by unfold runKeyLoad; exact runAtomic_fail (failed_left (refused_pre h))) s rfl (by simp)
  | keyUnload r => cases hc; exact gated_row (run := runKeyUnload) (f := 0) stateR bars_stateR (fun _ _ _ _ _ h => by unfold runKeyUnload; exact runAtomic_fail (failed_left (refused_pre h))) s rfl (by simp)
  | keyWrap r => cases hc; exact gated_row (run := runKeyWrap) (f := 0) stateR bars_stateR (fun _ _ _ _ _ h => by unfold runKeyWrap; exact runAtomic_fail (failed_left (refused_pre h))) s rfl (by simp)
  | keySetUsage r => cases hc; exact gated_row (run := runKeySetUsage) (f := 0) stateR bars_stateR (fun _ _ _ _ _ h => by unfold runKeySetUsage; exact runAtomic_fail (failed_left (failed_left (refused_pre h)))) s rfl (by simp)
  | keyExport r => cases hc; exact gated_row (run := runKeyExport) (f := 0) stateR bars_stateR (fun _ _ _ _ _ h => by unfold runKeyExport; exact runAtomic_fail (failed_left (failed_left (refused_pre h)))) s rfl (by simp)
  | keyAonPut r => cases hc; exact gated_row (run := runKeyAonPut) (f := 0) stateR bars_stateR (fun _ _ _ _ _ h => by unfold runKeyAonPut; exact runAtomic_fail (failed_left (refused_pre h))) s rfl (by simp)
  | keyInfo r => cases hc; exact gated_row (run := runKeyInfo) (f := 0) stateR bars_stateR (fun _ _ _ _ _ h => by unfold runKeyInfo; exact runAtomic_fail (failed_left (refused_pre h))) s rfl (by simp)
  | keyPublic r => cases hc; exact gated_row (run := runKeyPublic) (f := 0) stateR bars_stateR (fun _ _ _ ho _ h => runKeyPublic_refused ho h) s rfl (by simp)
  | pkSign r => cases hc; exact gated_row (run := runPk) (f := 0) stateR bars_stateR (fun _ _ _ ho _ h => runPk_refused (by rw [pkPlan, ho]; exact refused_pre h)) s rfl (by simp)
  | pkVerify r => cases hc; exact gated_row (run := runPk) (f := 0) stateR bars_stateR (fun _ _ _ ho _ h => runPk_refused (by rw [pkPlan, ho]; exact refused_pre h)) s rfl (by simp)
  | pkEncaps r => cases hc; exact gated_row (run := runPk) (f := 0) stateR bars_stateR (fun _ _ _ ho _ h => runPk_refused (by rw [pkPlan, ho]; exact refused_pre h)) s rfl (by simp)
  | pkDecaps r => cases hc; exact gated_row (run := runPk) (f := 0) stateR bars_stateR (fun _ _ _ ho _ h => runPk_refused (by rw [pkPlan, ho]; exact refused_pre h)) s rfl (by simp)
  | pkAgree r => cases hc; exact gated_row (run := runPk) (f := 0) stateR bars_stateR (fun _ _ _ ho _ h => runPk_refused (by rw [pkPlan, ho]; exact refused_pre h)) s rfl (by simp)
  | pkMacRun r => cases hc; exact gated_row (run := runPk) (f := 0) stateR bars_stateR (fun _ _ _ ho _ h => runPk_refused (by rw [pkPlan, ho]; exact refused_pre h)) s rfl (by simp)
  | symCipher r => cases hc; exact gated_row (run := symStart) (f := 0) stateR bars_stateR (fun _ _ _ ho hw h => symStart_refused hw (by rw [symPlan, ho]; exact failed_left (failed_left (refused_pre h)))) s rfl (by simp)
  | symMac r => cases hc; exact gated_row (run := symStart) (f := 0) stateR bars_stateR (fun _ _ _ ho hw h => symStart_refused hw (by rw [symPlan, ho]; exact failed_left (refused_pre h))) s rfl (by simp)
  | hash r => cases hc; exact gated_row (run := symStart) (f := 0) stateU bars_stateU (fun _ _ _ ho hw h => symStart_refused hw (by rw [symPlan, ho]; exact refused_pre h)) s rfl (by simp)
  | symKdf r => cases hc; exact gated_row (run := symStart) (f := 0) stateR bars_stateR (fun _ _ _ ho hw h => symStart_refused hw (by rw [symPlan, ho]; exact failed_left (refused_pre h))) s rfl (by simp)
  | symKw r => cases hc; exact gated_row (run := symStart) (f := 0) stateR bars_stateR (fun _ _ _ ho hw h => symStart_refused hw (by rw [symPlan, ho]; exact failed_left (refused_pre h))) s rfl (by simp)
  | symRng r => cases hc; exact gated_row (run := symStart) (f := 0) stateU bars_stateU (fun _ _ _ ho hw h => symStart_refused hw (by rw [symPlan, ho]; exact refused_pre h)) s rfl (by simp)
  | ownerCreate r => cases hc; exact gated_row (run := runOwnerCreate) (f := 0) stateU bars_stateU (fun _ _ _ _ _ h => by unfold runOwnerCreate; exact runAtomic_fail (failed_left (failed_left (failed_left h)))) s rfl (by simp)
  | ownerDelete r => cases hc; exact gated_row (run := runOwnerDelete) (f := 0) stateU bars_stateU (fun _ _ _ _ _ h => runOwnerDelete_refused h) s rfl (by simp)
  | ownerBind r => cases hc; exact gated_row (run := runOwnerBind) (f := 0) stateU bars_stateU (fun _ _ _ _ _ h => by unfold runOwnerBind; exact runAtomic_fail (failed_left (refused_pre h))) s rfl (by simp)
  | ownerUnbind r => cases hc; exact gated_row (run := runOwnerUnbind) (f := 0) stateU bars_stateU (fun _ _ _ _ _ h => by unfold runOwnerUnbind; exact runAtomic_fail (failed_left (refused_pre h))) s rfl (by simp)
  | ownerSetPolicy r => cases hc; exact gated_row (run := runOwnerSetPolicy) (f := 0) stateU bars_stateU (fun _ _ _ _ _ h => by unfold runOwnerSetPolicy; exact runAtomic_fail (failed_left (refused_pre h))) s rfl (by simp)
  | quorumStatus r => cases hc; exact gated_row (run := runQuorumStatus) (f := 0) stateU bars_stateU (fun _ _ _ _ _ h => by unfold runQuorumStatus; exact runAtomic_fail (refused_pre h)) s rfl (by simp)
  | quorumCancel r => cases hc; exact gated_row (run := runQuorumCancel) (f := 0) stateU bars_stateU (fun _ _ _ _ _ h => by unfold runQuorumCancel; exact runAtomic_fail (refused_pre h)) s rfl (by simp)
  | bwLoadManifest r => cases hc; exact gated_row (run := runBwLoadManifest) (f := 0) stateU bars_stateU (fun _ _ _ _ _ h => by unfold runBwLoadManifest; exact runAtomic_fail (failed_left (refused_pre h))) s rfl (by simp)
  | bwSeal r => cases hc; exact gated_row (run := runBwSeal) (f := 0) stateR bars_stateR (fun _ _ _ _ _ h => refused_first (failed_left (failed_left (failed_left (refused_pre h))))) s rfl (by simp)
  | bwGetJournal r => cases hc; exact gated_row (run := runBwGetJournal) (f := 0) stateU bars_stateU (fun _ _ _ _ _ h => by unfold runBwGetJournal; exact runAtomic_fail (refused_pre h)) s rfl (by simp)
  | logAppend r => cases hc; exact gated_row (run := runLogAppend) (f := 0) stateU bars_stateU (fun _ _ _ _ _ h => refused_first (failed_left (refused_pre h))) s rfl (by simp)
  | logRead r => cases hc; exact gated_row (run := runLogRead) (f := 0) (fun _ => true) bars_admitted (fun _ _ _ _ _ h => by unfold runLogRead; exact runAtomic_fail (refused_pre h)) s rfl (by simp)
  | logStatus r => cases hc; exact gated_row (run := runLogStatus) (f := 0) (fun _ => true) bars_admitted (fun _ _ _ _ _ h => by unfold runLogStatus; exact runAtomic_fail (refused_pre h)) s rfl (by simp)
  | chnStatus r => cases hc; exact gated_row (run := runChnStatus) (f := 0) stateU bars_stateU (fun _ _ _ _ _ h => by unfold runChnStatus; exact runAtomic_fail (refused_pre h)) s rfl (by simp)
  | chnReplicate r => cases hc; exact gated_row (run := runChnReplicate) (f := 0) stateR bars_stateR (fun _ _ _ _ _ h => refused_first (failed_left (failed_left (failed_left (refused_pre h))))) s rfl (by simp)
  | chnAdmit r => cases hc; exact gated_row (run := runChnAdmit) (f := 0) stateU bars_stateU (fun _ _ _ _ _ h => refused_first (failed_left (failed_left (refused_pre h)))) s rfl (by simp)
  | chnSetEpoch r => cases hc; exact gated_row (run := runChnSetEpoch) (f := 0) stateU bars_stateU (fun _ _ _ _ _ h => refused_first (failed_left (refused_pre h))) s rfl (by simp)
  | lcGetState r => cases hc; exact gated_row (run := runLcGetState) (f := 0) (fun _ => true) bars_admitted (fun _ _ _ _ _ h => by unfold runLcGetState; exact runAtomic_fail (refused_pre h)) s rfl (by simp)
  | lcTransition r => cases hc; exact gated_row (run := runLcTransition) (f := 0) stateU bars_stateU (fun _ _ _ _ _ h => refused_first (failed_left (failed_left (refused_pre h)))) s rfl (by simp)
  | lcResume r => cases hc; exact gated_row (run := runLcResume) (f := 0) (fun _ => true) bars_admitted (fun _ _ _ _ _ h => runLcResume_refused h) s rfl (by simp)
  | dbgChallenge r => cases hc; exact gated_row (run := runDbgChallenge) (f := 0) stateU bars_stateU (fun _ _ _ _ _ h => by unfold runDbgChallenge; exact runAtomic_fail (failed_left (refused_pre h))) s rfl (by simp)
  | dbgResponse r => cases hc; exact gated_row (run := runDbgResponse) (f := 0) stateU bars_stateU (fun _ _ _ _ _ h => refused_first (refused_pre h)) s rfl (by simp)
  | pkeSetChannel r => cases hc; exact gated_row (run := runPkeSetChannel) (f := 0) stateU bars_stateU (fun _ _ _ _ _ h => by unfold runPkeSetChannel; exact runAtomic_fail (failed_left (refused_pre h))) s rfl (by simp)
  | ledgerRead r => cases hc; exact gated_row (run := runLedgerRead) (f := 0) stateU bars_stateU (fun _ _ _ _ _ h => by unfold runLedgerRead; exact runAtomic_fail (refused_pre h)) s rfl (by simp)
  | fwStage r => cases hc; exact gated_row (run := runFwStage) (f := 0) stateU bars_stateU (fun _ _ _ _ _ h => by unfold runFwStage; exact runAtomic_fail (refused_pre h)) s rfl (by simp)
  | fwActivate r => cases hc; exact gated_row (run := runFwActivate) (f := 0) stateU bars_stateU (fun _ _ _ _ _ h => by unfold runFwActivate; exact runAtomic_fail (refused_pre h)) s rfl (by simp)
  | selfTest r f => cases hc; exact gated_row (run := (fun d c => runSelfTest d c f.toNat)) (f := f.toNat) stateU bars_stateU (fun _ _ _ _ _ h => runSelfTest_refused h) s rfl (by simp)
  | _ => cases hc

end Sys2Proof.Machine
end

section
/-! What the end of a request, a record and an abort leave alone. -/

namespace Sys2Proof.Machine

open Sys2Proof.Safety

/-- The global registers but for the error registers. -/
def glbCore (g : Glb) : Glb := { g with errC := 0, errDCount := 0, errD := {}, fatal := none, resetCause := 0 }

/-- The key unit but for the slots. -/
def keyCore (k : Key) : Key := { k with slots := [], gens := [], bank := [], bankGens := [], replicas := [] }

/-- The host interface but for the functions' registers and the DMA tags. -/
def hifCore (h : Hif) : Hif := { h with cfg := [], tags := [] }

/-- The event recorder but for its queues and its counters of refusals. -/
def evrCore (e : Evr) : Evr := { e with queue := [], early := [], cntRefused := 0, cntCritRefused := 0 }

/-- 23: a Class F error of a WDT reset joins its cause. -/
def causeJoins (g : Glb) : Bool := g.boot == .warm && g.raised.getLsbD 2

/-- `e` differs from `d` only in what the end of a request, a record and an abort may change. -/
structure Still (d e : Dev) : Prop where
  now : e.now = d.now
  otp : e.otp = d.otp
  lc : e.lc = d.lc
  sec : e.sec = d.sec
  sram : e.sram = d.sram
  psUser : e.psUser = d.psUser
  nextRid : e.nextRid = d.nextRid
  cls : e.cls = d.cls
  ps : e.ps = d.ps
  pkeWindow : e.pkeWindow = d.pkeWindow
  tmp : e.tmp = d.tmp
  bwt : e.bwt = d.bwt
  tmr : e.tmr = d.tmr
  pinEdges : e.pinEdges = d.pinEdges
  glb : glbCore e.glb = glbCore d.glb
  key : keyCore e.key = keyCore d.key
  hif : hifCore e.hif = hifCore d.hif
  evr : evrCore e.evr = evrCore d.evr
  cause : causeJoins d.glb = false → e.glb.resetCause = d.glb.resetCause

section
variable {a d e : Dev}

theorem Still.refl (d : Dev) : Still d d := ⟨rfl, rfl, rfl, rfl, rfl, rfl, rfl, rfl, rfl, rfl, rfl, rfl, rfl, rfl, rfl, rfl, rfl, rfl, fun _ => rfl⟩

theorem Still.boot (h : Still a d) : d.glb.boot = a.glb.boot :=
  (congrArg Glb.boot h.glb : (glbCore d.glb).boot = (glbCore a.glb).boot)

theorem Still.raised (h : Still a d) : d.glb.raised = a.glb.raised :=
  (congrArg Glb.raised h.glb : (glbCore d.glb).raised = (glbCore a.glb).raised)

theorem Still.power (h : Still a d) : d.glb.power = a.glb.power :=
  (congrArg Glb.power h.glb : (glbCore d.glb).power = (glbCore a.glb).power)

theorem Still.joins (h : Still a d) : causeJoins d.glb = causeJoins a.glb := by rw [causeJoins, causeJoins, h.boot, h.raised]

theorem Still.trans (h : Still a d) (k : Still d e) : Still a e :=
  ⟨k.now.trans h.now, k.otp.trans h.otp, k.lc.trans h.lc, k.sec.trans h.sec, k.sram.trans h.sram, k.psUser.trans h.psUser, k.nextRid.trans h.nextRid, k.cls.trans h.cls, k.ps.trans h.ps,
    k.pkeWindow.trans h.pkeWindow, k.tmp.trans h.tmp, k.bwt.trans h.bwt, k.tmr.trans h.tmr, k.pinEdges.trans h.pinEdges, k.glb.trans h.glb, k.key.trans h.key, k.hif.trans h.hif,
    k.evr.trans h.evr, fun hc => (k.cause (h.joins.trans hc)).trans (h.cause hc)⟩

theorem Still.upd {ldg : Ledger} {dbg : Dbg} {stl : Stl} {yrd : Yrd} {reqs : Tab Req} {comps : Tab Comp} {pke : Tab Pke} {pkeWait : List Waiting} {sym : Sym} {rng : Nat} {crd : Crd} {chn : Chn}
    {mgt : Mgt} {out : List Out} (h : Still a d) : Still a { d with ldg, dbg, stl, yrd, reqs, comps, pke, pkeWait, sym, rng, crd, chn, mgt, out } :=
  h.trans ⟨rfl, rfl, rfl, rfl, rfl, rfl, rfl, rfl, rfl, rfl, rfl, rfl, rfl, rfl, rfl, rfl, rfl, rfl, fun _ => rfl⟩

theorem Still.updKey {slots : Tab KSlot} {gens : Tab Byte} {bank : Tab AonSlot} {bankGens : Tab Byte} {replicas : List ((Bytes × Word) × Nat)} {rng : Nat} (h : Still a d) :
    Still a { d with rng, key := { d.key with slots, gens, bank, bankGens, replicas } } :=
  h.trans ⟨rfl, rfl, rfl, rfl, rfl, rfl, rfl, rfl, rfl, rfl, rfl, rfl, rfl, rfl, rfl, rfl, rfl, rfl, fun _ => rfl⟩

theorem Still.updHif {cfg : Tab FuncCfg} {tags : Tab DmaTag} (h : Still a d) : Still a { d with hif := { d.hif with cfg, tags } } :=
  h.trans ⟨rfl, rfl, rfl, rfl, rfl, rfl, rfl, rfl, rfl, rfl, rfl, rfl, rfl, rfl, rfl, rfl, rfl, rfl, fun _ => rfl⟩

theorem Still.updEvr {queue early : List Record} {cntRefused cntCritRefused : Word} (h : Still a d) : Still a { d with evr := { d.evr with queue, early, cntRefused, cntCritRefused } } :=
  h.trans ⟨rfl, rfl, rfl, rfl, rfl, rfl, rfl, rfl, rfl, rfl, rfl, rfl, rfl, rfl, rfl, rfl, rfl, rfl, fun _ => rfl⟩

theorem Still.updGlb {errDCount : Half} {errD : ErrD} {fatal : Option Fatal} (h : Still a d) : Still a { d with glb := { d.glb with errDCount, errD, fatal } } :=
  h.trans ⟨rfl, rfl, rfl, rfl, rfl, rfl, rfl, rfl, rfl, rfl, rfl, rfl, rfl, rfl, rfl, rfl, rfl, rfl, fun _ => rfl⟩

/-- Only a Class F error of a WDT reset adds a cause. -/
theorem Still.joined {resetCause : Byte} (hj : causeJoins d.glb = true) (h : Still a d) : Still a { d with glb := { d.glb with resetCause } } :=
  h.trans ⟨rfl, rfl, rfl, rfl, rfl, rfl, rfl, rfl, rfl, rfl, rfl, rfl, rfl, rfl, rfl, rfl, rfl, rfl, fun hc => absurd (hj.symm.trans hc) (by simp)⟩

theorem Still.emit {o : Out} (h : Still a d) : Still a (emit d o) := .upd h
theorem Still.onPool {p : Nat} {f : Pool → Pool} (h : Still a d) : Still a (onPool d p f) := .upd h
theorem Still.ldgIssue {p h' n : Nat} (h : Still a d) : Still a (ldgIssue d p h' n) := h.onPool
theorem Still.ldgRetire {p h' n : Nat} (h : Still a d) : Still a (ldgRetire d p h' n) := h.onPool
theorem Still.ldgMove {p h1 h2 n : Nat} (h : Still a d) : Still a (ldgMove d p h1 h2 n) := h.onPool
theorem Still.ldgDrain {p h' : Nat} (h : Still a d) : Still a (ldgDrain d p h') := .ldgRetire h
theorem Still.setCfg {f : Func} {c : FuncCfg} (h : Still a d) : Still a (setCfg d f c) := .updHif h
theorem Still.logRec {r : Record} (h : Still a d) : Still a (logRec d r) := by
  unfold Machine.logRec
  split
  · exact .updEvr h
  · split
    · exact .updEvr h
    · split
      · exact .updEvr h
      · exact .updEvr h
theorem Still.setStall {n : Nat} {s : Stall} (h : Still a d) : Still a (setStall d n s) := .upd h
theorem Still.writeHeader {n : Nat} (h : Still a d) : Still a (writeHeader d n) := .upd h
theorem Still.freeSlot {s : Nat} (h : Still a d) : Still a (freeSlot d s) := .updKey h
theorem Still.freeBank {b : Nat} (h : Still a d) : Still a (freeBank d b) := .updKey h
theorem Still.reserveSlot {i : Issuer} {t : Byte} {u : Half} {o : Byte} {e : Nat × Dev} (he : reserveSlot d i t u o = some e) (h : Still a d) : Still a e.2 := by
  simp only [Machine.reserveSlot, Option.map_eq_some_iff] at he
  obtain ⟨s, -, rfl⟩ := he
  exact h.updKey
theorem Still.ite {c : Prop} [Decidable c] {x y : Dev} (hx : Still a x) (hy : Still a y) : Still a (if c then x else y) := by
  split
  · exact hx
  · exact hy
theorem Still.iteFst {β : Type} {c : Prop} [Decidable c] {x y : Dev × β} (hx : Still a x.1) (hy : Still a y.1) : Still a (if c then x else y).1 := by
  split
  · exact hx
  · exact hy
theorem Still.foldl {β : Type} {f : Dev → β → Dev} (hf : ∀ d x, Still a d → Still a (f d x)) {d : Dev} {l : List β} (h : Still a d) : Still a (l.foldl f d) := by
  induction l generalizing d with
  | nil => exact h
  | cons x l ih => exact ih (hf d x h)
theorem Still.getD {o : Option Dev} (ho : ∀ e, o = some e → Still a e) (h : Still a d) : Still a (o.getD d) := by
  cases o with
  | none => exact h
  | some e => exact ho e rfl
theorem Still.aerReport {f : Func} {a' : Aer} (h : Still a d) : Still a (aerReport d f a') := .emit <| .setCfg h
theorem Still.signal {f : Func} {v : Nat} (h : Still a d) : Still a (signal d f v) := .ite (.setCfg h) <| .emit h
theorem Still.alert {b : Nat} (h : Still a d) : Still a (alert d b) := .ite (.emit <| .upd h) <| .upd h
theorem Still.errD {block sub : Nat} {code : Half} {stallNo : Byte} {open_ aer : Bool} {rec : Option (Half × Word)} (h : Still a d) : Still a (errD d block sub code stallNo open_ aer rec) :=
  .logRec <| .ite (.aerReport <| .alert <| .signal <| .updGlb h) <| .alert <| .signal <| .updGlb h
theorem Still.errF {code : Half} {src addr : Word} (h : Still a d) : Still a (errF d code src addr) := by
  have h2 : Still a (Machine.logRec (if d.hif.up then Machine.aerReport d .pf .uncorrectableInternal else d) (devRec 0x9008 code (b4 src ++ b4 addr) .fatal)) := .logRec <| .ite (.aerReport h) h
  unfold Machine.errF
  extract_lets d1 d2
  split
  next hj => exact .joined hj h2
  next =>
    split
    · exact .updGlb h2
    · exact .updGlb h2
theorem Still.modStall {n : Nat} {f : Stall → Stall} (h : Still a d) : Still a (modStall d n f) := .setStall h
theorem Still.toState {n : Nat} {st : StallSt} (h : Still a d) : Still a (toState d n st) := .ite h <| .alert <| .signal <| .writeHeader <| .modStall h
theorem Still.faultStall {n : Nat} (h : Still a d) : Still a (faultStall d n) := by
  unfold Machine.faultStall
  split
  · exact .toState h
  · exact .toState h
  · exact h
theorem Still.errT {n : Nat} {code : Half} (h : Still a d) : Still a (errT d n code) :=
  .ite (.faultStall <| .ite (.logRec <| .signal <| .signal <| .modStall h) <| .signal <| .signal <| .modStall h) <| .ite (.logRec <| .signal <|
  .signal <| .modStall h) <| .signal <| .signal <| .modStall h
theorem Still.dmaRetire {t : Nat} {e' : DmaTag} (h : Still a d) : Still a (dmaRetire d t e') := .ldgRetire <| .updHif h
theorem Still.fenceOne {t : Nat} {e' : DmaTag} (h : Still a d) : Still a (fenceOne d t e') := .ite h <| .ldgMove <| .updHif h
theorem Still.fenceWhere {p : DmaTag → Bool} (h : Still a d) : Still a (fenceWhere d p) := .foldl (fun _ _ h => .ite (.fenceOne h) h) h
theorem Still.dropFenced (h : Still a d) : Still a (dropFenced d) := .foldl (fun _ _ h => .ite (.dmaRetire h) h) h
theorem Still.claimCells {i : Issuer} {n : Nat} {e : Dev × List Nat} (he : claimCells d i n = some e) (h : Still a d) : Still a e.1 := by
  unfold Machine.claimCells at he
  split at he
  · cases he
  · simp only [Option.map_eq_some_iff] at he
    obtain ⟨r, -, rfl⟩ := he
    exact h.upd.ldgIssue
theorem Still.freeCells {h' : Nat} {l : List Nat} (h : Still a d) : Still a (freeCells d h' l) := .ldgRetire <| .upd h
theorem Still.setRecovery {n k : Nat} (h : Still a d) : Still a (setRecovery d n k) :=
  .ite (.ldgIssue <| .modStall <| .upd h) <| .ldgRetire <| .modStall <| .upd h
theorem Still.draw {n : Nat} (h : Still a d) : Still a (draw d n).2 := .upd h
theorem Still.sendTrain {p : Port} {ack : Bool} (h : Still a d) : Still a (sendTrain d p ack) := .emit h
theorem Still.setPort {p : Port} {x : PortSt} (h : Still a d) : Still a (setPort d p x) := by
  unfold Machine.setPort
  dsimp only
  split
  · exact .upd h
  · exact .upd h
theorem Still.holdPort {p : Port} (h : Still a d) : Still a (holdPort d p) := .ite h <| .setPort h
theorem Still.enqueue {p : Port} {f : Frame} {rid : Option Nat} (h : Still a d) : Still a (enqueue d p f rid) := by
  unfold Machine.enqueue
  dsimp only
  refine .ite ?_ ?_
  · refine .setPort ?_
    split
    next e0 e1 he => exact (.claimCells he (.holdPort h))
    · exact .holdPort h
  · refine .setPort ?_
    refine .ldgIssue ?_
    split
    next e0 e1 he => exact (.claimCells he (.holdPort h))
    · exact .holdPort h
theorem Still.unicast {dest : Nat} {b : FBody} {rid : Option Nat} (he : unicast d dest b rid = some e) (h : Still a d) : Still a e := by
  unfold Machine.unicast at he
  dsimp only at he
  split at he
  · cases he
  · cases he; exact h.enqueue
theorem Still.sealResult {q : Req} {status : Half} {result : Bytes} (h : Still a d) : Still a (sealResult d q status result).2.2 := by
  unfold Machine.sealResult
  split
  · exact h
  · split
    · exact h
    · split
      · exact h
      · split
        · exact h
        · exact .upd h
theorem Still.setReq {rid : Nat} {q : Req} (h : Still a d) : Still a (setReq d rid q) := .upd h
theorem Still.delReq {rid : Nat} (h : Still a d) : Still a (delReq d rid) := .upd h
theorem Still.stageComp {rid : Nat} {q : Req} {c : Comp} (h : Still a d) : Still a (stageComp d rid q c) := by
  unfold Machine.stageComp
  dsimp only
  split
  · split
    next e0 e1 he => exact .upd <| .setReq <| (.claimCells he h)
    · exact .upd <| .setReq <| .setRecovery h
  · split
    next e0 e1 he => exact .upd <| .setReq <| (.claimCells he h)
    · exact .upd <| .setReq h
  · exact .upd <| .setReq h
theorem Still.closeConsumed {rid : Nat} (h : Still a d) : Still a (closeConsumed d rid) := by
  unfold Machine.closeConsumed
  dsimp only
  split
  · exact .ite (.upd h) h
  · exact h
theorem Still.of_pair {β : Type} {p : Dev × β} {b : β} (hp : p = (e, b)) (h : Still a p.1) : Still a e := by
  subst hp; exact h
theorem Still.finishOne {rid : Nat} {status : Half} {result : Bytes} {detail : Word} (h : Still a d) : Still a (finishOne d rid status result detail) := by
  unfold Machine.finishOne
  split
  · exact h
  · refine .ite h ?_
    extract_lets d1 q d2
    have h2 : Still a d2 := h.freeCells.closeConsumed
    split
    next st r d3 hs =>
    have h3 : Still a d3 := by
      have hr := h2.sealResult (q := q) (status := status) (result := result)
      rwa [hs] at hr
    extract_lets tag n
    split
    · exact h3.freeCells.delReq
    · exact .ite h3.freeCells.delReq h3.freeCells.delReq.emit
    · exact .foldl (fun _ _ h => .getD (fun _ he => h.unicast he) h) h3.freeCells.delReq
    · exact .ite h3.freeCells.delReq h3.setReq.stageComp
theorem Still.wakeNops {fuel : Nat} (h : Still a d) : Still a (wakeNops fuel d) := by
  induction fuel generalizing d with
  | zero => exact h
  | succ fuel ih =>
    unfold Machine.wakeNops
    split
    · exact h
    · exact ih h.finishOne
theorem Still.finish {rid : Nat} {status : Half} {result : Bytes} {detail : Word} (h : Still a d) : Still a (finish d rid status result detail) :=
  .wakeNops <| .finishOne h
theorem Still.gateWith {rid : Nat} {g : Bytes} {o : Nat} (h : Still a d) : Still a (gateWith d rid g o).1 := by
  unfold Machine.gateWith
  dsimp only
  split
  · exact h
  · split
    · exact h
    · split
      · exact .upd h
      · exact .iteFst h (.iteFst h (.upd h))
theorem Still.quorumGate {c : Cmd} {o : Nat} (h : Still a d) : Still a (quorumGate d c o).1 := .gateWith h
theorem Still.freshMask {n : Nat} {old : Bytes} (h : Still a d) : Still a (freshMask d n old).2 := by
  unfold Machine.freshMask
  split
  · exact .draw h
  · exact h
theorem Still.beginUse {r : KRef} (h : Still a d) : Still a (beginUse d r) := by
  unfold Machine.beginUse
  split
  · split
    · exact h.freshMask.updKey
    · exact h
  · split
    · exact h.freshMask.updKey
    · exact h
theorem Still.endUse {s : Nat} (h : Still a d) : Still a (endUse d s) := by
  unfold Machine.endUse
  dsimp only
  refine .ite ?_ ?_
  · split
    · exact .ite (.freeBank h) <| .updKey h
    · exact h
  · split
    · exact .ite (.freeSlot h) <| .updKey h
    · exact h
theorem Still.errFOpen {src : Word} (h : Still a d) : Still a (errFOpen d src) := .errF <| .upd h
theorem Still.maskFault (h : Still a d) : Still a (maskFault d) := .errFOpen h
theorem Still.claimResult {c : Cmd} {res : Nat} (he : claimResult d c res = some e) (h : Still a d) : Still a e := by
  unfold Machine.claimResult at he
  split at he
  · cases he; exact h
  · simp only [Option.map_eq_some_iff] at he
    obtain ⟨r, hr, rfl⟩ := he
    split
    · exact (h.claimCells hr).setReq
    · exact h.claimCells hr
theorem Still.endNoCells {c : Cmd} (h : Still a d) : Still a (endNoCells d c) := by
  unfold Machine.endNoCells
  refine .finish ?_
  split
  · exact .errT h
  · exact h
theorem Still.gateOr {q : Option Nat} {c : Cmd} (h : Still a d) : Still a (match q with | some o => Machine.quorumGate d c o | none => (d, none)).1 := by
  split
  · exact h.quorumGate
  · exact h
theorem Still.reservedOr {i : Issuer} {t : Byte} {u : Half} {o : Byte} (h : Still a d) :
    Still a (match Machine.reserveSlot d i t u o with | some (s, d) => (s, d) | none => (0, d)).2 := by
  split
  next s e he => exact h.reserveSlot he
  · exact h
theorem Still.chargeLane {l n cycles : Nat} (h : Still a d) : Still a (chargeLane d l n cycles) := .ite h <| .upd h
theorem Still.setLanes {t : Tab LaneJob} (h : Still a d) : Still a (setLanes d t) := .upd h
theorem Still.laneKey {c : Cmd} {h' : Word} (h : Still a d) : Still a (laneKey d c h').1 := by
  unfold Machine.laneKey
  split
  · exact h.beginUse
  · exact h
theorem Still.symBuild {d' : Dev} {c : Cmd} (h : Still a d) : Still a ((symPlan d' c).build d).1 := by
  have cipher : Still a ((planCipher d' c).build d).1 := by
    unfold planCipher
    dsimp only
    split
    · exact h.laneKey.laneKey
    · exact h.laneKey
  unfold Machine.symPlan
  split
  · exact cipher
  · split
    · exact h.laneKey
    · split
      · exact h
      · split
        · exact h.laneKey.reservedOr
        · split
          · exact h.laneKey
          · exact h
theorem Still.runSym {c : Cmd} (h : Still a d) : Still a (runSym d c) := by
  unfold Machine.runSym
  dsimp only
  split
  · exact h.finish
  · split
    next e st he => exact (Still.of_pair he h.gateOr).finish
    next e he =>
      have h1 : Still a e := .of_pair he h.gateOr
      split
      · exact h1.finish
      · split
        · exact h1.endNoCells
        next d1 hd =>
          have h2 := h1.claimResult hd
          refine .ite h2.maskFault ?_
          split
          · exact h2.finish
          · exact h2.upd.symBuild.setLanes
theorem Still.dropReserved {s : Nat} (h : Still a d) : Still a (dropReserved d s) := by
  unfold Machine.dropReserved
  split
  · exact .ite (.freeSlot h) h
  · exact h
theorem Still.laneAbort {l : Nat} {st : Half} (h : Still a d) : Still a (laneAbort d l st) := by
  unfold Machine.laneAbort
  dsimp only
  split
  · exact h
  · refine .finish ?_
    refine .foldl (fun _ _ h => .endUse h) ?_
    split
    · exact .dropReserved <| .chargeLane <| .setLanes h
    · exact .chargeLane <| .setLanes h
theorem Still.instantiate (h : Still a d) : Still a (instantiate d) := .upd h
theorem Still.setEng {e' : Nat} {p : Pke} (h : Still a d) : Still a (setEng d e' p) := .upd h
theorem Still.tapReport {st : Half} {bytes : Bytes} (h : Still a d) : Still a (tapReport d st bytes) := .emit <| .upd h
theorem Still.dropExchange {b : Bool} {i : Nat} (h : Still a d) : Still a (dropExchange d b i) := .ite (.upd h) <| .upd h
theorem Still.cutSecure {o : PkeOp} (h : Still a d) : Still a (cutSecure d o) := by
  unfold Machine.cutSecure
  dsimp only
  split
  · exact .ite (.tapReport <| .upd h) <| .upd h
  · exact .dropExchange h
  · exact .dropExchange h
  · exact .upd h
  · exact h
theorem Still.dropOp {o : PkeOp} (h : Still a d) : Still a (dropOp d o) := by
  unfold Machine.dropOp
  dsimp only
  split
  · refine .finish ?_
    refine .cutSecure ?_
    split
    · refine .endUse ?_
      split
      · exact .dropReserved h
      · exact h
    · split
      · exact .dropReserved h
      · exact h
  · refine .cutSecure ?_
    split
    · refine .endUse ?_
      split
      · exact .dropReserved h
      · exact h
    · split
      · exact .dropReserved h
      · exact h
theorem Still.noteLink {e' : Dev} (h : Still a e') : Still a (noteLink d e') := .ite (.ite h (.alert h)) <| .signal <| .ite h (.alert h)
theorem Still.pumpSym {fuel : Nat} (h : Still a d) : Still a (pumpSym fuel d) := by
  induction fuel generalizing d with
  | zero => exact h
  | succ fuel ih =>
    unfold Machine.pumpSym
    dsimp only
    split
    · exact h
    · split
      · exact h
      · exact ih h.upd.runSym
theorem Still.pumpLanes (h : Still a d) : Still a (pumpLanes d) := .pumpSym h
theorem Still.resetPke {e' : Nat} (h : Still a d) : Still a (resetPke d e') := by
  unfold Machine.resetPke
  dsimp only
  split
  · exact .ldgDrain <| .setEng h
  · exact .dropOp <| .ldgDrain <| .setEng h
theorem Still.resetSym (h : Still a d) : Still a (resetSym d) :=
  .pumpLanes <| .ite (.instantiate <| .foldl (fun _ _ h => .laneAbort h) h) <| .foldl (fun _ _ h => .laneAbort h) h
theorem Still.dropPort {p : Port} (h : Still a d) : Still a (dropPort d p) := .sendTrain <| .setPort h

end

end Sys2Proof.Machine
end

section
/-! What reset leaves. -/

namespace Sys2Proof.Machine

open Sys2Proof.Safety

/-- The first table of reset values, register by register. -/
theorem resetValuesA_read : ∀ x ∈ resetValuesA, readReg State.reset.toDev x.1 x.2.1 = x.2.2 := by decide

/-- The second table of reset values. -/
theorem resetValuesB_read : ∀ x ∈ resetValuesB, readReg State.reset.toDev x.1 x.2.1 = x.2.2 := by decide

/-- The third table of reset values. -/
theorem resetValuesC_read : ∀ x ∈ resetValuesC, readReg State.reset.toDev x.1 x.2.1 = x.2.2 := by decide

/-- Settles O2: the three tables are read register by register, and the rest is the empty device. -/
theorem resetValues : Obligations.ResetValues := by
  refine ⟨fun x hx => ?_, rfl, rfl, rfl, rfl, rfl, fun _ => rfl, fun _ => poolOk_empty, rfl, rfl, rfl⟩
  rcases List.mem_append.mp hx with hx | hx
  · rcases List.mem_append.mp hx with hx | hx
    · exact resetValuesA_read x hx
    · exact resetValuesB_read x hx
  · exact resetValuesC_read x hx

end Sys2Proof.Machine
end

section
/-! What the parts of a reset leave alone. -/

namespace Sys2Proof.Machine

open Sys2Proof.Safety

/-- `e` is a later device of the same cycle: what the parts of a reset may change but for time, the stores of software and the power registers. -/
structure Onward (d e : Dev) : Prop where
  now : e.now = d.now
  sram : e.sram = d.sram
  psUser : e.psUser = d.psUser
  nextRid : e.nextRid = d.nextRid
  tmr : e.tmr = d.tmr
  pinEdges : e.pinEdges = d.pinEdges
  glb : glbCore e.glb = glbCore d.glb
  cause : causeJoins d.glb = false → e.glb.resetCause = d.glb.resetCause

section
variable {a d e : Dev}

theorem Onward.refl (d : Dev) : Onward d d := ⟨rfl, rfl, rfl, rfl, rfl, rfl, rfl, fun _ => rfl⟩

theorem Onward.boot (h : Onward a d) : d.glb.boot = a.glb.boot :=
  (congrArg Glb.boot h.glb : (glbCore d.glb).boot = (glbCore a.glb).boot)

theorem Onward.raised (h : Onward a d) : d.glb.raised = a.glb.raised :=
  (congrArg Glb.raised h.glb : (glbCore d.glb).raised = (glbCore a.glb).raised)

theorem Onward.joins (h : Onward a d) : causeJoins d.glb = causeJoins a.glb := by rw [causeJoins, causeJoins, h.boot, h.raised]

theorem Onward.trans (h : Onward a d) (k : Onward d e) : Onward a e :=
  ⟨k.now.trans h.now, k.sram.trans h.sram, k.psUser.trans h.psUser, k.nextRid.trans h.nextRid, k.tmr.trans h.tmr, k.pinEdges.trans h.pinEdges, k.glb.trans h.glb,
    fun hc => (k.cause (h.joins.trans hc)).trans (h.cause hc)⟩

theorem Still.onward (h : Still a d) : Onward a d := ⟨h.now, h.sram, h.psUser, h.nextRid, h.tmr, h.pinEdges, h.glb, h.cause⟩

theorem Onward.still (h : Onward a d) (k : Still d e) : Onward a e := h.trans k.onward

theorem Onward.upd {ldg : Ledger} {otp : Otp} {lc : Lc} {dbg : Dbg} {sec : Sec} {hif : Hif} {stl : Stl} {yrd : Yrd} {reqs : Tab Req} {comps : Tab Comp} {cls : Cls} {key : Key} {ps : Ps} {pke : Tab Pke}
    {pkeWait : List Waiting} {sym : Sym} {rng : Nat} {crd : Crd} {tmp : Tmp} {bwt : Bwt} {evr : Evr} {chn : Chn} {mgt : Mgt} {out : List Out} (h : Onward a d) :
    Onward a { d with ldg, otp, lc, dbg, sec, hif, stl, yrd, reqs, comps, cls, key, ps, pke, pkeWait, sym, rng, crd, tmp, bwt, evr, chn, mgt, out } :=
  h.trans ⟨rfl, rfl, rfl, rfl, rfl, rfl, rfl, fun _ => rfl⟩

theorem Onward.logRec {r : Record} (h : Onward a d) : Onward a (logRec d r) := h.still (.logRec (.refl _))
theorem Onward.finish {rid : Nat} {status : Half} {result : Bytes} {detail : Word} (h : Onward a d) : Onward a (finish d rid status result detail) := h.still (.finish (.refl _))
theorem Onward.alert {b : Nat} (h : Onward a d) : Onward a (alert d b) := h.still (.alert (.refl _))
theorem Onward.signal {f : Func} {v : Nat} (h : Onward a d) : Onward a (signal d f v) := h.still (.signal (.refl _))
theorem Onward.emit {o : Out} (h : Onward a d) : Onward a (emit d o) := h.still (.emit (.refl _))
theorem Onward.laneAbort {l : Nat} {st : Half} (h : Onward a d) : Onward a (laneAbort d l st) := h.still (.laneAbort (.refl _))
theorem Onward.dropOp {o : PkeOp} (h : Onward a d) : Onward a (dropOp d o) := h.still (.dropOp (.refl _))
theorem Onward.setEng {e' : Nat} {p : Pke} (h : Onward a d) : Onward a (setEng d e' p) := h.still (.setEng (.refl _))
theorem Onward.ldgDrain {p h' : Nat} (h : Onward a d) : Onward a (ldgDrain d p h') := h.still (.ldgDrain (.refl _))
theorem Onward.errF {code : Half} {src addr : Word} (h : Onward a d) : Onward a (errF d code src addr) := h.still (.errF (.refl _))
theorem Onward.sendTrain {p : Port} {ack : Bool} (h : Onward a d) : Onward a (sendTrain d p ack) := h.still (.sendTrain (.refl _))
theorem Onward.writeHeader {n : Nat} (h : Onward a d) : Onward a (writeHeader d n) := h.still (.writeHeader (.refl _))
theorem Onward.toState {n : Nat} {st : StallSt} (h : Onward a d) : Onward a (toState d n st) := h.still (.toState (.refl _))
theorem Onward.setStall {n : Nat} {s : Stall} (h : Onward a d) : Onward a (setStall d n s) := h.still (.setStall (.refl _))
theorem Onward.modStall {n : Nat} {f : Stall → Stall} (h : Onward a d) : Onward a (modStall d n f) := h.still (.modStall (.refl _))
theorem Onward.freeSlot {s : Nat} (h : Onward a d) : Onward a (freeSlot d s) := h.still (.freeSlot (.refl _))
theorem Onward.freeBank {b : Nat} (h : Onward a d) : Onward a (freeBank d b) := h.still (.freeBank (.refl _))
theorem Onward.instantiate (h : Onward a d) : Onward a (instantiate d) := h.still (.instantiate (.refl _))
theorem Onward.ite {c : Prop} [Decidable c] {x y : Dev} (hx : Onward a x) (hy : Onward a y) : Onward a (if c then x else y) := by
  split
  · exact hx
  · exact hy
theorem Onward.foldl {β : Type} {f : Dev → β → Dev} (hf : ∀ d x, Onward a d → Onward a (f d x)) {d : Dev} {l : List β} (h : Onward a d) : Onward a (l.foldl f d) := by
  induction l generalizing d with
  | nil => exact h
  | cons x l ih => exact ih (hf d x h)
theorem Onward.adoptDecode (h : Onward a d) : Onward a (adoptDecode d) := .upd h
theorem Onward.takeSample (h : Onward a d) : Onward a (takeSample d) := .upd h
theorem Onward.initLedger {why : Byte} (h : Onward a d) : Onward a (initLedger d why) := (Onward.takeSample (.upd h)).logRec
theorem Onward.retireAll (h : Onward a d) : Onward a (retireAll d) :=
  (Onward.foldl (fun _ _ h => h.logRec) (.upd h)).logRec
theorem Onward.raiseSecure {src : Nat} (h : Onward a d) : Onward a (raiseSecure d src) := .emit <| .upd h
theorem Onward.raiseNormal {src : Nat} (h : Onward a d) : Onward a (raiseNormal d src) := .emit <| .upd h
theorem Onward.unloadSlot {s : Nat} (h : Onward a d) : Onward a (unloadSlot d s) := by
  unfold Machine.unloadSlot
  dsimp only
  split
  · exact .ite (.freeSlot h) <| .upd h
  · exact h
theorem Onward.unloadWhere {p : KSlot → Bool} (h : Onward a d) : Onward a (unloadWhere d p) := .foldl (fun _ _ h => .ite (.unloadSlot h) h) h
theorem Onward.unloadBank {b : Nat} (h : Onward a d) : Onward a (unloadBank d b) := by
  unfold Machine.unloadBank
  dsimp only
  split
  · exact .ite (.freeBank h) <| .upd h
  · exact h
theorem Onward.clearBank (h : Onward a d) : Onward a (clearBank d) := .foldl (fun _ _ h => .freeBank h) h
theorem Onward.programZone {off : Nat} {x : Bytes} (h : Onward a d) : Onward a (programZone d off x) := .upd h
theorem Onward.setOwner {o : Nat} {w : Owner} (h : Onward a d) : Onward a (setOwner d o w) := .upd h
theorem Onward.saveTable (h : Onward a d) : Onward a (saveTable d) := .ite h <| .programZone <| .upd h
theorem Onward.reseed (h : Onward a d) : Onward a (reseed d) := .ite (.upd h) h
theorem Onward.deleteOwner {o : Nat} (h : Onward a d) : Onward a (deleteOwner d o) :=
  .saveTable <| .upd <| .foldl (fun _ _ h => .ite (.unloadBank h) h) <| .unloadWhere h
theorem Onward.closeSession {sub : Half} (h : Onward a d) : Onward a (closeSession d sub) := by
  unfold Machine.closeSession
  dsimp only
  split
  · exact h
  · exact .signal <| .logRec <| .upd h
theorem Onward.dropIssue {o : Nat} (h : Onward a d) : Onward a (dropIssue d o) := .upd h
theorem Onward.lapseEnrolment {o : Nat} (h : Onward a d) : Onward a (lapseEnrolment d o) := by
  unfold Machine.lapseEnrolment
  dsimp only
  split
  · exact h
  · split
    · exact h
    · exact .ite (.deleteOwner <| .logRec <| .dropIssue h) <| .saveTable <| .setOwner <| .logRec <| .dropIssue h
theorem Onward.appendRec {r : Record} {b : Bytes} (h : Onward a d) : Onward a (appendRec d r b) :=
  .ite (.modStall <| .ite (.alert <| .signal <| .upd h) <| .upd h) <| .ite (.alert <| .signal <| .upd h) <| .upd h
theorem Onward.dropUse {l : List LogRec} (h : Onward a d) : Onward a (dropUse d l) := .foldl (fun _ _ h => .ite (.modStall h) h) h
theorem Onward.programRec {place : Nat} {b : Bytes} (h : Onward a d) : Onward a (programRec d place b) := .ite h <| .programZone h
theorem Onward.takeRoom {len : Nat} (he : takeRoom d len = some e) (h : Onward a d) : Onward a e := by
  simp only [Machine.takeRoom, Option.map_eq_some_iff] at he
  obtain ⟨p, -, rfl⟩ := he
  exact .ite h h.upd.dropUse.programRec.appendRec
theorem Onward.clearEngine {e' : Nat} (h : Onward a d) : Onward a (clearEngine d e') := .setEng h
theorem Onward.engIrq {e' : Nat} (h : Onward a d) : Onward a (engIrq d e') := .ite (.raiseSecure h) <| .raiseNormal h
theorem Onward.readbackFault {e' : Nat} (h : Onward a d) : Onward a (readbackFault d e') := .errF h
theorem Onward.startAbort {e' : Nat} (h : Onward a d) : Onward a (startAbort d e') := by
  unfold Machine.startAbort
  dsimp only
  split
  · exact .setEng h
  · exact .setEng h
theorem Onward.finishAbort {e' : Nat} {zeroed : Bool} (h : Onward a d) : Onward a (finishAbort d e' zeroed) := by
  unfold Machine.finishAbort
  dsimp only
  refine .ite h ?_
  refine .ite ?_ ?_
  · split
    · exact .dropOp <| .engIrq <| .ldgDrain <| .setEng h
    · exact .engIrq <| .ldgDrain <| .setEng h
  · refine .readbackFault ?_
    split
    · exact .dropOp <| .engIrq <| .ldgDrain <| .setEng h
    · exact .engIrq <| .ldgDrain <| .setEng h
theorem Onward.stopEngine {e' : Nat} (h : Onward a d) : Onward a (stopEngine d e') := .ite (.clearEngine h) <| .finishAbort <| .startAbort h
theorem Onward.stopEngines (h : Onward a d) : Onward a (stopEngines d) := .foldl (fun _ _ h => .stopEngine h) h
theorem Onward.unloadRoot (h : Onward a d) : Onward a (unloadRoot d) := .upd h
theorem Onward.loadRoot (h : Onward a d) : Onward a (loadRoot d) := .ite (.upd h) <| .ite (.upd h) <| .upd h
theorem Onward.clearCarried (h : Onward a d) : Onward a (clearCarried d) := by
  unfold Machine.clearCarried
  dsimp only
  split
  · exact .ite (.upd h) h
  · exact h
theorem Onward.openTable {sealOk : Bool} (h : Onward a d) : Onward a (openTable d sealOk) := by
  unfold Machine.openTable
  dsimp only
  split
  · exact .upd h
  · refine .ite (.upd h) ?_
    split
    · exact .upd h
    · exact .logRec <| .upd h
theorem Onward.setIntent {k : Nat} {v : Half} (h : Onward a d) : Onward a (setIntent d k v) := .upd h
theorem Onward.setHalf {h' : Nat} {v : Half} (h : Onward a d) : Onward a (setHalf d h' v) := .upd h
theorem Onward.setRootRec {k : Nat} {r : RootRec} (h : Onward a d) : Onward a (setRootRec d k r) := .upd h
theorem Onward.markWord {r i : Nat} {short : Bool} (h : Onward a d) : Onward a (markWord d r i short) := .setRootRec h
theorem Onward.programCut {w : OtpWrite} (h : Onward a d) : Onward a (programCut d w) := by
  unfold Machine.programCut
  dsimp only
  refine .upd ?_
  split
  · exact .setIntent h
  · exact .setHalf h
  · exact .markWord h
theorem Onward.cutTransition (h : Onward a d) : Onward a (cutTransition d) := by
  unfold Machine.cutTransition
  dsimp only
  split
  · exact h
  · refine .upd ?_
    split
    · exact .programCut h
    · exact h
theorem Onward.lcDone {rid : Nat} (h : Onward a d) : Onward a (lcDone d rid) := .finish <| .upd h
theorem Onward.cutToken (h : Onward a d) : Onward a (cutToken d) := by
  unfold Machine.cutToken
  dsimp only
  split
  · exact h
  · exact .upd h
theorem Onward.forceManifest {m : Option Manifest} (h : Onward a d) : Onward a (forceManifest d m) := .upd h
theorem Onward.loseJournal (h : Onward a d) : Onward a (loseJournal d) :=
  .ite (.upd <| .logRec <| .upd <| .foldl (fun _ _ h => .logRec h) h) <| .upd <| .upd <| .foldl (fun _ _ h => .logRec h) h
theorem Onward.clearCharged {n : Nat} (h : Onward a d) : Onward a (clearCharged d n) := .unloadWhere h
theorem Onward.clearCause (h : Onward a d) : Onward a (clearCause d) := .upd h
theorem Onward.countRefused {r : Record} {forShare : Bool} (h : Onward a d) : Onward a (countRefused d r forShare) := .ite (.upd h) <| .upd h
theorem Onward.roomFor {r : Record} (he : roomFor d r = .inl e) (h : Onward a d) : Onward a e := by
  unfold Machine.roomFor at he
  split at he
  · cases he
  · split at he
    next d1 hr => cases he; exact h.takeRoom hr
    · cases he
theorem Onward.settleAfter {a' : After} (h : Onward a d) : Onward a (settleAfter d a') := by
  unfold Machine.settleAfter
  dsimp only
  split
  · exact .upd h
  · exact .clearCause h
  · exact h
theorem Onward.storeRec {r : Record} (h : Onward a d) : Onward a (storeRec d r) := by
  unfold Machine.storeRec
  split
  next d1 hr => exact (h.roomFor hr).programRec.appendRec.settleAfter
  · exact h.countRefused
theorem Onward.flushRecords (h : Onward a d) : Onward a (flushRecords d) := by
  unfold Machine.flushRecords
  dsimp only
  refine .foldl (fun _ _ h => .storeRec h) ?_
  refine .upd ?_
  split
  · exact .settleAfter <| .appendRec <| .upd h
  · exact h
theorem Onward.checkpoint (h : Onward a d) : Onward a (checkpoint d) := .ite h <| .programZone <| .upd h
theorem Onward.createVfs (h : Onward a d) : Onward a (createVfs d) := .ite (.logRec <| .upd h) <| .upd h
theorem Onward.closeLog (h : Onward a d) : Onward a (closeLog d) := .upd h
theorem Onward.recountUse (h : Onward a d) : Onward a (recountUse d) := .foldl (fun _ _ h => .ite h <| .modStall h) h
theorem Onward.openLog (h : Onward a d) : Onward a (openLog d) := by
  have hr := h.recountUse
  unfold Machine.openLog
  generalize Machine.recountUse d = d1 at hr
  exact hr.upd
theorem Onward.logTamper (h : Onward a d) : Onward a (logTamper d) := .ite (.upd <| .logRec h) h
theorem Onward.logCutSession (h : Onward a d) : Onward a (logCutSession d) := by
  unfold Machine.logCutSession
  dsimp only
  split
  · exact .logRec <| .upd h
  · exact h
theorem Onward.logLifecycle (h : Onward a d) : Onward a (logLifecycle d) := by
  unfold Machine.logLifecycle
  dsimp only
  split
  · exact .ite (.logRec <| .clearBank <| .upd h) <| .ite (.logRec <| .upd h) <| .upd h
  · exact .ite (.logRec h) h
theorem Onward.measure {img : Bytes} (h : Onward a d) : Onward a (measure d img) := .upd h
theorem Onward.choosePending (h : Onward a d) : Onward a (choosePending d) := .ite h <| .ite (.upd h) <| .logRec <| .upd h
theorem Onward.seedMesh (h : Onward a d) : Onward a (seedMesh d) := .ite (.upd <| .upd h) h
theorem Onward.entropyTest {ok : Bool} (h : Onward a d) : Onward a (entropyTest d ok) := .ite (.instantiate h) <| .ite h <| .logRec <| .upd h
theorem Onward.laneTest {bad : BitVec 12} (h : Onward a d) : Onward a (laneTest d bad) := .ite (.upd h) <| .logRec <| .upd h
theorem Onward.engineTest {bad : BitVec 4} (h : Onward a d) : Onward a (engineTest d bad) := .foldl (fun _ _ h => .ite (.logRec <| .setEng h) h) h
theorem Onward.selfTests {env : StartEnv} (h : Onward a d) : Onward a (selfTests d env) := .engineTest <| .laneTest <| .entropyTest h
theorem Onward.drawPermutation (h : Onward a d) : Onward a (drawPermutation d) := .ite (.upd <| .reseed h) h
theorem Onward.lapseAll (h : Onward a d) : Onward a (lapseAll d) := .foldl (fun _ _ h => .ite (.lapseEnrolment h) h) h
theorem Onward.startRoot {entropyOk : Bool} (h : Onward a d) : Onward a (startRoot d entropyOk) := .ite (.loadRoot h) <| .unloadRoot h
theorem Onward.enableMgt (h : Onward a d) : Onward a (enableMgt d) := .upd h
theorem Onward.cutChecks (h : Onward a d) : Onward a (cutChecks d) := .upd <| .cutToken h
theorem Onward.disableStall {n : Nat} (h : Onward a d) : Onward a (disableStall d n) := .toState <| .setStall <| .clearCharged h
theorem Onward.disableStalls (h : Onward a d) : Onward a (disableStalls d) := .foldl (fun _ _ h => .disableStall h) h
theorem Onward.dropWork (h : Onward a d) : Onward a (dropWork d) := .foldl (fun _ _ h => .laneAbort h) <| .stopEngines <| .upd h
theorem Onward.warmEnd (h : Onward a d) : Onward a (warmEnd d) := by
  unfold Machine.warmEnd
  exact .flushRecords <| .retireAll <| .disableStalls <| .cutTransition <| .loseJournal <| .closeSession <| .dropWork <| .cutChecks h
theorem Onward.warmRoot {gone entropyOk : Bool} (h : Onward a d) : Onward a (warmRoot d gone entropyOk) :=
  .ite h <| .ite (.loadRoot h) <| .upd <| .unloadRoot h

end

end Sys2Proof.Machine
end

section
/-! The empty queue: one fabric cycle. -/

namespace Sys2Proof.Machine

open Sys2Proof.Safety

/-- `e` differs from `d` only in what the counters of a cycle may change: clocks, timers, interrupts taken and a wake. -/
structure Ticks (d e : Dev) : Prop where
  rest : { e with glb := d.glb, sec := d.sec, hif := d.hif, rng := d.rng, chn := d.chn, tmr := d.tmr, out := d.out } = d
  power : e.glb.power = d.glb.power
  stalled : e.glb.xwdStalled = d.glb.xwdStalled
  awake : d.glb.power = .run → e.glb = d.glb ∧ e.hif = d.hif

section
variable {a d e : Dev}

theorem Ticks.refl (d : Dev) : Ticks d d := ⟨rfl, rfl, rfl, fun _ => ⟨rfl, rfl⟩⟩

theorem Ticks.trans (h : Ticks a d) (k : Ticks d e) : Ticks a e := by
  refine ⟨?_, k.power.trans h.power, k.stalled.trans h.stalled, fun hp => ?_⟩
  · exact (congrArg (fun x : Dev => { x with glb := a.glb, sec := a.sec, hif := a.hif, rng := a.rng, chn := a.chn, tmr := a.tmr, out := a.out }) k.rest).trans h.rest
  · obtain ⟨hg, hh⟩ := h.awake hp
    obtain ⟨kg, kh⟩ := k.awake (h.power.trans hp)
    exact ⟨kg.trans hg, kh.trans hh⟩

theorem Ticks.foldl {β : Type} {f : Dev → β → Dev} (hf : ∀ d x, Ticks d (f d x)) (l : List β) (h : Ticks a d) : Ticks a (l.foldl f d) := by
  induction l generalizing d with
  | nil => exact h
  | cons x l ih => exact ih (h.trans (hf d x))

/-- Counters, interrupts and outputs. -/
theorem Ticks.upd {sec : Sec} {rng : Nat} {chn : Chn} {tmr : Tab Timer} {out : List Out} (h : Ticks a d) : Ticks a { d with sec, rng, chn, tmr, out } :=
  h.trans ⟨rfl, rfl, rfl, fun _ => ⟨rfl, rfl⟩⟩

theorem Ticks.emit {o : Out} (h : Ticks a d) : Ticks a (emit d o) := .upd h

/-- A wake happens outside RUN only. -/
theorem Ticks.asleep {hif : Hif} {waking wakeN : Bool} (hp : d.glb.power ≠ .run) (h : Ticks a d) : Ticks a { d with hif, glb := { d.glb with waking, wakeN } } :=
  h.trans ⟨rfl, rfl, rfl, fun hr => absurd hr hp⟩

theorem Ticks.pme (hp : d.glb.power ≠ .run) (h : Ticks a d) : Ticks a (pme d) := by
  unfold Machine.pme
  dsimp only
  split
  · exact h
  · split
    · exact .asleep hp h
    · split
      · exact .emit (.asleep hp h)
      · exact .asleep hp h
      · exact .asleep hp h

theorem Ticks.wake {c : WakeCause} (h : Ticks a d) : Ticks a (wake d c) := by
  unfold Machine.wake
  cases hw : wakes d.glb.power c with
  | false => exact h
  | true =>
    have hp : d.glb.power ≠ .run := fun hr => by rw [hr] at hw; cases hw
    have hlink : ∀ x : Dev, Ticks a x → x.glb.power ≠ .run → Ticks a (if x.glb.waking then x else Machine.pme { x with glb := { x.glb with waking := true } }) := fun x hx hxp => by
      split
      · exact hx
      · exact .pme hxp (.asleep hxp hx)
    cases c with
    | linkLeft => exact hlink _ (.asleep hp h) hp
    | _ => exact hlink _ h hp

theorem Ticks.tmrIrq {t : Nat} (h : Ticks a d) : Ticks a (tmrIrq d t) := by
  unfold Machine.tmrIrq
  split
  · exact .emit (.upd h)
  · exact .emit (.upd h)

theorem Ticks.zeroTimer {t : Nat} (h : Ticks a d) : Ticks a (zeroTimer d t) := by
  unfold Machine.zeroTimer
  extract_lets x d1 d2
  have h1 : Ticks a d1 := .upd h
  split
  · exact h
  · refine .wake ?_
    change Ticks a (if x.zeroIe then Machine.tmrIrq d1 t else d1)
    split
    · exact .tmrIrq h1
    · exact h1

theorem Ticks.addTicks {t : Nat} {n : Nat × Nat} (h : Ticks a d) : Ticks a (addTicks d t n) := by
  unfold Machine.addTicks
  dsimp only
  split
  · exact .zeroTimer h
  · exact .upd h

theorem Ticks.tickTimer {t : Nat} (h : Ticks a d) : Ticks a (tickTimer d t) := by
  unfold Machine.tickTimer
  dsimp only
  split
  · exact h
  · exact .addTicks h

theorem Ticks.tickTimers (h : Ticks a d) : Ticks a (tickTimers d) := .foldl (fun d _ => .tickTimer (.refl d)) _ h

theorem Ticks.tickChain (h : Ticks a d) : Ticks a (tickChain d) := by
  unfold Machine.tickChain
  split
  · exact h
  · exact .upd h

theorem Ticks.swdtWarn (h : Ticks a d) : Ticks a (swdtWarn d) := by
  unfold Machine.swdtWarn
  split
  · exact h
  · exact .emit (.upd (.upd h))

/-- A watchdog that has not run down counts. -/
theorem Ticks.tickWatchdog (hw : swdtOver d = false) (h : Ticks a d) : Ticks a (tickWatchdog d) := by
  unfold Machine.tickWatchdog
  rw [hw, if_neg Bool.false_ne_true]
  dsimp only
  split
  · exact h
  · exact .upd (.swdtWarn h)

theorem Ticks.takeIrq (h : Ticks a d) : Ticks a (takeIrq d) := by
  unfold Machine.takeIrq
  dsimp only
  split
  · split
    · exact .emit (.upd h)
    · exact .emit (.upd h)
  · split
    · split
      · exact .emit (.upd h)
      · exact h
    · exact h

theorem Ticks.tickCps (h : Ticks a d) : Ticks a (tickCps d) := by
  unfold Machine.tickCps
  split
  · exact h
  · exact .upd (.takeIrq (.upd h))

end

/-! ### What every cycle does to time -/

section
variable {d e : Dev}

theorem Ticks.now (h : Ticks d e) : e.now = d.now :=
  (congrArg Dev.now h.rest : ({ e with glb := d.glb, sec := d.sec, hif := d.hif, rng := d.rng, chn := d.chn, tmr := d.tmr, out := d.out } : Dev).now = d.now)

theorem Ticks.parts (h : Ticks d e) : e.ldg = d.ldg ∧ e.reqs = d.reqs ∧ e.comps = d.comps ∧ e.stl = d.stl ∧ e.yrd = d.yrd ∧ e.cls = d.cls ∧ e.key = d.key ∧ e.pke = d.pke ∧ e.pkeWait = d.pkeWait ∧ e.sym = d.sym ∧
    e.lc = d.lc ∧ e.otp = d.otp ∧ e.dbg = d.dbg ∧ e.crd = d.crd ∧ e.tmp = d.tmp ∧ e.bwt = d.bwt ∧ e.evr = d.evr ∧ e.mgt = d.mgt ∧ e.ps = d.ps ∧ e.sram = d.sram ∧ e.psUser = d.psUser := by
  obtain ⟨hrest, -⟩ := h
  exact ⟨(congrArg Dev.ldg hrest :), (congrArg Dev.reqs hrest :), (congrArg Dev.comps hrest :), (congrArg Dev.stl hrest :), (congrArg Dev.yrd hrest :), (congrArg Dev.cls hrest :), (congrArg Dev.key hrest :), (congrArg Dev.pke hrest :), (congrArg Dev.pkeWait hrest :), (congrArg Dev.sym hrest :), 
    (congrArg Dev.lc hrest :), (congrArg Dev.otp hrest :), (congrArg Dev.dbg hrest :), (congrArg Dev.crd hrest :), (congrArg Dev.tmp hrest :), (congrArg Dev.bwt hrest :), (congrArg Dev.evr hrest :), (congrArg Dev.mgt hrest :), (congrArg Dev.ps hrest :), (congrArg Dev.sram hrest :), (congrArg Dev.psUser hrest :)⟩

theorem judgeQueue_now {n b : Nat} : (judgeQueue d n b).now = d.now := by
  have hev : ∀ x : Dev, (queueEvent x n).now = x.now := fun x => by
    unfold queueEvent
    split
    · exact (Still.signal (.refl x)).now
    · rfl
  unfold judgeQueue
  dsimp only
  split
  · rw [hev]
    split
    · rw [hev]; rfl
    · rfl
  · split
    · rw [hev]; rfl
    · rfl

theorem foldl_now {β : Type} {f : Dev → β → Dev} (hf : ∀ d x, (f d x).now = d.now) (l : List β) (d : Dev) : (l.foldl f d).now = d.now := by
  induction l generalizing d with
  | nil => rfl
  | cons x l ih => exact (ih (f d x)).trans (hf d x)

theorem nextCycle_now : (nextCycle d).now = d.now + 1 :=
  congrArg (· + 1) (foldl_now (fun _ _ => judgeQueue_now) d.yrd.judge { d with yrd := { d.yrd with judge := [] } })

theorem haltStart_now (d : Dev) {b : Bool} : (haltStart d b).now = d.now := (Still.logRec (.refl d)).now

theorem warmKept_now (d : Dev) {cause : Byte} : (closeLog (warmKeep d cause)).now = d.now := rfl

theorem warmStart_now {env : StartEnv} {why : Byte} {gone : Bool} : (warmStart d env why gone).now = d.now := by
  unfold warmStart
  extract_lets d1 d2 d3 img d4
  have h0 : (startPsf d env).now = d.now := rfl
  have h1 : Onward (startPsf d env) d1 := .foldl (fun _ _ h => .ite h h.writeHeader) (.refl _)
  have h2 : Onward (startPsf d env) d2 := (Onward.ite h1 h1.forceManifest).choosePending
  have h3 : Onward (startPsf d env) d3 := .ite h2.createVfs h2
  split
  · exact (haltStart_now (openLog d3)).trans (h3.openLog.now.trans h0)
  · exact h3.measure.selfTests.warmRoot.clearCarried.openTable.lapseAll.openLog.logLifecycle.initLedger.now.trans h0

theorem warmReset_now {env : StartEnv} {cause why : Byte} : (warmReset d env cause why).now = d.now := by
  unfold warmReset
  split
  · rfl
  · split
    · rfl
    · rw [warmStart_now, warmKept_now]
      exact (Onward.warmEnd (.refl d)).now

theorem tickWatchdog_now : (tickWatchdog d).now = d.now := by
  cases hw : swdtOver d with
  | false => exact (Ticks.tickWatchdog hw (.refl d)).now
  | true =>
    rw [tickWatchdog, hw, if_pos rfl, warmReset_now]

theorem resetPcie_still : Still { d with hif := { d.hif with up := false, link := .down, width := 0, speed := 0, degraded := false, downDue := d.hif.downDue || d.hif.up } } (resetPcie d) :=
  .dropFenced (.fenceWhere (.refl _))

theorem resetIsland_now {i : Island} : (resetIsland d i).now = d.now := by
  unfold resetIsland
  split
  · exact (Still.resetPke (.refl d)).now
  · exact (Still.resetPke (.refl d)).now
  · exact (Still.resetPke (.refl d)).now
  · exact (Still.resetPke (.refl d)).now
  · exact (Still.resetSym (.refl d)).now
  · rfl
  · exact resetPcie_still.now
  · exact (Still.noteLink (.dropPort (.dropPort (.refl d)))).now

theorem crossTimeout_now {i : Island} : (crossTimeout d i).now = d.now := by
  have hcount : ∀ x : Dev, (countTimeout x i).now = x.now := fun _ => rfl
  unfold crossTimeout
  dsimp only
  split
  · rfl
  · split
    · exact (Still.errF (.refl _)).now
    · rw [resetIsland_now, (Still.errD (.refl _)).now, hcount]

theorem tickCrossings_now : (tickCrossings d).now = d.now := by
  unfold tickCrossings
  split
  · exact foldl_now (fun x i => by
      split
      · exact crossTimeout_now
      · rfl) _ _
  · rfl

theorem tickDrbg_now : (tickDrbg d).now = d.now := by
  unfold tickDrbg
  split
  · exact (Onward.reseed (.refl d)).now
  · rfl

theorem tick_now : (tick d).now = d.now + 1 := by
  rw [tick, tickDrbg_now, (Ticks.tickCps (.refl _)).now, tickCrossings_now, (Ticks.tickTimers (.refl _)).now, tickWatchdog_now, (Ticks.tickChain (.refl _)).now, nextCycle_now]

theorem tickCrossings_idle (hx : d.glb.xwdStalled = []) : tickCrossings d = d := by
  have hnone : ∀ i, stallOver d i = false := fun i => by
    rw [stallOver, hx]
    rfl
  have hfold : ∀ l : List Island, l.foldl (fun d i => if stallOver d i then crossTimeout d i else d) d = d := fun l => by
    induction l with
    | nil => rfl
    | cons i l ih => rw [List.foldl_cons, hnone i, if_neg Bool.false_ne_true, ih]
  unfold tickCrossings
  split
  · exact hfold islands
  · rfl

theorem reseedDue_ticks (h : Ticks d e) : reseedDue e = reseedDue d :=
  (congrArg reseedDue h.rest : reseedDue { e with glb := d.glb, sec := d.sec, hif := d.hif, rng := d.rng, chn := d.chn, tmr := d.tmr, out := d.out } = reseedDue d)

/-- A cycle without a crossing stalled too long, a watchdog run down or a reseed due only counts. -/
theorem tick_counts (hj : d.yrd.judge = []) (hx : d.glb.xwdStalled = []) (hw : swdtOver d = false) (hr : reseedDue { d with now := d.now + 1 } = false) : Ticks { d with now := d.now + 1 } (tick d) := by
  have hnext : nextCycle d = { d with now := d.now + 1 } := by
    unfold nextCycle judgeQueues
    rw [hj]
    cases d with
    | mk now glb ldg otp lc dbg sec sram psUser hif stl yrd => 
      cases yrd
      cases hj
      rfl
  have hchain := Ticks.tickChain (.refl { d with now := d.now + 1 })
  have hover : swdtOver (tickChain { d with now := d.now + 1 }) = false := by
    rw [← hw]
    unfold tickChain
    split <;> rfl
  have htimers := (Ticks.tickWatchdog hover hchain).tickTimers
  have hcross := tickCrossings_idle (htimers.stalled.trans hx)
  have hcps := htimers.tickCps
  have hdue := (reseedDue_ticks hcps).trans hr
  rw [tick, hnext, hcross, tickDrbg, hdue, if_neg Bool.false_ne_true]
  exact hcps

end

theorem exec_next (c : Instr) (s : State) : ∃ d : Dev, exec c s = .next { s with toDev := d } := by
  cases c <;> exact ⟨_, rfl⟩

/-- Settles O1: `step` is `exec` of the front; every row of `exec` puts a device function's result; an empty queue is one cycle, and an idle cycle only counts. -/
theorem stepRunsTheFront : Obligations.StepRunsTheFront := by
  refine ⟨fun c s rest => rfl, exec_next, fun s hp => ⟨tick s.toDev, ?_, tick_now, fun hj hx hw hr => ?_⟩⟩
  · rw [step, hp]
    rfl
  · have h := tick_counts hj hx hw hr
    obtain ⟨hldg, hreqs, hcomps, hstl, hyrd, hrest⟩ := h.parts
    exact ⟨hldg, hreqs, hcomps, hstl, hyrd, fun hr => And.comm.mp (h.awake hr), hrest⟩

end Sys2Proof.Machine
end

section
/-! Timers. -/

namespace Sys2Proof.Machine

open Sys2Proof.Safety

section
variable {d e : Dev} {t j : Nat} {x : Timer} {n : Nat × Nat}

/-- A timer at its end. -/
def ended (now : Nat) (x : Timer) : Timer := { x with running := false, count := 0, zero := true, zeroAt := some now, stopAt := none }

/-- A timer `n` ticks on, with the phase left over. -/
def ticked (now : Nat) (x : Timer) (n : Nat × Nat) : Timer := if x.count.toNat ≤ n.1 then ended now x else { x with count := x.count - BitVec.ofNat 32 n.1, phase := n.2 }

theorem wake_tmr {c : WakeCause} : (wake d c).tmr = d.tmr := by
  obtain ⟨w, k, l, m, o, hw⟩ := wake_parts d c
  rw [hw]

theorem wake_sec {c : WakeCause} : (wake d c).sec = d.sec := by
  obtain ⟨w, k, l, m, o, hw⟩ := wake_parts d c
  rw [hw]

theorem tmrIrq_tmr : (tmrIrq d t).tmr = d.tmr := by
  unfold tmrIrq
  split <;> rfl

theorem tmrIrq_power : (tmrIrq d t).glb = d.glb := by
  unfold tmrIrq
  split <;> rfl

theorem tmrOf_congr (h : e.tmr = d.tmr) : tmrOf e j = tmrOf d j := by rw [tmrOf, h, tmrOf]

/-- A timer at its end: the bit, the interrupt it asks for, the wake. -/
theorem zeroTimer_ends (hrun : (x.running || x.stopAt == some d.now) = true) (hx : tmrOf d t = x) (hc : counts d x = true) :
    zeroTimer d t = wake (if x.zeroIe then tmrIrq (setTmr d t (ended d.now x)) t else setTmr d t (ended d.now x)) (if d.glb.power == .standby then .timer32k else .timer) := by
  unfold zeroTimer
  rw [hx]
  dsimp only
  rw [hrun, hc, if_neg (show ¬((!true || !true) = true) from Bool.false_ne_true)]
  have hglb : ∀ y : Dev, (if x.zeroIe then tmrIrq y t else y).glb = y.glb := fun y => by
    split
    · exact tmrIrq_power
    · rfl
  rw [hglb]
  rfl

theorem zeroTimer_tmr (hrun : (x.running || x.stopAt == some d.now) = true) (hx : tmrOf d t = x) (hc : counts d x = true) : (zeroTimer d t).tmr = tset d.tmr t (ended d.now x) := by
  rw [zeroTimer_ends hrun hx hc, wake_tmr]
  split
  · exact tmrIrq_tmr
  · rfl

theorem zeroTimer_idle (h : (!((tmrOf d t).running || (tmrOf d t).stopAt == some d.now) || !counts d (tmrOf d t)) = true) : zeroTimer d t = d := by
  unfold zeroTimer
  dsimp only
  rw [h, if_pos rfl]

theorem addTicks_timer (hx : tmrOf d t = x) (hrun : x.running = true) (hf : fabricOn d = true) : tmrOf (addTicks d t n) t = ticked d.now x n := by
  unfold addTicks ticked
  rw [hx]
  dsimp only
  split
  · rw [tmrOf, zeroTimer_tmr (x := x) (by rw [hrun]; rfl) hx (by rw [counts, hf]; rfl), tgetD_tset_self]
  · exact tmrOf_setTmr d t _

theorem zeroTimer_other (h : j ≠ t) : tmrOf (zeroTimer d t) j = tmrOf d j := by
  cases hi : (!((tmrOf d t).running || (tmrOf d t).stopAt == some d.now) || !counts d (tmrOf d t)) with
  | true => rw [zeroTimer_idle hi]
  | false =>
    simp only [Bool.or_eq_false_iff, Bool.not_eq_false'] at hi
    obtain ⟨hrun, hc⟩ := hi
    rw [tmrOf, zeroTimer_tmr hrun rfl hc, tgetD_tset_ne _ _ _ h]
    rfl

theorem addTicks_other (h : j ≠ t) : tmrOf (addTicks d t n) j = tmrOf d j := by
  unfold addTicks
  dsimp only
  split
  · exact zeroTimer_other h
  · exact tmrOf_setTmr_ne d _ h

theorem tickTimer_other (h : j ≠ t) : tmrOf (tickTimer d t) j = tmrOf d j := by
  unfold tickTimer
  dsimp only
  split
  · rfl
  · exact addTicks_other h

/-- Steps over distinct timers: the step of timer `t` meets it as it was. -/
theorem foldl_timer {f : Dev → Nat → Dev} (hf : ∀ d j, Ticks d (f d j)) (hne : ∀ d j, t ≠ j → tmrOf (f d j) t = tmrOf d t) {l : List Nat} (hl : l.Nodup) (ht : t ∈ l) :
    ∃ e, Ticks d e ∧ tmrOf e t = tmrOf d t ∧ tmrOf (l.foldl f d) t = tmrOf (f e t) t := by
  have hrest : ∀ (l : List Nat) (d : Dev), t ∉ l → tmrOf (l.foldl f d) t = tmrOf d t := fun l => by
    induction l with
    | nil => intro d _; rfl
    | cons j l ih =>
      intro d hn
      obtain ⟨hj, hn⟩ := not_or.mp (fun h => hn (List.mem_cons.mpr h))
      exact (ih (f d j) hn).trans (hne d j hj)
  induction l generalizing d with
  | nil => cases ht
  | cons j l ih =>
    obtain ⟨hj, hl⟩ := List.nodup_cons.mp hl
    by_cases h : t = j
    · subst h
      exact ⟨d, .refl d, rfl, hrest l (f d t) hj⟩
    · obtain ⟨e, he, hx, hr⟩ := ih (d := f d j) hl ((List.mem_cons.mp ht).resolve_left h)
      exact ⟨e, (hf d j).trans he, hx.trans (hne d j h), hr⟩

theorem keys_above {α : Type} {lo : Nat} {l : Tab α} (h : risingFrom lo l = true) : ∀ k ∈ l.map (·.1), lo ≤ k := by
  induction l generalizing lo with
  | nil => simp
  | cons x l ih =>
    simp only [risingFrom, Bool.and_eq_true, decide_eq_true_eq] at h
    obtain ⟨hx, hl⟩ := h
    intro k hk
    rcases List.mem_cons.mp hk with rfl | hk
    · exact hx
    · exact Nat.le_trans hx (Nat.le_of_lt (ih hl k hk))

theorem keys_nodup {α : Type} {lo : Nat} {l : Tab α} (h : risingFrom lo l = true) : (l.map (·.1)).Nodup := by
  induction l generalizing lo with
  | nil => exact List.nodup_nil
  | cons x l ih =>
    simp only [risingFrom, Bool.and_eq_true, decide_eq_true_eq] at h
    obtain ⟨-, hl⟩ := h
    exact List.nodup_cons.mpr ⟨fun hm => absurd (keys_above hl _ hm) (Nat.not_succ_le_self _), ih hl⟩

/-- A running timer is listed. -/
theorem tget_running (h : (tmrOf d t).running = true) : tget d.tmr t = some (tmrOf d t) := by
  unfold tmrOf tgetD at h ⊢
  cases hx : tget d.tmr t with
  | none => rw [hx] at h; cases h
  | some x => rfl

theorem Ticks.fabricOn (h : Ticks d e) : Machine.fabricOn e = Machine.fabricOn d := by rw [Machine.fabricOn, Machine.fabricOn, h.power]

/-- A pin edge ticks every timer it drives. -/
theorem pinEdge_timer {pin : Nat} {r : Bool} (htab : twf d.tmr = true) (hf : fabricOn d = true) (hx : tmrOf d t = x) (hpin : onPin x pin r = true) (hnew : tget d.pinEdges (2 * pin + r.toNat) ≠ some d.now) :
    tmrOf (pinEdge d pin r) t = ticked d.now x (prescale x (x.phase + 0x10000)) := by
  have hrun : x.running = true := by
    simp only [onPin, Bool.and_eq_true] at hpin
    exact hpin.1.1.1
  have hmem : t ∈ (d.tmr.filter fun x => onPin x.2 pin r).map (·.1) :=
    List.mem_map.mpr ⟨(t, x), List.mem_filter.mpr ⟨mem_of_tget (by rw [tget_running (by rw [hx]; exact hrun), hx]), hpin⟩, rfl⟩
  have hnodup : ((d.tmr.filter fun x => onPin x.2 pin r).map (·.1)).Nodup := (keys_nodup htab).sublist (List.filter_sublist.map _)
  obtain ⟨e, he, hex, hfold⟩ := foldl_timer (d := { d with pinEdges := tset d.pinEdges (2 * pin + r.toNat) d.now }) (t := t)
    (f := fun d t => addTicks d t (prescale (tmrOf d t) ((tmrOf d t).phase + 0x10000))) (fun d _ => .addTicks (.refl d)) (fun d j h => addTicks_other h) hnodup hmem
  have hxe : tmrOf e t = x := hex.trans hx
  have hfe : fabricOn e = true := he.fabricOn.trans hf
  have hne : ((d.tmr.filter fun x => onPin x.2 pin r).map (·.1)).isEmpty = false := by
    cases hl : (d.tmr.filter fun x => onPin x.2 pin r).map (·.1) with
    | nil => rw [hl] at hmem; cases hmem
    | cons y l => rfl
  unfold pinEdge
  dsimp only
  rw [hne, decide_eq_false hnew, Bool.or_false, if_neg Bool.false_ne_true, hfold, hxe, addTicks_timer hxe hrun hfe, he.now]

theorem tickTimers_timer (htab : twf d.tmr = true) (hf : fabricOn d = true) (hx : tmrOf d t = x) (hrun : x.running = true) : tmrOf (tickTimers d) t = ticked d.now x (ticksOf d.now x) := by
  have hmem : t ∈ d.tmr.map (·.1) := List.mem_map.mpr ⟨(t, x), mem_of_tget (by rw [tget_running (by rw [hx]; exact hrun), hx]), rfl⟩
  obtain ⟨e, he, hex, hfold⟩ := foldl_timer (d := d) (t := t) (f := tickTimer) (fun d _ => .tickTimer (.refl d)) (fun d j h => tickTimer_other h) (keys_nodup htab) hmem
  have hxe : tmrOf e t = x := hex.trans hx
  have hfe : fabricOn e = true := he.fabricOn.trans hf
  rw [tickTimers, hfold, tickTimer, hxe, hrun, counts, hfe]
  exact (addTicks_timer hxe hrun hfe).trans (by rw [he.now])

/-- A crossing timeout leaves the timers. -/
theorem resetIsland_tmr {i : Island} : (resetIsland d i).tmr = d.tmr := by
  unfold resetIsland
  split
  · exact (Still.resetPke (.refl d)).tmr
  · exact (Still.resetPke (.refl d)).tmr
  · exact (Still.resetPke (.refl d)).tmr
  · exact (Still.resetPke (.refl d)).tmr
  · exact (Still.resetSym (.refl d)).tmr
  · rfl
  · exact resetPcie_still.tmr
  · exact (Still.noteLink (.dropPort (.dropPort (.refl d)))).tmr

theorem crossTimeout_tmr {i : Island} : (crossTimeout d i).tmr = d.tmr := by
  have hcount : ∀ x : Dev, (countTimeout x i).tmr = x.tmr := fun _ => rfl
  unfold crossTimeout
  dsimp only
  split
  · rfl
  · split
    · exact (Still.errF (.refl _)).tmr
    · rw [resetIsland_tmr, (Still.errD (.refl _)).tmr, hcount]

theorem foldl_tmr {β : Type} {f : Dev → β → Dev} (hf : ∀ d x, (f d x).tmr = d.tmr) (l : List β) (d : Dev) : (l.foldl f d).tmr = d.tmr := by
  induction l generalizing d with
  | nil => rfl
  | cons x l ih => exact (ih (f d x)).trans (hf d x)

theorem tickCrossings_tmr : (tickCrossings d).tmr = d.tmr := by
  unfold tickCrossings
  split
  · exact foldl_tmr (fun x i => by
      split
      · exact crossTimeout_tmr
      · rfl) _ _
  · rfl

/-- The Yard's judgement of a cycle touches queues and interrupts. -/
structure Judged (d e : Dev) : Prop where
  tmr : e.tmr = d.tmr
  glb : e.glb = d.glb
  dbg : e.dbg = d.dbg
  count : e.sec.swdtCount = d.sec.swdtCount

theorem Judged.trans {a : Dev} (h : Judged a d) (k : Judged d e) : Judged a e := ⟨k.tmr.trans h.tmr, k.glb.trans h.glb, k.dbg.trans h.dbg, k.count.trans h.count⟩

theorem queueEvent_judged {m : Nat} : Judged d (queueEvent d m) := by
  unfold queueEvent
  split
  · unfold signal
    dsimp only
    split
    · exact ⟨rfl, rfl, rfl, rfl⟩
    · exact ⟨rfl, rfl, rfl, rfl⟩
  · exact ⟨rfl, rfl, rfl, rfl⟩

theorem judgeQueue_judged {m b : Nat} : Judged d (judgeQueue d m b) := by
  have hqueue : ∀ q, Judged d (setQueue d m q) := fun _ => ⟨rfl, rfl, rfl, rfl⟩
  unfold judgeQueue
  dsimp only
  split
  · split
    · exact ((hqueue _).trans queueEvent_judged).trans queueEvent_judged
    · exact (hqueue _).trans queueEvent_judged
  · split
    · exact (hqueue _).trans queueEvent_judged
    · exact hqueue _

theorem nextCycle_judged : Judged d (nextCycle d) := by
  have hfold : ∀ (l : List (Nat × Nat)) (e : Dev), Judged e (l.foldl (fun d e => judgeQueue d e.1 e.2) e) := fun l => by
    induction l with
    | nil => exact fun e => ⟨rfl, rfl, rfl, rfl⟩
    | cons x l ih => exact fun e => judgeQueue_judged.trans (ih _)
  obtain ⟨ht, hg, hd, hc⟩ := hfold d.yrd.judge { d with yrd := { d.yrd with judge := [] } }
  exact ⟨ht, hg, hd, hc⟩

theorem tickChain_tmr : (tickChain d).tmr = d.tmr ∧ (tickChain d).glb = d.glb ∧ swdtOver (tickChain d) = swdtOver d := by
  unfold tickChain
  split
  · exact ⟨rfl, rfl, rfl⟩
  · exact ⟨rfl, rfl, rfl⟩

theorem swdtWarn_tmr : (swdtWarn d).tmr = d.tmr := by
  unfold swdtWarn
  split <;> rfl

theorem tickWatchdog_tmr (hw : swdtOver d = false) : (tickWatchdog d).tmr = d.tmr := by
  unfold tickWatchdog
  rw [hw, if_neg Bool.false_ne_true]
  dsimp only
  split
  · rfl
  · exact swdtWarn_tmr

theorem tickCps_tmr : (tickCps d).tmr = d.tmr := by
  have hirq : ∀ x : Dev, (takeIrq x).tmr = x.tmr := fun x => by
    unfold takeIrq
    dsimp only
    split
    · rfl
    · split
      · split <;> rfl
      · rfl
  unfold tickCps
  dsimp only
  split
  · rfl
  · exact hirq _

theorem tickDrbg_tmr : (tickDrbg d).tmr = d.tmr := by
  unfold tickDrbg
  split
  · exact (Onward.reseed (.refl d)).tmr
  · rfl

/-- A fabric cycle ticks a running timer once. -/
theorem tick_timer (htab : twf d.tmr = true) (hf : fabricOn d = true) (hw : swdtOver d = false) (hx : tmrOf d t = x) (hrun : x.running = true) :
    tmrOf (tick d) t = ticked (d.now + 1) x (ticksOf (d.now + 1) x) := by
  obtain ⟨jt, jg, jd, jc⟩ := nextCycle_judged (d := d)
  obtain ⟨ct, cg, cw⟩ := tickChain_tmr (d := nextCycle d)
  have hover : swdtOver (tickChain (nextCycle d)) = false := by rw [cw, ← hw, swdtOver, swdtOver, swdtPaused, swdtPaused, jg, jd, jc]
  have hdog := Ticks.tickWatchdog hover (.refl _)
  have htmr : (tickWatchdog (tickChain (nextCycle d))).tmr = d.tmr := (tickWatchdog_tmr hover).trans (ct.trans jt)
  have hnow : (tickWatchdog (tickChain (nextCycle d))).now = d.now + 1 := by rw [tickWatchdog_now, (Ticks.tickChain (.refl _)).now, nextCycle_now]
  have hfab : fabricOn (tickWatchdog (tickChain (nextCycle d))) = true := by rw [hdog.fabricOn, ← hf, Machine.fabricOn, Machine.fabricOn, cg, jg]
  have htimers := tickTimers_timer (t := t) (by rw [htmr]; exact htab) hfab ((tmrOf_congr htmr).trans hx) hrun
  rw [tick, tmrOf_congr tickDrbg_tmr, tmrOf_congr tickCps_tmr, tmrOf_congr tickCrossings_tmr, htimers, hnow]

end

section
variable {s : State} {t : Nat} {off : Nat} {f : Dev → Dev}

theorem tmrWrite_run (hp : s.glb.power = .run) (htr : inTransit s.toDev t = false) : onDev (fun d => tmrWrite d t off f) s = .next (on s (f s.toDev)) := by
  have hw : tmrWrite s.toDev t off f = f s.toDev := by
    rw [tmrWrite, hp, htr]
    rfl
  exact congrArg (fun d => Host.Outcome.next (on s d)) hw

theorem tmrWrite_off (hp : s.glb.power ≠ .run) : onDev (fun d => tmrWrite d t off f) s = .next s := by
  have hw : tmrWrite s.toDev t off f = s.toDev := by rw [tmrWrite, if_pos (bne_iff_ne.mpr hp)]
  exact congrArg (fun d => Host.Outcome.next (on s d)) hw

end

theorem exec_zero (t : Fin 16) (s : State) : exec (.zero t) s = .next (on s (if (tmrOf s.toDev t.val).count.toNat ≤ 1 then zeroTimer s.toDev t.val else s.toDev)) := rfl

section
variable {d : Dev} {t : Nat} {x : Timer}

theorem pinEdge_now {pin : Nat} {r : Bool} : (pinEdge d pin r).now = d.now := by
  unfold pinEdge
  dsimp only
  split
  · rfl
  · exact foldl_now (fun d _ => (Ticks.addTicks (.refl d)).now) _ _

/-- On the fabric clock each cycle has one edge of a kind, two of both. -/
theorem srcEdges_fabric {now : Nat} (h : x.src = 0) : srcEdges now x = if x.edge = 0 ∨ x.edge = 1 then 1 else 2 := by
  unfold srcEdges
  rw [h]
  change (if x.edge = 1 then 0 else 1) + (if x.edge = 0 then 0 else 1) = _
  by_cases h0 : x.edge = 0
  · rw [h0]
    rfl
  · by_cases h1 : x.edge = 1
    · rw [h1]
      rfl
    · rw [if_neg h0, if_neg h1, if_neg (not_or.mpr ⟨h0, h1⟩)]

theorem armTimer_idle (hx : tmrOf d t = x) (h : x.running = true ∨ x.zeroAt = some d.now) : armTimer d t = d := by
  unfold armTimer
  rw [hx]
  dsimp only
  rw [if_pos]
  rcases h with h | h <;> simp [h]

theorem armTimer_arms (hx : tmrOf d t = x) (hrun : x.running = false) (hz : x.zeroAt ≠ some d.now) : armTimer d t = setTmr d t { x with running := true, count := x.load, phase := 0 } := by
  unfold armTimer
  rw [hx]
  dsimp only
  rw [if_neg]
  simp [hrun, hz]

theorem stopTimer_eq (hx : tmrOf d t = x) : stopTimer d t = if x.running then setTmr d t { x with running := false, stopAt := some d.now } else d := by
  rw [← hx]
  rfl

/-- A pop takes the oldest capture; a capture missed in the same cycle takes its place. -/
theorem popCapture_eq (hx : tmrOf d t = x) (hc : x.caps ≠ []) : popCapture d t =
    match x.missed with
    | some (at_, c, ovf) =>
      if at_ = d.now then
        let d := setTmr d t { x with caps := x.caps.drop 1 ++ [c], capOvf := ovf, missed := none }
        if (capNow d.now x).1 then tmrIrq d t else d
      else setTmr d t { x with caps := x.caps.drop 1 }
    | none => setTmr d t { x with caps := x.caps.drop 1 } := by
  unfold popCapture
  rw [hx]
  dsimp only
  rw [if_neg (by simp [hc])] <;> rfl

theorem popCapture_empty (hx : tmrOf d t = x) (hc : x.caps = []) : popCapture d t = d := by
  unfold popCapture
  rw [hx]
  dsimp only
  rw [hc]
  rfl

/-- A capture of an enabled edge: up to four entries are queued, a fifth is missed. -/
theorem captureAt_eq {r : Bool} (hx : tmrOf d t = x) : captureAt d t r =
    if !(capNow d.now x).2.1 || !edgeOn (capNow d.now x).2.2.2 r then d
    else if x.caps.length < 4 then
      if (capNow d.now x).1 then tmrIrq (setTmr d t { x with caps := x.caps ++ [x.count] }) t else setTmr d t { x with caps := x.caps ++ [x.count] }
    else setTmr d t { x with capOvf := true, missed := some (d.now, x.count, x.capOvf) } := by
  rw [← hx]
  rfl

/-- The timer's end changes its own entry, wakes outside RUN and raises the interrupt of the owner world. -/
theorem zeroTimer_parts (hrun : (x.running || x.stopAt == some d.now) = true) (hx : tmrOf d t = x) (hc : counts d x = true)
    (hwake : d.glb.power ≠ .run → wakes d.glb.power (if d.glb.power == .standby then .timer32k else .timer) = true) :
    tmrOf (zeroTimer d t) t = ended d.now x ∧ (d.glb.power ≠ .run → (zeroTimer d t).glb.waking = true) ∧ (zeroTimer d t).sec = if x.zeroIe then (tmrIrq d t).sec else d.sec := by
  refine ⟨by rw [tmrOf, zeroTimer_tmr hrun hx hc, tgetD_tset_self], fun hp => ?_, ?_⟩
  · rw [zeroTimer_ends hrun hx hc]
    refine wake_waking ?_
    split
    · rw [tmrIrq_power]
      exact hwake hp
    · exact hwake hp
  · rw [zeroTimer_ends hrun hx hc, wake_sec]
    split
    · unfold tmrIrq
      split
      · rw [if_pos (by assumption)]
        rfl
      · rw [if_neg (by assumption)]
        rfl
    · rfl

end

/-- Settles O58: the writes act in RUN on a timer not in transit; the fold over a pin edge's or a cycle's timers meets each once. -/
theorem timersCountAndCapture : Obligations.TimersCountAndCapture := by
  intro s t x hx
  refine ⟨fun hp htr => ⟨fun hrun hz => ?arm, fun h => ?armed, fun hrun => ?stop, fun hrun => ?stopped, fun hcaps hm => ?pop, fun c o hcaps hm hie => ?popMissed, fun hcaps => ?popEmpty⟩,
    fun hp => ⟨?armOff, ?stopOff, ?popOff⟩, fun h => ?zeroIdle, fun hrun hcount hp => ?zero, fun hp h => ?zeroStandby, fun e d y c he hf hd hy hc => ?capture, fun e he hf => ?captureOff,
    fun pin r n p htab hf hrun hmode hsrc hedge hnew hn hpp => ?edge, fun n p hpend htab hrun hp hw h => ?cycle⟩
  case arm =>
    exact (tmrWrite_run hp htr).trans (by rw [armTimer_arms hx.symm hrun hz])
  case armed =>
    exact (tmrWrite_run hp htr).trans (by rw [armTimer_idle hx.symm h, toDev_on])
  case stop =>
    exact (tmrWrite_run hp htr).trans (by rw [stopTimer_eq hx.symm, hrun, if_pos rfl])
  case stopped =>
    exact (tmrWrite_run hp htr).trans (by rw [stopTimer_eq hx.symm, hrun, if_neg Bool.false_ne_true, toDev_on])
  case pop =>
    refine (tmrWrite_run hp htr).trans ?_
    rw [popCapture_eq hx.symm hcaps, List.drop_one]
    cases hmiss : x.missed with
    | none => rfl
    | some m =>
      obtain ⟨m0, c, o⟩ := m
      dsimp only
      rw [if_neg (hm _ hmiss)]
  case popMissed =>
    refine (tmrWrite_run hp htr).trans ?_
    rw [popCapture_eq hx.symm hcaps, hm, List.drop_one]
    dsimp only
    rw [if_pos rfl, if_neg]
    exact fun h => Bool.false_ne_true (hie.symm.trans h)
  case popEmpty =>
    exact (tmrWrite_run hp htr).trans (by rw [popCapture_empty hx.symm hcaps, toDev_on])
  case armOff =>
    exact tmrWrite_off hp
  case stopOff =>
    exact tmrWrite_off hp
  case popOff =>
    exact tmrWrite_off hp
  case zeroIdle =>
    rw [exec_zero, ← hx]
    split
    · rw [zeroTimer_idle, toDev_on]
      rcases h with ⟨hrun, hstop⟩ | hcount
      · rw [← hx, hrun, beq_eq_false_iff_ne.mpr hstop]
        rfl
      · omega
    · rw [toDev_on]
  case zero =>
    have hwake : s.glb.power ≠ .run → wakes s.glb.power (if s.glb.power == .standby then .timer32k else .timer) = true := fun hr => by
      rcases hp with hp | hp | ⟨hp, -⟩
      · exact absurd hp hr
      · rw [hp]; rfl
      · rw [hp]; rfl
    have hlive : (x.running || x.stopAt == some s.now) = true := by
      rcases hrun with hrun | hrun <;> simp [hrun]
    have hc : counts s.toDev x = true := by
      rcases hp with hp | hp | ⟨hp, hf, hs⟩
      · rw [counts, fabricOn, hp]; rfl
      · rw [counts, fabricOn, hp]; rfl
      · rw [counts, fabricOn, hp, hf, hs]; rfl
    obtain ⟨htmr, hwaking, hsec⟩ := zeroTimer_parts hlive hx.symm hc hwake
    refine ⟨on s (zeroTimer s.toDev t.val), ?_, htmr, fun j hj => zeroTimer_other hj, hwaking, fun hie hown => ?_, fun hie hown => ?_, fun hie => ?_⟩
    · rw [exec_zero, ← hx, if_pos hcount]
    · refine (congrArg Sec.irqSecure hsec).trans ?_
      rw [if_pos hie, tmrIrq, hown]
      rfl
    · refine (congrArg Sec.irqNormal hsec).trans ?_
      rw [if_pos hie, tmrIrq, hown]
      rfl
    · refine hsec.trans ?_
      rw [hie, if_neg Bool.false_ne_true]
  case zeroStandby =>
    rw [exec_zero]
    split
    · rw [zeroTimer_idle, toDev_on]
      rw [← hx, counts, fabricOn, hp]
      rcases h with h | h
      · rw [h]; simp
      · rw [beq_eq_false_iff_ne.mpr h]; simp
    · rw [toDev_on]
  case capture =>
    have hrow : exec (.capture e) s = .next (on s (captureAt d t.val e.rising)) := by
      have hc : captureEdge s.toDev e.t.val e.rising = captureAt d t.val e.rising := by rw [captureEdge, hf, he, ← hx, hd]; rfl
      exact congrArg (fun d => Host.Outcome.next (on s d)) hc
    have hnow : d.now = s.now := by rw [hd]; exact pinEdge_now
    rw [hrow, captureAt_eq hy.symm, ← hc]
    refine ⟨fun h => ?_, fun hen hedge => ⟨fun hl hie => ?_, fun hl hie => ?_, fun hl => ?_⟩⟩
    · rw [if_pos]
      rcases h with h | h <;> simp [h]
    · rw [if_neg (by simp [hen, hedge]), if_pos hl, hie, if_neg Bool.false_ne_true]
    · rw [if_neg (by simp [hen, hedge]), if_pos hl, if_pos hie]
      rfl
    · rw [if_neg (by simp [hen, hedge]), if_neg (by omega), hnow]
  case captureOff =>
    have hc : captureEdge s.toDev e.t.val e.rising = s.toDev := by rw [captureEdge, hf]; rfl
    exact congrArg (fun d => Host.Outcome.next (on s d)) hc
  case edge =>
    have hpin : onPin x pin r = true := by rw [onPin, hrun, hmode, hedge, decide_eq_true hsrc]; rfl
    rw [pinEdge_timer htab hf hx.symm hpin hnew, hn, hpp]
    rfl
  case cycle =>
    have hf : fabricOn s.toDev = true := by rcases hp with hp | hp <;> rw [fabricOn, hp] <;> rfl
    have hticks : ticksOf (s.now + 1) x = (n, p) := by
      rcases h with ⟨hm, rfl, rfl⟩ | ⟨hm, hsrc, rfl, rfl⟩
      · rw [ticksOf, hm]; rfl
      · rw [ticksOf, hm, if_pos rfl, prescale, srcEdges_fabric hsrc]
    have hnow : (tick s.toDev).now = s.now + 1 := tick_now
    have htick := tick_timer htab hf hw hx.symm hrun
    rw [hticks] at htick
    obtain ⟨u, hu⟩ : ∃ u, tick s.toDev = u := ⟨_, rfl⟩
    rw [hu] at hnow htick
    refine ⟨on s u, ?_, hnow, htick⟩
    rw [step, hpend, ← hu]
    rfl

end Sys2Proof.Machine
end

section
/-! What survives the end of a request, of a lane and of an engine's operation. -/

namespace Sys2Proof.Machine

open Sys2Proof.Safety

/-- A property that the end of a request keeps: it looks at no request, cell, completion, port or session. -/
structure Ending (P : Dev → Prop) : Prop where
  books : ∀ {d : Dev} {ldg : Ledger} {yrd : Yrd} {reqs : Tab Req} {comps : Tab Comp} {rng : Nat} {chn : Chn} {out : List Out}, P d → P { d with ldg, yrd, reqs, comps, rng, chn, out }
  stage : ∀ {d : Dev} {n k : Nat}, P d → P (modStall d n fun s => { s with recovery := k })
  session : ∀ {d : Dev} {x : Option Session}, P d → P { d with crd := { d.crd with session := x } }
  drawn : ∀ {d : Dev} {rng g : Nat}, P d → P { d with rng, sym := { d.sym with generates := g } }

/-- A property that a zeroization keeps while it ends lanes and operations: besides, it survives a slot freed, an engine cleared and an exchange cut. -/
structure Cutting (P : Dev → Prop) : Prop extends Ending P where
  slotFreed : ∀ {d : Dev} {s : Nat}, P d → P (freeSlot d s)
  bankFreed : ∀ {d : Dev} {b : Nat}, P d → P (freeBank d b)
  slotUsed : ∀ {d : Dev} {s : Nat} {x y : KSlot}, tget d.key.slots s = some x → P d → P { d with key := { d.key with slots := tset d.key.slots s y } }
  bankUsed : ∀ {d : Dev} {b : Nat} {x y : AonSlot}, tget d.key.bank b = some x → P d → P { d with key := { d.key with bank := tset d.key.bank b y } }
  lane : ∀ {d : Dev} {l : Nat}, P d → P (setLanes d (tdel d.sym.lanes l))
  charge : ∀ {d : Dev} {l n k : Nat}, P d → P (chargeLane d l n k)
  check : ∀ {d : Dev}, P d → P { d with dbg := { d.dbg with checking := false, nonce := none } }
  report : ∀ {d : Dev} {st : Half} {b : Bytes}, P d → P (tapReport d st b)
  exchange : ∀ {d : Dev} {b : Bool} {i : Nat}, P d → P (dropExchange d b i)
  waits : ∀ {d : Dev} {w : List Waiting}, P d → P { d with pkeWait := w }
  engine : ∀ {d : Dev} {e : Nat} {p : Pke}, (p.mem = [] ∧ p.acc = 0) ∨ (p.mem = (eng d e).mem ∧ p.acc = (eng d e).acc) → P d → P (setEng d e p)
  irq : ∀ {d : Dev} {a b : Nat}, P d → P { d with sec := { d.sec with irqSecure := a, irqNormal := b } }
  traps : ∀ {d : Dev} {c : Cls}, P d → P (setCls d c)

section
variable {P : Dev → Prop} {d e : Dev} {rid : Nat}

theorem keeps_ite {c : Prop} [Decidable c] {x y : Dev} (hx : P x) (hy : P y) : P (if c then x else y) := by
  split
  · exact hx
  · exact hy

theorem keeps_foldl {β : Type} {f : Dev → β → Dev} (hf : ∀ d x, P d → P (f d x)) (l : List β) {d : Dev} (h : P d) : P (l.foldl f d) := by
  induction l generalizing d with
  | nil => exact h
  | cons x l ih => exact ih (hf d x h)

namespace Ending

variable (hP : Ending P)
include hP

theorem setPort {p : Port} {x : PortSt} (h : P d) : P (setPort d p x) := by
  unfold Machine.setPort
  split
  · exact hP.books h
  · exact hP.books h

theorem claimCells {e' : Dev × List Nat} {i : Issuer} {n : Nat} (he : claimCells d i n = some e') (h : P d) : P e'.1 := by
  unfold Machine.claimCells at he
  split at he
  · cases he
  · simp only [Option.map_eq_some_iff] at he
    obtain ⟨r, -, rfl⟩ := he
    exact hP.books (hP.books h)

theorem freeCells {h' : Nat} {l : List Nat} (h : P d) : P (freeCells d h' l) := hP.books (hP.books h)

theorem setReq {q : Req} (h : P d) : P (setReq d rid q) := hP.books h

theorem delReq (h : P d) : P (delReq d rid) := hP.books h

theorem setRecovery {n k : Nat} (h : P d) : P (setRecovery d n k) := by
  unfold Machine.setRecovery
  dsimp only
  split
  · exact hP.books (hP.stage (hP.books h))
  · exact hP.books (hP.stage (hP.books h))

theorem holdPort {p : Port} (h : P d) : P (holdPort d p) := keeps_ite h (hP.setPort h)

theorem enqueue {p : Port} {f : Frame} {r : Option Nat} (h : P d) : P (enqueue d p f r) := by
  unfold Machine.enqueue
  dsimp only
  refine keeps_ite (hP.setPort ?_) (hP.setPort (hP.books ?_))
  · split
    next e c he => exact hP.claimCells he (hP.holdPort h)
    · exact hP.holdPort h
  · split
    next e c he => exact hP.claimCells he (hP.holdPort h)
    · exact hP.holdPort h

theorem unicast {dest : Nat} {b : FBody} {r : Option Nat} (he : unicast d dest b r = some e) (h : P d) : P e := by
  unfold Machine.unicast at he
  dsimp only at he
  split at he
  · cases he
  · cases he
    exact hP.enqueue h

theorem sealResult {q : Req} {status : Half} {result : Bytes} (h : P d) : P (sealResult d q status result).2.2 := by
  unfold Machine.sealResult
  split
  · exact h
  · split
    · exact h
    · split
      · exact h
      · split
        · exact h
        · exact hP.drawn h

theorem stageComp {q : Req} {c : Comp} (h : P d) : P (stageComp d rid q c) := by
  unfold Machine.stageComp
  dsimp only
  split
  · split
    next e l he => exact hP.books (hP.setReq (hP.claimCells he h))
    · exact hP.books (hP.setReq (hP.setRecovery h))
  · split
    next e l he => exact hP.books (hP.setReq (hP.claimCells he h))
    · exact hP.books (hP.setReq h)
  · exact hP.books (hP.setReq h)

theorem closeConsumed (h : P d) : P (closeConsumed d rid) := by
  unfold Machine.closeConsumed
  split
  · exact keeps_ite (hP.session h) h
  · exact h

theorem finishOne {status : Half} {result : Bytes} {detail : Word} (h : P d) : P (finishOne d rid status result detail) := by
  unfold Machine.finishOne
  split
  · exact h
  · refine keeps_ite h ?_
    extract_lets d1 q d2
    have h2 : P d2 := hP.closeConsumed (hP.freeCells h)
    split
    next st r d3 hs =>
    have h3 : P d3 := by
      have hr := hP.sealResult (q := q) (status := status) (result := result) h2
      rwa [hs] at hr
    extract_lets tag n
    split
    · exact hP.delReq (hP.freeCells h3)
    · exact keeps_ite (hP.delReq (hP.freeCells h3)) (hP.books (hP.delReq (hP.freeCells h3)))
    · refine keeps_foldl (fun d b hd => ?_) _ (hP.delReq (hP.freeCells h3))
      cases hu : Machine.unicast d _ (.result b) with
      | none => exact hd
      | some e => exact hP.unicast hu hd
    · exact keeps_ite (hP.delReq (hP.freeCells h3)) (hP.stageComp (hP.setReq h3))

theorem wakeNops {fuel : Nat} (h : P d) : P (wakeNops fuel d) := by
  induction fuel generalizing d with
  | zero => exact h
  | succ fuel ih =>
    unfold Machine.wakeNops
    split
    · exact h
    · exact ih (hP.finishOne h)

theorem finish {status : Half} {result : Bytes} {detail : Word} (h : P d) : P (finish d rid status result detail) := hP.wakeNops (hP.finishOne h)

end Ending

namespace Cutting

variable (hP : Cutting P)
include hP

theorem endUse {s : Nat} (h : P d) : P (endUse d s) := by
  unfold Machine.endUse
  dsimp only
  split
  · split
    next x hx =>
      split
      · exact hP.bankFreed h
      · exact hP.bankUsed hx h
    · exact h
  · split
    next x hx =>
      split
      · exact hP.slotFreed h
      · exact hP.slotUsed hx h
    · exact h

theorem dropReserved {s : Nat} (h : P d) : P (dropReserved d s) := by
  unfold Machine.dropReserved
  split
  · exact keeps_ite (hP.slotFreed h) h
  · exact h

theorem laneAbort {l : Nat} {st : Half} (h : P d) : P (laneAbort d l st) := by
  unfold Machine.laneAbort
  dsimp only
  split
  · exact h
  · refine hP.finish (keeps_foldl (fun _ _ h => hP.endUse h) _ ?_)
    split
    · exact hP.dropReserved (hP.charge (hP.lane h))
    · exact hP.charge (hP.lane h)

theorem cutSecure {o : PkeOp} (h : P d) : P (cutSecure d o) := by
  unfold Machine.cutSecure
  dsimp only
  split
  · exact keeps_ite (hP.report (hP.check h)) (hP.check h)
  · exact hP.exchange h
  · exact hP.exchange h
  · exact hP.waits h
  · exact h

theorem dropOp {o : PkeOp} (h : P d) : P (dropOp d o) := by
  have hreserved : P (match reservedOf o.kind with | some s => Machine.dropReserved d s | none => d) := by
    split
    · exact hP.dropReserved h
    · exact h
  have hused : ∀ x : Dev, P x → P (match o.usesSlot with | some s => Machine.endUse x s | none => x) := fun x hx => by
    split
    · exact hP.endUse hx
    · exact hx
  unfold Machine.dropOp
  extract_lets d1 d2 d3
  have h3 : P d3 := hP.cutSecure (hused d1 hreserved)
  split
  · exact hP.finish h3
  · exact h3

theorem engIrq {n : Nat} (h : P d) : P (engIrq d n) := keeps_ite (hP.books (hP.irq h)) (hP.books (hP.irq h))

theorem startAbort {n : Nat} (h : P d) : P (startAbort d n) := by
  unfold Machine.startAbort
  dsimp only
  split
  · exact hP.engine (.inl ⟨rfl, rfl⟩) h
  · exact hP.engine (.inl ⟨rfl, rfl⟩) h

theorem finishAbort {n : Nat} (h : P d) : P (finishAbort d n true) := by
  unfold Machine.finishAbort
  extract_lets p d1 d2 d3
  have h2 : P d2 := hP.engIrq (hP.books (hP.engine (.inr ⟨rfl, rfl⟩) h))
  split
  · exact h
  · rw [if_pos rfl]
    change P (match p.stopped with | some o => Machine.dropOp d2 o | none => d2)
    split
    · exact hP.dropOp h2
    · exact h2

theorem stopEngine {n : Nat} (h : P d) : P (stopEngine d n) := keeps_ite (hP.engine (.inl ⟨rfl, rfl⟩) h) (hP.finishAbort (hP.startAbort h))

theorem stopEngines (h : P d) : P (stopEngines d) := keeps_foldl (fun _ _ h => hP.stopEngine h) _ h

theorem setQueue {n : Nat} {q : YQueue} (h : P d) : P (setQueue d n q) := hP.books h

theorem keepCells {n : Nat} {k : QCell → Bool} (h : P d) : P (keepCells d n k) := by
  unfold Machine.keepCells
  dsimp only
  split
  · exact h
  · exact hP.setQueue (keeps_foldl (fun _ _ h => hP.freeCells h) _ h)

theorem abortReq {x : Nat × Req} (h : P d) : P (abortReq d x) := by
  unfold Machine.abortReq
  split
  · exact h
  · exact h
  · exact hP.finish (hP.setQueue (hP.keepCells h))
  · exact hP.finish (hP.traps h)
  · exact hP.finish h

end Cutting

end

end Sys2Proof.Machine
end

section
/-! A tamper event: what it clears and what it leaves. -/

namespace Sys2Proof.Machine

open Sys2Proof.Safety

/-- What the end of lanes, operations and requests leaves alone in a zeroization. -/
structure Zeroes (a e : Dev) : Prop where
  now : e.now = a.now
  nextRid : e.nextRid = a.nextRid
  glb : e.glb = a.glb
  otp : e.otp = a.otp
  lc : e.lc = a.lc
  sram : e.sram = a.sram
  psUser : e.psUser = a.psUser
  hif : e.hif = a.hif
  ps : e.ps = a.ps
  tmp : e.tmp = a.tmp
  bwt : e.bwt = a.bwt
  evr : e.evr = a.evr
  mgt : e.mgt = a.mgt
  token : e.dbg.token = a.dbg.token
  checking : a.dbg.checking = false → e.dbg.checking = false

section
variable {a d e : Dev} {l : Nat}

theorem Zeroes.refl (d : Dev) : Zeroes d d := ⟨rfl, rfl, rfl, rfl, rfl, rfl, rfl, rfl, rfl, rfl, rfl, rfl, rfl, rfl, id⟩

theorem Zeroes.trans (h : Zeroes a d) (k : Zeroes d e) : Zeroes a e :=
  ⟨k.now.trans h.now, k.nextRid.trans h.nextRid, k.glb.trans h.glb, k.otp.trans h.otp, k.lc.trans h.lc, k.sram.trans h.sram, k.psUser.trans h.psUser, k.hif.trans h.hif, k.ps.trans h.ps,
    k.tmp.trans h.tmp, k.bwt.trans h.bwt, k.evr.trans h.evr, k.mgt.trans h.mgt, k.token.trans h.token, fun hc => k.checking (h.checking hc)⟩

theorem Zeroes.upd {ldg : Ledger} {sec : Sec} {stl : Stl} {yrd : Yrd} {reqs : Tab Req} {comps : Tab Comp} {cls : Cls} {key : Key} {pke : Tab Pke} {pkeWait : List Waiting} {sym : Sym} {rng : Nat}
    {crd : Crd} {chn : Chn} {out : List Out} (h : Zeroes a d) : Zeroes a { d with ldg, sec, stl, yrd, reqs, comps, cls, key, pke, pkeWait, sym, rng, crd, chn, out } :=
  h.trans ⟨rfl, rfl, rfl, rfl, rfl, rfl, rfl, rfl, rfl, rfl, rfl, rfl, rfl, rfl, id⟩

theorem Zeroes.report {nonce : Option Bytes} {st : Half} {out : List Out} {checking : Bool} (hc : checking = d.dbg.checking ∨ checking = false) (h : Zeroes a d) :
    Zeroes a { d with out, dbg := { d.dbg with checking, nonce, tapStatus := st } } :=
  h.trans ⟨rfl, rfl, rfl, rfl, rfl, rfl, rfl, rfl, rfl, rfl, rfl, rfl, rfl, rfl, fun hd => hc.elim (fun he => he.trans hd) id⟩

theorem Zeroes.cutting (a : Dev) : Cutting (Zeroes a) where
  books h := h.upd
  stage h := h.upd
  session h := h.upd
  drawn h := h.upd
  slotFreed h := h.upd
  bankFreed h := h.upd
  slotUsed _ h := h.upd
  bankUsed _ h := h.upd
  lane h := h.upd
  charge h := keeps_ite h h.upd
  check h := h.report (.inr rfl)
  report h := (h.report (.inl rfl)).upd
  exchange h := keeps_ite h.upd h.upd
  waits h := h.upd
  engine _ h := h.upd
  irq h := h.upd
  traps h := h.upd

/-! ### Lanes and engines -/

/-- A lane without a job. -/
def LaneFree (l : Nat) (d : Dev) : Prop := twf d.sym.lanes = true ∧ tget d.sym.lanes l = none

theorem tget_tdel_none {α : Type} {t : Tab α} {k j : Nat} (ht : twf t = true) (h : tget t j = none) : tget (tdel t k) j = none := by
  by_cases hj : j = k
  · rw [hj, tget_tdel_self t k ht]
  · rw [tget_tdel_ne t hj, h]

theorem laneFree_cutting (l : Nat) : Cutting (LaneFree l) where
  books h := h
  stage h := h
  session h := h
  drawn h := h
  slotFreed h := h
  bankFreed h := h
  slotUsed _ h := h
  bankUsed _ h := h
  lane h := ⟨twf_tdel _ _ h.1, tget_tdel_none h.1 h.2⟩
  charge h := keeps_ite h h
  check h := h
  report h := h
  exchange h := keeps_ite h h
  waits h := h
  engine _ h := h
  irq h := h
  traps h := h

/-- A table of lanes in order. -/
def LanesRise (d : Dev) : Prop := twf d.sym.lanes = true

theorem lanesRise_cutting : Cutting LanesRise where
  books h := h
  stage h := h
  session h := h
  drawn h := h
  slotFreed h := h
  bankFreed h := h
  slotUsed _ h := h
  bankUsed _ h := h
  lane h := twf_tdel _ _ h
  charge h := keeps_ite h h
  check h := h
  report h := h
  exchange h := keeps_ite h h
  waits h := h
  engine _ h := h
  irq h := h
  traps h := h

/-- An engine whose memory and accumulator are clear. -/
def EngineClear (n : Nat) (d : Dev) : Prop := (eng d n).mem = [] ∧ (eng d n).acc = 0

theorem eng_setEng_ne {n m : Nat} {p : Pke} (h : m ≠ n) : eng (setEng d n p) m = eng d m := tgetD_tset_ne _ _ _ h

theorem engineClear_cutting (n : Nat) : Cutting (EngineClear n) where
  books h := h
  stage h := h
  session h := h
  drawn h := h
  slotFreed h := h
  bankFreed h := h
  slotUsed _ h := h
  bankUsed _ h := h
  lane h := h
  charge h := keeps_ite h h
  check h := h
  report h := h
  exchange h := keeps_ite h h
  waits h := h
  engine {d m p} hp h := by
    by_cases hm : n = m
    · subst hm
      have he : eng (setEng d n p) n = p := tgetD_tset_self _ _ _ _
      unfold EngineClear
      rw [he]
      rcases hp with hp | ⟨hmem, hacc⟩
      · exact hp
      · exact ⟨hmem.trans h.1, hacc.trans h.2⟩
    · unfold EngineClear
      rw [eng_setEng_ne hm]
      exact h
  irq h := h
  traps h := h

theorem stopEngine_clear {n : Nat} : EngineClear n (stopEngine d n) := by
  have hset : ∀ p : Pke, p.mem = [] ∧ p.acc = 0 → EngineClear n (setEng d n p) := fun p hp => by
    have he : eng (setEng d n p) n = p := tgetD_tset_self _ _ _ _
    unfold EngineClear
    rw [he]
    exact hp
  unfold stopEngine
  split
  · exact hset _ ⟨rfl, rfl⟩
  · refine (engineClear_cutting n).finishAbort ?_
    unfold startAbort
    dsimp only
    split
    · exact hset _ ⟨rfl, rfl⟩
    · exact hset _ ⟨rfl, rfl⟩

/-- A step that establishes a property of its index, over a list that holds the index. -/
theorem foldl_reaches {β : Type} {P : Dev → Prop} {f : Dev → β → Dev} (hf : ∀ d x, P d → P (f d x)) {x : β} (hx : ∀ d, P (f d x)) {l : List β} (hl : x ∈ l) (d : Dev) : P (l.foldl f d) := by
  induction l generalizing d with
  | nil => cases hl
  | cons y l ih =>
    rcases List.mem_cons.mp hl with rfl | hl
    · exact keeps_foldl hf l (hx d)
    · exact ih hl (f d y)

theorem stopEngines_clear {n : Nat} (hn : n < 4) : EngineClear n (stopEngines d) := by
  refine foldl_reaches (f := stopEngine) (x := n) (fun _ _ h => (engineClear_cutting n).stopEngine h) (fun _ => stopEngine_clear) ?_ d
  simp only [engines, List.mem_cons, List.not_mem_nil, or_false]
  omega

theorem laneAbort_frees {st : Half} (h : LanesRise d) : LaneFree l (laneAbort d l st) := by
  unfold laneAbort
  cases hj : tget d.sym.lanes l with
  | none => exact ⟨h, hj⟩
  | some j =>
    have h1 : LaneFree l (chargeLane (setLanes d (tdel d.sym.lanes l)) l j.payer (d.now - j.since)) := (laneFree_cutting l).charge ⟨twf_tdel _ _ h, tget_tdel_self _ _ h⟩
    refine (laneFree_cutting l).finish (keeps_foldl (fun _ _ h => (laneFree_cutting l).endUse h) _ ?_)
    split
    · exact (laneFree_cutting l).dropReserved h1
    · exact h1

/-- Every lane of a list aborted is free. -/
theorem laneAborts_free {st : Half} {ls : List Nat} (hl : l ∈ ls) (h : LanesRise d) : LaneFree l (ls.foldl (fun d l => laneAbort d l st) d) := by
  induction ls generalizing d with
  | nil => cases hl
  | cons k ls ih =>
    rcases List.mem_cons.mp hl with rfl | hl
    · exact keeps_foldl (f := fun d l => laneAbort d l st) (fun _ _ h => (laneFree_cutting l).laneAbort h) ls (laneAbort_frees h)
    · exact ih hl (lanesRise_cutting.laneAbort h)

/-! ### Slots and bank -/

theorem foldl_tdel_self {α : Type} (t : Tab α) : t.foldl (fun t e => tdel t e.1) t = [] := by
  have hall : ∀ (l t : Tab α), (l ++ t).length = (l ++ t).length → l.foldl (fun t e => tdel t e.1) (l ++ t) = t := fun l => by
    induction l with
    | nil => exact fun t _ => rfl
    | cons e l ih =>
      intro t _
      have hhead : tdel (e :: l ++ t) e.1 = l ++ t := by
        obtain ⟨k, v⟩ := e
        simp [tdel]
      rw [List.foldl_cons, hhead]
      exact ih t rfl
  have := hall t [] rfl
  rwa [List.append_nil] at this

theorem clearSlots_slots : (clearSlots d).key.slots = [] := by
  have hfold : ∀ (l : Tab KSlot) (d : Dev), (l.foldl (fun d e => freeSlot d e.1) d).key.slots = l.foldl (fun t e => tdel t e.1) d.key.slots := fun l => by
    induction l with
    | nil => exact fun _ => rfl
    | cons e l ih => exact fun d => ih (freeSlot d e.1)
  exact (hfold d.key.slots d).trans (foldl_tdel_self _)

theorem clearBank_bank : (clearBank d).key.bank = [] := by
  have hfold : ∀ (l : Tab AonSlot) (d : Dev), (l.foldl (fun d e => freeBank d e.1) d).key.bank = l.foldl (fun t e => tdel t e.1) d.key.bank := fun l => by
    induction l with
    | nil => exact fun _ => rfl
    | cons e l ih => exact fun d => ih (freeBank d e.1)
  exact (hfold d.key.bank d).trans (foldl_tdel_self _)

/-- Freeing slots of the bank touches the bank, its generations and no more. -/
theorem clearBank_parts (d : Dev) : ∃ b g, clearBank d = { d with key := { d.key with bank := b, bankGens := g } } := by
  have hfold : ∀ (l : Tab AonSlot) (d : Dev), ∃ b g, l.foldl (fun d e => freeBank d e.1) d = { d with key := { d.key with bank := b, bankGens := g } } := fun l => by
    induction l with
    | nil => exact fun d => ⟨_, _, rfl⟩
    | cons e l ih =>
      intro d
      obtain ⟨b, g, h⟩ := ih (freeBank d e.1)
      exact ⟨b, g, h⟩
  exact hfold _ _

theorem clearBank_tmp {t : Tmp} : clearBank { d with tmp := t } = { clearBank d with tmp := t } := by
  have hfold : ∀ (l : Tab AonSlot) (d : Dev), l.foldl (fun d e => freeBank d e.1) { d with tmp := t } = { l.foldl (fun d e => freeBank d e.1) d with tmp := t } := fun l => by
    induction l with
    | nil => exact fun _ => rfl
    | cons e l ih => exact fun d => ih (freeBank d e.1)
  exact hfold _ _

theorem clearSlots_parts (d : Dev) : ∃ x g r, clearSlots d = { d with key := { d.key with slots := x, gens := g, replicas := r } } := by
  have hfold : ∀ (l : Tab KSlot) (d : Dev), ∃ x g r, l.foldl (fun d e => freeSlot d e.1) d = { d with key := { d.key with slots := x, gens := g, replicas := r } } := fun l => by
    induction l with
    | nil => exact fun d => ⟨_, _, _, rfl⟩
    | cons e l ih =>
      intro d
      obtain ⟨x, g, r, h⟩ := ih (freeSlot d e.1)
      exact ⟨x, g, r, h⟩
  obtain ⟨x, g, r, h⟩ := hfold d.key.slots d
  exact ⟨x, g, r, by rw [clearSlots, h]⟩

theorem cutTransition_parts (d : Dev) : ∃ rng otp, cutTransition d = { d with rng, otp, lc := { d.lc with job := none } } := by
  have hcut : ∀ w, ∃ rng otp, programCut d w = { d with rng, otp } := fun w => by
    unfold programCut
    cases w with
    | intent k v => exact ⟨_, _, rfl⟩
    | half h => exact ⟨_, _, rfl⟩
    | rootWord r i => exact ⟨_, _, rfl⟩
  unfold cutTransition
  cases hj : d.lc.job with
  | none =>
    refine ⟨d.rng, d.otp, ?_⟩
    have hlc : { d.lc with job := none } = d.lc := by rw [← hj]
    exact (congrArg (fun l => ({ d with lc := l } : Dev)) hlc).symm
  | some j =>
    dsimp only
    split
    next w _ _ _ =>
      obtain ⟨rng, otp, h⟩ := hcut w
      rw [h]
      exact ⟨_, _, rfl⟩
    · exact ⟨_, _, rfl⟩

theorem cutChecks_parts (d : Dev) : ∃ rng otp, cutChecks d = { d with rng, otp, dbg := { d.dbg with token := none, checking := false, nonce := none } } := by
  unfold cutChecks cutToken
  cases ht : d.dbg.token with
  | none =>
    refine ⟨d.rng, d.otp, ?_⟩
    dsimp only
    rw [← ht]
  | some t => exact ⟨_, _, rfl⟩

end

end Sys2Proof.Machine
end

section
/-! Zeroization by a tamper event. -/

namespace Sys2Proof.Machine

open Sys2Proof.Safety

section
variable {d e : Dev} {l n : Nat}

/-- The device once lanes and engines have stopped. -/
def workStopped (d : Dev) : Dev := (List.range 12).foldl (fun d l => laneAbort d l ST.aborted) (stopEngines d)

theorem Zeroes.workStopped (d : Dev) : Zeroes d (workStopped d) :=
  keeps_foldl (fun _ _ h => (Zeroes.cutting d).laneAbort h) _ ((Zeroes.cutting d).stopEngines (.refl d))

theorem workStopped_lane (hl : l < 12) (h : LanesRise d) : LaneFree l (workStopped d) :=
  laneAborts_free (List.mem_range.mpr hl) (lanesRise_cutting.stopEngines h)

theorem workStopped_engine (hn : n < 4) : EngineClear n (workStopped d) :=
  keeps_foldl (fun _ _ h => (engineClear_cutting n).laneAbort h) _ (stopEngines_clear hn)

/-- A card slot whose exchange is cut. -/
def cutExch (c : CardSlot) : CardSlot := if c.exch.isSome then { c with exch := none, phase := .done } else c

/-- Dropping the transients aborts requests, then clears the exchanges and the owners' secrets. -/
theorem dropTransients_parts (d : Dev) : ∃ e o s, (∀ P, Cutting P → P d → P e) ∧
    dropTransients d = { e with crd := { e.crd with a := cutExch e.crd.a, b := cutExch e.crd.b, session := s }, key := { e.key with owners := o } } :=
  ⟨(d.reqs.filter fun e => e.2.env.isSome).foldl abortReq d, _, _, fun _ hP h => keeps_foldl (fun _ _ h => hP.abortReq h) _ h, rfl⟩

theorem cutExch_exch (c : CardSlot) : (cutExch c).exch = none := by
  unfold cutExch
  cases h : c.exch with
  | none =>
    rw [if_neg (by simp)]
    exact h
  | some x => rw [if_pos (by simp)]

/-- What `wipe` leaves: no secret, and the rest as it was. -/
structure Wiped (d e : Dev) : Prop where
  now : e.now = d.now
  nextRid : e.nextRid = d.nextRid
  glb : e.glb = d.glb
  otp : e.otp = d.otp
  lc : e.lc = d.lc
  psUser : e.psUser = d.psUser
  hif : e.hif = d.hif
  ps : e.ps = d.ps
  tmp : e.tmp = d.tmp
  evr : e.evr = d.evr
  token : e.dbg.token = d.dbg.token
  checking : d.dbg.checking = false → e.dbg.checking = false
  slots : e.key.slots = []
  root : e.key.root = 0
  replicas : e.key.replicas = []
  rngInst : e.sym.rngInst = false
  sram : e.sram = memClear d.sram 0x20000000 0x10000
  exch : e.crd.a.exch = none ∧ e.crd.b.exch = none
  engines : ∀ n, n < 4 → EngineClear n e
  lanes : LanesRise d → ∀ l, l < 12 → LaneFree l e

/-- The slots, the root, SRAM's secrets, the DRBG and the replicas once the transients are dropped. -/
def secretsCleared (d : Dev) : Dev :=
  let d := unloadRoot (clearSlots d)
  { d with sram := memClear d.sram 0x20000000 0x10000, sym := { d.sym with rngInst := false }, key := { d.key with replicas := [] } }

theorem secretsCleared_parts (d : Dev) : ∃ g, secretsCleared d = { d with sram := memClear d.sram 0x20000000 0x10000, sym := { d.sym with rngInst := false }, key := { d.key with slots := [], gens := g, root := 0, replicas := [] } } := by
  obtain ⟨x, g, r, hclear⟩ := clearSlots_parts d
  have hslots : (clearSlots d).key.slots = [] := clearSlots_slots
  unfold secretsCleared
  rw [hclear] at hslots ⊢
  exact ⟨g, by rw [← show x = [] from hslots]; rfl⟩

theorem wipe_eq (d : Dev) : wipe d = secretsCleared (dropTransients (workStopped d)) := by
  unfold wipe secretsCleared workStopped
  rfl

theorem wipe_wiped (d : Dev) : Wiped d (wipe d) := by
  obtain ⟨e, o, s, hP, hdrop⟩ := dropTransients_parts (workStopped d)
  have hz : Zeroes d e := hP _ (Zeroes.cutting d) (.workStopped d)
  have heng : ∀ n, n < 4 → EngineClear n e := fun n hn => hP _ (engineClear_cutting n) (workStopped_engine hn)
  have hlane : LanesRise d → ∀ l, l < 12 → LaneFree l e := fun h l hl => hP _ (laneFree_cutting l) (workStopped_lane hl h)
  rw [wipe_eq, hdrop]
  clear hP hdrop
  obtain ⟨g, hs⟩ := secretsCleared_parts { e with crd := { e.crd with a := cutExch e.crd.a, b := cutExch e.crd.b, session := s }, key := { e.key with owners := o } }
  rw [hs]
  exact ⟨hz.now, hz.nextRid, hz.glb, hz.otp, hz.lc, hz.psUser, hz.hif, hz.ps, hz.tmp, hz.evr, hz.token, hz.checking, rfl, rfl, rfl, rfl,
    congrArg (fun m => memClear m 0x20000000 0x10000) hz.sram, ⟨cutExch_exch _, cutExch_exch _⟩, heng, hlane⟩

/-- What the zeroization of an event or of a lost supply leaves: no job, no token in check and no secret. -/
structure Razed (d e : Dev) : Prop where
  now : e.now = d.now
  glb : e.glb = d.glb
  psUser : e.psUser = d.psUser
  hif : e.hif = d.hif
  tmp : e.tmp = d.tmp
  job : e.lc.job = none
  token : e.dbg.token = none
  checking : e.dbg.checking = false
  slots : e.key.slots = []
  root : e.key.root = 0
  replicas : e.key.replicas = []
  rngInst : e.sym.rngInst = false
  sram : e.sram = memClear d.sram 0x20000000 0x10000
  exch : e.crd.a.exch = none ∧ e.crd.b.exch = none
  engines : ∀ n, n < 4 → EngineClear n e
  lanes : LanesRise d → ∀ l, l < 12 → LaneFree l e

/-- The device once the transition and the checks are cut. -/
theorem cut_parts (d : Dev) : ∃ rng otp, cutChecks (cutTransition d) = { d with rng, otp, lc := { d.lc with job := none }, dbg := { d.dbg with token := none, checking := false, nonce := none } } := by
  obtain ⟨r1, o1, h1⟩ := cutTransition_parts d
  rw [h1]
  obtain ⟨r2, o2, h2⟩ := cutChecks_parts { d with rng := r1, otp := o1, lc := { d.lc with job := none } }
  exact ⟨r2, o2, h2⟩

theorem wipe_razed (d : Dev) : Razed d (wipe (cutChecks (cutTransition d))) := by
  obtain ⟨r, o, h⟩ := cut_parts d
  rw [h]
  have hw := wipe_wiped { d with rng := r, otp := o, lc := { d.lc with job := none }, dbg := { d.dbg with token := none, checking := false, nonce := none } }
  obtain ⟨e, he⟩ : ∃ e, wipe { d with rng := r, otp := o, lc := { d.lc with job := none }, dbg := { d.dbg with token := none, checking := false, nonce := none } } = e := ⟨_, rfl⟩
  rw [he] at hw ⊢
  exact ⟨hw.now, hw.glb, hw.psUser, hw.hif, hw.tmp, congrArg Lc.job hw.lc, hw.token, hw.checking rfl, hw.slots, hw.root, hw.replicas, hw.rngInst, hw.sram, hw.exch, hw.engines, hw.lanes⟩

theorem memRead_memClear (m : Mem) (lo len k : Nat) : memRead (memClear m lo len) k = if lo ≤ k ∧ k < lo + len then 0 else memRead m k := by
  induction m with
  | nil => simp [memClear, memRead]
  | cons x m ih =>
    obtain ⟨i, v⟩ := x
    simp only [memClear, List.filter_cons] at ih ⊢
    by_cases hi : lo ≤ i ∧ i < lo + len
    · simp only [hi.1, hi.2, decide_true, Bool.and_self, Bool.not_true, Bool.false_eq_true, if_false, ih, memRead]
      by_cases hk : i = k
      · subst hk
        simp [hi]
      · simp [hk]
    · have hin : (!(decide (lo ≤ i) && decide (i < lo + len))) = true := by
        simp only [Bool.not_eq_true', Bool.and_eq_false_iff, decide_eq_false_iff_not]
        exact Decidable.not_and_iff_or_not.mp hi
      rw [if_pos hin]
      simp only [memRead, ih]
      by_cases hk : i = k
      · subst hk
        simp [hi]
      · simp [hk]

/-! ### The event -/

theorem pme_glb (hg : e.glb = d.glb) (hh : e.hif = d.hif) : (pme e).glb = (pme d).glb := by
  unfold pme
  rw [hh]
  dsimp only
  split
  · exact hg
  · split
    · exact hg
    · split
      · exact hg
      · exact congrArg (fun g : Glb => { g with wakeN := true }) hg
      · exact hg

theorem wake_glb {c : WakeCause} (hc : c ≠ .linkLeft) (hg : e.glb = d.glb) (hh : e.hif = d.hif) : (wake e c).glb = (wake d c).glb := by
  unfold wake
  rw [hg]
  split
  · exact hg
  · split
    · exact absurd rfl hc
    · dsimp only
      rw [hg]
      split
      · exact hg
      · exact pme_glb rfl hh

/-- The bank cleared, the latch done and the device woken, after a zeroization. -/
theorem Razed.zeroized {s : State} {a : Dev} {held : Bool} (hr : Razed a e) (ha : a = { s.toDev with tmp := a.tmp }) (hl : twf s.sym.lanes = true) :
    zeroized s (on s (wake (latchDone (clearBank e) held) .tamper)) (latchDone a held).tmp := by
  obtain ⟨b, g, hbank⟩ := clearBank_parts e
  have hb : (clearBank e).key.bank = [] := clearBank_bank
  rw [hbank] at hb ⊢
  have hb : b = [] := hb
  have hglb : a.glb = s.glb := (congrArg Dev.glb ha :)
  have hhif : a.hif = s.hif := (congrArg Dev.hif ha :)
  have hsram : a.sram = s.sram := (congrArg Dev.sram ha :)
  have hpsu : a.psUser = s.psUser := (congrArg Dev.psUser ha :)
  have hsym : a.sym = s.sym := (congrArg Dev.sym ha :)
  have hd : latchDone { e with key := { e.key with bank := b, bankGens := g } } held = { e with tmp := (latchDone a held).tmp, key := { e.key with bank := b, bankGens := g } } := by
    unfold latchDone
    dsimp only
    rw [hr.tmp]
  rw [hd]
  have hwg : (wake { e with tmp := (latchDone a held).tmp, key := { e.key with bank := b, bankGens := g } } .tamper).glb = (wake s.toDev .tamper).glb :=
    wake_glb (by decide) (hr.glb.trans hglb) (hr.hif.trans hhif)
  obtain ⟨w, n, l, p, o, hw⟩ := wake_parts { e with tmp := (latchDone a held).tmp, key := { e.key with bank := b, bankGens := g } } .tamper
  rw [hw] at hwg ⊢
  have hread : ∀ k, memRead e.sram k = if 0x20000000 ≤ k ∧ k < 0x20000000 + 0x10000 then 0 else memRead s.sram k := fun k => by
    rw [hr.sram, hsram]
    exact memRead_memClear ..
  refine ⟨rfl, hr.slots, hb, hr.root, hr.replicas, fun l hl' => (hr.lanes (by rw [LanesRise, hsym]; exact hl) l hl').2, hr.rngInst, hr.job, hr.token, hr.checking, ?_, hr.engines, fun k h1 h2 => ?_, fun k h => ?_, hwg,
    hr.psUser.trans hpsu, rfl⟩
  · intro c hc
    rcases List.mem_cons.mp hc with rfl | hc
    · exact hr.exch.1
    · rw [List.mem_singleton.mp hc]
      exact hr.exch.2
  · exact (hread k).trans (if_pos ⟨h1, by omega⟩)
  · exact (hread k).trans (if_neg (by omega))

theorem latchCause_tmp (d : Dev) (lid : BitVec 4) (mesh : Byte) (mon : BitVec 4) (vault : Bool) : latchCause d lid mesh mon vault = { d with tmp := (latchCause d lid mesh mon vault).tmp } := rfl

/-- What a tamper event leaves of a device whose source is set in `x`. -/
theorem tamperEvent_zeroized (s : State) (x : Tmp) (lid : BitVec 4) (mesh : Byte) (mon : BitVec 4) (held : Bool) (hl : twf s.sym.lanes = true) :
    zeroized s (on s (tamperEvent { s.toDev with tmp := x } lid mesh mon held)) (latchDone (latchCause { s.toDev with tmp := x } lid mesh mon false) held).tmp := by
  obtain ⟨a, ha⟩ : ∃ a, latchCause { s.toDev with tmp := x } lid mesh mon false = a := ⟨_, rfl⟩
  have hlatch : a = { s.toDev with tmp := a.tmp } := by
    rw [← ha]
    exact latchCause_tmp ..
  unfold tamperEvent
  rw [ha]
  obtain ⟨e, he⟩ : ∃ e, wipe (cutChecks (cutTransition a)) = e := ⟨_, rfl⟩
  have hr := wipe_razed a
  rw [he] at hr ⊢
  exact hr.zeroized hlatch hl

/-- The latch of a cause is the words it names. -/
theorem latch_latched (d : Dev) (x : Tmp) (lid : BitVec 4) (mesh : Byte) (mon : BitVec 4) (vault held : Bool) :
    (latchDone (latchCause { d with tmp := x } lid mesh mon vault) held).tmp = latched d x lid mesh mon vault held := by
  have hop : opTime { d with tmp := x } = opTime d := rfl
  unfold latchDone latchCause latched latchLater
  dsimp only
  rw [hop]
  generalize hy : (if x.cValid = true then x else ({ x with cValid := true, stampPcc := d.glb.pcc, stampTime := opTime d } : Tmp)) = y
  have hq : y.cQueued = x.cQueued := by rw [← hy]; split <;> rfl
  have hlater : y.cLater = x.cLater := by rw [← hy]; split <;> rfl
  rw [hq, hlater]
  cases x.cQueued with
  | false => rfl
  | true => cases x.cLater <;> rfl

/-! ### O27 -/

section
variable (s : State) (held : Bool)

/-- An alarm of a powered device whose source is set in `x`. -/
theorem tamperEvent_latched (x : Tmp) (lid : BitVec 4) (mesh : Byte) (mon : BitVec 4) (hl : twf s.sym.lanes = true) :
    zeroized s (on s (tamperEvent { s.toDev with tmp := x } lid mesh mon held)) (latched s.toDev x lid mesh mon false held) := by
  rw [← latch_latched]
  exact tamperEvent_zeroized s x lid mesh mon held hl

/-- An alarm in VAULT clears the bank and is latched. -/
theorem vaultEvent_eq (d : Dev) (x : Tmp) (lid : BitVec 4) (mesh : Byte) (mon : BitVec 4) :
    vaultEvent { d with tmp := x } lid mesh mon held = { clearBank d with tmp := latched d x lid mesh mon true held } := by
  rw [← latch_latched]
  obtain ⟨a, ha⟩ : ∃ a, latchCause { d with tmp := x } lid mesh mon true = a := ⟨_, rfl⟩
  have hlatch : a = { d with tmp := a.tmp } := by
    rw [← ha]
    exact latchCause_tmp ..
  unfold vaultEvent
  rw [ha, hlatch, clearBank_tmp]
  rfl

theorem meshAlarm_zeroizes (n : Fin 8) (seen : MeshSeen) (hp : powered s.toDev = true) (hl : twf s.sym.lanes = true) (hm : meshOf s.toDev n.val = 0) :
    ∃ t, exec (.meshAlarm n seen held) s = .next t ∧
      zeroized s t (latched s.toDev { s.tmp with mesh := tset s.tmp.mesh n.val (meshClass s.toDev n.val seen) } 0 (BitVec.ofNat 8 (2 ^ n.val)) 0 false held) := by
  have hrun : meshAlarm s.toDev n.val seen held = tamperEvent (setMesh s.toDev n.val seen) 0 (BitVec.ofNat 8 (2 ^ n.val)) 0 held := by
    simp [meshAlarm, hp, hm]
  refine ⟨on s (meshAlarm s.toDev n.val seen held), rfl, ?_⟩
  rw [hrun]
  exact tamperEvent_latched s held _ _ _ _ hl

theorem meshAlarm_again (n : Fin 8) (seen : MeshSeen) (hp : powered s.toDev = true) (hm : meshOf s.toDev n.val ≠ 0) :
    exec (.meshAlarm n seen held) s = .next (on s { s.toDev with tmp := { s.tmp with mesh := tset s.tmp.mesh n.val (meshClass s.toDev n.val seen) } }) := by
  have hrun : meshAlarm s.toDev n.val seen held = setMesh s.toDev n.val seen := by
    simp only [meshAlarm, hp]
    exact if_pos (bne_iff_ne.mpr hm)
  show Host.Outcome.next (on s (meshAlarm s.toDev n.val seen held)) = _
  rw [hrun]
  rfl

theorem lidAlarm_zeroizes (n : Fin 4) (hp : powered s.toDev = true) (hl : twf s.sym.lanes = true) (hn : s.tmp.lid.getLsbD n.val = false) :
    ∃ t, exec (.lidAlarm n held) s = .next t ∧
      zeroized s t (latched s.toDev { s.tmp with lid := s.tmp.lid ||| BitVec.ofNat 4 (2 ^ n.val) } (BitVec.ofNat 4 (2 ^ n.val)) 0 0 false held) := by
  have hrun : lidAlarm s.toDev n.val held = tamperEvent (setLid s.toDev n.val) (BitVec.ofNat 4 (2 ^ n.val)) 0 0 held := by
    unfold lidAlarm
    rw [hp, hn]
    exact if_neg (by decide)
  refine ⟨on s (lidAlarm s.toDev n.val held), rfl, ?_⟩
  rw [hrun]
  exact tamperEvent_latched s held _ _ _ _ hl

theorem monitorAlarm_zeroizes (m : Monitor) (fall : Bool) (hp : powered s.toDev = true) (hl : twf s.sym.lanes = true) (hact : monActive s.toDev m = true) (hm : monAlarmed s.toDev m = false)
    (hf : fall = false ∨ m ≠ .coreVoltage) :
    ∃ t, exec (.monitorAlarm m fall held) s = .next t ∧ zeroized s t (latched s.toDev { s.tmp with mon := s.tmp.mon ||| monMask m } 0 0 (monBits m) false held) := by
  have hrun : monitorAlarm s.toDev m fall held = tamperEvent (setMon s.toDev m) 0 0 (monBits m) held := by
    rcases hf with rfl | hf
    · simp [monitorAlarm, hp, hact, hm]
    · simp [monitorAlarm, hp, hact, hm, hf]
  refine ⟨on s (monitorAlarm s.toDev m fall held), rfl, ?_⟩
  rw [hrun]
  exact tamperEvent_latched s held _ _ _ _ hl

theorem monitorAlarm_atFall (hp : powered s.toDev = true) (ha : s.tmp.coreArmed = true) :
    exec (.monitorAlarm .coreVoltage true held) s = .next (on s { losePower s.toDev with tmp := { (losePower s.toDev).tmp with coreArmed := false } }) := by
  have hact : monActive s.toDev .coreVoltage = true := by
    simp only [monActive]
    simp [hp, ha]
  have hrun : monitorAlarm s.toDev .coreVoltage true held = { losePower s.toDev with tmp := { (losePower s.toDev).tmp with coreArmed := false } } := by
    unfold monitorAlarm
    rw [hp, hact]
    exact (if_neg (by decide)).trans (if_pos rfl)
  show Host.Outcome.next (on s (monitorAlarm s.toDev .coreVoltage true held)) = _
  rw [hrun]

/-- An alarm of one source in VAULT. -/
theorem vaultTamper_command {x : TamperSource} {seen : MeshSeen} {u : Dev} (h : vaultTamper s.toDev x seen held = u) : exec (.vaultTamper x seen held) s = .next (on s u) := by
  subst h
  rfl

theorem clearSource_command {m : Monitor} (hp : s.glb.power ≠ .off) :
    exec (.tamperSourceClear (.monitor m)) s = .next (on s { s.toDev with tmp := { s.tmp with
      mon := s.tmp.mon &&& ~~~monMask m,
      clearSince := if s.tmp.lid = 0 ∧ meshBits s.tmp.mesh = 0 ∧ s.tmp.mon &&& ~~~monMask m = 0 then some (s.tmp.clearSince.getD s.now) else s.tmp.clearSince } }) := by
  have haon : aonOn s.toDev = true := by
    unfold aonOn
    split
    next h => exact absurd h hp
    · rfl
  show Host.Outcome.next (on s (clearSource s.toDev (.monitor m))) = _
  have hrun : clearSource s.toDev (.monitor m) = { s.toDev with tmp := { s.tmp with
      mon := s.tmp.mon &&& ~~~monMask m,
      clearSince := if s.tmp.lid = 0 ∧ meshBits s.tmp.mesh = 0 ∧ s.tmp.mon &&& ~~~monMask m = 0 then some (s.tmp.clearSince.getD s.now) else s.tmp.clearSince } } := by
    simp only [clearSource, haon, anyAlarm]
    by_cases h : s.tmp.lid = 0 ∧ meshBits s.tmp.mesh = 0 ∧ s.tmp.mon &&& ~~~monMask m = 0
    · obtain ⟨hl, hm, hx⟩ := h
      simp [hl, hm, hx]
    · rw [if_neg h]
      have hany : (s.tmp.lid != 0 || meshBits s.tmp.mesh != 0 || s.tmp.mon &&& ~~~monMask m != 0) = true := by
        simp only [Bool.or_eq_true, bne_iff_ne, ne_eq]
        exact fails_of_three fun hlm hx => h ⟨hlm.1, hlm.2, hx⟩
      exact if_pos hany
  rw [hrun]

end

end

/-- Settles O27: an alarm is latched and then all secrets go, from lanes and engines to the slots, the bank and SRAM; the lemmas about `wipe` say what stays. -/
theorem tamperEventsZeroize : Obligations.TamperEventsZeroize := by
  unfold Obligations.TamperEventsZeroize
  refine ⟨fun s held hp hl => ⟨fun n seen hm => meshAlarm_zeroizes s held n seen hp hl hm, fun n seen hm => meshAlarm_again s held n seen hp hm, fun n hn => lidAlarm_zeroizes s held n hp hl hn,
    fun m fall hact hm hf => monitorAlarm_zeroizes s held m fall hp hl hact hm hf, fun ha => monitorAlarm_atFall s held hp ha⟩, fun s held seen => ⟨fun hv => ⟨?_, ?_, ?_, ?_, ?_⟩, ?_, ?_, ?_, ?_⟩⟩
  · intro n hm
    refine vaultTamper_command s held (Eq.trans ?_ (vaultEvent_eq held s.toDev _ _ _ _))
    simp [vaultTamper, hv, hm, setMesh]
  · intro n hm
    refine vaultTamper_command s held ?_
    simp only [vaultTamper, hv]
    exact if_pos (bne_iff_ne.mpr hm)
  · intro n hn
    refine vaultTamper_command s held (Eq.trans ?_ (vaultEvent_eq held s.toDev _ _ _ _))
    simp only [vaultTamper, hv]
    exact if_neg (Bool.eq_false_iff.mp hn)
  · intro m hm ha
    refine vaultTamper_command s held (Eq.trans ?_ (vaultEvent_eq held s.toDev _ _ _ _))
    rcases hm with rfl | rfl | rfl <;> simp [vaultTamper, hv, ha, setMon]
  · intro m h1 h2 h3
    refine vaultTamper_command s held ?_
    cases m <;> simp_all [vaultTamper]
  · intro m hp hm
    exact clearSource_command s hp
  · intro t0 hp hr hg hh ha hc ht
    have hover : holdOver s.toDev = true := by simp [holdOver, hh, ha, hc, ht]
    show Host.Outcome.next (on s (holdRecheck s.toDev)) = _
    simp [holdRecheck, hp, hover, hr, hg]
  · intro t0 hp hc ht
    have hover : holdOver s.toDev = false := by simp [holdOver, hc, ht]
    show Host.Outcome.next (on s (holdRecheck s.toDev)) = _
    simp [holdRecheck, hover, on]
  · intro h
    show Host.Outcome.next (on s (holdRecheck s.toDev)) = _
    rcases h with h | h <;> simp [holdRecheck, h, on]

end Sys2Proof.Machine
end

section
/-! What the steps of a start-up leave alone. -/

namespace Sys2Proof.Machine

open Sys2Proof.Safety

/-- What a step of a start-up between two writes of the power registers leaves: no work begins, stalls keep their state, an open Logbook stays open. -/
structure Calm (d e : Dev) : Prop where
  glb : e.glb = d.glb
  ldg : e.ldg = d.ldg
  dbg : e.dbg = d.dbg
  sram : e.sram = d.sram
  psUser : e.psUser = d.psUser
  reqs : e.reqs = d.reqs
  comps : e.comps = d.comps
  pkeWait : e.pkeWait = d.pkeWait
  tmp : e.tmp = d.tmp
  mgt : e.mgt = d.mgt
  lanes : e.sym.lanes = d.sym.lanes
  tags : e.hif.tags = d.hif.tags
  session : e.crd.session = d.crd.session
  stalls : ∀ n, (stall e n).st = (stall d n).st
  isOpen : d.evr.isOpen = true → e.evr.isOpen = true
  slots : d.key.slots = [] → e.key.slots = []
  fw : d.ps.fwPending = false → e.ps.fwPending = false ∧ e.ps.fwSlot = d.ps.fwSlot ∧ e.ps.fwActive = d.ps.fwActive

section
variable {a d e : Dev}

theorem Calm.refl (d : Dev) : Calm d d := ⟨rfl, rfl, rfl, rfl, rfl, rfl, rfl, rfl, rfl, rfl, rfl, rfl, rfl, fun _ => rfl, id, id, fun h => ⟨h, rfl, rfl⟩⟩

theorem Calm.trans (h : Calm a d) (k : Calm d e) : Calm a e :=
  ⟨k.glb.trans h.glb, k.ldg.trans h.ldg, k.dbg.trans h.dbg, k.sram.trans h.sram, k.psUser.trans h.psUser, k.reqs.trans h.reqs, k.comps.trans h.comps, k.pkeWait.trans h.pkeWait, k.tmp.trans h.tmp, k.mgt.trans h.mgt,
    k.lanes.trans h.lanes, k.tags.trans h.tags, k.session.trans h.session, fun n => (k.stalls n).trans (h.stalls n), fun ho => k.isOpen (h.isOpen ho), fun hs => k.slots (h.slots hs), fun hp =>
      have ⟨p1, s1, a1⟩ := h.fw hp
      have ⟨p2, s2, a2⟩ := k.fw p1
      ⟨p2, s2.trans s1, a2.trans a1⟩⟩

/-- An update of blocks of which no start-up fact here speaks, or not of the part that changes. -/
theorem Calm.upd {now : Nat} {otp : Otp} {lc : Lc} {sec : Sec} {hif : Hif} {yrd : Yrd} {nextRid : Nat} {cls : Cls} {key : Key} {ps : Ps} {pke : Tab Pke} {pkeWindow : Nat} {sym : Sym} {rng : Nat} {crd : Crd} {bwt : Bwt}
    {evr : Evr} {chn : Chn} {tmr : Tab Timer} {pinEdges : Tab Nat} {out : List Out} (h : Calm a d) (hk : d.key.slots = [] → key.slots = [] := by exact id) (hy : sym.lanes = d.sym.lanes := by rfl)
    (ht : hif.tags = d.hif.tags := by rfl) (hc : crd.session = d.crd.session := by rfl) (ho : d.evr.isOpen = true → evr.isOpen = true := by exact id)
    (hf : d.ps.fwPending = false → ps.fwPending = false ∧ ps.fwSlot = d.ps.fwSlot ∧ ps.fwActive = d.ps.fwActive := by exact fun h => ⟨h, rfl, rfl⟩) :
    Calm a { d with now, otp, lc, sec, hif, yrd, nextRid, cls, key, ps, pke, pkeWindow, sym, rng, crd, bwt, evr, chn, tmr, pinEdges, out } :=
  h.trans ⟨rfl, rfl, rfl, rfl, rfl, rfl, rfl, rfl, rfl, rfl, hy, ht, hc, fun _ => rfl, ho, hk, hf⟩

/-- A change of one stall that keeps its state. -/
theorem Calm.modStall {n : Nat} {f : Stall → Stall} (hf : ∀ s, (f s).st = s.st) (h : Calm a d) : Calm a (modStall d n f) := by
  refine h.trans ⟨rfl, rfl, rfl, rfl, rfl, rfl, rfl, rfl, rfl, rfl, rfl, rfl, rfl, fun m => ?_, id, id, fun h => ⟨h, rfl, rfl⟩⟩
  by_cases hm : m = n
  · subst hm
    exact (congrArg Stall.st (stall_setStall d m _)).trans (hf _)
  · exact congrArg Stall.st (stall_setStall_ne d _ hm)

theorem Calm.logRec {r : Record} (h : Calm a d) : Calm a (logRec d r) := by
  unfold Machine.logRec
  split
  · exact h.upd
  · split
    · exact h.upd
    · split
      · exact h.upd
      · exact h.upd

theorem Calm.ite {c : Prop} [Decidable c] {x y : Dev} (hx : Calm a x) (hy : Calm a y) : Calm a (if c then x else y) := by
  split
  · exact hx
  · exact hy

theorem Calm.foldl {β : Type} {f : Dev → β → Dev} (hf : ∀ d x, Calm a d → Calm a (f d x)) {d : Dev} {l : List β} (h : Calm a d) : Calm a (l.foldl f d) := by
  induction l generalizing d with
  | nil => exact h
  | cons x l ih => exact ih (hf d x h)

/-! ### Keys and owners -/

theorem Calm.freeSlot {s : Nat} (h : Calm a d) : Calm a (freeSlot d s) := h.upd fun hs => by
    show tdel d.key.slots s = []
    rw [hs]
    rfl

theorem Calm.freeBank {b : Nat} (h : Calm a d) : Calm a (freeBank d b) := h.upd

theorem Calm.unloadSlot {s : Nat} (h : Calm a d) : Calm a (unloadSlot d s) := by
  unfold Machine.unloadSlot
  cases hx : tget d.key.slots s with
  | none => exact h
  | some x => exact .ite h.freeSlot <| h.upd fun hs => absurd (hx.symm.trans (congrArg (tget · s) hs)) nofun

theorem Calm.unloadWhere {p : KSlot → Bool} (h : Calm a d) : Calm a (unloadWhere d p) := .foldl (fun _ _ h => .ite h.unloadSlot h) h

theorem Calm.unloadBank {b : Nat} (h : Calm a d) : Calm a (unloadBank d b) := by
  unfold Machine.unloadBank
  split
  · exact .ite h.freeBank <| h.upd
  · exact h

theorem Calm.clearBank (h : Calm a d) : Calm a (clearBank d) := .foldl (fun _ _ h => h.freeBank) h

theorem Calm.programZone {off : Nat} {x : Bytes} (h : Calm a d) : Calm a (programZone d off x) := h.upd

theorem Calm.setOwner {o : Nat} {w : Owner} (h : Calm a d) : Calm a (setOwner d o w) := h.upd

theorem Calm.saveTable (h : Calm a d) : Calm a (saveTable d) := .ite h <| .programZone <| h.upd

theorem Calm.deleteOwner {o : Nat} (h : Calm a d) : Calm a (deleteOwner d o) :=
  .saveTable <| (Calm.foldl (fun _ _ h => .ite h.unloadBank h) h.unloadWhere).upd

theorem Calm.dropIssue {o : Nat} (h : Calm a d) : Calm a (dropIssue d o) := h.upd

theorem Calm.lapseEnrolment {o : Nat} (h : Calm a d) : Calm a (lapseEnrolment d o) := by
  unfold Machine.lapseEnrolment
  split
  · exact h
  · split
    · exact h
    · exact .ite h.dropIssue.logRec.deleteOwner h.dropIssue.logRec.setOwner.saveTable

theorem Calm.lapseAll (h : Calm a d) : Calm a (lapseAll d) := .foldl (fun _ _ h => .ite h.lapseEnrolment h) h

theorem Calm.unloadRoot (h : Calm a d) : Calm a (unloadRoot d) := h.upd

theorem Calm.loadRoot (h : Calm a d) : Calm a (loadRoot d) := .ite (h.upd) <| .ite (h.upd) <| h.upd

theorem Calm.startRoot {ok : Bool} (h : Calm a d) : Calm a (startRoot d ok) := .ite h.loadRoot h.unloadRoot

theorem Calm.warmRoot {gone ok : Bool} (h : Calm a d) : Calm a (warmRoot d gone ok) := .ite h <| .ite h.loadRoot <| h.unloadRoot.upd

theorem Calm.clearCarried (h : Calm a d) : Calm a (clearCarried d) := by
  unfold Machine.clearCarried
  split
  · exact .ite (h.upd) h
  · exact h

theorem Calm.openTable {ok : Bool} (h : Calm a d) : Calm a (openTable d ok) := by
  unfold Machine.openTable
  dsimp only
  split
  · exact h.upd
  · refine .ite (h.upd) ?_
    split
    · exact h.upd
    · exact .logRec <| h.upd

/-! ### Tests, images and the Logbook -/

theorem Calm.instantiate (h : Calm a d) : Calm a (instantiate d) := h.upd

theorem Calm.reseed (h : Calm a d) : Calm a (reseed d) := .ite h.upd h

theorem Calm.entropyTest {ok : Bool} (h : Calm a d) : Calm a (entropyTest d ok) := .ite h.instantiate <| .ite h <| .logRec <| h.upd

theorem Calm.laneTest {bad : BitVec 12} (h : Calm a d) : Calm a (laneTest d bad) := .ite (h.upd) <| .logRec <| h.upd

theorem Calm.setEng {n : Nat} {p : Pke} (h : Calm a d) : Calm a (setEng d n p) := h.upd

theorem Calm.engineTest {bad : BitVec 4} (h : Calm a d) : Calm a (engineTest d bad) := .foldl (fun _ _ h => .ite h.setEng.logRec h) h

theorem Calm.selfTests {env : StartEnv} (h : Calm a d) : Calm a (selfTests d env) := h.entropyTest.laneTest.engineTest

theorem Calm.measure {img : Bytes} (h : Calm a d) : Calm a (measure d img) := h.upd

theorem Calm.drawPermutation (h : Calm a d) : Calm a (drawPermutation d) := .ite (h.reseed.upd) h

theorem Calm.choosePending (h : Calm a d) : Calm a (choosePending d) := by
  unfold Machine.choosePending
  cases hp : d.ps.fwPending with
  | false => exact h
  | true =>
    have hne : d.ps.fwPending = false → ∀ {p : Prop}, p := fun hf => absurd (hp.symm.trans hf) (by decide)
    exact .ite h <| .ite (h.upd (hf := fun hf => hne hf)) <| .logRec <| h.upd (hf := fun hf => hne hf)

theorem Calm.forceManifest {m : Option Manifest} (h : Calm a d) : Calm a (forceManifest d m) := h.upd

theorem Calm.createVfs (h : Calm a d) : Calm a (createVfs d) := .ite (.logRec <| h.upd) <| h.upd

theorem Calm.boards {boards : Mem} (h : Calm a d) : Calm a { d with stl := { d.stl with boards } } :=
  h.trans ⟨rfl, rfl, rfl, rfl, rfl, rfl, rfl, rfl, rfl, rfl, rfl, rfl, rfl, fun _ => rfl, id, id, fun h => ⟨h, rfl, rfl⟩⟩

theorem Calm.writeHeader {n : Nat} (h : Calm a d) : Calm a (writeHeader d n) := by
  unfold Machine.writeHeader
  exact h.boards

theorem Calm.recountUse (h : Calm a d) : Calm a (recountUse d) := by
  refine Calm.foldl (fun e n he => ?_) h
  exact .ite he <| he.modStall fun _ => rfl

theorem Calm.openLog (h : Calm a d) : Calm a (openLog d) := by
  have hr := h.recountUse
  unfold Machine.openLog
  generalize Machine.recountUse d = d1 at hr
  exact hr.upd (ho := fun _ => rfl)

theorem openLog_isOpen (d : Dev) : (openLog d).evr.isOpen = true := rfl

theorem Calm.logLifecycle (h : Calm a d) : Calm a (logLifecycle d) := by
  unfold Machine.logLifecycle
  dsimp only
  split
  · exact .ite h.upd.clearBank.logRec <| .ite h.upd.logRec h.upd
  · exact .ite h.logRec h

theorem Calm.logCutSession (h : Calm a d) : Calm a (logCutSession d) := by
  unfold Machine.logCutSession
  split
  · exact .logRec <| h.upd
  · exact h

theorem Calm.sendTrain {p : Port} {ack : Bool} (h : Calm a d) : Calm a (sendTrain d p ack) := h.upd

end

end Sys2Proof.Machine
end

section
/-! A warm reset: how the work ends before it. -/

namespace Sys2Proof.Machine

open Sys2Proof.Safety

/-- What writing the queued records leaves; `q` says that no record of a tamper cause is among them. -/
structure Files (q : Prop) (d e : Dev) : Prop where
  lid : e.tmp.lid = d.tmp.lid
  mesh : e.tmp.mesh = d.tmp.mesh
  mon : e.tmp.mon = d.tmp.mon
  resetDue : e.tmp.resetDue = d.tmp.resetDue
  hold : e.tmp.hold = d.tmp.hold
  tmp : q → e.tmp = d.tmp
  queue : e.evr.queue = d.evr.queue
  fwPending : e.ps.fwPending = d.ps.fwPending
  fwSlot : e.ps.fwSlot = d.ps.fwSlot
  fwActive : e.ps.fwActive = d.ps.fwActive
  stalls : ∀ n, (stall e n).st = (stall d n).st

section
variable {q : Prop} {a d e : Dev}

theorem Files.refl (d : Dev) : Files q d d := ⟨rfl, rfl, rfl, rfl, rfl, fun _ => rfl, rfl, rfl, rfl, rfl, fun _ => rfl⟩

theorem Files.trans (h : Files q a d) (k : Files q d e) : Files q a e :=
  ⟨k.lid.trans h.lid, k.mesh.trans h.mesh, k.mon.trans h.mon, k.resetDue.trans h.resetDue, k.hold.trans h.hold, fun hq => (k.tmp hq).trans (h.tmp hq), k.queue.trans h.queue, k.fwPending.trans h.fwPending,
    k.fwSlot.trans h.fwSlot, k.fwActive.trans h.fwActive, fun n => (k.stalls n).trans (h.stalls n)⟩

theorem Files.upd {lc : Lc} {hif : Hif} {rng : Nat} {ps : Ps} {evr : Evr} {mgt : Mgt} {out : List Out} (h : Files q a d) (hq : evr.queue = d.evr.queue := by rfl) (hp : ps.fwPending = d.ps.fwPending := by rfl)
    (hs : ps.fwSlot = d.ps.fwSlot := by rfl) (ha : ps.fwActive = d.ps.fwActive := by rfl) : Files q a { d with lc, hif, rng, ps, evr, mgt, out } :=
  h.trans ⟨rfl, rfl, rfl, rfl, rfl, fun _ => rfl, hq, hp, hs, ha, fun _ => rfl⟩

theorem Files.ite {c : Prop} [Decidable c] {x y : Dev} (hx : Files q a x) (hy : Files q a y) : Files q a (if c then x else y) := by
  split
  · exact hx
  · exact hy

theorem Files.foldl {β : Type} {f : Dev → β → Dev} {l : List β} (hf : ∀ d, ∀ x ∈ l, Files q a d → Files q a (f d x)) {d : Dev} (h : Files q a d) : Files q a (l.foldl f d) := by
  induction l generalizing d with
  | nil => exact h
  | cons x l ih => exact ih (fun d y hy => hf d y (List.mem_cons_of_mem _ hy)) (hf d x (List.mem_cons_self ..) h)

theorem Files.modStall {n : Nat} {f : Stall → Stall} (hf : ∀ s, (f s).st = s.st) (h : Files q a d) : Files q a (modStall d n f) := by
  refine h.trans ⟨rfl, rfl, rfl, rfl, rfl, fun _ => rfl, rfl, rfl, rfl, rfl, fun m => ?_⟩
  by_cases hm : m = n
  · subst hm
    exact (congrArg Stall.st (stall_setStall d m _)).trans (hf _)
  · exact congrArg Stall.st (stall_setStall_ne d _ hm)

theorem Files.emit {o : Out} (h : Files q a d) : Files q a (emit d o) := h.upd

theorem Files.signal {f : Func} {v : Nat} (h : Files q a d) : Files q a (signal d f v) := by
  unfold Machine.signal
  refine .ite ?_ h.emit
  unfold Machine.setCfg
  exact h.upd

theorem Files.alert {b : Nat} (h : Files q a d) : Files q a (alert d b) := by
  unfold Machine.alert
  dsimp only
  exact .ite h.upd.emit h.upd

theorem Files.appendRec {r : Record} {b : Bytes} (h : Files q a d) : Files q a (appendRec d r b) := by
  unfold Machine.appendRec
  extract_lets e c x e1 fresh d1 d2
  have h1 : Files q a d1 := h.upd
  have h2 : Files q a d2 := .ite h1.signal.alert h1
  exact .ite (h2.modStall fun _ => rfl) h2

theorem Files.programRec {place : Nat} {b : Bytes} (h : Files q a d) : Files q a (programRec d place b) := .ite h h.upd

theorem Files.dropUse {l : List LogRec} (h : Files q a d) : Files q a (dropUse d l) := by
  refine Files.foldl (fun e x _ he => ?_) h
  exact .ite (he.modStall fun _ => rfl) he

theorem Files.takeRoom {len : Nat} (he : takeRoom d len = some e) (h : Files q a d) : Files q a e := by
  simp only [Machine.takeRoom, Option.map_eq_some_iff] at he
  obtain ⟨p, -, rfl⟩ := he
  refine .ite h (.appendRec (.programRec (.dropUse (h.upd ?_))))
  show (if d.evr.failed = true then ({ d.evr with ring := p.1 } : Evr) else { d.evr with log := p.1 }).queue = _
  split <;> rfl

theorem Files.roomFor {r : Record} (he : roomFor d r = .inl e) (h : Files q a d) : Files q a e := by
  unfold Machine.roomFor at he
  split at he
  · cases he
  · split at he
    next d1 hr =>
      cases he
      exact h.takeRoom hr
    · cases he

theorem Files.countRefused {r : Record} {b : Bool} (h : Files q a d) : Files q a (countRefused d r b) := .ite h.upd h.upd

theorem Files.clearCause (hq : ¬ q) (h : Files q a d) : Files q a (clearCause d) := by
  refine h.trans ?_
  unfold Machine.clearCause
  cases d.tmp.cLater with
  | none => exact ⟨rfl, rfl, rfl, rfl, rfl, fun h => absurd h hq, rfl, rfl, rfl, rfl, fun _ => rfl⟩
  | some x => exact ⟨rfl, rfl, rfl, rfl, rfl, fun h => absurd h hq, rfl, rfl, rfl, rfl, fun _ => rfl⟩

theorem Files.settleAfter {x : After} (hx : q → x ≠ .tamper) (h : Files q a d) : Files q a (settleAfter d x) := by
  unfold Machine.settleAfter
  split
  · exact h.upd
  · exact h.clearCause fun hq => hx hq rfl
  · exact h

theorem Files.storeRec {r : Record} (hr : q → r.after ≠ .tamper) (h : Files q a d) : Files q a (storeRec d r) := by
  unfold Machine.storeRec
  split
  next d1 hd => exact (h.roomFor hd).programRec.appendRec.settleAfter hr
  · exact h.countRefused

/-- No tamper record waits for the Logbook's writer. -/
def NoTamper (d : Dev) : Prop := (∀ r ∈ d.evr.queue, r.after ≠ .tamper) ∧ ∀ x, d.evr.writing = some x → x.1.after ≠ .tamper

/-- Writing all records leaves the watch but for the cause of a tamper record. -/
structure Flushed (q : Prop) (d e : Dev) : Prop where
  lid : e.tmp.lid = d.tmp.lid
  mesh : e.tmp.mesh = d.tmp.mesh
  mon : e.tmp.mon = d.tmp.mon
  resetDue : e.tmp.resetDue = d.tmp.resetDue
  hold : e.tmp.hold = d.tmp.hold
  tmp : q → e.tmp = d.tmp
  fwPending : e.ps.fwPending = d.ps.fwPending
  fwSlot : e.ps.fwSlot = d.ps.fwSlot
  fwActive : e.ps.fwActive = d.ps.fwActive
  stalls : ∀ n, (stall e n).st = (stall d n).st

theorem flushRecords_flushed (d : Dev) : Flushed (NoTamper d) d (flushRecords d) := by
  have hqueue : ∀ e, Files (NoTamper d) d e → Files (NoTamper d) { e with evr := { e.evr with queue := [] } } (e.evr.queue.foldl storeRec { e with evr := { e.evr with queue := [] } }) := fun e he =>
    .foldl (fun _ r hr h => h.storeRec fun hq => hq.1 r (he.queue ▸ hr)) (.refl _)
  have hlast : ∀ e, Files (NoTamper d) d e → Flushed (NoTamper d) d (e.evr.queue.foldl storeRec { e with evr := { e.evr with queue := [] } }) := fun e he =>
    have k := hqueue e he
    ⟨k.lid.trans he.lid, k.mesh.trans he.mesh, k.mon.trans he.mon, k.resetDue.trans he.resetDue, k.hold.trans he.hold, fun hq => (k.tmp hq).trans (he.tmp hq), k.fwPending.trans he.fwPending, k.fwSlot.trans he.fwSlot,
      k.fwActive.trans he.fwActive, fun n => (k.stalls n).trans (he.stalls n)⟩
  unfold flushRecords
  dsimp only
  refine hlast _ ?_
  cases hw : d.evr.writing with
  | none => exact .refl d
  | some x =>
    have hd : Files (NoTamper d) d { d with evr := { d.evr with writing := none } } := Files.upd (.refl d)
    exact hd.appendRec.settleAfter fun hq => hq.2 x hw

/-! ### The end of the work -/

/-- What winding the work up leaves: the watch, the store's marks, and no tamper record comes. -/
structure Winds (d e : Dev) : Prop where
  tmp : e.tmp = d.tmp
  ps : e.ps = d.ps
  quiet : NoTamper d → NoTamper e

theorem Winds.refl (d : Dev) : Winds d d := ⟨rfl, rfl, id⟩

theorem Winds.trans (h : Winds a d) (k : Winds d e) : Winds a e := ⟨k.tmp.trans h.tmp, k.ps.trans h.ps, fun hq => k.quiet (h.quiet hq)⟩

theorem Winds.upd {glb : Glb} {ldg : Ledger} {otp : Otp} {lc : Lc} {dbg : Dbg} {hif : Hif} {stl : Stl} {key : Key} {reqs : Tab Req} {comps : Tab Comp} {pkeWait : List Waiting} {cls : Cls} {sym : Sym} {rng : Nat} {crd : Crd} {bwt : Bwt}
    {mgt : Mgt} {out : List Out} (h : Winds a d) : Winds a { d with glb, ldg, otp, lc, dbg, hif, stl, key, reqs, comps, pkeWait, cls, sym, rng, crd, bwt, mgt, out } := h.trans ⟨rfl, rfl, id⟩

theorem Zeroes.winds (h : Zeroes a d) : Winds a d := ⟨h.tmp, h.ps, fun hq => by rwa [NoTamper, h.evr]⟩

theorem Winds.ite {c : Prop} [Decidable c] {x y : Dev} (hx : Winds a x) (hy : Winds a y) : Winds a (if c then x else y) := by
  split
  · exact hx
  · exact hy

theorem Winds.foldl {β : Type} {f : Dev → β → Dev} (hf : ∀ d x, Winds a d → Winds a (f d x)) {d : Dev} {l : List β} (h : Winds a d) : Winds a (l.foldl f d) := by
  induction l generalizing d with
  | nil => exact h
  | cons x l ih => exact ih (hf d x h)

theorem mem_queueRec {now : Nat} {r x : Record} {l : List Record} (h : x ∈ queueRec now r l) : x = r ∨ x ∈ l := by
  induction l with
  | nil => exact .inl (List.mem_singleton.mp h)
  | cons y l ih =>
    unfold queueRec at h
    split at h
    · exact List.mem_cons.mp h
    · rcases List.mem_cons.mp h with rfl | h
      · exact .inr (List.mem_cons_self ..)
      · rcases ih h with h | h
        · exact .inl h
        · exact .inr (List.mem_cons_of_mem _ h)

theorem Winds.logRec {r : Record} (h : Winds a d) (hr : r.after ≠ .tamper := by nofun) : Winds a (logRec d r) := by
  unfold Machine.logRec
  split
  · refine h.trans ⟨rfl, rfl, fun hq => ⟨fun x hx => ?_, hq.2⟩⟩
    rcases mem_queueRec hx with rfl | hx
    · exact hr
    · exact hq.1 x hx
  · split
    · exact h.trans ⟨rfl, rfl, id⟩
    · split
      · exact h.trans ⟨rfl, rfl, id⟩
      · exact h.trans ⟨rfl, rfl, id⟩

theorem Winds.emit {o : Out} (h : Winds a d) : Winds a (emit d o) := h.upd

theorem Winds.signal {f : Func} {v : Nat} (h : Winds a d) : Winds a (signal d f v) := by
  unfold Machine.signal
  refine .ite ?_ h.emit
  unfold Machine.setCfg
  exact h.upd

theorem Winds.alert {b : Nat} (h : Winds a d) : Winds a (alert d b) := by
  unfold Machine.alert
  dsimp only
  exact .ite h.upd.emit h.upd

theorem Winds.closeSession {sub : Half} (h : Winds a d) : Winds a (closeSession d sub) := by
  unfold Machine.closeSession
  split
  · exact h
  · exact .signal <| .logRec h.upd

theorem Winds.loseJournal (h : Winds a d) : Winds a (loseJournal d) :=
  .ite (.upd <| .logRec <| .upd <| .foldl (fun _ _ h => .logRec h) h) <| .upd <| .upd <| .foldl (fun _ _ h => .logRec h) h

theorem Winds.cutTransition (h : Winds a d) : Winds a (cutTransition d) := by
  obtain ⟨rng, otp, hc⟩ := cutTransition_parts d
  rw [hc]
  exact h.upd

theorem Winds.cutChecks (h : Winds a d) : Winds a (cutChecks d) := by
  obtain ⟨rng, otp, hc⟩ := cutChecks_parts d
  rw [hc]
  exact h.upd

theorem Winds.unloadSlot {s : Nat} (h : Winds a d) : Winds a (unloadSlot d s) := by
  unfold Machine.unloadSlot
  split
  · exact .ite h.upd h.upd
  · exact h

theorem Winds.disableStall {n : Nat} (h : Winds a d) : Winds a (disableStall d n) := by
  unfold Machine.disableStall
  extract_lets s d1 d2
  have h1 : Winds a d1 := .foldl (fun _ _ h => .ite h.unloadSlot h) h
  have h2 : Winds a d2 := h1.upd
  unfold Machine.toState
  refine .ite h2 (.alert (.signal ?_))
  unfold Machine.writeHeader
  exact h2.upd

theorem Winds.disableStalls (h : Winds a d) : Winds a (disableStalls d) := .foldl (fun _ _ h => h.disableStall) h

theorem Winds.retireAll (h : Winds a d) : Winds a (retireAll d) := .logRec <| .foldl (fun _ _ h => .logRec h) h.upd

theorem dropWork_eq (d : Dev) : dropWork d = workStopped { d with reqs := [], comps := [], pkeWait := [], sym := { d.sym with wait := [] }, cls := { d.cls with traps := [], runs := [] } } := by
  unfold dropWork workStopped
  rfl

theorem Winds.dropWork (h : Winds a d) : Winds a (dropWork d) := by
  rw [dropWork_eq]
  exact Winds.trans h.upd (Zeroes.workStopped _).winds

/-! ### Stalls -/

/-- A stall that is DISABLED. -/
def Off (n : Nat) (d : Dev) : Prop := (stall d n).st = .disabled

theorem signal_stl {f : Func} {v : Nat} : (signal d f v).stl = d.stl := by
  unfold signal
  split
  · rfl
  · rfl

theorem alert_stl {b : Nat} : (alert d b).stl = d.stl := by
  unfold alert
  dsimp only
  split
  · rfl
  · rfl

/-- A change of state leaves the other stalls and is a change of the stall's state. -/
theorem toState_st {n m : Nat} {st : StallSt} : (stall (toState d n st) m).st = if m = n then st else (stall d m).st := by
  have hmod : (stall (modStall d n fun s => { s with st := st, gen := nextGen s.gen }) m).st = if m = n then st else (stall d m).st := by
    by_cases hm : m = n
    · subst hm
      rw [if_pos rfl]
      exact congrArg Stall.st (stall_setStall d m _)
    · rw [if_neg hm]
      exact congrArg Stall.st (stall_setStall_ne d _ hm)
  unfold toState
  split
  next h =>
    by_cases hm : m = n
    · rw [if_pos hm, hm, h]
    · rw [if_neg hm]
  · unfold writeHeader stall
    rw [alert_stl, signal_stl]
    exact hmod

theorem off_disableStall {n m : Nat} (h : Off m d) : Off m (disableStall d n) := by
  unfold disableStall
  extract_lets s d1 d2
  have h1 : Off m d1 := keeps_foldl (P := Off m) (fun e x he => keeps_ite (P := Off m) (by
    unfold unloadSlot
    split
    · exact keeps_ite (P := Off m) he he
    · exact he) he) _ h
  refine toState_st.trans ?_
  split
  · rfl
  next hm => exact (congrArg Stall.st (stall_setStall_ne d1 _ hm)).trans h1

theorem disableStall_off {n : Nat} : Off n (disableStall d n) := toState_st.trans (if_pos rfl)

theorem disableStalls_off (n : Nat) : Off n (disableStalls d) := by
  unfold disableStalls
  cases hs : tget d.stl.stalls n with
  | none =>
    have h : Off n d := by
      unfold Off stall tgetD
      rw [hs]
      rfl
    exact keeps_foldl (P := Off n) (fun _ _ h => off_disableStall h) _ h
  | some s =>
    have hk : ∀ (e : Dev) (x : Nat × Stall), Off n e → Off n (disableStall e x.1) := fun _ _ h => off_disableStall h
    have hx : ∀ e : Dev, Off n (disableStall e (n, s).1) := fun _ => disableStall_off
    exact foldl_reaches hk hx (mem_of_tget hs) d

theorem retireAll_stl : (retireAll d).stl = d.stl := by
  have hlog : ∀ (e : Dev) (r : Record), (logRec e r).stl = e.stl := fun e r => by
    unfold logRec
    split
    · rfl
    · split
      · rfl
      · split <;> rfl
  unfold retireAll
  rw [hlog]
  exact keeps_foldl (P := fun e => e.stl = d.stl) (fun e x he => (hlog e _).trans he) _ rfl

/-- What the end of the work before a warm reset leaves. -/
theorem warmEnd_flushed (d : Dev) : ∃ e, Onward d e ∧ Winds d e ∧ (∀ n, Off n e) ∧ warmEnd d = flushRecords e :=
  ⟨retireAll (disableStalls (cutTransition (loseJournal (closeSession (dropWork (cutChecks d)) 0x0203)))),
    .retireAll <| .disableStalls <| .cutTransition <| .loseJournal <| .closeSession <| .dropWork <| .cutChecks (.refl d),
    .retireAll <| .disableStalls <| .cutTransition <| .loseJournal <| .closeSession <| .dropWork <| .cutChecks (.refl d), fun n => by
      unfold Off stall
      rw [retireAll_stl]
      exact disableStalls_off n, rfl⟩

end

end Sys2Proof.Machine
end

section
/-! WDT, SOFT and secure resets. -/

namespace Sys2Proof.Machine

open Sys2Proof.Safety

section
variable {a d e : Dev}

/-- The power registers and the ledgers replaced on both sides. -/
theorem Calm.rebase {glb : Glb} {ldg : Ledger} (h : Calm a d) : Calm { a with glb, ldg } { d with glb, ldg } :=
  ⟨rfl, rfl, h.dbg, h.sram, h.psUser, h.reqs, h.comps, h.pkeWait, h.tmp, h.mgt, h.lanes, h.tags, h.session, h.stalls, h.isOpen, h.slots, h.fw⟩

/-- A device whose power registers and ledgers alone are written since `a`. -/
structure Starts (glb : Glb) (ldg : Ledger) (a e : Dev) : Prop where
  glb : e.glb = glb
  ldg : e.ldg = ldg
  calm : Calm { a with glb := e.glb, ldg := e.ldg } e

theorem Calm.starts {glb : Glb} {ldg : Ledger} (h : Calm a d) : Starts glb ldg a { d with glb, ldg } := ⟨rfl, rfl, h.rebase⟩

theorem Starts.logRec {glb : Glb} {ldg : Ledger} {r : Record} (h : Starts glb ldg a d) : Starts glb ldg a (logRec d r) := by
  have hr : Calm d (Machine.logRec d r) := .logRec (.refl d)
  refine ⟨hr.glb.trans h.glb, hr.ldg.trans h.ldg, ?_⟩
  rw [hr.glb, hr.ldg]
  exact h.calm.trans hr

/-- The ledgers begin empty. -/
def freshLedger (d : Dev) (why : Byte) : Ledger := (takeSample { d with ldg := { d.ldg with pools := [], checks := 0, lastInit := why, initPcc := d.glb.pcc, initAt := none } }).ldg

theorem initLedger_starts (h : Calm a d) (why : Byte) : Starts a.glb (freshLedger d why) a (initLedger d why) := by
  have hs : Starts d.glb (freshLedger d why) a { d with glb := d.glb, ldg := freshLedger d why } := h.starts
  rw [← h.glb]
  exact hs.logRec

/-- The power registers of a start-up that has halted for its image. -/
def haltGlb (g : Glb) (kept : Bool) : Glb := { g with boot := .halted kept, raised := if kept then g.raised else 0 }

theorem haltStart_starts (h : Calm a d) (kept : Bool) : Starts (haltGlb a.glb kept) a.ldg a (haltStart d kept) := by
  have hr : Calm a (logRec d (recImage d.ps.fwActive true)) := h.logRec
  obtain ⟨x, hx⟩ : ∃ x, logRec d (recImage d.ps.fwActive true) = x := ⟨_, rfl⟩
  rw [hx] at hr
  unfold haltStart
  rw [hx, ← hr.glb, ← hr.ldg]
  exact hr.starts

/-- The image that a start-up without a pending one takes. -/
def imageOf (d : Dev) : Bytes := tgetD d.ps.fwSlot d.ps.fwActive []

theorem Calm.image (h : Calm a d) (hp : a.ps.fwPending = false) : image d d.ps.fwActive = imageOf a := by
  obtain ⟨-, hs, ha⟩ := h.fw hp
  unfold Machine.image imageOf
  rw [hs, ha]

/-- What the shortened start-up has done. -/
structure Started (d e : Dev) : Prop where
  glb : ∃ psf b, e.glb = { d.glb with psf := psf, boot := b } ∧ (d.ps.fwPending = false → b = if Config.fwSigValid (imageOf d) then d.glb.boot else .halted true)
  pools : d.ldg.pools = [] → e.ldg.pools = []
  calm : Calm { d with glb := e.glb, ldg := e.ldg } e
  isOpen : e.evr.isOpen = true

theorem Starts.isOpen {glb : Glb} {ldg : Ledger} (h : Starts glb ldg a e) (ho : a.evr.isOpen = true) : e.evr.isOpen = true := h.calm.isOpen ho

theorem warmStart_started (d : Dev) (env : StartEnv) (why : Byte) (gone : Bool) : Started d (warmStart d env why gone) := by
  obtain ⟨u, hu⟩ : ∃ u, startPsf d env = u := ⟨_, rfl⟩
  have hud : u = { d with glb := u.glb } := by rw [← hu]; rfl
  have hug : u.glb = { d.glb with psf := u.glb.psf } := by rw [← hu]; rfl
  unfold warmStart
  rw [hu]
  extract_lets d1 d2 d3 img d4 d5
  have h1 : Calm u d1 := .foldl (fun _ _ h => .ite h h.writeHeader) (.refl u)
  have h2 : Calm u d2 := .choosePending (.ite h1 h1.forceManifest)
  have h3 : Calm u d3 := .ite h2.createVfs h2
  have hbase : ∀ e, Calm { u with glb := e.glb, ldg := e.ldg } e → Calm { d with glb := e.glb, ldg := e.ldg } e := fun e h => by
    rw [hud] at h
    exact h
  have himg : d.ps.fwPending = false → img = imageOf d := fun hp => by
    have := h3.image (by rw [hud]; exact hp)
    rw [hud] at this
    exact this
  split
  next hs =>
    have k := haltStart_starts h3.openLog true
    have ho : (haltStart (openLog d3) true).evr.isOpen = true := (haltStart_starts (.refl (openLog d3)) true).isOpen (openLog_isOpen d3)
    obtain ⟨e, he⟩ : ∃ e, haltStart (openLog d3) true = e := ⟨_, rfl⟩
    rw [he] at k ho ⊢
    refine ⟨⟨u.glb.psf, _, k.glb.trans (by rw [hug]; rfl), fun hp => ?_⟩, fun hp => ?_, hbase e k.calm, ho⟩
    · rw [← himg hp, if_neg]
      simpa using hs
    · rw [k.ldg, hud]
      exact hp
  next hs =>
    have h5 : Calm u d5 := h3.measure.selfTests.warmRoot.clearCarried.openTable.lapseAll
    have h4 : Calm u (logLifecycle (openLog d5)) := h5.openLog.logLifecycle
    have hol : (logLifecycle (openLog d5)).evr.isOpen = true := (Calm.logLifecycle (.refl (openLog d5))).isOpen (openLog_isOpen d5)
    obtain ⟨x, hx⟩ : ∃ x, logLifecycle (openLog d5) = x := ⟨_, rfl⟩
    rw [hx] at h4 hol ⊢
    have k := initLedger_starts h4 why
    have ho : (initLedger x why).evr.isOpen = true := (initLedger_starts (.refl x) why).isOpen hol
    obtain ⟨e, he⟩ : ∃ e, initLedger x why = e := ⟨_, rfl⟩
    rw [he] at k ho ⊢
    refine ⟨⟨u.glb.psf, d.glb.boot, k.glb.trans hug, fun hp => ?_⟩, fun _ => ?_, hbase e k.calm, ho⟩
    · rw [← himg hp, if_pos]
      simpa using hs
    · rw [k.ldg]
      rfl

/-! ### What the reset keeps -/

/-- What the clearing of a warm reset leaves of `w`. -/
structure Kept (w : Dev) (c : Byte) (k : Dev) : Prop where
  cause : k.glb.resetCause = w.glb.resetCause ||| c
  raised : k.glb.raised = w.glb.raised ||| c
  power : k.glb.power = .run
  boot : k.glb.boot = .warm
  pcc : k.glb.pcc = w.glb.pcc
  straps : k.glb.straps = w.glb.straps
  fatal : k.glb.fatal = none
  banks : k.glb.bankBf = .inReset ∧ k.glb.bankPs = .inReset ∧ k.glb.bankCrd = .inReset ∧ k.glb.bankMgt = if w.mgt.bankOff then .hiZ else .inReset
  pools : k.ldg.pools = []
  sram : k.sram = []
  psUser : k.psUser = w.psUser
  reqs : k.reqs = []
  comps : k.comps = []
  pkeWait : k.pkeWait = []
  lanes : k.sym.lanes = []
  tags : k.hif.tags = []
  session : k.crd.session = none
  tmp : k.tmp = w.tmp
  grant : k.dbg.grant = 0 ∧ k.dbg.token = none ∧ k.dbg.checking = false
  stalls : ∀ n, (stall k n).st = (stall w n).st
  ps : k.ps = w.ps

/-- A stall without the times of its Class T errors. -/
def quieted (x : Stall) : Stall := { x with classT := [], lastErrRec := none }

theorem warmKeep_kept (w : Dev) (c : Byte) : Kept w c (closeLog (warmKeep w c)) where
  cause := rfl
  raised := rfl
  power := rfl
  boot := rfl
  pcc := rfl
  straps := rfl
  fatal := rfl
  banks := ⟨rfl, rfl, rfl, rfl⟩
  pools := rfl
  sram := rfl
  psUser := rfl
  reqs := rfl
  comps := rfl
  pkeWait := rfl
  lanes := rfl
  tags := rfl
  session := rfl
  tmp := rfl
  grant := ⟨rfl, rfl, rfl⟩
  ps := rfl
  stalls n := by
    have h : stall (closeLog (warmKeep w c)) n = ((tget w.stl.stalls n).map quieted).getD {} := congrArg (·.getD {}) (tget_map_snd quieted w.stl.stalls n)
    rw [h]
    unfold stall tgetD
    cases tget w.stl.stalls n with
    | none => rfl
    | some x => rfl

theorem warmReset_runs {env : StartEnv} {c why : Byte} (hr : running d = true) (ho : outranked d c = false) :
    warmReset d env c why = warmStart (closeLog (warmKeep (warmEnd d) c)) env why (rootGone d) := by
  unfold warmReset
  rw [hr, ho]
  rfl

/-- What a warm reset leaves, from the device at the end of its work. -/
theorem warmStarted_leaves {s : State} {w k u : Dev} {c : Byte} (hw : Onward s.toDev w) (hj : causeJoins s.glb = false) (hf : ∃ e, Winds s.toDev e ∧ (∀ n, Off n e) ∧ Flushed (NoTamper e) e w) (hk : Kept w c k)
    (hu : Started k u) : warmLeaves s (on s u) c := by
  obtain ⟨e, hwind, hoff, hfl⟩ := hf
  obtain ⟨⟨psf, b, hglb, hb⟩, hpools, hcalm, hopen⟩ := hu
  have hpcc : w.glb.pcc = s.glb.pcc := (congrArg Glb.pcc hw.glb :)
  have hstraps : w.glb.straps = s.glb.straps := (congrArg Glb.straps hw.glb :)
  have hps : k.ps.fwPending = s.ps.fwPending ∧ k.ps.fwSlot = s.ps.fwSlot ∧ k.ps.fwActive = s.ps.fwActive := by
    rw [hk.ps, hfl.fwPending, hfl.fwSlot, hfl.fwActive, hwind.ps]
    exact ⟨rfl, rfl, rfl⟩
  have htmp : u.tmp = w.tmp := hcalm.tmp.trans hk.tmp
  refine ⟨rfl, ?_, ?_, ?_, ?_, ?_, hcalm.sram.trans hk.sram, (hcalm.psUser.trans hk.psUser).trans hw.psUser, hcalm.reqs.trans hk.reqs, hcalm.comps.trans hk.comps, hcalm.pkeWait.trans hk.pkeWait,
    hcalm.lanes.trans hk.lanes, hcalm.tags.trans hk.tags, hcalm.session.trans hk.session, ?_, hopen, fun hq => ?_, ?_, ?_, ?_, ?_, ?_, ?_, ?_, ?_, fun n => ?_, fun p => ?_, fun hp => ?_⟩
  · exact (congrArg Glb.resetCause hglb).trans (hk.cause.trans (by rw [hw.cause hj]))
  · exact (congrArg Glb.raised hglb).trans (hk.raised.trans (by rw [hw.raised]))
  · exact (congrArg Glb.power hglb).trans hk.power
  · exact (congrArg Glb.pcc hglb).trans (hk.pcc.trans hpcc)
  · exact (congrArg Glb.straps hglb).trans (hk.straps.trans hstraps)
  · exact (congrArg Glb.fatal hglb).trans hk.fatal
  · exact htmp.trans ((hfl.tmp (hwind.quiet hq)).trans hwind.tmp)
  · exact (congrArg Tmp.lid htmp).trans (hfl.lid.trans (congrArg Tmp.lid hwind.tmp))
  · exact (congrArg Tmp.mesh htmp).trans (hfl.mesh.trans (congrArg Tmp.mesh hwind.tmp))
  · exact (congrArg Tmp.mon htmp).trans (hfl.mon.trans (congrArg Tmp.mon hwind.tmp))
  · exact (congrArg Tmp.resetDue htmp).trans (hfl.resetDue.trans (congrArg Tmp.resetDue hwind.tmp))
  · exact (congrArg Tmp.hold htmp).trans (hfl.hold.trans (congrArg Tmp.hold hwind.tmp))
  · exact (congrArg Dbg.grant hcalm.dbg).trans hk.grant.1
  · exact (congrArg Dbg.token hcalm.dbg).trans hk.grant.2.1
  · exact (congrArg Dbg.checking hcalm.dbg).trans hk.grant.2.2
  · exact (hcalm.stalls n).trans ((hk.stalls n).trans ((hfl.stalls n).trans (hoff n)))
  · show (tgetD u.ldg.pools p {}).held = []
    rw [hpools hk.pools]
    rfl
  · show u.glb.boot = _
    rw [hglb]
    refine (hb (hps.1.trans hp)).trans ?_
    rw [hk.boot, imageOf, hps.2.1, hps.2.2]

theorem warmReset_leaves (s : State) {env : StartEnv} {c why : Byte} (hr : running s.toDev = true) (ho : outranked s.toDev c = false) (hj : causeJoins s.glb = false) :
    warmLeaves s (on s (warmReset s.toDev env c why)) c := by
  rw [warmReset_runs hr ho]
  obtain ⟨e, hon, hwind, hoff, hend⟩ := warmEnd_flushed s.toDev
  have hfl := flushRecords_flushed e
  rw [hend]
  exact warmStarted_leaves hon.flushRecords hj ⟨e, hwind, hoff, hfl⟩ (warmKeep_kept _ c) (warmStart_started ..)

/-! ### O26 -/

theorem running_of {s : State} (hp : powered s.toDev = true) (hb : s.glb.boot = .done ∨ s.glb.boot = .warm) : running s.toDev = true := by
  unfold running
  rcases hb with hb | hb <;> rw [hp, hb] <;> rfl

/-- A WDT or secure reset is performed over a start-up that ended, and over a SOFT reset. -/
theorem outranked_wdt {s : State} {c : Byte} (hc : c.getLsbD 2 = true) (hb : s.glb.boot = .done ∨ (s.glb.boot = .warm ∧ s.glb.raised.getLsbD 2 = false)) : outranked s.toDev c = false ∧ causeJoins s.glb = false := by
  unfold outranked causeJoins
  rcases hb with hb | ⟨hb, hr⟩
  · rw [hb]
    exact ⟨rfl, rfl⟩
  · rw [hb, hc, hr]
    exact ⟨rfl, rfl⟩

theorem swdtOver_of {s : State} (hc : s.sec.swdtCount = 0) (hp : s.glb.power = .run) (hh : ∀ x ∈ s.dbg.halted, x.2 = false) : swdtOver s.toDev = true := by
  have hany : s.dbg.halted.any (·.2) = false := List.any_eq_false.mpr fun x hx => by rw [hh x hx]; decide
  simp [swdtOver, swdtPaused, hc, hp, hany]

theorem swdtOver_false {s : State} (h : s.sec.swdtCount ≠ 0 ∨ s.glb.power ≠ .run ∨ ∃ x ∈ s.dbg.halted, x.2 = true) : swdtOver s.toDev = false := by
  rcases h with h | h | ⟨x, hx, hx2⟩
  · simp [swdtOver, h]
  · simp [swdtOver, h]
  · have hany : s.dbg.halted.any (·.2) = true := List.any_eq_true.mpr ⟨x, hx, hx2⟩
    simp [swdtOver, swdtPaused, hany]

/-- A reset that one of a higher order outranks only adds its cause. -/
theorem warmReset_outranked {env : StartEnv} {c why : Byte} (hr : running d = true) (ho : outranked d c = true) :
    warmReset d env c why = { d with glb := { d.glb with resetCause := d.glb.resetCause ||| c, raised := d.glb.raised ||| c } } := by
  unfold warmReset
  rw [hr, ho]
  rfl

end

section
variable (s : State) (env : StartEnv)

theorem swdtExpire_runs (h : swdtOver s.toDev = true) : exec (.swdtExpire env) s = .next (on s (warmReset s.toDev env causeWdt 3)) := by
  show Host.Outcome.next (on s (if swdtOver s.toDev then warmReset s.toDev env causeWdt 3 else s.toDev)) = _
  rw [h]
  rfl

theorem secureReset_runs (h : resetReady s.toDev = true) : exec (.secureReset env) s = .next (on s (warmReset s.toDev env (causeWdt ||| causeFatal) 3)) := by
  show Host.Outcome.next (on s (if resetReady s.toDev then warmReset s.toDev env (causeWdt ||| causeFatal) 3 else s.toDev)) = _
  rw [h]
  rfl

theorem startUp_of_warm {g : Glb} (hg : g = { s.glb with hotWait := false, raised := 0, bankPs := .released, bankCrd := .released, bankMgt := if s.mgt.bankOff then .hiZ else .released, bankBf := if absent s.toDev || !s.glb.straps.vioBfOk then .inReset else .released })
    (hb : s.glb.boot = .warm) : startUpComplete s.toDev = (let d := sendTrain (sendTrain { s.toDev with glb := g } .up false) .dn false; { d with glb := { g with boot := .done }, mgt := { s.mgt with enabled := !s.mgt.bankOff } }) := by
  subst hg
  unfold startUpComplete
  dsimp only
  rw [hb]
  rfl

theorem startUp_of_halted {g : Glb} (hg : g = { s.glb with hotWait := false, raised := 0, bankPs := .released, bankCrd := .released, bankMgt := if s.mgt.bankOff then .hiZ else .released, bankBf := if absent s.toDev || !s.glb.straps.vioBfOk then .inReset else .released })
    (hb : s.glb.boot = .halted true) : startUpComplete s.toDev = { s.toDev with glb := g } := by
  subst hg
  unfold startUpComplete
  dsimp only
  rw [hb]
  rfl

end

/-- Settles O26: the work ends and its records are written, the clearing keeps what a warm reset keeps, and the shortened start-up leaves it. -/
theorem warmResetsKeepTheDevice : Obligations.WarmResetsKeepTheDevice := by
  unfold Obligations.WarmResetsKeepTheDevice
  refine fun s env hp => ⟨fun hb => ?_, fun hb => ⟨fun hc hpow hh => ?_, fun f hf hw => ?_⟩, fun hb => ⟨?_, fun hr hc hpow hh => ?_⟩, fun h => ?_, fun g hg => ⟨fun hb => ?_, fun hb => ?_⟩, fun hb => ?_, fun hf => ?_⟩
  · have ho : outranked s.toDev 0x10 = false := by
      unfold outranked
      rw [hb]
      rfl
    have hj : causeJoins s.glb = false := by
      unfold causeJoins
      rw [hb]
      rfl
    exact ⟨_, rfl, warmReset_leaves s (running_of hp (.inl hb)) ho hj⟩
  · obtain ⟨ho, hj⟩ := outranked_wdt (c := 0x04) (by decide) hb
    exact ⟨_, swdtExpire_runs s env (swdtOver_of hc hpow hh), warmReset_leaves s (running_of hp (hb.imp id And.left)) ho hj⟩
  · obtain ⟨ho, hj⟩ := outranked_wdt (c := 0x44) (by decide) hb
    have hready : resetReady s.toDev = true := by
      unfold resetReady
      rw [hf]
      simpa using hw
    exact ⟨_, secureReset_runs s env hready, warmReset_leaves s (running_of hp (hb.imp id And.left)) ho hj⟩
  · have ho : outranked s.toDev 0x10 = true := by
      unfold outranked
      rw [hb]
      rfl
    exact congrArg (fun d => Host.Outcome.next (on s d)) (warmReset_outranked (running_of hp (.inr hb)) ho)
  · have ho : outranked s.toDev 0x04 = true := by
      unfold outranked
      rw [hb, hr]
      rfl
    refine (swdtExpire_runs s env (swdtOver_of hc hpow hh)).trans ?_
    exact congrArg (fun d => Host.Outcome.next (on s d)) (warmReset_outranked (running_of hp (.inr hb)) ho)
  · show Host.Outcome.next (on s (if swdtOver s.toDev then warmReset s.toDev env causeWdt 3 else s.toDev)) = _
    rw [swdtOver_false h]
    rfl
  · exact congrArg (fun d => Host.Outcome.next (on s d)) (startUp_of_warm s hg hb)
  · exact congrArg (fun d => Host.Outcome.next (on s d)) (startUp_of_halted s hg hb)
  · show Host.Outcome.next (on s (startUpComplete s.toDev)) = _
    unfold startUpComplete
    dsimp only
    rw [hb]
  · show Host.Outcome.next (on s (if resetReady s.toDev then warmReset s.toDev env (causeWdt ||| causeFatal) 3 else s.toDev)) = _
    have hready : resetReady s.toDev = false := by
      unfold resetReady
      rw [hf]
    rw [hready]
    rfl

end Sys2Proof.Machine
end

section
/-! Cold starts. -/

namespace Sys2Proof.Machine

open Sys2Proof.Safety

/-- The power registers but for those that a cold start writes after it has sampled the straps and counted the power cycle. -/
def coldCore (g : Glb) : Glb :=
  { g with boot := .off, raised := 0, vaultFlag := false, bankBf := .inReset, bankPs := .inReset, bankCrd := .inReset, bankMgt := .inReset, restoreDue := false, opBase := 0 }

/-- What a step of a cold start leaves. -/
structure Later (d e : Dev) : Prop where
  glb : coldCore e.glb = coldCore d.glb
  sram : e.sram = d.sram
  resetDue : e.tmp.resetDue = d.tmp.resetDue
  stalls : ∀ n, (stall e n).st = (stall d n).st
  isOpen : d.evr.isOpen = true → e.evr.isOpen = true
  slots : d.key.slots = [] → e.key.slots = []
  fw : d.ps.fwPending = false → e.ps.fwPending = false ∧ e.ps.fwSlot = d.ps.fwSlot ∧ e.ps.fwActive = d.ps.fwActive

section
variable {a d e : Dev} {env : StartEnv}

theorem Later.refl (d : Dev) : Later d d := ⟨rfl, rfl, rfl, fun _ => rfl, id, id, fun h => ⟨h, rfl, rfl⟩⟩

theorem Later.trans (h : Later a d) (k : Later d e) : Later a e :=
  ⟨k.glb.trans h.glb, k.sram.trans h.sram, k.resetDue.trans h.resetDue, fun n => (k.stalls n).trans (h.stalls n), fun ho => k.isOpen (h.isOpen ho), fun hs => k.slots (h.slots hs), fun hp =>
    have ⟨p1, s1, a1⟩ := h.fw hp
    have ⟨p2, s2, a2⟩ := k.fw p1
    ⟨p2, s2.trans s1, a2.trans a1⟩⟩

theorem Calm.later (h : Calm a d) : Later a d := ⟨congrArg coldCore h.glb, h.sram, congrArg Tmp.resetDue h.tmp, h.stalls, h.isOpen, h.slots, h.fw⟩

theorem Later.calm (h : Later a d) (k : Calm d e) : Later a e := h.trans k.later

theorem Later.upd {glb : Glb} {tmp : Tmp} {ldg : Ledger} {sym : Sym} {rng : Nat} {bwt : Bwt} {mgt : Mgt} (h : Later a d) (hg : coldCore glb = coldCore d.glb := by rfl) (ht : tmp.resetDue = d.tmp.resetDue := by rfl) :
    Later a { d with glb, tmp, ldg, sym, rng, bwt, mgt } := h.trans ⟨hg, rfl, ht, fun _ => rfl, id, id, fun h => ⟨h, rfl, rfl⟩⟩

theorem Later.ite {c : Prop} [Decidable c] {x y : Dev} (hx : Later a x) (hy : Later a y) : Later a (if c then x else y) := by
  split
  · exact hx
  · exact hy

theorem Later.logRec {r : Record} (h : Later a d) : Later a (logRec d r) := h.calm (.logRec (.refl d))

theorem Later.checkFlash (h : Later a d) : Later a (checkFlash d env) := .ite h <| .ite h.upd.logRec h.upd

theorem Later.measureMgt (h : Later a d) : Later a (measureMgt d env) := .ite h.upd.logRec h.upd

theorem Later.logTamper (h : Later a d) : Later a (logTamper d) := by
  unfold Machine.logTamper
  refine .ite ?_ h
  have hl : Calm d (Machine.logRec d (recTamper d)) := .logRec (.refl d)
  exact (h.calm hl).upd (ht := (congrArg Tmp.resetDue hl.tmp.symm :))

theorem Later.draw {n : Nat} (h : Later a d) : Later a (draw d n).2 := h.upd

theorem Later.seedMesh (h : Later a d) : Later a (seedMesh d) := by
  unfold Machine.seedMesh
  refine .ite ?_ h
  exact (h.draw (n := 32)).upd

theorem Later.initLedger {why : Byte} (h : Later a d) : Later a (initLedger d why) := .logRec h.upd

theorem Later.haltStart {b : Bool} (h : Later a d) : Later a (haltStart d b) := h.logRec.upd

theorem Later.enableMgt (h : Later a d) : Later a (enableMgt d) := h.upd

end

/-! ### The parts of a cold start -/

section
variable (d : Dev) (env : StartEnv)

/-- The straps a start-up samples. -/
def sampled : Straps := { strapFault := env.bwMode == 3, vioBfOk := env.bwMode == 0 || vioMatches env, flashV := env.flashV, bwMode := env.bwMode, chainHead := env.chainHead }

/-- The power registers once the straps are sampled and the store flash has its mode. -/
def strapped (g : Glb) : Glb := { g with straps := sampled env, strapsValid := true, psf := if env.sfdpOctal then .octal else .quad }

/-- A cold start up to the store flash. -/
def coldFront : Dev :=
  let d := measureMgt (checkFlash (sampleStraps d env) env) env
  startPsf { d with glb := { d.glb with bankPs := .released } } env

theorem sampleStraps_later : Later { d with glb := { d.glb with straps := sampled env, strapsValid := true }, chn := { d.chn with isHead := env.chainHead } } (sampleStraps d env) :=
  .ite (.ite (.logRec (.refl _)) (.refl _)) (.logRec (.ite (.logRec (.refl _)) (.refl _)))

/-- Up to the store flash a cold start samples the straps and starts the flash. -/
theorem coldFront_later : Later { d with glb := strapped env d.glb } (coldFront d env) := by
  have h : Later { d with glb := { d.glb with straps := sampled env, strapsValid := true }, chn := { d.chn with isHead := env.chainHead } } (measureMgt (checkFlash (sampleStraps d env) env) env) :=
    (sampleStraps_later d env).checkFlash.measureMgt
  obtain ⟨x, hx⟩ : ∃ x, measureMgt (checkFlash (sampleStraps d env) env) env = x := ⟨_, rfl⟩
  unfold coldFront
  rw [hx] at h ⊢
  exact ⟨congrArg (fun g : Glb => { g with psf := if env.sfdpOctal then .octal else .quad }) h.glb, h.sram, h.resetDue, h.stalls, h.isOpen, h.slots, h.fw⟩

/-- The device with its power cycle counted. -/
def cycled : Dev := { d with glb := { d.glb with pcc := d.glb.pcc + 1 } }

theorem openCold_later : Later (cycled d) (openCold d env) ∧ (openCold d env).evr.isOpen = true := by
  refine ⟨Later.calm ?_ (Calm.openLog (.refl _)), openLog_isOpen _⟩
  exact ⟨rfl, rfl, rfl, fun _ => rfl, id, id, fun h => ⟨h, rfl, rfl⟩⟩

variable {d} {a : Dev}

theorem Later.cycled (h : Later a d) : Later (cycled a) (cycled d) := by
  refine ⟨?_, h.sram, h.resetDue, h.stalls, h.isOpen, h.slots, h.fw⟩
  exact congrArg (fun g : Glb => { g with pcc := g.pcc + 1 }) h.glb

/-- What a cold start that has counted the power cycle has done since `a`. -/
structure Counted (boot : Boot) (a e : Dev) : Prop where
  later : Later (Machine.cycled a) e
  isOpen : e.evr.isOpen = true
  boot : e.glb.boot = boot
  raised : e.glb.raised = 0

/-- Step 10: the root, with the hold of a source that stands. -/
def coldRoot (d : Dev) (env : StartEnv) : Dev := startRoot { d with tmp := { d.tmp with hold := anyAlarm d } } env.entropyOk

/-- The record of a start-up without a reserve. -/
def coldReserve (d : Dev) : Dev := if d.glb.rsvOk then d else logRec d (recNoReserve d)

/-- Steps 9 and 10: the self-tests, the root and the owner table. -/
def coldKeys (d : Dev) (env : StartEnv) : Dev :=
  lapseAll (openTable (clearCarried (coldReserve (coldRoot (drawPermutation (seedMesh (selfTests d env))) env))) env.ownerTagOk)

/-- Steps 11 and 12: the Logbook, its first records, the ledgers and the ports. -/
def coldRecords (d : Dev) (env : StartEnv) : Dev :=
  let d := logLifecycle (logTamper (logCutSession (openCold d env)))
  let d := initLedger d (if d.glb.resetCause.getLsbD 1 then 2 else 1)
  sendTrain (sendTrain d .up false) .dn false

/-- The power registers at the end of a cold start. -/
def coldDone (d : Dev) : Dev :=
  enableMgt { d with glb := { d.glb with boot := .done, raised := 0, vaultFlag := false, bankCrd := .released, bankMgt := if d.mgt.bankOff then .hiZ else .released } }

theorem coldEnd_eq (d : Dev) (env : StartEnv) : coldEnd d env = coldDone (coldRecords (coldKeys d env) env) := by
  unfold coldEnd coldDone coldRecords coldKeys coldReserve coldRoot
  rfl

theorem Later.coldRoot (h : Later a d) : Later a (coldRoot d env) := Later.calm h.upd (.startRoot (.refl _))

theorem Later.coldReserve (h : Later a d) : Later a (coldReserve d) := .ite h h.logRec

theorem Later.coldKeys (h : Later a d) : Later a (coldKeys d env) := by
  have h1 : Later a (selfTests d env) := h.calm (.selfTests (.refl d))
  have h2 := (h1.seedMesh.calm (Calm.drawPermutation (.refl _))).coldRoot env
  exact h2.coldReserve.calm (Calm.clearCarried (.refl _)).openTable.lapseAll

theorem coldRecords_later (d : Dev) (env : StartEnv) : Later (Machine.cycled d) (coldRecords d env) ∧ (coldRecords d env).evr.isOpen = true := by
  obtain ⟨ho, hopen⟩ := openCold_later d env
  have hlast : ∀ x : Dev, Later (openCold d env) x → Later (openCold d env) (sendTrain (sendTrain (initLedger x (if x.glb.resetCause.getLsbD 1 then 2 else 1)) .up false) .dn false) := fun x hx =>
    hx.initLedger.calm (Calm.sendTrain (.refl _)).sendTrain
  have h : Later (openCold d env) (coldRecords d env) :=
    hlast _ (((Later.refl (openCold d env)).calm (Calm.logCutSession (.refl _))).logTamper.calm (Calm.logLifecycle (.refl _)))
  exact ⟨ho.trans h, h.isOpen hopen⟩

theorem coldEnd_counted (h : Later a d) : Counted .done a (coldEnd d env) := by
  rw [coldEnd_eq]
  obtain ⟨hl, ho⟩ := coldRecords_later (coldKeys d env) env
  have hk : Later a (coldKeys d env) := h.coldKeys env
  obtain ⟨x, hx⟩ : ∃ x, coldRecords (coldKeys d env) env = x := ⟨_, rfl⟩
  rw [hx] at hl ho ⊢
  exact ⟨(hk.cycled.trans hl).trans ⟨rfl, rfl, rfl, fun _ => rfl, id, id, fun h => ⟨h, rfl, rfl⟩⟩, ho, rfl, rfl⟩

theorem coldHalt_counted (h : Later a d) : Counted (.halted false) a (haltStart (logTamper (logCutSession (openCold d env))) false) := by
  obtain ⟨ho, hopen⟩ := openCold_later d env
  have hl : Later (openCold d env) (haltStart (logTamper (logCutSession (openCold d env))) false) := ((Later.refl (openCold d env)).calm (Calm.logCutSession (.refl _))).logTamper.haltStart
  exact ⟨(h.cycled.trans ho).trans hl, hl.isOpen hopen, rfl, rfl⟩

theorem coldRest_eq (d : Dev) (env : StartEnv) : coldRest d env = (let d := coldFront d env
    if !env.directoryOk then { d with evr := { d.evr with early := [] }, glb := { d.glb with boot := .halted false, raised := 0 } } else
    let d := choosePending (if absent d then d else forceManifest d d.bwt.stored)
    if Config.fwSigValid (image d d.ps.fwActive) then coldEnd (measure d (image d d.ps.fwActive)) env else haltStart (logTamper (logCutSession (openCold d env))) false) := by
  unfold coldRest coldFront
  rfl

/-- A start-up without a directory halts before the power cycle is counted. -/
theorem coldRest_noDirectory (d : Dev) {env : StartEnv} (h : env.directoryOk = false) :
    Later { d with glb := strapped env d.glb } (coldRest d env) ∧ (coldRest d env).glb.boot = .halted false ∧ (coldRest d env).glb.pcc = d.glb.pcc := by
  have hf := coldFront_later d env
  rw [coldRest_eq]
  obtain ⟨x, hx⟩ : ∃ x, coldFront d env = x := ⟨_, rfl⟩
  rw [hx] at hf ⊢
  dsimp only
  rw [h]
  exact ⟨hf.trans ⟨rfl, rfl, rfl, fun _ => rfl, id, id, fun h => ⟨h, rfl, rfl⟩⟩, rfl, (congrArg Glb.pcc hf.glb :)⟩

/-- A start-up with a directory counts the power cycle and runs its image or halts. -/
theorem coldRest_directory (d : Dev) {env : StartEnv} (h : env.directoryOk = true) :
    ∃ b, Counted b { d with glb := strapped env d.glb } (coldRest d env) ∧ (d.ps.fwPending = false → b = if Config.fwSigValid (imageOf d) then .done else .halted false) := by
  have hf := coldFront_later d env
  rw [coldRest_eq]
  obtain ⟨x, hx⟩ : ∃ x, coldFront d env = x := ⟨_, rfl⟩
  rw [hx] at hf ⊢
  dsimp only
  rw [h]
  have hc : Calm x (choosePending (if absent x then x else forceManifest x x.bwt.stored)) := .choosePending (.ite (.refl x) (Calm.forceManifest (.refl x)))
  obtain ⟨y, hy⟩ : ∃ y, choosePending (if absent x then x else forceManifest x x.bwt.stored) = y := ⟨_, rfl⟩
  rw [hy] at hc ⊢
  have hl := hf.calm hc
  have himg : d.ps.fwPending = false → image y y.ps.fwActive = imageOf d := fun hp => by
    obtain ⟨-, hs, ha⟩ := hl.fw hp
    unfold Machine.image imageOf
    rw [hs, ha]
  by_cases hs : Config.fwSigValid (image y y.ps.fwActive) = true
  · refine ⟨.done, ?_, fun hp => by rw [← himg hp, if_pos hs]⟩
    have := coldEnd_counted (env := env) (hl.calm (Calm.measure (img := image y y.ps.fwActive) (.refl y)))
    simpa [hs] using this
  · refine ⟨.halted false, ?_, fun hp => by rw [← himg hp, if_neg hs]⟩
    have := coldHalt_counted (env := env) hl
    simpa [hs] using this

/-! ### What the clearing of a cold start leaves -/

/-- The device as a POR or TAMPER reset finds it, once the checks are cut. -/
def coldBase (d : Dev) (env : StartEnv) (cause : Byte) : Dev :=
  let p := closeLog (withAon d (persist d))
  adoptDecode { p with glb := { p.glb with power := .run, boot := .off, vmainGood := true, vbatOk := d.glb.vbatOk, rsvOk := d.glb.rsvOk, resetCause := cause, raised := cause, vioGen := env.vioGenOk }, tmp := { p.tmp with coreArmed := true, resetDue := false, hold := false, clearSince := none, cQueued := false, cLater := none } }

theorem coldStart_eq (d : Dev) (env : StartEnv) (cause : Byte) : coldStart d env cause = (let p := coldBase (cutChecks d) env cause
    if !env.xtalOk then { p with glb := { p.glb with boot := .halted false, raised := 0 } }
    else if !env.vioGenOk then { p with glb := { p.glb with boot := .waitStraps } }
    else coldRest p env) := rfl

/-- What every cold start leaves, whether it halts, waits or ends. -/
structure Cleared (cause : Byte) (vio : Bool) (e : Dev) : Prop where
  power : e.glb.power = .run
  vmainGood : e.glb.vmainGood = true
  cause : e.glb.resetCause = cause
  vioGen : e.glb.vioGen = vio
  slots : e.key.slots = []
  sram : e.sram = []
  stalls : ∀ n, (stall e n).st = .disabled
  resetDue : e.tmp.resetDue = false

theorem coldBase_cleared (d : Dev) (env : StartEnv) (cause : Byte) : Cleared cause env.vioGenOk (coldBase d env cause) := ⟨rfl, rfl, rfl, rfl, rfl, rfl, fun _ => rfl, rfl⟩

theorem Cleared.later {cause : Byte} {vio : Bool} (h : Cleared cause vio d) (hl : Later d e) : Cleared cause vio e :=
  ⟨(congrArg Glb.power hl.glb : (coldCore e.glb).power = (coldCore d.glb).power).trans h.power, (congrArg Glb.vmainGood hl.glb : (coldCore e.glb).vmainGood = (coldCore d.glb).vmainGood).trans h.vmainGood,
    (congrArg Glb.resetCause hl.glb : (coldCore e.glb).resetCause = (coldCore d.glb).resetCause).trans h.cause, (congrArg Glb.vioGen hl.glb : (coldCore e.glb).vioGen = (coldCore d.glb).vioGen).trans h.vioGen,
    hl.slots h.slots, hl.sram.trans h.sram, fun n => (hl.stalls n).trans (h.stalls n), hl.resetDue.trans h.resetDue⟩

/-- What a cold start with the sources `cause` leaves of `d`. -/
structure ColdLeaves (d : Dev) (env : StartEnv) (cause : Byte) (e : Dev) : Prop where
  cleared : Cleared cause env.vioGenOk e
  noXtal : env.xtalOk = false → e.glb.boot = .halted false ∧ e.glb.pcc = d.glb.pcc
  waits : env.xtalOk = true → env.vioGenOk = false → e.glb.boot = .waitStraps ∧ e.glb.pcc = d.glb.pcc
  noDirectory : env.xtalOk = true → env.vioGenOk = true → env.directoryOk = false → e.glb.boot = .halted false ∧ e.glb.pcc = d.glb.pcc
  runs : env.xtalOk = true → env.vioGenOk = true → env.directoryOk = true → d.ps.fwPending = false →
    e.glb.boot = (if Config.fwSigValid (imageOf d) then .done else .halted false) ∧ e.glb.pcc = d.glb.pcc + 1 ∧ e.evr.isOpen = true

theorem Counted.pcc {b : Boot} (h : Counted b a e) : e.glb.pcc = a.glb.pcc + 1 := (congrArg Glb.pcc h.later.glb : (coldCore e.glb).pcc = (coldCore (Machine.cycled a).glb).pcc)

theorem clash {b : Bool} {P : Prop} (h : b = true) (k : b = false) : P := absurd (h.symm.trans k) (by decide)

theorem coldStart_leaves (d : Dev) (env : StartEnv) (cause : Byte) : ColdLeaves d env cause (coldStart d env cause) := by
  obtain ⟨rng, otp, hcut⟩ := cutChecks_parts d
  have hpcc : (cutChecks d).glb.pcc = d.glb.pcc := by rw [hcut]
  have hps : (cutChecks d).ps = d.ps := by rw [hcut]
  have hc := coldBase_cleared (cutChecks d) env cause
  have hbpcc : (coldBase (cutChecks d) env cause).glb.pcc = d.glb.pcc := hpcc
  have hbps : (coldBase (cutChecks d) env cause).ps = d.ps := hps
  rw [coldStart_eq]
  obtain ⟨p, hp⟩ : ∃ p, coldBase (cutChecks d) env cause = p := ⟨_, rfl⟩
  rw [hp] at hc hbpcc hbps ⊢
  clear hcut hp
  dsimp only
  have hstrap : Cleared cause env.vioGenOk { p with glb := strapped env p.glb } := ⟨hc.power, hc.vmainGood, hc.cause, hc.vioGen, hc.slots, hc.sram, hc.stalls, hc.resetDue⟩
  cases hx : env.xtalOk with
  | false => exact ⟨⟨hc.power, hc.vmainGood, hc.cause, hc.vioGen, hc.slots, hc.sram, hc.stalls, hc.resetDue⟩, fun _ => ⟨rfl, hbpcc⟩, fun h => clash h hx, fun h => clash h hx, fun h => clash h hx⟩
  | true =>
    cases hv : env.vioGenOk with
    | false => exact ⟨⟨hc.power, hc.vmainGood, hc.cause, hc.vioGen, hc.slots, hc.sram, hc.stalls, hc.resetDue⟩, fun h => clash hx h, fun _ _ => ⟨rfl, hbpcc⟩, fun _ h => clash h hv, fun _ h => clash h hv⟩
    | true =>
      cases hd : env.directoryOk with
      | false =>
        obtain ⟨hl, hb, hpc⟩ := coldRest_noDirectory p hd
        exact ⟨hstrap.later hl, fun h => clash hx h, fun _ h => clash hv h, fun _ _ _ => ⟨hb, hpc.trans hbpcc⟩, fun _ _ h => clash h hd⟩
      | true =>
        obtain ⟨b, hcount, hb⟩ := coldRest_directory p hd
        have hcyc : Cleared cause env.vioGenOk (Machine.cycled { p with glb := strapped env p.glb }) := ⟨hc.power, hc.vmainGood, hc.cause, hc.vioGen, hc.slots, hc.sram, hc.stalls, hc.resetDue⟩
        refine ⟨hcyc.later hcount.later, fun h => clash hx h, fun _ h => clash hv h,
          fun _ _ h => clash hd h, fun _ _ _ hf => ⟨hcount.boot.trans ?_, hcount.pcc.trans ?_, hcount.isOpen⟩⟩
        · rw [hb (by rw [hbps]; exact hf), imageOf, imageOf, hbps]
        · exact congrArg (· + 1) hbpcc

/-! ### O25 -/

theorem meshBits_eq_zero {t : Tab (BitVec 4)} : meshBits t = 0 ↔ ∀ p ∈ t, p.2 = 0 := by
  induction t with
  | nil => simp [meshBits]
  | cons x t ih =>
    have hx : meshBits (x :: t) = (if x.2 = 0 then 0 else 2 ^ x.1) + meshBits t := rfl
    rw [hx, Nat.add_eq_zero_iff, ih, List.forall_mem_cons]
    by_cases h : x.2 = 0 <;> simp [h]

theorem mem_tset_self {α : Type} {t : Tab α} {k : Nat} {v : α} : (k, v) ∈ tset t k v := mem_of_tget (tget_tset_self t k v)

/-- A pair that does not read GOOD has a class. -/
theorem meshBits_envMesh (env : StartEnv) : meshBits (envMesh env) = 0 ↔ env.mesh = [] := by
  constructor
  · intro h
    rcases List.eq_nil_or_concat env.mesh with hn | ⟨l, x, hl⟩
    · exact hn
    · exfalso
      have hmem : (x.1.val, meshCode false x.2) ∈ envMesh env := by
        unfold envMesh
        rw [hl, List.concat_eq_append, List.foldl_append, List.foldl_cons, List.foldl_nil]
        exact mem_tset_self
      have hz := meshBits_eq_zero.mp h _ hmem
      have hne : ∀ m : MeshSeen, meshCode false m ≠ 0 := fun m => by cases m <;> decide
      exact hne _ hz
  · intro h
    unfold envMesh
    rw [h]
    rfl

/-- The watch after the power-up from OFF: a source that stands makes a reset due. -/
theorem powerUpTamper_parts (d : Dev) (env : StartEnv) :
    ∃ rng t, powerUpTamper d env = { d with rng, tmp := t } ∧ t.resetDue = !(env.lidBad == 0 && meshBits (envMesh env) == 0 && env.monBad == 0) := by
  unfold powerUpTamper
  dsimp only
  split
  next h =>
    refine ⟨_, _, rfl, ?_⟩
    simp only [anyAlarm, Bool.not_eq_true', Bool.or_eq_false_iff, bne_eq_false_iff_eq] at h
    simp [h]
  next h =>
    refine ⟨_, _, rfl, ?_⟩
    simp only [anyAlarm, Bool.not_eq_true', Bool.or_eq_false_iff, bne_eq_false_iff_eq, not_and] at h
    symm
    simp only [Bool.not_eq_true', Bool.and_eq_false_iff, beq_eq_false_iff_ne]
    exact fails_of_three h

/-- The sources of the start-up at a good VMAIN. -/
def coldCause (s : State) (env : StartEnv) : Byte :=
  if s.glb.power = .off then (if env.lidBad = 0 ∧ env.mesh = [] ∧ env.monBad = 0 then 0x01 else 0x03) else if s.tmp.resetDue then 0x23 else 0x21

theorem vmainGood_leaves (s : State) (env : StartEnv) (hg : s.glb.vmainGood = false) : ColdLeaves s.toDev env (coldCause s env) (vmainGood s.toDev env) := by
  have hback : ∀ (x : Dev) (c c' : Byte), x.ps = s.ps → x.glb.pcc = s.glb.pcc → c = c' → ColdLeaves s.toDev env c' (coldStart x env c) := fun x c c' hps hpcc hc => by
    subst hc
    have h := coldStart_leaves x env c
    refine ⟨h.cleared, fun h1 => ?_, fun h1 h2 => ?_, fun h1 h2 h3 => ?_, fun h1 h2 h3 h4 => ?_⟩
    · rw [← hpcc]
      exact h.noXtal h1
    · rw [← hpcc]
      exact h.waits h1 h2
    · rw [← hpcc]
      exact h.noDirectory h1 h2 h3
    · have himg : imageOf s.toDev = imageOf x := by rw [imageOf, imageOf, hps]
      rw [← hpcc, himg]
      exact h.runs h1 h2 h3 (by rw [hps]; exact h4)
  unfold vmainGood coldCause
  rw [hg]
  by_cases hoff : s.glb.power = .off
  · obtain ⟨rng, t, hp, hdue⟩ := powerUpTamper_parts { s.toDev with glb := { s.glb with vmainGood := true, vbatOk := env.vbatOk, rsvOk := env.rsvOk, opBase := 0, opFrom := some s.now, restoreDue := true } } env
    have hcond : (env.lidBad = 0 ∧ env.mesh = [] ∧ env.monBad = 0) ↔ t.resetDue = false := by
      rw [hdue, ← meshBits_envMesh]
      simp [and_assoc]
    have hbeq : (s.glb.power == Power.off) = true := by rw [hoff]; rfl
    rw [if_pos hoff]
    simp only [hbeq, if_true, Bool.false_eq_true, if_false, hp]
    refine hback _ _ _ rfl rfl ?_
    cases hd : t.resetDue with
    | false => rw [if_pos (hcond.mpr hd)]; rfl
    | true => rw [if_neg fun h => clash hd (hcond.mp h)]; rfl
  · have hbeq : (s.glb.power == Power.off) = false := beq_eq_false_iff_ne.mpr hoff
    simp only [hoff, hbeq, if_false, Bool.false_eq_true]
    refine hback _ _ _ rfl rfl ?_
    cases s.tmp.resetDue <;> rfl

/-- The strap sampling goes on as a start-up does. -/
theorem strapSample_runs (s : State) {env : StartEnv} (hb : s.glb.boot = .waitStraps) (hv : env.vioGenOk = true) :
    exec (.strapSample env) s = .next (on s (coldRest { s.toDev with glb := { s.glb with vioGen := true } } env)) := by
  show Host.Outcome.next (on s (if s.glb.boot == .waitStraps && env.vioGenOk then _ else s.toDev)) = _
  rw [hb, hv]
  rfl

end

/-- Settles O25: the clearing, the straps, the image and the Logbook of a cold start, step by step. -/
theorem coldStartsRunTheSteps : Obligations.ColdStartsRunTheSteps := by
  unfold Obligations.ColdStartsRunTheSteps
  refine fun s env => ⟨fun cause hc hg => ?_, fun hb hv hd hf => ?_, fun hr hg => ?_⟩
  · have h := vmainGood_leaves s env hg
    rw [coldCause, ← hc] at h
    exact ⟨on s (vmainGood s.toDev env), rfl, rfl, h.cleared.power, h.cleared.vmainGood, h.cleared.cause, h.cleared.vioGen, h.cleared.slots, h.cleared.sram, h.cleared.stalls, h.noXtal, h.waits, h.noDirectory, h.runs⟩
  · obtain ⟨b, hcount, hboot⟩ := coldRest_directory { s.toDev with glb := { s.glb with vioGen := true } } hd
    have hcore : coldCore _ = coldCore (cycled _).glb := hcount.later.glb
    refine ⟨_, strapSample_runs s hb hv, rfl, hcount.boot.trans (hboot hf), hcount.pcc, hcount.isOpen, ?_, ?_, hcount.raised, ?_⟩
    · exact (congrArg Glb.psf hcore :)
    · exact (congrArg Glb.strapsValid hcore :)
    · exact (congrArg Glb.straps hcore :)
  · have h := coldStart_leaves s.toDev env (causeTamper ||| (s.glb.raised &&& 0x3F))
    have hrun : tamperReset s.toDev env = coldStart s.toDev env (causeTamper ||| (s.glb.raised &&& 0x3F)) := by
      unfold tamperReset
      rw [hr, hg]
      rfl
    rw [← hrun] at h
    exact ⟨on s (tamperReset s.toDev env), rfl, rfl, h.cleared.power, h.cleared.cause, h.cleared.vioGen, h.cleared.resetDue, h.cleared.slots, h.cleared.sram, h.cleared.stalls, h.runs⟩

end Sys2Proof.Machine
end

section
/-! Power states and supplies. -/

namespace Sys2Proof.Machine

open Sys2Proof.Safety

section
variable {d e : Dev}

/-! ### Requests and wakes -/

theorem heldAccess_none (h : d.glb.heldAccess = []) : { d with glb := { d.glb with heldAccess := [] } } = d := by
  have hg : { d.glb with heldAccess := [] } = d.glb := by rw [← h]
  rw [hg]

/-- Entering STANDBY leaves the watchdog's registers. -/
theorem intoStandby_sec : (intoStandby d).sec = d.sec := by
  have hlink : (settleLink d).sec = d.sec := by
    unfold settleLink
    split <;> rfl
  have hfold : ∀ (l : List Nat) (x : Dev), (l.foldl (fun d e => if (tget d.pke e).isSome then clearEngine d e else d) x).sec = x.sec := fun l x => by
    refine keeps_foldl (P := fun y => y.sec = x.sec) (fun y n hy => ?_) l rfl
    split <;> exact hy
  have hcheck : ∀ x : Dev, (checkpoint x).sec = x.sec := fun x => by
    unfold checkpoint
    split <;> rfl
  unfold intoStandby
  rw [hcheck]
  exact (hfold engines (settleLink d)).trans hlink

theorem refusal_none_doze (h : working d = false) : refusal d false = none := by simp [refusal, powerConds, h]

theorem refusal_none_standby (h : working d = false) (hq : allStalls.all (quiescent d) = true) (hr : ringMember d = false) (hb : bootSealed d = true) (hl : lowLink d = true) : refusal d true = none := by
  simp [refusal, powerConds, h, hq, hr, hb, hl]

/-- The first condition of a request that fails. -/
theorem refusal_eq (d : Dev) (standby : Bool) {c : BitVec 4} (hc : c = (if working d then 1 else if standby && !allStalls.all (quiescent d) then 2 else if standby && ringMember d then 3
    else if standby && !bootSealed d then 4 else if standby && !lowLink d then 5 else (0 : BitVec 4))) (hne : c ≠ 0) : refusal d standby = some c := by
  subst hc
  unfold refusal powerConds
  generalize working d = c1 at hne ⊢
  generalize (standby && !allStalls.all (quiescent d)) = c2 at hne ⊢
  generalize (standby && ringMember d) = c3 at hne ⊢
  generalize (standby && !bootSealed d) = c4 at hne ⊢
  generalize (standby && !lowLink d) = c5 at hne ⊢
  cases c1 with
  | true => rfl
  | false =>
    cases c2 with
    | true => rfl
    | false =>
      cases c3 with
      | true => rfl
      | false =>
        cases c4 with
        | true => rfl
        | false =>
          cases c5 with
          | true => rfl
          | false => exact absurd rfl hne

theorem enterPower_doze {r : PwrReq} (hr : d.glb.req = some r) (hp : d.glb.power = .run) (hs : r.standby = false) (h : refusal d r.standby = none) :
    enterPower d = { d with glb := { d.glb with power := .doze, req := none, waking := false }, sec := { d.sec with swdtCount := d.sec.swdtLoad.toNat, swdtWarned := false } } := by
  unfold enterPower
  rw [hr]
  dsimp only
  rw [hp, h, hs]
  rfl

theorem enterPower_standby {r : PwrReq} (hr : d.glb.req = some r) (hp : d.glb.power = .run) (hs : r.standby = true) (h : refusal d r.standby = none) :
    enterPower d = { intoStandby d with glb := { (intoStandby d).glb with power := .standby, req := none, waking := false }, sec := { d.sec with swdtCount := d.sec.swdtLoad.toNat, swdtWarned := false } } := by
  have hsec : (intoStandby d).sec = d.sec := intoStandby_sec
  unfold enterPower
  rw [hr]
  dsimp only
  rw [hp, h, hs]
  generalize intoStandby d = x at hsec ⊢
  rw [← hsec]
  rfl

/-- A wake of a device that sleeps by a cause of its state, other than the link's leaving L2. -/
theorem wake_sleeping {c : WakeCause} (hw : wakes d.glb.power c = true) (hc : c ≠ .linkLeft) : wake d c = if d.glb.waking then d else pme { d with glb := { d.glb with waking := true } } := by
  unfold wake
  rw [hw]
  cases c with
  | linkLeft => exact absurd rfl hc
  | _ => rfl

theorem wakes_doze {c : WakeCause} (hc : c ≠ .linkLeft) : wakes .doze c = true := by
  cases c with
  | linkLeft => exact absurd rfl hc
  | _ => rfl

theorem waking_set (h : d.glb.waking = true) : { d with glb := { d.glb with waking := true } } = d := by
  have hg : { d.glb with waking := true } = d.glb := by rw [← h]
  rw [hg]

/-- A later wake adds nothing. -/
theorem wake_again {c : WakeCause} (h : d.glb.waking = true) (hc : c ≠ .linkLeft) : wake d c = d := by
  cases hw : wakes d.glb.power c with
  | true => rw [wake_sleeping hw hc, if_pos h]
  | false =>
    unfold wake
    rw [hw]
    rfl

theorem wake_doze {c : WakeCause} (hp : d.glb.power = .doze) (h3 : d.hif.d3hot = false) (hc : c ≠ .linkLeft) : wake d c = { d with glb := { d.glb with waking := true } } := by
  cases hk : d.glb.waking with
  | true => rw [wake_again hk hc, waking_set hk]
  | false =>
    rw [wake_sleeping (by rw [hp]; exact wakes_doze hc) hc, hk]
    simp [pme, h3]

/-- A wake without an access that waits. -/
theorem wakeComplete_eq {l : List Island} (hw : d.glb.waking = true) (hs : sleeping d = true) (hup : wakeUp d l = e) (hh : e.glb.heldAccess = []) : wakeComplete d l = e := by
  unfold wakeComplete
  rw [hw, hs, hup]
  dsimp only
  rw [hh]
  exact heldAccess_none hh

theorem wakeComplete_doze {l : List Island} (hp : d.glb.power = .doze) (hw : d.glb.waking = true) (hh : d.glb.heldAccess = []) :
    wakeComplete d l = { d with glb := { d.glb with power := .run, waking := false, wakeN := false }, sec := { d.sec with swdtCount := d.sec.swdtLoad.toNat, swdtWarned := false } } := by
  have hup : wakeUp d l = { d with glb := { d.glb with power := .run, waking := false, wakeN := false }, sec := { d.sec with swdtCount := d.sec.swdtLoad.toNat, swdtWarned := false } } := by
    unfold wakeUp
    rw [hp]
    rfl
  exact wakeComplete_eq hw (by rw [sleeping, hp]; rfl) hup hh

theorem wakeComplete_standby (hp : d.glb.power = .standby) (hw : d.glb.waking = true) (hh : d.glb.heldAccess = []) (hr : d.sym.rngFailed = false) (hf : d.evr.failed = false) :
    wakeComplete d [] = (let x := instantiate { d with glb := { d.glb with power := .run, waking := false, wakeN := false }, sec := { d.sec with swdtCount := d.sec.swdtLoad.toNat, swdtWarned := false } }
      programZone { x with ldg := { d.ldg with initAt := d.ldg.initAt.map fun _ => d.now }, ps := { d.ps with checkpoint := opTime d } } 0x10000 (leBytes 8 (opTime d))) := by
  have hup : wakeUp d [] = (let x := instantiate { d with glb := { d.glb with power := .run, waking := false, wakeN := false }, sec := { d.sec with swdtCount := d.sec.swdtLoad.toNat, swdtWarned := false } }
      programZone { x with ldg := { d.ldg with initAt := d.ldg.initAt.map fun _ => d.now }, ps := { d.ps with checkpoint := opTime d } } 0x10000 (leBytes 8 (opTime d))) := by
    unfold wakeUp
    rw [hp]
    show fromStandby (swdtReload { d with glb := { d.glb with power := .run, waking := false, wakeN := false } }) = _
    unfold fromStandby swdtReload
    dsimp only
    rw [hr, if_neg (by decide)]
    unfold checkpoint
    rw [if_neg]
    · rfl
    · show ¬ d.evr.failed = true
      rw [hf]
      decide
  exact wakeComplete_eq hw (by rw [sleeping, hp]; rfl) hup hh

/-! ### Supplies -/

/-- A device at rest whose bank is `b`. -/
def RestBank (b : Tab AonSlot) (d : Dev) : Prop := d.reqs = [] ∧ d.sym.lanes = [] ∧ (∀ e, (eng d e).op = none ∧ (eng d e).stopped = none) ∧ d.key.bank = b

theorem restBank_setEng {b : Tab AonSlot} {n : Nat} {p : Pke} (hp : p.op = none ∧ p.stopped = none) (h : RestBank b d) : RestBank b (setEng d n p) := by
  obtain ⟨hr, hl, he, hb⟩ := h
  refine ⟨hr, hl, fun m => ?_, hb⟩
  by_cases hm : n = m
  · subst hm
    have hself : eng (setEng d n p) n = p := tgetD_tset_self _ _ _ _
    rw [hself]
    exact hp
  · rw [eng_setEng_ne (fun h => hm h.symm)]
    exact he m

theorem restBank_finishAbort {b : Tab AonSlot} {n : Nat} (h : RestBank b d) : RestBank b (finishAbort d n true) := by
  obtain ⟨hop, hst⟩ := h.2.2.1 n
  unfold finishAbort
  dsimp only
  rw [hst]
  dsimp only
  refine keeps_ite (P := RestBank b) h ?_
  rw [if_pos rfl]
  unfold engIrq
  refine keeps_ite (P := RestBank b) ?_ ?_
  · exact restBank_setEng (p := { eng d n with aborting := false, stopped := none, irqAborted := true, cntAborts := (eng d n).cntAborts }) ⟨hop, rfl⟩ h
  · exact restBank_setEng (p := { eng d n with aborting := false, stopped := none, irqAborted := true, cntAborts := (eng d n).cntAborts }) ⟨hop, rfl⟩ h

theorem restBank_stopEngine {b : Tab AonSlot} {n : Nat} (h : RestBank b d) : RestBank b (stopEngine d n) := by
  obtain ⟨hop, hst⟩ := h.2.2.1 n
  unfold stopEngine
  refine keeps_ite (P := RestBank b) (restBank_setEng ⟨hop, hst⟩ h) (restBank_finishAbort ?_)
  unfold startAbort
  dsimp only
  rw [hop]
  dsimp only
  exact restBank_setEng (p := { eng d n with op := none, aborting := true, mem := [], acc := 0 }) ⟨rfl, hst⟩ h

/-- A wipe at rest leaves the bank. -/
theorem wipe_bank (h : atRest d) : (wipe d).key.bank = d.key.bank := by
  obtain ⟨hr, hl, -, he⟩ := h
  have h0 : RestBank d.key.bank d := ⟨hr, hl, he, rfl⟩
  have h1 : RestBank d.key.bank (stopEngines d) := keeps_foldl (fun _ _ h => restBank_stopEngine h) _ h0
  have h2 : RestBank d.key.bank (workStopped d) := keeps_foldl (fun e l he => by
    have hfree : tget e.sym.lanes l = none := by rw [he.2.1]; rfl
    unfold laneAbort
    rw [hfree]
    exact he) _ h1
  rw [wipe_eq]
  generalize workStopped d = x at h2
  have hdrop : (dropTransients x).key.bank = x.key.bank := by
    unfold dropTransients
    rw [h2.1]
    rfl
  obtain ⟨g, hs⟩ := secretsCleared_parts (dropTransients x)
  rw [hs]
  exact hdrop.trans h2.2.2.2

/-- A supply that is lost in RUN, DOZE or STANDBY: the zeroization, then VAULT or OFF. -/
theorem losePower_eq (h : d.glb.vmainGood = true) : ∃ w, Razed d w ∧ (atRest d → w.key.bank = d.key.bank) ∧
    losePower d = if w.glb.vbatOk then { withAon w (persist w) with glb := { (withAon w (persist w)).glb with power := .vault, vaultFlag := true, opBase := opTime w, opFrom := none, restoreDue := false } } else persist w := by
  refine ⟨wipe (cutChecks (cutTransition d)), wipe_razed d, fun hrest => ?_, ?_⟩
  · obtain ⟨r, o, hc⟩ := cut_parts d
    rw [hc]
    exact wipe_bank hrest
  · unfold losePower
    generalize wipe (cutChecks (cutTransition d)) = w
    rw [if_neg (by rw [h]; decide)]

theorem logRec_key {r : Record} : (logRec d r).key = d.key := by
  unfold logRec
  split
  · rfl
  · split
    · rfl
    · split <;> rfl

theorem loadRoot_bank : (loadRoot d).key.bank = d.key.bank := by
  unfold loadRoot
  dsimp only
  split
  · rfl
  · split <;> rfl

theorem lapseAll_none (h : ∀ o ∈ d.key.owners, o.2.enrol = none) : lapseAll d = d := by
  have hfold : ∀ (l : Tab Owner) (x : Dev), (∀ o ∈ l, o.2.enrol = none) → l.foldl (fun d w => if w.2.enrol.isSome then lapseEnrolment d w.1 else d) x = x := fun l => by
    induction l with
    | nil => exact fun _ _ => rfl
    | cons w l ih =>
      intro x hl
      rw [List.foldl_cons, hl w (List.mem_cons_self ..)]
      exact ih x fun o ho => hl o (List.mem_cons_of_mem _ ho)
  exact hfold _ d h

/-- The end of a low reserve: the DRBG and the root where they may be, and a record. -/
def reserveEnd (live : Bool) (d : Dev) : Dev :=
  let d := loadRoot (if live && d.glb.power != .standby then instantiate d else d)
  logRec d (recCrit "GLB" 0x0003 [rResetCause d, rPwrStatus d])

theorem reserveEnd_calm (live : Bool) (d : Dev) : Calm d (reserveEnd live d) := by
  have h : Calm d (if live && d.glb.power != .standby then instantiate d else d) := .ite (.instantiate (.refl d)) (.refl d)
  exact h.loadRoot.logRec

theorem reserveEnd_bank (live : Bool) (d : Dev) : (reserveEnd live d).key.bank = d.key.bank := by
  unfold reserveEnd
  dsimp only
  rw [logRec_key, loadRoot_bank]
  split <;> rfl

theorem reserveLow_eq (hp : powered d = true) (hr : d.glb.rsvOk = true) :
    reserveLow d = reserveEnd d.sym.rngInst (wipe { lapseAll d with glb := { (lapseAll d).glb with rsvOk := false, resetCause := (lapseAll d).glb.resetCause ||| causeRsvWipe } }) := by
  unfold reserveLow reserveEnd
  rw [if_neg (by rw [hp]; decide), if_neg (by rw [hr]; decide)]

/-- The root that waited for the reserve is loaded. -/
theorem rootRecheck_eq (hp : powered d = true) (hw : d.key.rootWait = true) (hr : d.glb.rsvOk = true) (hg : d.key.grantLock = false) (hh : d.tmp.hold = false) (hs : d.lc.state = 3) (hk : rootStatus d 2 = 0) :
    rootRecheck d = lapseAll (openTable { d with key := { d.key with root := 3, rootWait := false } } true) := by
  have hload : loadRoot d = { d with key := { d.key with root := 3, rootWait := false } } := by
    unfold loadRoot
    rw [hs, hg, hh, hr]
    have h3 : rootOfState 3 = 3 := rfl
    rw [h3]
    dsimp only
    rw [hk]
    rfl
  unfold rootRecheck lateRoot
  rw [hp, hw, hr, hload, if_pos (by decide)]
  exact if_neg (show ¬ (3 : Nat) = 0 by decide)

/-! ### Pins -/

theorem warmReset_banks {env : StartEnv} {c why : Byte} (hr : running d = true) (ho : outranked d c = false) :
    let g := (warmReset d env c why).glb
    g.bankBf = .inReset ∧ g.bankPs = .inReset ∧ g.bankCrd = .inReset ∧ (g.bankMgt = .hiZ ∨ g.bankMgt = .inReset) := by
  rw [warmReset_runs hr ho]
  obtain ⟨w, hw⟩ : ∃ w, warmEnd d = w := ⟨_, rfl⟩
  rw [hw]
  obtain ⟨hbf, hps, hcrd, hmgt⟩ := (warmKeep_kept w c).banks
  generalize closeLog (warmKeep w c) = k at hbf hps hcrd hmgt
  obtain ⟨⟨psf, b, hglb, -⟩, -, -, -⟩ := warmStart_started k env why (rootGone d)
  generalize warmStart k env why (rootGone d) = u at hglb
  dsimp only
  rw [hglb]
  refine ⟨hbf, hps, hcrd, ?_⟩
  show k.glb.bankMgt = .hiZ ∨ k.glb.bankMgt = .inReset
  rw [hmgt]
  cases w.mgt.bankOff with
  | false => exact .inr rfl
  | true => exact .inl rfl

theorem pinState_inReset {x : Sig} (h : bankOf d (pinBank x) = .inReset) : pinState d x = pinReset x := by
  unfold pinState
  rw [h]

theorem pinState_hiZ {x : Sig} (h : bankOf d (pinBank x) = .hiZ) : pinState d x = .hiZ := by
  unfold pinState
  rw [h]

end

/-! ### O23 -/

section
variable (s : State)

theorem vmainLost_vault (hv : s.glb.vmainGood = true) (hb : s.glb.vbatOk = true) : ∃ t, exec .vmainLost s = .next t ∧ t.glb.power = .vault ∧ t.glb.vaultFlag = true ∧
    t.key.slots = [] ∧ t.key.root = 0 ∧ t.sram = [] ∧ t.stl.stalls = [] ∧ (atRest s.toDev → t.key.bank = s.key.bank) ∧ t.tmp = s.tmp ∧
    t.glb.pcc = s.glb.pcc ∧ t.psUser = s.psUser ∧ t.glb.opFrom = none ∧ t.pending = s.pending := by
  obtain ⟨w, hr, hbank, hw⟩ := losePower_eq hv
  have hvb : w.glb.vbatOk = true := (congrArg Glb.vbatOk hr.glb).trans hb
  rw [hvb, if_pos rfl] at hw
  refine ⟨on s (losePower s.toDev), rfl, ?_⟩
  rw [hw]
  exact ⟨rfl, rfl, rfl, rfl, rfl, rfl, hbank, hr.tmp, (congrArg Glb.pcc hr.glb :), hr.psUser, rfl, rfl⟩

theorem vmainLost_off (hv : s.glb.vmainGood = true) (hb : s.glb.vbatOk = false) : ∃ t, exec .vmainLost s = .next t ∧ t.glb.power = .off ∧ t.key.slots = [] ∧ t.key.bank = [] ∧
    t.sram = [] ∧ t.glb.pcc = s.glb.pcc ∧ t.psUser = s.psUser ∧ t.pending = s.pending := by
  obtain ⟨w, hr, hbank, hw⟩ := losePower_eq hv
  have hvb : w.glb.vbatOk = false := (congrArg Glb.vbatOk hr.glb).trans hb
  rw [hvb, if_neg (by decide)] at hw
  refine ⟨on s (losePower s.toDev), rfl, ?_⟩
  rw [hw]
  exact ⟨rfl, rfl, rfl, rfl, (congrArg Glb.pcc hr.glb :), hr.psUser, rfl⟩

theorem vbatLost_vault (hp : s.glb.power = .vault) : ∃ t, exec .vbatLost s = .next t ∧ t.glb.power = .off ∧ t.glb.vbatOk = false ∧ t.key.bank = [] ∧ t.psUser = s.psUser ∧ t.pending = s.pending := by
  have hrun : loseVbat s.toDev = { persist s.toDev with glb := { (persist s.toDev).glb with vbatOk := false } } := by
    unfold loseVbat
    rw [hp]
  refine ⟨on s (loseVbat s.toDev), rfl, ?_⟩
  rw [hrun]
  exact ⟨rfl, rfl, rfl, rfl, rfl⟩

theorem vrsvLow_wipes (hp : powered s.toDev = true) (hr : s.glb.rsvOk = true) : ∃ t, exec .vrsvLow s = .next t ∧ t.glb.rsvOk = false ∧ t.glb.resetCause = s.glb.resetCause ||| 0x80 ∧
    t.key.slots = [] ∧ (atRest s.toDev → (∀ o ∈ s.key.owners, o.2.enrol = none) → t.key.bank = s.key.bank) ∧ t.glb.power = s.glb.power ∧ t.pending = s.pending := by
  have hcalm : Calm s.toDev (lapseAll s.toDev) := .lapseAll (.refl _)
  have hnone : (∀ o ∈ s.key.owners, o.2.enrol = none) → lapseAll s.toDev = s.toDev := lapseAll_none
  refine ⟨on s (reserveLow s.toDev), rfl, ?_⟩
  rw [reserveLow_eq hp hr]
  generalize lapseAll s.toDev = x at hcalm hnone
  have hw := wipe_wiped { x with glb := { x.glb with rsvOk := false, resetCause := x.glb.resetCause ||| causeRsvWipe } }
  have hbank : atRest x → (wipe { x with glb := { x.glb with rsvOk := false, resetCause := x.glb.resetCause ||| causeRsvWipe } }).key.bank = x.key.bank := fun h => wipe_bank h
  generalize wipe { x with glb := { x.glb with rsvOk := false, resetCause := x.glb.resetCause ||| causeRsvWipe } } = y at hw hbank
  have hend := reserveEnd_calm s.sym.rngInst y
  have hendb := reserveEnd_bank s.sym.rngInst y
  generalize reserveEnd s.sym.rngInst y = z at hend hendb
  have hglb : z.glb = { x.glb with rsvOk := false, resetCause := x.glb.resetCause ||| causeRsvWipe } := hend.glb.trans hw.glb
  refine ⟨(congrArg Glb.rsvOk hglb :), ?_, hend.slots hw.slots, fun hrest ho => ?_, ?_, rfl⟩
  · exact (congrArg Glb.resetCause hglb).trans (by rw [hcalm.glb]; rfl)
  · have hx : x = s.toDev := hnone ho
    subst hx
    exact hendb.trans (hbank hrest)
  · exact (congrArg Glb.power hglb).trans (congrArg Glb.power hcalm.glb :)

theorem powered_rundoze (h : s.glb.power = .run ∨ s.glb.power = .doze) : powered s.toDev = true := by
  unfold powered
  rcases h with h | h <;> rw [h] <;> rfl

theorem loseVbat_on (h : s.glb.power = .run ∨ s.glb.power = .doze ∨ s.glb.power = .standby) : loseVbat s.toDev = { s.toDev with glb := { s.glb with vbatOk := false } } := by
  unfold loseVbat
  rcases h with h | h | h <;> rw [h] <;> rfl

end

/-- Settles O23: requests and wakes are their rows, a lost supply is the zeroization and what the always-on island keeps, and the banks of a warm reset are in reset. -/
theorem powerStatesAndSupplies : Obligations.PowerStatesAndSupplies := by
  unfold Obligations.PowerStatesAndSupplies
  refine ⟨fun s => ⟨fun hp hb => ⟨?_, ?_⟩, fun r hr hp hw hs => ?_, fun r hr hp hw hs hq hm hb hl => ?_, fun r c hr ht hc hne => ?_, fun c hp h3 hc => ?_, fun c hp h3 he hw hc => ?_, fun c hp h3 he hl hw h1 h2 h3' h4 => ?_,
    fun c hw hc => ?_, fun l hp hw hh => ?_, fun hp hw hh hr hf => ?_⟩, fun s => ⟨?_, ?_, ?_, ?_, ?_, ?_, ?_, ?_, ?_, ?_⟩, fun s env => ⟨fun x => ⟨pinState_inReset, pinState_hiZ⟩, fun ho hr hout => ?_⟩⟩
  · show Host.Outcome.next (on s (requestPower s.toDev false)) = _
    simp [requestPower, hp, hb]
  · show Host.Outcome.next (on s (requestPower s.toDev true)) = _
    simp [requestPower, hp, hb]
  · exact congrArg (fun d => Host.Outcome.next (on s d)) (enterPower_doze hr hp hs (by rw [hs]; exact refusal_none_doze hw))
  · exact congrArg (fun d => Host.Outcome.next (on s d)) (enterPower_standby hr hp hs (by rw [hs]; exact refusal_none_standby hw hq hm hb hl))
  · show Host.Outcome.next (on s (refusePower s.toDev)) = _
    unfold refusePower
    rw [hr]
    dsimp only
    rw [if_neg (by omega), refusal_eq _ _ hc hne]
  · exact congrArg (fun d => Host.Outcome.next (on s d)) (wake_doze hp h3 hc)
  · refine congrArg (fun d => Host.Outcome.next (on s d)) ((wake_sleeping (by rw [hp]; exact wakes_doze hc) hc).trans ?_)
    rw [hw]
    simp [pme, h3, he]
  · have hwk : wakes s.glb.power c = true := by
      rw [hp]
      cases c <;> simp_all [wakes]
    refine congrArg (fun d => Host.Outcome.next (on s d)) ((wake_sleeping hwk h1).trans ?_)
    rw [hw]
    simp [pme, h3, he, hl]
  · exact congrArg (fun d => Host.Outcome.next (on s d)) (wake_again hw hc)
  · exact congrArg (fun d => Host.Outcome.next (on s d)) (wakeComplete_doze hp hw hh)
  · exact congrArg (fun d => Host.Outcome.next (on s d)) (wakeComplete_standby hp hw hh hr hf)
  · exact vmainLost_vault s
  · exact vmainLost_off s
  · exact vbatLost_vault s
  · exact fun h => congrArg (fun d => Host.Outcome.next (on s d)) (loseVbat_on s h)
  · exact fun hp => vrsvLow_wipes s (powered_rundoze s hp)
  · intro hp
    show Host.Outcome.next (on s (reserveGood s.toDev)) = _
    unfold reserveGood
    rw [if_pos hp]
  · exact fun hp hw hr hg hh hs hk => congrArg (fun d => Host.Outcome.next (on s d)) (rootRecheck_eq hp hw hr hg hh hs hk)
  · rfl
  · intro ok hv
    show Host.Outcome.next (on s (vbatChange s.toDev ok false)) = _
    simp [vbatChange, hv]
  · intro ok hv
    show Host.Outcome.next (on s (vbatChange s.toDev ok true)) = _
    simp [vbatChange, hv]
  · obtain ⟨hbf, hps, hcrd, hmgt⟩ := warmReset_banks (env := env) (why := 3) hr hout
    refine ⟨_, swdtExpire_runs s env ho, ?_⟩
    generalize warmReset s.toDev env causeWdt 3 = d at hbf hps hcrd hmgt
    refine ⟨pinState_inReset hbf, pinState_inReset hbf, pinState_inReset hbf, pinState_inReset hps, pinState_inReset hps, fun x => ⟨pinState_inReset hcrd, pinState_inReset hcrd⟩, ?_, rfl⟩
    rcases hmgt with hm | hm
    · exact pinState_hiZ hm
    · exact pinState_inReset hm

end Sys2Proof.Machine
end

section
/-! A function-level reset of a VF frees lanes, and the command of another stall that then starts may fault its own stall. -/

namespace Sys2Proof.Machine

open Sys2Proof.Safety

/-- Two VFs with the stalls of `resetState`; an FLR drains. -/
def flrState : State := { resetState with hif := { vfEnable := true, vfCount := 2, flrDrain := true } }

/-- `flrState` as its lanes come to serve the HASH of stall 1. -/
def flrWork : Dev :=
  let d := freshFunc flrState.toDev (.vf 0)
  let d := { d with hif := { d.hif with flrBusy := d.hif.flrBusy ||| BitVec.ofNat 64 (2 ^ 0) } }
  let d := { d with glb := { d.glb with req := none } }
  let d := toState (modStall d 0 fun s => { s with job := some { mode := .drain, cause := causeVfFlr, removal := false, flr := true, since := d.now } }) 0 .resetting
  abortedWork (dropUndispatched d 0) 0

theorem flrState_flr : startVfFlr flrState.toDev 0 = pumpLanes flrWork := rfl

theorem flrWork_waits : flrWork.sym.wait = resetState.sym.wait ∧ flrWork.sym.round = [] ∧ (laneUsable flrWork 0 = true ∧ laneUsable flrWork 8 = true) ∧ 0 < weightOf flrWork 1 := by
  decide +kernel

/-- The HASH ends with ST_NO_CELLS, charged to its stall. -/
theorem flrWork_faults : (resetState.sym.wait.map fun c => (stall (runSym { flrWork with sym := { flrWork.sym with wait := [], round := [(1, 1)] } } c) 1).st) = [.faulted] := by
  decide +kernel

/-- Refutes O32: the FLR of VF 0 lets the HASH of stall 1 start, which finds no cell, a Class T error, the sixteenth within a second: stall 1 is FAULTED. -/
theorem not_pcieFunctionsAndResets : ¬ Obligations.PcieFunctionsAndResets := by
  intro h
  obtain ⟨hfuncs, -⟩ := h
  obtain ⟨-, -, -, hflr, -⟩ := hfuncs flrState
  obtain ⟨t, ht, -, -, -, -, hothers⟩ := hflr 0 rfl rfl rfl
  have hrow : exec (.vfFlr 0) flrState = .next (on flrState (startVfFlr flrState.toDev 0)) := rfl
  rw [hrow] at ht
  cases ht
  have hother := hothers 1 (by decide)
  have hsame : (stall (on flrState (startVfFlr flrState.toDev 0)).toDev 1).st = (stall (pumpLanes flrWork) 1).st := congrArg (fun d => (stall d 1).st) flrState_flr
  obtain ⟨hwait, hround, hlanes, hweight⟩ := flrWork_waits
  rw [hsame, pumpLanes_single hwait hround hlanes hweight rfl] at hother
  exact absurd ((List.singleton_inj.1 flrWork_faults).symm.trans hother) (by decide)

end Sys2Proof.Machine
end

section
/-! The end of a stall's reset and a change of the partition (11). -/

namespace Sys2Proof.Machine

open Sys2Proof.Safety

section
variable {a d e : Dev} {n : Nat}

/-! ### What leaves stalls, requests and pools alone -/

/-- A step beside the stalls: their records and boards, the requests and the pools stay. -/
structure Beside (d e : Dev) : Prop where
  stl : e.stl = d.stl
  reqs : e.reqs = d.reqs
  ldg : e.ldg = d.ldg

theorem Beside.refl (d : Dev) : Beside d d := ⟨rfl, rfl, rfl⟩

theorem Beside.trans (h : Beside a d) (k : Beside d e) : Beside a e := ⟨k.stl.trans h.stl, k.reqs.trans h.reqs, k.ldg.trans h.ldg⟩

theorem Beside.upd {glb : Glb} {hif : Hif} {key : Key} {pke : Tab Pke} {evr : Evr} {mgt : Mgt} {out : List Out} (h : Beside a d) : Beside a { d with glb, hif, key, pke, evr, mgt, out } := h.trans ⟨rfl, rfl, rfl⟩

theorem Beside.logRec {r : Record} (h : Beside a d) : Beside a (logRec d r) := by
  obtain ⟨x, hx⟩ := logRec_frame d r
  rw [hx]
  exact h.upd

theorem Beside.signal {f : Func} {v : Nat} (h : Beside a d) : Beside a (signal d f v) := by
  obtain ⟨x, o, hx⟩ := signal_frame d f v
  rw [hx]
  exact h.upd

theorem Beside.alert {b : Nat} (h : Beside a d) : Beside a (alert d b) := by
  obtain ⟨m, o, hx⟩ := alert_frame d b
  rw [hx]
  exact h.upd

theorem Beside.ite {c : Prop} [Decidable c] {x y : Dev} (hx : Beside a x) (hy : Beside a y) : Beside a (if c then x else y) := by
  split
  · exact hx
  · exact hy

theorem Beside.foldl {β : Type} {f : Dev → β → Dev} (hf : ∀ d x, Beside a d → Beside a (f d x)) {d : Dev} {l : List β} (h : Beside a d) : Beside a (l.foldl f d) := by
  induction l generalizing d with
  | nil => exact h
  | cons x l ih => exact ih (hf d x h)

theorem Beside.ledgerFail {l : List Nat} (h : Beside a d) : Beside a (ledgerFail d l) := by
  unfold Machine.ledgerFail
  refine .ite h ?_
  have h1 : Beside a (if d.hif.up then aerReport d .pf .uncorrectableInternal else d) := .ite h.upd h
  have h2 : Beside a (l.foldl (fun d p => Machine.logRec d (recLedgerPool d 0x0001 p .fatal)) (if d.hif.up then aerReport d .pf .uncorrectableInternal else d)) := .foldl (fun _ _ h => h.logRec) h1
  dsimp only
  split
  · exact h2.upd
  · exact h2.upd

theorem Beside.unloadSlot {k : Nat} (h : Beside a d) : Beside a (unloadSlot d k) := by
  unfold Machine.unloadSlot
  split
  · exact .ite h.upd h.upd
  · exact h

theorem Beside.clearCharged {k : Nat} (h : Beside a d) : Beside a (clearCharged d k) := .foldl (fun _ _ h => .ite h.unloadSlot h) h

theorem Beside.loseBalance {k : Nat} (h : Beside a d) : Beside a (loseBalance d k) := .foldl (fun _ _ h => h.upd) h

theorem Beside.vfSettle (h : Beside a d) : Beside a (vfSettle d) := by
  unfold Machine.vfSettle
  refine .ite h (.ite ?_ h.upd)
  unfold Machine.createVfs
  exact .ite (.logRec h.upd) h.upd

theorem Beside.pfFlrSettle (h : Beside a d) : Beside a (pfFlrSettle d) := .ite (.signal h.upd) h

/-! ### Requests -/

/-- No request of stall `n`. -/
def NoReqs (n : Nat) (d : Dev) : Prop := ∀ e ∈ d.reqs, issuerIdx e.2.issuer ≠ n

theorem dropReqs_parts (d : Dev) (n : Nat) (p : Nat × Req → Bool) : ∃ r c, dropReqs d n p = { d with reqs := r, comps := c } := by
  have hfold : ∀ (l : Tab Req) (x : Dev), ∃ r c, l.foldl (fun d e => if ofStall n e.2 && p e then { delReq d e.1 with comps := tdel d.comps e.1 } else d) x = { x with reqs := r, comps := c } := fun l => by
    induction l with
    | nil => exact fun x => ⟨_, _, rfl⟩
    | cons e l ih =>
      intro x
      rw [List.foldl_cons]
      split
      · obtain ⟨r, c, h⟩ := ih { delReq x e.1 with comps := tdel x.comps e.1 }
        exact ⟨r, c, h⟩
      · exact ih x
  exact hfold _ d

theorem mem_dropReqs (l : Tab Req) (x : Dev) {y : Nat × Req} (hw : twf x.reqs = true)
    (hy : y ∈ (l.foldl (fun d e => if ofStall n e.2 && true then { delReq d e.1 with comps := tdel d.comps e.1 } else d) x).reqs) : y ∈ x.reqs ∧ (y ∈ l → ofStall n y.2 = false) := by
  induction l generalizing x with
  | nil => exact ⟨hy, nofun⟩
  | cons e l ih =>
    rw [List.foldl_cons] at hy
    split at hy
    next he =>
      obtain ⟨hmem, hl⟩ := ih { delReq x e.1 with comps := tdel x.comps e.1 } (twf_tdel _ _ hw) hy
      refine ⟨mem_of_mem_tdel hmem, fun hy' => ?_⟩
      rcases List.mem_cons.mp hy' with rfl | hy'
      · have hget := (mem_iff_tget (twf_tdel _ _ hw) y).1 hmem
        exact absurd ((tget_tdel_self _ _ hw).symm.trans hget) nofun
      · exact hl hy'
    next he =>
      obtain ⟨hmem, hl⟩ := ih x hw hy
      refine ⟨hmem, fun hy' => ?_⟩
      rcases List.mem_cons.mp hy' with rfl | hy'
      · simpa using he
      · exact hl hy'

theorem dropReqs_noReqs (hw : twf d.reqs = true) : NoReqs n (dropReqs d n fun _ => true) := fun y hy => by
  obtain ⟨hmem, hl⟩ := mem_dropReqs d.reqs d hw hy
  exact of_decide_eq_false (hl hmem)

theorem squashDma_noReqs (hw : twf d.reqs = true) : NoReqs n (squashDma d n) ∧ (squashDma d n).stl = d.stl := by
  have h := dropReqs_noReqs (n := n) hw
  obtain ⟨r, c, hd⟩ := dropReqs_parts d n fun _ => true
  unfold squashDma
  rw [hd] at h ⊢
  obtain ⟨x, g, hf⟩ := fenceWhere_frame { d with reqs := r, comps := c } fun t => decide (funcIdx t.func = n)
  rw [hf]
  exact ⟨h, rfl⟩

/-! ### Reclaiming and removal -/

theorem reclaim_parts (d : Dev) (n : Nat) : ∃ y g, reclaim d n = { d with yrd := y, ldg := g } := by
  have hfold : ∀ (l : List Nat) (x : Dev), ∃ y, l.foldl (fun d k =>
      let q := queueOf d (4 * n + k)
      setQueue d (4 * n + k) { q with cells := [], rdPos := 0, mkPos := 0, reqs := [], fresh := [], strandFrom := none, strandQuiet := false, strandDue := false }) x = { x with yrd := y } := fun l => by
    induction l with
    | nil => exact fun x => ⟨_, rfl⟩
    | cons k l ih =>
      intro x
      obtain ⟨y, h⟩ := ih (setQueue x (4 * n + k) { queueOf x (4 * n + k) with cells := [], rdPos := 0, mkPos := 0, reqs := [], fresh := [], strandFrom := none, strandQuiet := false, strandDue := false })
      exact ⟨y, h⟩
  obtain ⟨y, h⟩ := hfold [0, 1, 2, 3] d
  unfold reclaim
  rw [h]
  exact ⟨_, _, rfl⟩

/-- The stall's board past its header. -/
def BoardClear (n : Nat) (d : Dev) : Prop := ∀ o, 64 ≤ o → o < 4096 → memRead d.stl.boards (4096 * n + o) = 0

theorem clearBoard_clear : BoardClear n (clearBoard d n) := fun o h1 h2 => by
  refine (memRead_memClear d.stl.boards (boardSize * n + 64) (boardSize - 64) (4096 * n + o)).trans (if_pos ?_)
  rw [boardSize]
  omega

theorem stall_modStall_self (f : Stall → Stall) : stall (modStall d n f) n = f (stall d n) := stall_setStall ..

/-- What a removal takes from the stall's record and board. -/
theorem removeShares_stall : stall (removeShares d n) n = { stall d n with logUse := 0 } ∧ (removeShares d n).reqs = d.reqs ∧ BoardClear n (removeShares d n) := by
  have hc : Beside d (clearCharged d n) := .clearCharged (.refl d)
  unfold removeShares
  generalize clearCharged d n = x at hc
  have hlose : Beside (forgetUse (clearBoard x n) n) (loseBalance (forgetUse (clearBoard x n) n) n) := .loseBalance (.refl _)
  have hs : stall (forgetUse (clearBoard x n) n) n = { stall x n with logUse := 0 } := stall_modStall_self _
  have hclear : BoardClear n (forgetUse (clearBoard x n) n) := clearBoard_clear (d := x)
  have hreqs : (forgetUse (clearBoard x n) n).reqs = x.reqs := rfl
  generalize forgetUse (clearBoard x n) n = y at hlose hs hclear hreqs
  generalize loseBalance y n = z at hlose
  refine ⟨?_, hlose.reqs.trans (hreqs.trans hc.reqs), ?_⟩
  · unfold stall at hs ⊢
    rw [hlose.stl, hs, hc.stl]
  · unfold BoardClear
    rw [hlose.stl]
    exact hclear

/-- The ring that the end of a reset leaves. -/
def ringAt (removal : Bool) (r : Ring) : Ring := if removal then {} else ringReset r

/-- The stall once its reads are fenced and its cells reclaimed. -/
def emptied (d : Dev) (n : Nat) (removal : Bool) : Dev := modStall (reclaim (squashDma d n) n) n fun s => { s with ring := ringAt removal s.ring }

theorem retireStall_eq (d : Dev) (n : Nat) (removal : Bool) : retireStall d n removal = if removal then removeShares (emptied d n removal) n else emptied d n removal := by
  unfold retireStall emptied ringAt
  rfl

theorem emptied_stall {removal : Bool} (hw : twf d.reqs = true) : stall (emptied d n removal) n = { stall d n with ring := ringAt removal (stall d n).ring } ∧ NoReqs n (emptied d n removal) := by
  obtain ⟨hno, hstl⟩ := squashDma_noReqs (n := n) hw
  unfold emptied
  generalize squashDma d n = x at hno hstl
  obtain ⟨y, g, hr⟩ := reclaim_parts x n
  rw [hr]
  have hx : stall x n = stall d n := by unfold stall; rw [hstl]
  rw [← hx]
  exact ⟨stall_modStall_self _, hno⟩

theorem retireStall_stall {removal : Bool} (hw : twf d.reqs = true) :
    stall (retireStall d n removal) n = { stall d n with ring := ringAt removal (stall d n).ring, logUse := if removal then 0 else (stall d n).logUse } ∧ NoReqs n (retireStall d n removal) ∧
      (removal = true → BoardClear n (retireStall d n removal)) := by
  obtain ⟨hm, hreqs⟩ := emptied_stall (n := n) (removal := removal) hw
  rw [retireStall_eq]
  generalize emptied d n removal = m at hm hreqs
  cases removal with
  | false => exact ⟨hm, hreqs, nofun⟩
  | true =>
    obtain ⟨h1, h2, h3⟩ := removeShares_stall (d := m) (n := n)
    refine ⟨h1.trans (by rw [hm]; rfl), ?_, fun _ => h3⟩
    unfold NoReqs
    rw [if_pos rfl, h2]
    exact hreqs

/-! ### The steps after it -/

/-- A stall without work: no unit of the credits, no request, and a clear board where the stall is removed. -/
structure Emptied (n : Nat) (removal : Bool) (d : Dev) : Prop where
  held : heldBy d 0 n = 0
  reqs : NoReqs n d
  board : removal = true → BoardClear n d

variable {removal : Bool}

theorem Beside.emptied (k : Beside d e) (h : Emptied n removal d) : Emptied n removal e := by
  refine ⟨?_, ?_, fun hr => ?_⟩
  · unfold heldBy poolOf
    rw [k.ldg]
    exact h.held
  · unfold NoReqs
    rw [k.reqs]
    exact h.reqs
  · unfold BoardClear
    rw [k.stl]
    exact h.board hr

theorem Beside.stall (k : Beside d e) : Machine.stall e n = Machine.stall d n := by
  unfold Machine.stall
  rw [k.stl]

theorem Emptied.modStall {f : Stall → Stall} (h : Emptied n removal d) : Emptied n removal (modStall d n f) := ⟨h.held, h.reqs, h.board⟩

theorem Emptied.onPool {p : Nat} {f : Pool → Pool} (hp : p ≠ 0) (h : Emptied n removal d) : Emptied n removal (onPool d p f) := by
  refine ⟨?_, h.reqs, h.board⟩
  unfold heldBy
  rw [poolOf_onPool_ne d f hp.symm]
  exact h.held

theorem ldgDrain_emptied (hreqs : NoReqs n d) (hb : removal = true → BoardClear n d) : Emptied n removal (ldgDrain d 0 n) := by
  refine ⟨?_, hreqs, hb⟩
  unfold ldgDrain ldgRetire heldBy
  rw [poolOf_onPool]
  show tgetD (tset _ n _) n 0 = 0
  rw [tgetD_tset_self]
  omega

theorem setRecovery_emptied {k : Nat} (h : Emptied n removal d) : Emptied n removal (setRecovery d n k) := by
  unfold setRecovery
  dsimp only
  split
  · exact Emptied.onPool (by decide) ⟨h.held, h.reqs, h.board⟩
  · exact Emptied.onPool (by decide) ⟨h.held, h.reqs, h.board⟩

theorem setRecovery_stall {k : Nat} : stall (setRecovery d n k) n = { stall d n with recovery := k } := by
  have hset : tgetD (tset d.stl.stalls n { stall d n with recovery := k }) n {} = { stall d n with recovery := k } := tgetD_tset_self ..
  unfold setRecovery
  dsimp only
  split
  · exact hset
  · exact hset

theorem toState_stall {st : StallSt} : ∃ g, stall (toState d n st) n = { stall d n with st := st, gen := g } := by
  unfold toState
  split
  next h => exact ⟨(stall d n).gen, by rw [← h]⟩
  · refine ⟨nextGen (stall d n).gen, ?_⟩
    unfold writeHeader stall
    rw [alert_stl, signal_stl]
    exact tgetD_tset_self ..

theorem boardHeader_length (d : Dev) (n : Nat) : (boardHeader d n).length = 64 := by
  simp [boardHeader, b4, b2, zeros, leBytes]

/-- A header leaves the rest of its board. -/
theorem header_outside (d : Dev) (m : Mem) {n k o : Nat} (h1 : 64 ≤ o) (h2 : o < 4096) : memRead (memWriteBytes m (boardSize * k) (boardHeader d k)) (4096 * n + o) = memRead m (4096 * n + o) := by
  refine memRead_memWriteBytes_out _ _ _ _ ?_
  rw [boardHeader_length, boardSize]
  omega

theorem writeHeader_emptied (h : Emptied n removal d) : Emptied n removal (writeHeader d n) := by
  unfold writeHeader
  generalize hm : memWriteBytes d.stl.boards (boardSize * n) (boardHeader d n) = m
  refine ⟨h.held, h.reqs, fun hr o h1 h2 => ?_⟩
  show memRead m (4096 * n + o) = 0
  rw [← hm, header_outside d _ h1 h2]
  exact h.board hr o h1 h2

theorem toState_emptied {st : StallSt} (h : Emptied n removal d) : Emptied n removal (toState d n st) := by
  unfold toState
  exact keeps_ite (P := Emptied n removal) h (Beside.emptied (.alert (.signal (.refl _))) (writeHeader_emptied h.modStall))

/-! ### The end of the job -/

/-- The stall with its job closed. -/
def jobEndOf (j : StallJob) (s : Stall) : Stall := { s with job := none, status := ST.ok, resets := satInc s.resets, lastStatus := ST.ok, lastCause := j.cause, lastMode := lastModeOf j }

/-- The pools of a stall in which it still holds units. -/
def heldPools (d : Dev) (n : Nat) : List Nat := [0, 1, 2, 4].filter fun p => if p = 2 then engines.any (onEngine d n) else heldBy d p n != 0

/-- A stall's job up to its ledgers. -/
def jobRetired (d : Dev) (n : Nat) (removal : Bool) : Dev :=
  let d := ldgDrain (retireStall d n removal) 0 n
  setRecovery (setRecovery d n (max 1 (stall d n).recovery)) n 0

/-- The end of a stall's job from its ledgers on. -/
def jobClosed (d : Dev) (n : Nat) (j : StallJob) : Dev := toState (modStall (ledgerFail d (heldPools d n)) n (jobEndOf j)) n (if j.removal then .disabled else .ready)

/-- The stall's FLR answered. -/
def flrCleared (d : Dev) (n : Nat) : Dev := { d with hif := { d.hif with flrBusy := d.hif.flrBusy &&& ~~~BitVec.ofNat 64 (2 ^ n) } }

theorem completeJob_eq {j : StallJob} (hj : (stall d n).job = some j) (hd : drainDone d n j = true) :
    completeJob d n = flrCleared (jobClosed (jobRetired d n j.removal) n j) n := by
  unfold completeJob
  rw [hj]
  refine (if_neg (by rw [hd]; exact nofun)).trans ?_
  unfold flrCleared jobClosed jobRetired heldPools jobEndOf
  generalize retireStall d n j.removal = x
  dsimp only

theorem jobRetired_stall (hw : twf d.reqs = true) :
    stall (jobRetired d n removal) n = { stall d n with ring := ringAt removal (stall d n).ring, logUse := if removal then 0 else (stall d n).logUse, recovery := 0 } ∧ Emptied n removal (jobRetired d n removal) := by
  obtain ⟨hs, hr, hb⟩ := retireStall_stall (n := n) (removal := removal) hw
  unfold jobRetired
  generalize retireStall d n removal = x at hs hr hb
  have he : Emptied n removal (ldgDrain x 0 n) := ldgDrain_emptied hr hb
  have hx : stall (ldgDrain x 0 n) n = stall x n := rfl
  generalize ldgDrain x 0 n = y at he hx
  refine ⟨?_, setRecovery_emptied (setRecovery_emptied he)⟩
  rw [setRecovery_stall, setRecovery_stall, hx, hs]

theorem jobClosed_stall {j : StallJob} (h : Emptied n removal d) :
    (∃ g, stall (jobClosed d n j) n = { jobEndOf j (stall d n) with st := if j.removal then .disabled else .ready, gen := g }) ∧ Emptied n removal (jobClosed d n j) := by
  have hl : Beside d (ledgerFail d (heldPools d n)) := .ledgerFail (.refl d)
  unfold jobClosed
  generalize ledgerFail d (heldPools d n) = x at hl
  have hx : stall (modStall x n (jobEndOf j)) n = jobEndOf j (stall d n) := by
    rw [← hl.stall (n := n)]
    exact stall_modStall_self _
  refine ⟨?_, toState_emptied (hl.emptied h).modStall⟩
  obtain ⟨g, hg⟩ := toState_stall (d := modStall x n (jobEndOf j)) (n := n) (st := if j.removal then .disabled else .ready)
  exact ⟨g, hg.trans (by rw [hx])⟩

/-- What the end of a stall's reset leaves. -/
structure JobEnded (n : Nat) (x : Stall) (j : StallJob) (e : Dev) : Prop where
  stall : ∃ g, stall e n = { jobEndOf j { x with ring := ringAt j.removal x.ring, logUse := if j.removal then 0 else x.logUse, recovery := 0 } with st := if j.removal then .disabled else .ready, gen := g }
  emptied : Emptied n j.removal e
  flr : e.hif.flrBusy.getLsbD n = false

theorem getLsbD_cleared {w : BitVec 64} (hn : n < 64) : (w &&& ~~~BitVec.ofNat 64 (2 ^ n)).getLsbD n = false := by
  rw [BitVec.getLsbD_and, BitVec.getLsbD_not, BitVec.getLsbD_ofNat, Nat.testBit_two_pow_self]
  simp [hn]

theorem completeJob_ended {j : StallJob} (hn : n < 64) (hw : twf d.reqs = true) (hj : (Machine.stall d n).job = some j) (hd : drainDone d n j = true) : JobEnded n (Machine.stall d n) j (completeJob d n) := by
  rw [completeJob_eq hj hd]
  obtain ⟨hs, he⟩ := jobRetired_stall (n := n) (removal := j.removal) hw
  generalize jobRetired d n j.removal = x at hs he
  obtain ⟨⟨g, hg⟩, hc⟩ := jobClosed_stall (j := j) he
  generalize jobClosed x n j = y at hg hc
  exact ⟨⟨g, hg.trans (by rw [hs])⟩, Beside.emptied (d := y) ⟨rfl, rfl, rfl⟩ hc, getLsbD_cleared hn⟩

theorem JobEnded.beside {x : Stall} {j : StallJob} (h : JobEnded n x j d) (k : Beside d e) (hf : e.hif.flrBusy = d.hif.flrBusy ∨ e.hif.flrBusy = 0) : JobEnded n x j e := by
  refine ⟨?_, k.emptied h.emptied, ?_⟩
  · rw [k.stall]
    exact h.stall
  · rcases hf with hf | hf
    · rw [hf]
      exact h.flr
    · rw [hf]
      simp

theorem vfSettle_flr : (vfSettle d).hif.flrBusy = d.hif.flrBusy := by
  have hlog : ∀ (x : Dev) (r : Record), (logRec x r).hif = x.hif := fun x r => by
    obtain ⟨e, he⟩ := logRec_frame x r
    rw [he]
  unfold vfSettle
  split
  · rfl
  · dsimp only
    split
    · unfold createVfs
      dsimp only
      split
      · rw [hlog]
      · rfl
    · rfl

theorem signal_flr {f : Func} {v : Nat} : (signal d f v).hif.flrBusy = d.hif.flrBusy := by
  unfold signal
  split
  · rfl
  · rfl

theorem pfFlrSettle_flr : (pfFlrSettle d).hif.flrBusy = d.hif.flrBusy ∨ (pfFlrSettle d).hif.flrBusy = 0 := by
  unfold pfFlrSettle
  split
  · exact .inr signal_flr
  · exact .inl rfl

theorem stallResetDone_ended {j : StallJob} (hn : n < 64) (hw : twf d.reqs = true) (hj : (Machine.stall d n).job = some j) (hd : drainDone d n j = true) : JobEnded n (Machine.stall d n) j (stallResetDone d n) := by
  have h := completeJob_ended hn hw hj hd
  unfold stallResetDone
  generalize completeJob d n = x at h
  exact (h.beside (.vfSettle (.refl x)) (.inl vfSettle_flr)).beside (.pfFlrSettle (.refl _)) pfFlrSettle_flr

/-! ### The drain's cap -/

theorem drainCap_due {j : StallJob} (hj : (stall d n).job = some j) (hm : j.mode = .drain) (hd : j.drained = false) (hs : j.since + 800000 ≤ d.now) :
    drainCap d n = squashDma (setStall d n { stall d n with job := some { j with capped := true, drained := true } }) n := by
  unfold drainCap
  rw [hj]
  exact if_pos (by simp [hm, hd, hs])

theorem drainCap_idle {j : StallJob} (hj : (stall d n).job = some j) (h : j.mode = .squash ∨ j.drained = true ∨ d.now < j.since + 800000) : drainCap d n = d := by
  unfold drainCap
  rw [hj]
  refine if_neg fun hc => ?_
  simp only [Bool.and_eq_true, Bool.not_eq_true', beq_iff_eq, decide_eq_true_eq] at hc
  obtain ⟨⟨hm, hd⟩, hs⟩ := hc
  rcases h with h | h | h
  · exact absurd (hm.symm.trans h) nofun
  · exact absurd (hd.symm.trans h) nofun
  · omega

/-! ### The end of a reset -/

theorem drainDone_of {j : StallJob} (h : j.mode = .squash ∨ j.drained = true) : drainDone d n j = true := by
  unfold drainDone
  rcases h with h | h
  · simp [h]
  · simp [h]

theorem stallResetDone_idle (hj : (stall d n).job = none) (hf : d.hif.pfFlrBusy = false) (hv : d.hif.vfRemoving = false) : stallResetDone d n = d := by
  have h1 : completeJob d n = d := by
    unfold completeJob
    rw [hj]
  have h2 : vfSettle d = d := if_pos (by simp [hv])
  have h3 : pfFlrSettle d = d := if_neg (by simp [hf])
  unfold stallResetDone
  rw [h1, h2, h3]

/-! ### A change of the partition -/

/-- The states in which the fold over the stalls has written stall `n`'s header: the partition stands and the records but their Logbook shares. -/
structure Parted (a d : Dev) : Prop where
  reqs : d.reqs = a.reqs
  ldg : d.ldg = a.ldg
  part : d.stl.partReq = a.stl.partReq ∧ d.stl.partCur = a.stl.partCur ∧ d.stl.partStatus = a.stl.partStatus
  stalls : ∀ n, ∃ u, stall d n = { stall a n with logUse := u }
  boards : memWf d.stl.boards = true

/-- A stall whose share and header are those of the partition. -/
def Headed (n : Nat) (d : Dev) : Prop := (stall d n).logUse = 0 ∧ memBytes d.stl.boards (4096 * n) 64 = boardHeader d n

/-- What the change does to one stall. -/
def repart (old new : Nat) (d : Dev) (n : Nat) : Dev :=
  let d := forgetUse d n
  writeHeader (if enabled (stall d n) then scaleBalances d n old new else d) n

theorem partitionChange_eq {k : Nat} (h : firstFail (partChecks d (min k 6)) = none) :
    partitionChange d k = (List.range 64).foldl (repart (partN d) (2 ^ min k 6)) { d with stl := { d.stl with partReq := min k 6, partCur := min k 6, partStatus := ST.ok } } := by
  unfold partitionChange
  dsimp only
  rw [h]
  rfl

theorem scaleBalances_beside {old new : Nat} : Beside d (scaleBalances d n old new) := .foldl (fun _ _ h => h.upd) (.refl d)

/-- One stall's change: its header over its record with no share. -/
theorem repart_eq {old new : Nat} : ∃ e, Beside (forgetUse d n) e ∧ repart old new d n = writeHeader e n := by
  refine ⟨_, ?_, rfl⟩
  exact .ite scaleBalances_beside (.refl _)

theorem boardHeader_congr (hs : stall e n = stall d n) (hp : partN e = partN d) : boardHeader e n = boardHeader d n := by
  unfold boardHeader
  rw [hs, hp]

/-- A header writes the stall's board. -/
theorem writeHeader_boards (d : Dev) (n : Nat) : (writeHeader d n).stl.boards = memWriteBytes d.stl.boards (4096 * n) (boardHeader d n) := by
  unfold writeHeader
  rw [boardSize]

/-- A header touches boards alone. -/
theorem writeHeader_parts (d : Dev) (n : Nat) : ∃ m, writeHeader d n = { d with stl := { d.stl with boards := m } } := ⟨_, rfl⟩

theorem stall_writeHeader (m : Nat) : stall (writeHeader d m) n = stall d n := by
  obtain ⟨b, hb⟩ := writeHeader_parts d m
  rw [hb]
  rfl

theorem partN_writeHeader (m : Nat) : partN (writeHeader d m) = partN d := by
  obtain ⟨b, hb⟩ := writeHeader_parts d m
  rw [hb]
  rfl

theorem boardHeader_writeHeader (m : Nat) : boardHeader (writeHeader d m) n = boardHeader d n := boardHeader_congr (stall_writeHeader m) (partN_writeHeader m)

/-- A stall's record after one stall's change. -/
theorem stall_repart (old new m : Nat) : stall (repart old new d m) n = if n = m then { stall d m with logUse := 0 } else stall d n := by
  obtain ⟨e, he, hr⟩ := repart_eq (d := d) (n := m) (old := old) (new := new)
  rw [hr, stall_writeHeader, he.stall]
  split
  next h =>
    subst h
    exact stall_modStall_self _
  next h => exact stall_setStall_ne _ _ h

theorem memBytes_eq (b : Bytes) : ∀ (m : Mem) (k : Nat), (∀ i, i < b.length → memRead m (k + i) = byteAt b i) → memBytes m k b.length = b := by
  induction b with
  | nil => exact fun _ _ _ => rfl
  | cons x l ih =>
    intro m k h
    refine List.cons_eq_cons.mpr ⟨h 0 (Nat.zero_lt_succ _), ih m (k + 1) fun i hi => ?_⟩
    rw [Nat.add_right_comm]
    exact h (i + 1) (Nat.succ_lt_succ hi)

theorem memBytes_congr {m m' : Mem} (len : Nat) : ∀ k, (∀ i, i < len → memRead m (k + i) = memRead m' (k + i)) → memBytes m k len = memBytes m' k len := by
  induction len with
  | zero => exact fun _ _ => rfl
  | succ len ih =>
    intro k h
    refine List.cons_eq_cons.mpr ⟨h 0 (Nat.zero_lt_succ _), ih (k + 1) fun i hi => ?_⟩
    rw [Nat.add_right_comm]
    exact h (i + 1) (Nat.succ_lt_succ hi)

/-- A header written reads back, and leaves the other headers. -/
theorem writeHeader_headed (hm : memWf d.stl.boards = true) : memBytes (writeHeader d n).stl.boards (4096 * n) 64 = boardHeader (writeHeader d n) n := by
  rw [boardHeader_writeHeader, writeHeader_boards]
  have hlen := boardHeader_length d n
  generalize boardHeader d n = b at hlen
  rw [← hlen]
  exact memBytes_eq b _ _ fun i hi => memRead_memWriteBytes b _ _ i hm hi

theorem writeHeader_others {m : Nat} (h : n ≠ m) : memBytes (writeHeader d m).stl.boards (4096 * n) 64 = memBytes d.stl.boards (4096 * n) 64 := by
  rw [writeHeader_boards]
  have hlen := boardHeader_length d m
  generalize boardHeader d m = b at hlen
  refine memBytes_congr 64 (4096 * n) fun i hi => memRead_memWriteBytes_out b d.stl.boards (4096 * m) (4096 * n + i) ?_
  omega

theorem repart_part {old new m : Nat} : partN (repart old new d m) = partN d := by
  obtain ⟨e, he, hr⟩ := repart_eq (d := d) (n := m) (old := old) (new := new)
  rw [hr, partN_writeHeader]
  unfold partN
  rw [he.stl]
  rfl

theorem Parted.repart {old new m : Nat} (h : Parted a d) : Parted a (repart old new d m) := by
  refine ⟨?_, ?_, ?_, fun k => ?_, ?_⟩
  case refine_4 =>
    obtain ⟨u, hu⟩ := h.stalls k
    rw [stall_repart]
    split
    next hk =>
      subst hk
      exact ⟨0, by rw [hu]⟩
    · exact ⟨u, hu⟩
  all_goals
    obtain ⟨e, he, hr⟩ := repart_eq (d := d) (n := m) (old := old) (new := new)
    rw [hr]
  case refine_5 =>
    rw [writeHeader_boards]
    refine memWf_memWriteBytes _ _ _ ?_
    rw [he.stl]
    exact h.boards
  all_goals
    obtain ⟨b, hb⟩ := writeHeader_parts e m
    rw [hb]
  · exact he.reqs.trans h.reqs
  · exact he.ldg.trans h.ldg
  · show e.stl.partReq = _ ∧ e.stl.partCur = _ ∧ e.stl.partStatus = _
    rw [he.stl]
    exact h.part

/-- The header of the stall just changed. -/
theorem repart_headed {old new : Nat} (hm : memWf d.stl.boards = true) : Headed n (repart old new d n) := by
  have hs := stall_repart (d := d) (n := n) old new n
  rw [if_pos rfl] at hs
  obtain ⟨e, he, hr⟩ := repart_eq (d := d) (n := n) (old := old) (new := new)
  refine ⟨by rw [hs], ?_⟩
  rw [hr]
  exact writeHeader_headed (by rw [he.stl]; exact hm)

theorem Headed.repart {old new m : Nat} (hm : memWf d.stl.boards = true) (h : Headed n d) : Headed n (repart old new d m) := by
  by_cases hnm : n = m
  · subst hnm
    exact repart_headed hm
  · have hs := stall_repart (d := d) (n := n) old new m
    rw [if_neg hnm] at hs
    obtain ⟨huse, hbytes⟩ := h
    refine ⟨by rw [hs]; exact huse, ?_⟩
    rw [boardHeader_congr hs repart_part, ← hbytes]
    obtain ⟨e, he, hr⟩ := repart_eq (d := d) (n := m) (old := old) (new := new)
    rw [hr, writeHeader_others hnm, he.stl]
    rfl

theorem repart_fold {old new : Nat} (l : List Nat) (h : Parted a d) (hn : n ∈ l ∨ Headed n d) : Parted a (l.foldl (Machine.repart old new) d) ∧ Headed n (l.foldl (Machine.repart old new) d) := by
  induction l generalizing d with
  | nil => exact ⟨h, hn.resolve_left nofun⟩
  | cons m l ih =>
    refine ih h.repart ?_
    rcases hn with hn | hn
    · rcases List.mem_cons.mp hn with rfl | hn
      · exact .inr (repart_headed h.boards)
      · exact .inl hn
    · exact .inr (hn.repart h.boards)

end

/-! ### The obligation -/

theorem partitionChange_done {d : Dev} {k n : Nat} (hn : n < 64) (hm : memWf d.stl.boards = true) (h : firstFail (partChecks d (min k 6)) = none) :
    Parted { d with stl := { d.stl with partReq := min k 6, partCur := min k 6, partStatus := ST.ok } } (partitionChange d k) ∧ Headed n (partitionChange d k) := by
  rw [partitionChange_eq h]
  exact repart_fold (List.range 64) ⟨rfl, rfl, ⟨rfl, rfl, rfl⟩, fun m => ⟨(stall d m).logUse, rfl⟩, hm⟩ (.inl (List.mem_range.mpr hn))

theorem lastModeOf_eq {j : StallJob} : lastModeOf j = ((if j.mode = .drain then 1 else 0) ||| (if j.capped then 2 else 0)) := by
  unfold lastModeOf
  cases j.mode with
  | drain => rfl
  | squash => rfl

/-- Settles O35: each row through what one stall's end of reset (`stallResetDone_ended`) and one stall's change of partition (`repart_fold`) leave. -/
theorem stallResetsEndAndPartitionsChange : Obligations.StallResetsEndAndPartitionsChange := by
  unfold Obligations.StallResetsEndAndPartitionsChange
  intro s n x hx hm hw
  subst hx
  refine ⟨fun j hj hmode hd hs => ?_, fun j hj h => ?_, fun j hj h => ?_, fun hj hf hv => ?_, fun hj => ?_, fun k st h => ?_, fun k h => ?_⟩
  · exact congrArg (fun d => Host.Outcome.next (on s d)) (drainCap_due hj hmode hd hs)
  · exact congrArg (fun d => Host.Outcome.next (on s d)) (drainCap_idle hj h)
  · have he := stallResetDone_ended n.isLt hw hj (drainDone_of h)
    obtain ⟨⟨g, hg⟩, ⟨hheld, hreqs, hboard⟩, hflr⟩ := he
    refine ⟨on s (stallResetDone s.toDev n.val), rfl, rfl, ?_⟩
    refine ⟨congrArg Stall.st hg, congrArg Stall.job hg, congrArg Stall.recovery hg, congrArg Stall.resets hg, congrArg Stall.lastStatus hg, congrArg Stall.lastCause hg,
      (congrArg Stall.lastMode hg).trans lastModeOf_eq, congrArg Stall.ring hg, hheld, hflr, hreqs, fun hr => ⟨hboard hr, ?_⟩⟩
    exact (congrArg Stall.logUse hg).trans (if_pos hr)
  · exact congrArg (fun d => Host.Outcome.next (on s d)) (stallResetDone_idle hj hf hv)
  · have hrow : stallResetEnd s.toDev { stall := n, tagBad := true } = errFOpen s.toDev (rYrdFree s.toDev) := if_pos (by simpa [Option.isSome_iff_ne_none] using hj)
    exact congrArg (fun d => Host.Outcome.next (on s d)) hrow
  · have hrow : partitionChange s.toDev k.val = { s.toDev with stl := { s.stl with partReq := min k.val 6, partStatus := st } } := by
      unfold partitionChange
      dsimp only
      rw [h]
    exact congrArg (fun d => Host.Outcome.next (on s d)) hrow
  · obtain ⟨⟨hreqs, hldg, ⟨hreq, hcur, hstatus⟩, hstalls, -⟩, huse, hbytes⟩ := partitionChange_done n.isLt hm h
    obtain ⟨u, hu⟩ := hstalls n.val
    refine ⟨on s (partitionChange s.toDev k.val), rfl, rfl, hreq, hcur, hstatus, ?_⟩
    exact ⟨(congrArg Stall.st hu :), (congrArg Stall.gen hu :), (congrArg Stall.ring hu :), huse, hreqs, hldg, hbytes⟩

end Sys2Proof.Machine
end

end
